-- ==== Sys2Proof/Word.lean ====
section
/-!
DEFINITION. Bytes and byte strings, the only bit vectors of the model (R4: every field that leaves the device is
little-endian bytes).  Everything the manual counts or compares is a natural number.
-/
namespace Sys2Proof

/-- One byte of a frame, record or memory. -/
abbrev Byte := BitVec 8

/-- A byte string, lowest address first (R4). -/
abbrev Bytes := List Byte

end Sys2Proof
end

