-- ==== Sys2Proof/Machine/Bits.lean ====
section
/-!
DEFINITION. Little-endian fields (R4), two's complement (R5), stamps (R7, R8), cycle order (R9), the location word
(R2, R3) and the few list helpers every engine uses.
-/
namespace Sys2Proof.Machine

/-- `n` bytes of `v`, least significant first (R4). -/
def le : Nat → Nat → Bytes
  | 0, _ => []
  | n + 1, v => BitVec.ofNat 8 (v % 256) :: le n (v / 256)

/-- The number a byte string spells, least significant byte first (R4). -/
def unle : Bytes → Nat
  | [] => 0
  | b :: bs => b.toNat + 256 * unle bs

/-- `n` zero bytes. -/
def zeros (n : Nat) : Bytes := List.replicate n 0#8

/-- The field of `n` bytes at offset `o`; bytes beyond the end read 0. -/
def fld (bs : Bytes) (o n : Nat) : Nat := unle ((bs.drop o).take n)

/-- `n` bytes from offset `o`. -/
def cut (bs : Bytes) (o n : Nat) : Bytes := (bs.drop o).take n

/-- A byte string padded with zeros, or cut, to `n` bytes. -/
def fit (n : Nat) (bs : Bytes) : Bytes := (bs ++ zeros (n - bs.length)).take n

/-- Bit `i` of a number. -/
def bitOf (v i : Nat) : Bool := v / 2 ^ i % 2 == 1

/-- A flag as the bit it is on the wire. -/
def bit (b : Bool) : Nat := if b then 1 else 0

/-- `v` with bit `i` set to `b`. -/
def setBit (v i : Nat) (b : Bool) : Nat :=
  if bitOf v i = b then v else if b then v + 2 ^ i else v - 2 ^ i

/-- Bits `hi` down to `lo` of a number (the manual's `NAME[hi:lo]`). -/
def bits (v hi lo : Nat) : Nat := v / 2 ^ lo % 2 ^ (hi + 1 - lo)

/-- The places of the set bits of a mask below `n`, ascending. -/
def setBits (n v : Nat) : List Nat := (List.range n).filter (bitOf v)

/-- The mask whose set bits are the listed places. -/
def maskOf (l : List Nat) : Nat := l.foldl (fun m i => setBit m i true) 0

/-- The signed value of a `w`-bit two's-complement number (R5). -/
def toS (w v : Nat) : Int := if v % 2 ^ w < 2 ^ (w - 1) then (v % 2 ^ w : Nat) else ((v % 2 ^ w : Nat) : Int) - 2 ^ w

/-- The `w`-bit two's-complement form of an integer (R5). -/
def ofS (w : Nat) (z : Int) : Nat := (z % (2 ^ w : Int)).toNat

/-- An integer held to the range of a `w`-bit signed number. -/
def satS (w : Nat) (z : Int) : Int := max (-(2 ^ (w - 1) : Int)) (min (2 ^ (w - 1) - 1) z)

/-- A number held to at most `m`. -/
def sat (m v : Nat) : Nat := min m v

/-- Signed field of `n` bytes. -/
def fldS (bs : Bytes) (o n : Nat) : Int := toS (8 * n) (fld bs o n)

/-- Nanoseconds in a second. -/
def sec : Nat := 1000000000

/-- Nanoseconds in a millisecond. -/
def ms : Nat := 1000000

/-- Nanoseconds in a microsecond. -/
def us : Nat := 1000

/-- The length of a cycle, exactly 50 ms of hub time (R19). -/
def cycleNs : Nat := 50 * ms

/-- A stamp64: seconds modulo 2^34 in bits 63:30, nanoseconds in bits 29:0 (R7). -/
def stamp64 (t : Nat) : Nat := (t / sec % 2 ^ 34) * 2 ^ 30 + t % sec

/-- The nanoseconds of hub time a stamp64 names, or none where its nanosecond field never occurs (R7). -/
def ofStamp64 (v : Nat) : Option Nat :=
  if v % 2 ^ 30 < sec then some (v / 2 ^ 30 % 2 ^ 34 * sec + v % 2 ^ 30) else none

/-- A hubtime80: 48-bit seconds, then nanoseconds (R8). -/
def hubtime80 (t : Nat) : Bytes := le 6 (t / sec) ++ le 4 (t % sec)

/-- The hub time a hubtime80 at offset `o` names (R8). -/
def ofHubtime80 (bs : Bytes) (o : Nat) : Nat := fld bs o 6 * sec + fld bs (o + 6) 4

/-- The cycle that holds a hub time (R19), counted without wrapping; `u32` wraps it. -/
def cycleOf (t : Nat) : Nat := t / cycleNs

/-- A number as a 32-bit value that wraps. -/
def u32 (n : Nat) : Nat := n % 2 ^ 32

/-- R9: cycle `a` is later than cycle `b`. -/
def later (a b : Nat) : Bool :=
  let d := (a + 2 ^ 32 - b % 2 ^ 32) % 2 ^ 32
  1 ≤ d && d ≤ 2 ^ 31 - 1

/-- R9 used as an order with equality: cycle `a` has come by cycle `b`. -/
def notLater (a b : Nat) : Bool := !later a b

/-- Rounding to the nearest integer, halves away from zero. -/
def roundDiv (a b : Nat) : Nat := (2 * a + b) / (2 * b)

/-- Signed division rounded to nearest, halves away from zero. -/
def roundDivS (a : Int) (b : Nat) : Int :=
  if 0 ≤ a then (roundDiv a.toNat b : Nat) else -((roundDiv (-a).toNat b : Nat) : Int)

/-- Largest natural number whose square is at most `n`, by bits from the top. -/
def isqrtAux (n : Nat) : Nat → Nat → Nat
  | 0, r => r
  | k + 1, r => isqrtAux n k (if (r + 2 ^ k) * (r + 2 ^ k) ≤ n then r + 2 ^ k else r)

/-- The integer square root of `n`, rounded down. -/
def isqrt (n : Nat) : Nat := isqrtAux n (n.log2 / 2 + 1) 0

/-- The square root of `n`, rounded to nearest. -/
def isqrtNear (n : Nat) : Nat := let r := isqrt n; if r * r + r < n then r + 1 else r

/-- Level at which a fault is contained (Table 0.3). -/
inductive Level where
  | cell | lane | slice | tile | engine | die | package
  deriving DecidableEq, Repr

/-- The number of a containment level (Table 0.3). -/
def Level.code : Level → Nat
  | .cell => 1 | .lane => 2 | .slice => 3 | .tile => 4 | .engine => 5 | .die => 6 | .package => 7

/-- The location word of a fault (R2, Table 0.4); R3 fixes the fields at Package level. -/
def location (engine tile slice : Nat) (l : Level) : Nat :=
  match l with
  | .package => 0x00FFFF00 + 7
  | .die => tile % 256 * 2 ^ 16 + 0xFF * 2 ^ 8 + 6
  | .engine => engine % 256 * 2 ^ 24 + 0xFFFF00 + 5
  | .tile => engine % 256 * 2 ^ 24 + tile % 256 * 2 ^ 16 + 0xFF00 + 4
  | l => engine % 256 * 2 ^ 24 + tile % 256 * 2 ^ 16 + slice % 256 * 2 ^ 8 + l.code

/-- The element at a place, or the type's plain value. -/
def nth {α : Type} [Inhabited α] (l : List α) (i : Nat) : α := l.getD i default

/-- The list with the element at a place changed. -/
def upd {α : Type} (l : List α) (i : Nat) (f : α → α) : List α := l.modify i f

/-- Indexed mapping over a list, from place `i` on. -/
def mapFrom {α β : Type} (f : Nat → α → β) : Nat → List α → List β
  | _, [] => []
  | i, a :: as => f i a :: mapFrom f (i + 1) as

/-- Insertion into a list that `lt` orders, after equal elements. -/
def insertBy {α : Type} (lt : α → α → Bool) (x : α) : List α → List α
  | [] => [x]
  | y :: ys => if lt x y then x :: y :: ys else y :: insertBy lt x ys

/-- Stable sort by insertion. -/
def sortBy {α : Type} (lt : α → α → Bool) (l : List α) : List α := l.foldl (fun acc x => insertBy lt x acc) []

/-- Field by field comparison of equal-length keys, all unsigned (R27). -/
def lexLt : List Nat → List Nat → Bool
  | [], [] => false
  | [], _ :: _ => true
  | _ :: _, [] => false
  | a :: as, b :: bs => if a < b then true else if b < a then false else lexLt as bs

/-- Text as its bytes (one byte a character). -/
def ascii (s : String) : Bytes := s.toList.map fun c => BitVec.ofNat 8 c.toNat

end Sys2Proof.Machine
end

