-- ==== Sys2Proof/Machine/Types.lean ====
section
/-!
DEFINITION. The plain data the engines hold beside their parameters, and the operands that commands carry.  Times are
nanoseconds of hub time; cycles are counted without wrapping and wrapped where they are encoded (R9).
-/
namespace Sys2Proof.Machine

/-! ### Host link, Chutes and what leaves the device -/

/-- An endpoint of the host link (R367): transport 0 UDP, 1 serial; address and port 0 for serial. -/
structure Ep where
  tr : Nat := 0
  ip : Nat := 0
  port : Nat := 0
  deriving DecidableEq, Repr, Inhabited

/-- What the Host Port knows of a command frame beside its payload: sender, `TAG`, `MAILBOX`, admission instant and the
session trailer (`SCNT`, `SMAC`) where `SEC` is set (Table 14.1). -/
structure HostCtx where
  ep : Ep := {}
  tag : Nat := 0
  mbx : Nat := 1
  admitAt : Nat := 0
  trailer : Option (Nat × Bytes) := none
  deriving DecidableEq, Repr, Inhabited

/-- What leaves the device, in order.  The model appends and never removes. -/
inductive Output where
  /-- A mail frame: kind of Table 14.1, endpoint, `TAG`, mailbox, `FLAGS`, payload, trailer. -/
  | mail (kind : Nat) (ep : Ep) (tag mbx flags : Nat) (payload trailer : Bytes)
  /-- A frame on air: slice, channel, PSDU. -/
  | air (slice chan : Nat) (psdu : Bytes)
  /-- A beacon (copy 0) or stop frame copy: slice, channel, copy, frame body in clear, PSDU on air. -/
  | safe (slice chan copy : Nat) (body psdu : Bytes)
  /-- A pulse edge on a TP output: output, edge number, scheduled instant, width, late quarter ticks. -/
  | pulse (out n sched width fine : Nat)
  /-- A CAN frame: controller, buffer, identifier, data. -/
  | can (ctrl buf id : Nat) (data : Bytes)
  /-- An Ethernet frame: port, bytes. -/
  | eth (port : Nat) (frame : Bytes)
  /-- A PTP message: port, type, fields. -/
  | ptp (port type : Nat) (body : Bytes)
  /-- A message over the Brynorn link: message number of Table 10.4, body. -/
  | link (msg : Nat) (body : Bytes)
  /-- A pin level. -/
  | pin (name : String) (level : Bool)
  /-- A trace record on `TRC`. -/
  | trace (rec : Bytes)
  /-- A stream item before it is framed for a subscriber: kind, item. -/
  | item (kind : Nat) (bytes : Bytes)
  /-- What the ACTIVE unit gives a Derrick axis line or the analog side: axis, steps. -/
  | axis (n : Nat) (pos : Int)
  deriving DecidableEq, Repr

/-- A reply: status of Table 14.3 and body. -/
structure Reply where
  status : Nat := 0
  body : Bytes := []
  deriving DecidableEq, Repr, Inhabited

/-- What becomes of a queued command: answered, to be read from the next commit's state, or held (R374, R381). -/
inductive Decided where
  | done (r : Reply)
  | read (payload : Bytes)
  | held
  deriving DecidableEq, Repr, Inhabited

/-- A command in a mailbox queue (R375, R376): the cycle it is admitted to, whether its reply may carry a trailer, the session slot it was sent under, its
decision, what follows its reply (0 nothing, 1 the session ends, 2 restart, 3 trial boot, 4 Dormant, 5 replay left, 6 restart of a SILENT unit). -/
structure Queued where
  mbx : Nat := 1
  ep : Ep := {}
  tag : Nat := 0
  op : Nat := 0
  crc : Nat := 0
  stamp : Nat := 0
  cycle : Nat := 0
  trailer : Bool := true
  slot : Option Nat := none
  decided : Decided := .held
  after : Nat := 0
  deriving DecidableEq, Repr, Inhabited

/-- The repeat record of one command (R377). -/
structure DupRec where
  ep : Ep := {}
  mbx : Nat := 1
  tag : Nat := 0
  crc : Nat := 0
  stamp : Nat := 0
  op : Nat := 0
  reply : Option Reply := none
  deriving DecidableEq, Repr, Inhabited

/-- A session slot: an open session or a pending challenge (R383, R385). -/
structure Session where
  ep : Ep := {}
  level : Nat := 0
  pending : Bool := true
  begun : Nat := 0
  hn : Bytes := []
  ch : Bytes := []
  ks : Bytes := []
  last : Nat := 0
  hostCnt : Nat := 0
  devCnt : Nat := 0
  closing : Bool := false
  deriving DecidableEq, Repr, Inhabited

/-- Wrong proofs of an endpoint and its lockout (R385). -/
structure AuthFail where
  ep : Ep := {}
  stamps : List Nat := []
  lockedFrom : Option Nat := none
  deriving DecidableEq, Repr, Inhabited

/-- A subscription slot (R386): mask bit 0 notices, bits 8:1 stream kinds; `lost` marks drops since the last frame. -/
structure Sub where
  ep : Ep := {}
  mask : Nat := 0
  last : Nat := 0
  lost : Nat := 0
  deriving DecidableEq, Repr, Inhabited

/-- The content a GET_BLOCK with OFFSET 0 fixed for its endpoint (R380). -/
structure Fixed where
  ep : Ep := {}
  id : Nat := 0
  inst : Nat := 0
  at_ : Nat := 0
  body : Bytes := []
  deriving DecidableEq, Repr, Inhabited

/-- An open load image (R381). `lastQ` is the queued last chunk whose reply is held. -/
structure Load where
  target : Nat := 0
  total : Nat := 0
  data : Bytes := []
  last : Nat := 0
  done : Bool := false
  decideAt : Nat := 0
  allowed : Bool := true
  tag : Nat := 0
  ep : Ep := {}
  deriving DecidableEq, Repr, Inhabited

/-- One ring entry of a notice (R387). -/
structure NoticeRec where
  seq : Nat := 0
  code : Nat := 0
  body : Bytes := []
  deriving DecidableEq, Repr, Inhabited

/-- What the Host Port holds: mailbox queues, repeat records, session slots, endpoints with wrong proofs, subscription slots, content fixed for block reads,
images being loaded, the notice ring, stream sequences; of the serial port the receive buffer's fill, whether bytes are discarded up to a delimiter, `HU_CTS`
high, `HU_RTS` high, and frames that wait for `HU_CTS`. -/
structure HostSt where
  queue : List Queued := []
  dup : List DupRec := []
  slots : List (Option Session) := [none, none, none, none]
  fails : List AuthFail := []
  subs : List Sub := []
  fixed : List Fixed := []
  loads : List Load := []
  ring : List NoticeRec := []
  sseq : List Nat := [0, 0, 0, 0, 0, 0, 0, 0, 0]
  rxFill : Nat := 0
  discard : Bool := false
  ctsStop : Bool := false
  rtsOff : Bool := false
  txHeld : List Output := []
  deriving DecidableEq, Repr, Inhabited

/-! ### Inputs, admission and the journal -/

/-- An input of the committed path (R20): stamp, class, index, source sequence, payload, admission instant, LATE mark, and for a safety mail frame the
session slot and level of its sender. -/
structure Input where
  stamp : Nat := 0
  cls : Nat := 0
  idx : Nat := 0
  seq : Nat := 0
  payload : Bytes := []
  admitAt : Nat := 0
  late : Bool := false
  sid : Option Nat := none
  level : Nat := 3
  deriving DecidableEq, Repr, Inhabited

/-- One Chute slice (R390 to R395): inputs whose packets have not been committed yet, whether words are discarded until the next `SOP`, since when a
committed packet has stood unread, parity failure instants. -/
structure Chute where
  waiting : List Input := []
  discarding : Bool := false
  stood : Option Nat := none
  parity : List Nat := []
  deriving DecidableEq, Repr, Inhabited

/-- What a producer wrote into a Chute up to an `EOP` word (R390 to R393): words of the packet, whether it is a descriptor and its buffer passes its CRC,
runs of words without an open packet before it, packets that a new `SOP` cut off, whether it ends in `ABORT`, parity of its words going in and out. -/
structure Packet where
  words : Nat := 1
  desc : Bool := false
  descOk : Bool := true
  orphans : Nat := 0
  cutOff : Nat := 0
  abort : Bool := false
  parityIn : Bool := true
  parityOut : Bool := true
  deriving DecidableEq, Repr, Inhabited

/-- Where an entry of the journal stream begins (R33): its place in the stream since the cold start, its cycle, whether it is a cycle's first. -/
structure JMark where
  offset : Nat := 0
  cycle : Nat := 0
  first : Bool := false
  deriving DecidableEq, Repr, Inhabited

/-- The input journal (R32, R33): number of the oldest block held, the entry stream from that block on, where its entries begin, whether the window is
held. -/
structure Journal where
  base : Nat := 0
  stream : Bytes := []
  marks : List JMark := []
  hold : Bool := false
  deriving DecidableEq, Repr, Inhabited

/-- A replay feed in progress (R34, R46): next offset, bytes of an entry not yet complete, coverage base blocks fed, the starting checkpoint head once
it has come (cycle, coverage digest, coverage blocks still to come), the last cycle committed, whether the last entry has come, the cycle being fed
(admission record, inputs), the last committed cycle with its digest, blocks of a later checkpoint still to come. -/
structure Feed where
  started : Bool := false
  next : Nat := 0
  buf : Bytes := []
  base : List (Nat × Bytes) := []
  rebuild : Bool := false
  head : Option (Nat × Nat × Nat) := none
  ready : Bool := false
  committed : Option Nat := none
  ended : Bool := false
  record : Option Bytes := none
  inputs : List Input := []
  digest : Option (Nat × Bytes) := none
  skip : Nat := 0
  deriving DecidableEq, Repr, Inhabited

/-- A notice that a command of a cycle raised before its commit, where it is entered (R35, R374): code, Tile, body, whether the time follows. -/
structure Said where
  cycle : Nat := 0
  code : Nat := 0
  tile : Nat := 0xFF
  body : Bytes := []
  timed : Bool := false
  deriving DecidableEq, Repr, Inhabited

/-- The Bench's cycle state. `adm` lists admitted inputs with their cycle; `seqs` the next source sequence for class and index;
`floor` is the hub time before which stamps are not admitted (R42, R44); `covBase` the cycle at which the coverage store was last rebuilt. -/
structure Cyc where
  origin : Option Nat := none
  next : Nat := 0
  floor : Nat := 0
  adm : List (Nat × Input) := []
  seqs : List (Nat × Nat) := []
  spilled : List Nat := []
  flagCold : Bool := false
  flagStep : Bool := false
  flagTake : Bool := false
  skipped : Nat := 0
  overrun : Bool := false
  missed : Bool := false
  /-- True while commit processing runs, with the cycle: notices raised then are committed records. -/
  inCommit : Option Nat := none
  /-- The commit log records of the cycle being committed (class 7). -/
  log : List Bytes := []
  /-- The cycle whose command is being decided: its notices wait for the commit. -/
  defer : Option Nat := none
  said : List Said := []
  lastCommitAt : Nat := 0
  changedCov : List Nat := []
  journal : Journal := {}
  feed : Feed := {}
  covBase : Option Nat := none
  deriving DecidableEq, Repr, Inhabited

/-! ### Event recorder -/

/-- A log record (R419) with its repeat information and whether it is open, live and as of the last flush (R429, R432). -/
structure Rec where
  code : Nat := 0
  safety : Bool := false
  sev : Nat := 0
  flags : Nat := 0
  source : Nat := 0
  seq : Nat := 0
  stamp : Nat := 0
  body : Bytes := []
  rep : Nat := 0
  last : Nat := 0
  repF : Nat := 0
  lastF : Nat := 0
  isOpen : Bool := true
  openF : Bool := true
  deriving DecidableEq, Repr, Inhabited

/-- A pending region clear (R435): session slot, region, challenge, request stamp. -/
structure ClearReq where
  sid : Nat := 0
  region : Nat := 0
  cn : Bytes := []
  gen : Nat := 0
  stamp : Nat := 0
  deriving DecidableEq, Repr, Inhabited

/-- One region of the log (R426): held records, oldest first; last-words mode with its cause and the next retry (R441); blocks that failed in a row;
unreadable records seen (R439). -/
structure Region where
  recs : List Rec := []
  lastWords : Bool := false
  why : Nat := 0
  retryAt : Nat := 0
  failRun : Nat := 0
  unreadable : Bool := false
  deriving DecidableEq, Repr, Inhabited

/-- The Recorder: volatile buffer, regions, last-words area and whether the NAND has accepted a write since its last use, the MRAM image and how many of
its records were appended after the copy, next sequences as of the last flush, the full marker, pending clears, whether `PFAIL_N` is asserted. -/
structure Recorder where
  buf : List Rec := []
  regions : List Region := [{}, {}]
  lw : List Rec := []
  lwWrote : Bool := false
  image : Option (List Rec) := none
  imageTail : Nat := 0
  nvNext : List Nat := [0, 0]
  fullMark : Option (Nat × Nat) := none
  clears : List ClearReq := []
  pfail : Bool := false
  deriving DecidableEq, Repr, Inhabited

/-! ### Hub time -/

/-- What the time unit holds beside its parameters: the fraction of a nanosecond (R50), the frequency and slew terms (R51, R58),
the offset still to be slewed out, the last usable measurement of the source in use, the qualified sources, the instant from
which time counts toward LOCKED, the armed STEP, and the state of the pulse outputs and capture inputs.  `tpDone` lists, for
each output, the edge indices emitted as ranges; `tpSuppress` the step instant whose next PPS edge is withheld (R60); `setAt` the instant at
which hub time left UNSET (R42). -/
structure Tim where
  frac : Nat := 0
  freq : Nat := 4 * 2 ^ 32
  slew : Int := 0
  remain : Int := 0
  holdRemain : Int := 0
  u0 : Nat := 0
  lastMeas : Option Nat := none
  qualified : List Nat := []
  barred : List Nat := []
  countFrom : Nat := 0
  degCause : Nat := 5
  stepAt : Option Nat := none
  tpMode : List Nat := [0, 0, 0, 0]
  tpPend : List (Option (Nat × Nat)) := [none, none, none, none]
  tpDone : List (List (Nat × Nat)) := [[], [], [], []]
  tpSuppress : List (Option Nat) := [none, none, none, none]
  evtLast : List (Option Nat) := [none, none, none, none]
  evtLost : List Bool := [false, false, false, false]
  untrusted : Bool := false
  setAt : Nat := 0
  deriving DecidableEq, Repr, Inhabited

/-! ### Vermilion -/

/-- A stop scope: the `ALL` flag, 16 group bits, 96 machine bits (R221, Table 8.5). -/
structure Scope where
  all : Bool := false
  groups : Nat := 0
  mask : Nat := 0
  deriving DecidableEq, Repr, Inhabited

/-- What identifies a stop event: stamp, input class and index (Table 8.11). -/
structure EvKey where
  stamp : Nat := 0
  cls : Nat := 0
  idx : Nat := 0
  deriving DecidableEq, Repr, Inhabited

/-- A vote word (Table 8.1). -/
structure Vote where
  permit : Bool := false
  scope : Scope := {}
  seq : Nat := 0
  deriving DecidableEq, Repr, Inhabited

/-- One Vermilion lane: its latched state, the event that last set each component (component 0 `ALL`, 1 to 16 groups, 17 to
112 machines), the events since its last tick, its vote word with the tick that wrote it, and the cycle of the fence table
and position list it accepted last, the cycle whose deadline passed without them (R219). -/
structure Lane where
  latched : Scope := { all := true }
  setBy : List (Nat × EvKey) := []
  newEv : List (Nat × Nat) := []
  seq : Nat := 0
  failed : Bool := false
  word : Option (Nat × Vote) := none
  fenceCycle : Option Nat := none
  lateFor : Option Nat := none
  deriving DecidableEq, Repr, Inhabited

/-- A stop frame series (R226): stamp and code of its starting source, next copy and its due instant. -/
structure Series where
  tEvent : Nat := 0
  cause : Nat := 0
  next : Nat := 0
  due : Nat := 0
  deriving DecidableEq, Repr, Inhabited

/-- An accepted arm (R231): the session slot, the scope bytes, the stamp. -/
structure Arm where
  sid : Nat := 0
  scope : Bytes := []
  stamp : Nat := 0
  deriving DecidableEq, Repr, Inhabited

/-- The committed stop state (R235): latched scope, folded levels and faults, arm, and the record of the last cycle. -/
structure StopCom where
  latched : Scope := { all := true }
  levels : List Bool := [false, false, false, false]
  faults : List Bool := [false, false]
  outFault : Bool := false
  arm : Option Arm := none
  record : Bytes := []
  deriving DecidableEq, Repr, Inhabited

/-- Vermilion beside its parameters: lanes, voter, E-stop channels (accepted level closed, raw level, its instant), circuit
faults with their clearing progress, safety outputs, series, and the safety mail waiting for its commit with the session
slot and level that were judged at reception. -/
structure Stop where
  lanes : List Lane := [{}, {}, {}]
  diff : List Nat := [0, 0, 0]
  allDiff : Nat := 0
  permits : List (Nat × Bool) := []
  out : Vote := { scope := { all := true } }
  level : List Bool := [false, false, false, false]
  pulsePass : List Nat := [0, 0, 0, 0]
  sawOpen : List Bool := [false, false]
  sawClosed : List Bool := [false, false]
  circuit : List Bool := [false, false]
  diffSince : List (Option (Nat × Nat)) := [none, none]
  outFault : Bool := false
  outOn : Bool := false
  fbSince : Option Nat := none
  verdict : Bool := false
  ownFail : Bool := false
  withheldBy : Nat := 1
  series : Option Series := none
  unentered : List EvKey := []
  pendingFence : Option (Nat × Bytes × Bytes) := none
  lastRecord : Option (Nat × Scope) := none
  lastEv : Nat × Nat := (0, 0)
  testsDone : Bool := false
  canSilent : List Bool := [false, false, false, false]
  remoteSilent : List Bool := List.replicate 16 false
  kept : List (List (Option Vote)) := [[], [], [], []]
  mail : List (Input × Option Nat × Nat × Queued) := []
  remoteLast : List (Option Nat) := List.replicate 16 none
  canLast : List (Option Nat) := [none, none, none, none]
  unheard : List Nat := [0, 0, 0, 0]
  firstBeacon : Bool := true
  bcnCycle : Option Nat := none
  deriving DecidableEq, Repr, Inhabited

/-! ### Peer -/

/-- The Peer engine beside its parameters (R276 to R291): `SEAT` driven and as last sampled, a give-up in progress with its
boundary, heartbeat sequences and instants, the restore count, the key, the tenure and state last heard, copies applied, the
running counts of matching and mismatching digests, and the instants that time SHADOW, SILENT and restarts. -/
structure Peer where
  seatDriven : Bool := false
  seatHigh : Bool := true
  yielding : Bool := false
  boundary : Option Nat := none
  takeGot : Bool := false
  giveB : Option Nat := none
  takeSent : Bool := false
  hbSeq : Nat := 0
  hbLastSeq : Option Nat := none
  hbLastAt : Option Nat := none
  restored : Nat := 0
  trained : Bool := false
  key : Option Bytes := none
  peerTenure : Nat := 0
  peerMode : Nat := 0
  peerCycle : Nat := 0
  peerOffset : Option Int := none
  digestSkip : Bool := false
  lastCopy : Option Nat := none
  waitCheckpoint : Bool := false
  matchRun : Nat := 0
  mismatchRun : Nat := 0
  holdFrom : Option Nat := none
  holdMismatch : Bool := false
  claim : Option Nat := none
  refused : Bool := false
  silentAt : Option Nat := none
  restarts : List Nat := []
  beaconCycles : List Nat := []
  foreign : List (Nat × Input) := []
  fwd : List (Nat × Queued) := []
  lossLatch : Bool := false
  lastState : Nat := 0
  deriving DecidableEq, Repr, Inhabited

/-! ### Air -/

/-- A frame waiting on a slice or on air (R255, R256): its row of Table 9.6, the instant it was queued, message type, machine (0 for
none), key instance, `MID`, fragment index and last index, the plain fragment, the whole message, retries used, and the PSDU once it
has been formed. -/
structure TxFrame where
  row : Nat := 4
  since : Nat := 0
  type : Nat := 0
  machine : Nat := 0
  key : Nat := 0
  mid : Nat := 0
  frag : Nat := 0
  last : Nat := 0
  part : Bytes := []
  msg : Bytes := []
  flood : Bool := false
  retries : Nat := 0
  psdu : Option Bytes := none
  deriving DecidableEq, Repr, Inhabited

/-- What a slice last put on air: the frame, its channel, the end of its last bit and of its acknowledgement wait. -/
structure OnAir where
  frame : TxFrame := {}
  chan : Nat := 0
  fin : Nat := 0
  wait : Nat := 0
  deriving DecidableEq, Repr, Inhabited

/-- A key instance (R266, R267): current, next and previous key, a first key that waits for the next boundary, the end of the
previous key's grace, the scheduled rollover cycle, and the mark of its frame counter in MRAM (R265). -/
structure AirKey where
  inst : Nat := 0
  cur : Option Bytes := none
  next : Option Bytes := none
  prev : Option Bytes := none
  first : Option Bytes := none
  grace : Nat := 0
  roll : Option Nat := none
  mark : Nat := 0
  deriving DecidableEq, Repr, Inhabited

/-- A replay window (R264): the highest accepted counter and the map of the 64 values below and at it, bit j for h − j. -/
structure Window where
  origin : Nat := 0
  key : Nat := 0
  epoch : Nat := 0
  high : Nat := 0
  map : Nat := 0
  deriving DecidableEq, Repr, Inhabited

/-- A reassembly slot (R260): fragments by index; slice and SFD instant of fragment 0. -/
structure Reasm where
  origin : Nat := 0
  mid : Nat := 0
  target : Nat := 0
  last : Nat := 0
  opened : Nat := 0
  slice : Nat := 0
  sfd : Nat := 0
  parts : List (Nat × Bytes) := []
  deriving DecidableEq, Repr, Inhabited

/-- A key delivery (kind 1) or link configuration (kind 2) sent to a machine until acknowledged (R268 to R270). -/
structure Delivery where
  machine : Nat := 0
  kind : Nat := 0
  kclass : Nat := 0
  epoch : Nat := 0
  at_ : Nat := 0
  msg : Bytes := []
  sent : Option Nat := none
  done : Bool := false
  deriving DecidableEq, Repr, Inhabited

/-- Transmit time of a channel (R246): instance of `AIR.DWELL_USED`, bin number, microseconds. -/
structure Bin where
  chan : Nat := 0
  no : Nat := 0
  used : Nat := 0
  deriving DecidableEq, Repr, Inhabited

/-- The Air engine beside its parameters.  `links` holds (SRC, LSEQ, instant); `heard` (origin, MID, instant); `seen`
(origin, FCNT, instant); `orphans` (origin, MID, instant); `silent` (slice, channel, class, cycle); `lastSlice` (machine, slice);
`stay` the instant until which a slice keeps receiving after `PEND`; `nvBins`, `nvTuned`, `nvCycle` and `nvWin` what MRAM holds. -/
structure Air where
  queues : List (List TxFrame) := [[], [], [], []]
  onAir : List (Option OnAir) := [none, none, none, none]
  lseq : Nat := 0
  mid : Nat := 0
  keys : List AirKey := []
  wins : List Window := []
  nvWin : List Window := []
  links : List (Nat × Nat × Nat) := []
  heard : List (Nat × Nat × Nat) := []
  seen : List (Nat × Nat × Nat) := []
  reasm : List Reasm := []
  orphans : List (Nat × Nat × Nat) := []
  bins : List Bin := []
  nvBins : List Bin := []
  nvTuned : List Nat := []
  nvCycle : Nat := 0
  silent : List (Nat × Nat × Nat × Nat) := []
  refusedAt : List (Nat × Nat) := []
  rejects : List (Nat × Nat) := []
  lastSlice : List (Nat × Nat) := []
  deliveries : List Delivery := []
  stay : List Nat := [0, 0, 0, 0]
  bcnDone : List (Option Nat) := [none, none, none, none]
  deriving DecidableEq, Repr, Inhabited

/-! ### GNSS and the station -/

/-- A correlator channel that is not FREE (R81 to R86): antenna, signal, satellite, state, the instant it was entered, the instant from
which C/N0 has held; NCO phases (UQ32.32) and rate words in force and pending; dumps; what the next dump record says of them; the
roving offset; the last dump record. -/
structure Chan where
  c : Nat := 0
  ant : Nat := 0
  sig : Nat := 0
  sat : Nat := 0
  state : Nat := 1
  since : Nat := 0
  good : Option Nat := none
  car : Nat := 0
  code : Nat := 0
  carRate : Int := 0
  codeRate : Nat := 0
  pend : Option (Int × Nat) := none
  dumps : Nat := 0
  rateNew : Bool := false
  lateWrite : Bool := false
  rove : Int := 0
  dump : Bytes := []
  deriving DecidableEq, Repr, Inhabited

/-- The snapshot capture (R93 to R95): capture number, arming and trigger instants, cause, trigger index, what happened during the
capture, and the sample bytes by chain. -/
structure Snap where
  no : Nat := 0
  armed : Nat := 0
  trig : Nat := 0
  cause : Nat := 0
  index : Nat := 0
  start : Nat := 0
  antBad : Bool := false
  agcMoved : List Nat := []
  data : List (Nat × Bytes) := []
  items : Nat := 0
  deriving DecidableEq, Repr, Inhabited

/-- A notch: centre bin and, while its bin stays below the release level, since when (R115). -/
structure Notch where
  bin : Nat := 0
  below : Option Nat := none
  deriving DecidableEq, Repr, Inhabited

/-- The GNSS engine and the analog side of the station: channels ascending, tiles and chains out of service, searches queued (signal,
antenna, satellite), decoded ephemerides (signal system × 256 + satellite, instant) and the stored almanac, chain and antenna
instants, notches, the highest indicator and the notch changes since the last epoch, AGC histories, the self-test. -/
structure Gns where
  chans : List Chan := []
  tilesOut : List Nat := []
  plan : List (Nat × Nat × Nat) := []
  eph : List (Nat × Nat) := []
  almanac : Option Nat := none
  chainSince : List Nat := [0, 0, 0, 0, 0, 0]
  biasOff : List Nat := [0, 0]
  snap : Snap := {}
  notches : List (List Notch) := [[], [], [], [], [], []]
  jamMax : List Nat := [0, 0, 0, 0, 0, 0]
  changed : List Bool := [false, false, false, false, false, false]
  toneSeen : List Bool := [false, false, false, false, false, false]
  hist : List (List Nat) := [[], [], [], [], [], []]
  startHist : List (List Nat) := [[], [], [], [], [], []]
  testAt : Option (Nat × Nat) := none
  testFail : Nat := 0
  testJ : List Nat := [0, 0, 0, 0, 0, 0]
  testDone : Bool := false
  testFailed : Bool := false
  deriving DecidableEq, Repr, Inhabited

/-- An observable (Table 4.5), with its epoch stamp and the code-minus-carrier and range-rate values the checks use. -/
structure Obs where
  sys : Nat := 0
  sat : Nat := 0
  sig : Nat := 0
  ant : Nat := 0
  flags : Nat := 0
  cn0 : Nat := 0
  pr : Int := 0
  cp : Int := 0
  dop : Int := 0
  lock : Nat := 0
  sigid : Nat := 0
  chan : Nat := 0
  state : Nat := 0
  deriving DecidableEq, Repr, Inhabited

/-- What the station keeps of a tracked signal between epochs (R107, Table 4.7): last stamp, phase, Doppler, the integer part, the
lock's start and the code-minus-carrier history (stamp, mm). -/
structure Track where
  sigid : Nat := 0
  chan : Nat := 0
  at_ : Nat := 0
  cp : Int := 0
  dop : Int := 0
  whole : Int := 0
  lockFrom : Nat := 0
  cmc : List (Nat × Int) := []
  deriving DecidableEq, Repr, Inhabited

/-- The committed state of the station (R98 to R117): reference antenna in force and the one asked for with its cause, how often
it moved, tracks, epochs held for the A/B check, consecutive epochs with each trip cause, clearance count, whether the A/B check is
suspended after a failover, survey start, the last GPS offset, when the RTCM groups were sent, and the
reference data handed to the RTK stage (stamp, age mark, observables). -/
structure StaCom where
  ref : Nat := 0
  refWant : Option (Nat × Nat) := none
  moved : Nat := 0
  tracks : List Track := []
  held : List (Nat × Nat × List Obs) := []
  runs : List Nat := [0, 0, 0, 0, 0, 0, 0, 0, 0, 0]
  clear : Nat := 0
  abOff : Bool := false
  surveyFrom : Option Nat := none
  lastIsto : Option (Nat × Int) := none
  arpAt : Nat := 0
  arpNow : Bool := false
  refData : List (Nat × List Obs) := []
  deriving DecidableEq, Repr, Inhabited

/-! ### RTK -/

/-- One machine's filter (R122 to R147): mode and rate it was built under, the reference moves it has seen, its numeric state, whether it
has history, first and last processed epoch (hub ns), fix state, the kept set and instant of the last accepted search and whether
the last epoch was accepted, course, reports held for a station epoch. -/
structure Filter where
  n : Nat := 0
  mode : Nat := 0
  rate : Nat := 0
  moved : Nat := 0
  token : Nat := 0
  hist : Bool := false
  first : Nat := 0
  last : Nat := 0
  fix : Nat := 0
  kept : List (Nat × Int) := []
  acceptAt : Nat := 0
  accepted : Bool := false
  course : Int := 0
  held : List Input := []
  deriving DecidableEq, Repr, Inhabited

/-- The committed RTK state: filters, instants of the last rejection notice by machine, the records of the cycle (machine, record). -/
structure RtkCom where
  filters : List Filter := []
  noticed : List (Nat × Nat) := []
  recs : List (Nat × Bytes) := []
  cold : List Nat := []
  deriving DecidableEq, Repr, Inhabited

/-! ### Jobs and the Slate -/

/-- A point of the field frame, east and north in mm. -/
abbrev Pt := Int × Int

/-- A section of an implement (Table 7.4). -/
structure Sec where
  fore : Int := 0
  left : Int := 0
  right : Int := 0
  onLat : Nat := 0
  offLat : Nat := 0
  layers : Nat := 1
  deriving DecidableEq, Repr, Inhabited

/-- An implement (Table 7.3). -/
structure Implement where
  width : Nat := 0
  secs : List Sec := []
  deriving DecidableEq, Repr, Inhabited

/-- A machine entry of a job (Table 6.3). -/
structure Mach where
  n : Nat := 0
  impl : Nat := 255
  prio : Nat := 0
  caps : Nat := 0
  vWork : Nat := 100
  vTransit : Nat := 100
  vMax : Nat := 100
  accel : Nat := 50
  decel : Nat := 50
  halfTransit : Nat := 0
  halfWork : Nat := 0
  front : Nat := 0
  rear : Nat := 0
  deriving DecidableEq, Repr, Inhabited

/-- A dock entry (Table 6.2): bay, kind, stop point, approach heading. -/
structure DockEntry where
  bay : Nat := 1
  kind : Nat := 1
  stop : Pt := (0, 0)
  heading : Int := 0
  deriving DecidableEq, Repr, Inhabited

/-- A job image that passed its checks (Tables 6.1 to 6.3). -/
structure Job where
  id : Nat := 0
  origin : List Int := [0, 0, 0]
  rot : List Int := []
  boundary : List Pt := []
  zones : List (Bool × List Pt) := []
  passes : Nat := 0
  order : Nat := 0
  headImpl : Nat := 0
  zonePasses : Nat := 0
  radius : Nat := 0
  patKind : Nat := 0
  patImpl : Nat := 0
  patDir : Nat := 0
  lineA : Pt := (0, 0)
  lineB : Pt := (0, 0)
  overlap : Nat := 0
  impls : List Implement := []
  docks : List DockEntry := []
  machs : List Mach := []
  done : Nat := 0
  deriving DecidableEq, Repr, Inhabited

/-- Why an image was refused (notice 0x2081): reason of R155, section kind, entry index. -/
structure JobBad where
  reason : Nat := 0
  kind : Nat := 0
  entry : Nat := 0
  deriving DecidableEq, Repr, Inhabited

/-- A piece of the generated track table (R157): whether it belongs to a headland pass, its polyline. -/
structure Piece where
  headland : Bool := false
  points : List Pt := []
  deriving DecidableEq, Repr, Inhabited

/-- What checking and generation produced (R153): the refusal, or the job with its pieces and the digest of the table. -/
structure JobGen where
  bad : Option JobBad := none
  job : Job := {}
  pieces : List Piece := []
  digest : Nat := 0
  deriving DecidableEq, Repr, Inhabited

/-- A complete image that takes effect at the commit of cycle `due` (R153). -/
structure JobLoad where
  due : Nat := 0
  image : Bytes := []
  gen : Option JobGen := none
  deriving DecidableEq, Repr, Inhabited

/-- A task (R158 to R160, Table 6.6) with its path in the direction it is driven and, for R351 and R352, what has happened at its bay:
whether the machine holds it, whether the gate has opened, cycles closed since, whether the gantry was commanded. -/
structure Task where
  num : Nat := 0
  type : Nat := 0
  state : Nat := 0
  machine : Nat := 0
  flags : Nat := 0
  bay : Nat := 0
  progress : Nat := 0
  path : List Pt := []
  impl : Nat := 255
  atBay : Bool := false
  opened : Bool := false
  closedFor : Nat := 0
  served : Bool := false
  deriving DecidableEq, Repr, Inhabited

/-- The job: image and what it says, tasks ascending, tasks changed in this cycle, the last run-time number given, an image that waits for its
cycle, the state that an abandoned or refused image leaves, REFILL tasks whose park command is due. -/
structure JobCom where
  image : Bytes := []
  job : Option Job := none
  tasks : List Task := []
  changed : List Nat := []
  lastRun : Nat := 8191
  load : Option JobLoad := none
  prev : Nat := 0
  park : List Nat := []
  deriving DecidableEq, Repr, Inhabited

/-- A segment of a reservation (Table 6.8); `t1` none is an open window. -/
structure Seg where
  a : Pt := (0, 0)
  b : Pt := (0, 0)
  half : Nat := 0
  t0 : Int := 0
  t1 : Option Int := none
  deriving DecidableEq, Repr, Inhabited

/-- A reservation that is not FREE (Table 6.7), with what its continuation needs: cruise speed, early and late time over its length, the
task progress at its end, and the cycle it was frozen in. -/
structure Res where
  slot : Nat := 0
  machine : Nat := 0
  state : Nat := 0
  task : Nat := 0xFFFF
  flags : Nat := 0
  tBase : Int := 0
  late : Int := 0
  grow : Nat := 0
  made : Nat := 0
  segs : List Seg := []
  vc : Nat := 0
  earlyL : Int := 0
  lateL : Int := 0
  upTo : Nat := 0
  frozenIn : Nat := 0
  deriving DecidableEq, Repr, Inhabited

/-- A machine status report (Table 6.11) with its stamp. -/
structure Status where
  stamp : Nat := 0
  batt : Nat := 0
  tank : Nat := 255
  flags : Nat := 0
  res : Nat := 0xFFFF
  made : Nat := 0
  deriving DecidableEq, Repr, Inhabited

/-- What the Slate and the Coverage engine keep of a solution record: epoch (hub ns), fix state, field position, velocity, sigmas. -/
structure Pos where
  epoch : Nat := 0
  fix : Nat := 0
  p : Pt := (0, 0)
  ve : Int := 0
  vn : Int := 0
  sigE : Nat := 0
  sigN : Nat := 0
  usable : Bool := false
  deriving DecidableEq, Repr, Inhabited

/-- A machine in the Slate (Table 6.10): state, current task, start of its wait, the wait its last grant cleared, urgency used, preempted in
this cycle, newest status report, held and last usable position, whether a new usable position came in this cycle, the last records, epochs
that count toward thaw, whether the newest judgement failed, tasks sought next (number, whether it is driven B to A), last record. -/
structure MachSt where
  n : Nat := 0
  state : Nat := 0
  task : Nat := 0xFFFF
  waitFrom : Nat := 0
  savedWait : Option Nat := none
  urgency : Nat := 0
  preempted : Bool := false
  status : Option Status := none
  held : Option Pos := none
  use : Option Pos := none
  fresh : Bool := false
  recent : List Pos := []
  thaw : List Nat := []
  nonconf : Bool := false
  queue : List (Nat × Bool) := []
  rec_ : Bytes := []
  deriving DecidableEq, Repr, Inhabited

/-- The Slate: reservations in ascending slot, machines that have a state, host reservations in force (instance, slot, bytes), machines to
reseat, whether START acts in this cycle. -/
structure SltCom where
  res : List Res := []
  machs : List MachSt := []
  host : List (Nat × Nat × Bytes) := []
  reseat : List Nat := []
  starting : Bool := false
  deriving DecidableEq, Repr, Inhabited

/-! ### Coverage -/

/-- An as-applied report, or what is left of one (R205): machine, start and end (ms), sections flowing at the start, changes (ms, on, first,
last), stamp, last cycle of its hold. -/
structure AsApplied where
  n : Nat := 0
  from_ : Nat := 0
  to_ : Nat := 0
  start : Nat := 0
  ev : List (Nat × Bool × Nat × Nat) := []
  until_ : Nat := 0
  deriving DecidableEq, Repr, Inhabited

/-- A machine in the Coverage engine: HOLD cause last found, whether a schedule has been issued since the origin and its bytes, position
history (epoch ms, point), how far reports have been written back, last `SEQ`, last rejection notice. -/
structure CovMach where
  n : Nat := 0
  cause : Nat := 0
  issued : Option Bytes := none
  hist : List (Nat × Pt) := []
  doneTo : Nat := 0
  seq : Option Nat := none
  noticed : Option Nat := none
  deriving DecidableEq, Repr, Inhabited

/-- The Coverage engine: store (block number, cells; blocks not listed hold their mask and NONE), allocated blocks of the directory (place,
slot, mask cells), changed ring (block, cycle), machines, held reports, restore image that takes effect at a cycle. -/
structure CovCom where
  dir : List (Nat × Nat) := []
  masks : List Bytes := []
  blocks : List (Nat × Bytes) := []
  ring : List (Nat × Nat) := []
  machs : List CovMach := []
  held : List AsApplied := []
  load : Option (Nat × Bytes) := none
  deriving DecidableEq, Repr, Inhabited

/-! ### Ring ports -/

/-- An Ethernet frame at a switch port (R295, R296): ingress port, addresses (48 bits, first byte highest), tag (VID, PCP), EtherType, destination UDP
port where it is UDP over IPv4, whether it is TCP or an ICMP echo request, length, whether FCS and symbols are right, PTP message type with its
correctionField where it is a PTP message, MAC ingress stamp, MAC egress stamps of the three ports, ports whose queue is full or whose link fails
while it is sent, and its bytes. -/
structure EthFrame where
  port : Nat := 0
  dst : Nat := 0
  src : Nat := 0
  tag : Option (Nat × Nat) := none
  etype : Nat := 0
  udp : Option Nat := none
  tcp : Bool := false
  len : Nat := 64
  ok : Bool := true
  ptp : Option (Nat × Nat) := none
  rx : Nat := 0
  tx : List Nat := [0, 0, 0]
  lost : List Nat := []
  data : Bytes := []
  deriving DecidableEq, Repr, Inhabited

/-- A PTP message for the unit's own clock (R301): type of IEEE 1588, domain, sender's clockIdentity, sequence, correctionField (2^-16 ns), MAC
ingress stamp, and for Announce the dataset: priority1, class, accuracy, variance, priority2, grandmaster identity. -/
structure PtpMsg where
  type : Nat := 0
  domain : Nat := 0
  id : Nat := 0
  seq : Nat := 0
  corr : Nat := 0
  rx : Nat := 0
  dataset : List Nat := []
  deriving DecidableEq, Repr, Inhabited

/-- The Ring engine beside its parameters: learned addresses (VID, address, port, instant), ring ports whose link is up, failed Tiles, the by-pass
instants (join begun, last failure, both ports down since), the policer's second and bits, foreign masters (identity, dataset, instant), PTP sequences
(Sync, Announce), Pdelay requests under way by port (sequence, wire stamp), the next Pdelay sequence, the port and interval of an address flush. -/
structure RingSt where
  table : List (Nat × Nat × Nat × Nat) := []
  up : List Nat := []
  failed : List Nat := []
  joinAt : Nat := 0
  lastFail : Option Nat := none
  downSince : Option Nat := none
  polSec : Nat := 0
  polBits : Nat := 0
  foreign : List (Nat × List Nat × Nat) := []
  seqSync : Nat := 0
  seqAnn : Nat := 0
  seqPd : Nat := 0
  pdReq : List (Nat × Nat × Nat) := []
  flushAt : Option Nat := none
  deriving DecidableEq, Repr, Inhabited

/-! ### Field bus -/

/-- A frame on a CAN bus, with its start-of-frame stamp (R321). -/
structure CanFrame where
  ide : Bool := false
  fdf : Bool := false
  brs : Bool := false
  esi : Bool := false
  rtr : Bool := false
  id : Nat := 0
  dlc : Nat := 0
  data : Bytes := []
  sof : Nat := 0
  deriving DecidableEq, Repr, Inhabited

/-- A message buffer (Table 12.6): instance 64 × c + b; frame and flags held, transmit state, errors of R324, an abort that waits for the attempt to end. -/
structure CanBuf where
  i : Nat := 0
  newdat : Bool := false
  lost : Bool := false
  txst : Nat := 0
  f : CanFrame := {}
  seq : Nat := 0
  errs : Nat := 0
  abort : Bool := false
  deriving DecidableEq, Repr, Inhabited

/-- The Field Bus engine beside its parameters: by controller the mode in force, failure, bus-off entries of the last 60 s and the instant of the last
one, last reference; buffer configurations in force (R317) and buffers that hold something; ISO claim instant and addresses heard (address, NAME). -/
structure CanSt where
  mode : List Nat := [0, 0, 0]
  failed : List Nat := []
  offs : List (List Nat) := [[], [], []]
  refLast : List (Option Nat) := [none, none, none]
  refLost : List Bool := [false, false, false]
  cfg : List (Nat × Nat) := []
  bufs : List CanBuf := []
  claimAt : Nat := 0
  heard : List (Nat × Nat) := []
  deriving DecidableEq, Repr, Inhabited

/-! ### Dock -/

/-- Scaling state of a metering channel (R338). -/
structure MtrChan where
  xprev : Int := 0
  h : Int := 0
  i : Int := 0
  yprev : Int := 0
  deriving DecidableEq, Repr, Inhabited

/-- A scaled block that waits for its partner (R340): channel, first sample number, cycle of admission, LATE, channel fault, samples (mV or mA), whether a
pair has used it. -/
structure MtrBlk where
  c : Nat := 0
  snum : Nat := 0
  cycle : Nat := 0
  late : Bool := false
  fault : Bool := false
  v : List Int := []
  paired : Bool := false
  deriving DecidableEq, Repr, Inhabited

/-- A bay's committed metering state (R343, R344): register, wraps, exported energy, fractions, gate, cycles below, L1 samples since the origin, last
sample of each phase's previous pair (voltage, current), mean |P| of the last pairs (sample number, mW), whether `GAP` is due. -/
structure MtrBay where
  reg : Nat := 0
  wraps : Nat := 0
  exp : Nat := 0
  acc : Nat := 0
  xacc : Nat := 0
  gate : Bool := false
  below : Nat := 0
  samples : Nat := 0
  last : List (Int × Int) := [(0, 0), (0, 0), (0, 0)]
  peaks : List (Nat × Nat) := []
  gap : Bool := false
  deriving DecidableEq, Repr, Inhabited

/-- The committed metering state: channels, blocks, bays 1 to 12, the cycle of the last NAND save, whether the state must still be restored (R350). -/
structure MtrCom where
  chans : List MtrChan := List.replicate 16 {}
  blocks : List MtrBlk := []
  bays : List MtrBay := List.replicate 12 {}
  saved : Nat := 0
  restore : Bool := true
  deriving DecidableEq, Repr, Inhabited

/-- A saved metering state (R347, R348): cycle, bays, and for a flush the tail (Σvi) and its bound (mWh) of each bay. -/
structure MtrSave where
  cycle : Nat := 0
  bays : List MtrBay := []
  tails : List Int := []
  bounds : List Nat := []
  deriving DecidableEq, Repr, Inhabited

/-- The Metering engine beside its parameters and committed state: channels that failed (16: the Tile), channels whose block was lost since the last commit,
NAND save and MRAM flush, blocks before the origin (channel, sample number, samples) and the energy they gave (µW × samples) by bay. -/
structure MtrSt where
  failed : List Nat := []
  lost : List Nat := []
  nand : Option MtrSave := none
  mram : Option MtrSave := none
  pre : List MtrBlk := []
  preAcc : List Nat := List.replicate 12 0
  deriving DecidableEq, Repr, Inhabited

/-- A line of axes in motion (R355): axis mask, positions at its start, targets, instant, lead length, entry speed, cruise and end speed, acceleration,
deceleration; a deceleration in progress (instant, lead steps by then, speed, rate); axes that fault at its end (axis, whether they lose their homing);
homing phase (0 none, 1 toward the input, 2 stopping, 3 back, 4 stopping after the release) and the latched position. -/
structure Line where
  mask : Nat := 0
  start : List Int := [0, 0, 0, 0]
  target : List Int := [0, 0, 0, 0]
  t0 : Nat := 0
  len : Nat := 0
  v0 : Nat := 0
  vc : Nat := 1
  ve : Nat := 0
  a : Nat := 1
  dc : Nat := 1
  stop : Option (Nat × Nat × Nat × Nat) := none
  faults : List (Nat × Bool) := []
  home : Nat := 0
  deriving DecidableEq, Repr, Inhabited

/-- A gantry motion (R352): step number of notice 0x5083, axis mask, targets, whether it ends a park command. -/
structure GStep where
  step : Nat := 0
  mask : Nat := 0
  target : List Int := [0, 0, 0, 0]
  ends : Bool := false
  deriving DecidableEq, Repr, Inhabited

/-- The Derrick beside its parameters: lines in motion, axes referenced, moves that wait for axes to come to rest (mask, targets), active limit inputs
(axis, positive), last chatter (axis, instant), following errors in a row, gantry commands committed and due (instant, steps), gantry steps under way. -/
structure DrkSt where
  lines : List Line := []
  homed : List Bool := [false, false, false, false]
  waiting : List (Nat × List Int) := []
  limits : List (Nat × Bool) := []
  chatter : List (Nat × Nat) := []
  ferr : List Nat := [0, 0, 0, 0]
  inbox : List (Nat × List GStep) := []
  gantry : List GStep := []
  failed : Bool := false
  deriving DecidableEq, Repr, Inhabited

/-! ### Dispatcher and Tailings -/

/-- A task context that is not FREE (R399, R404): state (1 READY, 2 RUNNING, 3 WAITING), levels, last core, hold and whether its expiry is still to
come, ready instant, instant of the last aging step, wait kind, object and end, instant of its dispatch, longest run and READY time (µs). -/
structure DTask where
  n : Nat := 0
  state : Nat := 1
  base : Nat := 31
  level : Nat := 31
  core : Option Nat := none
  hold : Nat := 0
  held : Bool := false
  ready : Nat := 0
  age : Nat := 0
  kind : Nat := 0
  obj : Nat := 0
  ends : Option Nat := none
  ran : Nat := 0
  maxRun : Nat := 0
  maxReady : Nat := 0
  deriving DecidableEq, Repr, Inhabited

/-- A core (Table 15.7): state (0 IDLE, 1 RUNNING, 2 FAULT), task, start of the busy time not yet counted, busy time of this cycle (ns) and of the last
(0.01 %). -/
structure DCore where
  state : Nat := 0
  task : Nat := 0xFF
  since : Nat := 0
  busy : Nat := 0
  last : Nat := 0
  deriving DecidableEq, Repr, Inhabited

/-- The dispatcher: contexts ascending, the 12 cores, events posted while no task waited, Tile 6 failed (R406). -/
structure DspSt where
  tasks : List DTask := []
  cores : List DCore := List.replicate 12 {}
  events : List Nat := []
  failed : Bool := false
  deriving DecidableEq, Repr, Inhabited

/-- Tailings (R407 to R415): next record sequence, end of the last record on the port, records dropped in a run, last notice, second of the last SYNC,
counters (sparse: counter, value), counters stuck, the last four snapshots (newest first). -/
structure TlgSt where
  seq : Nat := 0
  busy : Nat := 0
  lost : Nat := 0
  noticed : Option Nat := none
  syncSec : Option Nat := none
  ctrs : List (Nat × Nat) := []
  stuck : List Nat := []
  snaps : List (Nat × Bytes) := []
  deriving DecidableEq, Repr, Inhabited

/-! ### Supplies, boot and keys -/

/-- A firmware slot (R472, R476): 0 empty, 1 valid, 2 invalid, 3 writing; the image written, none for the one a unit is delivered with. -/
structure Slot where
  state : Nat := 0
  image : Option Bytes := none
  deriving DecidableEq, Repr, Inhabited

/-- The Security engine, the Backup Domain and the supplies: power mode (0 running, 1 in reset, 2 booted, firmware starting, 3 recovery, 4 Dormant), whether
the start from power-up has been recorded, cause of the reset under way, a restart that is due (cause, instant), what holds a boot (temperature, `RESET_N`
low, `PFAIL_N` low), boot state of MRAM and slot booted, whether this boot is a trial or a fallback, instant of the reset release or of host link ready,
slots, salts of the level keys, a rekey to export (session slot, level, end), reset history (cause, slot, RTC), RTC at the last reset, hub time less RTC,
when the RTC was set and whether it is valid. -/
structure Pwr where
  mode : Nat := 0
  started : Bool := false
  cause : Nat := 1
  due : Option (Nat × Nat) := none
  hot : Bool := false
  pinLow : Bool := false
  pfail : Bool := false
  active : Nat := 0
  pending : Nat := 0xFF
  tries : Nat := 0
  slot : Nat := 0
  trial : Bool := false
  fallback : Bool := false
  readyAt : Nat := 0
  slots : List Slot := [{ state := 1 }, {}]
  salts : List Bytes := [zeros 16, zeros 16, zeros 16]
  wrap : Option (Nat × Nat × Nat) := none
  hist : List (Nat × Nat × Nat) := []
  rtcReset : Nat := 0
  rtcOfs : Int := 0
  rtcAt : Option Nat := none
  rtcOk : Bool := false
  deriving DecidableEq, Repr, Inhabited

/-- What a tile and the firmware read of one channel at an epoch: channel, tap samples since its last boundary, `DT`, `MON`, `TX_TIME`. -/
structure EpochChan where
  c : Nat := 0
  n : Nat := 0
  dt : Nat := 0
  mon : Nat := 0
  tx : Nat := 0
  deriving DecidableEq, Repr, Inhabited

/-! ### The committed state as a whole -/

/-- A configuration write that has been accepted and is not yet in force (R41): the cycle it was admitted to, the key, and the
value that stays in force until that cycle's commit ends. -/
structure Staged where
  cycle : Nat := 0
  key : Nat := 0
  old : Nat := 0
  deriving DecidableEq, Repr, Inhabited

/-- The committed path's state beside the parameters: what the peer copy and the checkpoints carry (R279, R32); `outs` the committed outputs of the last
cycle (R35), `said` the notices of its commands. -/
structure Com where
  stop : StopCom := {}
  jobMachines : List Nat := []
  sta : StaCom := {}
  rtk : RtkCom := {}
  frame : Option (List Int × List Int) := none
  job : JobCom := {}
  slt : SltCom := {}
  cov : CovCom := {}
  mtr : MtrCom := {}
  outs : List (List Bytes) := [[], [], [], [], [], [], []]
  said : List Said := []
  deriving DecidableEq, Repr, Inhabited

/-- What a peer copy and a checkpoint carry (R279, R280, R32): the committed state, the parameters of the committed path with writes and acts that wait,
the cycle after it, replay windows and frame-counter marks, ISO 11783 address state, air keys, images being loaded. -/
structure Image where
  com : Com := {}
  regs : List (Nat × Nat) := []
  staged : List Staged := []
  ctrls : List (Nat × Nat × Nat × Bytes) := []
  next : Nat := 0
  wins : List Window := []
  marks : List (Nat × Nat) := []
  iso : Nat × Nat := (0, 254)
  keys : List AirKey := []
  loads : List Load := []
  deriving DecidableEq, Repr, Inhabited

end Sys2Proof.Machine
end

