-- ==== Sys2Proof/Syntax.lean ====
section
/-!
DEFINITION. The commands of the block (R444 to R453, Chapters 1 to 20): one constructor per row of spec/opcode_table.json, in the table's order.  The first
operand of each is the instant of hub time (ns) at which it happens; a host command carries what the Host Port knows of its frame
(`HostCtx`).  The meaning of each constructor names its other operands.
-/
namespace Sys2Proof
open Sys2Proof.Machine

/-- The commands. -/
inductive Instr where
  /-- `GET` (R378): Host command that reads listed parameter instances from the state of the last completed commit. -/
  | get (t : Nat) (h : HostCtx) (items : List (Nat × Nat))
  /-- `SET` (R379): Host command that writes listed parameters whole or not at all; it is the general row for registers that have no row of their own. -/
  | set (t : Nat) (h : HostCtx) (entries : List (Nat × Nat × Bytes))
  /-- `GET_BLOCK` (R380): Host command that reads part of a block item, with all parts of one read served from one commit. -/
  | getBlock (t : Nat) (h : HostCtx) (id inst offset size : Nat)
  /-- `SET_BLOCK` (R380): Host command that writes a whole block item under the rules of SET. -/
  | setBlock (t : Nat) (h : HostCtx) (id inst : Nat) (block : Bytes)
  /-- `CLOSE` (R382): ACTION code 0x01, which ends the sender's own session after the reply. -/
  | close (t : Nat) (h : HostCtx)
  /-- `ECHO` (R382): ACTION code 0x02, which returns its argument and keeps subscriptions alive. -/
  | echo (t : Nat) (h : HostCtx) (arg : Bytes)
  /-- `RESTART` (R382): ACTION code 0x03, which cold starts the unit 100 ms after the reply. -/
  | restart (t : Nat) (h : HostCtx)
  /-- `SUBSCRIBE` (R386): Host command that starts or stops the notice subscription or one stream kind for the sender's endpoint. -/
  | subscribe (t : Nat) (h : HostCtx) (target on : Nat)
  /-- `AUTH_BEGIN` (R383): Host command that requests a session level and receives a session number and a challenge. -/
  | authBegin (t : Nat) (h : HostCtx) (level : Nat) (nonce : Bytes)
  /-- `AUTH_PROVE` (R383): Host command that proves the level key against the pending challenge and opens the session. -/
  | authProve (t : Nat) (h : HostCtx) (sid : Nat) (proof : Bytes)
  /-- `LOAD_JOB_IMAGE` (R152): LOAD chunk with target 0x20 that carries a job image. -/
  | loadJobImage (t : Nat) (h : HostCtx) (total offset : Nat) (data : Bytes)
  /-- `LOAD_COVERAGE_IMAGE` (R191): LOAD chunk with target 0x22 that carries a coverage restore image. -/
  | loadCoverageImage (t : Nat) (h : HostCtx) (total offset : Nat) (data : Bytes)
  /-- `LOAD_FIRMWARE_IMAGE` (R476): LOAD chunk with target 0x7C that writes a firmware image into the inactive slot. -/
  | loadFirmwareImage (t : Nat) (h : HostCtx) (total offset : Nat) (data : Bytes)
  /-- `LOG_READ` (R432): Host command that reads records of a log region from a given sequence number. -/
  | logRead (t : Nat) (h : HostCtx) (region gen start maxb : Nat)
  /-- `LOG_CLEAR_REQUEST` (R435): LOG_CLEAR step 1, which requests a region clear and returns a challenge. -/
  | logClearRequest (t : Nat) (h : HostCtx) (region : Nat)
  /-- `LOG_CLEAR_CONFIRM` (R436): LOG_CLEAR step 2, which proves the challenge and clears the region. -/
  | logClearConfirm (t : Nat) (h : HostCtx) (region : Nat) (proof : Bytes)
  /-- `STOP` (R216): Mailbox 0 safety command, copied to the lanes at once, which latches the named stop scope. -/
  | stop (t : Nat) (h : HostCtx) (scope groups mask : Nat)
  /-- `ARM_RELEASE` (R231): Safety command that arms a release of a named scope, decided at commit. -/
  | armRelease (t : Nat) (h : HostCtx) (scope groups mask : Nat)
  /-- `RELEASE` (R232): Safety command that releases the armed scope when Table 8.10 allows it. -/
  | release (t : Nat) (h : HostCtx) (scope groups mask : Nat)
  /-- `REPLAY_FEED` (R34): Host command that feeds a chunk of journal entries in replay mode. -/
  | replayFeed (t : Nat) (h : HostCtx) (flags offset : Nat) (data : Bytes)
  /-- `SNAP_ARM` (R93): Snapshot action 1, which arms ring capture of raw chain samples. -/
  | snapArm (t : Nat) (h : HostCtx) (cmd : Bool)
  /-- `SNAP_TRIGGER` (R94): Snapshot action 2, a host trigger that starts a capture from ARMED. -/
  | snapTrigger (t : Nat) (h : HostCtx) (cmd : Bool)
  /-- `SNAP_EXPORT` (R95): Snapshot action 3, which exports a held capture on stream kind 0x05. -/
  | snapExport (t : Nat) (h : HostCtx) (cmd : Bool)
  /-- `SNAP_DISCARD` (R93): Snapshot action 4, which releases a held capture and returns to IDLE. -/
  | snapDiscard (t : Nat) (h : HostCtx) (cmd : Bool)
  /-- `SNAP_DISARM` (R93): Snapshot action 5, which disarms capture and returns to IDLE. -/
  | snapDisarm (t : Nat) (h : HostCtx) (cmd : Bool)
  /-- `JOURNAL_HOLD` (R32): Write of 1 to CYC.JOURNAL_HOLD, which stops overwriting of journal blocks older than the hold. -/
  | journalHold (t : Nat) (h : HostCtx)
  /-- `JOURNAL_RELEASE` (R32): Write of 0 to CYC.JOURNAL_HOLD, which releases the journal window. -/
  | journalRelease (t : Nat) (h : HostCtx)
  /-- `REPLAY_ENTER` (R45): Write of 1 to CYC.REPLAY, which puts the device into replay mode. -/
  | replayEnter (t : Nat) (h : HostCtx)
  /-- `REPLAY_LEAVE` (R46): Write of 0 to CYC.REPLAY, which leaves replay mode with a cold start. -/
  | replayLeave (t : Nat) (h : HostCtx)
  /-- `TIM_STEP` (R59): Write of 1 to TIM.STEP, which arms a hub-time step when accepted. -/
  | timStep (t : Nat) (h : HostCtx)
  /-- `TP_MODE_WRITE` (R61): Write of TIM.TP_MODE, which schedules a pulse-mode change. -/
  | tpModeWrite (t : Nat) (h : HostCtx) (out mode : Nat)
  /-- `GNS_RUN_WRITE` (R97): Write of GNS.RUN, which stops tracking and frees all channels, or restarts tracking. -/
  | gnsRunWrite (t : Nat) (h : HostCtx) (v : Nat)
  /-- `FORCE_COLD` (R92): Write of GNS.FORCE_COLD, which discards stored almanac and ephemerides and restarts tracking COLD. -/
  | forceCold (t : Nat) (h : HostCtx)
  /-- `STA_SELFTEST` (R117): Write of STA.SELFTEST, which runs the station self-test. -/
  | staSelftest (t : Nat) (h : HostCtx)
  /-- `REF_ANT_WRITE` (R102): Host write of STA.REF_ANT, which moves the reference antenna at the next epoch. -/
  | refAntWrite (t : Nat) (h : HostCtx) (ant : Nat)
  /-- `JOB_START` (R156): JOB.CTRL value 1, which starts the job in the cycle after admission. -/
  | jobStart (t : Nat) (h : HostCtx)
  /-- `JOB_PAUSE` (R156): JOB.CTRL value 2, which pauses the running job. -/
  | jobPause (t : Nat) (h : HostCtx)
  /-- `JOB_UNLOAD` (R156): JOB.CTRL value 3, which unloads the job and discards its coverage store. -/
  | jobUnload (t : Nat) (h : HostCtx)
  /-- `RESEAT` (R181): Write of SLT.RESEAT, which thaws a LOST machine on operator judgement. -/
  | reseat (t : Nat) (h : HostCtx) (machine : Nat)
  /-- `HOST_RES_WRITE` (R183): Write of SLT.HOST_RES, which installs or removes a host reservation. -/
  | hostResWrite (t : Nat) (h : HostCtx) (inst : Nat) (block : Bytes)
  /-- `MTR_SNAP` (R346): Write of MTR.SNAP, which copies every bay's register block at the next commit. -/
  | mtrSnap (t : Nat) (h : HostCtx)
  /-- `MOVE` (R355): DRK.CTRL command 1, which moves the named axes on one straight line to DRK.TARGET. -/
  | move (t : Nat) (h : HostCtx) (mask : Nat)
  /-- `AXIS_STOP` (R356): DRK.CTRL command 2, which decelerates the named axes to STOPPED, keeping the remaining distance. -/
  | axisStop (t : Nat) (h : HostCtx) (mask : Nat)
  /-- `RESUME` (R356): DRK.CTRL command 3, which plans a new move from rest to the stored targets. -/
  | resume (t : Nat) (h : HostCtx) (mask : Nat)
  /-- `HOME` (R359): DRK.CTRL command 4, which runs the homing sequence on the named axes. -/
  | home (t : Nat) (h : HostCtx) (mask : Nat)
  /-- `AXIS_CLEAR` (R358): DRK.CTRL command 5, which clears an axis fault. -/
  | axisClear (t : Nat) (h : HostCtx) (mask : Nat)
  /-- `CAN_START_RECOVERY` (R326): CAN.CTRL value 1, which starts bus-off recovery of a controller. -/
  | canStartRecovery (t : Nat) (h : HostCtx) (c : Nat)
  /-- `CAN_ABORT_HOST_BUFFERS` (R327): CAN.CTRL value 2, which aborts every PENDING host buffer of the controller. -/
  | canAbortHostBuffers (t : Nat) (h : HostCtx) (c : Nat)
  /-- `TX_ABORT` (R320): Write of CAN.TX_ABORT, which aborts a PENDING or SENDING transmit buffer. -/
  | txAbort (t : Nat) (h : HostCtx) (buf : Nat)
  /-- `CAN_BUF_WRITE` (R320): Write of a frame record to a transmit buffer, which makes the buffer PENDING. -/
  | canBufWrite (t : Nat) (h : HostCtx) (buf : Nat) (record : Bytes)
  /-- `CAN_BUF_READ` (R318): Read of CAN.BUF, which takes and clears NEWDAT and MSGLOST and copies the buffer. -/
  | canBufRead (t : Nat) (h : HostCtx) (buf offset size : Nat)
  /-- `AIR_KEY_WRITE` (R266): Write of AIR.KEY, which installs a first or next key for a key instance. -/
  | airKeyWrite (t : Nat) (h : HostCtx) (inst : Nat) (key : Bytes)
  /-- `AIR_ROLL_WRITE` (R267): Write of AIR.ROLL, which schedules the key rollover at cycle a. -/
  | airRollWrite (t : Nat) (h : HostCtx) (inst cycle : Nat)
  /-- `PAIR_KEY_WRITE` (R274): Write of DPX.PAIR_KEY, which installs the pair key. -/
  | pairKeyWrite (t : Nat) (h : HostCtx) (key : Bytes)
  /-- `PLANNED_HANDOVER` (R290): DPX.CTRL value 1, which hands control to a STANDBY peer with cause 8. -/
  | plannedHandover (t : Nat) (h : HostCtx)
  /-- `DPX_GIVE_UP` (R290): DPX.CTRL value 2, which gives up control with cause 7. -/
  | dpxGiveUp (t : Nat) (h : HostCtx)
  /-- `DPX_RESTART` (R290): DPX.CTRL value 3, which cold restarts a SILENT unit. -/
  | dpxRestart (t : Nat) (h : HostCtx)
  /-- `TLG_CLEAR` (R415): Write of TLG.CLEAR, which clears one observation counter or all of them. -/
  | tlgClear (t : Nat) (h : HostCtx) (counter : Nat)
  /-- `DORMANT_REQUEST` (R469): Write of PWR.DORMANT, which saves state and enters Dormant. -/
  | dormantRequest (t : Nat) (h : HostCtx)
  /-- `PROV_LOCK` (R478): Write of SEC.PROV_LOCK, which blows the provisioning lock fuse. -/
  | provLock (t : Nat) (h : HostCtx)
  /-- `REKEY` (R479): Write of SEC.REKEY, which replaces a level salt and ends the other sessions of that level. -/
  | rekey (t : Nat) (h : HostCtx) (level : Nat) (salt : Bytes)
  /-- `KEY_EXPORT_READ` (R478): Read of SEC.KEY_EXPORT, which returns keys in clear, wrapped or as zeros according to the state. -/
  | keyExportRead (t : Nat) (h : HostCtx) (offset size : Nat)
  /-- `ACTIVATE` (R477): Write of SEC.ACTIVATE, which starts a trial boot of the inactive slot. -/
  | activate (t : Nat) (h : HostCtx)
  /-- `CONFIRM` (R477): Write of SEC.CONFIRM, which ends the trial and makes the new slot active. -/
  | confirm (t : Nat) (h : HostCtx)
  /-- `SERIAL_GAP_TIMEOUT` (R368): More than 10 ms between serial bytes discards the incomplete frame. -/
  | serialGapTimeout (t last n : Nat)
  /-- `HU_CTS_CHANGE` (R368): A change on HU_CTS stops or resumes serial transmission. -/
  | huCtsChange (t : Nat) (high : Bool) (fill : Nat)
  /-- `AUTH_CHALLENGE_EXPIRE` (R383): A pending challenge lapses 10 s after AUTH_BEGIN and frees its slot. -/
  | authChallengeExpire (t sid : Nat)
  /-- `AUTH_LOCKOUT_END` (R385): The lockout of an endpoint ends 60 s after its last wrong proof. -/
  | authLockoutEnd (t : Nat) (ep : Ep)
  /-- `SUBSCRIPTION_LAPSE` (R386): A subscription lapses after HST.SUB_LAPSE without an admitted frame. -/
  | subscriptionLapse (t : Nat) (ep : Ep)
  /-- `LOAD_IDLE_ABANDON` (R381): An open load image is abandoned after HST.LOAD_IDLE without a chunk. -/
  | loadIdleAbandon (t target : Nat)
  /-- `CHUTE_PACKET_COMMIT` (R391): A packet whose EOP enters stage 0 cleanly is committed; this instant is the admission instant of an input. -/
  | chutePacketCommit (t i : Nat) (p : Packet)
  /-- `CHUTE_STALL` (R393): The producer stall timer expires and the open packet is rewound. -/
  | chuteStall (t i last : Nat)
  /-- `CHUTE_READ_IDLE_WAKE` (R394): A committed packet left unread for CHU.READ_IDLE posts a wake to its consumer. -/
  | chuteReadIdleWake (t i : Nat)
  /-- `CHUTE_FAULT` (R395): Three parity failures within 1 s make a Chute FAULT. -/
  | chuteFault (t i : Nat)
  /-- `CYCLE_BOUNDARY` (R19): A new 50 ms cycle begins in hub time. -/
  | cycleBoundary (t : Nat)
  /-- `CYCLE_COMMIT` (R27): At C(k) commit processing runs the stages of commit_cycle over the admitted inputs. -/
  | cycleCommit (t us copyUs : Nat)
  /-- `TRACK_GENERATION_DONE` (R153): Image checking and track generation complete outside commit processing. -/
  | trackGenerationDone (t : Nat) (pieces : List Piece) (digest : Nat)
  /-- `COMMIT_OVERRUN` (R26): Commit processing still running 12 ms after C(k) sets OVERRUN. -/
  | commitOverrun (t : Nat)
  /-- `COMMIT_MISSED` (R26): A commit not complete by C(k+1) is a Bench fault and gives up control. -/
  | commitMissed (t : Nat)
  /-- `TIME_LOAD` (R54): A usable source first delivers time; hub time is loaded and the state leaves UNSET. -/
  | timeLoad (t src time unc : Nat)
  /-- `SOURCE_LOSS` (R53): The source in use gives no usable measurement for TIM.LOSS_TIME. -/
  | sourceLoss (t src last : Nat)
  /-- `SOURCE_QUALIFIED` (R53): A source usable for TIM.QUAL_TIME becomes qualified and may be taken. -/
  | sourceQualified (t src since : Nat) (offset : Int) (unc : Nat)
  /-- `TIME_LOCKED` (R54): The offset held within TIM.LOCK_NS for TIM.LOCK_TIME enters LOCKED. -/
  | timeLocked (t since : Nat) (offset : Int) (unc : Nat)
  /-- `SLEW_REMEASURE` (R58): Each second in RECOVERING the offset is measured again and the slew term set. -/
  | slewRemeasure (t : Nat) (offset : Int) (unc freq : Nat)
  /-- `HOLDOVER_SECOND` (R55): Each second in HOLDOVER the uncertainty and elapsed time are updated. -/
  | holdoverSecond (t : Nat)
  /-- `STEP_APPLY` (R60): At the step instant hub time is loaded and the state becomes RECOVERING. -/
  | stepApply (t : Nat) (offset : Int) (frac us : Nat)
  /-- `LEAP_APPLY` (R52): At TIM.LEAP_AT the announced leap changes TIM.UTC_OFFSET. -/
  | leapApply (t : Nat) (utc : Option (Int × Int × Nat))
  /-- `OSCILLATOR_FAULT` (R51): A frequency term beyond TIM.FREQ_LIMIT drops the source that drove it. -/
  | oscillatorFault (t : Nat) (ppb : Int) (src : Nat)
  /-- `CLOCK_MONITOR_FAULT` (R66): The clock monitor detects a ROOT_CLK or PLL fault and gives a Package-level verdict. -/
  | clockMonitorFault (t cause count prev : Nat)
  /-- `TP_MODE_TAKE_EFFECT` (R61): A waiting pulse-mode change takes effect at its whole second. -/
  | tpModeTakeEffect (t o : Nat)
  /-- `TP_EDGE` (R64): A scheduled active pulse edge is emitted, suppressed or missed. -/
  | tpEdge (t o n : Nat)
  /-- `EVENT_CAPTURE` (R65): An edge on EVTi is captured as a class 0x07 input. -/
  | eventCapture (t i edge half : Nat)
  /-- `RTC_SET` (R468): In LOCKED the RTC is set from hub time at most once per 60 s. -/
  | rtcSet (t : Nat)
  /-- `ANT_BIAS_SAMPLE` (R71): The antenna bias current is sampled and the antenna state is set. -/
  | antBiasSample (t i ma peak : Nat)
  /-- `ANT_BIAS_RETRY` (R71): A SHORT antenna retries its bias once per second. -/
  | antBiasRetry (t i ma : Nat)
  /-- `CHAIN_SETTLE_END` (R73): A chain leaves SETTLING for RUN 10 ms after it is enabled. -/
  | chainSettleEnd (t c : Nat)
  /-- `CHAIN_FAULT` (R73): LO unlock or a stuck ADC makes the chain FAULT and drops its channels. -/
  | chainFault (t c cause : Nat)
  /-- `CHAIN_REENABLE` (R73): A FAULT chain is enabled again once per 10 s. -/
  | chainReenable (t c : Nat)
  /-- `DUMP_BOUNDARY` (R85): At a code-period boundary the channel's accumulators are dumped and pending rates applied. -/
  | dumpBoundary (t c n : Nat) (sums : List Int) (cn0 : Nat) (fll : Bool) (early late : Option (Int × Nat)) (sigs : Nat) (eph : Bool)
  /-- `EPOCH_LATCH` (R87): At a measurement epoch every channel latches its NCO state and the station epoch input is formed. -/
  | epochLatch (t : Nat) (l : List EpochChan)
  /-- `ACQ_SEARCH_DONE` (R90): An FFT acquisition search completes and may assign a channel in PULLIN. -/
  | acqSearchDone (t sig ant sat ratio : Nat)
  /-- `PULLIN_TIMEOUT` (R84): A channel not TRACKING after 2 s in PULLIN becomes FREE. -/
  | pullinTimeout (t c : Nat)
  /-- `COAST_EXPIRY` (R84): A channel in COASTING for TRK.COAST_MS becomes FREE. -/
  | coastExpiry (t c : Nat)
  /-- `TILE_FAULT` (R80): A correlator tile fault frees its channels and places the lost signals again. -/
  | tileFault (t tile cause : Nat)
  /-- `SNAP_CAPTURE_END` (R93): A capture ends its post-trigger recording and becomes HELD. -/
  | snapCaptureEnd (t : Nat) (data : List (Nat × Bytes))
  /-- `SNAP_EXPORT_END` (R95): An export completes and the capture returns to HELD. -/
  | snapExportEnd (t : Nat)
  /-- `JAM_INDEX_UPDATE` (R114): Every 10 ms the jamming indicator of each chain is computed while active. -/
  | jamIndexUpdate (t c pk : Nat)
  /-- `NOTCH_UPDATE` (R115): Every 100 ms notches are placed, re-centred or released. -/
  | notchUpdate (t c : Nat) (db : List Nat)
  /-- `SELFTEST_TONE` (R117): The self-test tone moves to the next chain every 200 ms and its chain is judged. -/
  | selftestTone (t c : Nat) (ok : Bool) (j : Nat)
  /-- `LANE_TICK` (R209): Each 1 ms lane tick evaluates all inputs and writes the lane's vote word. -/
  | laneTick (t i : Nat) (ok : Bool)
  /-- `VOTER_TICK` (R210): Each 1 ms voter tick samples the vote words, combines them and toggles the permit token. -/
  | voterTick (t : Nat)
  /-- `VOTER_TEST` (R510): Once per second the voter tests its compare logic. -/
  | voterTest (t : Nat) (ok : Bool)
  /-- `BEACON_FORM` (R225): The permit beacon of a cycle is formed and sent on each slice. -/
  | beaconForm (t i : Nat)
  /-- `BEACON_SELF_LISTEN` (R229): A sent beacon is decoded through RFMONi, counted as heard or not, and its content checked. -/
  | beaconSelfListen (t i : Nat) (heard : Option Bytes)
  /-- `STOP_COPY` (R226): Each 10 ms a stop frame copy is formed and sent. -/
  | stopCopy (t : Nat)
  /-- `ESTOP_EDGE` (R214): An E-stop level held for STP.ESTOP_FILT is accepted and becomes a class 0x06 input. -/
  | estopEdge (t i raw : Nat) (closed : Bool)
  /-- `ESTOP_TEST_PULSE` (R215): Each test-pulse output drives low for 500 µs and the following of the inputs is judged. -/
  | estopTestPulse (t i : Nat) (low back : Bool) (other : Option Nat)
  /-- `ESTOP_DISCREPANCY` (R215): Channels of a circuit that differ for STP.DISC_MS raise a circuit fault. -/
  | estopDiscrepancy (t c : Nat)
  /-- `CAN_SILENCE` (R217): No frame on a stop identifier for STP.CAN_HB_MS raises source 5. -/
  | canSilence (t i : Nat)
  /-- `REMOTE_SILENCE` (R218): No valid remote frame within STP.REMOTE_TMO in mode 2 raises source 7. -/
  | remoteSilence (t i : Nat)
  /-- `FENCE_DEADLINE` (R219): A lane without an accepted fence table at C(k) + 40 ms clears its PERMIT. -/
  | fenceDeadline (t i k : Nat)
  /-- `LANE_RECORD_APPLY` (R233): At C(k) + 12 ms each lane clears the components that the record released, after its live check. -/
  | laneRecordApply (t i : Nat) (good : Bool)
  /-- `SAFE_OUT_TEST` (R230): Each second an active safety output is pulsed off and its feedback checked. -/
  | safeOutTest (t o : Nat) (ok : Bool)
  /-- `SAFE_FB_MISMATCH` (R230): Feedback that disagrees with its output for 2 ms raises source 11. -/
  | safeFbMismatch (t o since : Nat) (fb : Bool)
  /-- `SAFE_FAULT_CLEAR` (R230): A safety output fault ends after 1 s of agreeing feedback. -/
  | safeFaultClear (t since : Nat)
  /-- `STARTUP_TESTS` (R514): After a cold start the start-up tests run before the cycle origin. -/
  | startupTests (t mask lanes chans slices : Nat)
  /-- `AIR_FRAME_RECEIVE` (R252): A received air frame is filtered, acknowledged, passed through the MAC checks and reassembled. -/
  | airFrameReceive (t i sfd : Nat) (f : Bytes)
  /-- `REASM_EXPIRE` (R260): A reassembly slot that has not completed within AIR.REASM_MS is discarded. -/
  | reasmExpire (t : Nat)
  /-- `AIR_FRAME_TRANSMIT` (R256): A queued frame starts after CCA and back-off, subject to the dwell and cycle limits. -/
  | airFrameTransmit (t i : Nat) (clear : Bool)
  /-- `ACK_RECEIVE` (R256): A matching acknowledgement ends the exchange of a unicast frame. -/
  | ackReceive (t i : Nat) (psdu : Bytes)
  /-- `ACK_TIMEOUT` (R256): The acknowledgement wait ends without an acknowledgement, and the frame is retried or fails. -/
  | ackTimeout (t i : Nat)
  /-- `TX_QUEUE_EXPIRE` (R255): A frame queued for 500 ms is dropped. -/
  | txQueueExpire (t i : Nat)
  /-- `SYNTH_UNLOCK` (R242): Loss of synthesizer lock stops transmission and makes the slice FAULT. -/
  | synthUnlock (t i : Nat)
  /-- `KEY_ROLLOVER` (R267): At cycle a the next key becomes current and the epoch increments. -/
  | keyRollover (t inst : Nat)
  /-- `KEY_DELIVERY_SEND` (R268): A key delivery is sent to a machine and repeated each second until acknowledged. -/
  | keyDeliverySend (t n kclass : Nat)
  /-- `LINK_CONFIG_SEND` (R269): The link configuration is sent on change and every 60 s until acknowledged. -/
  | linkConfigSend (t n : Nat)
  /-- `ALLOTMENT_REPEAT` (R175): The allotment message is repeated every 500 ms while the reservation stays HELD. -/
  | allotmentRepeat (t slot : Nat)
  /-- `HEARTBEAT_SEND` (R277): Each 1 ms the unit sends a heartbeat over the Brynorn link. -/
  | heartbeatSend (t : Nat)
  /-- `HEARTBEAT_RECEIVE` (R277): A heartbeat from the peer is received. -/
  | heartbeatReceive (t : Nat) (hb : Bytes) (sameKey : Bool) (offset : Int)
  /-- `LINK_FAIL` (R277): Five intervals without a heartbeat mean that the link has failed. -/
  | linkFail (t : Nat)
  /-- `LINK_RESTORE` (R277): After lane training and 100 heartbeats the link counts as restored. -/
  | linkRestore (t : Nat)
  /-- `PEER_INPUT` (R278): A standby stores an input forwarded by the ACTIVE unit. -/
  | peerInput (t cycle : Nat) (x : Input)
  /-- `PEER_COPY` (R280): A standby commits the cycle itself, compares the digests and applies the copy. -/
  | peerCopy (t : Nat) (record item : Bytes) (img : Image) (ok : Bool)
  /-- `PEER_CHECKPOINT` (R280): A SHADOW unit applies a requested full-state checkpoint. -/
  | peerCheckpoint (t : Nat) (img : Image)
  /-- `RESYNC` (R280): A RESYNC from the other unit makes the ACTIVE unit send a CHECKPOINT. -/
  | resync (t : Nat)
  /-- `PEER_STOP_FWD` (R276): A STOP forwarded by the non-ACTIVE unit enters the ACTIVE unit as a class 0x08 input. -/
  | peerStopFwd (t stamp idx : Nat) (payload : Bytes)
  /-- `GIVE_UP_RECEIVE` (R282): A STANDBY unit that holds the copy of b − 2 answers GIVE_UP with TAKE. -/
  | giveUpReceive (t cause b : Nat)
  /-- `SILENT_AT_BOUNDARY` (R281): At boundary b the giving-up unit becomes SILENT, or STANDBY for cause 8. -/
  | silentAtBoundary (t : Nat)
  /-- `TAKEOVER` (R282): At boundary b the standby drives SEAT, takes tenure + 1 and becomes ACTIVE. -/
  | takeover (t : Nat) (offset : Int) (unc : Nat)
  /-- `HEARTBEAT_LOSS_TAKEOVER` (R284): A STANDBY claims control at a boundary once the link has failed, SEAT is high and no beacon is heard. -/
  | heartbeatLossTakeover (t : Nat) (seat : Bool) (offset : Int) (unc : Nat)
  /-- `START_CLAIM` (R286): A STARTING unit claims control or becomes SHADOW at or after its cycle origin. -/
  | startClaim (t : Nat) (seat : Bool)
  /-- `CLAIM_RECEIVE` (R286): A peer CLAIM for the same boundary makes a claiming B-side yield. -/
  | claimReceive (t b : Nat)
  /-- `SILENT_RESTART` (R283): A SILENT unit cold starts itself after DPX.RESTART_S. -/
  | silentRestart (t : Nat)
  /-- `RETURN_REQUEST` (R289): An A-side SHADOW with equal digests for DPX.RETURN_HOLD requests the return of control. -/
  | returnRequest (t : Nat)
  /-- `PORT_LINK_CHANGE` (R294): A ring port link comes up or goes down. -/
  | portLinkChange (t p : Nat) (up : Bool) (mbit : Nat) (full : Bool)
  /-- `BYPASS_JOIN` (R298): Firmware drives the by-pass to join the ring after RNG.RETRY_S. -/
  | bypassJoin (t : Nat)
  /-- `BYPASS_JOIN_TIMEOUT` (R298): A join without both ports up within RNG.JOIN_MS releases the by-pass. -/
  | bypassJoinTimeout (t : Nat)
  /-- `BYPASS_DOWN_RELEASE` (R298): Both ports down for 1 s in DRIVEN release the by-pass. -/
  | bypassDownRelease (t : Nat)
  /-- `ETH_FRAME_FORWARD` (R295): The switch stores and forwards a frame, correcting PTP event messages as a transparent clock. -/
  | ethFrameForward (t : Nat) (f : EthFrame)
  /-- `MRP_TOPOLOGY_CHANGE` (R297): An MRP_TopologyChange flushes the address table after its interval. -/
  | mrpTopologyChange (t p interval : Nat)
  /-- `PTP_SYNC_SEND` (R302): As grandmaster the unit sends a one-step Sync each interval. -/
  | ptpSyncSend (t : Nat)
  /-- `PTP_ANNOUNCE_SEND` (R302): As grandmaster the unit sends Announce each interval. -/
  | ptpAnnounceSend (t : Nat)
  /-- `PDELAY_REQ_SEND` (R304): Each ring port measures link delay by Pdelay_Req. -/
  | pdelayReqSend (t p mac : Nat)
  /-- `PTP_MESSAGE_RECEIVE` (R302): A received PTP message feeds the follower or the best master algorithm. -/
  | ptpMessageReceive (t p : Nat) (m : PtpMsg)
  /-- `RING_FAULT` (R307): A ring port or switch core fault takes the port down or releases the by-pass. -/
  | ringFault (t tile cause : Nat)
  /-- `CAN_FRAME_RECEIVE` (R322): A received CAN frame is stamped, stored in its buffer and, with CORE set, queued as an input. -/
  | canFrameReceive (t c : Nat) (f : CanFrame)
  /-- `CAN_FRAME_SENT` (R323): An acknowledged, error-free frame makes its buffer SENT. -/
  | canFrameSent (t c b sof loop : Nat)
  /-- `CAN_TX_ERROR` (R324): A transmit error updates the counters and may raise an identifier clash. -/
  | canTxError (t c b kind : Nat)
  /-- `CAN_RECOVERY_START` (R326): Automatic recovery starts CAN.RECOVER_MS after bus-off. -/
  | canRecoveryStart (t c : Nat)
  /-- `CAN_RECOVERY_DONE` (R311): After 128 recessive sequences the controller returns to ERROR_ACTIVE. -/
  | canRecoveryDone (t c : Nat)
  /-- `CAN_MODE_APPLY` (R310): A mode or buffer configuration change takes effect at the next bus-idle instant. -/
  | canModeApply (t c : Nat)
  /-- `CAN_REF_SCHEDULE` (R329): A master schedules a reference message at each period instant. -/
  | canRefSchedule (t c : Nat)
  /-- `CAN_REF_LOST` (R330): Three periods without a reference raise notice 0x4884. -/
  | canRefLost (t c : Nat)
  /-- `ISO_ADDRESS_CLAIM` (R331): ISO 11783 network management claims, defends or cannot claim an address. -/
  | isoAddressClaim (t ev addr name : Nat)
  /-- `CAN_CONTROLLER_FAULT` (R333): A buffer parity error or stuck input takes the controller OFF. -/
  | canControllerFault (t c cause : Nat)
  /-- `MTR_BLOCK` (R337): Every 5 ms each enabled metering channel delivers a block as a class 0x05 input. -/
  | mtrBlock (t c stamp last snum : Nat) (codes : List Int)
  /-- `METERING_FAULT` (R364): A metering tile or modulator fault sets FAULT in the affected results. -/
  | meteringFault (t c cause : Nat)
  /-- `GANTRY_COMMAND` (R352): At C(k) + 12 ms the Derrick receives a committed gantry command. -/
  | gantryCommand (t : Nat)
  /-- `AXIS_MOVE_DONE` (R355): A move ends at rest on its targets and the axes become IDLE. -/
  | axisMoveDone (t ax : Nat)
  /-- `AXIS_STOP_DONE` (R356): A stopping line reaches rest and its axes become STOPPED. -/
  | axisStopDone (t ax : Nat)
  /-- `HOME_INPUT_ACCEPT` (R359): The home input is accepted during homing and the axis decelerates. -/
  | homeInputAccept (t ax : Nat)
  /-- `HOME_RELEASE_LATCH` (R359): At the raw home release edge the position is latched as DRK.HOME_OFS. -/
  | homeReleaseLatch (t ax : Nat)
  /-- `LIMIT_TRIP` (R358): An accepted limit input stops the move at DRK.EDEC and faults the axis. -/
  | limitTrip (t ax : Nat) (positive active : Bool)
  /-- `CHATTER` (R361): Too many raw edges on an input within DRK.CHATTER_MS fault the axis. -/
  | chatter (t ax input edges : Nat)
  /-- `FOLLOWING_ERROR_CHECK` (R362): Every 1 ms the commanded position is compared with the encoder. -/
  | followingErrorCheck (t ax : Nat) (count : Int)
  /-- `DERRICK_FAULT` (R364): A fault of Tile 11.0 makes every axis FAULT. -/
  | derrickFault (t : Nat)
  /-- `TASK_READY` (R401): A task becomes READY and is dispatched, held or may preempt. -/
  | taskReady (t n base : Nat)
  /-- `CORE_PICK` (R401): A core that becomes idle picks its next task. -/
  | corePick (t c : Nat)
  /-- `HOLD_EXPIRE` (R401): A task's affinity hold expires and it may go to any idle core. -/
  | holdExpire (t n : Nat)
  /-- `TASK_AGE` (R403): A READY task waiting DSP.AGE rises one level. -/
  | taskAge (t n : Nat)
  /-- `TASK_WAIT` (R404): A running task waits on an event or a Chute. -/
  | taskWait (t n kind obj timeout : Nat)
  /-- `EVENT_POST` (R404): An event is posted and ends the wait of its task. -/
  | eventPost (t ev : Nat)
  /-- `TASK_WAIT_TIMEOUT` (R404): A wait ends by timeout. -/
  | taskWaitTimeout (t n : Nat)
  /-- `CORE_FAULT` (R406): A core fault removes both cores of the Tile. -/
  | coreFault (t tile cause : Nat)
  /-- `DISPATCHER_FAULT` (R406): A fault of the dispatcher Tile ends all commits under R26. -/
  | dispatcherFault (t : Nat)
  /-- `TRACE_SYNC` (R408): A SYNC trace record is emitted after each whole second. -/
  | traceSync (t : Nat)
  /-- `LOG_RECORD_ENTER` (R423): A record enters the volatile buffer and takes its region sequence, or is coalesced or dropped. -/
  | logRecordEnter (t code tile : Nat) (body : Bytes)
  /-- `LOG_FLUSH` (R424): The buffer is flushed to the regions on a trigger. -/
  | logFlush (t dur : Nat)
  /-- `LOG_BLOCK_FAIL` (R439): A failed NAND block is retired and its readable records are moved to a spare. -/
  | logBlockFail (t r block cause : Nat) (lost : List Nat)
  /-- `LOG_REGION_RETRY` (R441): Every 60 s the region writer retries a region in last-words mode. -/
  | logRegionRetry (t r : Nat) (ok : Bool)
  /-- `PFAIL_ASSERT` (R465): PFAIL_N asserts: by-pass release, give-up cause 4, metering flush and log image copy. -/
  | pfailAssert (t : Nat)
  /-- `PFAIL_RELEASE` (R465): PFAIL_N releases without a reset. -/
  | pfailRelease (t : Nat)
  /-- `RAIL_MONITOR_FAULT` (R462): A rail outside its monitor range gives a Package-level verdict. -/
  | railMonitorFault (t r mv : Nat)
  /-- `BROWNOUT` (R462): A rail low for 500 µs, or a step 1 or 2 rail below 85 %, resets the device. -/
  | brownout (t r mv since : Nat)
  /-- `THERMAL_WARNING` (R462): A junction at 115 °C raises the thermal warning. -/
  | thermalWarning (t die : Nat) (temp : Int)
  /-- `THERMAL_VERDICT` (R462): A junction at 120 °C for 100 ms gives a Package-level verdict. -/
  | thermalVerdict (t die since : Nat) (temp : Int)
  /-- `THERMAL_RESET` (R462): A junction at 125 °C resets the device and holds the boot. -/
  | thermalReset (t die : Nat) (temp : Int)
  /-- `RESET_PIN` (R464): An accepted low on RESET_N starts a reset. -/
  | resetPin (t : Nat) (low : Bool) (width : Nat) (taken : Bool)
  /-- `WATCHDOG_RESET` (R466): No host link within 5 s, or no commit for 1 s, causes a reset. -/
  | watchdogReset (t : Nat)
  /-- `COLD_START` (R466): A cold start records its cause and restores metering, log and the retained state. -/
  | coldStart (t : Nat) (torn : Bool)
  /-- `BOOT` (R471): The boot core selects a slot, checks the image and releases the Bench. -/
  | boot (t : Nat) (lost : Bool)
  /-- `RECOVERY_IMAGE_WRITE` (R474): In recovery a valid image is written to slot A and a cold start follows. -/
  | recoveryImageWrite (t : Nat)
  /-- `IMAGE_CHECK_DONE` (R476): After the last chunk the firmware slot check completes and is answered within 30 s. -/
  | imageCheckDone (t other : Nat)
  /-- `TRIAL_EXPIRE` (R477): An unconfirmed trial expires after SEC.TRIAL_S and causes a cold start. -/
  | trialExpire (t : Nat)
  /-- `WAKE` (R470): An enabled wake edge or the RTC alarm wakes the device from Dormant. -/
  | wake (t source : Nat) (rising : Bool)
  /-- `DRAM_SCRUB` (R480): The patrol scrub reads all DRAM once per hour. -/
  | dramScrub (t n : Nat)
  /-- `MEMORY_FAULT` (R480): An ECC error is corrected, or an uncorrectable one gives up control. -/
  | memoryFault (t mem addr : Nat) (hard : Bool)
  /-- `AGC_UPDATE` (R73): Every 1 ms in RUN the chain AGC moves its gain by at most one step and the 1 ms clipping interval is judged for GNS.ADC_CLIP. -/
  | agcUpdate (t c big clip : Nat)
  /-- `CAN_RECEIVE_ERROR` (R325): An error detected while receiving on a CAN bus raises REC, is counted as an error frame, and may move the controller between ERROR_ACTIVE and ERROR_PASSIVE. -/
  | canReceiveError (t c : Nat) (dominant : Bool)
  /-- `THERMAL_CLEARED` (R462): A junction temperature that falls back clears the thermal warning (notice 0x7884 level 0), or falls below 105 °C and releases a boot held after a thermal reset. -/
  | thermalCleared (t die : Nat) (temps : List Int)
  /-- `CHISEL_UNIT_FAULT` (R141): A fault of one Chisel search unit takes it out of service until the next cold start and raises a fault report. -/
  | chiselUnitFault (t u : Nat)
  /-- `SLATE_FAULT` (R166): A fault of the Slate Tile is contained at Engine level and handled as a Bench commit fault under R26. -/
  | slateFault (t : Nat)
  /-- `COVERAGE_FAULT` (R207): A fault of the Coverage engine Tile 5.0 is contained at Engine level and treated as a Bench commit fault under R26. -/
  | coverageFault (t : Nat)
  /-- `REKEY_SESSION_END` (R479): The session that wrote SEC.REKEY ends 60 s after the commit of the rekey. -/
  | rekeySessionEnd (t : Nat)
  /-- `STOP_FWD_CONFIRM` (R276): A non-ACTIVE unit receives the ACTIVE unit's confirmation that a forwarded STOP is latched, and sends the OK reply to the host. -/
  | stopFwdConfirm (t : Nat)
  /-- `BAD_MAIL_FRAME` (R371): A received mail frame that fails SYNC, LENGTH, CRC or KIND is dropped and counted, and one with a bad mailbox, an unknown opcode or a wrong size is answered BAD_FRAME. -/
  | badMailFrame (t why flags fill : Nat) (h : HostCtx) (p : Bytes)
  deriving DecidableEq, Repr

end Sys2Proof
end

