-- ==== Sys2Proof/WellFormed.lean ====
section
/-!
DEFINITION. Which commands are well formed: each operand lies in the range its field or its instance numbers give (R367, R369, R378 to R383,
the parameter tables).  The meanings are total: an ill-formed command also has one.
-/
namespace Sys2Proof
open Sys2Proof.Machine

/-- A value of a field of `n` bits. -/
def isWord (n v : Nat) : Bool := decide (v < 2 ^ n)

/-- A value within a range. -/
def isIn (v lo hi : Nat) : Bool := decide (lo ≤ v ∧ v ≤ hi)

/-- An instant of hub time, whose seconds have 48 bits (R50). -/
def isTime (t : Nat) : Bool := decide (t < 2 ^ 48 * 1000000000)

/-- A machine number (1 to 96). -/
def isMachine (n : Nat) : Bool := isIn n 1 96

/-- An endpoint: UDP with its address and port, or serial, which has neither (R367). -/
def Machine.Ep.wf (e : Ep) : Bool :=
  (e.tr == 0 && isWord 32 e.ip && isWord 16 e.port) || (e.tr == 1 && e.ip == 0 && e.port == 0)

/-- What a mail frame carries beside its payload (Table 14.1). -/
def Machine.HostCtx.wf (h : HostCtx) : Bool :=
  h.ep.wf && isWord 16 h.tag && isWord 8 h.mbx && isTime h.admitAt &&
  match h.trailer with
  | none => true
  | some x => isWord 32 x.1 && decide (x.2.length = 8)

/-- Each operand in its range. -/
def Instr.wf : Instr → Bool
  | .get t h items => isTime t && h.wf && (items.all fun e => isWord 16 e.1 && isWord 16 e.2)
  | .set t h entries => isTime t && h.wf && (entries.all fun e => isWord 16 e.1 && isWord 16 e.2.1)
  | .getBlock t h id inst offset size => isTime t && h.wf && isWord 16 id && isWord 16 inst && isWord 32 offset && isWord 16 size
  | .setBlock t h id inst _ => isTime t && h.wf && isWord 16 id && isWord 16 inst
  | .close t h => isTime t && h.wf
  | .echo t h _ => isTime t && h.wf
  | .restart t h => isTime t && h.wf
  | .subscribe t h target on => isTime t && h.wf && isWord 8 target && decide (on < 2)
  | .authBegin t h level nonce => isTime t && h.wf && isWord 8 level && decide (nonce.length = 16)
  | .authProve t h sid proof => isTime t && h.wf && isWord 8 sid && decide (proof.length = 32)
  | .loadJobImage t h total offset _ => isTime t && h.wf && isWord 32 total && isWord 32 offset
  | .loadCoverageImage t h total offset _ => isTime t && h.wf && isWord 32 total && isWord 32 offset
  | .loadFirmwareImage t h total offset _ => isTime t && h.wf && isWord 32 total && isWord 32 offset
  | .logRead t h region gen start maxb => isTime t && h.wf && isWord 8 region && isWord 32 gen && isWord 32 start && isWord 16 maxb
  | .logClearRequest t h region => isTime t && h.wf && decide (region < 3)
  | .logClearConfirm t h region proof => isTime t && h.wf && decide (region < 3) && decide (proof.length = 16)
  | .stop t h scope groups mask => isTime t && h.wf && decide (scope < 2) && isWord 16 groups && isWord 96 mask
  | .armRelease t h scope groups mask => isTime t && h.wf && decide (scope < 2) && isWord 16 groups && isWord 96 mask
  | .release t h scope groups mask => isTime t && h.wf && decide (scope < 2) && isWord 16 groups && isWord 96 mask
  | .replayFeed t h flags offset _ => isTime t && h.wf && isWord 8 flags && isWord 32 offset
  | .snapArm t h _ => isTime t && h.wf
  | .snapTrigger t h _ => isTime t && h.wf
  | .snapExport t h _ => isTime t && h.wf
  | .snapDiscard t h _ => isTime t && h.wf
  | .snapDisarm t h _ => isTime t && h.wf
  | .journalHold t h => isTime t && h.wf
  | .journalRelease t h => isTime t && h.wf
  | .replayEnter t h => isTime t && h.wf
  | .replayLeave t h => isTime t && h.wf
  | .timStep t h => isTime t && h.wf
  | .tpModeWrite t h out mode => isTime t && h.wf && decide (out < 4) && isWord 8 mode
  | .gnsRunWrite t h v => isTime t && h.wf && decide (v < 2)
  | .forceCold t h => isTime t && h.wf
  | .staSelftest t h => isTime t && h.wf
  | .refAntWrite t h ant => isTime t && h.wf && decide (ant < 2)
  | .jobStart t h => isTime t && h.wf
  | .jobPause t h => isTime t && h.wf
  | .jobUnload t h => isTime t && h.wf
  | .reseat t h machine => isTime t && h.wf && isMachine machine
  | .hostResWrite t h inst block => isTime t && h.wf && isWord 16 inst && decide (block.length ≤ 65535)
  | .mtrSnap t h => isTime t && h.wf
  | .move t h mask => isTime t && h.wf && decide (mask < 16)
  | .axisStop t h mask => isTime t && h.wf && decide (mask < 16)
  | .resume t h mask => isTime t && h.wf && decide (mask < 16)
  | .home t h mask => isTime t && h.wf && decide (mask < 16)
  | .axisClear t h mask => isTime t && h.wf && decide (mask < 16)
  | .canStartRecovery t h c => isTime t && h.wf && decide (c < 3)
  | .canAbortHostBuffers t h c => isTime t && h.wf && decide (c < 3)
  | .txAbort t h buf => isTime t && h.wf && decide (buf < 192)
  | .canBufWrite t h buf record => isTime t && h.wf && decide (buf < 192) && decide (record.length = 88)
  | .canBufRead t h buf offset size => isTime t && h.wf && decide (buf < 192) && isWord 32 offset && isWord 16 size
  | .airKeyWrite t h inst key => isTime t && h.wf && decide (inst < 128) && decide (key.length = 16)
  | .airRollWrite t h inst cycle => isTime t && h.wf && decide (inst < 128) && isWord 32 cycle
  | .pairKeyWrite t h key => isTime t && h.wf && decide (key.length = 16)
  | .plannedHandover t h => isTime t && h.wf
  | .dpxGiveUp t h => isTime t && h.wf
  | .dpxRestart t h => isTime t && h.wf
  | .tlgClear t h counter => isTime t && h.wf && isWord 16 counter
  | .dormantRequest t h => isTime t && h.wf
  | .provLock t h => isTime t && h.wf
  | .rekey t h level salt => isTime t && h.wf && isIn level 1 3 && decide (salt.length = 16)
  | .keyExportRead t h offset size => isTime t && h.wf && isWord 32 offset && isWord 16 size
  | .activate t h => isTime t && h.wf
  | .confirm t h => isTime t && h.wf
  | .serialGapTimeout t last n => isTime t && isTime last && isWord 16 n
  | .huCtsChange t _ fill => isTime t && isWord 16 fill
  | .authChallengeExpire t sid => isTime t && isWord 8 sid
  | .authLockoutEnd t ep => isTime t && ep.wf
  | .subscriptionLapse t ep => isTime t && ep.wf
  | .loadIdleAbandon t target => isTime t && [0x20, 0x22, 0x7C].contains target
  | .chutePacketCommit t i _ => isTime t && decide (i < 16)
  | .chuteStall t i last => isTime t && decide (i < 16) && isTime last
  | .chuteReadIdleWake t i => isTime t && decide (i < 16)
  | .chuteFault t i => isTime t && decide (i < 16)
  | .cycleBoundary t => isTime t
  | .cycleCommit t us copyUs => isTime t && isWord 32 us && isWord 32 copyUs
  | .trackGenerationDone t _ digest => isTime t && isWord 64 digest
  | .commitOverrun t => isTime t
  | .commitMissed t => isTime t
  | .timeLoad t src time unc => isTime t && isIn src 1 3 && isTime time && isWord 32 unc
  | .sourceLoss t src last => isTime t && isIn src 1 3 && isTime last
  | .sourceQualified t src since _ unc => isTime t && isIn src 1 3 && isTime since && isWord 32 unc
  | .timeLocked t since _ unc => isTime t && isTime since && isWord 32 unc
  | .slewRemeasure t _ unc freq => isTime t && isWord 32 unc && isWord 40 freq
  | .holdoverSecond t => isTime t
  | .stepApply t _ frac us => isTime t && isWord 32 frac && isWord 32 us
  | .leapApply t _ => isTime t
  | .oscillatorFault t _ src => isTime t && isIn src 0 3
  | .clockMonitorFault t cause count prev => isTime t && isIn cause 1 3 && isWord 16 count && isWord 16 prev
  | .tpModeTakeEffect t o => isTime t && decide (o < 4)
  | .tpEdge t o n => isTime t && decide (o < 4) && isWord 64 n
  | .eventCapture t i edge half => isTime t && decide (i < 4) && isIn edge 1 2 && decide (half < 2)
  | .rtcSet t => isTime t
  | .antBiasSample t i ma peak => isTime t && decide (i < 2) && isWord 16 ma && isWord 16 peak
  | .antBiasRetry t i ma => isTime t && decide (i < 2) && isWord 16 ma
  | .chainSettleEnd t c => isTime t && decide (c < 6)
  | .chainFault t c cause => isTime t && decide (c < 6) && isIn cause 1 2
  | .chainReenable t c => isTime t && decide (c < 6)
  | .dumpBoundary t c n _ cn0 _ _ _ sigs _ => isTime t && decide (c < 1344) && isWord 32 n && isWord 16 cn0 && isWord 24 sigs
  | .epochLatch t _ => isTime t
  | .acqSearchDone t sig ant sat ratio => isTime t && decide (sig < 24) && decide (ant < 2) && isWord 8 sat && isWord 16 ratio
  | .pullinTimeout t c => isTime t && decide (c < 1344)
  | .coastExpiry t c => isTime t && decide (c < 1344)
  | .tileFault t tile cause => isTime t && decide (tile < 28) && isIn cause 1 2
  | .snapCaptureEnd t data => isTime t && data.all fun e => decide (e.1 < 6)
  | .snapExportEnd t => isTime t
  | .jamIndexUpdate t c pk => isTime t && decide (c < 6) && isWord 8 pk
  | .notchUpdate t c db => isTime t && decide (c < 6) && decide (db.length = 256)
  | .selftestTone t c _ j => isTime t && decide (c < 6) && isWord 8 j
  | .laneTick t i _ => isTime t && decide (i < 3)
  | .voterTick t => isTime t
  | .voterTest t _ => isTime t
  | .beaconForm t i => isTime t && decide (i < 4)
  | .beaconSelfListen t i _ => isTime t && decide (i < 4)
  | .stopCopy t => isTime t
  | .estopEdge t i raw _ => isTime t && decide (i < 4) && isTime raw
  | .estopTestPulse t i _ _ _ => isTime t && decide (i < 4)
  | .estopDiscrepancy t c => isTime t && decide (c < 2)
  | .canSilence t i => isTime t && decide (i < 4)
  | .remoteSilence t i => isTime t && decide (i < 16)
  | .fenceDeadline t i k => isTime t && decide (i < 3) && isWord 32 k
  | .laneRecordApply t i _ => isTime t && decide (i < 3)
  | .safeOutTest t o _ => isTime t && decide (o < 2)
  | .safeFbMismatch t o since _ => isTime t && decide (o < 2) && isTime since
  | .safeFaultClear t since => isTime t && isTime since
  | .startupTests t mask lanes chans slices => isTime t && isWord 16 mask && decide (lanes < 8) && decide (chans < 16) && decide (slices < 16)
  | .airFrameReceive t i sfd _ => isTime t && decide (i < 4) && isTime sfd
  | .reasmExpire t => isTime t
  | .airFrameTransmit t i _ => isTime t && decide (i < 4)
  | .ackReceive t i _ => isTime t && decide (i < 4)
  | .ackTimeout t i => isTime t && decide (i < 4)
  | .txQueueExpire t i => isTime t && decide (i < 4)
  | .synthUnlock t i => isTime t && decide (i < 4)
  | .keyRollover t inst => isTime t && decide (inst < 128)
  | .keyDeliverySend t n kclass => isTime t && isMachine n && decide (kclass < 2)
  | .linkConfigSend t n => isTime t && isMachine n
  | .allotmentRepeat t slot => isTime t && isWord 16 slot
  | .heartbeatSend t => isTime t
  | .heartbeatReceive t hb _ _ => isTime t && decide (hb.length = 44)
  | .linkFail t => isTime t
  | .linkRestore t => isTime t
  | .peerInput t cycle _ => isTime t && isWord 32 cycle
  | .peerCopy t _ _ _ _ => isTime t
  | .peerCheckpoint t _ => isTime t
  | .resync t => isTime t
  | .peerStopFwd t stamp idx _ => isTime t && isTime stamp && isWord 16 idx
  | .giveUpReceive t cause b => isTime t && isWord 8 cause && isWord 32 b
  | .silentAtBoundary t => isTime t
  | .takeover t _ unc => isTime t && isWord 32 unc
  | .heartbeatLossTakeover t _ _ unc => isTime t && isWord 32 unc
  | .startClaim t _ => isTime t
  | .claimReceive t b => isTime t && isWord 32 b
  | .silentRestart t => isTime t
  | .returnRequest t => isTime t
  | .portLinkChange t p _ mbit _ => isTime t && decide (p < 2) && [100, 1000].contains mbit
  | .bypassJoin t => isTime t
  | .bypassJoinTimeout t => isTime t
  | .bypassDownRelease t => isTime t
  | .ethFrameForward t f => isTime t && decide (f.port < 3)
  | .mrpTopologyChange t p interval => isTime t && decide (p < 2) && isWord 16 interval
  | .ptpSyncSend t => isTime t
  | .ptpAnnounceSend t => isTime t
  | .pdelayReqSend t p mac => isTime t && decide (p < 2) && isTime mac
  | .ptpMessageReceive t p _ => isTime t && decide (p < 2)
  | .ringFault t tile cause => isTime t && decide (tile < 3) && isWord 8 cause
  | .canFrameReceive t c _ => isTime t && decide (c < 3)
  | .canFrameSent t c b sof loop => isTime t && decide (c < 3) && decide (b < 64) && isTime sof && isWord 8 loop
  | .canTxError t c b kind => isTime t && decide (c < 3) && decide (b < 64) && isWord 8 kind
  | .canRecoveryStart t c => isTime t && decide (c < 3)
  | .canRecoveryDone t c => isTime t && decide (c < 3)
  | .canModeApply t c => isTime t && decide (c < 3)
  | .canRefSchedule t c => isTime t && decide (c < 3)
  | .canRefLost t c => isTime t && decide (c < 3)
  | .isoAddressClaim t ev addr name => isTime t && decide (ev < 4) && isWord 8 addr && isWord 64 name
  | .canControllerFault t c cause => isTime t && decide (c < 3) && isWord 8 cause
  | .mtrBlock t c stamp last snum codes => isTime t && decide (c < 16) && isTime stamp && isTime last && isWord 32 snum && decide (codes.length = 40)
  | .meteringFault t c cause => isTime t && decide (c < 17) && isWord 8 cause
  | .gantryCommand t => isTime t
  | .axisMoveDone t ax => isTime t && decide (ax < 4)
  | .axisStopDone t ax => isTime t && decide (ax < 4)
  | .homeInputAccept t ax => isTime t && decide (ax < 4)
  | .homeReleaseLatch t ax => isTime t && decide (ax < 4)
  | .limitTrip t ax _ _ => isTime t && decide (ax < 4)
  | .chatter t ax input edges => isTime t && decide (ax < 4) && decide (input < 3) && isWord 32 edges
  | .followingErrorCheck t ax _ => isTime t && decide (ax < 4)
  | .derrickFault t => isTime t
  | .taskReady t n base => isTime t && decide (n < 256) && decide (base < 32)
  | .corePick t c => isTime t && decide (c < 12)
  | .holdExpire t n => isTime t && decide (n < 256)
  | .taskAge t n => isTime t && decide (n < 256)
  | .taskWait t n kind obj timeout => isTime t && decide (n < 256) && isIn kind 1 2 && isWord 16 obj && isWord 32 timeout
  | .eventPost t ev => isTime t && isWord 16 ev
  | .taskWaitTimeout t n => isTime t && decide (n < 256)
  | .coreFault t tile cause => isTime t && decide (tile < 6) && isIn cause 1 3
  | .dispatcherFault t => isTime t
  | .traceSync t => isTime t
  | .logRecordEnter t code tile _ => isTime t && isWord 16 code && isWord 8 tile
  | .logFlush t dur => isTime t && isTime dur
  | .logBlockFail t r block cause _ => isTime t && decide (r < 2) && isWord 16 block && isIn cause 1 4
  | .logRegionRetry t r _ => isTime t && decide (r < 2)
  | .pfailAssert t => isTime t
  | .pfailRelease t => isTime t
  | .railMonitorFault t r mv => isTime t && decide (r < 11) && isWord 16 mv
  | .brownout t r mv since => isTime t && decide (r < 11) && isWord 16 mv && isTime since
  | .thermalWarning t die _ => isTime t && decide (die < 4)
  | .thermalVerdict t die since _ => isTime t && decide (die < 4) && isTime since
  | .thermalReset t die _ => isTime t && decide (die < 4)
  | .resetPin t _ width _ => isTime t && isTime width
  | .watchdogReset t => isTime t
  | .coldStart t _ => isTime t
  | .boot t _ => isTime t
  | .recoveryImageWrite t => isTime t
  | .imageCheckDone t other => isTime t && isWord 8 other
  | .trialExpire t => isTime t
  | .wake t source _ => isTime t && isIn source 1 3
  | .dramScrub t n => isTime t && isWord 32 n
  | .memoryFault t mem addr _ => isTime t && isIn mem 1 3 && isWord 40 addr
  | .agcUpdate t c big clip => isTime t && decide (c < 6) && isIn big 0 100000 && isIn clip 0 100000
  | .canReceiveError t c _ => isTime t && decide (c < 3)
  | .thermalCleared t die temps => isTime t && decide (die < 4) && decide (temps.length = 4)
  | .chiselUnitFault t u => isTime t && decide (u < 4)
  | .slateFault t => isTime t
  | .coverageFault t => isTime t
  | .rekeySessionEnd t => isTime t
  | .stopFwdConfirm t => isTime t
  | .badMailFrame t why flags fill h _ => isTime t && decide (why < 7) && isWord 8 flags && isWord 16 fill && h.wf

end Sys2Proof
end

