-- ==== Sys2Proof/Config.lean ====
section
/-!
DEFINITION. What one implementation fixes and what the manual leaves open, as constants without a body: nothing in Lean can
evaluate them, and a statement that names one holds for every value of it.
-/
namespace Sys2Proof

/-- A fresh free value: the manual states no value where it is used.  Applied to a counter in the state (`Dev.freeIx`). -/
opaque Config.freeValue : Nat → Nat

/-- A fresh free byte string: its use and the counter.  Where the manual states a length it is fitted to it. -/
opaque Config.freeBytes : Nat → Nat → Bytes

/-- The severity that each record code has (R420 gives none but two), see notes/assumptions/6.md. -/
opaque Config.severity : Nat → Nat

/-- The values read from fuses and identification cells: parameter identifier, instance (SYS.BUILD, SYS.SERIAL, ...). -/
opaque Config.identity : Nat → Nat → Bytes

/-- The device-unique key, fused at manufacture (R478). -/
opaque Config.deviceKey : Bytes

/-- The SHA-256 hash of the vendor key fused for an index (R472). -/
opaque Config.vendorKey : Nat → Bytes

/-- Whether ECDSA P-256 verifies: public key, digest, signature (R472). -/
opaque Config.ecdsa : Bytes → Bytes → Bytes → Bool

/-- The copy format version of this firmware (R274), which the manual does not state. -/
opaque Config.copyVersion : Nat

/-- Whether a satellite is predicted visible from stored data (R92): free index, signal, satellite. -/
opaque Config.visible : Nat → Nat → Nat → Bool

/-- The geometry of the sky, which the manual leaves to the broadcast orbits: elevation in degrees of a satellite (system, number) at
an epoch stamp. -/
opaque Config.elevation : Nat → Nat → Nat → Int

/-- Line of sight of a satellite at an epoch in Q2.30: stamp, system, satellite, axis (E, N, U). -/
opaque Config.sight : Nat → Nat → Nat → Nat → Int

/-- GLONASS frequency channel (−7 to +6) of a slot that the almanac gives. -/
opaque Config.gloChannel : Nat → Int

/-- What the station's epoch solution gives for its observables (R99, R109, Table 4.7): the observables as bytes, then which value: 0
horizontal and 1 vertical distance from the station position (mm), 2 Doppler speed (mm/s), 3 accuracy (mm), 4 to 6 ECEF (mm), 7 the
steering applied (ps), 10 to 15 the system offsets (ps), 20 to 25 the broadcast inter-system offsets (ps). -/
opaque Config.stationSolve : Bytes → Nat → Int

/-- What an antenna's phase-centre offset and variation add to an observable (R101 gives no formula): the offset (3) and the variation (19) of
its antenna and band in 0.1 mm, the stamp, system, satellite and signal, then 0 for the pseudorange and 1 for the carrier phase. -/
opaque Config.antennaCorrection : List Int → List Nat → Nat → Int

/-- Pseudorange residual of one observable at the known position (mm), C4. -/
opaque Config.residual : Bytes → Nat → Nat → Int

/-- Content of an RTCM 10403.3 message, which that standard defines: message number, data. -/
opaque Config.rtcmContent : Nat → Bytes → Bytes

/-- The next state of a machine's RTK filter (R132 to R136 leave every rounding detail to another document): state, the report with its
reference observables, the station position and the filter's configuration. -/
opaque Config.filterStep : Nat → Bytes → Nat

/-- A value read from a filter's state: 0 to 2 ECEF (mm), 3 to 5 ECEF velocity (mm/s), 6 to 8 variances east, north, up (mm²), 9
covariance east-north, 10 common satellites, 11 code satellites, 12 float ambiguities, 13 greatest held-integer residual (mm). -/
opaque Config.filterValue : Nat → Nat → Int

/-- What the Chisel's search of a filter's state finds when the `f` least precise ambiguities are dropped (R139): 0 nodes visited so far,
1 and 2 the squared distances of the best two integer vectors (UQ32.32). -/
opaque Config.search : Nat → Nat → Nat → Nat

/-- The kept set of that search: ambiguities with their integers, ascending. -/
opaque Config.kept : Nat → Nat → List (Nat × Int)

/-- The receiver clock offset estimated from the code of an observation report (ns), R126. -/
opaque Config.clockOffset : Bytes → Int

/-- The record code of a fault report for which the manual states none, by engine number. -/
opaque Config.faultCode : Nat → Nat

/-- The route over the transit lanes (R158), whose lines the Workbench model's track table gives: the job image, then east and north of the
start and of the end.  The points between them. -/
opaque Config.route : Bytes → List Int → List (Int × Int)

/-- Clock quality the unit announces (R302), which the manual does not state: 0 clockAccuracy, 1 offsetScaledLogVariance. -/
opaque Config.clockQuality : Nat → Nat

end Sys2Proof
end

