-- ==== Sys2Proof/Machine/Crypto.lean ====
section
/-!
DEFINITION. The standard functions the manual names and does not restate: SHA-256 (R31, R36, R41), HMAC-SHA-256 (R383),
CRC-32C (R33, R369), CRC-16, AES-128 with CCM (Chapter 9).  PRESUMED: the bodies are the published standards
(FIPS 180-4, RFC 2104, RFC 3720, FIPS 197, RFC 3610), see notes/assumptions/3.md.
-/
namespace Sys2Proof.Machine

/-- One 32-bit word of a hash. -/
abbrev W32 := BitVec 32

/-- SHA-256's round constants. -/
def shaK : List W32 := [
  0x428a2f98#32, 0x71374491#32, 0xb5c0fbcf#32, 0xe9b5dba5#32, 0x3956c25b#32, 0x59f111f1#32, 0x923f82a4#32, 0xab1c5ed5#32,
  0xd807aa98#32, 0x12835b01#32, 0x243185be#32, 0x550c7dc3#32, 0x72be5d74#32, 0x80deb1fe#32, 0x9bdc06a7#32, 0xc19bf174#32,
  0xe49b69c1#32, 0xefbe4786#32, 0x0fc19dc6#32, 0x240ca1cc#32, 0x2de92c6f#32, 0x4a7484aa#32, 0x5cb0a9dc#32, 0x76f988da#32,
  0x983e5152#32, 0xa831c66d#32, 0xb00327c8#32, 0xbf597fc7#32, 0xc6e00bf3#32, 0xd5a79147#32, 0x06ca6351#32, 0x14292967#32,
  0x27b70a85#32, 0x2e1b2138#32, 0x4d2c6dfc#32, 0x53380d13#32, 0x650a7354#32, 0x766a0abb#32, 0x81c2c92e#32, 0x92722c85#32,
  0xa2bfe8a1#32, 0xa81a664b#32, 0xc24b8b70#32, 0xc76c51a3#32, 0xd192e819#32, 0xd6990624#32, 0xf40e3585#32, 0x106aa070#32,
  0x19a4c116#32, 0x1e376c08#32, 0x2748774c#32, 0x34b0bcb5#32, 0x391c0cb3#32, 0x4ed8aa4a#32, 0x5b9cca4f#32, 0x682e6ff3#32,
  0x748f82ee#32, 0x78a5636f#32, 0x84c87814#32, 0x8cc70208#32, 0x90befffa#32, 0xa4506ceb#32, 0xbef9a3f7#32, 0xc67178f2#32]

/-- SHA-256's initial value. -/
def shaIV : List W32 := [
  0x6a09e667#32, 0xbb67ae85#32, 0x3c6ef372#32, 0xa54ff53a#32, 0x510e527f#32, 0x9b05688c#32, 0x1f83d9ab#32, 0x5be0cd19#32]

/-- The word four bytes spell, most significant first. -/
def beWord (bs : Bytes) : W32 := bs.foldl (fun a b => a * 256 + b.setWidth 32) 0#32

/-- `n` bytes of `v`, most significant first. -/
def be (n v : Nat) : Bytes := (le n v).reverse

/-- A byte string cut into blocks of `n` bytes, the last as long as it is. -/
def blocksOf (n : Nat) (bs : Bytes) : List Bytes :=
  (List.range ((bs.length + n - 1) / n)).map fun i => cut bs (i * n) n

/-- The message schedule, newest word first, extended by `n` words. -/
def shaSchedule : Nat → List W32 → List W32
  | 0, w => w
  | n + 1, w =>
    let a := nth w 14; let b := nth w 1
    let s0 := a.rotateRight 7 ^^^ a.rotateRight 18 ^^^ (a >>> 3)
    let s1 := b.rotateRight 17 ^^^ b.rotateRight 19 ^^^ (b >>> 10)
    shaSchedule n ((nth w 15 + s0 + nth w 6 + s1) :: w)

/-- One round of SHA-256 on the eight working words. -/
def shaRound (v : List W32) (kw : W32 × W32) : List W32 :=
  match v with
  | [a, b, c, d, e, f, g, h] =>
    let s1 := e.rotateRight 6 ^^^ e.rotateRight 11 ^^^ e.rotateRight 25
    let ch := (e &&& f) ^^^ ((~~~ e) &&& g)
    let t1 := h + s1 + ch + kw.1 + kw.2
    let s0 := a.rotateRight 2 ^^^ a.rotateRight 13 ^^^ a.rotateRight 22
    let mj := (a &&& b) ^^^ (a &&& c) ^^^ (b &&& c)
    [t1 + (s0 + mj), a, b, c, d + t1, e, f, g]
  | v => v

/-- One 64-byte block folded into the hash value. -/
def shaBlock (h : List W32) (blk : Bytes) : List W32 :=
  let w := (shaSchedule 48 ((blocksOf 4 blk).map beWord).reverse).reverse
  List.zipWith (· + ·) h ((List.zip shaK w).foldl shaRound h)

/-- SHA-256 of a byte string: 32 bytes. -/
def sha256 (m : Bytes) : Bytes :=
  let p := m ++ [0x80#8] ++ zeros ((119 - m.length % 64) % 64) ++ be 8 (8 * m.length)
  ((blocksOf 64 p).foldl shaBlock shaIV).flatMap fun w => be 4 w.toNat

/-- The first 8 bytes of a SHA-256, little-endian: the truncation of every digest of the manual (R31, R36, R41). -/
def digest64 (m : Bytes) : Nat := unle ((sha256 m).take 8)

/-- HMAC-SHA-256. -/
def hmac (key m : Bytes) : Bytes :=
  let k := fit 64 (if 64 < key.length then sha256 key else key)
  sha256 (k.map (· ^^^ 0x5c#8) ++ sha256 (k.map (· ^^^ 0x36#8) ++ m))

/-- One step of a reflected CRC on its low bit. -/
def crcStep (w : Nat) (poly : BitVec w) : Nat → BitVec w → BitVec w
  | 0, c => c
  | n + 1, c => crcStep w poly n (if c.getLsbD 0 then (c >>> 1) ^^^ poly else c >>> 1)

/-- CRC-32C (Castagnoli, reflected, all ones in and out). -/
def crc32c (m : Bytes) : Nat :=
  (~~~ (m.foldl (fun c b => crcStep 32 0x82f63b78#32 8 (c ^^^ b.setWidth 32)) 0xffffffff#32)).toNat

/-- The 32-bit frame check sequence of IEEE 802.15.4 and Ethernet (reflected, all ones in and out). -/
def crc32 (m : Bytes) : Nat :=
  (~~~ (m.foldl (fun c b => crcStep 32 0xedb88320#32 8 (c ^^^ b.setWidth 32)) 0xffffffff#32)).toNat

/-- Product in the field of AES. -/
def gmul (a b : Byte) : Byte :=
  ((List.range 8).foldl (fun (r : Byte × Byte) i =>
    (if b.getLsbD i then r.1 ^^^ r.2 else r.1,
     if r.2.getLsbD 7 then (r.2 <<< 1) ^^^ 0x1b#8 else r.2 <<< 1)) (0#8, a)).1

/-- The AES substitution, from the field inverse (the 254th power) and the affine map. -/
def sbox (a : Byte) : Byte :=
  let sq (x : Byte) : Byte := gmul x x
  let a2 := sq a; let a4 := sq a2; let a8 := sq a4; let a16 := sq a8; let a32 := sq a16; let a64 := sq a32
  let inv := gmul (gmul (gmul a2 a4) (gmul a8 a16)) (gmul (gmul a32 a64) (sq a64))
  inv ^^^ inv.rotateLeft 1 ^^^ inv.rotateLeft 2 ^^^ inv.rotateLeft 3 ^^^ inv.rotateLeft 4 ^^^ 0x63#8

/-- AES-128's 11 round keys, newest first, `n` more to go. -/
def aesExpand : Nat → Byte → List Bytes → List Bytes
  | 0, _, ks => ks
  | n + 1, rc, ks =>
    let k := nth ks 0
    let t := [sbox (nth k 13) ^^^ rc, sbox (nth k 14), sbox (nth k 15), sbox (nth k 12)]
    let w0 := List.zipWith (· ^^^ ·) (cut k 0 4) t
    let w1 := List.zipWith (· ^^^ ·) (cut k 4 4) w0
    let w2 := List.zipWith (· ^^^ ·) (cut k 8 4) w1
    let w3 := List.zipWith (· ^^^ ·) (cut k 12 4) w2
    aesExpand n (gmul rc 2#8) ((w0 ++ w1 ++ w2 ++ w3) :: ks)

/-- Byte order of the AES row shift. -/
def aesShift : List Nat := [0, 5, 10, 15, 4, 9, 14, 3, 8, 13, 2, 7, 12, 1, 6, 11]

/-- The AES column mix of one column. -/
def aesMix (c : Bytes) : Bytes :=
  (List.range 4).map fun i =>
    gmul 2#8 (nth c i) ^^^ gmul 3#8 (nth c ((i + 1) % 4)) ^^^ nth c ((i + 2) % 4) ^^^ nth c ((i + 3) % 4)

/-- AES-128 of one 16-byte block. -/
def aes (key blk : Bytes) : Bytes :=
  let ks := (aesExpand 10 1#8 [fit 16 key]).reverse
  let s0 := List.zipWith (· ^^^ ·) (fit 16 blk) (nth ks 0)
  (List.range 10).foldl (fun s i =>
    let s1 := aesShift.map fun j => sbox (nth s j)
    let s2 := if i < 9 then (blocksOf 4 s1).flatMap aesMix else s1
    List.zipWith (· ^^^ ·) s2 (nth ks (i + 1))) s0

/-- Byte strings added bit by bit, as long as the first. -/
def xorB (a b : Bytes) : Bytes := List.zipWith (· ^^^ ·) a (fit a.length b)

/-- Key stream of CCM: `n` bytes under nonce `nonce` (13 bytes), from counter block `c` on. -/
def ccmStream (key nonce : Bytes) (c n : Nat) : Bytes :=
  ((List.range ((n + 15) / 16)).flatMap fun i => aes key ([1#8] ++ nonce ++ be 2 (c + i))).take n

/-- AES-CCM's authentication tag of `m` bytes over header `aad` and message `msg` (2-byte length field). -/
def ccmTag (key nonce aad msg : Bytes) (m : Nat) : Bytes :=
  let flags := (if aad.isEmpty then 0 else 64) + (m - 2) / 2 * 8 + 1
  let b0 := [BitVec.ofNat 8 flags] ++ nonce ++ be 2 msg.length
  let hdr := if aad.isEmpty then [] else
    let h := be 2 aad.length ++ aad; h ++ zeros ((16 - h.length % 16) % 16)
  let x := (blocksOf 16 (b0 ++ hdr ++ msg)).foldl (fun x b => aes key (xorB x b)) (zeros 16)
  xorB (x.take m) (aes key ([1#8] ++ nonce ++ be 2 0))

end Sys2Proof.Machine
end

