-- ==== Sys2Proof/Machine/Params.lean ====
section
/-!
DEFINITION. The parameter table: one row for each of the 623 parameters of the manual's parameter tables (R444, R445, R447,
R449, R454, Tables 1.9 to 18.7), their names as constants `P.<GROUP>_<ITEM>`, and their reset values.
-/
namespace Sys2Proof.Machine

/-- Value types of Table 17.2 with their widths in bytes; a block carries its least and largest length. -/
inductive VType where
  | u (n : Nat) | s (n : Nat) | q (n : Nat) | stamp | hubtime | chars (n : Nat) | block (lo hi : Nat)
  deriving DecidableEq, Repr, Inhabited

/-- Access of a parameter (Table 17.5). -/
inductive Acc where
  | ro | rw | rwi | act
  deriving DecidableEq, Repr, Inhabited

/-- Counter marks (Table 0.7). -/
inductive Cnt where
  | none | wrap | stick | event
  deriving DecidableEq, Repr, Inhabited

/-- The values a table allows for an item: any of its width, 0 up to a largest, a signed range, a list, or any value whose
bits outside a mask are the reserved zeros of R10. -/
inductive Dom where
  | any | upto (hi : Nat) | rng (lo hi : Int) | oneOf (l : List Nat) | mask (m : Nat)
  deriving DecidableEq, Repr, Inhabited

/-- One row of a parameter table.  `level` is the least session level of a write (R449): 0 OBSERVE to 3 SERVICE. -/
structure Param where
  id : Nat
  ty : VType
  acc : Acc
  level : Nat
  cnt : Cnt
  lo : Nat
  hi : Nat
  reset : Nat
  dom : Dom
  deriving DecidableEq, Repr, Inhabited

/-- `SYS.PART`. -/
abbrev P.SYS_PART : Nat := 0x0101
/-- `SYS.STEPPING`. -/
abbrev P.SYS_STEPPING : Nat := 0x0102
/-- `SYS.FW_VERSION`. -/
abbrev P.SYS_FW_VERSION : Nat := 0x0103
/-- `SYS.BUILD`. -/
abbrev P.SYS_BUILD : Nat := 0x0104
/-- `SYS.SERIAL`. -/
abbrev P.SYS_SERIAL : Nat := 0x0105
/-- `SYS.MAC`. -/
abbrev P.SYS_MAC : Nat := 0x0106
/-- `SYS.DIE_ID`. -/
abbrev P.SYS_DIE_ID : Nat := 0x0107
/-- `SYS.TEMP`. -/
abbrev P.SYS_TEMP : Nat := 0x0108
/-- `SYS.NAME`. -/
abbrev P.SYS_NAME : Nat := 0x0109
/-- `SYS.ITEM_DESC`. -/
abbrev P.SYS_ITEM_DESC : Nat := 0x010A
/-- `SYS.FAULT_LAST`. -/
abbrev P.SYS_FAULT_LAST : Nat := 0x010B
/-- `TIM.STATE`. -/
abbrev P.TIM_STATE : Nat := 0x0201
/-- `TIM.NOW`. -/
abbrev P.TIM_NOW : Nat := 0x0202
/-- `TIM.UNC`. -/
abbrev P.TIM_UNC : Nat := 0x0203
/-- `TIM.DEGRADED`. -/
abbrev P.TIM_DEGRADED : Nat := 0x0204
/-- `TIM.INCR`. -/
abbrev P.TIM_INCR : Nat := 0x0205
/-- `TIM.OFFSET`. -/
abbrev P.TIM_OFFSET : Nat := 0x0206
/-- `TIM.SOURCE`. -/
abbrev P.TIM_SOURCE : Nat := 0x0207
/-- `TIM.SOURCE_MASK`. -/
abbrev P.TIM_SOURCE_MASK : Nat := 0x0208
/-- `TIM.UTC_OFFSET`. -/
abbrev P.TIM_UTC_OFFSET : Nat := 0x0209
/-- `TIM.UTC_AUTO`. -/
abbrev P.TIM_UTC_AUTO : Nat := 0x020A
/-- `TIM.LEAP_PENDING`. -/
abbrev P.TIM_LEAP_PENDING : Nat := 0x020B
/-- `TIM.LEAP_AT`. -/
abbrev P.TIM_LEAP_AT : Nat := 0x020C
/-- `TIM.SLEW`. -/
abbrev P.TIM_SLEW : Nat := 0x020D
/-- `TIM.HOLD_LIMIT`. -/
abbrev P.TIM_HOLD_LIMIT : Nat := 0x020E
/-- `TIM.UNC_LIMIT`. -/
abbrev P.TIM_UNC_LIMIT : Nat := 0x020F
/-- `TIM.LOCK_NS`. -/
abbrev P.TIM_LOCK_NS : Nat := 0x0210
/-- `TIM.LOCK_TIME`. -/
abbrev P.TIM_LOCK_TIME : Nat := 0x0211
/-- `TIM.LOSS_TIME`. -/
abbrev P.TIM_LOSS_TIME : Nat := 0x0212
/-- `TIM.QUAL_TIME`. -/
abbrev P.TIM_QUAL_TIME : Nat := 0x0213
/-- `TIM.OSC_FSTAB`. -/
abbrev P.TIM_OSC_FSTAB : Nat := 0x0214
/-- `TIM.OSC_AGE`. -/
abbrev P.TIM_OSC_AGE : Nat := 0x0215
/-- `TIM.FREQ_LIMIT`. -/
abbrev P.TIM_FREQ_LIMIT : Nat := 0x0216
/-- `TIM.HOLD_ELAPSED`. -/
abbrev P.TIM_HOLD_ELAPSED : Nat := 0x0217
/-- `TIM.STEP`. -/
abbrev P.TIM_STEP : Nat := 0x0218
/-- `TIM.STEP_LAST`. -/
abbrev P.TIM_STEP_LAST : Nat := 0x0219
/-- `TIM.STEP_COUNT`. -/
abbrev P.TIM_STEP_COUNT : Nat := 0x021A
/-- `TIM.TP_MODE`. -/
abbrev P.TIM_TP_MODE : Nat := 0x021B
/-- `TIM.TP_START`. -/
abbrev P.TIM_TP_START : Nat := 0x021C
/-- `TIM.TP_PERIOD`. -/
abbrev P.TIM_TP_PERIOD : Nat := 0x021D
/-- `TIM.TP_WIDTH`. -/
abbrev P.TIM_TP_WIDTH : Nat := 0x021E
/-- `TIM.TP_DEG_WIDTH`. -/
abbrev P.TIM_TP_DEG_WIDTH : Nat := 0x021F
/-- `TIM.TP_POL`. -/
abbrev P.TIM_TP_POL : Nat := 0x0220
/-- `TIM.TP_DELAY`. -/
abbrev P.TIM_TP_DELAY : Nat := 0x0221
/-- `TIM.TP_EMITTED`. -/
abbrev P.TIM_TP_EMITTED : Nat := 0x0222
/-- `TIM.TP_SUPPRESSED`. -/
abbrev P.TIM_TP_SUPPRESSED : Nat := 0x0223
/-- `TIM.EVT_EDGE`. -/
abbrev P.TIM_EVT_EDGE : Nat := 0x0224
/-- `TIM.EVT_HOLDOFF`. -/
abbrev P.TIM_EVT_HOLDOFF : Nat := 0x0225
/-- `TIM.EVT_LOST`. -/
abbrev P.TIM_EVT_LOST : Nat := 0x0226
/-- `TIM.CLKMON`. -/
abbrev P.TIM_CLKMON : Nat := 0x0227
/-- `TIM.CLKMON_FAULTS`. -/
abbrev P.TIM_CLKMON_FAULTS : Nat := 0x0228
/-- `CYC.HORIZON`. -/
abbrev P.CYC_HORIZON : Nat := 0x0301
/-- `CYC.NOW`. -/
abbrev P.CYC_NOW : Nat := 0x0302
/-- `CYC.COMMITTED`. -/
abbrev P.CYC_COMMITTED : Nat := 0x0303
/-- `CYC.CFG_DIGEST`. -/
abbrev P.CYC_CFG_DIGEST : Nat := 0x0304
/-- `CYC.ORIGIN`. -/
abbrev P.CYC_ORIGIN : Nat := 0x0305
/-- `CYC.ADMITTED`. -/
abbrev P.CYC_ADMITTED : Nat := 0x0306
/-- `CYC.LATE`. -/
abbrev P.CYC_LATE : Nat := 0x0307
/-- `CYC.EARLY_DROP`. -/
abbrev P.CYC_EARLY_DROP : Nat := 0x0308
/-- `CYC.LATE_SPILL`. -/
abbrev P.CYC_LATE_SPILL : Nat := 0x0309
/-- `CYC.OVERRUN`. -/
abbrev P.CYC_OVERRUN : Nat := 0x030A
/-- `CYC.COMMIT_MAX`. -/
abbrev P.CYC_COMMIT_MAX : Nat := 0x030B
/-- `CYC.JOURNAL`. -/
abbrev P.CYC_JOURNAL : Nat := 0x030C
/-- `CYC.JOURNAL_HOLD`. -/
abbrev P.CYC_JOURNAL_HOLD : Nat := 0x030D
/-- `CYC.JOURNAL_LOST`. -/
abbrev P.CYC_JOURNAL_LOST : Nat := 0x030E
/-- `CYC.REPLAY`. -/
abbrev P.CYC_REPLAY : Nat := 0x030F
/-- `CYC.REPLAY_STATE`. -/
abbrev P.CYC_REPLAY_STATE : Nat := 0x0310
/-- `CYC.MISMATCH`. -/
abbrev P.CYC_MISMATCH : Nat := 0x0311
/-- `CYC.FIRST_MISMATCH`. -/
abbrev P.CYC_FIRST_MISMATCH : Nat := 0x0312
/-- `GNS.RUN`. -/
abbrev P.GNS_RUN : Nat := 0x1001
/-- `GNS.ANT_EN`. -/
abbrev P.GNS_ANT_EN : Nat := 0x1002
/-- `GNS.ANT_BIAS`. -/
abbrev P.GNS_ANT_BIAS : Nat := 0x1003
/-- `GNS.ANT_STATE`. -/
abbrev P.GNS_ANT_STATE : Nat := 0x1004
/-- `GNS.ANT_MA`. -/
abbrev P.GNS_ANT_MA : Nat := 0x1005
/-- `GNS.ANT_SHORTS`. -/
abbrev P.GNS_ANT_SHORTS : Nat := 0x1006
/-- `GNS.CHAIN_STATE`. -/
abbrev P.GNS_CHAIN_STATE : Nat := 0x1007
/-- `GNS.AGC_DB`. -/
abbrev P.GNS_AGC_DB : Nat := 0x1008
/-- `GNS.ADC_CLIP`. -/
abbrev P.GNS_ADC_CLIP : Nat := 0x1009
/-- `GNS.SIG_EN`. -/
abbrev P.GNS_SIG_EN : Nat := 0x100A
/-- `GNS.SIG_RATE`. -/
abbrev P.GNS_SIG_RATE : Nat := 0x100B
/-- `GNS.EPOCH_RATE`. -/
abbrev P.GNS_EPOCH_RATE : Nat := 0x100C
/-- `GNS.ELEV_MASK`. -/
abbrev P.GNS_ELEV_MASK : Nat := 0x100D
/-- `GNS.OSC_PPM`. -/
abbrev P.GNS_OSC_PPM : Nat := 0x100E
/-- `GNS.ACQ_DOPPLER`. -/
abbrev P.GNS_ACQ_DOPPLER : Nat := 0x100F
/-- `GNS.ACQ_COH`. -/
abbrev P.GNS_ACQ_COH : Nat := 0x1010
/-- `GNS.ACQ_NONCOH`. -/
abbrev P.GNS_ACQ_NONCOH : Nat := 0x1011
/-- `GNS.ACQ_THRESH`. -/
abbrev P.GNS_ACQ_THRESH : Nat := 0x1012
/-- `GNS.ACQ_QUEUE`. -/
abbrev P.GNS_ACQ_QUEUE : Nat := 0x1013
/-- `GNS.ACQ_DONE`. -/
abbrev P.GNS_ACQ_DONE : Nat := 0x1014
/-- `GNS.START_KIND`. -/
abbrev P.GNS_START_KIND : Nat := 0x1015
/-- `GNS.FORCE_COLD`. -/
abbrev P.GNS_FORCE_COLD : Nat := 0x1016
/-- `GNS.ALM_AGE`. -/
abbrev P.GNS_ALM_AGE : Nat := 0x1017
/-- `GNS.WARM_AGE_MAX`. -/
abbrev P.GNS_WARM_AGE_MAX : Nat := 0x1018
/-- `GNS.SNAP_CTRL`. -/
abbrev P.GNS_SNAP_CTRL : Nat := 0x1019
/-- `GNS.SNAP_STATE`. -/
abbrev P.GNS_SNAP_STATE : Nat := 0x101A
/-- `GNS.SNAP_CHAINS`. -/
abbrev P.GNS_SNAP_CHAINS : Nat := 0x101B
/-- `GNS.SNAP_LEN`. -/
abbrev P.GNS_SNAP_LEN : Nat := 0x101C
/-- `GNS.SNAP_PRE`. -/
abbrev P.GNS_SNAP_PRE : Nat := 0x101D
/-- `GNS.SNAP_JAM`. -/
abbrev P.GNS_SNAP_JAM : Nat := 0x101E
/-- `GNS.SNAP_IGNORED`. -/
abbrev P.GNS_SNAP_IGNORED : Nat := 0x101F
/-- `TRK.CHAN_STATE`. -/
abbrev P.TRK_CHAN_STATE : Nat := 0x1101
/-- `TRK.CHAN_SIG`. -/
abbrev P.TRK_CHAN_SIG : Nat := 0x1102
/-- `TRK.CHAN_CN0`. -/
abbrev P.TRK_CHAN_CN0 : Nat := 0x1103
/-- `TRK.TILE_LOAD`. -/
abbrev P.TRK_TILE_LOAD : Nat := 0x1104
/-- `TRK.TILE_CHANS`. -/
abbrev P.TRK_TILE_CHANS : Nat := 0x1105
/-- `TRK.LOAD_CAP`. -/
abbrev P.TRK_LOAD_CAP : Nat := 0x1106
/-- `TRK.SPACING`. -/
abbrev P.TRK_SPACING : Nat := 0x1107
/-- `TRK.PLL_BW`. -/
abbrev P.TRK_PLL_BW : Nat := 0x1108
/-- `TRK.DLL_BW`. -/
abbrev P.TRK_DLL_BW : Nat := 0x1109
/-- `TRK.FLL_BW`. -/
abbrev P.TRK_FLL_BW : Nat := 0x110A
/-- `TRK.CN0_MIN`. -/
abbrev P.TRK_CN0_MIN : Nat := 0x110B
/-- `TRK.COAST_MS`. -/
abbrev P.TRK_COAST_MS : Nat := 0x110C
/-- `TRK.ROVE_MODE`. -/
abbrev P.TRK_ROVE_MODE : Nat := 0x110D
/-- `TRK.ROVE_OFFSET`. -/
abbrev P.TRK_ROVE_OFFSET : Nat := 0x110E
/-- `TRK.ROVE_STEP`. -/
abbrev P.TRK_ROVE_STEP : Nat := 0x110F
/-- `TRK.LOSSES`. -/
abbrev P.TRK_LOSSES : Nat := 0x1110
/-- `TRK.BUDGET_REFUSED`. -/
abbrev P.TRK_BUDGET_REFUSED : Nat := 0x1111
/-- `TRK.DUMP_OVF`. -/
abbrev P.TRK_DUMP_OVF : Nat := 0x1112
/-- `TRK.LOOP_LATE`. -/
abbrev P.TRK_LOOP_LATE : Nat := 0x1113
/-- `STA.STATE`. -/
abbrev P.STA_STATE : Nat := 0x1201
/-- `STA.READY`. -/
abbrev P.STA_READY : Nat := 0x1202
/-- `STA.POS_MODE`. -/
abbrev P.STA_POS_MODE : Nat := 0x1203
/-- `STA.POS_ECEF`. -/
abbrev P.STA_POS_ECEF : Nat := 0x1204
/-- `STA.POS_ACC`. -/
abbrev P.STA_POS_ACC : Nat := 0x1205
/-- `STA.SURVEY_MIN`. -/
abbrev P.STA_SURVEY_MIN : Nat := 0x1206
/-- `STA.SURVEY_ACC`. -/
abbrev P.STA_SURVEY_ACC : Nat := 0x1207
/-- `STA.AB_VEC`. -/
abbrev P.STA_AB_VEC : Nat := 0x1208
/-- `STA.ARP_HEIGHT`. -/
abbrev P.STA_ARP_HEIGHT : Nat := 0x1209
/-- `STA.PCO`. -/
abbrev P.STA_PCO : Nat := 0x120A
/-- `STA.PCV`. -/
abbrev P.STA_PCV : Nat := 0x120B
/-- `STA.PCV_APPLY`. -/
abbrev P.STA_PCV_APPLY : Nat := 0x120C
/-- `STA.ANT_DESC`. -/
abbrev P.STA_ANT_DESC : Nat := 0x120D
/-- `STA.ANT_SERIAL`. -/
abbrev P.STA_ANT_SERIAL : Nat := 0x120E
/-- `STA.ANT_SETUP`. -/
abbrev P.STA_ANT_SETUP : Nat := 0x120F
/-- `STA.REF_ANT`. -/
abbrev P.STA_REF_ANT : Nat := 0x1210
/-- `STA.REF_FAILOVER`. -/
abbrev P.STA_REF_FAILOVER : Nat := 0x1211
/-- `STA.CORR_MASK`. -/
abbrev P.STA_CORR_MASK : Nat := 0x1212
/-- `STA.RTCM_ID`. -/
abbrev P.STA_RTCM_ID : Nat := 0x1213
/-- `STA.MSM_TYPE`. -/
abbrev P.STA_MSM_TYPE : Nat := 0x1214
/-- `STA.RTCM_RATE`. -/
abbrev P.STA_RTCM_RATE : Nat := 0x1215
/-- `STA.RTCM_AIR_RATE`. -/
abbrev P.STA_RTCM_AIR_RATE : Nat := 0x1216
/-- `STA.RTCM_ARP_S`. -/
abbrev P.STA_RTCM_ARP_S : Nat := 0x1217
/-- `STA.CLEAR_TIME`. -/
abbrev P.STA_CLEAR_TIME : Nat := 0x1218
/-- `STA.TRIP_EPOCHS`. -/
abbrev P.STA_TRIP_EPOCHS : Nat := 0x1219
/-- `STA.READY_SATS`. -/
abbrev P.STA_READY_SATS : Nat := 0x121A
/-- `STA.CMC_WIN`. -/
abbrev P.STA_CMC_WIN : Nat := 0x121B
/-- `STA.CMC_LIM`. -/
abbrev P.STA_CMC_LIM : Nat := 0x121C
/-- `STA.IFD_LIM`. -/
abbrev P.STA_IFD_LIM : Nat := 0x121D
/-- `STA.CN0_EXP`. -/
abbrev P.STA_CN0_EXP : Nat := 0x121E
/-- `STA.CN0_HI`. -/
abbrev P.STA_CN0_HI : Nat := 0x121F
/-- `STA.CN0_LO`. -/
abbrev P.STA_CN0_LO : Nat := 0x1220
/-- `STA.RES_LIM`. -/
abbrev P.STA_RES_LIM : Nat := 0x1221
/-- `STA.ISB_LIM`. -/
abbrev P.STA_ISB_LIM : Nat := 0x1222
/-- `STA.MOVE_H`. -/
abbrev P.STA_MOVE_H : Nat := 0x1223
/-- `STA.MOVE_V`. -/
abbrev P.STA_MOVE_V : Nat := 0x1224
/-- `STA.VEL_LIM`. -/
abbrev P.STA_VEL_LIM : Nat := 0x1225
/-- `STA.CLK_LIM`. -/
abbrev P.STA_CLK_LIM : Nat := 0x1226
/-- `STA.AB_LIM`. -/
abbrev P.STA_AB_LIM : Nat := 0x1227
/-- `STA.AB_FRAC`. -/
abbrev P.STA_AB_FRAC : Nat := 0x1228
/-- `STA.SUSPECT_FRAC`. -/
abbrev P.STA_SUSPECT_FRAC : Nat := 0x1229
/-- `STA.ROVE_DB`. -/
abbrev P.STA_ROVE_DB : Nat := 0x122A
/-- `STA.NOTCH_DB`. -/
abbrev P.STA_NOTCH_DB : Nat := 0x122B
/-- `STA.NOTCH_BW`. -/
abbrev P.STA_NOTCH_BW : Nat := 0x122C
/-- `STA.JAM_CLEAR`. -/
abbrev P.STA_JAM_CLEAR : Nat := 0x122D
/-- `STA.JAM`. -/
abbrev P.STA_JAM : Nat := 0x122E
/-- `STA.NOTCH_MASK`. -/
abbrev P.STA_NOTCH_MASK : Nat := 0x122F
/-- `STA.AGC_REF`. -/
abbrev P.STA_AGC_REF : Nat := 0x1230
/-- `STA.SELFTEST`. -/
abbrev P.STA_SELFTEST : Nat := 0x1231
/-- `STA.SELFTEST_RESULT`. -/
abbrev P.STA_SELFTEST_RESULT : Nat := 0x1232
/-- `STA.ISTO`. -/
abbrev P.STA_ISTO : Nat := 0x1233
/-- `STA.TRIPS`. -/
abbrev P.STA_TRIPS : Nat := 0x1234
/-- `STA.RECOVERIES`. -/
abbrev P.STA_RECOVERIES : Nat := 0x1235
/-- `STA.LATE_DROP`. -/
abbrev P.STA_LATE_DROP : Nat := 0x1236
/-- `STA.AB_UNPAIRED`. -/
abbrev P.STA_AB_UNPAIRED : Nat := 0x1237
/-- `RTK.MODE`. -/
abbrev P.RTK_MODE : Nat := 0x1801
/-- `RTK.RATE`. -/
abbrev P.RTK_RATE : Nat := 0x1802
/-- `RTK.LOAD`. -/
abbrev P.RTK_LOAD : Nat := 0x1803
/-- `RTK.ACTIVE`. -/
abbrev P.RTK_ACTIVE : Nat := 0x1804
/-- `RTK.FIX`. -/
abbrev P.RTK_FIX : Nat := 0x1805
/-- `RTK.PF`. -/
abbrev P.RTK_PF : Nat := 0x1806
/-- `RTK.PAR_MIN`. -/
abbrev P.RTK_PAR_MIN : Nat := 0x1807
/-- `RTK.MIN_SATS`. -/
abbrev P.RTK_MIN_SATS : Nat := 0x1808
/-- `RTK.ELEV_MASK`. -/
abbrev P.RTK_ELEV_MASK : Nat := 0x1809
/-- `RTK.HOLD_S`. -/
abbrev P.RTK_HOLD_S : Nat := 0x180A
/-- `RTK.HOLD_RES`. -/
abbrev P.RTK_HOLD_RES : Nat := 0x180B
/-- `RTK.BASE_MAX`. -/
abbrev P.RTK_BASE_MAX : Nat := 0x180C
/-- `RTK.CODE_SD`. -/
abbrev P.RTK_CODE_SD : Nat := 0x180D
/-- `RTK.PHASE_SD`. -/
abbrev P.RTK_PHASE_SD : Nat := 0x180E
/-- `RTK.ACC_H`. -/
abbrev P.RTK_ACC_H : Nat := 0x180F
/-- `RTK.ACC_V`. -/
abbrev P.RTK_ACC_V : Nat := 0x1810
/-- `RTK.IONO_RW`. -/
abbrev P.RTK_IONO_RW : Nat := 0x1811
/-- `RTK.COURSE_MIN`. -/
abbrev P.RTK_COURSE_MIN : Nat := 0x1812
/-- `RTK.RATIO`. -/
abbrev P.RTK_RATIO : Nat := 0x1813
/-- `RTK.TTF`. -/
abbrev P.RTK_TTF : Nat := 0x1814
/-- `RTK.LAST_EPOCH`. -/
abbrev P.RTK_LAST_EPOCH : Nat := 0x1815
/-- `RTK.BASELINE`. -/
abbrev P.RTK_BASELINE : Nat := 0x1816
/-- `RTK.REPORTS`. -/
abbrev P.RTK_REPORTS : Nat := 0x1817
/-- `RTK.LATE_USED`. -/
abbrev P.RTK_LATE_USED : Nat := 0x1818
/-- `RTK.LATE_DROP`. -/
abbrev P.RTK_LATE_DROP : Nat := 0x1819
/-- `RTK.STALE`. -/
abbrev P.RTK_STALE : Nat := 0x181A
/-- `RTK.BAD`. -/
abbrev P.RTK_BAD : Nat := 0x181B
/-- `RTK.NO_REF`. -/
abbrev P.RTK_NO_REF : Nat := 0x181C
/-- `RTK.RESETS`. -/
abbrev P.RTK_RESETS : Nat := 0x181D
/-- `RTK.SEARCHES`. -/
abbrev P.RTK_SEARCHES : Nat := 0x181E
/-- `RTK.SEARCH_ABORT`. -/
abbrev P.RTK_SEARCH_ABORT : Nat := 0x181F
/-- `RTK.REJECTED`. -/
abbrev P.RTK_REJECTED : Nat := 0x1820
/-- `JOB.STATE`. -/
abbrev P.JOB_STATE : Nat := 0x2001
/-- `JOB.CTRL`. -/
abbrev P.JOB_CTRL : Nat := 0x2002
/-- `JOB.ID`. -/
abbrev P.JOB_ID : Nat := 0x2003
/-- `JOB.IMAGE_DIGEST`. -/
abbrev P.JOB_IMAGE_DIGEST : Nat := 0x2004
/-- `JOB.TRACK_DIGEST`. -/
abbrev P.JOB_TRACK_DIGEST : Nat := 0x2005
/-- `JOB.ORIGIN`. -/
abbrev P.JOB_ORIGIN : Nat := 0x2006
/-- `JOB.ROT`. -/
abbrev P.JOB_ROT : Nat := 0x2007
/-- `JOB.TRACKS`. -/
abbrev P.JOB_TRACKS : Nat := 0x2008
/-- `JOB.DONE_COUNT`. -/
abbrev P.JOB_DONE_COUNT : Nat := 0x2009
/-- `JOB.DONE_MAP`. -/
abbrev P.JOB_DONE_MAP : Nat := 0x200A
/-- `JOB.TASK`. -/
abbrev P.JOB_TASK : Nat := 0x200B
/-- `JOB.ENROLLED`. -/
abbrev P.JOB_ENROLLED : Nat := 0x200C
/-- `JOB.MIN_TRACK`. -/
abbrev P.JOB_MIN_TRACK : Nat := 0x200D
/-- `JOB.REFILL_AT`. -/
abbrev P.JOB_REFILL_AT : Nat := 0x200E
/-- `JOB.CHARGE_AT`. -/
abbrev P.JOB_CHARGE_AT : Nat := 0x200F
/-- `JOB.CHARGE_CRIT`. -/
abbrev P.JOB_CHARGE_CRIT : Nat := 0x2010
/-- `JOB.LOAD_ERR`. -/
abbrev P.JOB_LOAD_ERR : Nat := 0x2011
/-- `SLT.AGE_STEP`. -/
abbrev P.SLT_AGE_STEP : Nat := 0x2101
/-- `SLT.AGE_CEIL`. -/
abbrev P.SLT_AGE_CEIL : Nat := 0x2102
/-- `SLT.FREEZE_MAX`. -/
abbrev P.SLT_FREEZE_MAX : Nat := 0x2103
/-- `SLT.MARGIN`. -/
abbrev P.SLT_MARGIN : Nat := 0x2104
/-- `SLT.SEP`. -/
abbrev P.SLT_SEP : Nat := 0x2105
/-- `SLT.SLACK`. -/
abbrev P.SLT_SLACK : Nat := 0x2106
/-- `SLT.LEAD`. -/
abbrev P.SLT_LEAD : Nat := 0x2107
/-- `SLT.RENEW`. -/
abbrev P.SLT_RENEW : Nat := 0x2108
/-- `SLT.SEG_LEN`. -/
abbrev P.SLT_SEG_LEN : Nat := 0x2109
/-- `SLT.LOCK`. -/
abbrev P.SLT_LOCK : Nat := 0x210A
/-- `SLT.TRY_N`. -/
abbrev P.SLT_TRY_N : Nat := 0x210B
/-- `SLT.SIG_MAX`. -/
abbrev P.SLT_SIG_MAX : Nat := 0x210C
/-- `SLT.THAW_N`. -/
abbrev P.SLT_THAW_N : Nat := 0x210D
/-- `SLT.END_TOL`. -/
abbrev P.SLT_END_TOL : Nat := 0x210E
/-- `SLT.FENCE_PAD`. -/
abbrev P.SLT_FENCE_PAD : Nat := 0x210F
/-- `SLT.USED`. -/
abbrev P.SLT_USED : Nat := 0x2110
/-- `SLT.RES`. -/
abbrev P.SLT_RES : Nat := 0x2111
/-- `SLT.MSTATE`. -/
abbrev P.SLT_MSTATE : Nat := 0x2112
/-- `SLT.RESEAT`. -/
abbrev P.SLT_RESEAT : Nat := 0x2113
/-- `SLT.HOST_RES`. -/
abbrev P.SLT_HOST_RES : Nat := 0x2114
/-- `SLT.CHECK_MAX`. -/
abbrev P.SLT_CHECK_MAX : Nat := 0x2115
/-- `SLT.FENCE_CRC`. -/
abbrev P.SLT_FENCE_CRC : Nat := 0x2116
/-- `SLT.GRANTS`. -/
abbrev P.SLT_GRANTS : Nat := 0x2117
/-- `SLT.CONFLICTS`. -/
abbrev P.SLT_CONFLICTS : Nat := 0x2118
/-- `SLT.PREEMPTS`. -/
abbrev P.SLT_PREEMPTS : Nat := 0x2119
/-- `SLT.FULL`. -/
abbrev P.SLT_FULL : Nat := 0x211A
/-- `SLT.NONCONF`. -/
abbrev P.SLT_NONCONF : Nat := 0x211B
/-- `SLT.LOSTS`. -/
abbrev P.SLT_LOSTS : Nat := 0x211C
/-- `COV.CELL`. -/
abbrev P.COV_CELL : Nat := 0x2201
/-- `COV.LAYERS`. -/
abbrev P.COV_LAYERS : Nat := 0x2202
/-- `COV.BLOCKS`. -/
abbrev P.COV_BLOCKS : Nat := 0x2203
/-- `COV.ORIGIN`. -/
abbrev P.COV_ORIGIN : Nat := 0x2204
/-- `COV.DIR_SIZE`. -/
abbrev P.COV_DIR_SIZE : Nat := 0x2205
/-- `COV.STEP`. -/
abbrev P.COV_STEP : Nat := 0x2206
/-- `COV.LEAD`. -/
abbrev P.COV_LEAD : Nat := 0x2207
/-- `COV.REFRESH`. -/
abbrev P.COV_REFRESH : Nat := 0x2208
/-- `COV.OVERLAP_PCT`. -/
abbrev P.COV_OVERLAP_PCT : Nat := 0x2209
/-- `COV.BOUND_PCT`. -/
abbrev P.COV_BOUND_PCT : Nat := 0x220A
/-- `COV.V_MIN`. -/
abbrev P.COV_V_MIN : Nat := 0x220B
/-- `COV.SIG_MAX`. -/
abbrev P.COV_SIG_MAX : Nat := 0x220C
/-- `COV.STALE_MS`. -/
abbrev P.COV_STALE_MS : Nat := 0x220D
/-- `COV.GAP_MS`. -/
abbrev P.COV_GAP_MS : Nat := 0x220E
/-- `COV.WB_WAIT`. -/
abbrev P.COV_WB_WAIT : Nat := 0x220F
/-- `COV.MAP_BASE`. -/
abbrev P.COV_MAP_BASE : Nat := 0x2210
/-- `COV.MAP`. -/
abbrev P.COV_MAP : Nat := 0x2211
/-- `COV.CHANGED`. -/
abbrev P.COV_CHANGED : Nat := 0x2212
/-- `COV.CHANGED_HEAD`. -/
abbrev P.COV_CHANGED_HEAD : Nat := 0x2213
/-- `COV.ONCE`. -/
abbrev P.COV_ONCE : Nat := 0x2214
/-- `COV.OVERLAP`. -/
abbrev P.COV_OVERLAP : Nat := 0x2215
/-- `COV.SCHED`. -/
abbrev P.COV_SCHED : Nat := 0x2216
/-- `COV.ISSUED`. -/
abbrev P.COV_ISSUED : Nat := 0x2217
/-- `COV.TRUNCATED`. -/
abbrev P.COV_TRUNCATED : Nat := 0x2218
/-- `COV.HOLDS`. -/
abbrev P.COV_HOLDS : Nat := 0x2219
/-- `COV.AA_REPORTS`. -/
abbrev P.COV_AA_REPORTS : Nat := 0x221A
/-- `COV.AA_BAD`. -/
abbrev P.COV_AA_BAD : Nat := 0x221B
/-- `COV.AA_GAP`. -/
abbrev P.COV_AA_GAP : Nat := 0x221C
/-- `COV.UNPLACED`. -/
abbrev P.COV_UNPLACED : Nat := 0x221D
/-- `COV.OFFTARGET`. -/
abbrev P.COV_OFFTARGET : Nat := 0x221E
/-- `STP.STATE`. -/
abbrev P.STP_STATE : Nat := 0x2801
/-- `STP.LATCH_GROUPS`. -/
abbrev P.STP_LATCH_GROUPS : Nat := 0x2802
/-- `STP.LATCH_MASK`. -/
abbrev P.STP_LATCH_MASK : Nat := 0x2803
/-- `STP.MODE`. -/
abbrev P.STP_MODE : Nat := 0x2804
/-- `STP.LANE_STATE`. -/
abbrev P.STP_LANE_STATE : Nat := 0x2805
/-- `STP.HUB_ID`. -/
abbrev P.STP_HUB_ID : Nat := 0x2806
/-- `STP.GROUP`. -/
abbrev P.STP_GROUP : Nat := 0x2807
/-- `STP.ESTOP_EN`. -/
abbrev P.STP_ESTOP_EN : Nat := 0x2808
/-- `STP.ESTOP_FILT`. -/
abbrev P.STP_ESTOP_FILT : Nat := 0x2809
/-- `STP.DISC_MS`. -/
abbrev P.STP_DISC_MS : Nat := 0x280A
/-- `STP.ESTOP_LEVEL`. -/
abbrev P.STP_ESTOP_LEVEL : Nat := 0x280B
/-- `STP.CAN_STOP`. -/
abbrev P.STP_CAN_STOP : Nat := 0x280C
/-- `STP.CAN_HB_MS`. -/
abbrev P.STP_CAN_HB_MS : Nat := 0x280D
/-- `STP.REMOTE_MODE`. -/
abbrev P.STP_REMOTE_MODE : Nat := 0x280E
/-- `STP.REMOTE_SCOPE`. -/
abbrev P.STP_REMOTE_SCOPE : Nat := 0x280F
/-- `STP.REMOTE_TMO`. -/
abbrev P.STP_REMOTE_TMO : Nat := 0x2810
/-- `STP.NONCONF_SCOPE`. -/
abbrev P.STP_NONCONF_SCOPE : Nat := 0x2811
/-- `STP.BCN_OFS`. -/
abbrev P.STP_BCN_OFS : Nat := 0x2812
/-- `STP.MIN_SLICES`. -/
abbrev P.STP_MIN_SLICES : Nat := 0x2813
/-- `STP.SLICE_STATE`. -/
abbrev P.STP_SLICE_STATE : Nat := 0x2814
/-- `STP.BCN_SENT`. -/
abbrev P.STP_BCN_SENT : Nat := 0x2815
/-- `STP.BCN_SILENCED`. -/
abbrev P.STP_BCN_SILENCED : Nat := 0x2816
/-- `STP.BCN_UNHEARD`. -/
abbrev P.STP_BCN_UNHEARD : Nat := 0x2817
/-- `STP.WITHHELD`. -/
abbrev P.STP_WITHHELD : Nat := 0x2818
/-- `STP.STOP_SEQ`. -/
abbrev P.STP_STOP_SEQ : Nat := 0x2819
/-- `STP.ISOLATIONS`. -/
abbrev P.STP_ISOLATIONS : Nat := 0x281A
/-- `STP.TP_FAULTS`. -/
abbrev P.STP_TP_FAULTS : Nat := 0x281B
/-- `STP.OUT_STATE`. -/
abbrev P.STP_OUT_STATE : Nat := 0x281C
/-- `STP.OUT_FAULTS`. -/
abbrev P.STP_OUT_FAULTS : Nat := 0x281D
/-- `STP.REL_REFUSED`. -/
abbrev P.STP_REL_REFUSED : Nat := 0x281E
/-- `STP.FENCE_LATE`. -/
abbrev P.STP_FENCE_LATE : Nat := 0x281F
/-- `STP.FENCE_BAD`. -/
abbrev P.STP_FENCE_BAD : Nat := 0x2820
/-- `STP.RECORD`. -/
abbrev P.STP_RECORD : Nat := 0x2821
/-- `AIR.SLICE_EN`. -/
abbrev P.AIR_SLICE_EN : Nat := 0x3001
/-- `AIR.BAND`. -/
abbrev P.AIR_BAND : Nat := 0x3002
/-- `AIR.PROFILE`. -/
abbrev P.AIR_PROFILE : Nat := 0x3003
/-- `AIR.RATE`. -/
abbrev P.AIR_RATE : Nat := 0x3004
/-- `AIR.TX_DBM`. -/
abbrev P.AIR_TX_DBM : Nat := 0x3005
/-- `AIR.PA_LEAD`. -/
abbrev P.AIR_PA_LEAD : Nat := 0x3006
/-- `AIR.CCA_DBM`. -/
abbrev P.AIR_CCA_DBM : Nat := 0x3007
/-- `AIR.RETRIES`. -/
abbrev P.AIR_RETRIES : Nat := 0x3008
/-- `AIR.BE_MAX`. -/
abbrev P.AIR_BE_MAX : Nat := 0x3009
/-- `AIR.CCA_MAX`. -/
abbrev P.AIR_CCA_MAX : Nat := 0x300A
/-- `AIR.SAFE_RESERVE`. -/
abbrev P.AIR_SAFE_RESERVE : Nat := 0x300B
/-- `AIR.DUP_MS`. -/
abbrev P.AIR_DUP_MS : Nat := 0x300C
/-- `AIR.REASM_MS`. -/
abbrev P.AIR_REASM_MS : Nat := 0x300D
/-- `AIR.HOME`. -/
abbrev P.AIR_HOME : Nat := 0x300E
/-- `AIR.SRC_EXTRA`. -/
abbrev P.AIR_SRC_EXTRA : Nat := 0x300F
/-- `AIR.CHANNEL`. -/
abbrev P.AIR_CHANNEL : Nat := 0x3010
/-- `AIR.DWELL_USED`. -/
abbrev P.AIR_DWELL_USED : Nat := 0x3011
/-- `AIR.KEY`. -/
abbrev P.AIR_KEY : Nat := 0x3012
/-- `AIR.ROLL`. -/
abbrev P.AIR_ROLL : Nat := 0x3013
/-- `AIR.EPOCH`. -/
abbrev P.AIR_EPOCH : Nat := 0x3014
/-- `AIR.FCNT`. -/
abbrev P.AIR_FCNT : Nat := 0x3015
/-- `AIR.EPOCH_GRACE`. -/
abbrev P.AIR_EPOCH_GRACE : Nat := 0x3016
/-- `AIR.KEY_MISSING`. -/
abbrev P.AIR_KEY_MISSING : Nat := 0x3017
/-- `AIR.TX_FRAMES`. -/
abbrev P.AIR_TX_FRAMES : Nat := 0x3018
/-- `AIR.RX_FRAMES`. -/
abbrev P.AIR_RX_FRAMES : Nat := 0x3019
/-- `AIR.FCS_ERR`. -/
abbrev P.AIR_FCS_ERR : Nat := 0x301A
/-- `AIR.FILTERED`. -/
abbrev P.AIR_FILTERED : Nat := 0x301B
/-- `AIR.ACKS`. -/
abbrev P.AIR_ACKS : Nat := 0x301C
/-- `AIR.RETRY`. -/
abbrev P.AIR_RETRY : Nat := 0x301D
/-- `AIR.TX_FAIL`. -/
abbrev P.AIR_TX_FAIL : Nat := 0x301E
/-- `AIR.TX_DROP`. -/
abbrev P.AIR_TX_DROP : Nat := 0x301F
/-- `AIR.SILENCED`. -/
abbrev P.AIR_SILENCED : Nat := 0x3020
/-- `AIR.DUP`. -/
abbrev P.AIR_DUP : Nat := 0x3021
/-- `AIR.BAD_TYPE`. -/
abbrev P.AIR_BAD_TYPE : Nat := 0x3022
/-- `AIR.REASM_DROP`. -/
abbrev P.AIR_REASM_DROP : Nat := 0x3023
/-- `AIR.FRAG_ORPHAN`. -/
abbrev P.AIR_FRAG_ORPHAN : Nat := 0x3024
/-- `AIR.SEC_FAIL`. -/
abbrev P.AIR_SEC_FAIL : Nat := 0x3025
/-- `AIR.REPLAY`. -/
abbrev P.AIR_REPLAY : Nat := 0x3026
/-- `AIR.FCNT_REFUSED`. -/
abbrev P.AIR_FCNT_REFUSED : Nat := 0x3027
/-- `MSH.TTL`. -/
abbrev P.MSH_TTL : Nat := 0x3101
/-- `MSH.M_TTL`. -/
abbrev P.MSH_M_TTL : Nat := 0x3102
/-- `MSH.RELAY`. -/
abbrev P.MSH_RELAY : Nat := 0x3103
/-- `MSH.DELAY_MIN`. -/
abbrev P.MSH_DELAY_MIN : Nat := 0x3104
/-- `MSH.DELAY_MAX`. -/
abbrev P.MSH_DELAY_MAX : Nat := 0x3105
/-- `MSH.ROUTE`. -/
abbrev P.MSH_ROUTE : Nat := 0x3106
/-- `MSH.HOPS`. -/
abbrev P.MSH_HOPS : Nat := 0x3107
/-- `MSH.SEEN_USED`. -/
abbrev P.MSH_SEEN_USED : Nat := 0x3108
/-- `MSH.SEEN_EVICT`. -/
abbrev P.MSH_SEEN_EVICT : Nat := 0x3109
/-- `MSH.FLOOD_DUP`. -/
abbrev P.MSH_FLOOD_DUP : Nat := 0x310A
/-- `MSH.RELAYED_RX`. -/
abbrev P.MSH_RELAYED_RX : Nat := 0x310B
/-- `DPX.MODE`. -/
abbrev P.DPX_MODE : Nat := 0x3801
/-- `DPX.SIDE`. -/
abbrev P.DPX_SIDE : Nat := 0x3802
/-- `DPX.STATE`. -/
abbrev P.DPX_STATE : Nat := 0x3803
/-- `DPX.PEER_STATE`. -/
abbrev P.DPX_PEER_STATE : Nat := 0x3804
/-- `DPX.TENURE`. -/
abbrev P.DPX_TENURE : Nat := 0x3805
/-- `DPX.LINK`. -/
abbrev P.DPX_LINK : Nat := 0x3806
/-- `DPX.REVERT`. -/
abbrev P.DPX_REVERT : Nat := 0x3807
/-- `DPX.RETURN_HOLD`. -/
abbrev P.DPX_RETURN_HOLD : Nat := 0x3808
/-- `DPX.MATCH_N`. -/
abbrev P.DPX_MATCH_N : Nat := 0x3809
/-- `DPX.MISMATCH_N`. -/
abbrev P.DPX_MISMATCH_N : Nat := 0x380A
/-- `DPX.CTRL`. -/
abbrev P.DPX_CTRL : Nat := 0x380B
/-- `DPX.RESTART_S`. -/
abbrev P.DPX_RESTART_S : Nat := 0x380C
/-- `DPX.RESTART_MAX`. -/
abbrev P.DPX_RESTART_MAX : Nat := 0x380D
/-- `DPX.RESTARTS`. -/
abbrev P.DPX_RESTARTS : Nat := 0x380E
/-- `DPX.GIVEUP_CAUSE`. -/
abbrev P.DPX_GIVEUP_CAUSE : Nat := 0x380F
/-- `DPX.PAIR_KEY`. -/
abbrev P.DPX_PAIR_KEY : Nat := 0x3810
/-- `DPX.PEER_BUILD`. -/
abbrev P.DPX_PEER_BUILD : Nat := 0x3811
/-- `DPX.COPY_MAX`. -/
abbrev P.DPX_COPY_MAX : Nat := 0x3812
/-- `DPX.COPY_BYTES_MAX`. -/
abbrev P.DPX_COPY_BYTES_MAX : Nat := 0x3813
/-- `DPX.HB_MISSED`. -/
abbrev P.DPX_HB_MISSED : Nat := 0x3814
/-- `DPX.LINK_LOSSES`. -/
abbrev P.DPX_LINK_LOSSES : Nat := 0x3815
/-- `DPX.TAKEOVERS`. -/
abbrev P.DPX_TAKEOVERS : Nat := 0x3816
/-- `DPX.MISMATCHES`. -/
abbrev P.DPX_MISMATCHES : Nat := 0x3817
/-- `DPX.RESYNCS`. -/
abbrev P.DPX_RESYNCS : Nat := 0x3818
/-- `DPX.SPLIT`. -/
abbrev P.DPX_SPLIT : Nat := 0x3819
/-- `RNG.PORT_EN`. -/
abbrev P.RNG_PORT_EN : Nat := 0x4001
/-- `RNG.PORT_STATE`. -/
abbrev P.RNG_PORT_STATE : Nat := 0x4002
/-- `RNG.SPEED`. -/
abbrev P.RNG_SPEED : Nat := 0x4003
/-- `RNG.PHY_ADDR`. -/
abbrev P.RNG_PHY_ADDR : Nat := 0x4004
/-- `RNG.PHY_RX_NS`. -/
abbrev P.RNG_PHY_RX_NS : Nat := 0x4005
/-- `RNG.PHY_TX_NS`. -/
abbrev P.RNG_PHY_TX_NS : Nat := 0x4006
/-- `RNG.IP`. -/
abbrev P.RNG_IP : Nat := 0x4007
/-- `RNG.NETMASK`. -/
abbrev P.RNG_NETMASK : Nat := 0x4008
/-- `RNG.GATEWAY`. -/
abbrev P.RNG_GATEWAY : Nat := 0x4009
/-- `RNG.MAC`. -/
abbrev P.RNG_MAC : Nat := 0x400A
/-- `RNG.HOST_VID`. -/
abbrev P.RNG_HOST_VID : Nat := 0x400B
/-- `RNG.VLAN`. -/
abbrev P.RNG_VLAN : Nat := 0x400C
/-- `RNG.PVID`. -/
abbrev P.RNG_PVID : Nat := 0x400D
/-- `RNG.MRP_EN`. -/
abbrev P.RNG_MRP_EN : Nat := 0x400E
/-- `RNG.MRP_DOMAIN`. -/
abbrev P.RNG_MRP_DOMAIN : Nat := 0x400F
/-- `RNG.MRP_CLASS`. -/
abbrev P.RNG_MRP_CLASS : Nat := 0x4010
/-- `RNG.MRP_VID`. -/
abbrev P.RNG_MRP_VID : Nat := 0x4011
/-- `RNG.BYPASS_EN`. -/
abbrev P.RNG_BYPASS_EN : Nat := 0x4012
/-- `RNG.BYPASS_STATE`. -/
abbrev P.RNG_BYPASS_STATE : Nat := 0x4013
/-- `RNG.JOIN_MS`. -/
abbrev P.RNG_JOIN_MS : Nat := 0x4014
/-- `RNG.RETRY_S`. -/
abbrev P.RNG_RETRY_S : Nat := 0x4015
/-- `RNG.JOIN_FAILS`. -/
abbrev P.RNG_JOIN_FAILS : Nat := 0x4016
/-- `RNG.PTP_ROLE`. -/
abbrev P.RNG_PTP_ROLE : Nat := 0x4017
/-- `RNG.PTP_DOMAIN`. -/
abbrev P.RNG_PTP_DOMAIN : Nat := 0x4018
/-- `RNG.PTP_TRANSPORT`. -/
abbrev P.RNG_PTP_TRANSPORT : Nat := 0x4019
/-- `RNG.PTP_DELAY`. -/
abbrev P.RNG_PTP_DELAY : Nat := 0x401A
/-- `RNG.PTP_PRIO1`. -/
abbrev P.RNG_PTP_PRIO1 : Nat := 0x401B
/-- `RNG.PTP_PRIO2`. -/
abbrev P.RNG_PTP_PRIO2 : Nat := 0x401C
/-- `RNG.PTP_SYNC_LOG`. -/
abbrev P.RNG_PTP_SYNC_LOG : Nat := 0x401D
/-- `RNG.PTP_ANN_LOG`. -/
abbrev P.RNG_PTP_ANN_LOG : Nat := 0x401E
/-- `RNG.PTP_PDELAY_LOG`. -/
abbrev P.RNG_PTP_PDELAY_LOG : Nat := 0x401F
/-- `RNG.TC_EN`. -/
abbrev P.RNG_TC_EN : Nat := 0x4020
/-- `RNG.PTP_STATE`. -/
abbrev P.RNG_PTP_STATE : Nat := 0x4021
/-- `RNG.PTP_GM_ID`. -/
abbrev P.RNG_PTP_GM_ID : Nat := 0x4022
/-- `RNG.PEER_DELAY`. -/
abbrev P.RNG_PEER_DELAY : Nat := 0x4023
/-- `RNG.RES_MAX`. -/
abbrev P.RNG_RES_MAX : Nat := 0x4024
/-- `RNG.INT_RATE`. -/
abbrev P.RNG_INT_RATE : Nat := 0x4025
/-- `RNG.RX_FRAMES`. -/
abbrev P.RNG_RX_FRAMES : Nat := 0x4026
/-- `RNG.TX_FRAMES`. -/
abbrev P.RNG_TX_FRAMES : Nat := 0x4027
/-- `RNG.RX_ERR`. -/
abbrev P.RNG_RX_ERR : Nat := 0x4028
/-- `RNG.DROPS`. -/
abbrev P.RNG_DROPS : Nat := 0x4029
/-- `RNG.LINK_CHANGES`. -/
abbrev P.RNG_LINK_CHANGES : Nat := 0x402A
/-- `RNG.TOPO_CHANGES`. -/
abbrev P.RNG_TOPO_CHANGES : Nat := 0x402B
/-- `CAN.MODE`. -/
abbrev P.CAN_MODE : Nat := 0x4801
/-- `CAN.STATE`. -/
abbrev P.CAN_STATE : Nat := 0x4802
/-- `CAN.NBT`. -/
abbrev P.CAN_NBT : Nat := 0x4803
/-- `CAN.DBT`. -/
abbrev P.CAN_DBT : Nat := 0x4804
/-- `CAN.TDC_MEAS`. -/
abbrev P.CAN_TDC_MEAS : Nat := 0x4805
/-- `CAN.TEC`. -/
abbrev P.CAN_TEC : Nat := 0x4806
/-- `CAN.REC`. -/
abbrev P.CAN_REC : Nat := 0x4807
/-- `CAN.RECOVER`. -/
abbrev P.CAN_RECOVER : Nat := 0x4808
/-- `CAN.RECOVER_MS`. -/
abbrev P.CAN_RECOVER_MS : Nat := 0x4809
/-- `CAN.RECOVER_MAX`. -/
abbrev P.CAN_RECOVER_MAX : Nat := 0x480A
/-- `CAN.CTRL`. -/
abbrev P.CAN_CTRL : Nat := 0x480B
/-- `CAN.BUF_CFG`. -/
abbrev P.CAN_BUF_CFG : Nat := 0x480C
/-- `CAN.BUF`. -/
abbrev P.CAN_BUF : Nat := 0x480D
/-- `CAN.TX_ABORT`. -/
abbrev P.CAN_TX_ABORT : Nat := 0x480E
/-- `CAN.CLASH_ACT`. -/
abbrev P.CAN_CLASH_ACT : Nat := 0x480F
/-- `CAN.CLASH_LAST`. -/
abbrev P.CAN_CLASH_LAST : Nat := 0x4810
/-- `CAN.REF_ROLE`. -/
abbrev P.CAN_REF_ROLE : Nat := 0x4811
/-- `CAN.REF_ID`. -/
abbrev P.CAN_REF_ID : Nat := 0x4812
/-- `CAN.REF_PERIOD`. -/
abbrev P.CAN_REF_PERIOD : Nat := 0x4813
/-- `CAN.REF_SEQ`. -/
abbrev P.CAN_REF_SEQ : Nat := 0x4814
/-- `CAN.REF_OFFSET`. -/
abbrev P.CAN_REF_OFFSET : Nat := 0x4815
/-- `CAN.REF_MISSED`. -/
abbrev P.CAN_REF_MISSED : Nat := 0x4816
/-- `CAN.ISO_EN`. -/
abbrev P.CAN_ISO_EN : Nat := 0x4817
/-- `CAN.ISO_NAME`. -/
abbrev P.CAN_ISO_NAME : Nat := 0x4818
/-- `CAN.ISO_ADDR`. -/
abbrev P.CAN_ISO_ADDR : Nat := 0x4819
/-- `CAN.ISO_STATE`. -/
abbrev P.CAN_ISO_STATE : Nat := 0x481A
/-- `CAN.ISO_ADDR_NOW`. -/
abbrev P.CAN_ISO_ADDR_NOW : Nat := 0x481B
/-- `CAN.RX_FRAMES`. -/
abbrev P.CAN_RX_FRAMES : Nat := 0x481C
/-- `CAN.TX_FRAMES`. -/
abbrev P.CAN_TX_FRAMES : Nat := 0x481D
/-- `CAN.ERR_FRAMES`. -/
abbrev P.CAN_ERR_FRAMES : Nat := 0x481E
/-- `CAN.RTR_IGN`. -/
abbrev P.CAN_RTR_IGN : Nat := 0x481F
/-- `CAN.BUSOFF`. -/
abbrev P.CAN_BUSOFF : Nat := 0x4820
/-- `CAN.CLASH`. -/
abbrev P.CAN_CLASH : Nat := 0x4821
/-- `CAN.RX_OVF`. -/
abbrev P.CAN_RX_OVF : Nat := 0x4822
/-- `MTR.BAY_CFG`. -/
abbrev P.MTR_BAY_CFG : Nat := 0x5001
/-- `MTR.SENSOR`. -/
abbrev P.MTR_SENSOR : Nat := 0x5002
/-- `MTR.GAIN`. -/
abbrev P.MTR_GAIN : Nat := 0x5003
/-- `MTR.OFFSET`. -/
abbrev P.MTR_OFFSET : Nat := 0x5004
/-- `MTR.PHASE`. -/
abbrev P.MTR_PHASE : Nat := 0x5005
/-- `MTR.INT_LEAK`. -/
abbrev P.MTR_INT_LEAK : Nat := 0x5006
/-- `MTR.NOLOAD_ON`. -/
abbrev P.MTR_NOLOAD_ON : Nat := 0x5007
/-- `MTR.NOLOAD_OFF`. -/
abbrev P.MTR_NOLOAD_OFF : Nat := 0x5008
/-- `MTR.ELSB`. -/
abbrev P.MTR_ELSB : Nat := 0x5009
/-- `MTR.SAVE`. -/
abbrev P.MTR_SAVE : Nat := 0x500A
/-- `MTR.TAIL_MS`. -/
abbrev P.MTR_TAIL_MS : Nat := 0x500B
/-- `MTR.REG`. -/
abbrev P.MTR_REG : Nat := 0x500C
/-- `MTR.EXPORT`. -/
abbrev P.MTR_EXPORT : Nat := 0x500D
/-- `MTR.SNAP`. -/
abbrev P.MTR_SNAP : Nat := 0x500E
/-- `MTR.SNAP_REG`. -/
abbrev P.MTR_SNAP_REG : Nat := 0x500F
/-- `MTR.SNAP_SEQ`. -/
abbrev P.MTR_SNAP_SEQ : Nat := 0x5010
/-- `MTR.RESULT`. -/
abbrev P.MTR_RESULT : Nat := 0x5011
/-- `MTR.GATE`. -/
abbrev P.MTR_GATE : Nat := 0x5012
/-- `MTR.PRE_ORIGIN`. -/
abbrev P.MTR_PRE_ORIGIN : Nat := 0x5013
/-- `MTR.LAST_TAIL`. -/
abbrev P.MTR_LAST_TAIL : Nat := 0x5014
/-- `MTR.BLOCK_LOST`. -/
abbrev P.MTR_BLOCK_LOST : Nat := 0x5015
/-- `MTR.WAVE_MASK`. -/
abbrev P.MTR_WAVE_MASK : Nat := 0x5016
/-- `MTR.CHARGE_FULL`. -/
abbrev P.MTR_CHARGE_FULL : Nat := 0x5017
/-- `MTR.CHARGE_END_S`. -/
abbrev P.MTR_CHARGE_END_S : Nat := 0x5018
/-- `MTR.SAVES`. -/
abbrev P.MTR_SAVES : Nat := 0x5019
/-- `DRK.STATE`. -/
abbrev P.DRK_STATE : Nat := 0x5801
/-- `DRK.EN`. -/
abbrev P.DRK_EN : Nat := 0x5802
/-- `DRK.POS`. -/
abbrev P.DRK_POS : Nat := 0x5803
/-- `DRK.ENC_POS`. -/
abbrev P.DRK_ENC_POS : Nat := 0x5804
/-- `DRK.REMAIN`. -/
abbrev P.DRK_REMAIN : Nat := 0x5805
/-- `DRK.TARGET`. -/
abbrev P.DRK_TARGET : Nat := 0x5806
/-- `DRK.CTRL`. -/
abbrev P.DRK_CTRL : Nat := 0x5807
/-- `DRK.VMAX`. -/
abbrev P.DRK_VMAX : Nat := 0x5808
/-- `DRK.ACC`. -/
abbrev P.DRK_ACC : Nat := 0x5809
/-- `DRK.DEC`. -/
abbrev P.DRK_DEC : Nat := 0x580A
/-- `DRK.EDEC`. -/
abbrev P.DRK_EDEC : Nat := 0x580B
/-- `DRK.PULSE_NS`. -/
abbrev P.DRK_PULSE_NS : Nat := 0x580C
/-- `DRK.DIR_SETUP_NS`. -/
abbrev P.DRK_DIR_SETUP_NS : Nat := 0x580D
/-- `DRK.HOME_DIR`. -/
abbrev P.DRK_HOME_DIR : Nat := 0x580E
/-- `DRK.HOME_V`. -/
abbrev P.DRK_HOME_V : Nat := 0x580F
/-- `DRK.HOME_V2`. -/
abbrev P.DRK_HOME_V2 : Nat := 0x5810
/-- `DRK.HOME_OFS`. -/
abbrev P.DRK_HOME_OFS : Nat := 0x5811
/-- `DRK.DEBOUNCE`. -/
abbrev P.DRK_DEBOUNCE : Nat := 0x5812
/-- `DRK.INPUT_POL`. -/
abbrev P.DRK_INPUT_POL : Nat := 0x5813
/-- `DRK.CHATTER_N`. -/
abbrev P.DRK_CHATTER_N : Nat := 0x5814
/-- `DRK.CHATTER_MS`. -/
abbrev P.DRK_CHATTER_MS : Nat := 0x5815
/-- `DRK.ENC_RATIO`. -/
abbrev P.DRK_ENC_RATIO : Nat := 0x5816
/-- `DRK.FERR_MAX`. -/
abbrev P.DRK_FERR_MAX : Nat := 0x5817
/-- `DRK.FERR_PEAK`. -/
abbrev P.DRK_FERR_PEAK : Nat := 0x5818
/-- `DRK.BAY_POS`. -/
abbrev P.DRK_BAY_POS : Nat := 0x5819
/-- `DRK.PARK_POS`. -/
abbrev P.DRK_PARK_POS : Nat := 0x581A
/-- `DRK.REFILL_FULL`. -/
abbrev P.DRK_REFILL_FULL : Nat := 0x581B
/-- `DRK.OWNER`. -/
abbrev P.DRK_OWNER : Nat := 0x581C
/-- `DRK.FAULT`. -/
abbrev P.DRK_FAULT : Nat := 0x581D
/-- `DRK.FAULTS`. -/
abbrev P.DRK_FAULTS : Nat := 0x581E
/-- `DRK.MOVES`. -/
abbrev P.DRK_MOVES : Nat := 0x581F
/-- `HST.SERIAL_EN`. -/
abbrev P.HST_SERIAL_EN : Nat := 0x6001
/-- `HST.BAUD_DIV`. -/
abbrev P.HST_BAUD_DIV : Nat := 0x6002
/-- `HST.SESSION_IDLE`. -/
abbrev P.HST_SESSION_IDLE : Nat := 0x6003
/-- `HST.AUTH_LOCK_N`. -/
abbrev P.HST_AUTH_LOCK_N : Nat := 0x6004
/-- `HST.SUB_LAPSE`. -/
abbrev P.HST_SUB_LAPSE : Nat := 0x6005
/-- `HST.LOAD_IDLE`. -/
abbrev P.HST_LOAD_IDLE : Nat := 0x6006
/-- `HST.SESSION`. -/
abbrev P.HST_SESSION : Nat := 0x6007
/-- `HST.SUBS`. -/
abbrev P.HST_SUBS : Nat := 0x6008
/-- `HST.NOTICE`. -/
abbrev P.HST_NOTICE : Nat := 0x6009
/-- `HST.NOTICE_SEQ`. -/
abbrev P.HST_NOTICE_SEQ : Nat := 0x600A
/-- `HST.AUTH_COUNT`. -/
abbrev P.HST_AUTH_COUNT : Nat := 0x600B
/-- `HST.AUTH_FAIL`. -/
abbrev P.HST_AUTH_FAIL : Nat := 0x600C
/-- `HST.MAC_FAIL`. -/
abbrev P.HST_MAC_FAIL : Nat := 0x600D
/-- `HST.BAD_FRAMES`. -/
abbrev P.HST_BAD_FRAMES : Nat := 0x600E
/-- `HST.DUP`. -/
abbrev P.HST_DUP : Nat := 0x600F
/-- `HST.BUSY`. -/
abbrev P.HST_BUSY : Nat := 0x6010
/-- `HST.STREAM_DROP`. -/
abbrev P.HST_STREAM_DROP : Nat := 0x6011
/-- `HST.RX_FRAMES`. -/
abbrev P.HST_RX_FRAMES : Nat := 0x6012
/-- `HST.TX_FRAMES`. -/
abbrev P.HST_TX_FRAMES : Nat := 0x6013
/-- `HST.SERIAL_OVF`. -/
abbrev P.HST_SERIAL_OVF : Nat := 0x6014
/-- `CHU.READ_IDLE`. -/
abbrev P.CHU_READ_IDLE : Nat := 0x6101
/-- `CHU.STALL`. -/
abbrev P.CHU_STALL : Nat := 0x6102
/-- `CHU.STATE`. -/
abbrev P.CHU_STATE : Nat := 0x6103
/-- `CHU.FILL_MAX`. -/
abbrev P.CHU_FILL_MAX : Nat := 0x6104
/-- `CHU.PACKETS`. -/
abbrev P.CHU_PACKETS : Nat := 0x6105
/-- `CHU.REWIND`. -/
abbrev P.CHU_REWIND : Nat := 0x6106
/-- `CHU.STALL_REWIND`. -/
abbrev P.CHU_STALL_REWIND : Nat := 0x6107
/-- `CHU.ORPHAN`. -/
abbrev P.CHU_ORPHAN : Nat := 0x6108
/-- `CHU.IDLE_WAKE`. -/
abbrev P.CHU_IDLE_WAKE : Nat := 0x6109
/-- `CHU.DESC_BAD`. -/
abbrev P.CHU_DESC_BAD : Nat := 0x610A
/-- `CHU.PARITY`. -/
abbrev P.CHU_PARITY : Nat := 0x610B
/-- `DSP.AFFINITY`. -/
abbrev P.DSP_AFFINITY : Nat := 0x6801
/-- `DSP.AGE`. -/
abbrev P.DSP_AGE : Nat := 0x6802
/-- `DSP.TASK`. -/
abbrev P.DSP_TASK : Nat := 0x6803
/-- `DSP.CORE`. -/
abbrev P.DSP_CORE : Nat := 0x6804
/-- `DSP.READY`. -/
abbrev P.DSP_READY : Nat := 0x6805
/-- `DSP.DISPATCHES`. -/
abbrev P.DSP_DISPATCHES : Nat := 0x6806
/-- `DSP.AGED`. -/
abbrev P.DSP_AGED : Nat := 0x6807
/-- `DSP.PREEMPTS`. -/
abbrev P.DSP_PREEMPTS : Nat := 0x6808
/-- `DSP.TIMEOUTS`. -/
abbrev P.DSP_TIMEOUTS : Nat := 0x6809
/-- `DSP.READY_MAX`. -/
abbrev P.DSP_READY_MAX : Nat := 0x680A
/-- `TLG.SOURCES`. -/
abbrev P.TLG_SOURCES : Nat := 0x6901
/-- `TLG.SNAP`. -/
abbrev P.TLG_SNAP : Nat := 0x6902
/-- `TLG.CTR_DESC`. -/
abbrev P.TLG_CTR_DESC : Nat := 0x6903
/-- `TLG.CLEAR`. -/
abbrev P.TLG_CLEAR : Nat := 0x6904
/-- `TLG.DROPPED`. -/
abbrev P.TLG_DROPPED : Nat := 0x6905
/-- `TLG.RECORDS`. -/
abbrev P.TLG_RECORDS : Nat := 0x6906
/-- `LOG.STATUS`. -/
abbrev P.LOG_STATUS : Nat := 0x7001
/-- `LOG.GEN`. -/
abbrev P.LOG_GEN : Nat := 0x7002
/-- `LOG.FIRST`. -/
abbrev P.LOG_FIRST : Nat := 0x7003
/-- `LOG.NEXT`. -/
abbrev P.LOG_NEXT : Nat := 0x7004
/-- `LOG.USED`. -/
abbrev P.LOG_USED : Nat := 0x7005
/-- `LOG.CAPACITY`. -/
abbrev P.LOG_CAPACITY : Nat := 0x7006
/-- `LOG.SPARES`. -/
abbrev P.LOG_SPARES : Nat := 0x7007
/-- `LOG.RETIRED`. -/
abbrev P.LOG_RETIRED : Nat := 0x7008
/-- `LOG.OP_MIN_SEV`. -/
abbrev P.LOG_OP_MIN_SEV : Nat := 0x7009
/-- `LOG.OP_FILTERED`. -/
abbrev P.LOG_OP_FILTERED : Nat := 0x700A
/-- `LOG.OP_DROPS`. -/
abbrev P.LOG_OP_DROPS : Nat := 0x700B
/-- `LOG.SAFETY_LOST`. -/
abbrev P.LOG_SAFETY_LOST : Nat := 0x700C
/-- `LOG.BUF_DROPS`. -/
abbrev P.LOG_BUF_DROPS : Nat := 0x700D
/-- `LOG.COALESCED`. -/
abbrev P.LOG_COALESCED : Nat := 0x700E
/-- `LOG.FLUSHES`. -/
abbrev P.LOG_FLUSHES : Nat := 0x700F
/-- `LOG.FLUSH_MAX`. -/
abbrev P.LOG_FLUSH_MAX : Nat := 0x7010
/-- `LOG.TORN`. -/
abbrev P.LOG_TORN : Nat := 0x7011
/-- `LOG.LW_USED`. -/
abbrev P.LOG_LW_USED : Nat := 0x7012
/-- `LOG.LW_LOST`. -/
abbrev P.LOG_LW_LOST : Nat := 0x7013
/-- `LOG.CLEAR_COUNT`. -/
abbrev P.LOG_CLEAR_COUNT : Nat := 0x7014
/-- `LOG.CODE_INFO`. -/
abbrev P.LOG_CODE_INFO : Nat := 0x7015
/-- `PWR.RESET_CAUSE`. -/
abbrev P.PWR_RESET_CAUSE : Nat := 0x7801
/-- `PWR.RESET_HIST`. -/
abbrev P.PWR_RESET_HIST : Nat := 0x7802
/-- `PWR.BOOTS`. -/
abbrev P.PWR_BOOTS : Nat := 0x7803
/-- `PWR.RAIL_MV`. -/
abbrev P.PWR_RAIL_MV : Nat := 0x7804
/-- `PWR.VBAT_MV`. -/
abbrev P.PWR_VBAT_MV : Nat := 0x7805
/-- `PWR.MON_FAULTS`. -/
abbrev P.PWR_MON_FAULTS : Nat := 0x7806
/-- `PWR.PFAIL_EVENTS`. -/
abbrev P.PWR_PFAIL_EVENTS : Nat := 0x7807
/-- `PWR.RSTOUT_MS`. -/
abbrev P.PWR_RSTOUT_MS : Nat := 0x7808
/-- `PWR.DORMANT`. -/
abbrev P.PWR_DORMANT : Nat := 0x7809
/-- `PWR.WAKE_EN`. -/
abbrev P.PWR_WAKE_EN : Nat := 0x780A
/-- `PWR.WAKE_EDGE`. -/
abbrev P.PWR_WAKE_EDGE : Nat := 0x780B
/-- `PWR.WAKE_AT`. -/
abbrev P.PWR_WAKE_AT : Nat := 0x780C
/-- `PWR.WAKE_CAUSE`. -/
abbrev P.PWR_WAKE_CAUSE : Nat := 0x780D
/-- `PWR.RTC_STATE`. -/
abbrev P.PWR_RTC_STATE : Nat := 0x780E
/-- `PWR.THERMAL`. -/
abbrev P.PWR_THERMAL : Nat := 0x780F
/-- `PWR.DRAM_CE`. -/
abbrev P.PWR_DRAM_CE : Nat := 0x7810
/-- `PWR.DRAM_UE`. -/
abbrev P.PWR_DRAM_UE : Nat := 0x7811
/-- `PWR.NAND_UE`. -/
abbrev P.PWR_NAND_UE : Nat := 0x7812
/-- `PWR.MRAM_UE`. -/
abbrev P.PWR_MRAM_UE : Nat := 0x7813
/-- `SEC.PROV_STATE`. -/
abbrev P.SEC_PROV_STATE : Nat := 0x7C01
/-- `SEC.PROV_LOCK`. -/
abbrev P.SEC_PROV_LOCK : Nat := 0x7C02
/-- `SEC.REKEY`. -/
abbrev P.SEC_REKEY : Nat := 0x7C03
/-- `SEC.KEY_EXPORT`. -/
abbrev P.SEC_KEY_EXPORT : Nat := 0x7C04
/-- `SEC.KEY_HASH`. -/
abbrev P.SEC_KEY_HASH : Nat := 0x7C05
/-- `SEC.SLOT_ACTIVE`. -/
abbrev P.SEC_SLOT_ACTIVE : Nat := 0x7C06
/-- `SEC.SLOT_INFO`. -/
abbrev P.SEC_SLOT_INFO : Nat := 0x7C07
/-- `SEC.ACTIVATE`. -/
abbrev P.SEC_ACTIVATE : Nat := 0x7C08
/-- `SEC.CONFIRM`. -/
abbrev P.SEC_CONFIRM : Nat := 0x7C09
/-- `SEC.TRIAL`. -/
abbrev P.SEC_TRIAL : Nat := 0x7C0A
/-- `SEC.TRIAL_S`. -/
abbrev P.SEC_TRIAL_S : Nat := 0x7C0B
/-- `SEC.ARB`. -/
abbrev P.SEC_ARB : Nat := 0x7C0C
/-- `SEC.IMG_REFUSED`. -/
abbrev P.SEC_IMG_REFUSED : Nat := 0x7C0D
/-- `SEC.FALLBACKS`. -/
abbrev P.SEC_FALLBACKS : Nat := 0x7C0E

/-- Rows of group SYS. -/
def paramsSYS : List Param := [
  ⟨0x0101, (.u 4), .ro, 0, .none, 0, 0, 7140, .any⟩,
  ⟨0x0102, (.u 1), .ro, 0, .none, 0, 0, 176, .any⟩,
  ⟨0x0103, (.u 2), .ro, 0, .none, 0, 0, 1282, .any⟩,
  ⟨0x0104, (.block 8 8), .ro, 0, .none, 0, 0, 0, .any⟩,
  ⟨0x0105, (.chars 16), .ro, 0, .none, 0, 0, 0, .any⟩,
  ⟨0x0106, (.block 6 6), .ro, 0, .none, 0, 0, 0, .any⟩,
  ⟨0x0107, (.block 16 16), .ro, 0, .none, 0, 3, 0, .any⟩,
  ⟨0x0108, (.s 2), .ro, 0, .none, 0, 3, 0, .any⟩,
  ⟨0x0109, (.chars 31), .rw, 2, .none, 0, 0, 0, .any⟩,
  ⟨0x010A, (.block 16 16), .ro, 0, .none, 0, 65535, 0, .any⟩,
  ⟨0x010B, (.block 16 16), .ro, 0, .none, 0, 0, 0, .any⟩]

/-- Rows of group TIM. -/
def paramsTIM : List Param := [
  ⟨0x0201, (.u 1), .ro, 0, .none, 0, 0, 0, .any⟩,
  ⟨0x0202, .hubtime, .ro, 0, .none, 0, 0, 0, .any⟩,
  ⟨0x0203, (.u 4), .ro, 0, .none, 0, 0, 4294967295, .any⟩,
  ⟨0x0204, (.u 1), .ro, 0, .none, 0, 0, 1, .any⟩,
  ⟨0x0205, (.q 5), .ro, 0, .none, 0, 0, 17179869184, .any⟩,
  ⟨0x0206, (.s 4), .ro, 0, .none, 0, 0, 0, .any⟩,
  ⟨0x0207, (.u 1), .ro, 0, .none, 0, 0, 0, .any⟩,
  ⟨0x0208, (.u 1), .rwi, 2, .none, 0, 0, 7, (.mask 0x07)⟩,
  ⟨0x0209, (.s 2), .rw, 2, .none, 0, 0, 37, (.rng (-128) 127)⟩,
  ⟨0x020A, (.u 1), .rw, 2, .none, 0, 0, 1, (.upto 1)⟩,
  ⟨0x020B, (.s 1), .ro, 0, .none, 0, 0, 0, .any⟩,
  ⟨0x020C, .hubtime, .ro, 0, .none, 0, 0, 0, .any⟩,
  ⟨0x020D, (.u 2), .rw, 2, .none, 0, 0, 50, (.rng 1 10000)⟩,
  ⟨0x020E, (.u 4), .rw, 2, .none, 0, 0, 14400, (.rng 60 86400)⟩,
  ⟨0x020F, (.u 4), .rw, 2, .none, 0, 0, 1000, (.rng 20 1000000)⟩,
  ⟨0x0210, (.u 2), .rw, 2, .none, 0, 0, 50, (.rng 10 1000)⟩,
  ⟨0x0211, (.u 2), .rw, 2, .none, 0, 0, 60, (.rng 10 600)⟩,
  ⟨0x0212, (.u 2), .rw, 2, .none, 0, 0, 1000, (.rng 200 10000)⟩,
  ⟨0x0213, (.u 2), .rw, 2, .none, 0, 0, 10, (.rng 1 300)⟩,
  ⟨0x0214, (.u 4), .rw, 2, .none, 0, 0, 10000, (.rng 1 1000000)⟩,
  ⟨0x0215, (.u 4), .rw, 2, .none, 0, 0, 1000, (.upto 1000000)⟩,
  ⟨0x0216, (.u 4), .rw, 2, .none, 0, 0, 20000, (.rng 100 100000)⟩,
  ⟨0x0217, (.u 4), .ro, 0, .none, 0, 0, 0, .any⟩,
  ⟨0x0218, (.u 1), .act, 2, .none, 0, 0, 0, (.rng 1 1)⟩,
  ⟨0x0219, (.s 8), .ro, 0, .none, 0, 0, 0, .any⟩,
  ⟨0x021A, (.u 2), .ro, 0, .stick, 0, 0, 0, .any⟩,
  ⟨0x021B, (.u 1), .rw, 2, .none, 0, 3, 0, .any⟩,
  ⟨0x021C, .hubtime, .rwi, 2, .none, 0, 3, 0, .any⟩,
  ⟨0x021D, (.u 4), .rwi, 2, .none, 0, 3, 1000000000, .any⟩,
  ⟨0x021E, (.u 4), .rwi, 2, .none, 0, 3, 100000000, .any⟩,
  ⟨0x021F, (.u 4), .rwi, 2, .none, 0, 1, 200000000, (.rng 1000 900000000)⟩,
  ⟨0x0220, (.u 1), .rwi, 2, .none, 0, 3, 0, (.upto 1)⟩,
  ⟨0x0221, (.s 4), .rwi, 2, .none, 0, 1, 0, (.rng (-8000) 80000)⟩,
  ⟨0x0222, (.u 4), .ro, 0, .wrap, 0, 3, 0, .any⟩,
  ⟨0x0223, (.u 2), .ro, 0, .stick, 0, 3, 0, .any⟩,
  ⟨0x0224, (.u 1), .rw, 2, .none, 0, 3, 0, (.upto 3)⟩,
  ⟨0x0225, (.u 2), .rw, 2, .none, 0, 3, 1000, (.rng 100 65535)⟩,
  ⟨0x0226, (.u 4), .ro, 0, .stick, 0, 3, 0, .any⟩,
  ⟨0x0227, (.u 1), .ro, 0, .none, 0, 0, 0, .any⟩,
  ⟨0x0228, (.u 2), .ro, 0, .stick, 0, 0, 0, .any⟩]

/-- Rows of group CYC. -/
def paramsCYC : List Param := [
  ⟨0x0301, (.u 1), .rwi, 2, .none, 0, 0, 20, (.rng 2 40)⟩,
  ⟨0x0302, (.u 4), .ro, 0, .none, 0, 0, 0, .any⟩,
  ⟨0x0303, (.u 4), .ro, 0, .none, 0, 0, 0, .any⟩,
  ⟨0x0304, (.u 8), .ro, 0, .none, 0, 0, 0, .any⟩,
  ⟨0x0305, (.u 4), .ro, 0, .none, 0, 0, 0, .any⟩,
  ⟨0x0306, (.u 4), .ro, 0, .wrap, 0, 0, 0, .any⟩,
  ⟨0x0307, (.u 4), .ro, 0, .wrap, 0, 0, 0, .any⟩,
  ⟨0x0308, (.u 4), .ro, 0, .wrap, 0, 0, 0, .any⟩,
  ⟨0x0309, (.u 4), .ro, 0, .wrap, 0, 0, 0, .any⟩,
  ⟨0x030A, (.u 2), .ro, 0, .stick, 0, 0, 0, .any⟩,
  ⟨0x030B, (.u 2), .ro, 0, .none, 0, 0, 0, .any⟩,
  ⟨0x030C, (.block 4096 4096), .ro, 0, .none, 0, 262143, 0, .any⟩,
  ⟨0x030D, (.u 1), .act, 2, .none, 0, 0, 0, (.upto 1)⟩,
  ⟨0x030E, (.u 4), .ro, 0, .wrap, 0, 0, 0, .any⟩,
  ⟨0x030F, (.u 1), .act, 3, .none, 0, 0, 0, (.upto 1)⟩,
  ⟨0x0310, (.u 1), .ro, 0, .none, 0, 0, 0, .any⟩,
  ⟨0x0311, (.u 4), .ro, 0, .stick, 0, 0, 0, .any⟩,
  ⟨0x0312, (.u 4), .ro, 0, .none, 0, 0, 0, .any⟩]

/-- Rows of group GNS. -/
def paramsGNS : List Param := [
  ⟨0x1001, (.u 1), .rw, 2, .none, 0, 0, 1, (.upto 1)⟩,
  ⟨0x1002, (.u 1), .rwi, 2, .none, 0, 1, 1, (.upto 1)⟩,
  ⟨0x1003, (.u 1), .rwi, 2, .none, 0, 1, 1, (.upto 1)⟩,
  ⟨0x1004, (.u 1), .ro, 0, .none, 0, 1, 0, .any⟩,
  ⟨0x1005, (.u 2), .ro, 0, .none, 0, 1, 0, .any⟩,
  ⟨0x1006, (.u 2), .ro, 0, .stick, 0, 1, 0, .any⟩,
  ⟨0x1007, (.u 1), .ro, 0, .none, 0, 5, 0, .any⟩,
  ⟨0x1008, (.u 1), .ro, 0, .none, 0, 5, 0, .any⟩,
  ⟨0x1009, (.u 4), .ro, 0, .wrap, 0, 5, 0, .any⟩,
  ⟨0x100A, (.u 1), .rwi, 2, .none, 0, 23, 1, (.upto 1)⟩,
  ⟨0x100B, (.u 1), .rwi, 2, .none, 0, 23, 0, (.upto 3)⟩,
  ⟨0x100C, (.u 1), .rwi, 2, .none, 0, 0, 10, (.oneOf [10, 20])⟩,
  ⟨0x100D, (.s 1), .rw, 2, .none, 0, 0, 0, (.rng (-5) 30)⟩,
  ⟨0x100E, (.u 2), .rw, 2, .none, 0, 0, 200, (.rng 1 10000)⟩,
  ⟨0x100F, (.u 2), .rw, 2, .none, 0, 0, 5000, (.rng 1000 50000)⟩,
  ⟨0x1010, (.u 1), .rw, 2, .none, 0, 0, 1, (.rng 1 20)⟩,
  ⟨0x1011, (.u 1), .rw, 2, .none, 0, 0, 10, (.rng 1 200)⟩,
  ⟨0x1012, (.q 2), .rw, 2, .none, 0, 0, 896, (.rng 512 4096)⟩,
  ⟨0x1013, (.u 1), .ro, 0, .none, 0, 0, 0, .any⟩,
  ⟨0x1014, (.u 4), .ro, 0, .wrap, 0, 0, 0, .any⟩,
  ⟨0x1015, (.u 1), .ro, 0, .none, 0, 0, 0, .any⟩,
  ⟨0x1016, (.u 1), .act, 2, .none, 0, 0, 0, (.rng 1 1)⟩,
  ⟨0x1017, (.u 2), .ro, 0, .none, 0, 0, 65535, .any⟩,
  ⟨0x1018, (.u 2), .rw, 2, .none, 0, 0, 336, (.rng 24 2160)⟩,
  ⟨0x1019, (.u 1), .act, 1, .none, 0, 0, 0, (.rng 1 5)⟩,
  ⟨0x101A, (.u 1), .ro, 0, .none, 0, 0, 0, .any⟩,
  ⟨0x101B, (.u 1), .rw, 1, .none, 0, 0, 63, (.mask 0x3F)⟩,
  ⟨0x101C, (.u 1), .rw, 1, .none, 0, 0, 40, (.rng 1 40)⟩,
  ⟨0x101D, (.u 1), .rw, 1, .none, 0, 0, 20, (.upto 40)⟩,
  ⟨0x101E, (.u 1), .rw, 1, .none, 0, 0, 0, .any⟩,
  ⟨0x101F, (.u 2), .ro, 0, .stick, 0, 0, 0, .any⟩]

/-- Rows of group TRK. -/
def paramsTRK : List Param := [
  ⟨0x1101, (.u 1), .ro, 0, .none, 0, 1343, 0, .any⟩,
  ⟨0x1102, (.u 2), .ro, 0, .none, 0, 1343, 65535, .any⟩,
  ⟨0x1103, (.u 2), .ro, 0, .none, 0, 1343, 0, .any⟩,
  ⟨0x1104, (.u 2), .ro, 0, .none, 0, 27, 0, .any⟩,
  ⟨0x1105, (.u 1), .ro, 0, .none, 0, 27, 0, .any⟩,
  ⟨0x1106, (.u 1), .rwi, 2, .none, 0, 0, 90, (.rng 50 100)⟩,
  ⟨0x1107, (.u 1), .rw, 2, .none, 0, 23, 4, (.rng 1 32)⟩,
  ⟨0x1108, (.u 2), .rw, 2, .none, 0, 23, 100, (.rng 10 500)⟩,
  ⟨0x1109, (.u 2), .rw, 2, .none, 0, 23, 50, (.rng 1 500)⟩,
  ⟨0x110A, (.u 2), .rw, 2, .none, 0, 23, 100, (.rng 10 500)⟩,
  ⟨0x110B, (.u 2), .rw, 2, .none, 0, 0, 2500, (.rng 1500 4500)⟩,
  ⟨0x110C, (.u 2), .rw, 2, .none, 0, 0, 500, (.upto 5000)⟩,
  ⟨0x110D, (.u 1), .rw, 2, .none, 0, 23, 1, (.upto 1)⟩,
  ⟨0x110E, (.s 1), .rw, 2, .none, 0, 23, 192, (.rng (-64) 64)⟩,
  ⟨0x110F, (.u 1), .rw, 2, .none, 0, 23, 4, (.rng 1 32)⟩,
  ⟨0x1110, (.u 4), .ro, 0, .wrap, 0, 23, 0, .any⟩,
  ⟨0x1111, (.u 4), .ro, 0, .wrap, 0, 0, 0, .any⟩,
  ⟨0x1112, (.u 4), .ro, 0, .wrap, 0, 0, 0, .any⟩,
  ⟨0x1113, (.u 4), .ro, 0, .wrap, 0, 0, 0, .any⟩]

/-- Rows of group STA. -/
def paramsSTA : List Param := [
  ⟨0x1201, (.u 1), .ro, 0, .none, 0, 0, 0, .any⟩,
  ⟨0x1202, (.u 1), .ro, 0, .none, 0, 0, 0, .any⟩,
  ⟨0x1203, (.u 1), .rwi, 2, .none, 0, 0, 0, (.upto 2)⟩,
  ⟨0x1204, (.s 8), .rwi, 2, .none, 0, 2, 0, .any⟩,
  ⟨0x1205, (.u 4), .rwi, 2, .none, 0, 0, 0, .any⟩,
  ⟨0x1206, (.u 4), .rwi, 2, .none, 0, 0, 600, (.rng 60 86400)⟩,
  ⟨0x1207, (.u 4), .rwi, 2, .none, 0, 0, 2000, (.rng 100 100000)⟩,
  ⟨0x1208, (.s 4), .rwi, 2, .none, 0, 2, 0, (.rng (-10000) 10000)⟩,
  ⟨0x1209, (.u 2), .rwi, 2, .none, 0, 0, 0, .any⟩,
  ⟨0x120A, (.s 2), .rwi, 2, .none, 0, 17, 0, .any⟩,
  ⟨0x120B, (.s 2), .rwi, 2, .none, 0, 113, 0, .any⟩,
  ⟨0x120C, (.u 1), .rwi, 2, .none, 0, 0, 0, (.upto 1)⟩,
  ⟨0x120D, (.chars 31), .rwi, 2, .none, 0, 1, 0, .any⟩,
  ⟨0x120E, (.chars 31), .rwi, 2, .none, 0, 1, 0, .any⟩,
  ⟨0x120F, (.u 1), .rwi, 2, .none, 0, 0, 0, .any⟩,
  ⟨0x1210, (.u 1), .rw, 2, .none, 0, 0, 0, (.upto 1)⟩,
  ⟨0x1211, (.u 1), .rw, 2, .none, 0, 0, 0, (.upto 1)⟩,
  ⟨0x1212, (.s 1), .rw, 2, .none, 0, 0, 5, (.rng (-5) 30)⟩,
  ⟨0x1213, (.u 2), .rwi, 2, .none, 0, 0, 0, (.upto 4095)⟩,
  ⟨0x1214, (.u 1), .rw, 2, .none, 0, 6, 7, (.oneOf [0, 4, 5, 6, 7])⟩,
  ⟨0x1215, (.u 1), .rw, 2, .none, 0, 0, 1, (.oneOf [1, 2, 5, 10, 20])⟩,
  ⟨0x1216, (.u 1), .rw, 2, .none, 0, 0, 1, (.oneOf [0, 1, 2, 5, 10])⟩,
  ⟨0x1217, (.u 1), .rw, 2, .none, 0, 0, 10, (.rng 1 60)⟩,
  ⟨0x1218, (.u 2), .rw, 2, .none, 0, 0, 60, (.rng 10 3600)⟩,
  ⟨0x1219, (.u 1), .rw, 2, .none, 0, 0, 2, (.rng 1 20)⟩,
  ⟨0x121A, (.u 1), .rw, 2, .none, 0, 0, 8, (.rng 5 32)⟩,
  ⟨0x121B, (.u 2), .rw, 2, .none, 0, 0, 30, (.rng 5 600)⟩,
  ⟨0x121C, (.u 2), .rw, 2, .none, 0, 0, 3000, (.rng 500 30000)⟩,
  ⟨0x121D, (.u 2), .rw, 2, .none, 0, 0, 200, (.rng 20 5000)⟩,
  ⟨0x121E, (.u 2), .rw, 2, .none, 0, 26, 0, .any⟩,
  ⟨0x121F, (.u 2), .rw, 2, .none, 0, 0, 800, (.rng 200 2000)⟩,
  ⟨0x1220, (.u 2), .rw, 2, .none, 0, 0, 1500, (.rng 500 3000)⟩,
  ⟨0x1221, (.u 4), .rw, 2, .none, 0, 0, 30000, (.rng 1000 300000)⟩,
  ⟨0x1222, (.u 2), .rw, 2, .none, 0, 0, 100, (.rng 10 10000)⟩,
  ⟨0x1223, (.u 2), .rw, 2, .none, 0, 0, 3000, (.rng 500 50000)⟩,
  ⟨0x1224, (.u 2), .rw, 2, .none, 0, 0, 6000, (.rng 1000 50000)⟩,
  ⟨0x1225, (.u 2), .rw, 2, .none, 0, 0, 100, (.rng 20 5000)⟩,
  ⟨0x1226, (.u 2), .rw, 2, .none, 0, 0, 20, (.rng 5 1000)⟩,
  ⟨0x1227, (.u 2), .rw, 2, .none, 0, 0, 150, (.rng 50 400)⟩,
  ⟨0x1228, (.u 1), .rw, 2, .none, 0, 0, 25, (.rng 10 75)⟩,
  ⟨0x1229, (.u 1), .rw, 2, .none, 0, 0, 25, (.rng 5 75)⟩,
  ⟨0x122A, (.u 1), .rw, 2, .none, 0, 0, 12, (.rng 3 30)⟩,
  ⟨0x122B, (.u 1), .rw, 2, .none, 0, 0, 15, (.rng 10 40)⟩,
  ⟨0x122C, (.u 2), .rw, 2, .none, 0, 0, 400, (.rng 100 2000)⟩,
  ⟨0x122D, (.u 1), .rw, 2, .none, 0, 0, 32, (.rng 8 128)⟩,
  ⟨0x122E, (.u 1), .ro, 0, .none, 0, 5, 0, .any⟩,
  ⟨0x122F, (.u 1), .ro, 0, .none, 0, 5, 0, .any⟩,
  ⟨0x1230, (.u 1), .ro, 0, .none, 0, 5, 0, .any⟩,
  ⟨0x1231, (.u 1), .act, 2, .none, 0, 0, 0, (.rng 1 1)⟩,
  ⟨0x1232, (.u 1), .ro, 0, .none, 0, 0, 0, .any⟩,
  ⟨0x1233, (.s 8), .ro, 0, .none, 0, 5, 0, .any⟩,
  ⟨0x1234, (.u 4), .ro, 0, .wrap, 0, 9, 0, .any⟩,
  ⟨0x1235, (.u 2), .ro, 0, .stick, 0, 0, 0, .any⟩,
  ⟨0x1236, (.u 4), .ro, 0, .wrap, 0, 0, 0, .any⟩,
  ⟨0x1237, (.u 4), .ro, 0, .wrap, 0, 0, 0, .any⟩]

/-- Rows of group RTK. -/
def paramsRTK : List Param := [
  ⟨0x1801, (.u 1), .rw, 2, .none, 1, 96, 0, (.upto 2)⟩,
  ⟨0x1802, (.u 1), .rw, 2, .none, 1, 96, 10, (.oneOf [5, 10, 20])⟩,
  ⟨0x1803, (.u 1), .ro, 0, .none, 0, 0, 0, .any⟩,
  ⟨0x1804, (.u 1), .ro, 0, .none, 0, 0, 0, .any⟩,
  ⟨0x1805, (.u 1), .ro, 0, .none, 1, 96, 0, .any⟩,
  ⟨0x1806, (.u 1), .rw, 2, .none, 0, 0, 1, (.upto 2)⟩,
  ⟨0x1807, (.u 1), .rw, 2, .none, 0, 0, 8, (.rng 4 96)⟩,
  ⟨0x1808, (.u 1), .rw, 2, .none, 0, 0, 5, (.rng 5 12)⟩,
  ⟨0x1809, (.s 1), .rw, 2, .none, 0, 0, 10, (.upto 30)⟩,
  ⟨0x180A, (.u 2), .rw, 2, .none, 0, 0, 30, (.upto 600)⟩,
  ⟨0x180B, (.u 2), .rw, 2, .none, 0, 0, 25, (.rng 5 100)⟩,
  ⟨0x180C, (.u 4), .rw, 2, .none, 0, 0, 10000, (.rng 1000 20000)⟩,
  ⟨0x180D, (.u 2), .rw, 2, .none, 0, 0, 300, (.rng 50 5000)⟩,
  ⟨0x180E, (.u 2), .rw, 2, .none, 0, 0, 20, (.rng 5 100)⟩,
  ⟨0x180F, (.u 2), .rw, 2, .none, 0, 0, 2000, (.rng 100 20000)⟩,
  ⟨0x1810, (.u 2), .rw, 2, .none, 0, 0, 500, (.rng 100 20000)⟩,
  ⟨0x1811, (.u 2), .rw, 2, .none, 0, 0, 100, (.upto 10000)⟩,
  ⟨0x1812, (.u 2), .rw, 2, .none, 0, 0, 100, (.rng 10 2000)⟩,
  ⟨0x1813, (.q 2), .ro, 0, .none, 1, 96, 0, .any⟩,
  ⟨0x1814, (.u 4), .ro, 0, .none, 1, 96, 4294967295, .any⟩,
  ⟨0x1815, .stamp, .ro, 0, .none, 1, 96, 0, .any⟩,
  ⟨0x1816, (.u 4), .ro, 0, .none, 1, 96, 0, .any⟩,
  ⟨0x1817, (.u 4), .ro, 0, .wrap, 1, 96, 0, .any⟩,
  ⟨0x1818, (.u 4), .ro, 0, .wrap, 1, 96, 0, .any⟩,
  ⟨0x1819, (.u 4), .ro, 0, .wrap, 1, 96, 0, .any⟩,
  ⟨0x181A, (.u 4), .ro, 0, .wrap, 1, 96, 0, .any⟩,
  ⟨0x181B, (.u 4), .ro, 0, .wrap, 1, 96, 0, .any⟩,
  ⟨0x181C, (.u 4), .ro, 0, .wrap, 1, 96, 0, .any⟩,
  ⟨0x181D, (.u 2), .ro, 0, .stick, 1, 96, 0, .any⟩,
  ⟨0x181E, (.u 4), .ro, 0, .wrap, 0, 0, 0, .any⟩,
  ⟨0x181F, (.u 4), .ro, 0, .wrap, 0, 0, 0, .any⟩,
  ⟨0x1820, (.u 4), .ro, 0, .wrap, 0, 0, 0, .any⟩]

/-- Rows of group JOB. -/
def paramsJOB : List Param := [
  ⟨0x2001, (.u 1), .ro, 0, .none, 0, 0, 0, .any⟩,
  ⟨0x2002, (.u 1), .act, 1, .none, 0, 0, 0, (.rng 1 3)⟩,
  ⟨0x2003, (.u 4), .ro, 0, .none, 0, 0, 0, .any⟩,
  ⟨0x2004, (.u 8), .ro, 0, .none, 0, 0, 0, .any⟩,
  ⟨0x2005, (.u 8), .ro, 0, .none, 0, 0, 0, .any⟩,
  ⟨0x2006, (.s 8), .ro, 0, .none, 0, 2, 0, .any⟩,
  ⟨0x2007, (.s 4), .ro, 0, .none, 0, 8, 0, .any⟩,
  ⟨0x2008, (.u 2), .ro, 0, .none, 0, 0, 0, .any⟩,
  ⟨0x2009, (.u 2), .ro, 0, .none, 0, 0, 0, .any⟩,
  ⟨0x200A, (.block 1024 1024), .ro, 0, .none, 0, 0, 0, .any⟩,
  ⟨0x200B, (.block 16 16), .ro, 0, .none, 0, 65535, 0, .any⟩,
  ⟨0x200C, (.u 1), .ro, 0, .none, 0, 0, 0, .any⟩,
  ⟨0x200D, (.u 4), .rwi, 2, .none, 0, 0, 5000, (.rng 1000 100000)⟩,
  ⟨0x200E, (.u 1), .rw, 1, .none, 0, 0, 10, (.upto 50)⟩,
  ⟨0x200F, (.u 1), .rw, 1, .none, 0, 0, 25, (.rng 5 80)⟩,
  ⟨0x2010, (.u 1), .rw, 1, .none, 0, 0, 10, (.upto 50)⟩,
  ⟨0x2011, (.u 2), .ro, 0, .none, 0, 0, 0, .any⟩]

/-- Rows of group SLT. -/
def paramsSLT : List Param := [
  ⟨0x2101, (.u 2), .rw, 2, .none, 0, 0, 2000, (.rng 100 60000)⟩,
  ⟨0x2102, (.u 1), .rw, 2, .none, 0, 0, 12, (.rng 8 15)⟩,
  ⟨0x2103, (.u 4), .rw, 2, .none, 0, 0, 20000, (.rng 1000 200000)⟩,
  ⟨0x2104, (.u 2), .rw, 2, .none, 0, 0, 500, (.rng 100 5000)⟩,
  ⟨0x2105, (.u 2), .rw, 2, .none, 0, 0, 1000, (.upto 10000)⟩,
  ⟨0x2106, (.u 2), .rw, 2, .none, 0, 0, 1000, (.upto 10000)⟩,
  ⟨0x2107, (.u 2), .rw, 2, .none, 0, 0, 500, (.rng 100 5000)⟩,
  ⟨0x2108, (.u 2), .rw, 2, .none, 0, 0, 8000, (.rng 2000 60000)⟩,
  ⟨0x2109, (.u 4), .rw, 2, .none, 0, 0, 20000, (.rng 1000 200000)⟩,
  ⟨0x210A, (.u 2), .rw, 2, .none, 0, 0, 2000, (.upto 30000)⟩,
  ⟨0x210B, (.u 1), .rw, 2, .none, 0, 0, 4, (.rng 1 16)⟩,
  ⟨0x210C, (.u 2), .rw, 2, .none, 0, 0, 100, (.rng 10 1000)⟩,
  ⟨0x210D, (.u 1), .rw, 2, .none, 0, 0, 2, (.rng 1 10)⟩,
  ⟨0x210E, (.u 2), .rw, 2, .none, 0, 0, 500, (.rng 100 5000)⟩,
  ⟨0x210F, (.u 2), .rw, 2, .none, 0, 0, 500, (.upto 5000)⟩,
  ⟨0x2110, (.u 2), .ro, 0, .none, 0, 0, 0, .any⟩,
  ⟨0x2111, (.block 28 476), .ro, 0, .none, 0, 16383, 0, .any⟩,
  ⟨0x2112, (.block 16 16), .ro, 0, .none, 1, 96, 0, .any⟩,
  ⟨0x2113, (.u 1), .act, 1, .none, 1, 96, 0, (.rng 1 1)⟩,
  ⟨0x2114, (.block 28 476), .rw, 1, .none, 0, 255, 0, .any⟩,
  ⟨0x2115, (.u 2), .ro, 0, .none, 0, 0, 0, .any⟩,
  ⟨0x2116, (.u 4), .ro, 0, .none, 0, 0, 0, .any⟩,
  ⟨0x2117, (.u 4), .ro, 0, .wrap, 0, 0, 0, .any⟩,
  ⟨0x2118, (.u 4), .ro, 0, .wrap, 0, 0, 0, .any⟩,
  ⟨0x2119, (.u 4), .ro, 0, .wrap, 0, 0, 0, .any⟩,
  ⟨0x211A, (.u 2), .ro, 0, .stick, 0, 0, 0, .any⟩,
  ⟨0x211B, (.u 4), .ro, 0, .wrap, 1, 96, 0, .any⟩,
  ⟨0x211C, (.u 2), .ro, 0, .stick, 1, 96, 0, .any⟩]

/-- Rows of group COV. -/
def paramsCOV : List Param := [
  ⟨0x2201, (.u 1), .rwi, 2, .none, 0, 0, 50, (.oneOf [50, 100])⟩,
  ⟨0x2202, (.u 1), .ro, 0, .none, 0, 0, 0, .any⟩,
  ⟨0x2203, (.u 4), .ro, 0, .none, 0, 0, 0, .any⟩,
  ⟨0x2204, (.s 4), .ro, 0, .none, 0, 1, 0, .any⟩,
  ⟨0x2205, (.u 2), .ro, 0, .none, 0, 1, 0, .any⟩,
  ⟨0x2206, (.u 1), .rw, 2, .none, 0, 0, 10, (.rng 5 50)⟩,
  ⟨0x2207, (.u 2), .rw, 2, .none, 0, 0, 150, (.upto 1000)⟩,
  ⟨0x2208, (.u 2), .rw, 2, .none, 0, 0, 500, (.rng 100 1000)⟩,
  ⟨0x2209, (.u 1), .rw, 1, .none, 0, 0, 50, (.upto 100)⟩,
  ⟨0x220A, (.u 1), .rw, 1, .none, 0, 0, 50, (.upto 100)⟩,
  ⟨0x220B, (.u 2), .rw, 2, .none, 0, 0, 100, (.rng 10 2000)⟩,
  ⟨0x220C, (.u 2), .rw, 2, .none, 0, 0, 50, (.rng 10 1000)⟩,
  ⟨0x220D, (.u 2), .rw, 2, .none, 0, 0, 300, (.rng 100 2000)⟩,
  ⟨0x220E, (.u 2), .rw, 2, .none, 0, 0, 500, (.rng 100 2000)⟩,
  ⟨0x220F, (.u 1), .rw, 2, .none, 0, 0, 10, (.rng 1 40)⟩,
  ⟨0x2210, (.u 4), .rw, 1, .none, 0, 0, 0, .any⟩,
  ⟨0x2211, (.block 4096 4096), .ro, 0, .none, 0, 65535, 0, .any⟩,
  ⟨0x2212, (.block 512 512), .ro, 0, .none, 0, 511, 0, .any⟩,
  ⟨0x2213, (.u 4), .ro, 0, .wrap, 0, 0, 0, .any⟩,
  ⟨0x2214, (.u 4), .ro, 0, .none, 0, 3, 0, .any⟩,
  ⟨0x2215, (.u 4), .ro, 0, .none, 0, 3, 0, .any⟩,
  ⟨0x2216, (.block 932 932), .ro, 0, .none, 1, 96, 0, .any⟩,
  ⟨0x2217, (.u 4), .ro, 0, .wrap, 0, 0, 0, .any⟩,
  ⟨0x2218, (.u 4), .ro, 0, .wrap, 0, 0, 0, .any⟩,
  ⟨0x2219, (.u 4), .ro, 0, .wrap, 1, 96, 0, .any⟩,
  ⟨0x221A, (.u 4), .ro, 0, .wrap, 1, 96, 0, .any⟩,
  ⟨0x221B, (.u 4), .ro, 0, .wrap, 1, 96, 0, .any⟩,
  ⟨0x221C, (.u 4), .ro, 0, .wrap, 1, 96, 0, .any⟩,
  ⟨0x221D, (.u 4), .ro, 0, .wrap, 1, 96, 0, .any⟩,
  ⟨0x221E, (.u 4), .ro, 0, .wrap, 0, 3, 0, .any⟩]

/-- Rows of group STP. -/
def paramsSTP : List Param := [
  ⟨0x2801, (.u 1), .ro, 0, .none, 0, 0, 3, .any⟩,
  ⟨0x2802, (.u 2), .ro, 0, .none, 0, 0, 0, .any⟩,
  ⟨0x2803, (.block 12 12), .ro, 0, .none, 0, 0, 0, .any⟩,
  ⟨0x2804, (.u 1), .ro, 0, .none, 0, 0, 0, .any⟩,
  ⟨0x2805, (.u 1), .ro, 0, .none, 0, 2, 0, .any⟩,
  ⟨0x2806, (.u 4), .rwi, 3, .none, 0, 0, 0, .any⟩,
  ⟨0x2807, (.u 1), .rwi, 3, .none, 1, 96, 255, .any⟩,
  ⟨0x2808, (.u 1), .rwi, 3, .none, 0, 1, 1, (.upto 1)⟩,
  ⟨0x2809, (.u 1), .rwi, 3, .none, 0, 0, 10, (.rng 5 50)⟩,
  ⟨0x280A, (.u 2), .rwi, 3, .none, 0, 0, 100, (.rng 10 500)⟩,
  ⟨0x280B, (.u 1), .ro, 0, .none, 0, 3, 0, .any⟩,
  ⟨0x280C, (.block 8 8), .rwi, 3, .none, 0, 3, 0, .any⟩,
  ⟨0x280D, (.u 2), .rwi, 3, .none, 0, 3, 0, .any⟩,
  ⟨0x280E, (.u 1), .rwi, 3, .none, 0, 15, 0, (.upto 2)⟩,
  ⟨0x280F, (.u 4), .rwi, 3, .none, 0, 15, 65536, (.mask 0x1FFFF)⟩,
  ⟨0x2810, (.u 2), .rwi, 3, .none, 0, 0, 500, (.rng 150 5000)⟩,
  ⟨0x2811, (.u 1), .rwi, 3, .none, 0, 0, 0, .any⟩,
  ⟨0x2812, (.u 1), .rwi, 3, .none, 0, 0, 2, (.rng 1 10)⟩,
  ⟨0x2813, (.u 1), .rwi, 3, .none, 0, 0, 1, (.rng 1 4)⟩,
  ⟨0x2814, (.u 1), .ro, 0, .none, 0, 3, 0, .any⟩,
  ⟨0x2815, (.u 4), .ro, 0, .wrap, 0, 3, 0, .any⟩,
  ⟨0x2816, (.u 4), .ro, 0, .wrap, 0, 3, 0, .any⟩,
  ⟨0x2817, (.u 4), .ro, 0, .wrap, 0, 3, 0, .any⟩,
  ⟨0x2818, (.u 4), .ro, 0, .wrap, 0, 0, 0, .any⟩,
  ⟨0x2819, (.u 4), .ro, 0, .wrap, 0, 0, 0, .any⟩,
  ⟨0x281A, (.u 2), .ro, 0, .stick, 0, 0, 0, .any⟩,
  ⟨0x281B, (.u 2), .ro, 0, .stick, 0, 3, 0, .any⟩,
  ⟨0x281C, (.u 1), .ro, 0, .none, 0, 0, 0, .any⟩,
  ⟨0x281D, (.u 2), .ro, 0, .stick, 0, 0, 0, .any⟩,
  ⟨0x281E, (.u 4), .ro, 0, .wrap, 0, 0, 0, .any⟩,
  ⟨0x281F, (.u 4), .ro, 0, .wrap, 0, 0, 0, .any⟩,
  ⟨0x2820, (.u 4), .ro, 0, .wrap, 0, 0, 0, .any⟩,
  ⟨0x2821, (.block 0 28696), .ro, 0, .none, 0, 0, 0, .any⟩]

/-- Rows of group AIR. -/
def paramsAIR : List Param := [
  ⟨0x3001, (.u 1), .rw, 2, .none, 0, 3, 1, (.upto 1)⟩,
  ⟨0x3002, (.u 1), .rwi, 2, .none, 0, 3, 0, (.upto 1)⟩,
  ⟨0x3003, (.u 1), .rwi, 2, .none, 0, 1, 0, .any⟩,
  ⟨0x3004, (.u 1), .rwi, 2, .none, 0, 3, 0, .any⟩,
  ⟨0x3005, (.s 1), .rw, 2, .none, 0, 3, 10, (.rng (-20) 10)⟩,
  ⟨0x3006, (.u 1), .rwi, 2, .none, 0, 3, 20, (.upto 100)⟩,
  ⟨0x3007, (.s 1), .rw, 2, .none, 0, 0, 181, (.rng (-100) (-40))⟩,
  ⟨0x3008, (.u 1), .rw, 2, .none, 0, 0, 3, (.upto 7)⟩,
  ⟨0x3009, (.u 1), .rw, 2, .none, 0, 0, 5, (.rng 3 8)⟩,
  ⟨0x300A, (.u 1), .rw, 2, .none, 0, 0, 4, (.rng 1 8)⟩,
  ⟨0x300B, (.u 2), .rw, 2, .none, 0, 0, 40, (.upto 200)⟩,
  ⟨0x300C, (.u 2), .rw, 2, .none, 0, 0, 1000, (.rng 200 2000)⟩,
  ⟨0x300D, (.u 2), .rw, 2, .none, 0, 0, 200, (.rng 50 2000)⟩,
  ⟨0x300E, (.u 1), .rw, 2, .none, 1, 96, 0, (.upto 3)⟩,
  ⟨0x300F, (.u 2), .rw, 2, .none, 0, 13, 65535, .any⟩,
  ⟨0x3010, (.u 1), .ro, 0, .none, 0, 3, 0, .any⟩,
  ⟨0x3011, (.u 4), .ro, 0, .none, 0, 255, 0, .any⟩,
  ⟨0x3012, (.block 16 16), .act, 3, .none, 0, 127, 0, .any⟩,
  ⟨0x3013, (.u 4), .act, 3, .none, 0, 127, 0, .any⟩,
  ⟨0x3014, (.u 1), .ro, 0, .wrap, 0, 127, 0, .any⟩,
  ⟨0x3015, (.u 4), .ro, 0, .stick, 0, 96, 0, .any⟩,
  ⟨0x3016, (.u 2), .rw, 3, .none, 0, 0, 10, (.rng 1 300)⟩,
  ⟨0x3017, (.block 12 12), .ro, 0, .none, 0, 0, 0, .any⟩,
  ⟨0x3018, (.u 4), .ro, 0, .wrap, 0, 3, 0, .any⟩,
  ⟨0x3019, (.u 4), .ro, 0, .wrap, 0, 3, 0, .any⟩,
  ⟨0x301A, (.u 4), .ro, 0, .wrap, 0, 3, 0, .any⟩,
  ⟨0x301B, (.u 4), .ro, 0, .wrap, 0, 0, 0, .any⟩,
  ⟨0x301C, (.u 4), .ro, 0, .wrap, 0, 3, 0, .any⟩,
  ⟨0x301D, (.u 4), .ro, 0, .wrap, 0, 0, 0, .any⟩,
  ⟨0x301E, (.u 4), .ro, 0, .wrap, 0, 0, 0, .any⟩,
  ⟨0x301F, (.u 4), .ro, 0, .wrap, 0, 0, 0, .any⟩,
  ⟨0x3020, (.u 4), .ro, 0, .wrap, 0, 3, 0, .any⟩,
  ⟨0x3021, (.u 4), .ro, 0, .wrap, 0, 0, 0, .any⟩,
  ⟨0x3022, (.u 4), .ro, 0, .wrap, 0, 0, 0, .any⟩,
  ⟨0x3023, (.u 4), .ro, 0, .wrap, 0, 0, 0, .any⟩,
  ⟨0x3024, (.u 4), .ro, 0, .wrap, 0, 0, 0, .any⟩,
  ⟨0x3025, (.u 4), .ro, 0, .stick, 0, 0, 0, .any⟩,
  ⟨0x3026, (.u 4), .ro, 0, .stick, 0, 0, 0, .any⟩,
  ⟨0x3027, (.u 4), .ro, 0, .stick, 0, 0, 0, .any⟩]

/-- Rows of group MSH. -/
def paramsMSH : List Param := [
  ⟨0x3101, (.u 1), .rw, 2, .none, 0, 0, 3, (.upto 7)⟩,
  ⟨0x3102, (.u 1), .rw, 2, .none, 0, 0, 3, (.upto 7)⟩,
  ⟨0x3103, (.u 1), .rw, 2, .none, 1, 96, 1, (.upto 1)⟩,
  ⟨0x3104, (.u 1), .rw, 2, .none, 0, 0, 5, (.upto 50)⟩,
  ⟨0x3105, (.u 1), .rw, 2, .none, 0, 0, 30, (.upto 100)⟩,
  ⟨0x3106, (.u 1), .ro, 0, .none, 1, 96, 0, .any⟩,
  ⟨0x3107, (.u 1), .ro, 0, .none, 1, 96, 0, .any⟩,
  ⟨0x3108, (.u 2), .ro, 0, .none, 0, 0, 0, .any⟩,
  ⟨0x3109, (.u 4), .ro, 0, .wrap, 0, 0, 0, .any⟩,
  ⟨0x310A, (.u 4), .ro, 0, .wrap, 0, 0, 0, .any⟩,
  ⟨0x310B, (.u 4), .ro, 0, .wrap, 0, 3, 0, .any⟩]

/-- Rows of group DPX. -/
def paramsDPX : List Param := [
  ⟨0x3801, (.u 1), .rwi, 3, .none, 0, 0, 0, (.upto 1)⟩,
  ⟨0x3802, (.u 1), .ro, 0, .none, 0, 0, 0, .any⟩,
  ⟨0x3803, (.u 1), .ro, 0, .none, 0, 0, 0, .any⟩,
  ⟨0x3804, (.u 1), .ro, 0, .none, 0, 0, 255, .any⟩,
  ⟨0x3805, (.u 4), .ro, 0, .stick, 0, 0, 0, .any⟩,
  ⟨0x3806, (.u 1), .ro, 0, .none, 0, 0, 0, .any⟩,
  ⟨0x3807, (.u 1), .rw, 3, .none, 0, 0, 1, (.upto 1)⟩,
  ⟨0x3808, (.u 2), .rw, 3, .none, 0, 0, 120, (.rng 10 3600)⟩,
  ⟨0x3809, (.u 2), .rw, 3, .none, 0, 0, 20, (.rng 1 1200)⟩,
  ⟨0x380A, (.u 1), .rw, 3, .none, 0, 0, 3, (.rng 1 100)⟩,
  ⟨0x380B, (.u 1), .act, 3, .none, 0, 0, 0, (.rng 1 3)⟩,
  ⟨0x380C, (.u 2), .rw, 3, .none, 0, 0, 30, (.upto 3600)⟩,
  ⟨0x380D, (.u 1), .rw, 3, .none, 0, 0, 3, (.upto 10)⟩,
  ⟨0x380E, (.u 1), .ro, 0, .none, 0, 0, 0, .any⟩,
  ⟨0x380F, (.u 1), .ro, 0, .none, 0, 0, 0, .any⟩,
  ⟨0x3810, (.block 16 16), .act, 3, .none, 0, 0, 0, .any⟩,
  ⟨0x3811, (.block 8 8), .ro, 0, .none, 0, 0, 0, .any⟩,
  ⟨0x3812, (.u 2), .ro, 0, .none, 0, 0, 0, .any⟩,
  ⟨0x3813, (.u 4), .ro, 0, .none, 0, 0, 0, .any⟩,
  ⟨0x3814, (.u 4), .ro, 0, .wrap, 0, 0, 0, .any⟩,
  ⟨0x3815, (.u 2), .ro, 0, .stick, 0, 0, 0, .any⟩,
  ⟨0x3816, (.u 2), .ro, 0, .stick, 0, 0, 0, .any⟩,
  ⟨0x3817, (.u 4), .ro, 0, .wrap, 0, 0, 0, .any⟩,
  ⟨0x3818, (.u 2), .ro, 0, .stick, 0, 0, 0, .any⟩,
  ⟨0x3819, (.u 2), .ro, 0, .stick, 0, 0, 0, .any⟩]

/-- Rows of group RNG. -/
def paramsRNG : List Param := [
  ⟨0x4001, (.u 1), .rw, 2, .none, 0, 1, 1, (.upto 1)⟩,
  ⟨0x4002, (.u 1), .ro, 0, .none, 0, 1, 0, .any⟩,
  ⟨0x4003, (.u 1), .ro, 0, .none, 0, 1, 0, .any⟩,
  ⟨0x4004, (.u 1), .rwi, 2, .none, 0, 1, 0, (.upto 31)⟩,
  ⟨0x4005, (.u 2), .rwi, 2, .none, 0, 1, 0, (.upto 2000)⟩,
  ⟨0x4006, (.u 2), .rwi, 2, .none, 0, 1, 0, (.upto 2000)⟩,
  ⟨0x4007, (.u 4), .rwi, 2, .none, 0, 0, 0, .any⟩,
  ⟨0x4008, (.u 4), .rwi, 2, .none, 0, 0, 4294967040, .any⟩,
  ⟨0x4009, (.u 4), .rwi, 2, .none, 0, 0, 0, .any⟩,
  ⟨0x400A, (.block 6 6), .ro, 0, .none, 0, 0, 0, .any⟩,
  ⟨0x400B, (.u 2), .rwi, 2, .none, 0, 0, 1, (.rng 1 4094)⟩,
  ⟨0x400C, (.block 8 8), .rwi, 2, .none, 0, 15, 0, .any⟩,
  ⟨0x400D, (.u 2), .rwi, 2, .none, 0, 2, 1, (.rng 1 4094)⟩,
  ⟨0x400E, (.u 1), .rwi, 2, .none, 0, 0, 0, (.upto 1)⟩,
  ⟨0x400F, (.block 16 16), .rwi, 2, .none, 0, 0, 0xffffffffffffffffffffffffffffffff, .any⟩,
  ⟨0x4010, (.u 1), .rwi, 2, .none, 0, 0, 0, (.upto 1)⟩,
  ⟨0x4011, (.u 2), .rwi, 2, .none, 0, 0, 0, .any⟩,
  ⟨0x4012, (.u 1), .rwi, 2, .none, 0, 0, 0, (.upto 1)⟩,
  ⟨0x4013, (.u 1), .ro, 0, .none, 0, 0, 0, .any⟩,
  ⟨0x4014, (.u 2), .rw, 2, .none, 0, 0, 3000, (.rng 500 10000)⟩,
  ⟨0x4015, (.u 2), .rw, 2, .none, 0, 0, 60, (.rng 10 3600)⟩,
  ⟨0x4016, (.u 2), .ro, 0, .stick, 0, 0, 0, .any⟩,
  ⟨0x4017, (.u 1), .rwi, 2, .none, 0, 0, 0, .any⟩,
  ⟨0x4018, (.u 1), .rwi, 2, .none, 0, 0, 0, (.upto 127)⟩,
  ⟨0x4019, (.u 1), .rwi, 2, .none, 0, 0, 0, (.upto 1)⟩,
  ⟨0x401A, (.u 1), .rwi, 2, .none, 0, 0, 0, (.upto 1)⟩,
  ⟨0x401B, (.u 1), .rw, 2, .none, 0, 0, 128, .any⟩,
  ⟨0x401C, (.u 1), .rw, 2, .none, 0, 0, 128, .any⟩,
  ⟨0x401D, (.s 1), .rw, 2, .none, 0, 0, 0, (.rng (-4) 1)⟩,
  ⟨0x401E, (.s 1), .rw, 2, .none, 0, 0, 1, (.upto 3)⟩,
  ⟨0x401F, (.s 1), .rw, 2, .none, 0, 0, 0, (.rng (-3) 5)⟩,
  ⟨0x4020, (.u 1), .rwi, 2, .none, 0, 0, 1, (.upto 1)⟩,
  ⟨0x4021, (.u 1), .ro, 0, .none, 0, 0, 0, .any⟩,
  ⟨0x4022, (.block 8 8), .ro, 0, .none, 0, 0, 0, .any⟩,
  ⟨0x4023, (.u 4), .ro, 0, .none, 0, 1, 0, .any⟩,
  ⟨0x4024, (.u 4), .ro, 0, .none, 0, 0, 0, .any⟩,
  ⟨0x4025, (.u 2), .rw, 2, .none, 0, 0, 20, (.rng 1 100)⟩,
  ⟨0x4026, (.u 4), .ro, 0, .wrap, 0, 2, 0, .any⟩,
  ⟨0x4027, (.u 4), .ro, 0, .wrap, 0, 2, 0, .any⟩,
  ⟨0x4028, (.u 4), .ro, 0, .wrap, 0, 1, 0, .any⟩,
  ⟨0x4029, (.u 4), .ro, 0, .wrap, 0, 2, 0, .any⟩,
  ⟨0x402A, (.u 2), .ro, 0, .stick, 0, 1, 0, .any⟩,
  ⟨0x402B, (.u 4), .ro, 0, .wrap, 0, 0, 0, .any⟩]

/-- Rows of group CAN. -/
def paramsCAN : List Param := [
  ⟨0x4801, (.u 1), .rw, 2, .none, 0, 2, 0, (.upto 2)⟩,
  ⟨0x4802, (.u 1), .ro, 0, .none, 0, 2, 0, .any⟩,
  ⟨0x4803, (.u 4), .rwi, 2, .none, 0, 2, 30339075, .any⟩,
  ⟨0x4804, (.u 4), .rwi, 2, .none, 0, 2, 2416129792, .any⟩,
  ⟨0x4805, (.u 1), .ro, 0, .none, 0, 2, 0, .any⟩,
  ⟨0x4806, (.u 1), .ro, 0, .none, 0, 2, 0, .any⟩,
  ⟨0x4807, (.u 1), .ro, 0, .none, 0, 2, 0, .any⟩,
  ⟨0x4808, (.u 1), .rw, 2, .none, 0, 2, 1, (.upto 1)⟩,
  ⟨0x4809, (.u 2), .rw, 2, .none, 0, 2, 100, (.upto 10000)⟩,
  ⟨0x480A, (.u 1), .rw, 2, .none, 0, 2, 3, (.rng 1 255)⟩,
  ⟨0x480B, (.u 1), .act, 1, .none, 0, 2, 0, (.rng 1 2)⟩,
  ⟨0x480C, (.block 16 16), .rw, 2, .none, 0, 191, 0, .any⟩,
  ⟨0x480D, (.block 88 88), .rw, 1, .none, 0, 191, 0, .any⟩,
  ⟨0x480E, (.u 1), .act, 1, .none, 0, 191, 0, (.rng 1 1)⟩,
  ⟨0x480F, (.u 1), .rw, 2, .none, 0, 2, 1, (.upto 1)⟩,
  ⟨0x4810, (.u 4), .ro, 0, .none, 0, 2, 0, .any⟩,
  ⟨0x4811, (.u 1), .rwi, 2, .none, 0, 2, 0, (.upto 2)⟩,
  ⟨0x4812, (.u 4), .rwi, 2, .none, 0, 2, 128, (.mask 0x9FFFFFFF)⟩,
  ⟨0x4813, (.u 2), .rwi, 2, .none, 0, 2, 100, (.rng 1 1000)⟩,
  ⟨0x4814, (.u 1), .ro, 0, .wrap, 0, 2, 0, .any⟩,
  ⟨0x4815, (.s 4), .ro, 0, .none, 0, 2, 0, .any⟩,
  ⟨0x4816, (.u 4), .ro, 0, .wrap, 0, 2, 0, .any⟩,
  ⟨0x4817, (.u 1), .rwi, 2, .none, 0, 0, 0, (.upto 1)⟩,
  ⟨0x4818, (.block 8 8), .rwi, 2, .none, 0, 0, 0, .any⟩,
  ⟨0x4819, (.u 1), .rwi, 2, .none, 0, 0, 128, (.upto 253)⟩,
  ⟨0x481A, (.u 1), .ro, 0, .none, 0, 0, 0, .any⟩,
  ⟨0x481B, (.u 1), .ro, 0, .none, 0, 0, 254, .any⟩,
  ⟨0x481C, (.u 4), .ro, 0, .wrap, 0, 2, 0, .any⟩,
  ⟨0x481D, (.u 4), .ro, 0, .wrap, 0, 2, 0, .any⟩,
  ⟨0x481E, (.u 4), .ro, 0, .wrap, 0, 2, 0, .any⟩,
  ⟨0x481F, (.u 4), .ro, 0, .wrap, 0, 2, 0, .any⟩,
  ⟨0x4820, (.u 2), .ro, 0, .stick, 0, 2, 0, .any⟩,
  ⟨0x4821, (.u 2), .ro, 0, .stick, 0, 2, 0, .any⟩,
  ⟨0x4822, (.u 4), .ro, 0, .stick, 0, 2, 0, .any⟩]

/-- Rows of group MTR. -/
def paramsMTR : List Param := [
  ⟨0x5001, (.block 8 8), .rwi, 3, .none, 1, 12, 0, .any⟩,
  ⟨0x5002, (.u 1), .rwi, 3, .none, 0, 15, 0, .any⟩,
  ⟨0x5003, (.u 4), .rw, 3, .none, 0, 15, 0, (.rng 1 4000000000)⟩,
  ⟨0x5004, (.s 4), .rw, 3, .none, 0, 15, 0, (.rng (-65536) 65536)⟩,
  ⟨0x5005, (.u 1), .rw, 3, .none, 0, 15, 0, .any⟩,
  ⟨0x5006, (.u 1), .rwi, 3, .none, 0, 0, 14, (.rng 10 18)⟩,
  ⟨0x5007, (.u 4), .rw, 3, .none, 0, 0, 5000, (.rng 100 1000000)⟩,
  ⟨0x5008, (.u 4), .rw, 3, .none, 0, 0, 2500, .any⟩,
  ⟨0x5009, (.u 2), .rwi, 3, .none, 0, 0, 100, (.rng 1 10000)⟩,
  ⟨0x500A, (.u 2), .rw, 2, .none, 0, 0, 60, (.rng 10 3600)⟩,
  ⟨0x500B, (.u 2), .rw, 2, .none, 0, 0, 20, (.rng 1 1000)⟩,
  ⟨0x500C, (.block 12 12), .ro, 0, .wrap, 1, 12, 0, .any⟩,
  ⟨0x500D, (.u 4), .ro, 0, .wrap, 1, 12, 0, .any⟩,
  ⟨0x500E, (.u 1), .act, 1, .none, 0, 0, 0, (.rng 1 1)⟩,
  ⟨0x500F, (.block 12 12), .ro, 0, .none, 1, 12, 0, .any⟩,
  ⟨0x5010, (.u 4), .ro, 0, .wrap, 0, 0, 0, .any⟩,
  ⟨0x5011, (.block 104 104), .ro, 0, .none, 1, 12, 0, .any⟩,
  ⟨0x5012, (.u 1), .ro, 0, .none, 1, 12, 0, .any⟩,
  ⟨0x5013, (.u 4), .ro, 0, .stick, 1, 12, 0, .any⟩,
  ⟨0x5014, (.u 4), .ro, 0, .none, 1, 12, 0, .any⟩,
  ⟨0x5015, (.u 4), .ro, 0, .stick, 0, 15, 0, .any⟩,
  ⟨0x5016, (.u 2), .rw, 1, .none, 0, 0, 0, .any⟩,
  ⟨0x5017, (.u 1), .rw, 1, .none, 0, 0, 95, (.rng 50 100)⟩,
  ⟨0x5018, (.u 2), .rw, 1, .none, 0, 0, 60, (.rng 10 3600)⟩,
  ⟨0x5019, (.u 4), .ro, 0, .wrap, 0, 0, 0, .any⟩]

/-- Rows of group DRK. -/
def paramsDRK : List Param := [
  ⟨0x5801, (.u 1), .ro, 0, .none, 0, 3, 0, .any⟩,
  ⟨0x5802, (.u 1), .rw, 2, .none, 0, 3, 0, (.upto 1)⟩,
  ⟨0x5803, (.s 4), .ro, 0, .none, 0, 3, 0, .any⟩,
  ⟨0x5804, (.s 4), .ro, 0, .none, 0, 3, 0, .any⟩,
  ⟨0x5805, (.s 4), .ro, 0, .none, 0, 3, 0, .any⟩,
  ⟨0x5806, (.s 4), .rw, 1, .none, 0, 3, 0, .any⟩,
  ⟨0x5807, (.u 2), .act, 1, .none, 0, 0, 0, .any⟩,
  ⟨0x5808, (.u 4), .rwi, 2, .none, 0, 3, 200000, (.rng 1 2000000)⟩,
  ⟨0x5809, (.u 4), .rwi, 2, .none, 0, 3, 400000, (.rng 100 100000000)⟩,
  ⟨0x580A, (.u 4), .rwi, 2, .none, 0, 3, 400000, (.rng 100 100000000)⟩,
  ⟨0x580B, (.u 4), .rwi, 2, .none, 0, 3, 2000000, (.upto 100000000)⟩,
  ⟨0x580C, (.u 2), .rwi, 2, .none, 0, 0, 250, (.rng 25 10000)⟩,
  ⟨0x580D, (.u 2), .rwi, 2, .none, 0, 0, 1000, (.rng 25 10000)⟩,
  ⟨0x580E, (.u 1), .rwi, 2, .none, 0, 3, 0, (.upto 1)⟩,
  ⟨0x580F, (.u 4), .rwi, 2, .none, 0, 3, 20000, .any⟩,
  ⟨0x5810, (.u 4), .rwi, 2, .none, 0, 3, 1000, .any⟩,
  ⟨0x5811, (.s 4), .rwi, 2, .none, 0, 3, 0, .any⟩,
  ⟨0x5812, (.u 1), .rwi, 2, .none, 0, 3, 2, (.upto 10)⟩,
  ⟨0x5813, (.u 1), .rwi, 2, .none, 0, 3, 0, (.mask 0x07)⟩,
  ⟨0x5814, (.u 1), .rw, 2, .none, 0, 0, 8, (.rng 2 255)⟩,
  ⟨0x5815, (.u 2), .rw, 2, .none, 0, 0, 100, (.rng 10 10000)⟩,
  ⟨0x5816, (.q 4), .rwi, 2, .none, 0, 3, 0, .any⟩,
  ⟨0x5817, (.u 4), .rw, 2, .none, 0, 3, 200, (.rng 1 1000000)⟩,
  ⟨0x5818, (.u 4), .ro, 0, .none, 0, 3, 0, .any⟩,
  ⟨0x5819, (.block 16 16), .rw, 2, .none, 1, 12, 0, .any⟩,
  ⟨0x581A, (.block 16 16), .rw, 2, .none, 0, 0, 0, .any⟩,
  ⟨0x581B, (.u 1), .rw, 1, .none, 0, 0, 95, (.rng 50 100)⟩,
  ⟨0x581C, (.u 1), .ro, 0, .none, 0, 0, 0, .any⟩,
  ⟨0x581D, (.u 1), .ro, 0, .none, 0, 3, 0, .any⟩,
  ⟨0x581E, (.u 2), .ro, 0, .stick, 0, 3, 0, .any⟩,
  ⟨0x581F, (.u 4), .ro, 0, .wrap, 0, 0, 0, .any⟩]

/-- Rows of group HST. -/
def paramsHST : List Param := [
  ⟨0x6001, (.u 1), .rwi, 2, .none, 0, 0, 1, (.upto 1)⟩,
  ⟨0x6002, (.u 2), .rwi, 2, .none, 0, 0, 108, (.rng 1 1000)⟩,
  ⟨0x6003, (.u 2), .rw, 2, .none, 0, 0, 300, (.rng 10 3600)⟩,
  ⟨0x6004, (.u 1), .rw, 3, .none, 0, 0, 5, (.rng 1 20)⟩,
  ⟨0x6005, (.u 2), .rw, 2, .none, 0, 0, 60, (.rng 10 3600)⟩,
  ⟨0x6006, (.u 2), .rw, 2, .none, 0, 0, 10, (.rng 1 300)⟩,
  ⟨0x6007, (.block 28 28), .ro, 0, .none, 0, 3, 0, .any⟩,
  ⟨0x6008, (.block 12 12), .ro, 0, .none, 0, 3, 0, .any⟩,
  ⟨0x6009, (.block 64 64), .ro, 0, .none, 0, 255, 0, .any⟩,
  ⟨0x600A, (.u 2), .ro, 0, .wrap, 0, 0, 0, .any⟩,
  ⟨0x600B, (.u 8), .ro, 0, .stick, 0, 0, 0, .any⟩,
  ⟨0x600C, (.u 4), .ro, 0, .stick, 0, 0, 0, .any⟩,
  ⟨0x600D, (.u 4), .ro, 0, .stick, 0, 0, 0, .any⟩,
  ⟨0x600E, (.u 4), .ro, 0, .wrap, 0, 1, 0, .any⟩,
  ⟨0x600F, (.u 4), .ro, 0, .wrap, 0, 0, 0, .any⟩,
  ⟨0x6010, (.u 4), .ro, 0, .wrap, 0, 0, 0, .any⟩,
  ⟨0x6011, (.u 4), .ro, 0, .wrap, 1, 8, 0, .any⟩,
  ⟨0x6012, (.u 4), .ro, 0, .wrap, 0, 1, 0, .any⟩,
  ⟨0x6013, (.u 4), .ro, 0, .wrap, 0, 1, 0, .any⟩,
  ⟨0x6014, (.u 4), .ro, 0, .wrap, 0, 0, 0, .any⟩]

/-- Rows of group CHU. -/
def paramsCHU : List Param := [
  ⟨0x6101, (.u 2), .rw, 3, .none, 0, 15, 50, (.rng 1 65000)⟩,
  ⟨0x6102, (.u 2), .rw, 3, .none, 0, 15, 20, (.rng 1 65000)⟩,
  ⟨0x6103, (.u 1), .ro, 0, .none, 0, 15, 0, .any⟩,
  ⟨0x6104, (.u 1), .ro, 0, .none, 0, 15, 0, .any⟩,
  ⟨0x6105, (.u 4), .ro, 0, .wrap, 0, 15, 0, .any⟩,
  ⟨0x6106, (.u 4), .ro, 0, .wrap, 0, 15, 0, .any⟩,
  ⟨0x6107, (.u 4), .ro, 0, .wrap, 0, 15, 0, .any⟩,
  ⟨0x6108, (.u 4), .ro, 0, .wrap, 0, 15, 0, .any⟩,
  ⟨0x6109, (.u 4), .ro, 0, .wrap, 0, 15, 0, .any⟩,
  ⟨0x610A, (.u 4), .ro, 0, .stick, 0, 15, 0, .any⟩,
  ⟨0x610B, (.u 2), .ro, 0, .stick, 0, 15, 0, .any⟩]

/-- Rows of group DSP. -/
def paramsDSP : List Param := [
  ⟨0x6801, (.u 2), .rw, 2, .none, 0, 0, 20, (.upto 1000)⟩,
  ⟨0x6802, (.u 2), .rw, 2, .none, 0, 0, 5000, (.rng 500 50000)⟩,
  ⟨0x6803, (.block 16 16), .ro, 0, .none, 0, 255, 0, .any⟩,
  ⟨0x6804, (.block 8 8), .ro, 0, .none, 0, 11, 0, .any⟩,
  ⟨0x6805, (.u 2), .ro, 0, .none, 0, 31, 0, .any⟩,
  ⟨0x6806, (.u 4), .ro, 0, .wrap, 0, 0, 0, .any⟩,
  ⟨0x6807, (.u 4), .ro, 0, .wrap, 0, 0, 0, .any⟩,
  ⟨0x6808, (.u 4), .ro, 0, .wrap, 0, 0, 0, .any⟩,
  ⟨0x6809, (.u 4), .ro, 0, .wrap, 0, 0, 0, .any⟩,
  ⟨0x680A, (.u 4), .ro, 0, .none, 0, 0, 0, .any⟩]

/-- Rows of group TLG. -/
def paramsTLG : List Param := [
  ⟨0x6901, (.u 1), .rw, 2, .none, 0, 0, 0, (.mask 0x3F)⟩,
  ⟨0x6902, (.block 1976 1976), .ro, 0, .stick, 0, 0, 0, .any⟩,
  ⟨0x6903, (.block 8 8), .ro, 0, .none, 0, 383, 0, .any⟩,
  ⟨0x6904, (.u 2), .act, 3, .none, 0, 0, 0, .any⟩,
  ⟨0x6905, (.u 4), .ro, 0, .stick, 0, 0, 0, .any⟩,
  ⟨0x6906, (.u 8), .ro, 0, .wrap, 0, 0, 0, .any⟩]

/-- Rows of group LOG. -/
def paramsLOG : List Param := [
  ⟨0x7001, (.u 1), .ro, 0, .none, 0, 0, 0, .any⟩,
  ⟨0x7002, (.u 4), .ro, 0, .none, 0, 1, 0, .any⟩,
  ⟨0x7003, (.u 4), .ro, 0, .none, 0, 1, 0, .any⟩,
  ⟨0x7004, (.u 4), .ro, 0, .wrap, 0, 1, 0, .any⟩,
  ⟨0x7005, (.u 4), .ro, 0, .none, 0, 1, 0, .any⟩,
  ⟨0x7006, (.u 4), .ro, 0, .none, 0, 1, 0, .any⟩,
  ⟨0x7007, (.u 2), .ro, 0, .none, 0, 1, 0, .any⟩,
  ⟨0x7008, (.u 2), .ro, 0, .stick, 0, 1, 0, .any⟩,
  ⟨0x7009, (.u 1), .rw, 2, .none, 0, 0, 0, (.upto 4)⟩,
  ⟨0x700A, (.u 4), .ro, 0, .wrap, 0, 0, 0, .any⟩,
  ⟨0x700B, (.u 4), .ro, 0, .stick, 0, 0, 0, .any⟩,
  ⟨0x700C, (.u 4), .ro, 0, .stick, 0, 0, 0, .any⟩,
  ⟨0x700D, (.u 4), .ro, 0, .stick, 0, 0, 0, .any⟩,
  ⟨0x700E, (.u 4), .ro, 0, .wrap, 0, 0, 0, .any⟩,
  ⟨0x700F, (.u 4), .ro, 0, .wrap, 0, 0, 0, .any⟩,
  ⟨0x7010, (.u 2), .ro, 0, .none, 0, 0, 0, .any⟩,
  ⟨0x7011, (.u 2), .ro, 0, .stick, 0, 0, 0, .any⟩,
  ⟨0x7012, (.u 2), .ro, 0, .none, 0, 0, 0, .any⟩,
  ⟨0x7013, (.u 2), .ro, 0, .stick, 0, 0, 0, .any⟩,
  ⟨0x7014, (.u 8), .ro, 0, .stick, 0, 0, 0, .any⟩,
  ⟨0x7015, (.block 4 4), .ro, 0, .none, 0, 65535, 0, .any⟩]

/-- Rows of group PWR. -/
def paramsPWR : List Param := [
  ⟨0x7801, (.u 1), .ro, 0, .none, 0, 0, 0, .any⟩,
  ⟨0x7802, (.block 128 128), .ro, 0, .none, 0, 0, 0, .any⟩,
  ⟨0x7803, (.u 4), .ro, 0, .stick, 0, 0, 0, .any⟩,
  ⟨0x7804, (.block 20 20), .ro, 0, .none, 0, 0, 0, .any⟩,
  ⟨0x7805, (.u 2), .ro, 0, .none, 0, 0, 0, .any⟩,
  ⟨0x7806, (.u 2), .ro, 0, .stick, 0, 0, 0, .any⟩,
  ⟨0x7807, (.u 2), .ro, 0, .stick, 0, 0, 0, .any⟩,
  ⟨0x7808, (.u 1), .rw, 2, .none, 0, 0, 10, (.rng 1 200)⟩,
  ⟨0x7809, (.u 1), .act, 3, .none, 0, 0, 0, (.rng 1 1)⟩,
  ⟨0x780A, (.u 1), .rw, 2, .none, 0, 0, 1, (.mask 0x07)⟩,
  ⟨0x780B, (.u 1), .rw, 2, .none, 0, 0, 10, (.mask 0x0F)⟩,
  ⟨0x780C, (.u 8), .rw, 2, .none, 0, 0, 0, .any⟩,
  ⟨0x780D, (.u 1), .ro, 0, .none, 0, 0, 0, .any⟩,
  ⟨0x780E, (.u 1), .ro, 0, .none, 0, 0, 0, .any⟩,
  ⟨0x780F, (.u 1), .ro, 0, .none, 0, 0, 0, .any⟩,
  ⟨0x7810, (.u 4), .ro, 0, .wrap, 0, 0, 0, .any⟩,
  ⟨0x7811, (.u 2), .ro, 0, .stick, 0, 0, 0, .any⟩,
  ⟨0x7812, (.u 2), .ro, 0, .stick, 0, 0, 0, .any⟩,
  ⟨0x7813, (.u 2), .ro, 0, .stick, 0, 0, 0, .any⟩]

/-- Rows of group SEC. -/
def paramsSEC : List Param := [
  ⟨0x7C01, (.u 1), .ro, 0, .none, 0, 0, 0, .any⟩,
  ⟨0x7C02, (.u 1), .act, 3, .none, 0, 0, 0, (.rng 1 1)⟩,
  ⟨0x7C03, (.block 17 17), .act, 3, .none, 0, 0, 0, .any⟩,
  ⟨0x7C04, (.block 120 120), .ro, 0, .none, 0, 0, 0, .any⟩,
  ⟨0x7C05, (.block 24 24), .ro, 0, .none, 0, 0, 0, .any⟩,
  ⟨0x7C06, (.u 1), .ro, 0, .none, 0, 0, 0, .any⟩,
  ⟨0x7C07, (.block 64 64), .ro, 0, .none, 0, 0, 0, .any⟩,
  ⟨0x7C08, (.u 1), .act, 3, .none, 0, 0, 0, (.rng 1 1)⟩,
  ⟨0x7C09, (.u 1), .act, 3, .none, 0, 0, 0, (.rng 1 1)⟩,
  ⟨0x7C0A, (.u 1), .ro, 0, .none, 0, 0, 0, .any⟩,
  ⟨0x7C0B, (.u 2), .rw, 3, .none, 0, 0, 1800, (.rng 60 65535)⟩,
  ⟨0x7C0C, (.u 1), .ro, 0, .stick, 0, 0, 0, .any⟩,
  ⟨0x7C0D, (.u 2), .ro, 0, .stick, 0, 0, 0, .any⟩,
  ⟨0x7C0E, (.u 2), .ro, 0, .stick, 0, 0, 0, .any⟩]

/-- The rows of the group an identifier's upper byte names (R444, Table 17.1). -/
def paramsOf (group : Nat) : List Param :=
  match group with
  | 0x01 => paramsSYS
  | 0x02 => paramsTIM
  | 0x03 => paramsCYC
  | 0x10 => paramsGNS
  | 0x11 => paramsTRK
  | 0x12 => paramsSTA
  | 0x18 => paramsRTK
  | 0x20 => paramsJOB
  | 0x21 => paramsSLT
  | 0x22 => paramsCOV
  | 0x28 => paramsSTP
  | 0x30 => paramsAIR
  | 0x31 => paramsMSH
  | 0x38 => paramsDPX
  | 0x40 => paramsRNG
  | 0x48 => paramsCAN
  | 0x50 => paramsMTR
  | 0x58 => paramsDRK
  | 0x60 => paramsHST
  | 0x61 => paramsCHU
  | 0x68 => paramsDSP
  | 0x69 => paramsTLG
  | 0x70 => paramsLOG
  | 0x78 => paramsPWR
  | 0x7C => paramsSEC
  | _ => []

/-- The row of a parameter identifier, or none for an identifier outside its group's items (R444). -/
def paramOf (id : Nat) : Option Param := (paramsOf (id / 256)).find? (·.id == id)

/-- The width of a value on the wire: the largest length, for a block whose length varies (Table 17.2). -/
def VType.width : VType → Nat
  | .u n | .s n | .q n | .chars n => n
  | .stamp => 8
  | .hubtime => 10
  | .block _ hi => hi

/-- Whether an instance exists for a row (R445); key instances 97 to 111 do not (R272). -/
def Param.hasInst (p : Param) (i : Nat) : Bool :=
  p.lo ≤ i && i ≤ p.hi &&
    !((p.id == P.AIR_KEY || p.id == P.AIR_ROLL || p.id == P.AIR_EPOCH) && 97 ≤ i && i ≤ 111)

/-- Reset values that differ from instance to instance (R518 and the tables the rows name). -/
def resetSpecial (id i : Nat) : Option Nat :=
  match id with
  | 0x100B => some (nth [0, 2, 0, 3, 1, 1, 3, 2, 3, 3, 2, 1, 2, 3, 3, 3, 0, 2, 0, 3, 2, 0, 0, 3] i)          -- Table 3.3
  | 0x121E => some (3600 + 150 * (i % 9))
  | 0x3003 => some (if i = 0 then 1 else 0)
  | 0x300E => some ((i + 3) % 4)
  | 0x3802 => some 1                           -- PRIMARY strap of a single unit, tied high (R273)
  | 0x4004 => some i
  | 0x400C => some (if i = 0 then 1 + 7 * 2 ^ 16 + 7 * 2 ^ 24 else 0)
  | 0x480C => some (if i % 64 = 0 then 0x0801 else 0)   -- R317
  | 0x5003 => some (if i < 4 then 47684 else 3815)
  | 0x7006 => some (if i = 0 then 128 * 2 ^ 20 else 16 * 2 ^ 20)   -- Table 16.3
  | 0x7007 => some (if i = 0 then 16 else 4)
  | _ => none

/-- The reset value of an item's instance. -/
def resetOf (id i : Nat) : Nat :=
  match resetSpecial id i with
  | some v => v
  | none => match paramOf id with
    | some p => p.reset
    | none => 0

/-- Items the configuration digest covers (R451, last column of Table 17.1); SEC's part is the key hashes (R453). -/
def digestItem (p : Param) : Bool :=
  let rwAny := p.acc == .rw || p.acc == .rwi
  match p.id / 256 with
  | 0x02 => p.id == 0x0209 || p.id == 0x0214
  | 0x03 => p.id == 0x0301
  | 0x10 => p.id == 0x100C
  | 0x12 => rwAny
  | 0x18 => p.acc == .rw
  | 0x20 => rwAny || p.id == 0x2004
  | 0x21 => p.acc == .rw
  | 0x22 => rwAny && p.id != 0x2210
  | 0x28 => p.acc == .rwi
  | 0x50 => rwAny
  | 0x58 => p.id == 0x5819 || p.id == 0x581A || p.id == 0x581B
  | 0x60 => p.id == 0x6003 || p.id == 0x6004
  | 0x7C => p.id == 0x7C05
  | _ => false

end Sys2Proof.Machine
end

