-- ==== Sys2Proof/Machine/State.lean ====
section
/-!
DEFINITION. The state of the block as plain data, why a step can stop, and the state after reset.
-/
namespace Sys2Proof.Machine

/-- The values of parameters by key (identifier × 65,536 + instance), keys strictly rising, no entry equal to its reset value. -/
abbrev RegFile := List (Nat × Nat)

/-- The device. -/
structure Dev where
  now : Nat := 0
  regs : RegFile := []
  snap : RegFile := []
  committedOnce : Bool := false
  sticky : List Nat := []
  staged : List Staged := []
  ctrls : List (Nat × Nat × Nat × Bytes) := []
  out : List Output := []
  freeIx : Nat := 0
  tim : Tim := {}
  cyc : Cyc := {}
  host : HostSt := {}
  chutes : List Chute := List.replicate 16 {}
  rcd : Recorder := {}
  stp : Stop := {}
  air : Air := {}
  gns : Gns := {}
  chiselOut : List Nat := []
  ring : RingSt := {}
  can : CanSt := {}
  mtr : MtrSt := {}
  drk : DrkSt := {}
  dsp : DspSt := {}
  tlg : TlgSt := {}
  pwr : Pwr := {}
  peer : Peer := {}
  com : Com := {}
  deriving DecidableEq, Repr, Inhabited

/-- Why the machine stops.  No meaning raises this fault: the manual gives every command an effect in every state. -/
inductive Fault where
  /-- Raised by no meaning; kept so that the type is closed and has a name to grow from.  Safe. -/
  | none
  deriving DecidableEq, Repr

/-- Why a command has no meaning. -/
inductive Refusal where
  /-- Raised by Dispatch for a row that has no meaning yet.  Safe. -/
  | notModelled (mnemonic : String)
  deriving DecidableEq, Repr

/-- The state: the device and the commands that are waiting, first in, first out. -/
structure State where
  dev : Dev := {}
  pending : List Instr := []
  deriving DecidableEq, Repr

/-- The block right after a cold start from power-up, with nothing waiting. -/
def State.reset : State := { dev := {}, pending := [] }

end Sys2Proof.Machine
end

