-- ==== Sys2Proof/Machine/Ops.lean ====
section
/-!
DEFINITION. The named operations every engine uses: parameters, counters, notices, records, mail frames out, fault reports,
admission of inputs, self-diagnosis verdicts and giving up control.
-/
namespace Sys2Proof.Machine
open Sys2Proof

/-! ### Parameters -/

/-- The key of an item's instance in the register file; instance numbers have 16 bits (R378). -/
def regKey (id i : Nat) : Nat := id * 65536 + i % 65536

/-- The value a key reads as when the register file does not list it. -/
def resetVal (k : Nat) : Nat := resetOf (k / 65536) (k % 65536)

/-- First value listed for a key. -/
def Regs.find (k : Nat) : RegFile → Option Nat
  | [] => none
  | (j, v) :: rs => if j = k then some v else Regs.find k rs

/-- The value of a key. -/
def Regs.get (r : RegFile) (k : Nat) : Nat :=
  match Regs.find k r with
  | some v => v
  | none => resetVal k

/-- A key's value placed in rising order. -/
def Regs.insert (k v : Nat) : RegFile → RegFile
  | [] => [(k, v)]
  | (j, w) :: rs => if k < j then (k, v) :: (j, w) :: rs else if k = j then (k, v) :: rs else (j, w) :: Regs.insert k v rs

/-- Every entry of a key removed. -/
def Regs.erase (k : Nat) : RegFile → RegFile
  | [] => []
  | (j, w) :: rs => if j = k then Regs.erase k rs else (j, w) :: Regs.erase k rs

/-- The register file with a key's value set; a value equal to the reset value is not listed. -/
def Regs.put (r : RegFile) (k v : Nat) : RegFile :=
  if v = resetVal k then Regs.erase k r else Regs.insert k v r

/-- Canonical form: keys strictly rising above a bound, no entry equal to its reset value. -/
def Regs.wfFrom : Nat → RegFile → Bool
  | _, [] => true
  | b, (k, v) :: rs => b ≤ k && v != resetVal k && Regs.wfFrom (k + 1) rs

/-- The canonical form of a register file. -/
def Regs.wf (r : RegFile) : Bool := Regs.wfFrom 0 r

/-- Present (last accepted) value of an item's instance. -/
def Dev.rd (d : Dev) (id : Nat) (i : Nat := 0) : Nat := Regs.get d.regs (regKey id i)

/-- Present value as a signed number of the item's width. -/
def Dev.rdS (d : Dev) (id : Nat) (i : Nat := 0) : Int :=
  match paramOf id with
  | some p => toS (8 * p.ty.width) (d.rd id i)
  | none => 0

/-- An item's instance set. -/
def Dev.wr (d : Dev) (id i v : Nat) : Dev := { d with regs := Regs.put d.regs (regKey id i) v }

/-- An item's instance set to a signed number of its width. -/
def Dev.wrS (d : Dev) (id i : Nat) (z : Int) : Dev :=
  match paramOf id with
  | some p => d.wr id i (ofS (8 * p.ty.width) z)
  | none => d

/-- The value of a configuration item in force: the old value while an accepted write waits for its commit (R41). -/
def Dev.cf (d : Dev) (id : Nat) (i : Nat := 0) : Nat :=
  match d.staged.find? (fun s => s.key == regKey id i) with
  | some s => s.old
  | none => d.rd id i

/-- The value in force as a signed number. -/
def Dev.cfS (d : Dev) (id : Nat) (i : Nat := 0) : Int :=
  match paramOf id with
  | some p => toS (8 * p.ty.width) (d.cf id i)
  | none => 0

/-- The value of an item as bytes of its wire width. -/
def Dev.wire (d : Dev) (id i : Nat) : Bytes :=
  match paramOf id with
  | some p => le p.ty.width (d.rd id i)
  | none => []

/-- Whether a counter's sticky flag is set (R11). -/
def Dev.isSticky (d : Dev) (id : Nat) (i : Nat := 0) : Bool := d.sticky.contains (regKey id i)

/-- A counter of `w` bytes advanced by one under its mark (R11): W wraps, S stays at the largest value and sets its flag. -/
def Dev.incAt (d : Dev) (id i w : Nat) (c : Cnt) : Dev :=
  let v := d.rd id i
  match c with
  | .stick =>
    if v + 1 < 256 ^ w then d.wr id i (v + 1)
    else if d.isSticky id i then d else { d with sticky := regKey id i :: d.sticky }
  | _ => d.wr id i ((v + 1) % 256 ^ w)

/-- A counter advanced by one. -/
def Dev.inc (d : Dev) (id : Nat) (i : Nat := 0) : Dev :=
  match paramOf id with
  | some p => d.incAt id i p.ty.width p.cnt
  | none => d

/-- A counter advanced `n` times. -/
def Dev.incBy (d : Dev) (id i : Nat) : Nat → Dev
  | 0 => d
  | n + 1 => (d.inc id i).incBy id i n

/-- A W counter advanced by `n` at once. -/
def Dev.addW (d : Dev) (id i n : Nat) : Dev :=
  match paramOf id with
  | some p => d.wr id i ((d.rd id i + n) % 256 ^ p.ty.width)
  | none => d

/-- The largest value seen, held to the item's width (the `..._MAX` items). -/
def Dev.maxTo (d : Dev) (id i v : Nat) : Dev :=
  match paramOf id with
  | some p => d.wr id i (max (d.rd id i) (min v (256 ^ p.ty.width - 1)))
  | none => d

/-- A fresh free value: the manual states none. -/
def Dev.free (d : Dev) : Nat × Dev := (Config.freeValue d.freeIx, { d with freeIx := d.freeIx + 1 })

/-- The device at an instant: time never runs back within a step. -/
def Dev.at (d : Dev) (t : Nat) : Dev := { d with now := max d.now t }

/-- The Chute that what leaves the device passes (Table 14.10), where the host link is not its path. -/
def Output.chute : Output → Option Nat
  | .air .. => some 5
  | .safe .. => some 6
  | .can .. => some 8
  | .eth .. => some 10
  | .link .. => some 14
  | _ => none

/-- A Chute in FAULT carries nothing (R395). -/
def Dev.chuteDown (d : Dev) (i : Nat) : Bool := d.rd P.CHU_STATE i != 0

/-- Something leaves the device, unless its Chute has failed. -/
def Dev.emit (d : Dev) (o : Output) : Dev :=
  match o.chute with
  | some i => if d.chuteDown i then d else { d with out := d.out ++ [o] }
  | none => { d with out := d.out ++ [o] }

/-- A FAULT of Chute 0 to 3 removes the host link on both transports (R395). -/
def Dev.hostDown (d : Dev) : Bool := d.chuteDown 0 || d.chuteDown 1 || d.chuteDown 2 || d.chuteDown 3

/-- Conditional change. -/
def Dev.when (d : Dev) (c : Bool) (f : Dev → Dev) : Dev := if c then f d else d

/-- The unit is ACTIVE (Table 10.2). -/
def Dev.active (d : Dev) : Bool := d.rd P.DPX_STATE == 1

/-- The device is in replay mode (R45). -/
def Dev.replay (d : Dev) : Bool := d.rd P.CYC_REPLAY_STATE != 0

/-- The side byte of digest items, beacons and heartbeats. -/
def Dev.side (d : Dev) : Nat := d.rd P.DPX_SIDE

/-- Hub time is valid: the time state has left UNSET (Table 2.2). -/
def Dev.timeSet (d : Dev) : Bool := d.rd P.TIM_STATE != 0

/-! ### Mail frames out -/

/-- Index and content of the slot an endpoint holds (R385). -/
def slotOf (ep : Ep) (l : List (Option Session)) : Option (Nat × Session) :=
  (mapFrom (fun i s => (i, s)) 0 l).findSome? fun (i, s) =>
    match s with
    | some s => if s.ep = ep then some (i, s) else none
    | none => none

/-- The first 8 bytes of the frame whose `SMAC` is formed (Table 14.1). -/
def mailHead (kind len tag mbx flags : Nat) : Bytes :=
  le 1 0xC3 ++ le 1 kind ++ le 2 len ++ le 2 tag ++ le 1 mbx ++ le 1 flags

/-- `SMAC` (R384). -/
def smac (ks head payload : Bytes) (scnt : Nat) : Bytes := (hmac ks (head ++ payload ++ le 4 scnt)).take 8

/-- A mail frame put on its transport; on serial it waits while `HU_CTS` is high (R368). -/
def Dev.putMail (d : Dev) (ep : Ep) (o : Output) : Dev :=
  if ep.tr = 1 && d.host.ctsStop then { d with host := { d.host with txHeld := d.host.txHeld ++ [o] } } else d.emit o

/-- One frame to an endpoint, under the session trailer where the endpoint holds an open session (R384, R386). -/
def Dev.sendFrame (d : Dev) (kind : Nat) (ep : Ep) (tag mbx flags : Nat) (payload : Bytes) (trailer : Bool) : Dev :=
  if d.hostDown then d
  else
    let d1 := d.inc P.HST_TX_FRAMES ep.tr
    match slotOf ep d1.host.slots with
    | some (i, s) =>
      if trailer && !s.pending then
        let n := s.devCnt + 1
        let fl := setBit flags 0 true
        let mac := smac s.ks (mailHead kind (payload.length + 12) tag mbx fl) payload n
        { d1 with host := { d1.host with slots := d1.host.slots.set i (some { s with devCnt := n }) } }.putMail ep
          (.mail kind ep tag mbx fl payload (le 4 n ++ mac))
      else d1.putMail ep (.mail kind ep tag mbx flags payload [])
    | none => d1.putMail ep (.mail kind ep tag mbx flags payload [])

/-- Largest `LENGTH` of a transport (R369). -/
def transportLimit (tr : Nat) : Nat := if tr = 1 then 4096 else 1400

/-- Room for a reply's body in one frame: the limit less the head and the trailer. -/
def Dev.room (d : Dev) (ep : Ep) : Nat :=
  transportLimit ep.tr - 4 -
    (match slotOf ep d.host.slots with
     | some (_, s) => if s.pending then 0 else 12
     | none => 0)

/-- A reply's body sent in frames of at most `room` bytes, `MORE` on all but the last (R373). -/
def Dev.sendParts (d : Dev) (ep : Ep) (tag mbx : Nat) (head : Bytes) (trailer : Bool) : List Bytes → Dev
  | [] => d
  | [p] => d.sendFrame 2 ep tag mbx 0 (head ++ p) trailer
  | p :: ps => (d.sendFrame 2 ep tag mbx 2 (head ++ p) trailer).sendParts ep tag mbx head trailer ps

/-- Entries of a GET reply gathered into parts of at most `room` bytes: it is split only between entries (R373). -/
def gather (room : Nat) : List Bytes → Bytes → List Bytes
  | [], cur => [cur]
  | e :: es, cur => if cur.length + e.length ≤ room || cur.isEmpty then gather room es (cur ++ e) else cur :: gather room es e

/-- The entries of a GET reply body: `ID`, `INST`, `STATUS`, reserved, `LEN`, value (R378). -/
def getEntries : Nat → Bytes → List Bytes
  | 0, _ => []
  | n + 1, bs => if bs.isEmpty then [] else let l := 8 + fld bs 6 2; bs.take l :: getEntries n (bs.drop l)

/-- A reply sent (R373). -/
def Dev.sendReply (d : Dev) (ep : Ep) (tag mbx op : Nat) (r : Reply) (trailer : Bool) : Dev :=
  let head := le 1 op ++ le 1 r.status ++ le 2 0
  let room := d.room ep
  let parts := if r.body.length ≤ room then [r.body]
    else if op = 1 then gather room (getEntries 64 r.body) [] else blocksOf room r.body
  d.sendParts ep tag mbx head trailer parts

/-- A stream item offered to every endpoint subscribed to its kind (R386, R388): one item a frame. -/
def Dev.stream (d : Dev) (kind : Nat) (item : Bytes) : Dev :=
  let n := nth d.host.sseq kind
  let d1 := { d with host := { d.host with sseq := d.host.sseq.set kind ((n + 1) % 2 ^ 32) } }.emit (.item kind item)
  let pay := le 1 kind ++ le 1 0 ++ le 2 1 ++ le 4 n ++ le 2 item.length ++ item
  (List.range d.host.subs.length).foldl (fun d i =>
    let s := nth d.host.subs i
    if bitOf s.mask kind then
      if pay.length ≤ transportLimit s.ep.tr - 12 then
        let lost := bitOf s.lost kind
        { d with host := { d.host with subs := upd d.host.subs i fun s => { s with lost := setBit s.lost kind false } } }.sendFrame
          4 s.ep 0 3 (if lost then 4 else 0) pay true
      else
        { d with host := { d.host with subs := upd d.host.subs i fun s => { s with lost := setBit s.lost kind true } } }.inc
          P.HST_STREAM_DROP kind
    else d) d1

/-! ### Records and notices -/

/-- Record codes of the safety class (R420). -/
def safetyCode (code : Nat) : Bool :=
  code / 256 == 0x28 || code / 256 == 0x38 || code / 256 == 0x7C || code == 0x0286 || code == 0x0287 || code == 0x6880
    || code == 0x7082 || code == 0x7882 || code == 0x7884

/-- The severity of a code: the two the manual states (R436, R439), else free. -/
def sevOf (code : Nat) : Nat := if code = 0x7080 || code = 0x7082 then 5 else Config.severity code % 8

/-- Bytes a record takes in a region (R426). -/
def Rec.stored (r : Rec) : Nat := (20 + r.body.length + 12 + 3) / 4 * 4

/-- Whether a record repeats another (R429). -/
def Rec.repeats (r o : Rec) : Bool :=
  r.safety == o.safety && r.sev == o.sev && r.flags == o.flags && r.code == o.code && r.source == o.source && r.body == o.body

/-- The open record of a class, newest last: in the buffer, else in its region. -/
def markRepeat (stamp : Nat) (r : Rec) : Rec :=
  { r with rep := min 65535 (r.rep + 1), last := stamp }

/-- The last record of a class in a list replaced by its image under `f`. -/
def updLast (safety : Bool) (f : Rec → Rec) (l : List Rec) : List Rec :=
  match l.reverse.findIdx? (fun r => r.safety == safety) with
  | some i => upd l (l.length - 1 - i) f
  | none => l

/-- Bytes the volatile buffer holds (R423). -/
def bufBytes (l : List Rec) : Nat := l.foldl (fun n r => n + 20 + r.body.length) 0

/-- The newest record of a class in the volatile buffer. -/
def Recorder.inBuf (g : Recorder) (safety : Bool) : Option Rec := g.buf.reverse.find? fun x => x.safety == safety

/-- The newest record of a class: in the buffer, else in its region. -/
def Recorder.newest (g : Recorder) (safety : Bool) : Option Rec :=
  match g.inBuf safety with
  | some x => some x
  | none =>
    let region := nth g.regions (bit safety)
    if region.lastWords then g.lw.getLast? else region.recs.getLast?

/-- Whether a record repeats the open record of its class (R429). -/
def Recorder.isRepeat (g : Recorder) (r : Rec) : Bool :=
  match g.newest r.safety with
  | some o => o.isOpen && r.repeats o
  | none => false

/-- A change of the newest record of a class, wherever it stands. -/
def Recorder.onNewest (g : Recorder) (safety : Bool) (f : Rec → Rec) : Recorder :=
  if (g.inBuf safety).isSome then { g with buf := updLast safety f g.buf }
  else if (nth g.regions (bit safety)).lastWords then { g with lw := updLast safety f g.lw }
  else { g with regions := upd g.regions (bit safety) fun x => { x with recs := updLast safety f x.recs } }

/-- Whether a body finds no room in the buffer, or after power failure in the image (R423, R437). -/
def Recorder.full (g : Recorder) (body : Bytes) : Bool :=
  if g.pfail then 81920 < (match g.image with | some l => bufBytes l | none => 0) + 20 + body.length else 65536 < bufBytes g.buf + 20 + body.length

/-- A new record entered: the record before it of its class is no longer open. -/
def Recorder.enter (g : Recorder) (x : Rec) : Recorder :=
  let g1 := g.onNewest x.safety fun y => { y with isOpen := false }
  { g1 with
    buf := g1.buf ++ [x]
    image := if g.pfail then g.image.map (· ++ [x]) else g.image
    imageTail := if g.pfail then g.imageTail + 1 else g.imageTail }

/-- A record enters the Recorder (R423, R425, R429, R437): a repeat of the open record counts on it; else the record takes the
next sequence of its region, or is dropped at a full buffer (after power failure, at a full image). -/
def Dev.record (d : Dev) (r : Rec) : Dev :=
  if d.chuteDown 15 then d
  else if d.rcd.isRepeat r then { d with rcd := d.rcd.onNewest r.safety (markRepeat r.stamp) }.inc P.LOG_COALESCED
  else if d.rcd.full r.body then d.inc P.LOG_BUF_DROPS
  else
    let x := { r with seq := d.rd P.LOG_NEXT (bit r.safety), rep := 0, last := r.stamp, repF := 0, lastF := r.stamp, isOpen := true }
    { d.inc P.LOG_NEXT (bit r.safety) with rcd := d.rcd.enter x }

/-- The engine number a group's records name as their source (Table 0.2). -/
def engineOf (code : Nat) : Nat :=
  match code / 256 with
  | 0x02 => 12 | 0x03 => 1 | 0x10 => 2 | 0x11 => 2 | 0x12 => 2 | 0x18 => 3 | 0x20 => 4 | 0x21 => 4 | 0x22 => 5 | 0x28 => 6
  | 0x30 => 7 | 0x31 => 7 | 0x38 => 15 | 0x40 => 8 | 0x48 => 9 | 0x50 => 10 | 0x58 => 11 | 0x60 => 17 | 0x61 => 13 | 0x68 => 1
  | 0x69 => 16 | 0x70 => 14 | 0x78 => 0 | 0x7C => 18 | _ => 1

/-- The `CLSEV` byte (Table 16.2). -/
def Rec.clsev (r : Rec) : Nat := bit r.safety * 128 + r.sev % 8

/-- A record's header and body with its sequence (Table 16.1). -/
def Rec.bytes (r : Rec) : Bytes :=
  le 1 r.body.length ++ le 1 r.clsev ++ le 1 r.flags ++ le 1 0 ++ le 2 r.code ++ le 2 r.source ++ le 4 r.seq ++
    le 8 (stamp64 r.stamp) ++ r.body

/-- The committed encoding of a commit log record: without sequence or repeat information (R35, R431). -/
def Rec.committed (r : Rec) : Bytes :=
  le 1 r.body.length ++ le 1 r.clsev ++ le 1 r.flags ++ le 1 0 ++ le 2 r.code ++ le 2 r.source ++ le 8 (stamp64 r.stamp) ++ r.body

/-- A record formed now or, inside a commit, as a commit log record stamped at the end of its cycle (R421, R422). -/
def Dev.log (d : Dev) (code tile : Nat) (body : Bytes) : Dev :=
  let src := engineOf code * 256 + tile
  match d.cyc.inCommit with
  | some k =>
    let r : Rec := { code := code, safety := safetyCode code, sev := sevOf code,
                     flags := 1 + 2 * bit (!d.active), source := src, stamp := (k + 1) * cycleNs, body := body }
    { d with cyc := { d.cyc with log := d.cyc.log ++ [r.committed] } }.record r
  | none => d.record { code := code, safety := safetyCode code, sev := sevOf code, source := src, stamp := d.now, body := body }

/-- The notice payload and ring, sent to subscribers of notices (R387). -/
def Dev.noticeOut (d : Dev) (code : Nat) (body : Bytes) : Dev :=
  let d1 := d.inc P.HST_NOTICE_SEQ
  let s := d1.rd P.HST_NOTICE_SEQ
  let d2 := { d1 with host := { d1.host with
    ring := (d1.host.ring.filter fun n => n.seq % 256 != s % 256) ++ [{ seq := s, code := code, body := body }] } }
  (List.range d2.host.subs.length).foldl (fun d i =>
    let u := nth d.host.subs i
    if bitOf u.mask 0 then
      let lost := bitOf u.lost 0
      { d with host := { d.host with subs := upd d.host.subs i fun u => { u with lost := setBit u.lost 0 false } } }.sendFrame
        3 u.ep s 1 (if lost then 4 else 0) (le 2 code ++ le 2 body.length ++ body) true
    else d) d2

/-- A notice with its record (R421): a final hubtime80 stands in the notice only. `at_` is the time it carries, if any. -/
def Dev.noticeNow (d : Dev) (code tile : Nat) (body : Bytes) (at_ : Option Nat) : Dev :=
  let d1 := d.log code tile body
  match at_ with
  | some t => d1.noticeOut code (body ++ hubtime80 t)
  | none => d1.noticeOut code body

/-- A notice, held for the commit while a command of its cycle is being decided (R35, R374). -/
def Dev.noticeAt (d : Dev) (code tile : Nat) (body : Bytes) (at_ : Option Nat) : Dev :=
  match d.cyc.defer with
  | some k =>
    { d with cyc := { d.cyc with said := d.cyc.said ++ [{ cycle := k, code := code, tile := tile, body := body, timed := at_.isSome }] } }
  | none => d.noticeNow code tile body at_

/-- What a command of cycle `k` does before its commit, its notices held (R374). -/
def Dev.deferring (d : Dev) (k : Nat) (f : Dev → Dev) : Dev :=
  let d1 := f { d with cyc := { d.cyc with defer := some k } }
  { d1 with cyc := { d1.cyc with defer := none } }

/-- A notice without a time in its body, from the whole engine. -/
def Dev.notice (d : Dev) (code : Nat) (body : Bytes) : Dev := d.noticeAt code 0xFF body none

/-- The instant of what happens now: inside a commit the end of its cycle, as its records are stamped (R422). -/
def Dev.evTime (d : Dev) : Nat :=
  match d.cyc.inCommit with
  | some k => (k + 1) * cycleNs
  | none => d.now

/-- A notice whose body ends in the hubtime80 of the event. -/
def Dev.noticeT (d : Dev) (code : Nat) (body : Bytes) : Dev := d.noticeAt code 0xFF body (some d.evTime)

/-- The last fault report (R2, `SYS.FAULT_LAST`). -/
def Dev.faultLast (d : Dev) (code loc : Nat) : Dev :=
  d.wr P.SYS_FAULT_LAST 0 (unle (le 4 loc ++ le 2 code ++ le 2 0 ++ le 8 (stamp64 d.now)))

/-- A fault report: its notice carries the location word first (R2, R421). -/
def Dev.fault (d : Dev) (code loc : Nat) (body : Bytes) : Dev :=
  (d.faultLast code loc).noticeAt code (loc / 2 ^ 16 % 256) (le 4 loc ++ body) none

/-- A fault report of an engine for which the manual states no notice and no code (R2, R141, R166, R207): a record alone. -/
def Dev.faultLog (d : Dev) (eng loc : Nat) (body : Bytes) : Dev :=
  let code := Config.faultCode eng % 65536
  (d.faultLast code loc).record
    { code := code, safety := safetyCode code, sev := sevOf code, source := eng * 256 + loc / 2 ^ 16 % 256, stamp := d.now,
      body := le 4 loc ++ body }

/-! ### Trace -/

/-- A trace record on the port and on stream 0x06 (Table 15.1, R410, R411): 64 ns of the port. -/
def Dev.traceOut (d : Dev) (src kind : Nat) (body : Bytes) : Dev :=
  let rec_ := le 4 (d.now % sec) ++ le 1 src ++ le 1 kind ++ le 2 d.tlg.seq ++ fit 8 body
  ((({ d with tlg := { d.tlg with seq := (d.tlg.seq + 1) % 65536, busy := max d.tlg.busy d.now + 64 } }.addW P.TLG_RECORDS 0 1).emit
    (.trace rec_)).stream 6 rec_)

/-- A SYNC record (R408, Table 15.2). -/
def Dev.traceSync (d : Dev) : Dev :=
  { d with tlg := { d.tlg with syncSec := some (d.now / sec) } }.traceOut 0 0 (le 6 (d.now / sec) ++ [0xA5#8, 0x5A#8])

/-- R409: a run of drops has ended: LOST with its count, and notice 0x6980 for the first run in any 10 s. -/
def Dev.traceLost (d : Dev) : Dev :=
  let n := d.tlg.lost
  if n = 0 then d
  else
    let d1 := { d with tlg := { d.tlg with lost := 0 } }.traceOut 0 1 (le 4 n)
    let recent := match d.tlg.noticed with | some x => decide (d.now < x + 10 * sec) | none => false
    if recent then d1 else { d1 with tlg := { d1.tlg with noticed := some d1.now } }.noticeT 0x6980 (le 4 n)

/-- An event of a trace source (R407 to R409, R412): dropped and counted at a buffer of 512 records. -/
def Dev.trace (d : Dev) (src kind : Nat) (body : Bytes) : Dev :=
  if !bitOf (d.rd P.TLG_SOURCES) (src - 1) then d
  else if 512 * 64 ≤ d.tlg.busy - d.now then { d with tlg := { d.tlg with lost := d.tlg.lost + 1 } }.inc P.TLG_DROPPED
  else ((d.when (d.tlg.syncSec != some (d.now / sec)) Dev.traceSync).traceLost).traceOut src kind body

/-! ### Admission -/

/-- C(k) under the horizon in force (R21). -/
def Dev.commitAt (d : Dev) (k : Nat) : Nat := (k + 1) * cycleNs + d.cf P.CYC_HORIZON * ms

/-- The next source sequence of a class and index (R20), W. -/
def Dev.takeSeq (d : Dev) (cls idx : Nat) : Nat × Dev :=
  let k := cls * 256 + idx
  let n := match d.cyc.seqs.find? (·.1 == k) with
    | some e => e.2
    | none => 0
  (n, { d with cyc := { d.cyc with seqs := (k, (n + 1) % 2 ^ 32) :: d.cyc.seqs.filter (·.1 != k) } })

/-- LATE inputs a cycle has admitted. -/
def Dev.lateCount (d : Dev) (m : Nat) : Nat := (d.cyc.adm.filter fun e => e.1 == m && e.2.late).length

/-- The first cycle from `m` on whose LATE entries are fewer than 2,048 (R24), with the cycles passed. -/
def Dev.spillFrom (d : Dev) : Nat → Nat → List Nat → Nat × List Nat
  | 0, m, acc => (m, acc)
  | f + 1, m, acc => if d.lateCount m < 2048 then (m, acc) else d.spillFrom f (m + 1) (acc ++ [m])

/-- R22 to R24: the cycle an input is admitted to, whether it is LATE, and the full cycles it was passed over. -/
def Dev.admitCycle (d : Dev) (stamp a : Nat) : Nat × Bool × List Nat :=
  let k := cycleOf stamp
  if a < d.commitAt k then (k, false, [])
  else
    -- the cycle m with C(m - 1) ≤ a < C(m)
    let m := (a - d.cf P.CYC_HORIZON * ms) / cycleNs
    let (m', full) := d.spillFrom (d.cyc.adm.length + 1) m []
    (m', true, full)

/-- Whether an input is stamped before what R42 and R44 let in. -/
def Dev.tooEarly (d : Dev) (stamp : Nat) : Bool :=
  match d.cyc.origin with
  | some _ => stamp < d.cyc.floor
  | none => true

/-- INPUT message body for the peer (R278, Table 10.4): admission instant, key, LATE flag, payload. -/
def Input.linkBody (x : Input) : Bytes :=
  le 8 (stamp64 x.admitAt) ++ le 8 (stamp64 x.stamp) ++ le 1 x.cls ++ le 1 x.idx ++ le 4 x.seq ++ le 1 (bit x.late) ++ x.payload

/-- The counters of an admission (R22 to R24). -/
def Dev.countIn (d : Dev) (late spilled : Bool) : Dev :=
  ((d.inc P.CYC_ADMITTED).when late (·.inc P.CYC_LATE)).when spilled (·.inc P.CYC_LATE_SPILL)

/-- An input held for its cycle, with the full cycles it was passed over. -/
def Dev.hold (d : Dev) (m : Nat) (x : Input) (full : List Nat) : Dev :=
  { d with cyc := { d.cyc with adm := d.cyc.adm ++ [(m, x)], spilled := d.cyc.spilled ++ full } }

/-- Body of a trace record of the admission (Table 15.2). -/
def Input.traceBody (x : Input) (m : Nat) : Bytes := le 1 x.cls ++ le 1 x.idx ++ le 2 0 ++ le 4 (u32 m)

/-- An input is admitted (R22 to R24, R42), or dropped and counted before the cycle origin, and forwarded to the peer (R278); its late mark and cycle are fixed here. -/
def Dev.admitInput (d : Dev) (x : Input) (a : Nat) : Dev :=
  if d.replay && x.cls != 8 then d
  else if !d.active then (if d.rd P.DPX_STATE = 0 && d.cyc.origin.isNone then d.inc P.CYC_EARLY_DROP else d)
  else if d.tooEarly x.stamp then (d.inc P.CYC_EARLY_DROP).trace 3 3 (x.traceBody (cycleOf x.stamp))
  else
    let (m, late, full) := d.admitCycle x.stamp a
    let y := { x with admitAt := a, late := late }
    (((d.countIn late !full.isEmpty).hold m y full).when (d.rd P.DPX_LINK == 2) (·.emit (.link 1 y.linkBody))).trace 3 (if late then 2 else 1)
      (x.traceBody m)

/-- A new input of a class taken in and admitted at once. -/
def Dev.input (d : Dev) (stamp cls idx : Nat) (payload : Bytes) : Dev :=
  let (n, d1) := d.takeSeq cls idx
  d1.admitInput { stamp := stamp, cls := cls, idx := idx, seq := n, payload := payload } d.now

/-- A new input that waits in its producer until its Chute commits the packet (R391). -/
def Dev.offer (d : Dev) (chute stamp cls idx : Nat) (payload : Bytes) : Dev :=
  let (n, d1) := d.takeSeq cls idx
  { d1 with chutes := upd d1.chutes chute fun c =>
      { c with waiting := c.waiting ++ [{ stamp := stamp, cls := cls, idx := idx, seq := n, payload := payload }] } }

/-! ### Stop sources, verdicts and giving up control -/

/-- Bytes of a scope as the mail payload and the records carry it: `GROUPS`, `SCOPE`, `STATUS` byte, `MASK` (Table 8.11). -/
def Scope.wire (s : Scope) (status : Nat) : Bytes := le 2 s.groups ++ le 1 (bit s.all) ++ le 1 status ++ le 12 s.mask

/-- The union of two scopes. -/
def Scope.join (a b : Scope) : Scope :=
  { all := a.all || b.all, groups := a.groups ||| b.groups, mask := a.mask ||| b.mask }

/-- The components a scope names: 0 `ALL`, 1 to 16 groups, 17 to 112 machines. -/
def Scope.comps (s : Scope) : List Nat :=
  (if s.all then [0] else []) ++ (setBits 16 s.groups).map (· + 1) ++ (setBits 96 s.mask).map (· + 17)

/-- The scope ALL. -/
def Scope.allScope : Scope := { all := true }

/-- A stop event latched by one lane (R221, R222): its scope at once, the count at the lane's next tick. -/
def Lane.latch (l : Lane) (s : Scope) (src : Nat) (k : EvKey) : Lane :=
  if l.failed then l
  else { l with
    latched := l.latched.join s
    setBy := s.comps.map (fun c => (c, k)) ++ l.setBy.filter (fun e => !(s.comps.contains e.1))
    newEv := l.newEv ++ [(src, k.stamp)] }

/-- The count the next lane tick gives (R222): the stop sequence of the first lane that runs, plus 1. -/
def Dev.nextStopSeq (d : Dev) : Nat :=
  match d.stp.lanes.find? (fun l => !l.failed) with
  | some l => (l.seq + 1) % 2 ^ 32
  | none => d.rd P.STP_STOP_SEQ

/-- Notice 0x2880 of a stop event, and the event as the one that starts the next series (R226). -/
def Dev.stopNotice (d : Dev) (src : Nat) (s : Scope) (stamp : Nat) : Dev :=
  { d with stp := { d.stp with lastEv := (src, stamp) } }.notice 0x2880
    (le 1 src ++ le 1 (bit s.all) ++ le 2 s.groups ++ le 12 s.mask ++ le 4 d.nextStopSeq ++ le 8 (stamp64 stamp))

/-- A stop source event (Table 8.4): every lane latches its scope (R221), notice 0x2880 is raised, and the event awaits its
record entry (R233).  `entered` is true for source 8, which the record of its own fence table enters. -/
def Dev.stopEvent (d : Dev) (src : Nat) (s : Scope) (k : EvKey) (entered : Bool) : Dev :=
  (({ d with stp := { d.stp with
    lanes := d.stp.lanes.map fun (l : Lane) => l.latch s src k
    unentered := if entered then d.stp.unentered else d.stp.unentered ++ [k] } }).stopNotice src s k.stamp)

/-- Payload of a class 0x09 input (R213): bytes 10 to 27 of Table 8.11, then the location word. -/
def verdictBody (src action : Nat) (s : Scope) (loc : Nat) : Bytes :=
  le 1 src ++ le 1 action ++ s.wire 0 ++ le 4 loc

/-- Whether a lane raises sources of its own: it runs and is not isolated. -/
def Dev.laneVotes (d : Dev) (i : Nat) : Bool := !(nth d.stp.lanes i).failed && d.rd P.STP_LANE_STATE i == 0

/-- A class 0x09 input from each lane that votes (R213). -/
def Dev.laneInputs (d : Dev) (src action : Nat) (s : Scope) (loc : Nat) : Dev :=
  [0, 1, 2].foldl (fun d i => if d.laneVotes i then d.input d.now 9 i (verdictBody src action s loc) else d) d

/-- A source that the lanes' own evaluation raises (R213): each voting lane latches it under its own index and gives one input. -/
def Dev.laneStop (d : Dev) (src action : Nat) (s : Scope) (loc : Nat) : Dev :=
  let key (i : Nat) : EvKey := { stamp := d.now, cls := 9, idx := i }
  let vs := [0, 1, 2].filter d.laneVotes
  let d1 := vs.foldl (fun d i => { d with stp := { d.stp with
    lanes := upd d.stp.lanes i fun (l : Lane) => l.latch s src (key i)
    unentered := d.stp.unentered ++ [key i] } }) d
  (d1.stopNotice src s d.now).laneInputs src action s loc

/-- R281: the ACTIVE unit gives up control, once, at the first cycle whose boundary lies at least 2 ms on. -/
def Dev.giveUp (d : Dev) (cause : Nat) : Dev :=
  if !d.active || d.peer.yielding then d
  else
    let b := (d.now + 2 * ms + cycleNs - 1) / cycleNs
    let d1 := { d with peer := { d.peer with seatDriven := false, yielding := true, boundary := some b, takeGot := false } }
    ((d1.wr P.DPX_GIVEUP_CAUSE 0 cause).emit (.pin "SEAT" true)).when (d.cf P.DPX_MODE == 1)
      (·.emit (.link 5 (le 1 cause ++ le 4 (u32 b))))

/-- A Package-level self-diagnosis verdict (R66, R213, R223): it reaches the lanes as source 10, enters as class 0x09 index 3,
holds the permit back and gives up control with cause 3. -/
def Dev.packageVerdict (d : Dev) : Dev :=
  let s := Scope.allScope
  let loc := location 0 0 0 .package
  let d1 := { d with stp := { d.stp with verdict := true } }
  let d2 := d1.stopEvent 10 s { stamp := d.now, cls := 9, idx := 3 } false
  (d2.input d.now 9 3 (verdictBody 10 2 s loc)).giveUp 3

/-- An Engine-level fault that ends control: cause 5 of Table 10.5. -/
def Dev.engineFault (d : Dev) (code eng : Nat) (body : Bytes) : Dev :=
  (d.fault code (location eng 0 0 .engine) body).giveUp 5

/-! ### The meaning of a command -/

/-- Whether firmware runs: neither in reset, booting, in recovery nor Dormant (R464, R470, R474). -/
def Dev.up (d : Dev) : Bool := d.pwr.mode == 0

/-- What the supplies, the boot core and the Backup Domain do in every power mode. -/
def runAlways (s : State) (f : Dev → Dev) : Host.Outcome State Fault Refusal := .next { s with dev := f s.dev }

/-- A command's effect on the device while its firmware runs, and none otherwise; the queue is left as it stands. -/
def run (s : State) (f : Dev → Dev) : Host.Outcome State Fault Refusal := runAlways s fun d => if d.up then f d else d

end Sys2Proof.Machine
end

