-- ==== Sys2Proof/Machine/Dispatcher.lean ====
section
/-!
DEFINITION. The task dispatcher of the Bench and Tailings' observation counters (Chapter 15: R398 to R417).
-/
namespace Sys2Proof.Machine
open Sys2Proof

/-! ### Observation counters -/

/-- Largest value of an observation counter (R413). -/
def ctrMax : Nat := 2 ^ 40 - 1

/-- A counter's value. -/
def ctrGet (l : List (Nat × Nat)) (i : Nat) : Nat :=
  match l.find? (·.1 == i) with
  | some e => e.2
  | none => 0

/-- A counter advanced by `n`: at its largest value it sticks and its flag sets (R11, R413). -/
def Dev.ctr (d : Dev) (i n : Nat) : Dev :=
  let v := ctrGet d.tlg.ctrs i + n
  { d with tlg := { d.tlg with
    ctrs := (i, min ctrMax v) :: d.tlg.ctrs.filter (·.1 != i)
    stuck := if ctrMax < v && !d.tlg.stuck.contains i then i :: d.tlg.stuck else d.tlg.stuck } }

/-- R414: counters and flags as they are latched at C(k), newest first of four. What the counters of the other engines have counted is free. -/
def Dev.tlgLatch (d : Dev) (k : Nat) : Dev :=
  let ix := d.freeIx
  let val (i : Nat) : Nat := ctrGet d.tlg.ctrs i + (if 64 ≤ i && i < 368 then Config.freeValue (ix + i) else 0)
  let ctrs := ((List.range 384).map fun i => (i, min ctrMax (val i))).filter fun e => e.2 != 0
  let stuck := (List.range 384).filter fun i => d.tlg.stuck.contains i || ctrMax < val i
  let snap := le 4 (u32 k) ++ le 4 0 ++ ((List.range 384).flatMap fun i => le 5 (min ctrMax (val i))) ++ le 48 (maskOf stuck)
  { d with freeIx := ix + 368, tlg := { d.tlg with ctrs := ctrs, stuck := stuck, snaps := (k, snap) :: d.tlg.snaps.take 3 } }

/-- R415: one counter, or all of them, cleared with its flag. -/
def Dev.tlgClear (d : Dev) (v : Nat) : Dev :=
  if v = 0xFFFF then { d with tlg := { d.tlg with ctrs := [], stuck := [] } }
  else { d with tlg := { d.tlg with ctrs := d.tlg.ctrs.filter (·.1 != v), stuck := d.tlg.stuck.filter (· != v) } }

/-! ### Contexts and cores -/

/-- A context that is not FREE. -/
def Dev.task (d : Dev) (n : Nat) : Option DTask := d.dsp.tasks.find? (·.n == n)

/-- A context stored, in ascending order. -/
def Dev.setTask (d : Dev) (x : DTask) : Dev :=
  { d with dsp := { d.dsp with tasks := insertBy (fun (a b : DTask) => a.n < b.n) x (d.dsp.tasks.filter (·.n != x.n)) } }

/-- A core stored. -/
def Dev.setCore (d : Dev) (c : Nat) (x : DCore) : Dev := { d with dsp := { d.dsp with cores := d.dsp.cores.set c x } }

/-- Idle cores, ascending. -/
def Dev.idleCores (d : Dev) : List Nat := (List.range 12).filter fun c => (nth d.dsp.cores c).state == 0

/-- A dispatcher trace record (Table 15.2). -/
def Dev.dspTrace (d : Dev) (kind : Nat) (x : DTask) (core arg : Nat) : Dev :=
  d.trace 1 kind (le 1 x.n ++ le 1 core ++ le 1 x.level ++ le 1 x.base ++ le 4 arg)

/-- A number of 32 bits that saturates. -/
def sat32 (n : Nat) : Nat := min (2 ^ 32 - 1) n

/-- The busy time of a running core counted up to now. -/
def Dev.coreCount (d : Dev) (c : Nat) : Dev :=
  let x := nth d.dsp.cores c
  if x.state = 1 then (d.setCore c { x with since := d.now, busy := x.busy + (d.now - x.since) }).ctr (4 * c) (d.now / us - x.since / us) else d

/-- A cycle ends for the cores: the share of it that each was busy (Table 15.7). -/
def Dev.dspCycle (d : Dev) : Dev :=
  (List.range 12).foldl (fun d c =>
    let d1 := d.coreCount c
    let x := nth d1.dsp.cores c
    d1.setCore c { x with busy := 0, last := min 10000 (x.busy * 10000 / cycleNs) }) d

/-- A READY task dispatched to an idle core (R401, R403): it returns to its base level. -/
def Dev.dspRun (d : Dev) (c : Nat) (x : DTask) : Dev :=
  let wait := (d.now - x.ready) / us
  let served := x.held && x.core == some c
  let y := { x with state := 2, level := x.base, core := some c, held := false, ran := d.now, maxReady := max x.maxReady (sat32 wait) }
  let d1 := ((d.setTask y).setCore c { nth d.dsp.cores c with state := 1, task := x.n, since := d.now }).inc P.DSP_DISPATCHES
  (((d1.maxTo P.DSP_READY_MAX 0 wait).ctr (4 * c + 1) 1).when served (·.ctr (4 * c + 3) 1)).dspTrace 1 x c (sat32 wait)

/-- A running task leaves its core, which is idle. -/
def Dev.dspLeave (d : Dev) (c : Nat) (x : DTask) : DTask × Dev :=
  let y := { x with maxRun := max x.maxRun (sat32 ((d.now - x.ran) / us)) }
  let d1 := d.coreCount c
  (y, d1.setCore c { nth d1.dsp.cores c with state := 0, task := 0xFF })

/-- A task becomes READY (R401): dispatched to its idle last core, held for it while it is busy, or, with no last core that still works, dispatched to
the lowest idle core. -/
def Dev.dspHold (d : Dev) (x0 : DTask) : Dev :=
  let x := { x0 with state := 1, ready := d.now, age := d.now, kind := 0, obj := 0, ends := none, hold := d.now, held := false }
  let idle := d.idleCores
  let d1 := (d.when idle.isEmpty (·.ctr 51 1)).dspTrace 3 x (x.core.getD 0xFF) 0
  let free := match idle with | c :: _ => d1.dspRun c x | [] => d1.setTask x
  match x.core with
  | some c =>
    if (nth d.dsp.cores c).state = 0 then d1.dspRun c x
    else if (nth d.dsp.cores c).state = 2 || d.rd P.DSP_AFFINITY = 0 then free
    else d1.setTask { x with hold := d.now + d.rd P.DSP_AFFINITY * us, held := true }
  | none => free

/-- The core a firmware-critical task takes when none is idle (R402): the numerically highest level above 3, then the highest number. -/
def Dev.preemptCore (d : Dev) : Option (Nat × DTask) :=
  (List.range 12).foldl (fun best c =>
    let k := nth d.dsp.cores c
    match (if k.state = 1 then d.task k.task else none) with
    | some x =>
      if x.level ≤ 3 then best
      else match best with
        | some (_, y) => if y.level ≤ x.level then some (c, x) else best
        | none => some (c, x)
    | none => best) none

/-- A task becomes READY, preempting where R402 says so. -/
def Dev.dspReady (d : Dev) (x : DTask) : Dev :=
  if x.level ≤ 3 && d.idleCores.isEmpty then
    match d.preemptCore with
    | some (c, y) =>
      let (y1, d1) := d.dspLeave c y
      let x1 := { x with state := 1, ready := d.now, age := d.now, kind := 0, obj := 0, ends := none, hold := d.now, held := false }
      let d2 := ((((d1.inc P.DSP_PREEMPTS).ctr (4 * c + 2) 1).ctr 51 1).dspTrace 3 x1 (x.core.getD 0xFF) 0).dspTrace 2 y c 0
      (d2.dspRun c x1).dspHold { y1 with core := some c }
    | none => d.dspHold x
  else d.dspHold x

/-- Order of a ready list (R400). -/
def readyLt (a b : DTask) : Bool := a.level < b.level || a.level == b.level && (a.ready < b.ready || a.ready == b.ready && a.n < b.n)

/-- Procedure `pick` (R401). -/
def Dev.pick (d : Dev) (c : Nat) : Option DTask :=
  (sortBy readyLt (d.dsp.tasks.filter (·.state == 1))).find? fun x => !(d.now < x.hold && x.core != some c)

/-- A wait ends (R404): cause 1 event, 2 packet, 3 read-idle, 4 timeout. -/
def Dev.dspWake (d : Dev) (x : DTask) (cause : Nat) : Dev := (d.dspTrace 5 x (x.core.getD 0xFF) cause).dspReady x

/-- Every task that waits on an object is woken, in ascending number. -/
def Dev.wakeAll (d : Dev) (kind obj cause : Nat) : Dev :=
  if d.dsp.failed then d
  else (d.dsp.tasks.filter fun x => x.state == 3 && x.kind == kind && x.obj == obj).foldl (fun d x => d.dspWake x cause) d

/-! ### Commands -/

/-- TASK_READY (R401, R402, R405): firmware's task of context `n` and base level `base`, created after the cold start, first becomes READY. -/
def execTaskReady (t n base : Nat) (s : State) : Host.Outcome State Fault Refusal := run s fun d0 =>
  let d := d0.at t
  if d.dsp.failed || 256 ≤ n || 32 ≤ base || (d.task n).isSome then d
  else d.dspReady { n := n, base := base, level := base }

/-- CORE_PICK (R401): an idle core chooses its next task. -/
def execCorePick (t c : Nat) (s : State) : Host.Outcome State Fault Refusal := run s fun d0 =>
  let d := d0.at t
  if d.dsp.failed || 12 ≤ c || (nth d.dsp.cores c).state != 0 then d
  else match d.pick c with
    | some x => d.dspRun c x
    | none => d

/-- HOLD_EXPIRE (R401): the hold of a READY task has passed; it goes to the lowest idle core, if one is idle. -/
def execHoldExpire (t n : Nat) (s : State) : Host.Outcome State Fault Refusal := run s fun d0 =>
  let d := d0.at t
  match d.task n with
  | some x =>
    if d.dsp.failed || x.state != 1 || !x.held || d.now < x.hold then d
    else
      let y := { x with held := false }
      let d1 := ((d.setTask y).ctr 49 1).dspTrace 7 y (y.core.getD 0xFF) 0
      match d1.idleCores with
      | c :: _ => d1.dspRun c y
      | [] => d1
  | none => d

/-- TASK_AGE (R403): procedure `age`. -/
def execTaskAge (t n : Nat) (s : State) : Host.Outcome State Fault Refusal := run s fun d0 =>
  let d := d0.at t
  match d.task n with
  | some x =>
    if d.dsp.failed || x.state != 1 || x.level ≤ 4 || d.now < x.age + d.rd P.DSP_AGE * us then d
    else
      let y := { x with level := x.level - 1, age := d.now }
      (((d.setTask y).inc P.DSP_AGED).ctr 48 1).dspTrace 6 y (y.core.getD 0xFF) 0
  | none => d

/-- TASK_WAIT (R404): a running task waits on an event (kind 1) or a Chute (kind 2), for `timeout` µs or, with 0, without end; an event posted before
ends the wait at once. -/
def execTaskWait (t n kind obj timeout : Nat) (s : State) : Host.Outcome State Fault Refusal := run s fun d0 =>
  let d := d0.at t
  match d.task n with
  | some x =>
    let good := (kind == 1 && obj < 65536 || kind == 2 && obj < 16) && timeout < 2 ^ 32
    match x.core with
    | some c =>
      if d.dsp.failed || x.state != 2 || !good then d
      else
        let (y, d1) := d.dspLeave c x
        let w := { y with state := 3, kind := kind, obj := obj, ends := if timeout = 0 then none else some (d.now + timeout * us) }
        let d2 := (d1.setTask w).dspTrace 4 w c obj
        if kind = 1 && d.dsp.events.contains obj then
          { d2 with dsp := { d2.dsp with events := d2.dsp.events.filter (· != obj) } }.dspWake w 1
        else d2
    | none => d
  | none => d

/-- EVENT_POST (R404): an event ends the waits on it, or is held until a task waits on it. -/
def execEventPost (t ev : Nat) (s : State) : Host.Outcome State Fault Refusal := run s fun d0 =>
  let d := d0.at t
  if d.dsp.failed || 65536 ≤ ev then d
  else if d.dsp.tasks.any fun x => x.state == 3 && x.kind == 1 && x.obj == ev then d.wakeAll 1 ev 1
  else if d.dsp.events.contains ev then d
  else { d with dsp := { d.dsp with events := ev :: d.dsp.events } }

/-- TASK_WAIT_TIMEOUT (R404): a wait's timeout has passed. -/
def execTaskWaitTimeout (t n : Nat) (s : State) : Host.Outcome State Fault Refusal := run s fun d0 =>
  let d := d0.at t
  match d.task n with
  | some x =>
    match x.ends with
    | some e => if d.dsp.failed || x.state != 3 || d.now < e then d else ((d.inc P.DSP_TIMEOUTS).ctr 50 1).dspWake x 4
    | none => d
  | none => d

/-- CORE_FAULT (R406): both cores of a Tile leave until the next cold start (cause 1 parity, 2 lockstep, 3 watchdog); their tasks become READY with no
last core. -/
def execCoreFault (t tile cause : Nat) (s : State) : Host.Outcome State Fault Refusal := run s fun d0 =>
  let d := d0.at t
  if 6 ≤ tile || (nth d.dsp.cores (2 * tile)).state = 2 then d
  else
    let cs := [2 * tile, 2 * tile + 1]
    let lost := cs.filterMap fun c => let k := nth d.dsp.cores c; if k.state = 1 then d.task k.task else none
    let d1 := cs.foldl (fun d c => (d.coreCount c).setCore c { state := 2 }) d
    let first := match lost with | x :: _ => x.n | [] => 0xFF
    let d2 := d1.fault 0x6880 (location 1 tile 0 .tile) (le 1 cause ++ le 1 first)
    lost.foldl (fun d x => if d.dsp.failed then d.setTask { x with state := 1, core := none } else d.dspReady { x with core := none }) d2

/-- DISPATCHER_FAULT (R406): a fault of Tile 6, contained at Engine level: no further commit completes (R26). -/
def execDispatcherFault (t : Nat) (s : State) : Host.Outcome State Fault Refusal := run s fun d0 =>
  let d := d0.at t
  if d.dsp.failed then d
  else ({ d with dsp := { d.dsp with failed := true } }.faultLog 1 (location 1 0 0 .engine) []).giveUp 1

/-- TRACE_SYNC (R408): a SYNC record after each whole second, and whenever the buffer is empty and the port idle. -/
def execTraceSync (t : Nat) (s : State) : Host.Outcome State Fault Refusal := run s fun d0 =>
  let d := d0.at t
  if d.rd P.TLG_SOURCES = 0 then d
  else if d.tlg.syncSec != some (d.now / sec) || d.tlg.busy ≤ d.now then d.traceSync else d

/-! ### Reading -/

/-- `DSP.TASK` (Table 15.7). -/
def Dev.taskBytes (d : Dev) (n : Nat) : Bytes :=
  match d.task n with
  | some x => le 1 x.state ++ le 1 x.base ++ le 1 x.level ++ le 1 (x.core.getD 0xFF) ++ le 1 x.kind ++ le 1 0 ++ le 2 x.obj ++ le 4 x.maxRun ++
      le 4 x.maxReady
  | none => le 3 0 ++ le 1 0xFF ++ le 12 0

/-- `DSP.CORE` (Table 15.7). -/
def Dev.coreBytes (d : Dev) (c : Nat) : Bytes :=
  let x := nth d.dsp.cores c
  let lv := match (if x.state = 1 then d.task x.task else none) with | some y => y.level | none => 0
  le 1 x.state ++ le 1 x.task ++ le 1 lv ++ le 1 0 ++ le 2 x.last ++ le 2 0

/-- `DSP.READY` (Table 15.7). -/
def Dev.readyCount (d : Dev) (lv : Nat) : Nat := (d.dsp.tasks.filter fun x => x.state == 1 && x.level == lv).length

/-- R405: after a cold start every context is FREE, every core works again. -/
def Dev.dspCold (d : Dev) : Dev := { d with dsp := {}, tlg := {} }

end Sys2Proof.Machine
end

