-- ==== Sys2Proof/Machine/Vermilion.lean ====
section
/-!
DEFINITION. The Vermilion lanes and voter, stop sources of the lanes' own evaluation, safety outputs, release in the lanes,
start-up tests (Chapter 8: R208 to R235; Chapter 20: R507 to R514).  Beacons and stop frames stand with the air link.
-/
namespace Sys2Proof.Machine
open Sys2Proof

/-- The effective mask (R221): machine bits, members of latched groups, all machines under `ALL`. -/
def Dev.effMask (d : Dev) (s : Scope) : Nat :=
  if s.all then 2 ^ 96 - 1
  else (List.range 96).foldl (fun m j =>
    let g := d.cf P.STP_GROUP (j + 1)
    if g < 16 && bitOf s.groups g then setBit m j true else m) s.mask

/-- Whether machine `n` lies in the effective mask of a scope. -/
def Dev.inMask (d : Dev) (s : Scope) (n : Nat) : Bool := bitOf (d.effMask s) (n - 1)

/-- The scope that `STP.NONCONF_SCOPE` gives machine `n` (R220). -/
def Dev.nonconfScope (d : Dev) (n : Nat) : Scope :=
  let machine : Scope := { mask := 2 ^ (n - 1) }
  match d.cf P.STP_NONCONF_SCOPE with
  | 0 => machine
  | 1 => let g := d.cf P.STP_GROUP n; if g < 16 then { groups := 2 ^ g } else machine
  | _ => Scope.allScope

/-- Slices in service (Table 8.3, R229). -/
def Dev.slicesUp (d : Dev) : Nat := ([0, 1, 2, 3].filter fun i => d.rd P.STP_SLICE_STATE i == 1).length

/-- The first condition of Table 8.3 that fails for a lane, by its row from 1; 0 when all hold. -/
def Dev.permitFails (d : Dev) (l : Lane) : Nat :=
  if d.stp.verdict then 1
  else if l.lateFor.isSome then 2
  else if d.stp.outFault then 3
  else if d.slicesUp < d.cf P.STP_MIN_SLICES then 4
  else if l.failed || d.stp.ownFail then 5
  else 0

/-- LANE_TICK (R209, R222, R223, R507, R208): lane `i` checks itself (`ok`: core test slice, memory ECC and configuration CRC
pass), counts the events since its last tick as one, and writes its vote word. -/
def execLaneTick (t i : Nat) (ok : Bool) (s : State) : Host.Outcome State Fault Refusal := run s fun d0 =>
  let d := d0.at t
  let l := nth d.stp.lanes i
  if i < 3 then
    if l.failed then d
    else if !ok then { d with stp := { d.stp with lanes := d.stp.lanes.set i { l with failed := true } } }
    else
      let seq := if l.newEv.isEmpty then l.seq else (l.seq + 1) % 2 ^ 32
      let v : Vote := { permit := d.permitFails l == 0, scope := l.latched, seq := seq }
      { d with stp := { d.stp with lanes := d.stp.lanes.set i { l with newEv := [], seq := seq, word := some (d.now, v) } } }
  else d

/-- A lane's word as the voter samples it: missing when more than 2 ms old (R209). -/
def Dev.voteOf (d : Dev) (i : Nat) : Option Vote :=
  match (nth d.stp.lanes i).word with
  | some (at_, v) => if d.now ≤ at_ + 2 * ms then some v else none
  | none => none

/-- R210: two lanes' words disagree when either is missing or they are unequal. -/
def votesDiffer : Option Vote → Option Vote → Bool
  | some a, some b => a != b
  | _, _ => true

/-- Bits of a mask set in at least two of three. -/
def maj3 (a b c : Nat) : Nat := (a &&& b) ||| (a &&& c) ||| (b &&& c)

/-- A missing word as one that sets nothing. -/
def voteOrNone (v : Option Vote) : Vote :=
  match v with
  | some v => v
  | none => {}

/-- The latest of a list of stop sequences under R9. -/
def latestSeq : List Nat → Nat → Nat
  | [], s => s
  | x :: xs, s => latestSeq xs (if later x s then x else s)

/-- The 2oo3 output of Table 8.2. -/
def vote3 (a b c : Option Vote) (prev : Nat) : Vote :=
  let x := voteOrNone a; let y := voteOrNone b; let z := voteOrNone c
  let two (p q r : Bool) : Bool := p && q || p && r || q && r
  let seqs := [a, b, c].filterMap id |>.map (·.seq)
  let seq := match seqs.find? (fun s => 2 ≤ (seqs.filter (· == s)).length) with
    | some s => s
    | none => match seqs with
      | [] => prev
      | s :: ss => latestSeq ss s
  { permit := two x.permit y.permit z.permit
    scope := { all := two x.scope.all y.scope.all z.scope.all
               groups := maj3 x.scope.groups y.scope.groups z.scope.groups
               mask := maj3 x.scope.mask y.scope.mask z.scope.mask }
    seq := seq }

/-- The 2oo2 output of Table 8.2. -/
def vote2 (a b : Option Vote) (prev : Nat) : Vote :=
  let x := voteOrNone a; let y := voteOrNone b
  { permit := x.permit && y.permit
    scope := x.scope.join y.scope
    seq := match a, b with
      | some p, some q => if later q.seq p.seq then q.seq else p.seq
      | some p, none => p.seq
      | none, some q => q.seq
      | none, none => prev }

/-- The voter becomes FAILED (R210): `ALL` latched, the permit clear, an Engine-level self-diagnosis failure with source 10,
control given up with cause 2. -/
def Dev.voterFail (d : Dev) : Dev :=
  if d.rd P.STP_MODE = 2 then d
  else
    let loc := location 6 0 0 .engine
    let d1 := ((d.wr P.STP_MODE 0 2).fault 0x2882 loc (le 1 2)).stopEvent 10 Scope.allScope { stamp := d.now, cls := 9, idx := 3 } false
    (d1.input d.now 9 3 (verdictBody 10 2 Scope.allScope loc)).giveUp 2

/-- R210: a lane is isolated until the next cold start and the voter enters 2oo2. -/
def Dev.isolate (d : Dev) (i : Nat) : Dev :=
  (((d.wr P.STP_LANE_STATE i 1).wr P.STP_MODE 0 1).inc P.STP_ISOLATIONS).fault 0x2882 (location 6 i 0 .tile) (le 1 1)

/-- The voter's counting of differing ticks, with isolation and failure on the third (R210). -/
def Dev.compareLanes (d : Dev) : Dev :=
  let w (i : Nat) := d.voteOf i
  match d.rd P.STP_MODE with
  | 0 =>
    let ab := votesDiffer (w 0) (w 1); let ac := votesDiffer (w 0) (w 2); let bc := votesDiffer (w 1) (w 2)
    let odd : List Bool := [ab && ac && !bc, ab && bc && !ac, ac && bc && !ab]
    let diff := List.zipWith (fun o n => if o then n + 1 else 0) odd d.stp.diff
    let allDiff := if ab && ac && bc then d.stp.allDiff + 1 else 0
    let d1 := { d with stp := { d.stp with diff := diff, allDiff := allDiff } }
    if 3 ≤ allDiff then d1.voterFail
    else match [0, 1, 2].find? (fun i => 3 ≤ nth diff i) with
      | some i => { d1.isolate i with stp := { (d1.isolate i).stp with diff := [0, 0, 0], allDiff := 0 } }
      | none => d1
  | 1 =>
    match [0, 1, 2].filter (fun i => d.rd P.STP_LANE_STATE i == 0) with
    | [i, j] =>
      let n := if votesDiffer (w i) (w j) then d.stp.allDiff + 1 else 0
      let d1 := { d with stp := { d.stp with allDiff := n } }
      if 3 ≤ n then d1.voterFail else d1
    | _ => d.voterFail
  | _ => d

/-- The voter's output of a tick from the newest words (Table 8.2). -/
def Dev.voterOutput (d : Dev) : Vote :=
  let prev := d.stp.out.seq
  match d.rd P.STP_MODE with
  | 0 => vote3 (d.voteOf 0) (d.voteOf 1) (d.voteOf 2) prev
  | 1 => match [0, 1, 2].filter (fun i => d.rd P.STP_LANE_STATE i == 0) with
    | [i, j] => vote2 (d.voteOf i) (d.voteOf j) prev
    | _ => { scope := Scope.allScope, seq := prev }
  | _ => { permit := false, scope := d.stp.out.scope.join Scope.allScope, seq := prev }

/-- The live view of the latched state in the STP items. -/
def Dev.showStop (d : Dev) : Dev :=
  let o := d.stp.out
  let st := bit o.scope.all + 2 * bit (!o.permit) + 4 * bit d.com.stop.arm.isSome
  (((d.wr P.STP_STATE 0 st).wr P.STP_LATCH_GROUPS 0 o.scope.groups).wr P.STP_LATCH_MASK 0 o.scope.mask).wr P.STP_STOP_SEQ 0 o.seq

/-- R230: the outputs follow the voter: active while `PERMIT` is set, `ALL` clear, the unit ACTIVE, no replay, the start-up
tests done and no clock fault holding them off (R512, R514). -/
def Dev.outputs (d : Dev) : Dev :=
  let on := d.stp.out.permit && !d.stp.out.scope.all && d.active && !d.replay && d.stp.testsDone && !d.tim.untrusted
  if on == d.stp.outOn then d
  else
    (({ d with stp := { d.stp with outOn := on } }.wr P.STP_OUT_STATE 0
      ((if on then 3 else 0) + d.rd P.STP_OUT_STATE / 4 * 4)).emit (.pin "SAFE_OUT0" on)).emit (.pin "SAFE_OUT1" on)

/-- R223: a change of the permit raises notice 0x2885 with the first failed condition. -/
def Dev.permitNotice (d : Dev) : Dev :=
  let fails := if d.stp.out.permit then 0
    else match ([0, 1, 2].filter d.laneVotes).map (fun i => d.permitFails (nth d.stp.lanes i)) |>.filter (· != 0) with
      | f :: _ => f
      | [] => 5
  if (fails == 0) == (d.stp.withheldBy == 0) then { d with stp := { d.stp with withheldBy := fails } }
  else { d with stp := { d.stp with withheldBy := fails } }.noticeT 0x2885 (le 1 (bit (fails != 0)) ++ le 1 fails)

/-- R226: a new stop event restarts the stop frame series. -/
def Dev.startSeries (d : Dev) (oldSeq : Nat) : Dev :=
  if d.stp.out.seq != oldSeq && d.active then
    { d with stp := { d.stp with series := some { tEvent := d.stp.lastEv.2, cause := d.stp.lastEv.1, next := 0, due := d.now } } }
  else d

/-- The lanes whose word equals the word of another lane. -/
def Dev.lanesAgree (d : Dev) : Nat :=
  maskOf ([0, 1, 2].filter fun i => [0, 1, 2].any fun j => i != j && !votesDiffer (d.voteOf i) (d.voteOf j))

/-- A voter tick (R210, R211): comparison, output, token, outputs, trace record (Table 15.2). -/
def Dev.voterTick (d : Dev) : Dev :=
  let d1 := d.compareLanes
  let old := d1.stp.out.seq
  let o := d1.voterOutput
  let d2 := { d1 with stp := { d1.stp with out := o, permits := (d1.now, o.permit) :: d1.stp.permits.take 3 } }.trace 4 1
    (le 1 (d1.rd P.STP_MODE) ++ le 1 d1.lanesAgree ++ le 1 (bit o.permit + 2 * bit o.scope.all) ++ le 1 0 ++ le 4 o.seq)
  (((d2.showStop).permitNotice).startSeries old).outputs

/-- R211, R508: the token toggled on each of the two voter ticks that precede an instant. -/
def Dev.tokenOk (d : Dev) (at_ : Nat) : Bool :=
  match d.stp.permits.filter (fun e => e.1 < at_) with
  | a :: b :: _ => a.2 && b.2 && at_ ≤ a.1 + ms && at_ ≤ b.1 + 2 * ms
  | _ => false

/-- VOTER_TEST (R510): the voter's compare logic is tested; a wrong result makes it FAILED. -/
def execVoterTest (t : Nat) (ok : Bool) (s : State) : Host.Outcome State Fault Refusal := run s fun d0 =>
  let d := d0.at t
  if ok then d else d.voterFail

/-! ### E-stop circuits -/

/-- Whether every enabled E-stop channel reads closed and no circuit or output fault is held: the live check of R233. -/
def Dev.liveCheck (d : Dev) : Bool :=
  [0, 1, 2, 3].all (fun i => d.cf P.STP_ESTOP_EN (i / 2) == 0 || nth d.stp.level i) &&
  [0, 1].all (fun c => !(nth d.stp.circuit c)) && !d.stp.outFault

/-- `STP.ESTOP_LEVEL` of an input: bit 0 accepted level high, bit 1 last pulse test passed. -/
def Dev.showLevel (d : Dev) (i : Nat) : Dev :=
  d.wr P.STP_ESTOP_LEVEL i (bit (nth d.stp.level i) + 2 * bit (nth d.stp.pulsePass i != 0))

/-- The location word of a fault of E-stop circuit `c`, which stands in the place of a slice (log 40). -/
def circuitLoc (c : Nat) : Nat := location 6 0xFF c .slice

/-- R215: a circuit fault is raised on a channel: source 2, the count, notice 0x2884 with cause and action 2; a failure while one
is held only restarts the count of passing tests. -/
def Dev.circuitFault (d : Dev) (i cause : Nat) : Dev :=
  let c := i / 2
  let d0 := { d with stp := { d.stp with pulsePass := (d.stp.pulsePass.set (2 * c) 0).set (2 * c + 1) 0 } }
  if d.cf P.STP_ESTOP_EN c = 0 || nth d.stp.circuit c then d0
  else
    let d1 := { d0 with stp := { d0.stp with
      circuit := d0.stp.circuit.set c true, sawOpen := d0.stp.sawOpen.set c false, sawClosed := d0.stp.sawClosed.set c false } }
    let loc := circuitLoc c
    (((d1.inc P.STP_TP_FAULTS i).faultLast 0x2884 loc).notice 0x2884 (le 1 i ++ le 1 cause ++ le 1 2)).laneStop
      2 2 Scope.allScope loc

/-- R215: a held circuit fault ends once the circuit has read both channels open, then both closed, with three consecutive
passing pulse tests on each; each lane raises the fault-cleared input (R213). -/
def Dev.circuitClear (d : Dev) (c : Nat) : Dev :=
  if nth d.stp.circuit c && nth d.stp.sawClosed c && 3 ≤ nth d.stp.pulsePass (2 * c) && 3 ≤ nth d.stp.pulsePass (2 * c + 1) then
    ({ d with stp := { d.stp with circuit := d.stp.circuit.set c false } }.notice 0x2884
      (le 1 (2 * c) ++ le 1 0 ++ le 1 3)).laneInputs 2 3 Scope.allScope (circuitLoc c)
  else d

/-- ESTOP_EDGE (R214): a level that has held since its raw edge at `raw` for `STP.ESTOP_FILT` is accepted; it becomes a class 0x06
input, and an opening edge of an enabled circuit is source 1. -/
def execEstopEdge (t i raw : Nat) (closed : Bool) (s : State) : Host.Outcome State Fault Refusal := run s fun d0 =>
  let d := d0.at t
  if i < 4 && d.cf P.STP_ESTOP_EN (i / 2) == 1 && raw + d.cf P.STP_ESTOP_FILT * 100 * us ≤ d.now && nth d.stp.level i != closed then
    let c := i / 2
    let levels := d.stp.level.set i closed
    let a := nth levels (2 * c); let b := nth levels (2 * c + 1)
    let d1 := { d with stp := { d.stp with
      level := levels
      sawOpen := if !a && !b then d.stp.sawOpen.set c true else d.stp.sawOpen
      sawClosed := if nth d.stp.sawOpen c && a && b then d.stp.sawClosed.set c true else d.stp.sawClosed
      diffSince := d.stp.diffSince.set c (if a != b then some (d.now, i) else none)
      pulsePass := if closed then d.stp.pulsePass else d.stp.pulsePass.set i 0 } }
    let d2 := (d1.showLevel i).input raw 6 i (le 1 (bit closed) ++ le 1 1 ++ le 2 0)
    if closed then d2 else d2.stopEvent 1 Scope.allScope { stamp := raw, cls := 6, idx := i } false
  else d

/-- ESTOP_TEST_PULSE (R215): output `i` was driven low for 500 µs; `low` and `back` say whether input `i` followed each way within
200 µs, `other` names another input that followed it. -/
def execEstopTestPulse (t i : Nat) (low back : Bool) (other : Option Nat) (s : State) : Host.Outcome State Fault Refusal := run s fun d0 =>
  let d := d0.at t
  if i < 4 && nth d.stp.level i then
    let passed := low && back
    let d1 := if passed then
        { d with stp := { d.stp with pulsePass := upd d.stp.pulsePass i (· + 1) } }.showLevel i
      else (d.circuitFault i 1).showLevel i
    let d2 := match other with
      | some j => if j < 4 && j != i && nth d.stp.level j then d1.circuitFault j 2 else d1
      | none => d1
    d2.circuitClear (i / 2)
  else d

/-- ESTOP_DISCREPANCY (R215): the channels of a circuit have differed for longer than `STP.DISC_MS`. -/
def execEstopDiscrepancy (t c : Nat) (s : State) : Host.Outcome State Fault Refusal := run s fun d0 =>
  let d := d0.at t
  match nth d.stp.diffSince c with
  | some (since, i) =>
    if since + d.cf P.STP_DISC_MS * ms < d.now then
      { d with stp := { d.stp with diffSince := d.stp.diffSince.set c none } }.circuitFault i 3
    else d
  | none => d

/-! ### CAN, remotes, conformance -/

/-- The scope of CAN stop entry `i` (Table 8.14); none when the entry is off. -/
def Dev.canScope (d : Dev) (i : Nat) : Option Scope :=
  let e := le 8 (d.cf P.STP_CAN_STOP i)
  match fld e 5 1 with
  | 1 => some Scope.allScope
  | 2 => some { groups := 2 ^ (fld e 6 1 % 16) }
  | _ => none

/-- The scope of remote `i` (`STP.REMOTE_SCOPE`). -/
def Dev.remoteScope (d : Dev) (i : Nat) : Scope :=
  let v := d.cf P.STP_REMOTE_SCOPE i
  { all := bitOf v 16, groups := v % 2 ^ 16 }

/-- CAN_SILENCE (R217): no frame on the identifier of entry `i` for `STP.CAN_HB_MS[i]`. -/
def execCanSilence (t i : Nat) (s : State) : Host.Outcome State Fault Refusal := run s fun d0 =>
  let d := d0.at t
  let hb := d.cf P.STP_CAN_HB_MS i
  match d.canScope i with
  | some sc =>
    let last := match nth d.stp.canLast i with | some x => x | none => 0
    if hb != 0 && last + hb * ms ≤ d.now && !(nth d.stp.canSilent i) then
      { d with stp := { d.stp with canSilent := d.stp.canSilent.set i true } }.laneStop 5 1 sc (location 6 0 0 .engine)
    else d
  | none => d

/-- REMOTE_SILENCE (R218): no valid frame of remote `i` in mode 2 for `STP.REMOTE_TMO`. -/
def execRemoteSilence (t i : Nat) (s : State) : Host.Outcome State Fault Refusal := run s fun d0 =>
  let d := d0.at t
  let last := match nth d.stp.remoteLast i with | some x => x | none => 0
  if i < 16 && d.cf P.STP_REMOTE_MODE i = 2 && last + d.cf P.STP_REMOTE_TMO * ms ≤ d.now && !(nth d.stp.remoteSilent i) then
    { d with stp := { d.stp with remoteSilent := d.stp.remoteSilent.set i true } }.laneStop 7 1 (d.remoteScope i) (location 6 0 0 .engine)
  else d

/-- R218: a valid remote frame of a kind (1 STOP, 2 ALIVE, 3 HELD) reaches the lanes; `stamp` and `slice` are those of its class
0x02 input. -/
def Dev.remoteFrame (d : Dev) (i kind stamp slice : Nat) : Dev :=
  let mode := d.cf P.STP_REMOTE_MODE i
  if mode = 0 || 16 ≤ i then d
  else
    let d1 := { d with stp := { d.stp with
      remoteLast := d.stp.remoteLast.set i (some d.now), remoteSilent := d.stp.remoteSilent.set i false } }
    if kind = 1 || kind = 3 then d1.stopEvent 6 (d.remoteScope i) { stamp := stamp, cls := 2, idx := slice } false else d1

/-- R217: a received CAN frame that matches stop entries: data byte 0 of 0x5A is a stop, any other frame proves the sender alive. -/
def Dev.canStopFrame (d : Dev) (ctrl id first stamp : Nat) : Dev :=
  [0, 1, 2, 3].foldl (fun d i =>
    let e := le 8 (d.cf P.STP_CAN_STOP i)
    if fld e 0 4 = id && fld e 4 1 = ctrl then
      match d.canScope i with
      | some sc =>
        let d1 := { d with stp := { d.stp with
          canLast := d.stp.canLast.set i (some d.now), canSilent := d.stp.canSilent.set i false } }
        if first = 0x5A then d1.stopEvent 4 sc { stamp := stamp, cls := 3, idx := ctrl } false else d1
      | none => d
    else d) d

/-- Machines of a position list with a usable entry: number, position and epoch (Table 8.7). -/
def usablePositions (l : Bytes) : List (Nat × Int × Int × Nat) :=
  (List.range (fld l 4 2)).filterMap fun i =>
    let o := 8 + 20 * i
    if bitOf (fld l (o + 1) 1) 0 then
      some (fld l o 1, fldS l (o + 4) 4, fldS l (o + 8) 4, (ofStamp64 (fld l (o + 12) 8)).getD 0) else none

/-- Whether a point lies in a fence box of a machine (Table 6.13). -/
def inFence (f : Bytes) (n : Nat) (e no : Int) : Bool :=
  (List.range (fld f 4 2)).any fun i =>
    let o := 32 + 20 * i
    fld f o 1 == n && fldS f (o + 4) 4 ≤ e && fldS f (o + 8) 4 ≤ no && e ≤ fldS f (o + 12) 4 && no ≤ fldS f (o + 16) 4

/-- Whether the CRC at the end of a table matches (R219). -/
def crcOk (b : Bytes) : Bool := 4 ≤ b.length && crc32c (b.take (b.length - 4)) == fld b (b.length - 4) 4

/-- R219, R220: a lane takes the fence table and position list of a cycle and judges every machine in them. Each lane latches for itself; the first that
judges a cycle raises the notices. -/
def Dev.laneFence (d : Dev) (i k : Nat) (fence list_ : Bytes) : Dev :=
  if crcOk fence && crcOk list_ then
    let first := !(d.stp.lanes.any fun (l : Lane) => match l.fenceCycle with | some j => decide (k ≤ j) | none => false)
    let d1 := { d with stp := { d.stp with
      lanes := upd d.stp.lanes i fun (l : Lane) =>
        { l with fenceCycle := some k, lateFor := match l.lateFor with | some n => if k < n then some n else none | none => none } } }
    (usablePositions list_).foldl (fun d (n, e, no, epoch) =>
      if bitOf (fld fence 20 12) (n - 1) then d
      else
        let sc := d.nonconfScope n
        let d2 := if bitOf (fld fence 8 12) (n - 1) then
            let key8 : EvKey := { stamp := epoch, cls := 0, idx := n }
            { d with stp := { d.stp with lanes := upd d.stp.lanes i fun (l : Lane) => l.latch sc 8 key8 } }.when first
              (·.stopNotice 8 sc epoch)
          else d
        if inFence fence n e no then d2
        else
          let key : EvKey := { stamp := d2.now, cls := 9, idx := i }
          ({ d2 with stp := { d2.stp with
              lanes := upd d2.stp.lanes i fun (l : Lane) => l.latch sc 9 key
              unentered := d2.stp.unentered ++ [key] } }.when first (·.stopNotice 9 sc d2.now)).input d2.now 9 i
            (verdictBody 9 1 sc (location 6 0 0 .engine))) d1
  else d.inc P.STP_FENCE_BAD

/-- R233: the components of a released scope that a lane clears: its own live check passes, and the last event that set the
component stands in a record (or the cold start set it). -/
def Lane.release (l : Lane) (rel : Scope) (waiting : List EvKey) : Lane :=
  let free (c : Nat) : Bool :=
    match l.setBy.find? (fun e => e.1 == c) with
    | some e => !(waiting.contains e.2)
    | none => true
  { l with latched := {
      all := l.latched.all && !(rel.all && free 0)
      groups := maskOf ((setBits 16 l.latched.groups).filter fun g => !(bitOf rel.groups g && free (g + 1)))
      mask := maskOf ((setBits 96 l.latched.mask).filter fun m => !(bitOf rel.mask m && free (m + 17))) } }

/-- LANE_RECORD_APPLY (R219, R233): at C(k) + 12 ms lane `i` receives the record and the fence table of cycle k.  `good` says that
the table and the list reached it uncorrupted. -/
def execLaneRecordApply (t i : Nat) (good : Bool) (s : State) : Host.Outcome State Fault Refusal := run s fun d0 =>
  let d := d0.at t
  if i < 3 && !(nth d.stp.lanes i).failed then
    let d1 := match d.stp.pendingFence with
      | some (k, f, l) => if good then d.laneFence i k f l else d.inc P.STP_FENCE_BAD
      | none => d
    match d1.stp.lastRecord with
    | some (k, rel) =>
      if d1.commitAt k + 12 * ms ≤ d1.now && d1.liveCheck then
        { d1 with stp := { d1.stp with lanes := upd d1.stp.lanes i fun (l : Lane) => l.release rel d1.stp.unentered } }
      else d1
    | none => d1
  else d

/-- FENCE_DEADLINE (R219): at C(k) + 40 ms lane `i` holds no accepted fence table and list of cycle k or later: its permit clears. -/
def execFenceDeadline (t i k : Nat) (s : State) : Host.Outcome State Fault Refusal := run s fun d0 =>
  let d := d0.at t
  let l := nth d.stp.lanes i
  let held := match l.fenceCycle with | some j => decide (k ≤ j) | none => false
  let told := match l.lateFor with | some j => decide (k ≤ j) | none => false
  let begun := match d.cyc.origin with | some o => decide (o ≤ k) | none => false
  if i < 3 && begun && d.commitAt k + 40 * ms ≤ d.now && !held && !told then
    { d with stp := { d.stp with lanes := d.stp.lanes.set i { l with lateFor := some k } } }.inc P.STP_FENCE_LATE
  else d

/-! ### Safety outputs -/

/-- R230: a safety output fault: source 11, the count, notice 0x2886; both outputs go off. -/
def Dev.outFaultRaise (d : Dev) (o cause : Nat) : Dev :=
  if d.stp.outFault then d
  else
    let loc := location 6 0xFF 0xFF .engine
    ((({ d with stp := { d.stp with outFault := true } }.inc P.STP_OUT_FAULTS).faultLast 0x2886 loc).noticeT 0x2886
      (le 1 o ++ le 1 cause)).laneStop 11 2 Scope.allScope loc

/-- SAFE_OUT_TEST (R230, R510): an active output was pulsed off for 200 µs and its feedback followed (`ok`) or not. -/
def execSafeOutTest (t o : Nat) (ok : Bool) (s : State) : Host.Outcome State Fault Refusal := run s fun d0 =>
  let d := d0.at t
  if o < 2 && d.stp.outOn && !ok then d.outFaultRaise o 2 else d

/-- SAFE_FB_MISMATCH (R230): the feedback of output `o` reads `fb` and has disagreed with its output since `since`, outside a test,
for more than 2 ms. -/
def execSafeFbMismatch (t o since : Nat) (fb : Bool) (s : State) : Host.Outcome State Fault Refusal := run s fun d0 =>
  let d := d0.at t
  if o < 2 && fb != d.stp.outOn && since + 2 * ms < d.now then
    (d.wr P.STP_OUT_STATE 0 (setBit (d.rd P.STP_OUT_STATE) (2 + o) fb)).outFaultRaise o 1
  else d

/-- SAFE_FAULT_CLEAR (R230, R213): the feedback of each output has agreed with it since `since`, for 1 s. -/
def execSafeFaultClear (t since : Nat) (s : State) : Host.Outcome State Fault Refusal := run s fun d0 =>
  let d := d0.at t
  if d.stp.outFault && since + sec ≤ d.now then
    let on := if d.stp.outOn then 12 else 0
    (({ d with stp := { d.stp with outFault := false } }.wr P.STP_OUT_STATE 0 (d.rd P.STP_OUT_STATE % 4 + on))).laneInputs
      11 3 Scope.allScope (location 6 0xFF 0xFF .engine)
  else d

/-- A slice becomes FAULT until the next cold start (R229, R242). -/
def Dev.sliceFault (d : Dev) (i : Nat) : Dev :=
  if d.rd P.STP_SLICE_STATE i = 2 then d
  else ((d.wr P.STP_SLICE_STATE i 2).faultLast 0x2883 (location 7 0 i .slice)).noticeT 0x2883 (le 1 i)

/-- STARTUP_TESTS (R514, Table 20.3): the result of the tests as a mask, with the lanes, E-stop channels and slices that failed. -/
def execStartupTests (t mask lanes chans slices : Nat) (s : State) : Host.Outcome State Fault Refusal := run s fun d0 =>
  let d := d0.at t
  if d.cyc.origin.isNone && !d.stp.testsDone then
    let d1 := { d with stp := { d.stp with testsDone := true } }.log 0x28C0 0xFF (le 2 mask)
    let bad := setBits 3 lanes
    let d2 := d1.when (bitOf mask 0) fun d =>
      if 2 ≤ bad.length then d.voterFail else bad.foldl (fun d i => d.isolate i) d
    let d3 := d2.when (bitOf mask 1) Dev.voterFail
    let d4 := d3.when (bitOf mask 2 || bitOf mask 3 || bitOf mask 4) Dev.packageVerdict
    let d5 := d4.when (bitOf mask 5) fun d => d.outFaultRaise 0 2
    let d6 := d5.when (bitOf mask 6) fun d => (setBits 4 chans).foldl (fun d i => d.circuitFault i 1) d
    d6.when (bitOf mask 7) fun d => (setBits 4 slices).foldl (fun d i => d.sliceFault i) d
  else d

/-- R509: whether a decoded beacon body disagrees with the vote word a lane kept of its formation tick. -/
def Dev.beaconMismatch (d : Dev) (body : Bytes) (v : Option Vote) : Bool :=
  match v with
  | some v => bitOf (fld body 1 1) 0 != v.scope.all || fld body 20 2 != v.scope.groups || fld body 24 12 != d.effMask v.scope
      || fld body 16 4 != v.seq
  | none => false

/-- BEACON_SELF_LISTEN (R229, R509): the beacon that slice `i` sent last was heard through RFMONi with the decoded body, or not. -/
def execBeaconSelfListen (t i : Nat) (heard : Option Bytes) (s : State) : Host.Outcome State Fault Refusal := run s fun d0 =>
  let d := d0.at t
  if i < 4 && d.rd P.STP_SLICE_STATE i == 1 then
    match heard with
    | none =>
      let n := nth d.stp.unheard i + 1
      let d1 := { d with stp := { d.stp with unheard := d.stp.unheard.set i n } }.inc P.STP_BCN_UNHEARD i
      if 3 ≤ n then d1.sliceFault i else d1
    | some body =>
      let d1 := { d with stp := { d.stp with unheard := d.stp.unheard.set i 0 } }
      let bad := ((nth d1.stp.kept i).filter (d1.beaconMismatch body)).length
      if 2 ≤ bad || bad = 1 && d1.rd P.STP_MODE = 1 then d1.packageVerdict else d1
  else d

end Sys2Proof.Machine
end

