-- ==== Sys2Proof/Machine/FieldBus.lean ====
section
/-!
DEFINITION. The Field Bus engine: controllers and their states, buffers, transmission order, identifier clash, error limits, reference messages and
ISO 11783 address management (Chapter 12: R310 to R335).
-/
namespace Sys2Proof.Machine
open Sys2Proof

/-- The Field Bus engine's state changed. -/
def Dev.canSt (d : Dev) (f : CanSt → CanSt) : Dev := { d with can := f d.can }

/-! ### Buffers -/

/-- The configuration of buffer `i` in force (R317). -/
def Dev.bufCfg (d : Dev) (i : Nat) : Bytes :=
  le 16 (match d.can.cfg.find? (·.1 == i) with
    | some e => e.2
    | none => resetVal (regKey P.CAN_BUF_CFG i))

/-- Buffer `i`. -/
def Dev.canBuf (d : Dev) (i : Nat) : CanBuf :=
  match d.can.bufs.find? (·.i == i) with
  | some b => b
  | none => { i := i }

/-- Buffer placed. -/
def Dev.putBuf (d : Dev) (b : CanBuf) : Dev :=
  d.canSt fun c => { c with bufs := insertBy (fun (x y : CanBuf) => decide (x.i < y.i)) b (c.bufs.filter (·.i != b.i)) }

/-- Whether firmware holds buffer `i` (Table 12.4). -/
def Dev.bufFirmware (d : Dev) (i : Nat) : Bool :=
  let b := i % 64
  let c := i / 64
  (48 ≤ b && b ≤ 55) || (56 ≤ b && b ≤ 62 && c == 0 && d.rd P.CAN_ISO_EN == 1) || (b == 63 && d.rd P.CAN_REF_ROLE c != 0)

/-- Data bytes of a DLC (ISO 11898-1). -/
def dlcLen (dlc : Nat) : Nat := if dlc ≤ 8 then dlc else nth [12, 16, 20, 24, 32, 48, 64] (dlc - 9)

/-- The record of a buffer (Table 12.6) with its flag bits 2:0 given. -/
def CanBuf.record (b : CanBuf) (low : Nat) : Bytes :=
  le 1 (low + 8 * bit b.f.ide + 16 * bit b.f.fdf + 32 * bit b.f.brs + 64 * bit b.f.esi) ++ le 1 b.f.dlc ++ le 1 b.f.data.length ++ le 1 b.txst ++
    le 4 b.f.id ++ le 8 (stamp64 b.f.sof) ++ le 4 b.seq ++ le 1 (b.i % 64) ++ le 3 0 ++ fit 64 b.f.data

/-- R318: a read takes and clears `NEWDAT` and `MSGLOST`, copies, and takes `NEWDAT` again; `during` is a frame that the controller stores while it copies. -/
def Dev.bufRead (d : Dev) (i : Nat) : Bytes × Dev :=
  let b := d.canBuf i
  (b.record (bit b.newdat + 4 * bit b.lost), d.putBuf { b with newdat := false, lost := false })

/-- The transmitted arbitration bits of a frame, then its buffer (R323). -/
def CanBuf.arb (b : CanBuf) : List Nat :=
  if b.f.ide then [b.f.id / 2 ^ 18, 1, b.f.id % 2 ^ 18, b.i] else [b.f.id % 2 ^ 11, 0, 0, b.i]

/-- PENDING buffers of a controller, highest priority first. -/
def Dev.canPending (d : Dev) (c : Nat) : List CanBuf :=
  sortBy (fun (a b : CanBuf) => lexLt a.arb b.arb) (d.can.bufs.filter fun b => b.i / 64 == c && b.txst == 1)

/-- The buffer that is being sent or would be offered next (R323). -/
def Dev.canOffered (d : Dev) (c : Nat) : Option CanBuf :=
  match d.can.bufs.find? (fun b => b.i / 64 == c && b.txst == 2) with
  | some b => some b
  | none => (d.canPending c).head?

/-! ### Controller states -/

/-- A controller's state set (Table 12.1), with notice 0x4880; at BUS_OFF the record of every pending buffer (R325). -/
def Dev.canState (d : Dev) (c new : Nat) : Dev :=
  let old := d.rd P.CAN_STATE c
  if old = new then d
  else
    let pend := d.canPending c
    let top := match pend with
      | b :: _ => b.i % 64
      | [] => 255
    let d1 := (d.wr P.CAN_STATE c new).noticeT 0x4880
      (le 1 c ++ le 1 old ++ le 1 new ++ le 1 (d.rd P.CAN_TEC c) ++ le 1 (d.rd P.CAN_REC c) ++ le 1 top)
    d1.when (new == 3) (·.log 0x4880 0xFF (le 1 c ++ le 1 old ++ le 1 new ++ pend.flatMap fun b => le 1 (b.i % 64)))

/-- Error counters set, with the state they give (Table 12.1, R325); `tec` above 255 is bus-off. -/
def Dev.canErrors (d : Dev) (c tec rec_ : Nat) : Dev :=
  let d1 := (d.wr P.CAN_TEC c (min 255 tec)).wr P.CAN_REC c (min 255 rec_)
  let st := d1.rd P.CAN_STATE c
  if st ≠ 1 ∧ st ≠ 2 then d1
  else if 255 < tec then
    let d2 := d1.canSt fun x => { x with offs := upd x.offs c fun l => (l.filter fun t => d.now < t + 60 * sec) ++ [d.now] }
    -- a transmission under way is pending again
    let d3 := { d2 with can := { d2.can with bufs := d2.can.bufs.map fun (b : CanBuf) => if b.i / 64 = c ∧ b.txst = 2 then { b with txst := 1 } else b } }
    (d3.inc P.CAN_BUSOFF c).canState c 3
  else if 128 ≤ tec ∨ 128 ≤ rec_ then d1.canState c 2
  else d1.canState c 1

/-- A unit that is not ACTIVE only listens (R312). -/
def Dev.canSync (d : Dev) (c : Nat) : Dev :=
  let st := d.rd P.CAN_STATE c
  if !d.active && (st == 1 || st == 2) then ((d.wr P.CAN_TEC c 0).wr P.CAN_REC c 0).canState c 5 else d

/-- Every pending transmission of a controller that passes a test is aborted. -/
def Dev.canAbort (d : Dev) (c : Nat) (f : Nat → Bool) : Dev :=
  d.canSt fun x => { x with bufs := x.bufs.map fun (b : CanBuf) => if b.i / 64 = c ∧ b.txst = 1 ∧ f b.i then { b with txst := 4 } else b }

/-- A frame the unit's own firmware puts on CAN-A. -/
def Dev.isoSend (d : Dev) (sa : Nat) : Dev := d.emit (.can 0 56 (0x18EEFF00 + sa) (d.wire P.CAN_ISO_NAME 0))

/-- R310, R311, R317, R323, R332: a bus-idle instant of a controller: its mode and buffer configurations take effect, the unit's part is taken up or
dropped, and the frame that would win arbitration is offered. -/
def execCanModeApply (t c : Nat) (s : State) : Host.Outcome State Fault Refusal := run s fun d0 =>
  let d := (d0.at t).canSync c
  if 2 < c ∨ d.can.failed.contains c then d
  else
    let mode := d.rd P.CAN_MODE c
    let cfg := (List.range 64).map fun b => (64 * c + b, d.rd P.CAN_BUF_CFG (64 * c + b))
    let d1 := d.canSt fun x => { x with mode := x.mode.set c mode, cfg := x.cfg.filter (fun e => e.1 / 64 != c) ++ cfg }
    let st := d1.rd P.CAN_STATE c
    if mode = 0 then (((d1.canAbort c fun _ => true).wr P.CAN_TEC c 0).wr P.CAN_REC c 0).canState c 0
    else
      let d2 := if st = 0 then d1.canState c (if d1.active then 1 else 5)
        else if st = 5 ∧ d1.active then
          (d1.canState c 1).when (c == 0 && d1.rd P.CAN_ISO_EN == 1 && d1.rd P.CAN_ISO_STATE == 2) (fun d => d.isoSend (d.rd P.CAN_ISO_ADDR_NOW))
        else d1
      let st2 := d2.rd P.CAN_STATE c
      if st2 = 1 ∨ st2 = 2 then
        match d2.canOffered c with
        | some b => d2.putBuf { b with txst := 2 }
        | none => d2
      else d2

/-! ### Reception -/

/-- Whether a frame matches a receive buffer's configuration (R317). -/
def cfgMatches (cfg : Bytes) (f : CanFrame) : Bool :=
  let fl := fld cfg 1 1
  fld cfg 0 1 == 1 && (f.id ^^^ fld cfg 4 4) &&& fld cfg 8 4 == 0 && f.ide == bitOf fl 0 && (!f.fdf || bitOf fl 1)

/-- R330: a reference taken by a follower. -/
def Dev.refTake (d : Dev) (c : Nat) (f : CanFrame) : Dev :=
  let id := d.rd P.CAN_REF_ID c
  if d.rd P.CAN_REF_ROLE c = 2 ∧ f.id = id % 2 ^ 29 ∧ f.ide = bitOf id 31 ∧ !f.fdf ∧ f.dlc = 8 then
    let seq := fld f.data 0 1
    let secs := toS 32 (ofS 32 ((fld f.data 1 4 : Int) - (f.sof / sec % 2 ^ 32 : Nat)))
    let off := secs * 1000000000 + ((fld f.data 5 3 * 64 : Nat) : Int) - (f.sof % sec : Nat)
    let gap : Bool := match nth d.can.refLast c with
      | some _ => seq != (d.rd P.CAN_REF_SEQ c + 1) % 256
      | none => false
    let d1 := ((d.wrS P.CAN_REF_OFFSET c (satS 32 off)).wr P.CAN_REF_SEQ c seq).when gap (·.inc P.CAN_REF_MISSED c)
    d1.canSt fun x => { x with refLast := x.refLast.set c (some d.now), refLost := x.refLost.set c false }
  else d

/-- R310, R317, R321, R322: a frame received without error. -/
def execCanFrameReceive (t c : Nat) (f : CanFrame) (s : State) : Host.Outcome State Fault Refusal := run s fun d0 =>
  let d := (d0.at t).canSync c
  let st := d.rd P.CAN_STATE c
  if 2 < c ∨ (st ≠ 1 ∧ st ≠ 2 ∧ st ≠ 5) ∨ (f.fdf ∧ nth d.can.mode c ≠ 2) then d
  else
    let rec_ := d.rd P.CAN_REC c
    -- ISO 11898-1 lets REC fall to a value from 119 to 127
    let (v, d1) := if 127 < rec_ then let (x, y) := d.free; (119 + x % 9, y) else (rec_ - 1, d)
    let d2 := (d1.inc P.CAN_RX_FRAMES c).canErrors c (d.rd P.CAN_TEC c) v
    if f.rtr then d2.inc P.CAN_RTR_IGN c
    else
      let wireId := f.id + (if f.ide then 2 ^ 31 else 0)
      let d3 := (d2.canStopFrame c wireId (fld f.data 0 1) f.sof).refTake c f
      match (List.range 64).find? (fun b => cfgMatches (d3.bufCfg (64 * c + b)) f) with
      | none => d3
      | some b =>
        let i := 64 * c + b
        let old := d3.canBuf i
        let core := bitOf (fld (d3.bufCfg i) 1 1) 3
        let full := decide (256 ≤ (nth d3.chutes 7).waiting.length)
        let (seq, d4) := if core && !full then d3.takeSeq 3 c else (0, d3)
        let nb : CanBuf := { i := i, newdat := true, lost := old.newdat, f := f, seq := seq }
        let d5 := d4.putBuf nb
        if !core then d5
        else if full then d5.inc P.CAN_RX_OVF c
        else { d5 with chutes := upd d5.chutes 7 fun x =>
          { x with waiting := x.waiting ++ [{ stamp := f.sof, cls := 3, idx := c, seq := seq, payload := nb.record 0 }] } }

/-- R325: an error detected while receiving raises REC, by 8 where `dominant` (ISO 11898-1). -/
def execCanReceiveError (t c : Nat) (dominant : Bool) (s : State) : Host.Outcome State Fault Refusal := run s fun d0 =>
  let d := (d0.at t).canSync c
  let st := d.rd P.CAN_STATE c
  if 2 < c ∨ (st ≠ 1 ∧ st ≠ 2 ∧ st ≠ 5) then d
  else
    let d1 := d.inc P.CAN_ERR_FRAMES c
    if st = 5 then d1 else d1.canErrors c (d.rd P.CAN_TEC c) (d.rd P.CAN_REC c + if dominant then 8 else 1)

/-! ### Transmission -/

/-- The data a buffer's frame carries on the bus: a reference carries the time of its own start of frame (R329). -/
def Dev.sentData (d : Dev) (b : CanBuf) (sof : Nat) : Bytes :=
  if b.i % 64 = 63 ∧ d.rd P.CAN_REF_ROLE (b.i / 64) = 1 then
    le 1 (d.rd P.CAN_REF_SEQ (b.i / 64)) ++ le 4 (sof / sec % 2 ^ 32) ++ le 3 (sof % sec / 64)
  else b.f.data

/-- R323, R324, R314: an acknowledged, error-free frame of buffer `b`; `loop` is the loop delay measured on an FD frame with bit-rate switching. -/
def execCanFrameSent (t c b sof loop : Nat) (s : State) : Host.Outcome State Fault Refusal := run s fun d0 =>
  let d := (d0.at t).canSync c
  let st := d.rd P.CAN_STATE c
  match d.canOffered c with
  | some x =>
    if 2 < c ∨ (st ≠ 1 ∧ st ≠ 2) ∨ x.i ≠ 64 * c + b then d
    else
      let data := d.sentData x sof
      let d1 := d.putBuf { x with txst := 3, errs := 0, abort := false, f := { x.f with sof := sof, data := data } }
      let d2 := ((d1.inc P.CAN_TX_FRAMES c).when (x.f.fdf && x.f.brs) (·.wr P.CAN_TDC_MEAS c (min 255 loop))).emit (.can c b x.f.id data)
      d2.canErrors c (d.rd P.CAN_TEC c - 1) (d.rd P.CAN_REC c)
  | none => d

/-- R324, R325: a transmit error of buffer `b`; kind 1 a bit error in the control or data field, 2 a missing acknowledgement, else another. -/
def execCanTxError (t c b kind : Nat) (s : State) : Host.Outcome State Fault Refusal := run s fun d0 =>
  let d := (d0.at t).canSync c
  let st := d.rd P.CAN_STATE c
  match d.canOffered c with
  | some x =>
    if 2 < c ∨ (st ≠ 1 ∧ st ≠ 2) ∨ x.i ≠ 64 * c + b then d
    else
      let errs := x.errs + bit (kind == 1)
      let clash := kind == 1 && errs % 3 == 0
      let stop := clash && d.rd P.CAN_CLASH_ACT c == 1
      let txst := if x.abort then 4 else if stop then 5 else 1
      let d1 := (d.putBuf { x with txst := txst, errs := errs, abort := false }).inc P.CAN_ERR_FRAMES c
      let d2 := if clash then
          ((d1.inc P.CAN_CLASH c).wr P.CAN_CLASH_LAST c x.f.id).noticeT 0x4881 (le 1 c ++ le 1 b ++ le 4 x.f.id ++ le 1 (bit stop))
        else d1
      d2.canErrors c (d.rd P.CAN_TEC c + if kind = 2 ∧ st = 2 then 0 else 8) (d.rd P.CAN_REC c)
  | none => d

/-- R326: automatic recovery starts, unless the controller has gone bus-off too often in the last 60 s. -/
def execCanRecoveryStart (t c : Nat) (s : State) : Host.Outcome State Fault Refusal := run s fun d0 =>
  let d := d0.at t
  let offs := (nth d.can.offs c).filter fun x => t < x + 60 * sec
  let since := (nth d.can.offs c).getLastD 0
  if c ≤ 2 ∧ d.rd P.CAN_STATE c = 3 ∧ d.rd P.CAN_RECOVER c = 1 ∧ since + d.rd P.CAN_RECOVER_MS c * ms ≤ t ∧ offs.length ≤ d.rd P.CAN_RECOVER_MAX c then
    d.canState c 4
  else d

/-- Table 12.1: 128 occurrences of 11 recessive bits end recovery, with both counters 0. -/
def execCanRecoveryDone (t c : Nat) (s : State) : Host.Outcome State Fault Refusal := run s fun d0 =>
  let d := d0.at t
  if c ≤ 2 ∧ d.rd P.CAN_STATE c = 4 then ((d.wr P.CAN_TEC c 0).wr P.CAN_REC c 0).canState c 1 else d

/-- R333: a parity error or a stuck receive input takes the controller OFF until the next cold start. -/
def execCanControllerFault (t c cause : Nat) (s : State) : Host.Outcome State Fault Refusal := run s fun d0 =>
  let d := d0.at t
  if 2 < c ∨ d.can.failed.contains c then d
  else ((d.canSt fun x => { x with failed := x.failed ++ [c] }).canState c 0).fault 0x4882 (location 9 c 0 .tile) (le 1 cause)

/-- What the host's `CAN.CTRL` does (R326, R327): 1 starts recovery, 2 aborts every PENDING host buffer. -/
def Dev.canCtrl (d : Dev) (c v : Nat) : Dev :=
  if v = 1 then d.when (d.rd P.CAN_STATE c == 3) (·.canState c 4)
  else if v = 2 then d.canAbort c fun i => !d.bufFirmware i else d

/-- What `CAN.TX_ABORT` does (R320): a PENDING buffer is ABORTED, a SENDING one when its attempt ends without success. -/
def Dev.txAbort (d : Dev) (i : Nat) : Dev :=
  let b := d.canBuf i
  if b.txst = 1 then d.putBuf { b with txst := 4 } else if b.txst = 2 then d.putBuf { b with abort := true } else d

/-- Status of a host write of buffer `i` (R316, R320), 0 where it is accepted. -/
def Dev.bufWriteStatus (d : Dev) (i : Nat) (r : Bytes) : Nat :=
  let b := d.canBuf i
  let dlc := fld r 1 1
  let fd := bitOf (fld (d.bufCfg i) 1 1) 1
  if d.bufFirmware i then 5
  else if fld (d.bufCfg i) 0 1 ≠ 2 then 5
  else if 15 < dlc ∨ fld r 2 1 ≠ (if fd then dlcLen dlc else min 8 dlc) ∨ (!fd && 8 < dlc) then 4
  else if b.txst = 2 then 1 else 0

/-- The write itself: the buffer is PENDING. -/
def Dev.bufWrite (d : Dev) (i : Nat) (r : Bytes) : Dev :=
  let fl := fld (d.bufCfg i) 1 1
  d.putBuf { i := i, txst := 1
             f := { ide := bitOf fl 0, fdf := bitOf fl 1, brs := bitOf fl 2, id := fld r 4 4 % 2 ^ 29, dlc := fld r 1 1, data := cut r 24 (fld r 2 1) } }

/-! ### Reference messages -/

/-- R329: a master schedules a reference; one that has not been sent by then is aborted. -/
def execCanRefSchedule (t c : Nat) (s : State) : Host.Outcome State Fault Refusal := run s fun d0 =>
  let d := d0.at t
  let period := d.rd P.CAN_REF_PERIOD c * ms
  if 2 < c ∨ d.rd P.CAN_REF_ROLE c ≠ 1 ∨ !d.timeSet ∨ !d.active ∨ period = 0 ∨ t % max 1 period ≠ 0 then d
  else
    let i := 64 * c + 63
    let old := d.canBuf i
    let d1 := d.when (old.txst == 1 || old.txst == 2) (·.inc P.CAN_REF_MISSED c)
    let seq := (d1.rd P.CAN_REF_SEQ c + 1) % 256
    let id := d1.rd P.CAN_REF_ID c
    (d1.wr P.CAN_REF_SEQ c seq).putBuf { i := i, txst := 1, f := { ide := bitOf id 31, id := id % 2 ^ 29, dlc := 8, data := le 1 seq ++ zeros 7 } }

/-- R330: three periods without a reference. -/
def execCanRefLost (t c : Nat) (s : State) : Host.Outcome State Fault Refusal := run s fun d0 =>
  let d := d0.at t
  match nth d.can.refLast c with
  | some l =>
    if c ≤ 2 ∧ d.rd P.CAN_REF_ROLE c = 2 ∧ l + 3 * d.rd P.CAN_REF_PERIOD c * ms ≤ t ∧ !nth d.can.refLost c then
      (d.canSt fun x => { x with refLost := x.refLost.set c true }).noticeT 0x4884 (le 1 c ++ le 1 (d.rd P.CAN_REF_SEQ c))
    else d
  | none => d

/-! ### ISO 11783 -/

/-- The ISO state set, with notice 0x4883. -/
def Dev.isoState (d : Dev) (new addr : Nat) : Dev :=
  let old := d.rd P.CAN_ISO_STATE
  let d1 := (d.wr P.CAN_ISO_STATE 0 new).wr P.CAN_ISO_ADDR_NOW 0 addr
  if old = new then d1 else d1.noticeT 0x4883 (le 1 old ++ le 1 new ++ le 1 addr)

/-- An address claimed: the claim is sent and its wait begins. -/
def Dev.isoClaim (d : Dev) (addr : Nat) : Dev :=
  ((d.canSt fun x => { x with claimAt := d.now }).isoState 1 addr).isoSend addr

/-- The address lost (R331): the lowest free one from 128 to 247 where the NAME is self-configurable (its top bit), else Cannot Claim Address. -/
def Dev.isoLose (d : Dev) : Dev :=
  let next := if bitOf (d.rd P.CAN_ISO_NAME) 63 then ((List.range 120).map (· + 128)).find? fun a => !d.can.heard.any fun e => e.1 == a else none
  match next with
  | some a => d.isoClaim a
  | none => (d.isoState 3 254).isoSend 254

/-- R331: a step of network management on CAN-A.  Event 0: the controller can send; 1: a claim of address `addr` by NAME `name` is received; 2: a request for
Address Claimed is received; 3: the claim wait of 250 ms has passed. -/
def execIsoAddressClaim (t ev addr name : Nat) (s : State) : Host.Outcome State Fault Refusal := run s fun d0 =>
  let d := (d0.at t).canSync 0
  let st := d.rd P.CAN_ISO_STATE
  let own := d.rd P.CAN_ISO_NAME
  let cs := d.rd P.CAN_STATE 0
  if d.rd P.CAN_ISO_EN ≠ 1 ∨ (cs ≠ 1 ∧ cs ≠ 2) then d
  else match ev with
    | 0 => if st = 0 then d.isoClaim (d.rd P.CAN_ISO_ADDR) else d
    | 1 =>
      let d1 := d.canSt fun x => { x with heard := (addr, name) :: x.heard.filter fun e => e.2 != name && e.1 != addr }
      if (st = 1 ∨ st = 2) ∧ addr = d.rd P.CAN_ISO_ADDR_NOW then (if own < name then d1.isoSend addr else d1.isoLose) else d1
    | 2 => if st = 1 ∨ st = 2 ∨ st = 3 then d.isoSend (d.rd P.CAN_ISO_ADDR_NOW) else d
    | 3 => if st = 1 ∧ d.can.claimAt + 250 * ms ≤ t then d.isoState 2 (d.rd P.CAN_ISO_ADDR_NOW) else d
    | _ => d

/-- After a cold start every controller is OFF (Table 12.1). -/
def Dev.canCold (d : Dev) : Dev :=
  let d1 := { d with can := {} }
  let d2 := [0, 1, 2].foldl (fun d c => ((d.wr P.CAN_STATE c 0).wr P.CAN_TEC c 0).wr P.CAN_REC c 0) d1
  (d2.wr P.CAN_ISO_STATE 0 0).wr P.CAN_ISO_ADDR_NOW 0 254

end Sys2Proof.Machine
end

