-- ==== Sys2Proof/Machine/RtkBase.lean ====
section
/-!
DEFINITION. What reception and the RTK stage share: the rejection of a machine's report (R126, R127, R150).
-/
namespace Sys2Proof.Machine
open Sys2Proof

/-- A report of machine `n` rejected under rule `rule` of R126 (0: a type that does not match the mode), with notice 0x1882 for the first in
any 10 s. -/
def Dev.rtkBad (d : Dev) (n rule len stamp : Nat) : Dev :=
  let d1 := d.inc P.RTK_BAD n
  if d1.com.rtk.noticed.any fun e => e.1 == n && stamp < e.2 + 10 * sec then d1
  else
    let l := (n, stamp) :: d1.com.rtk.noticed.filter fun e => e.1 != n
    { d1 with com := { d1.com with rtk := { d1.com.rtk with noticed := l } } }.notice 0x1882
      (le 1 n ++ le 1 rule ++ le 2 len ++ le 8 (stamp64 stamp))

end Sys2Proof.Machine
end

