-- ==== Sys2Proof/Machine/Air.lean ====
section
/-!
DEFINITION. The air link: slices, hopping and dwell, frames, reception, transmission, fragments, flooding, keys and link
configuration (Chapter 9: R240 to R272), and the beacons and stop frames that the slices send (R224 to R226, R508, R512).
-/
namespace Sys2Proof.Machine
open Sys2Proof

/-! ### Channels and dwell -/

/-- Byte time of a rate mode in microseconds (Table 9.1). -/
def byteTime (rate : Nat) : Nat := ([32, 16, 16, 8, 8, 4] : List Nat).getD rate 32

/-- On-air time of a PSDU of `n` bytes in microseconds (R248). -/
def airTime (rate n : Nat) : Nat := (8 + n) * byteTime rate

/-- One row of Table 9.2: band, allowed modes, channels, budget (µs), bin length (cycles), bins. -/
structure Profile where
  band : Nat
  modes : List Nat
  n : Nat
  budget : Nat
  bin : Nat
  bins : Nat
  window : Nat
  deriving DecidableEq, Repr

/-- Table 9.2; the window in milliseconds. -/
def profile : Nat → Profile
  | 0 => ⟨1, [0, 2], 64, 400000, 1, 200, 10000⟩
  | 1 => ⟨0, [0, 1, 2], 75, 400000, 1, 600, 30000⟩
  | 2 => ⟨0, [3, 4, 5], 37, 400000, 1, 296, 14800⟩
  | 3 => ⟨0, [0, 1, 2], 78, 400000, 1, 624, 31200⟩
  | 4 => ⟨0, [3, 4, 5], 39, 400000, 1, 312, 15600⟩
  | _ => ⟨1, [0, 2], 4, 360000000, 72, 1000, 3600000⟩

/-- The profile in force for a slice. -/
def Dev.profileOf (d : Dev) (i : Nat) : Profile := profile (d.cf P.AIR_PROFILE (d.cf P.AIR_BAND i))

/-- One xorshift32 step. -/
def xorshift (x : BitVec 32) : BitVec 32 :=
  let a := x ^^^ (x <<< 13)
  let b := a ^^^ (a >>> 17)
  b ^^^ (b <<< 5)

/-- The Fisher-Yates shuffle of `hop_channel`, from index `j` down. -/
def shuffle : Nat → BitVec 32 → List Nat → List Nat
  | 0, _, p => p
  | j + 1, x, p =>
    let y := xorshift x
    let r := y.toNat % (j + 2)
    let a := nth p (j + 1); let b := nth p r
    shuffle j y ((p.set (j + 1) b).set r a)

/-- Procedure `hop_channel` (R243). -/
def hopChannel (hub n i k : Nat) : Nat :=
  nth (shuffle (n - 1) (BitVec.ofNat 32 hub ||| 1) (List.range n)) ((u32 k + i * (n / 4)) % n)

/-- The channel of a slice in cycle `k`. -/
def Dev.channel (d : Dev) (i k : Nat) : Nat := hopChannel (d.cf P.STP_HUB_ID) (d.profileOf i).n i k

/-- Instance of `AIR.DWELL_USED` for a band and channel. -/
def dwellKey (band c : Nat) : Nat := band * 128 + c

/-- Used(c) at cycle `k` (R246), in microseconds. -/
def Dev.used (d : Dev) (i c k : Nat) : Nat :=
  let p := d.profileOf i
  (d.air.bins.filter fun b => b.chan == dwellKey p.band c && k / p.bin ≤ b.no + p.bins).foldl (fun n b => n + b.used) 0

/-- Transmit time added to a channel's bin in progress. -/
def addBin (chan no t : Nat) (l : List Bin) : List Bin :=
  if l.any (fun b => b.chan == chan && b.no == no) then
    l.map fun b => if b.chan == chan && b.no == no then { b with used := b.used + t } else b
  else l ++ [{ chan := chan, no := no, used := t }]

/-- The transmit time of an aborted frame that did not go on air taken back. -/
def subBin (chan no t : Nat) (l : List Bin) : List Bin :=
  l.map fun b => if b.chan == chan && b.no == no then { b with used := b.used - t } else b

/-- Transmit time counted on a slice's channel in cycle `k`. -/
def Dev.spend (d : Dev) (i c k t : Nat) : Dev :=
  let p := d.profileOf i
  let key := dwellKey p.band c
  let d1 := { d with air := { d.air with bins := addBin key (k / p.bin) t d.air.bins } }
  d1.wr P.AIR_DWELL_USED key (d1.used i c k)

/-- R246: whether a frame of class `cls` (1 beacon or stop copy, 2 other) and of `t` µs may start on slice `i`, channel `c`; a refusal
is counted, silences the class for the cycle and raises notice 0x3080 the first time in a window. -/
def Dev.dwell (d : Dev) (i c k cls t : Nat) : Bool × Dev :=
  let p := d.profileOf i
  let u := d.used i c k
  if d.air.silent.any (fun x => x.1 == i && x.2.1 == c && x.2.2.1 == cls && x.2.2.2 == k) then (false, d)
  else if u + t ≤ (if cls = 1 then p.budget else p.budget - d.cf P.AIR_SAFE_RESERVE * 1000) then (true, d)
  else
    let key := dwellKey p.band c
    let recent := d.air.refusedAt.any fun e => e.1 == key && d.now < e.2 + p.window * ms
    let silent := (i, c, cls, k) :: d.air.silent.filter fun x => x.2.2.2 == k
    let refused := if recent then d.air.refusedAt else (key, d.now) :: d.air.refusedAt.filter fun e => e.1 != key
    let d1 := { d with air := { d.air with silent := silent, refusedAt := refused } }.inc P.AIR_SILENCED i
    (false, if recent then d1 else d1.noticeT 0x3080 (le 1 i ++ le 1 p.band ++ le 1 c ++ le 1 cls ++ le 4 u))

/-- Whether a slice may send: the unit is ACTIVE, not in replay, the slice IN_SERVICE. -/
def Dev.mayRadio (d : Dev) (i : Nat) : Bool := i < 4 && !d.replay && d.rd P.STP_SLICE_STATE i == 1

/-! ### Keys and frame counters -/

/-- The key instance of an air address: machine n, remote i, else the permit key (Table 9.4, R272). -/
def keyInstOf (addr : Nat) : Nat :=
  if 0x0101 ≤ addr && addr ≤ 0x0160 then addr - 0x0100
  else if 0x0800 ≤ addr && addr ≤ 0x080F then addr - 0x0800 + 112
  else 0

/-- Key instances that exist (R272). -/
def keyInstOk (i : Nat) : Bool := i ≤ 96 || (112 ≤ i && i ≤ 127)

/-- A key instance's record. -/
def Dev.airKey (d : Dev) (i : Nat) : AirKey :=
  match d.air.keys.find? (·.inst == i) with
  | some k => k
  | none => { inst := i }

/-- A key instance's record replaced. -/
def Dev.setAirKey (d : Dev) (k : AirKey) : Dev :=
  { d with air := { d.air with keys := k :: d.air.keys.filter (·.inst != k.inst) } }

/-- The frame counter value from which nothing is sent (R265). -/
def fcntStick : Nat := 0xFFFFFFEF

/-- Whether a key instance can secure a frame of this unit: a current key and a counter that has not stuck (R265, R266). -/
def Dev.keyUsable (d : Dev) (i : Nat) : Bool := (d.airKey i).cur.isSome && d.rd P.AIR_FCNT i < fcntStick

/-- R265: frames queued under a stuck counter are dropped and counted. -/
def Dev.refuseStuck (d : Dev) (inst : Nat) : Dev :=
  let bad (f : TxFrame) : Bool := f.key == inst && f.psdu.isNone
  let n := d.air.queues.foldl (fun n q => n + (q.filter bad).length) 0
  { d with air := { d.air with queues := d.air.queues.map fun (q : List TxFrame) => q.filter fun f => !bad f } }.incBy P.AIR_FCNT_REFUSED 0 n

/-- R265: the next frame counter value of a key instance taken, with the mark moved on in MRAM and the notices. -/
def Dev.takeFcnt (d : Dev) (inst : Nat) : Nat × Dev :=
  let v := d.rd P.AIR_FCNT inst
  let n := min (v + 1) fcntStick
  let k := d.airKey inst
  let d1 := (d.setAirKey { k with mark := if k.mark ≤ n then k.mark + 65536 else k.mark }).wr P.AIR_FCNT inst n
  let d2 := d1.when (n == 0xF0000000) (·.notice 0x3081 (le 2 inst ++ le 4 n ++ le 1 1))
  let d3 := d2.when (n == fcntStick) fun d =>
    ({ d with sticky := regKey P.AIR_FCNT inst :: d.sticky }.notice 0x3081 (le 2 inst ++ le 4 n ++ le 1 2)).refuseStuck inst
  (v, d3)

/-- Nonce of a frame (R263). -/
def airNonce (origin hub kclass epoch fcnt : Nat) : Bytes :=
  le 2 origin ++ le 4 hub ++ le 1 kclass ++ le 1 epoch ++ le 4 fcnt ++ [6#8]

/-- The unit's side address. -/
def Dev.sideAddr (d : Dev) : Nat := d.side

/-- A PSDU formed (R249, R263): link part, authenticated part, encrypted payload, tag and FCS. -/
def formPsdu (key : Bytes) (hub fc lseq dst src origin target epoch nf fcnt mid part : Nat) (msg : Bytes) : Bytes :=
  let aad := le 2 origin ++ le 2 target ++ le 1 epoch ++ le 1 nf ++ le 4 fcnt ++ le 2 mid ++ le 1 part ++ [0#8]
  let nonce := airNonce origin hub (nf / 64 % 4) epoch fcnt
  let body := le 1 fc ++ le 1 lseq ++ le 2 dst ++ le 2 src ++ aad ++ xorB msg (ccmStream key nonce 1 msg.length) ++
    ccmTag key nonce aad msg 8
  body ++ le 4 (crc32 body)

/-- A frame of this unit formed for the air: it takes the next `FCNT` of its key and the next `LSEQ`. -/
def Dev.formFrame (d : Dev) (key machine : Nat) (flood : Bool) (ttl mid part : Nat) (msg : Bytes) : Bytes × Dev :=
  let (fcnt, d1) := d.takeFcnt key
  let kclass := if key = 0 then 0 else 1
  let target := if machine = 0 then 0xFFFF else 0x0100 + machine
  let k := match (d.airKey key).cur with | some k => k | none => zeros 16
  let lseq := d1.air.lseq
  let hops := if flood then ttl % 8 else 0
  let psdu := formPsdu k (d.cf P.STP_HUB_ID) ((if flood then 0 else 32) + hops) lseq (if flood then 0xFFFF else target) d.sideAddr
    d.sideAddr target (d.rd P.AIR_EPOCH key) (kclass * 64 + bit flood * 32 + hops * 4) fcnt mid part msg
  (psdu, { d1 with air := { d1.air with lseq := (lseq + 1) % 256 } })

/-! ### Queues -/

/-- Row of Table 9.6 of a message type. -/
def rowOf (type : Nat) : Nat :=
  if type = 0x39 || type = 0x3A then 4 else if type = 0x38 then 6 else 5

/-- Slices IN_SERVICE, ascending. -/
def Dev.slicesIn (d : Dev) : List Nat := [0, 1, 2, 3].filter fun i => d.rd P.STP_SLICE_STATE i == 1

/-- R255: the slice that carries unicast frames to machine `n`. -/
def Dev.sliceFor (d : Dev) (n : Nat) : Option Nat :=
  let named := match d.air.lastSlice.find? (·.1 == n) with
    | some e => e.2
    | none => d.cf P.AIR_HOME n
  [named, d.cf P.AIR_HOME n].find? (fun i => d.slicesIn.contains i) <|> d.slicesIn.head?

/-- An Air MAC trace record (Table 15.2). -/
def Dev.airTrace (d : Dev) (kind i type lseq origin dst : Nat) : Dev :=
  d.trace 5 kind (le 1 i ++ le 1 type ++ le 1 lseq ++ le 1 0 ++ le 2 origin ++ le 2 dst)

/-- The same, of a frame of this unit, with what its PSDU holds once it is formed. -/
def Dev.frameTrace (d : Dev) (kind i : Nat) (f : TxFrame) (psdu : Bytes) : Dev :=
  d.airTrace kind i f.type (fld psdu 1 1) d.side (if f.flood || f.machine = 0 then 0xFFFF else 0x0100 + f.machine)

/-- A frame put at the end of a slice's queue; at 256 it is dropped (R255). -/
def Dev.pushFrame (d : Dev) (i : Nat) (f : TxFrame) : Dev :=
  if 256 ≤ (nth d.air.queues i).length then (d.inc P.AIR_TX_DROP).frameTrace 6 i f []
  else { d with air := { d.air with queues := upd d.air.queues i (· ++ [f]) } }

/-- The fragments of a message (R259): index, last index, bytes. -/
def fragments (msg : Bytes) : List (Nat × Nat × Bytes) :=
  let bs := blocksOf 991 msg
  mapFrom (fun i b => (i, bs.length - 1, b)) 0 bs

/-- A message queued on a slice under a key instance. -/
def Dev.queueMsg (d : Dev) (i type machine key mid : Nat) (msg : Bytes) (flood : Bool) : Dev :=
  (fragments msg).foldl (fun d (j, last, b) =>
    d.pushFrame i { row := rowOf type, since := d.now, type := type, machine := machine, key := key, mid := mid,
                    frag := j, last := last, part := b, msg := msg, flood := flood }) d

/-- The next message identity (W). -/
def Dev.takeMid (d : Dev) : Nat × Dev := (d.air.mid, { d with air := { d.air with mid := (d.air.mid + 1) % 65536 } })

/-- R255, R257: a unicast message to machine `n`: direct, or flooded where its route is; a queued 0x33 is replaced by a newer one.
Without a slice in service it is dropped, under a stuck counter refused, without a key not sent (R265, R266). -/
def Dev.toMachine (d : Dev) (n type : Nat) (msg : Bytes) : Dev :=
  if !d.active || d.replay || (d.airKey n).cur.isNone then d
  else if fcntStick ≤ d.rd P.AIR_FCNT n then d.inc P.AIR_FCNT_REFUSED
  else
    let old (f : TxFrame) : Bool := type == 0x33 && f.type == 0x33 && f.machine == n
    let d1 := { d with air := { d.air with queues := d.air.queues.map fun (q : List TxFrame) => q.filter fun f => !old f } }
    let (mid, d2) := d1.takeMid
    match d2.sliceFor n with
    | some i => d2.queueMsg i type n n mid msg (d2.rd P.MSH_ROUTE n == 1)
    | none => d2.inc P.AIR_TX_DROP

/-- R255: a flooded message of the hub goes on every slice IN_SERVICE. -/
def Dev.toAll (d : Dev) (type : Nat) (msg : Bytes) : Dev :=
  if !d.active || d.replay || (d.airKey 0).cur.isNone then d
  else if fcntStick ≤ d.rd P.AIR_FCNT 0 then d.inc P.AIR_FCNT_REFUSED
  else
    let (mid, d1) := d.takeMid
    if d1.slicesIn.isEmpty then d1.inc P.AIR_TX_DROP
    else d1.slicesIn.foldl (fun d i => d.queueMsg i type 0 0 mid msg true) d1

/-- R255: frames on a slice that has left IN_SERVICE move, in order and with their age, to the slice the rule names. -/
def Dev.settleQueues (d : Dev) : Dev :=
  [0, 1, 2, 3].foldl (fun d i =>
    if d.rd P.STP_SLICE_STATE i == 1 || (nth d.air.queues i).isEmpty then d
    else
      let q := nth d.air.queues i
      let d1 := { d with air := { d.air with queues := d.air.queues.set i [] } }
      q.foldl (fun d f =>
        if f.machine = 0 then d.inc P.AIR_TX_DROP
        else match d.sliceFor f.machine with
          | some j => d.pushFrame j f
          | none => d.inc P.AIR_TX_DROP) d1) d

/-- The first frame of the earliest row of a queue (Table 9.6). -/
def headFrame (q : List TxFrame) : Option TxFrame := [4, 5, 6].findSome? fun r => q.find? (·.row == r)

/-- A frame taken out of a queue: the first that equals it. -/
def dropFrame (f : TxFrame) : List TxFrame → List TxFrame
  | [] => []
  | g :: gs => if g = f then gs else g :: dropFrame f gs

/-- A frame back at the head of its row. -/
def Dev.requeue (d : Dev) (i : Nat) (f : TxFrame) : Dev :=
  { d with air := { d.air with queues := upd d.air.queues i (f :: ·) } }

/-- R256, R257: a unicast frame has failed: the rest of its message is abandoned and the message is flooded once more. -/
def Dev.frameFailed (d : Dev) (i : Nat) (f : TxFrame) : Dev :=
  let d1 := d.inc P.AIR_TX_FAIL
  let rest (q : List TxFrame) : List TxFrame := q.filter fun g => !(g.machine == f.machine && g.mid == f.mid && !g.flood)
  let d2 := { d1 with air := { d1.air with queues := d1.air.queues.map rest } }
  let d3 := d2.queueMsg i f.type f.machine f.key f.mid f.msg true
  if d3.rd P.MSH_ROUTE f.machine = 1 then d3
  else (d3.wr P.MSH_ROUTE f.machine 1).noticeT 0x3180 (le 1 f.machine ++ le 1 1 ++ le 1 (d3.rd P.MSH_HOPS f.machine))

/-- R256: a failed attempt: retried at the head of its row, or failed after `AIR.RETRIES` retries. -/
def Dev.attemptFailed (d : Dev) (i : Nat) (f : TxFrame) : Dev :=
  if f.retries + 1 ≤ d.cf P.AIR_RETRIES then (d.requeue i { f with retries := f.retries + 1 }).frameTrace 4 i f (f.psdu.getD [])
  else if f.flood then d.inc P.AIR_TX_FAIL else d.frameFailed i f

/-- AIR_FRAME_TRANSMIT (R244, R246, R255, R256): slice `i` has sensed the channel for its next frame; `clear` is false after
`AIR.CCA_MAX` busy results. -/
def execAirFrameTransmit (t i : Nat) (clear : Bool) (s : State) : Host.Outcome State Fault Refusal := run s fun d0 =>
  let d := (d0.at t).settleQueues
  let busy := match nth d.air.onAir i with | some o => decide (d.now < o.wait) | none => false
  if !d.mayRadio i || !d.active || busy || d.now < nth d.air.stay i then d
  else match headFrame (nth d.air.queues i) with
    | none => d
    | some f =>
      let k := cycleOf d.now
      let c := d.channel i k
      let rate := d.cf P.AIR_RATE i
      let size := 32 + f.part.length
      let dur := airTime rate size
      let wait := if f.flood then 0 else 256 + airTime rate 10
      let fin := d.now + (dur + wait) * us
      let formAt := k * cycleNs + (d.cf P.STP_BCN_OFS + 3 * i) * ms
      let dq := { d with air := { d.air with queues := upd d.air.queues i (dropFrame f) } }
      if f.psdu.isNone && !d.keyUsable f.key then dq.inc P.AIR_FCNT_REFUSED
      else if !clear then dq.attemptFailed i f
      -- R244: held back for the next channel with its retry count
      else if d.now < k * cycleNs + 100 * us || (k + 1) * cycleNs < fin + 100 * us || (d.now < formAt && formAt < fin) then d
      else
        let (ok, d1) := d.dwell i c k 2 dur
        if !ok then d1.frameTrace 5 i f []
        else
          let dq := { d1 with air := { d1.air with queues := upd d1.air.queues i (dropFrame f) } }
          let (psdu, d2) := match f.psdu with
            | some p => (p, dq)
            | none => dq.formFrame f.key f.machine f.flood (d.cf P.MSH_TTL) f.mid (f.frag * 16 + f.last) f.part
          let d3 := ((d2.spend i c k dur).inc P.AIR_TX_FRAMES i).when (f.retries != 0 && f.psdu.isSome) (·.inc P.AIR_RETRY)
          let o : OnAir := { frame := { f with psdu := some psdu }, chan := c, fin := d.now + dur * us, wait := fin }
          ({ d3 with air := { d3.air with onAir := d3.air.onAir.set i (some o) } }.emit (.air i c psdu)).frameTrace 1 i f psdu

/-- ACK_RECEIVE (R252, R256): an acknowledgement whose `LSEQ`, `DST` and `SRC` match ends the exchange; `PEND` keeps the slice in
receive for 10 ms. -/
def execAckReceive (t i : Nat) (psdu : Bytes) (s : State) : Host.Outcome State Fault Refusal := run s fun d0 =>
  let d := d0.at t
  match nth d.air.onAir i with
  | none => d
  | some o =>
    let sent := match o.frame.psdu with | some p => p | none => []
    let good := psdu.length == 10 && crc32 (psdu.take 6) == fld psdu 6 4 && fld psdu 0 1 / 64 == 1
    let hit := fld psdu 1 1 == fld sent 1 1 && fld psdu 2 2 == fld sent 4 2 && fld psdu 4 2 == fld sent 2 2
    if !o.frame.flood && o.fin ≤ d.now && d.now ≤ o.wait && good && hit then
      { d with air := { d.air with
        onAir := d.air.onAir.set i none
        stay := if bitOf (fld psdu 0 1) 4 then d.air.stay.set i (d.now + 10 * ms) else d.air.stay } }
    else d

/-- ACK_TIMEOUT (R256): the acknowledgement wait has ended. -/
def execAckTimeout (t i : Nat) (s : State) : Host.Outcome State Fault Refusal := run s fun d0 =>
  let d := d0.at t
  match nth d.air.onAir i with
  | none => d
  | some o =>
    if o.wait ≤ d.now then
      let d1 := { d with air := { d.air with onAir := d.air.onAir.set i none } }
      if o.frame.flood then d1 else d1.attemptFailed i o.frame
    else d

/-- TX_QUEUE_EXPIRE (R255): frames queued for 500 ms are dropped. -/
def execTxQueueExpire (t i : Nat) (s : State) : Host.Outcome State Fault Refusal := run s fun d0 =>
  let d := d0.at t
  let old (f : TxFrame) : Bool := f.since + 500 * ms ≤ d.now
  let gone := (nth d.air.queues i).filter old
  let d1 := { d with air := { d.air with queues := upd d.air.queues i fun (q : List TxFrame) => q.filter fun f => !old f } }
  gone.foldl (fun d f => (d.inc P.AIR_TX_DROP).frameTrace 6 i f (f.psdu.getD [])) d1

/-- SYNTH_UNLOCK (R242): the slice stops, becomes FAULT and its frames move. -/
def execSynthUnlock (t i : Nat) (s : State) : Host.Outcome State Fault Refusal := run s fun d0 =>
  let d := d0.at t
  if i < 4 then
    let d1 := d.sliceFault i
    { d1 with air := { d1.air with onAir := d1.air.onAir.set i none } }.settleQueues
  else d

/-! ### Beacons and stop frames -/

/-- A frame of the safety path sent on slice `i` at once (R225, R226): with dwell, secured with the permit key. -/
def Dev.sendSafe (d : Dev) (i copy : Nat) (body : Bytes) : Bool × Dev :=
  let k := cycleOf d.now
  let c := d.channel i k
  let dur := airTime (d.cf P.AIR_RATE i) (32 + body.length)
  let (ok, d1) := d.dwell i c k 1 dur
  if !ok then (false, d1.airTrace 5 i (fld body 0 1) 0 d.side 0xFFFF)
  else
    let (mid, d2) := d1.takeMid
    let (psdu, d3) := d2.formFrame 0 0 true (d.cf P.MSH_TTL) mid 0 body
    (true, (((d3.spend i c k dur).inc P.AIR_TX_FRAMES i)).emit (.safe i c copy body psdu)
      |>.airTrace 1 i (fld body 0 1) (fld psdu 1 1) d.side 0xFFFF)

/-- Body of a beacon (Table 8.8). -/
def Dev.beaconBody (d : Dev) (i k : Nat) : Bytes :=
  let v := d.stp.out
  le 1 0x40 ++
  le 1 (bit v.scope.all + 2 * bit (d.rd P.STP_MODE == 1) + 4 * bit d.stp.firstBeacon + 8 * d.rd P.TIM_DEGRADED) ++
  le 1 d.side ++ le 1 i ++ le 4 (d.cf P.STP_HUB_ID) ++ le 4 (d.rd P.DPX_TENURE) ++ le 4 (u32 k) ++ le 4 v.seq ++
  le 2 v.scope.groups ++ le 2 0 ++ le 12 (d.effMask v.scope)

/-- BEACON_FORM (R211, R224, R225, R508, R512): slice `i` forms and sends the permit beacon of the cycle at its formation instant (within the tick
that follows it); a later command forms none. -/
def execBeaconForm (t i : Nat) (s : State) : Host.Outcome State Fault Refusal := run s fun d0 =>
  let d := d0.at t
  let k := cycleOf d.now
  let formAt := k * cycleNs + (d.cf P.STP_BCN_OFS + 3 * i) * ms
  if d.mayRadio i && d.active && d.cf P.STP_HUB_ID != 0 && d.keyUsable 0 && d.tokenOk formAt && !d.tim.untrusted
      && formAt ≤ d.now && d.now < formAt + ms && nth d.air.bcnDone i != some k then
    let d1 := { d with
      air := { d.air with bcnDone := d.air.bcnDone.set i (some k) }
      stp := { d.stp with bcnCycle := some k } }
    let (sent, d2) := d1.sendSafe i 0 (d1.beaconBody i k)
    if sent then
      let words := ([0, 1, 2].filter d2.laneVotes).map fun j => (nth d2.stp.lanes j).word.map fun (w : Nat × Vote) => w.2
      { d2 with stp := { d2.stp with firstBeacon := false, kept := d2.stp.kept.set i words } }.inc P.STP_BCN_SENT i
    else d2.inc P.STP_BCN_SILENCED i
  else d

/-- Body of a stop frame (Table 8.9). -/
def Dev.stopBody (d : Dev) (se : Series) : Bytes :=
  let v := d.stp.out
  le 1 0x41 ++ le 1 (bit v.scope.all) ++ le 1 d.side ++ le 1 se.next ++ le 4 (d.cf P.STP_HUB_ID) ++ le 4 (d.rd P.DPX_TENURE) ++
  le 4 v.seq ++ le 8 (stamp64 se.tEvent) ++ le 1 se.cause ++ [0#8] ++ le 2 v.scope.groups ++ le 12 (d.effMask v.scope)

/-- R226, R255: a stop copy aborts the frame that a slice has on air; it returns to the head of its row. -/
def Dev.abortFrame (d : Dev) (i : Nat) : Dev :=
  match nth d.air.onAir i with
  | some o =>
    if d.now < o.fin then
      let p := d.profileOf i
      let key := dwellKey p.band o.chan
      let d1 := { d with air := { d.air with
        onAir := d.air.onAir.set i none,
        bins := subBin key (cycleOf d.now / p.bin) ((o.fin - d.now) / us) d.air.bins } }
      d1.requeue i o.frame
    else d
  | none => d

/-- STOP_COPY (R226): the next copy of the series is formed and sent on every slice in service; the series ends after 50 copies or
with an empty latched state. -/
def execStopCopy (t : Nat) (s : State) : Host.Outcome State Fault Refusal := run s fun d0 =>
  let d := d0.at t
  match d.stp.series with
  | some se =>
    if d.now < se.due then d
    else if !d.active || d.replay || d.stp.out.scope == {} then { d with stp := { d.stp with series := none } }
    else
      let body := d.stopBody se
      let d1 := if d.keyUsable 0 then
          d.slicesIn.foldl (fun d i => ((d.abortFrame i).sendSafe i se.next body).2) d
        else d
      { d1 with stp := { d1.stp with
        series := if se.next + 1 < 50 then some { se with next := se.next + 1, due := se.due + 10 * ms } else none } }
  | none => d

/-! ### Reception -/

/-- Whether an address stands in the source table (R252). -/
def Dev.knownSource (d : Dev) (src : Nat) : Bool :=
  let n := src - 0x0100
  let i := src - 0x0800
  (0x0101 ≤ src && src ≤ 0x0160 && (d.com.jobMachines.contains n || d.cf P.RTK_MODE n != 0)) ||
  (0x0800 ≤ src && src ≤ 0x080F && d.cf P.STP_REMOTE_MODE i != 0) ||
  ((src == 1 || src == 2) && src != d.side) ||
  (src != 0xFFFF && (List.range 14).any fun j => d.cf P.AIR_SRC_EXTRA j == src)

/-- Whether an address may stand as `ORIGIN` or `SRC` (R250). -/
def addrOk (a : Nat) : Bool := a == 1 || a == 2 || (0x0101 ≤ a && a ≤ 0x0160) || (0x0800 ≤ a && a ≤ 0x080F)

/-- R249, R250: reserved fields and addresses of a data frame; a frame that fails is counted in `AIR.SEC_FAIL`. -/
def frameFieldsOk (f : Bytes) : Bool :=
  let fc := fld f 0 1; let nf := fld f 11 1; let part := fld f 18 1
  32 ≤ f.length && !bitOf fc 3 && nf % 4 == 0 && fld f 19 1 == 0 && !bitOf part 7 && !bitOf part 3 && fc % 8 ≤ nf / 4 % 8
    && !bitOf fc 4 && addrOk (fld f 4 2) && addrOk (fld f 6 2)
    && (addrOk (fld f 8 2) || fld f 8 2 == 0 || fld f 8 2 == 0xFFFF)

/-- The keys under which a frame of an epoch may verify (R253 step 2): the current one, or the previous one in its grace. -/
def Dev.keyFor (d : Dev) (inst epoch : Nat) : Option Bytes :=
  let k := d.airKey inst
  let cur := d.rd P.AIR_EPOCH inst
  if epoch = cur then k.cur
  else if epoch = (cur + 255) % 256 && d.now < k.grace then k.prev
  else none

/-- R253 step 2: the header checks, with the key they select. -/
def Dev.headerKey (d : Dev) (f : Bytes) : Option (Nat × Bytes) :=
  let origin := fld f 6 2; let target := fld f 8 2; let kclass := fld f 11 1 / 64
  let machine (a : Nat) : Bool := 0x0101 ≤ a && a ≤ 0x0160
  let inst := match kclass with
    | 0 => if origin = 1 || origin = 2 then some 0 else none
    | 1 => if machine origin && (target = 0 || target = 1 || target = 2) then some (origin - 0x0100)
      else if (origin = 1 || origin = 2) && machine target then some (target - 0x0100) else none
    | 2 => if 0x0800 ≤ origin && origin ≤ 0x080F then some (origin - 0x0800 + 112) else none
    | _ => none
  match inst with
  | some i => if fld f 12 4 < fcntStick then (d.keyFor i (fld f 10 1)).map fun k => (i, k) else none
  | none => none

/-- R264: the window of an origin, key and epoch; whether a counter is accepted, and the window after it. -/
def Window.accept (w : Window) (fcnt : Nat) : Bool × Window :=
  if w.high < fcnt then
    (true, { w with high := fcnt, map := (w.map * 2 ^ (min 64 (fcnt - w.high)) + 1) % 2 ^ 64 })
  else if w.high < fcnt + 64 && !bitOf w.map (w.high - fcnt) then (true, { w with map := setBit w.map (w.high - fcnt) true })
  else (false, w)

/-- The replay window a frame falls in; a fresh one accepts its first counter. -/
def Dev.window (d : Dev) (origin key epoch fcnt : Nat) : Bool × Window :=
  match d.air.wins.find? (fun w => w.origin == origin && w.key == key && w.epoch == epoch) with
  | some w => w.accept fcnt
  | none => (true, { origin := origin, key := key, epoch := epoch, high := fcnt, map := 1 })

/-- A security rejection (R253): notice 0x3083 for the first of an origin in any 10 s. -/
def Dev.reject (d : Dev) (origin reason slice sfd : Nat) : Dev :=
  let recent := d.air.rejects.any fun e => e.1 == origin && d.now < e.2 + 10 * sec
  let d1 := if reason = 3 then d.inc P.AIR_REPLAY else d.inc P.AIR_SEC_FAIL
  if recent then d1
  else { d1 with air := { d1.air with rejects := (origin, d.now) :: d1.air.rejects.filter (·.1 != origin) } }.notice 0x3083
    (le 2 origin ++ le 1 reason ++ le 1 slice ++ le 8 (stamp64 sfd))

/-- Message types a key class and direction may carry to the hub (R251, Table 9.5). -/
def typeOk (type kclass : Nat) : Bool :=
  match kclass with
  | 0 => type == 0x38 || type == 0x40 || type == 0x41
  | 1 => type == 0x31 || type == 0x32 || type == 0x34 || type == 0x37 || type == 0x3B
  | _ => type == 0x42

/-- R270: a delivery acknowledgement of machine `n`. -/
def Dev.deliveryAck (d : Dev) (n : Nat) (m : Bytes) : Dev :=
  let kind := fld m 2 1; let kclass := fld m 3 1; let epoch := fld m 4 1; let at_ := fld m 8 4
  let mark (x : Delivery) : Delivery :=
    if x.machine == n && x.kind == kind && x.kclass == kclass && x.epoch == epoch && x.at_ == at_ then { x with done := true } else x
  let d1 := { d with air := { d.air with deliveries := d.air.deliveries.map mark } }
  if kind = 1 && kclass = 0 && (d.airKey 0).next.isSome && epoch = (d.rd P.AIR_EPOCH 0 + 1) % 256 then
    d1.wr P.AIR_KEY_MISSING 0 (setBit (d1.rd P.AIR_KEY_MISSING) (n - 1) false)
  else d1

/-- R254: a complete message is delivered: an input through Chute 4, remote frames to the lanes too, a delivery acknowledgement in
the Air engine itself, beacons of the peer to the duplex function. -/
def Dev.deliver (d : Dev) (origin target mid kclass slice sfd : Nat) (msg : Bytes) : Dev :=
  if !(target == d.side || (target == 0 && d.active) || target == 0xFFFF) then d
  else
    let type := fld msg 0 1
    if msg.isEmpty || !typeOk type kclass then d.inc P.AIR_BAD_TYPE
    else
      let mine := ((d.air.heard.filter fun e => e.1 == origin).take 16).filter fun e => d.now < e.2.2 + 2 * sec
      if mine.any (fun e => e.2.1 == mid) then d.inc P.AIR_DUP
      else
        let keep := d.air.heard.filter fun e => d.now < e.2.2 + 2 * sec
        let d1 := { d with air := { d.air with heard := (origin, mid, d.now) :: keep } }
        if type = 0x40 then
          { d1 with peer := { d1.peer with beaconCycles := fld msg 12 4 :: d1.peer.beaconCycles.take 15 } }
        else if !d1.active then d1
        else if type = 0x3B then d1.deliveryAck (origin - 0x0100) msg
        else if type = 0x42 then
          (d1.offer 4 sfd 2 slice (msg ++ le 2 origin)).remoteFrame (origin - 0x0800) (fld msg 1 1) sfd slice
        else if (type = 0x31 || type = 0x32) && 0x0100 + fld msg 1 1 != origin then d1.rtkBad (origin - 0x0100) 5 msg.length sfd
        else if type = 0x31 || type = 0x32 || type = 0x34 || type = 0x37 then d1.offer 4 sfd 2 slice msg
        else d1

/-- R260: a fragment reaches reassembly. -/
def Dev.fragment (d : Dev) (origin target mid kclass slice sfd idx last : Nat) (part : Bytes) : Dev :=
  if d.air.orphans.any (fun e => e.1 == origin && e.2.1 == mid && d.now < e.2.2 + 2 * sec) then d.inc P.AIR_FRAG_ORPHAN
  else
    let same (r : Reasm) : Bool := r.origin == origin && r.mid == mid
    let drop (d : Dev) : Dev :=
      let rest := d.air.reasm.filter fun r => !same r
      { d with air := { d.air with reasm := rest, orphans := (origin, mid, d.now) :: d.air.orphans } }.inc P.AIR_REASM_DROP
    let put (r : Reasm) : Dev :=
      let r1 := { r with parts := r.parts ++ [(idx, part)], slice := if idx = 0 then slice else r.slice, sfd := if idx = 0 then sfd else r.sfd }
      let rest := d.air.reasm.filter fun x => !same x
      if (List.range (last + 1)).all (fun j => r1.parts.any (·.1 == j)) then
        let msg := (List.range (last + 1)).flatMap fun j => (r1.parts.find? (·.1 == j)).elim [] (·.2)
        { d with air := { d.air with reasm := rest } }.deliver origin target mid kclass r1.slice r1.sfd msg
      else { d with air := { d.air with reasm := rest ++ [r1] } }
    match d.air.reasm.find? same with
    | some r =>
      if r.last != last then drop d
      else if r.parts.any (·.1 == idx) then d
      else put r
    | none =>
      if 32 ≤ d.air.reasm.length then drop d
      else put { origin := origin, mid := mid, target := target, last := last, opened := d.now }

/-- R254 to R257: what an accepted frame of machine or remote does to the link state: slice, hops, route. -/
def Dev.heardFrom (d : Dev) (origin i hops : Nat) : Dev :=
  let d1 := d.when (hops != 0) (·.inc P.MSH_RELAYED_RX i)
  if 0x0101 ≤ origin && origin ≤ 0x0160 then
    let n := origin - 0x0100
    let d2 := { d1 with air := { d1.air with lastSlice := (n, i) :: d1.air.lastSlice.filter (·.1 != n) } }.wr P.MSH_HOPS n hops
    let route := if hops = 0 then 0 else 1
    if d2.rd P.MSH_ROUTE n = route then d2
    else (d2.wr P.MSH_ROUTE n route).noticeT 0x3180 (le 1 n ++ le 1 route ++ le 1 hops)
  else d1

/-- An acknowledgement sent on slice `i` for a received frame (R252), under R244 and the dwell account. -/
def Dev.acknowledge (d : Dev) (i : Nat) (f : Bytes) : Dev :=
  let rate := d.cf P.AIR_RATE i
  let start := d.now + 192 * us
  let k := cycleOf d.now
  if (k + 1) * cycleNs < start + airTime rate 10 * us + 100 * us then d
  else
    let c := d.channel i k
    let (ok, d1) := d.dwell i c k 2 (airTime rate 10)
    if !ok then d1
    else
      let src := fld f 4 2
      let pend := (nth d1.air.queues i).any fun q => !q.flood && q.machine != 0 && 0x0100 + q.machine == src
      let b := le 1 (64 + 16 * bit pend) ++ cut f 1 1 ++ cut f 4 2 ++ cut f 2 2
      ((d1.spend i c k (airTime rate 10)).inc P.AIR_ACKS i).emit (.air i c (b ++ le 4 (crc32 b)))
        |>.airTrace 3 i 0 (fld f 1 1) d.side (fld f 4 2)

/-- R262: the seen cache without what has aged out. -/
def Dev.pruneSeen (d : Dev) : Dev :=
  let l := d.air.seen.filter fun e => d.now < e.2.2 + 2 * sec
  { d with air := { d.air with seen := l } }.wr P.MSH_SEEN_USED 0 l.length

/-- A flooded frame enters the seen cache; at 512 entries the oldest is evicted (R262). -/
def Dev.noteSeen (d : Dev) (origin fcnt : Nat) : Dev :=
  let full := 512 ≤ d.air.seen.length
  let l := (origin, fcnt, d.now) :: d.air.seen.take 511
  ({ d with air := { d.air with seen := l } }.when full (·.inc P.MSH_SEEN_EVICT)).wr P.MSH_SEEN_USED 0 l.length

/-- R253: steps 1 to 5 for a frame that passed the slice, then reassembly. -/
def Dev.macReceive (d0 : Dev) (i sfd : Nat) (f : Bytes) : Dev :=
  let src := fld f 4 2; let lseq := fld f 1 1; let origin := fld f 6 2; let target := fld f 8 2
  let nf := fld f 11 1; let fcnt := fld f 12 4; let flood := bitOf nf 5
  let d := d0.pruneSeen
  let recent := ((d.air.links.filter fun e => e.1 == src).take 8).filter fun e => d.now < e.2.2 + d.cf P.AIR_DUP_MS * ms
  if !flood && recent.any (fun e => e.2.1 == lseq) then d.inc P.AIR_DUP
  else if !frameFieldsOk f then d.inc P.AIR_SEC_FAIL
  else match d.headerKey f with
    | none => d.reject origin 1 i sfd
    | some (inst, key) =>
      if flood && (origin == d.side || d.air.seen.any (fun e => e.1 == origin && e.2.1 == fcnt)) then d.inc P.MSH_FLOOD_DUP
      else
        let n := f.length - 32
        let nonce := airNonce origin (d.cf P.STP_HUB_ID) (nf / 64) (fld f 10 1) fcnt
        let plain := xorB (cut f 20 n) (ccmStream key nonce 1 n)
        if ccmTag key nonce (cut f 6 14) plain 8 != cut f (20 + n) 8 then d.reject origin 2 i sfd
        else
          let (ok, w) := d.window origin inst (fld f 10 1) fcnt
          if !ok then d.reject origin 3 i sfd
          else
            let wins := w :: d.air.wins.filter fun x => !(x.origin == origin && x.key == inst && x.epoch == w.epoch)
            let links := if flood then d.air.links else (src, lseq, d.now) :: d.air.links.filter fun e => d.now < e.2.2 + 2 * sec
            let d1 := { d with air := { d.air with wins := wins, links := links } }
            let d2 := ((d1.airTrace 2 i (fld plain 0 1) lseq origin (fld f 2 2)).when flood (·.noteSeen origin fcnt)).heardFrom origin i (nf / 4 % 8 - fld f 0 1 % 8)
            let part := fld f 18 1
            let kclass := nf / 64
            if part = 0 then d2.deliver origin target (fld f 16 2) kclass i sfd plain
            else d2.fragment origin target (fld f 16 2) kclass i sfd (part / 16 % 8) (part % 8) plain

/-- AIR_FRAME_RECEIVE (R244, R249, R252): a PSDU whose SFD was received at `sfd` on slice `i` ends at `t`. -/
def execAirFrameReceive (t i sfd : Nat) (f : Bytes) (s : State) : Host.Outcome State Fault Refusal := run s fun d0 =>
  let d := d0.at t
  if !d.mayRadio i || cycleOf sfd != cycleOf d.now || sfd % cycleNs < 100 * us then d
  else if f.length < 10 || crc32 (f.take (f.length - 4)) != fld f (f.length - 4) 4 then d.inc P.AIR_FCS_ERR i
  else
    let fc := fld f 0 1; let dst := fld f 2 2; let src := fld f 4 2
    if 2 ≤ fc / 64 then d.inc P.AIR_SEC_FAIL
    else if fc / 64 = 1 || !(dst == 0xFFFF || dst == d.side || (dst == 0 && d.active)) || !d.knownSource src then
      d.inc P.AIR_FILTERED
    else
      let d1 := { d.inc P.AIR_RX_FRAMES i with air := { d.air with stay := d.air.stay.set i 0 } }
      (d1.when (bitOf fc 5 && dst != 0xFFFF) (·.acknowledge i f)).macReceive i sfd f

/-- REASM_EXPIRE (R260): the slots that have not completed within `AIR.REASM_MS` are discarded. -/
def execReasmExpire (t : Nat) (s : State) : Host.Outcome State Fault Refusal := run s fun d0 =>
  let d := d0.at t
  let old (r : Reasm) : Bool := r.opened + d.cf P.AIR_REASM_MS * ms ≤ d.now
  let gone := d.air.reasm.filter old
  let lost := gone.map (fun (r : Reasm) => (r.origin, r.mid, d.now)) ++ d.air.orphans.filter fun e => d.now < e.2.2 + 2 * sec
  { d with air := { d.air with reasm := d.air.reasm.filter fun r => !old r, orphans := lost } }.incBy P.AIR_REASM_DROP 0 gone.length

/-! ### Keys and link configuration -/

/-- Machines that hold a current key (R266, R268). -/
def Dev.enrolled (d : Dev) : List Nat := (List.range 96).map (· + 1) |>.filter fun n => (d.airKey n).cur.isSome

/-- A key delivery message (Table 9.8). -/
def keyDelivery (n kclass epoch at_ : Nat) (key : Bytes) : Bytes :=
  le 1 0x3A ++ le 1 n ++ le 1 kclass ++ le 1 epoch ++ le 4 at_ ++ key

/-- R268: deliveries of the next key of an instance opened for the machines that take it. -/
def Dev.openDeliveries (d : Dev) (inst : Nat) : Dev :=
  let k := d.airKey inst
  match k.next with
  | none => d
  | some key =>
    let kclass := if inst = 0 then 0 else 1
    let ep := (d.rd P.AIR_EPOCH inst + 1) % 256
    let at_ := match k.roll with | some a => a | none => 0
    let dests := if inst = 0 then d.enrolled else if inst ≤ 96 then d.enrolled.filter (· == inst) else []
    let fresh := dests.map fun n => ({ machine := n, kind := 1, kclass := kclass, epoch := ep, at_ := at_
                                       msg := keyDelivery n kclass ep at_ key } : Delivery)
    let rest := d.air.deliveries.filter fun (x : Delivery) => !(x.kind == 1 && x.kclass == kclass && dests.contains x.machine)
    let d1 := { d with air := { d.air with deliveries := fresh ++ rest } }
    if inst = 0 && k.roll.isNone then
      d1.wr P.AIR_KEY_MISSING 0 (maskOf (dests.map (· - 1)))
    else d1

/-- R266, R267: a key written to an instance: a first key waits for the next boundary, a later one becomes the next key. -/
def Dev.airKeyWrite (d : Dev) (inst : Nat) (key : Bytes) : Dev :=
  let k := d.airKey inst
  if k.cur.isNone then d.setAirKey { k with first := some key }
  else (d.setAirKey { k with next := some key }).openDeliveries inst

/-- R267: the rollover of an instance scheduled at cycle `a`. -/
def Dev.airRollWrite (d : Dev) (inst a : Nat) : Dev :=
  let k := d.airKey inst
  ((d.setAirKey { k with roll := some a }).wr P.AIR_ROLL inst a).openDeliveries inst

/-- KEY_ROLLOVER (R267): the boundary of the scheduled cycle has come. -/
def execKeyRollover (t inst : Nat) (s : State) : Host.Outcome State Fault Refusal := run s fun d0 =>
  let d := d0.at t
  let k := d.airKey inst
  match k.roll, k.next with
  | some a, some key =>
    if notLater a (u32 (cycleOf d.now)) then
      let ep := (d.rd P.AIR_EPOCH inst + 1) % 256
      let d1 := d.setAirKey { k with
        cur := some key, next := none, prev := k.cur, roll := none, mark := 65536, grace := d.now + d.cf P.AIR_EPOCH_GRACE * sec }
      let d2 := (d1.wr P.AIR_EPOCH inst ep).when (inst ≤ 96) fun d =>
        { d with sticky := d.sticky.filter (· != regKey P.AIR_FCNT inst) }.wr P.AIR_FCNT inst 0
      let kclass := if inst = 0 then 0 else 1
      let rest := d2.air.deliveries.filter fun (x : Delivery) =>
        !(x.kind == 1 && x.kclass == kclass && (inst == 0 || x.machine == inst))
      { d2 with air := { d2.air with deliveries := rest } }.notice 0x3082 (le 2 inst ++ le 1 ep ++ le 4 a)
    else d
  | _, _ => d

/-- A delivery noted as sent now. -/
def Dev.markSent (d : Dev) (x : Delivery) : Dev :=
  { d with air := { d.air with deliveries := d.air.deliveries.map fun y => if y = x then { x with sent := some d.now } else y } }

/-- KEY_DELIVERY_SEND (R268): the delivery of the next permit key (`kclass` 0) or machine key (1) to machine `n`, first at once and then
every second until it is acknowledged or its cycle has come. -/
def execKeyDeliverySend (t n kclass : Nat) (s : State) : Host.Outcome State Fault Refusal := run s fun d0 =>
  let d := d0.at t
  match d.air.deliveries.find? (fun x => x.machine == n && x.kind == 1 && x.kclass == kclass) with
  | some x =>
    let due := match x.sent with | some l => decide (l + sec ≤ d.now) | none => true
    if !x.done && due then (d.markSent x).toMachine n 0x3A x.msg else d
  | none => d

/-- The values of a link configuration message (Table 9.9), offsets 2 to 9. -/
def Dev.linkValues (d : Dev) (n : Nat) : Bytes :=
  let h := d.cf P.AIR_HOME n
  let band := d.cf P.AIR_BAND h
  le 1 h ++ le 1 band ++ le 1 (d.cf P.AIR_PROFILE band) ++ le 1 (d.cf P.AIR_RATE h) ++ le 1 (d.cf P.MSH_RELAY n) ++
  le 1 (d.cf P.MSH_M_TTL) ++ le 1 (d.cf P.MSH_DELAY_MIN) ++ le 1 (d.cf P.MSH_DELAY_MAX)

/-- LINK_CONFIG_SEND (R269): the link configuration goes to an enrolled machine on enrolment, on change and every 60 s, and is repeated
until acknowledged. -/
def execLinkConfigSend (t n : Nat) (s : State) : Host.Outcome State Fault Refusal := run s fun d0 =>
  let d := d0.at t
  let at_ := u32 (cycleOf d.now + 1)
  let fresh : Delivery := { machine := n, kind := 2, at_ := at_,
                            msg := le 1 0x39 ++ le 1 n ++ d.linkValues n ++ le 2 0 ++ le 4 at_ }
  if !d.enrolled.contains n then d
  else match d.air.deliveries.find? (fun x => x.machine == n && x.kind == 2) with
    | some x =>
      let old := match x.sent with | some l => decide (l + 60 * sec ≤ d.now) | none => true
      if cut x.msg 2 8 != d.linkValues n || (x.done && old) then
        let rest := d.air.deliveries.filter fun (x : Delivery) => !(x.machine == n && x.kind == 2)
        let d1 := { d with air := { d.air with deliveries := { fresh with sent := some d.now } :: rest } }
        d1.toMachine n 0x39 fresh.msg
      else if !x.done then (d.markSent x).toMachine n 0x39 x.msg
      else d
    | none =>
      { d with air := { d.air with deliveries := { fresh with sent := some d.now } :: d.air.deliveries } }.toMachine n 0x39 fresh.msg

/-! ### The cycle boundary and the cold start -/

/-- R241, R243, R246, R266: what a cycle boundary does to the Air engine: changes take effect, first keys are installed, slices that
are enabled or disabled change state, every slice retunes, the accounts go to MRAM. -/
def Dev.airBoundary (d : Dev) (k : Nat) : Dev :=
  let d1 := { d with staged := d.staged.filter fun s => s.key / 65536 / 256 != 0x30 && s.key / 65536 / 256 != 0x31 }
  let d2 := d1.air.keys.foldl (fun d x =>
    match x.first with
    | some key => (d.setAirKey { x with cur := some key, first := none, mark := 65536 }).when (x.inst ≤ 96) (·.wr P.AIR_FCNT x.inst 0)
    | none => d) d1
  let d3 := [0, 1, 2, 3].foldl (fun d i =>
    let st := d.rd P.STP_SLICE_STATE i
    let d1 := if st = 2 then d else d.wr P.STP_SLICE_STATE i (if d.cf P.AIR_SLICE_EN i = 1 then 1 else 0)
    let c := d1.channel i k
    (d1.wr P.AIR_CHANNEL i c).wr P.AIR_DWELL_USED (dwellKey (d1.profileOf i).band c) (d1.used i c k)) d2
  let tuned := d3.slicesIn.map fun i => dwellKey (d3.profileOf i).band (d3.rd P.AIR_CHANNEL i)
  let live := d3.air.bins.filter fun b => k ≤ (b.no + 1100) * (if b.chan / 128 = 1 && d3.cf P.AIR_PROFILE 1 = 5 then 72 else 1)
  { d3 with air := { d3.air with
    silent := [], bins := live, nvBins := live, nvTuned := tuned, nvCycle := k } }.settleQueues

/-- R246, R264, R265: what the Air engine restores after a cold start. -/
def Dev.airCold (d : Dev) : Dev :=
  let a := d.air
  let bins := a.nvTuned.foldl (fun l c =>
    let p := profile (d.cf P.AIR_PROFILE (c / 128))
    addBin c (a.nvCycle / p.bin) 50000 l) a.nvBins
  let d1 := { d with air := {
    keys := a.keys.map fun (k : AirKey) => { k with first := none }
    wins := a.nvWin.map fun (w : Window) => { w with map := 2 ^ 64 - 1 }
    nvWin := a.nvWin, bins := bins, nvBins := bins, nvCycle := a.nvCycle, nvTuned := a.nvTuned } }
  a.keys.foldl (fun d k =>
    if k.cur.isSome && k.inst ≤ 96 then d.wr P.AIR_FCNT k.inst (min k.mark fcntStick) else d) d1

/-- R264: at every commit the highest accepted counters go to MRAM. -/
def Dev.airCommit (d : Dev) : Dev := { d with air := { d.air with nvWin := d.air.wins } }

end Sys2Proof.Machine
end

