-- ==== Sys2Proof/Machine/Geometry.lean ====
section
/-!
DEFINITION. Geometry of the field frame in integers: the procedures of R163 and R167, points in polygons (R187), paths with their lengths
and projections (R162, R193, R197).
-/
namespace Sys2Proof.Machine
open Sys2Proof

/-- Squared length of a vector. -/
def sq2 (de dn : Int) : Int := de * de + dn * dn

/-- Distance between two points, rounded down (R162). -/
def dist (a b : Pt) : Nat := isqrt (sq2 (b.1 - a.1) (b.2 - a.2)).toNat

/-- Procedure `orient` (R167). -/
def orient (a b c : Pt) : Int := ((b.1 - a.1) * (c.2 - a.2) - (b.2 - a.2) * (c.1 - a.1)).sign

/-- Procedure `pt_near` (R167). -/
def ptNear (p a b : Pt) (r : Int) : Bool :=
  let ve := b.1 - a.1
  let vn := b.2 - a.2
  let ue := p.1 - a.1
  let un := p.2 - a.2
  let dd := sq2 ve vn
  let t := ue * ve + un * vn
  if dd = 0 ∨ t ≤ 0 then sq2 ue un ≤ r * r
  else if dd ≤ t then sq2 (p.1 - b.1) (p.2 - b.2) ≤ r * r
  else let x := ue * vn - un * ve; x * x ≤ r * r * dd

/-- Procedure `seg_near` (R167). -/
def segNear (a b c d : Pt) (r : Int) : Bool :=
  (orient a b c * orient a b d < 0 && orient c d a * orient c d b < 0) ||
    ptNear c a b r || ptNear d a b r || ptNear a c d r || ptNear b c d r

/-- Distance of a point from a segment, rounded down. -/
def ptDist (p a b : Pt) : Nat :=
  let ve := b.1 - a.1
  let vn := b.2 - a.2
  let ue := p.1 - a.1
  let un := p.2 - a.2
  let dd := sq2 ve vn
  let t := ue * ve + un * vn
  if dd = 0 ∨ t ≤ 0 then dist p a
  else if dd ≤ t then dist p b
  else let x := ue * vn - un * ve; isqrt (x * x / dd).toNat

/-- Procedure `profile_ms` (R163), used by strips (mm) and by the Derrick (steps). -/
def profileMs (s l v0 vc ve a dc : Int) : Int :=
  let root (z : Int) : Int := (isqrt z.toNat : Nat)
  let sa := (vc * vc - v0 * v0).tdiv (2 * a)
  let sd := (vc * vc - ve * ve).tdiv (2 * dc)
  let tri := l < sa + sd
  let vp := root ((2 * a * dc * l + dc * v0 * v0 + a * ve * ve).tdiv (a + dc))
  if tri ∧ vp ≤ ve then (1000 * (root (v0 * v0 + 2 * a * s) - v0)).tdiv a
  else
    let vc := if tri then vp else vc
    let sa := if tri then (vc * vc - v0 * v0).tdiv (2 * a) else sa
    let sd := if tri then l - sa else sd
    let ta := (1000 * (vc - v0)).tdiv a
    if s ≤ sa then (1000 * (root (v0 * v0 + 2 * a * s) - v0)).tdiv a
    else if s ≤ l - sd then ta + (1000 * (s - sa)).tdiv vc
    else ta + (1000 * (l - sd - sa)).tdiv vc + (1000 * (vc - root (ve * ve + 2 * dc * (l - s)))).tdiv dc

/-! ### Polygons -/

/-- The edges of a closed polygon. -/
def edges (l : List Pt) : List (Pt × Pt) :=
  match l with
  | [] => []
  | p :: ps => List.zip (p :: ps) (ps ++ [p])

/-- Whether a point lies on an edge. -/
def onEdge (p : Pt) (e : Pt × Pt) : Bool := ptNear p e.1 e.2 0

/-- Whether the eastward ray from a point crosses an edge (even-odd rule). -/
def rayCrosses (p : Pt) (e : Pt × Pt) : Bool :=
  let (a, b) := e
  if (decide (a.2 ≤ p.2)) == (decide (b.2 ≤ p.2)) then false
  else
    let z := (b.1 - a.1) * (p.2 - a.2) - (p.1 - a.1) * (b.2 - a.2)
    if a.2 < b.2 then decide (0 < z) else decide (z < 0)

/-- R187: even-odd rule; a point on an edge counts as inside. -/
def inPoly (p : Pt) (l : List Pt) : Bool :=
  let es := edges l
  es.any (onEdge p) || (es.filter (rayCrosses p)).length % 2 == 1

/-- Twice the signed area of a polygon; positive counter-clockwise. -/
def area2 (l : List Pt) : Int := (edges l).foldl (fun s e => s + (e.1.1 * e.2.2 - e.2.1 * e.1.2)) 0

/-- Whether two edges, at places `i` < `j` of a polygon of `n` edges, meet where a simple polygon's edges do not. -/
def badPair (n : Nat) (i : Nat) (e : Pt × Pt) (j : Nat) (f : Pt × Pt) : Bool :=
  if j = i + 1 then onEdge f.2 e || onEdge e.1 f
  else if i = 0 ∧ j + 1 = n then onEdge f.1 e || onEdge e.2 f
  else segNear e.1 e.2 f.1 f.2 0

/-- A simple polygon: no edge of zero length, no edges meeting but neighbours at their common vertex. -/
def simplePoly (l : List Pt) : Bool :=
  let es := mapFrom (fun i e => (i, e)) 0 (edges l)
  let n := es.length
  es.all fun x => x.2.1 != x.2.2 && es.all fun y => !(x.1 < y.1 && badPair n x.1 x.2 y.1 y.2)

/-- Whether any edges of two polygons touch. -/
def polysTouch (a b : List Pt) : Bool := (edges a).any fun e => (edges b).any fun f => segNear e.1 e.2 f.1 f.2 0

/-- Bounding box: least east, least north, greatest east, greatest north. -/
def bbox (l : List Pt) : Int × Int × Int × Int :=
  match l with
  | [] => (0, 0, 0, 0)
  | p :: ps => ps.foldl (fun b q => (min b.1 q.1, min b.2.1 q.2, max b.2.2.1 q.1, max b.2.2.2 q.2)) (p.1, p.2, p.1, p.2)

/-! ### Paths -/

/-- The edges of a path with the path length at their start; edges of zero length are passed over (R193). -/
def legsFrom : Nat → List Pt → List (Pt × Pt × Nat × Nat)
  | _, [] => []
  | _, [_] => []
  | c, a :: b :: l => let e := dist a b; if e = 0 then legsFrom c (b :: l) else (a, b, c, e) :: legsFrom (c + e) (b :: l)

/-- The legs of a path: start, end, path length at the start, length. -/
def legs (l : List Pt) : List (Pt × Pt × Nat × Nat) := legsFrom 0 l

/-- Length of a path: its legs, each rounded down (R162). -/
def pathLen (l : List Pt) : Nat := (legs l).foldl (fun s g => s + g.2.2.2) 0

/-- The point `s` along a leg of length `e` from `a` to `b`, truncated toward zero. -/
def along (a b : Pt) (s e : Int) : Pt := (a.1 + ((b.1 - a.1) * s).tdiv e, a.2 + ((b.2 - a.2) * s).tdiv e)

/-- The point of a path at length `s`: its end where the path is shorter. -/
def pathAt (l : List Pt) (s : Nat) : Pt :=
  match (legs l).find? (fun g => s ≤ g.2.2.1 + g.2.2.2) with
  | some (a, b, c, e) => along a b (s - c : Nat) e
  | none => l.getLast?.getD (0, 0)

/-- Squared distance of a point from a leg as a fraction, and the path length of the nearest point. -/
def legNear (p : Pt) (g : Pt × Pt × Nat × Nat) : Int × Int × Nat :=
  let (a, b, c, e) := g
  let ve := b.1 - a.1
  let vn := b.2 - a.2
  let ue := p.1 - a.1
  let un := p.2 - a.2
  let dd := sq2 ve vn
  let t := ue * ve + un * vn
  if t ≤ 0 then (sq2 ue un, 1, c)
  else if dd ≤ t then (sq2 (p.1 - b.1) (p.2 - b.2), 1, c + e)
  else let x := ue * vn - un * ve; (x * x, dd, c + (t * e / dd).toNat)

/-- The projection of a point onto a path: the nearest point, ties to the lowest length (R197). -/
def project (p : Pt) (l : List Pt) : Nat :=
  match (legs l).map (legNear p) with
  | [] => 0
  | x :: xs => (xs.foldl (fun b y => if y.1 * b.2.1 < b.1 * y.2.1 then y else b) x).2.2

end Sys2Proof.Machine
end

