-- ==== Sys2Proof/Machine/Job.lean ====
section
/-!
DEFINITION. The job: the checks of a job image (R154, R155, R188, R192), the track table that generation delivers (R153, R157), job states and
tasks (Table 6.4, R158, R159), and the rebuilt coverage store (R186 to R189).
-/
namespace Sys2Proof.Machine
open Sys2Proof

/-! ### The checks of an image -/

/-- A check that must hold, else the image is refused with a reason, a section kind and an entry index. -/
def need (c : Bool) (reason kind entry : Nat) : Except JobBad Unit :=
  if c then .ok () else .error { reason := reason, kind := kind, entry := entry }

/-- Every element of a list passes its check, which is given its place. -/
def needAll {α : Type} (f : Nat → α → Except JobBad Unit) (l : List α) : Except JobBad Unit :=
  (mapFrom (fun i x => (i, x)) 0 l).foldl (fun r x => r.bind fun _ => f x.1 x.2) (.ok ())

/-- Whether a coordinate lies within ±8,388,607 mm (R154). -/
def coordOk (z : Int) : Bool := -8388607 ≤ z && z ≤ 8388607

/-- Whether both coordinates of a point are in range. -/
def ptOk (p : Pt) : Bool := coordOk p.1 && coordOk p.2

/-- The point at an offset: east, north (s32). -/
def ptAt (b : Bytes) (o : Nat) : Pt := (fldS b o 4, fldS b (o + 4) 4)

/-- `n` points from an offset. -/
def ptsAt (b : Bytes) (o n : Nat) : List Pt := (List.range n).map fun i => ptAt b (o + 8 * i)

/-- One exclusion zone at an offset: vertex count, `HARD`, reserved byte, vertices, next offset. -/
def zonesAt (b : Bytes) : Nat → Nat → List (Nat × Bool × Nat × List Pt)
  | 0, _ => []
  | k + 1, o =>
    let n := fld b o 2
    (n, fld b (o + 2) 1 == 1, fld b (o + 2) 2, ptsAt b (o + 4) (min n 1024)) :: zonesAt b k (o + 4 + 8 * n)

/-- Bytes that `k` zones take from an offset on. -/
def zonesEnd (b : Bytes) : Nat → Nat → Nat
  | 0, o => o
  | k + 1, o => zonesEnd b k (o + 4 + 8 * fld b o 2)

/-- The section entry of an implement at an offset (Table 7.4). -/
def secAt (b : Bytes) (o : Nat) : Sec :=
  { fore := fldS b o 4, left := fldS b (o + 4) 4, right := fldS b (o + 8) 4, onLat := fld b (o + 12) 2, offLat := fld b (o + 14) 2
    layers := fld b (o + 16) 1 }

/-- Whether a section entry is allowed (R192). -/
def secOk (b : Bytes) (o : Nat) : Bool :=
  let s := secAt b o
  s.right < s.left && s.layers != 0 && s.layers < 16 && s.onLat ≤ 2000 && s.offLat ≤ 2000 && fld b (o + 17) 3 == 0

/-- Offsets of `k` implement entries (Table 7.3), and the end. -/
def implOffs (b : Bytes) : Nat → Nat → List Nat × Nat
  | 0, o => ([], o)
  | k + 1, o => let r := implOffs b k (o + 8 + 20 * fld b (o + 1) 1); (o :: r.1, r.2)

/-- The implement entry at an offset. -/
def implAt (b : Bytes) (o : Nat) : Implement :=
  { width := fld b (o + 4) 4, secs := (List.range (fld b (o + 1) 1)).map fun i => secAt b (o + 8 + 20 * i) }

/-- The machine entry at an offset (Table 6.3). -/
def machAt (b : Bytes) (o : Nat) : Mach :=
  { n := fld b o 1, impl := fld b (o + 1) 1, prio := fld b (o + 2) 1, caps := fld b (o + 3) 1, vWork := fld b (o + 4) 2
    vTransit := fld b (o + 6) 2, vMax := fld b (o + 8) 2, accel := fld b (o + 10) 2, decel := fld b (o + 12) 2
    halfTransit := fld b (o + 14) 2, halfWork := fld b (o + 16) 2, front := fld b (o + 18) 2, rear := fld b (o + 20) 2 }

/-- Whether the values of a machine entry are allowed. -/
def machOk (m : Mach) : Bool :=
  let v (x : Nat) : Bool := 100 ≤ x && x ≤ 10000
  let a (x : Nat) : Bool := 50 ≤ x && x ≤ 10000
  1 ≤ m.n && m.n ≤ 96 && m.prio ≤ 2 && m.caps < 4 && v m.vWork && v m.vTransit && m.vWork ≤ m.vMax && m.vTransit ≤ m.vMax &&
    a m.accel && a m.decel

/-- Whether an s32 Q2.30 matrix passes R155. -/
def rotOk (r : List Int) : Bool :=
  let row (i : Nat) : List Int := (r.drop (3 * i)).take 3
  let dot (i j : Nat) : Int := (List.zipWith (· * ·) (row i) (row j)).foldl (· + ·) 0
  let near (z c : Int) : Bool := c - 2 ^ 40 ≤ z && z ≤ c + 2 ^ 40
  near (dot 0 0) (2 ^ 60) && near (dot 1 1) (2 ^ 60) && near (dot 2 2) (2 ^ 60) && near (dot 0 1) 0 && near (dot 0 2) 0 && near (dot 1 2) 0

/-- Number of layers: one more than the highest layer bit of any section (R188). -/
def layersOf (l : List Implement) : Nat :=
  let m := l.foldl (fun m i => i.secs.foldl (fun m s => m ||| s.layers) m) 0
  if m = 0 then 0 else m.log2 + 1

/-- The grid of a boundary (R186, R188): E0, N0, block columns, block rows. -/
def gridOf (cell : Nat) (l : List Pt) : Int × Int × Nat × Nat :=
  let side : Int := 128 * cell
  let (w, s, e, n) := bbox l
  (w / side * side, s / side * side, (e / side - w / side).toNat + 1, (n / side - s / side).toNat + 1)

/-- The centre of cell (x, y) of block (bx, by). -/
def centreOf (cell : Nat) (e0 n0 : Int) (bx by_ x y : Nat) : Pt :=
  (e0 + ((128 * bx + x) * cell + cell / 2 : Nat), n0 + ((128 * by_ + y) * cell + cell / 2 : Nat))

/-- Whether a centre is MASKED (R187). -/
def maskedPt (j : Job) (p : Pt) : Bool := !inPoly p j.boundary || j.zones.any fun z => inPoly p z.2

/-- Whether block (bx, by) is allocated: a cell centre inside the boundary (R188). -/
def blockIn (cell : Nat) (j : Job) (e0 n0 : Int) (bx by_ : Nat) : Bool :=
  (List.range 128).any fun y => (List.range 128).any fun x => inPoly (centreOf cell e0 n0 bx by_ x y) j.boundary

/-- The cells of block (bx, by) as rebuilt (R186, R187): four cells a byte, MASKED or NONE. -/
def blockMask (cell : Nat) (j : Job) (e0 n0 : Int) (bx by_ : Nat) : Bytes :=
  (List.range 4096).map fun i =>
    let code (q : Nat) : Nat :=
      let c := 4 * i + q
      if maskedPt j (centreOf cell e0 n0 bx by_ (c % 128) (c / 128)) then 3 else 0
    BitVec.ofNat 8 (code 0 + 4 * code 1 + 16 * code 2 + 64 * code 3)

/-- The places of the directory whose blocks are allocated, in row-major order from the south-west. -/
def allocated (cell : Nat) (j : Job) : List Nat :=
  let (e0, n0, cols, rows) := gridOf cell j.boundary
  (List.range (cols * rows)).filter fun p => blockIn cell j e0 n0 (p % cols) (p / cols)

/-- The directory entries of an image: kind, reserved byte, count, offset. -/
def dirOf (b : Bytes) : List (Nat × Nat × Nat × Nat) :=
  (List.range (fld b 6 2)).map fun i => let o := 16 + 8 * i; (fld b o 1, fld b (o + 1) 1, fld b (o + 2) 2, fld b (o + 4) 4)

/-- Header checks: CRC, then version and section count (R154, R155). -/
def checkHead (b : Bytes) : Except JobBad Unit := do
  let len := fld b 8 4
  need (20 ≤ b.length && b.length == len && crc32c (b.take (b.length - 4)) == fld b (b.length - 4) 4) 1 0 0
  need (fld b 0 4 == 0x424F4A4B && fld b 4 2 == 1 && 7 ≤ fld b 6 2 && fld b 6 2 ≤ 9) 2 0 0
  need (len ≤ 1048576 && 16 + 8 * fld b 6 2 + 4 ≤ len) 3 0 0
  let ks := (dirOf b).map (·.1)
  needAll (fun i k => need (1 ≤ k && k ≤ 9 && ks.count k == 1) 2 k i) ks
  needAll (fun _ k => need (ks.contains k) 2 k 0) [1, 2, 3, 4, 5, 6, 7, 8]
  needAll (fun i x => need (x.2.1 == 0) 3 x.1 i) (dirOf b)

/-- Count and offset of a section. -/
def sect (b : Bytes) (k : Nat) : Nat × Nat :=
  match (dirOf b).find? (·.1 == k) with
  | some (_, _, c, o) => (c, o)
  | none => (0, 0)

/-- A section of `n` bytes lies within the image. -/
def within (b : Bytes) (k n : Nat) : Except JobBad Unit := need ((sect b k).2 + n ≤ b.length - 4) 3 k 0

/-- R154, R155, R188, R192: the job that an image holds, or why it is refused. -/
def checkImage (cell : Nat) (b : Bytes) : Except JobBad Job := do
  checkHead b
  let c (k : Nat) : Nat := (sect b k).1
  let o (k : Nat) : Nat := (sect b k).2
  -- FRAME
  need (c 1 == 1) 3 1 0
  within b 1 60
  let rot := (List.range 9).map fun i => fldS b (o 1 + 24 + 4 * i) 4
  need (rotOk rot) 6 1 0
  -- BOUNDARY
  need (3 ≤ c 2 && c 2 ≤ 4096) 3 2 0
  within b 2 (8 * c 2)
  let boundary := ptsAt b (o 2) (c 2)
  needAll (fun i p => need (ptOk p) 4 2 i) boundary
  need (simplePoly boundary && 0 < area2 boundary) 5 2 0
  -- EXCLUSION
  need (c 3 ≤ 256) 3 3 0
  within b 3 (zonesEnd b (c 3) (o 3) - o 3)
  let zs := zonesAt b (c 3) (o 3)
  needAll (fun i z => need (3 ≤ z.1 && z.1 ≤ 1024 && z.2.2.1 ≤ 1) 3 3 i) zs
  need ((zs.foldl (fun s z => s + z.1) 0) ≤ 16384) 3 3 0
  needAll (fun i z => need (z.2.2.2.all ptOk) 4 3 i) zs
  needAll (fun i z => need (simplePoly z.2.2.2 && !polysTouch z.2.2.2 boundary && z.2.2.2.all fun p => inPoly p boundary) 5 3 i) zs
  needAll (fun i z => need (((zs.drop (i + 1)).all fun y => !polysTouch z.2.2.2 y.2.2.2 &&
    !(inPoly (z.2.2.2.headD (0, 0)) y.2.2.2) && !(inPoly (y.2.2.2.headD (0, 0)) z.2.2.2))) 5 3 i) zs
  -- HEADLAND
  need (c 4 == 1) 3 4 0
  within b 4 8
  need (fld b (o 4) 1 ≤ 8 && fld b (o 4 + 1) 1 ≤ 1 && fld b (o 4 + 3) 1 ≤ 4) 3 4 0
  need (fld b (o 4 + 2) 1 < c 6) 7 4 0
  -- PATTERN
  need (c 5 == 1) 3 5 0
  within b 5 24
  need (fld b (o 5) 1 ≤ 1 && fld b (o 5 + 2) 1 ≤ 2 && fld b (o 5 + 3) 1 == 0) 3 5 0
  let lineA := ptAt b (o 5 + 4)
  let lineB := ptAt b (o 5 + 12)
  need (ptOk lineA && ptOk lineB) 4 5 0
  need (lineA != lineB) 3 5 0
  need (fld b (o 5 + 1) 1 < c 6) 7 5 0
  -- IMPLEMENT
  need (1 ≤ c 6 && c 6 ≤ 8) 3 6 0
  let io := implOffs b (c 6) (o 6)
  within b 6 (io.2 - o 6)
  needAll (fun i x => need (fld b x 1 == i && 1 ≤ fld b (x + 1) 1 && fld b (x + 1) 1 ≤ 128 && fld b (x + 2) 2 == 0 &&
    (List.range (fld b (x + 1) 1)).all fun j => secOk b (x + 8 + 20 * j)) 3 6 i) io.1
  let impls := io.1.map (implAt b)
  -- DOCK
  need (c 7 ≤ 12) 3 7 0
  within b 7 (16 * c 7)
  let docks := (List.range (c 7)).map fun i =>
    let x := o 7 + 16 * i
    ({ bay := fld b x 1, kind := fld b (x + 1) 1, stop := ptAt b (x + 4), heading := fldS b (x + 12) 4 } : DockEntry)
  needAll (fun i y => need (1 ≤ y.bay && y.bay ≤ 12 && 1 ≤ y.kind && y.kind ≤ 3 && fld b (o 7 + 16 * i + 2) 2 == 0) 3 7 i) docks
  needAll (fun i y => need (ptOk y.stop) 4 7 i) docks
  -- MACHINE
  need (1 ≤ c 8 && c 8 ≤ 96) 3 8 0
  within b 8 (24 * c 8)
  let machs := (List.range (c 8)).map fun i => machAt b (o 8 + 24 * i)
  needAll (fun i m => need (machOk m && fld b (o 8 + 24 * i + 22) 2 == 0 && ((machs.take i).all fun y => y.n != m.n)) 3 8 i) machs
  needAll (fun i m => need (m.impl == 255 || m.impl < c 6) 7 8 i) machs
  -- DONE
  let hasDone := (dirOf b).any fun x => x.1 == 9
  if hasDone then within b 9 1024 else pure ()
  let job : Job :=
    { id := fld b 12 4, origin := [0, 1, 2].map fun i => fldS b (o 1 + 8 * i) 8, rot := rot, boundary := boundary
      zones := zs.map fun z => (z.2.1, z.2.2.2)
      passes := fld b (o 4) 1, order := fld b (o 4 + 1) 1, headImpl := fld b (o 4 + 2) 1, zonePasses := fld b (o 4 + 3) 1
      radius := fld b (o 4 + 4) 4, patKind := fld b (o 5) 1, patImpl := fld b (o 5 + 1) 1, patDir := fld b (o 5 + 2) 1
      lineA := lineA, lineB := lineB, overlap := fld b (o 5 + 20) 4, impls := impls, docks := docks
      machs := sortBy (fun a b => decide (a.n < b.n)) machs, done := if hasDone then fld b (o 9) 1024 else 0 }
  -- R188
  let g := gridOf cell boundary
  need (g.2.2.1 * g.2.2.2 ≤ 1048576) 3 2 0
  need ((allocated cell job).length * layersOf impls ≤ 156250) 3 2 0
  pure job

/-! ### Job state and tasks -/

/-- The job part of the committed state changed. -/
def Dev.job (d : Dev) (f : JobCom → JobCom) : Dev := { d with com := { d.com with job := f d.com.job } }

/-- The job state set (Table 6.4), with notice 0x2080 where it changes. -/
def Dev.jobState (d : Dev) (s k : Nat) : Dev :=
  let old := d.rd P.JOB_STATE
  if old = s then d
  else (d.wr P.JOB_STATE 0 s).notice 0x2080 (le 1 old ++ le 1 s ++ le 4 (d.rd P.JOB_ID) ++ le 4 (u32 k))

/-- Whether the job is RUNNING or PAUSED. -/
def Dev.jobLive (d : Dev) : Bool := d.rd P.JOB_STATE == 3 || d.rd P.JOB_STATE == 4

/-- The machine entry of machine `n` in the loaded job. -/
def Dev.mach? (d : Dev) (n : Nat) : Option Mach :=
  match d.com.job.job with
  | some j => j.machs.find? (·.n == n)
  | none => none

/-- The machines of the loaded job, ascending. -/
def Dev.jobMachs (d : Dev) : List Nat :=
  match d.com.job.job with
  | some j => j.machs.map (·.n)
  | none => []

/-- The first `LOAD` frame of an image: LOADING, with the state it came from kept (Table 6.4). -/
def Dev.jobLoading (d : Dev) (k : Nat) : Dev :=
  if d.rd P.JOB_STATE = 1 then d
  else (d.job fun c => { c with prev := d.rd P.JOB_STATE }).jobState 1 k

/-- An image abandoned or its load refused: back to the previous state. -/
def Dev.jobBack (d : Dev) (k : Nat) : Dev :=
  if d.rd P.JOB_STATE = 1 then (d.job fun c => { c with load := none }).jobState d.com.job.prev k else d

/-- The last chunk admitted to cycle `a`: the image takes effect at the commit of cycle a + 100 (R153). -/
def Dev.jobTake (d : Dev) (a : Nat) (img : Bytes) : Dev := d.job fun c => { c with load := some { due := a + 100, image := img } }

/-- R153: checking and generation of the image that waits complete; `pieces` and `digest` are the generated track table, which R157 gives as
the Fjosoulo Workbench model's.  Pieces shorter than `JOB.MIN_TRACK` are no tasks; more than 8,192 refuse the image. -/
def execTrackGenerationDone (t : Nat) (pieces : List Piece) (digest : Nat) (s : State) : Host.Outcome State Fault Refusal :=
  run s fun d0 =>
  let d := d0.at t
  match d.com.job.load with
  | some l =>
    if l.gen.isSome then d
    else
      let g : JobGen := match checkImage (d.cf P.COV_CELL) l.image with
        | .error e => { bad := some e }
        | .ok j =>
          let ps := pieces.filter fun p => d.cf P.JOB_MIN_TRACK ≤ pathLen p.points
          if 8192 < ps.length then { bad := some { reason := 8, kind := 5 } }
          else { job := j, pieces := ps, digest := digest % 2 ^ 64 }
      d.job fun c => { c with load := some { l with gen := some g } }
  | none => d

/-- A task's record (Table 6.6). -/
def Task.bytes (t : Task) : Bytes :=
  le 2 t.num ++ le 1 t.type ++ le 1 t.state ++ le 1 t.machine ++ le 1 t.flags ++ le 2 t.bay ++ le 4 (min t.progress (2 ^ 32 - 1)) ++
    le 4 (min (pathLen t.path) (2 ^ 32 - 1))

/-- A task that is PENDING, ALLOTTED or RUNNING. -/
def Task.live (t : Task) : Bool := t.state < 3

/-- The task of a number. -/
def Dev.task? (d : Dev) (n : Nat) : Option Task := d.com.job.tasks.find? (·.num == n)

/-- A task placed in ascending number, in place of an earlier one; noted as changed where its record differs (R159). -/
def Dev.putTask (d : Dev) (t : Task) : Dev :=
  let same := match d.task? t.num with
    | some o => o.bytes == t.bytes
    | none => false
  d.job fun c =>
    { c with tasks := insertBy (fun a b => decide (a.num < b.num)) t (c.tasks.filter (·.num != t.num))
             changed := if same || c.changed.contains t.num then c.changed else c.changed ++ [t.num] }

/-- The next free run-time task number (R158): the one after the last given, skipping those of live tasks. -/
def nextRun (ts : List Task) : Nat → Nat → Nat
  | 0, n => n
  | f + 1, n => let m := if n ≥ 65535 then 8192 else n + 1; if ts.any fun t => t.num == m && t.live then nextRun ts f m else m

/-- A run-time task created (R158). -/
def Dev.newTask (d : Dev) (type machine bay : Nat) (path : List Pt) : Nat × Dev :=
  let n := nextRun d.com.job.tasks 300 d.com.job.lastRun
  (n, (d.job fun c => { c with lastRun := n }).putTask { num := n, type := type, machine := machine, bay := bay, path := path })

/-- A WORK task DONE (R160): its bit in `JOB.DONE_MAP`, the count and notice 0x2082. -/
def Dev.workDone (d : Dev) (t : Task) (k : Nat) : Dev :=
  let mark (j : Job) : Job := { j with done := setBit j.done t.num true }
  let d1 := (d.job fun c => { c with job := c.job.map mark }).putTask { t with state := 3 }
  (d1.wr P.JOB_DONE_COUNT 0 (d1.rd P.JOB_DONE_COUNT + 1)).notice 0x2082 (le 2 t.num ++ le 1 t.machine ++ le 4 (u32 k))

/-- A task ABANDONED (R160); a REFILL task whose gantry was commanded also commands park (R352). -/
def Dev.abandon (d : Dev) (t : Task) : Dev :=
  (d.putTask { t with state := 4 }).when (t.type == 3) fun d => d.job fun c => { c with park := c.park ++ [t.num] }

/-- The tasks of a track table (R157, R158): numbered from 0, DONE where the map says so. -/
def tasksOf (j : Job) (ps : List Piece) : List Task :=
  mapFrom (fun i p => ({ num := i, type := 2, state := if bitOf j.done i then 3 else 0, flags := bit p.headland, path := p.points
                         impl := if p.headland then j.headImpl else j.patImpl } : Task)) 0 ps

/-! ### The coverage store as rebuilt -/

/-- The Coverage part of the committed state changed. -/
def Dev.cov (d : Dev) (f : CovCom → CovCom) : Dev := { d with com := { d.com with cov := f d.com.cov } }

/-- The store discarded (`UNLOAD`, R189). -/
def Dev.covClear (d : Dev) : Dev :=
  let d0 := { d with cyc := { d.cyc with covBase := none, changedCov := [] } }
  let d1 := d0.cov fun c => { c with dir := [], masks := [], blocks := [], machs := [], held := [] }
  let d2 := ((((d1.wr P.COV_LAYERS 0 0).wr P.COV_BLOCKS 0 0).wrS P.COV_ORIGIN 0 0).wrS P.COV_ORIGIN 1 0)
  let d3 := (d2.wr P.COV_DIR_SIZE 0 0).wr P.COV_DIR_SIZE 1 0
  [0, 1, 2, 3].foldl (fun d l => (d.wr P.COV_ONCE l 0).wr P.COV_OVERLAP l 0) d3

/-- The store rebuilt from the job (R187 to R189). -/
def Dev.covRebuild (d : Dev) : Dev :=
  match d.com.job.job with
  | none => d.covClear
  | some j =>
    let cell := d.cf P.COV_CELL
    let (e0, n0, cols, rows) := gridOf cell j.boundary
    let places := allocated cell j
    let l := layersOf j.impls
    let d1 := d.covClear.cov fun c =>
      { c with dir := mapFrom (fun i p => (p, i)) 0 places
               masks := places.map fun p => blockMask cell j e0 n0 (p % cols) (p / cols) }
    let k := match d.cyc.inCommit with | some k => k | none => d.cyc.next
    let d2 := { d1 with cyc := { d1.cyc with covBase := some k } }
    (((((d2.wr P.COV_LAYERS 0 l).wr P.COV_BLOCKS 0 (places.length * l)).wrS P.COV_ORIGIN 0 e0).wrS P.COV_ORIGIN 1 n0).wr
      P.COV_DIR_SIZE 0 cols).wr P.COV_DIR_SIZE 1 rows

/-! ### A job loaded, unloaded, restored -/

/-- The allotment record of a machine that is OFF (Table 6.10). -/
def offRecord (n : Nat) : Bytes := le 1 n ++ le 1 0 ++ le 2 0xFFFF ++ zeros 8 ++ le 2 0xFFFF ++ le 2 0xFFFF

/-- The Slate's machines under a job with machines `ns`: their allotments start afresh, OFF until `START` (R156); status reports, positions and last
records are kept (R173, R174, R176). -/
def newMachs (old : List MachSt) (ns : List Nat) : List MachSt :=
  ((List.range 97).filter fun n => ns.contains n || old.any fun m => m.n == n).map fun n =>
    match old.find? (fun m => m.n == n) with
    | some m => { n := n, status := m.status, held := m.held, use := m.use, recent := m.recent, rec_ := m.rec_ }
    | none => { n := n, rec_ := offRecord n }

/-- The parameters and committed state that a job gives (Table 6.17, R146, R155). -/
def Dev.showJob (d : Dev) (img : Bytes) (j : Job) (ps : List Piece) (digest : Nat) : Dev :=
  let d1 := ((((d.wr P.JOB_ID 0 j.id).wr P.JOB_IMAGE_DIGEST 0 (unle ((sha256 img).take 8))).wr P.JOB_TRACK_DIGEST 0 digest).wr
    P.JOB_TRACKS 0 ps.length).wr P.JOB_ENROLLED 0 j.machs.length
  let done := j.done % 2 ^ ps.length
  let d2 := d1.wr P.JOB_DONE_COUNT 0 ((setBits ps.length done).length)
  let d3 := [0, 1, 2].foldl (fun d i => d.wrS P.JOB_ORIGIN i (nth j.origin i)) d2
  let d4 := (List.range 9).foldl (fun d i => d.wrS P.JOB_ROT i (nth j.rot i)) d3
  { d4 with com := { d4.com with
      jobMachines := j.machs.map (·.n)
      frame := some (j.origin, j.rot)
      slt := { d4.com.slt with machs := newMachs d4.com.slt.machs (j.machs.map (·.n)) }
      job := { d4.com.job with image := img, job := some { j with done := done }, tasks := tasksOf { j with done := done } ps, changed := [], lastRun := 8191 } } }

/-- `UNLOAD`: the job, its tasks and its store are gone (R156, R189). -/
def Dev.jobGone (d : Dev) : Dev :=
  let d1 := ((((d.wr P.JOB_ID 0 0).wr P.JOB_IMAGE_DIGEST 0 0).wr P.JOB_TRACK_DIGEST 0 0).wr P.JOB_TRACKS 0 0).wr P.JOB_ENROLLED 0 0
  let d2 := [0, 1, 2].foldl (fun d i => d.wr P.JOB_ORIGIN i 0) (d1.wr P.JOB_DONE_COUNT 0 0)
  let d3 := (List.range 9).foldl (fun d i => d.wr P.JOB_ROT i 0) d2
  { d3 with com := { d3.com with
      jobMachines := [], frame := none
      slt := { d3.com.slt with machs := newMachs d3.com.slt.machs [] }
      job := { d3.com.job with image := [], job := none, tasks := [], changed := [], lastRun := 8191, park := [] } } }.covClear

/-- The image that waits for cycle `k` takes effect or is refused (R153, R155); false where generation has not completed. -/
def Dev.jobDue (d : Dev) (k : Nat) : Dev × Bool :=
  match d.com.job.load with
  | some l =>
    if l.due ≤ k then
      let d1 := d.job fun c => { c with load := none }
      match l.gen with
      | none => (d1, false)
      | some g =>
        match g.bad with
        | some b =>
          let d2 := (d1.wr P.JOB_LOAD_ERR 0 (b.reason * 256 + b.kind)).notice 0x2081
            (le 1 b.reason ++ le 1 b.kind ++ le 2 b.entry ++ le 4 (fld l.image 12 4))
          (d2.jobState d1.com.job.prev k, true)
        | none => (((d1.showJob l.image g.job g.pieces g.digest).covRebuild).jobState 2 k, true)
    else (d, true)
  | none => (d, true)

end Sys2Proof.Machine
end

