-- ==== Sys2Proof/Machine/Slate.lean ====
section
/-!
DEFINITION. The Slate: reservations and the conflict check (R161 to R168), positions, conformance, LOST machines and thaw (R176 to R181), host
reservations (R183), the fence table and position list (R182, R219).  Times are ms of hub time.
-/
namespace Sys2Proof.Machine
open Sys2Proof

/-- The Slate part of the committed state changed. -/
def Dev.slt (d : Dev) (f : SltCom → SltCom) : Dev := { d with com := { d.com with slt := f d.com.slt } }

/-- C(k) in whole ms. -/
def Dev.commitMs (d : Dev) (k : Nat) : Int := (d.commitAt k / ms : Nat)

/-- A machine's state in the Slate. -/
def Dev.ms? (d : Dev) (n : Nat) : Option MachSt := d.com.slt.machs.find? (·.n == n)

/-- A machine's state changed. -/
def Dev.updM (d : Dev) (n : Nat) (f : MachSt → MachSt) : Dev :=
  d.slt fun c => { c with machs := c.machs.map fun (m : MachSt) => if m.n = n then f m else m }

/-- A machine's state changed, where none is kept yet from that of a machine OFF. -/
def Dev.seeM (d : Dev) (n : Nat) (f : MachSt → MachSt) : Dev :=
  if n = 0 || 96 < n then d
  else if (d.ms? n).isSome then d.updM n f
  else
    let m : MachSt := f { n := n, rec_ := offRecord n }
    d.slt fun c => { c with machs := insertBy (fun (a b : MachSt) => decide (a.n < b.n)) m c.machs }

/-! ### Reservations -/

/-- A segment as it stands in a record (Table 6.8). -/
def Seg.bytes (s : Seg) : Bytes :=
  le 4 (ofS 32 s.a.1) ++ le 4 (ofS 32 s.a.2) ++ le 4 (ofS 32 s.b.1) ++ le 4 (ofS 32 s.b.2) ++ le 2 s.half ++ le 2 0 ++
    le 4 (ofS 32 s.t0) ++ le 4 (match s.t1 with | some t => ofS 32 t | none => 0x7FFFFFFF)

/-- A reservation record (Table 6.7). -/
def Res.bytes (r : Res) : Bytes :=
  le 2 r.slot ++ le 1 r.machine ++ le 1 r.state ++ le 2 r.task ++ le 1 r.segs.length ++ le 1 r.flags ++ le 8 (ofS 64 r.tBase) ++
    le 4 (ofS 32 r.late) ++ le 4 r.grow ++ le 4 (u32 r.made) ++ r.segs.flatMap Seg.bytes

/-- Reservation flags (Table 6.7). -/
def fSTANDING : Nat := 0
/-- Bit 1. -/
def fFINAL : Nat := 1
/-- Bit 2. -/
def fHOST : Nat := 2
/-- Bit 3. -/
def fCLASH : Nat := 3
/-- Bit 4. -/
def fPREEMPTED : Nat := 4
/-- Bit 5. -/
def fNOACK : Nat := 5
/-- Bit 6. -/
def fFROMREST : Nat := 6

/-- HELD, ACTIVE and FROZEN reservations block others (Table 6.9). -/
def Res.blocks (r : Res) : Bool := r.state == 1 || r.state == 2 || r.state == 4

/-- Whether two windows overlap (procedure `strip_conflict`); an end of none is later than every instant. -/
def windowsMeet (a0 : Int) (a1 : Option Int) (b0 : Int) (b1 : Option Int) : Bool :=
  let hi := match a1, b1 with
    | some x, some y => some (min x y)
    | some x, none => some x
    | none, y => y
  match hi with
  | some h => max a0 b0 < h
  | none => true

/-- Absolute window of a segment. -/
def Res.window (r : Res) (s : Seg) : Int × Option Int := (r.tBase + s.t0, s.t1.map (r.tBase + ·))

/-- Procedure `strip_conflict` (R167). -/
def stripConflict (sep : Nat) (p q : Res) : Bool :=
  p.segs.any fun x => q.segs.any fun y =>
    let a := p.window x
    let b := q.window y
    windowsMeet a.1 a.2 b.1 b.2 && segNear x.a x.b y.a y.b (x.half + p.grow + y.half + q.grow + sep : Nat)

/-- The reservations in conflict with a proposed one, ascending slot (R167). -/
def Dev.conflicts (d : Dev) (p : Res) : List Res :=
  d.com.slt.res.filter fun q => q.blocks && q.machine != p.machine && stripConflict (d.cf P.SLT_SEP) p q

/-- The check of one strip (R166): its duration at one pair a lane and FABRIC clock of 2 ns. -/
def Dev.timeCheck (d : Dev) (p : Res) : Dev :=
  let pairs := p.segs.length * ((d.com.slt.res.filter Res.blocks).foldl (fun n q => n + q.segs.length) 0)
  d.maxTo P.SLT_CHECK_MAX 0 ((pairs + 255) / 256 * 2)

/-- The lowest FREE slot (R168). -/
def freeSlot (l : List Res) : Option Nat := (List.range 16384).find? fun i => !l.any fun r => r.slot == i

/-- `SLT.USED`. -/
def Dev.showUsed (d : Dev) : Dev := d.wr P.SLT_USED 0 d.com.slt.res.length

/-- A reservation changed. -/
def Dev.updRes (d : Dev) (slot : Nat) (f : Res → Res) : Dev :=
  d.slt fun c => { c with res := c.res.map fun (r : Res) => if r.slot = slot then f r else r }

/-- A reservation placed in the lowest FREE slot, or none with `SLT.FULL` and notice 0x2184 (R168). -/
def Dev.placeRes (d : Dev) (k : Nat) (p : Res) : Option Nat × Dev :=
  match freeSlot d.com.slt.res with
  | some i =>
    (some i, (d.slt fun c => { c with res := insertBy (fun (a b : Res) => decide (a.slot < b.slot)) { p with slot := i, made := k } c.res }).showUsed)
  | none => (none, (d.inc P.SLT_FULL).notice 0x2184 (le 1 p.machine ++ le 4 (u32 k)))

/-- Reservations of a machine in some states, in order of grant, newest last. -/
def Dev.resOf (d : Dev) (n : Nat) (states : List Nat) : List Res :=
  sortBy (fun a b => lexLt [a.made, a.slot] [b.made, b.slot]) (d.com.slt.res.filter fun r => r.machine == n && states.contains r.state)

/-- A reservation RELEASED with a flag. -/
def Dev.releaseRes (d : Dev) (r : Res) (flag : Option Nat) : Dev :=
  d.updRes r.slot fun r => { r with state := 3, flags := match flag with | some f => setBit r.flags f true | none => r.flags }

/-- Message 0x35 of a reservation to its machine (R175). -/
def Dev.sendAllotment (d : Dev) (r : Res) : Dev := d.toMachine r.machine 0x35 ([0x35#8] ++ r.bytes)

/-- R175: the allotment message of a HELD reservation is repeated. -/
def execAllotmentRepeat (t slot : Nat) (s : State) : Host.Outcome State Fault Refusal := run s fun d0 =>
  let d := d0.at t
  match d.com.slt.res.find? (·.slot == slot) with
  | some r => if r.state = 1 ∧ r.machine ≠ 0 then d.sendAllotment r else d
  | none => d

/-- R166: a fault of the Slate Tile, handled as a Bench commit fault. -/
def execSlateFault (t : Nat) (s : State) : Host.Outcome State Fault Refusal := run s fun d0 =>
  ((d0.at t).faultLog 4 (location 4 0 0 .engine) []).giveUp 1

/-! ### Strips -/

/-- The parts of one task edge from path length `c` on (R162): `n` equal parts whose points truncate toward zero; what lies before `s0` is left
out.  Each part: its points and the path length at its end. -/
def edgeParts (segLen : Nat) (s0 : Nat) (g : Pt × Pt × Nat × Nat) : List (Pt × Pt × Nat) :=
  let (a, b, c, e) := g
  let n := (e + segLen - 1) / segLen
  (List.range n).filterMap fun i =>
    let lo := c + e * i / n
    let hi := c + e * (i + 1) / n
    if hi ≤ s0 then none
    else some ((if s0 ≤ lo then along a b i n else along a b (s0 - c : Nat) e), along a b (i + 1) n, hi)

/-- The parts of a task path from path length `s0` on. -/
def taskParts (segLen : Nat) (path : List Pt) (s0 : Nat) : List (Pt × Pt × Nat) := (legs path).flatMap (edgeParts segLen s0)

/-- The parts of a strip with the distance from its start at which each begins and ends. -/
def stripDist : Nat → List (Pt × Pt × Nat) → List (Pt × Pt × Nat × Nat)
  | _, [] => []
  | c, (a, b, _) :: l => (a, b, c, c + dist a b) :: stripDist (c + dist a b) l

/-- What a strip is built from: machine entry, half-width and cruise speed of its task type, task and path, progress at its start. -/
structure Seek where
  mach : Mach := {}
  task : Nat := 0xFFFF
  half : Nat := 0
  vc : Nat := 100
  path : List Pt := []
  s0 : Nat := 0
  deriving DecidableEq, Repr, Inhabited

/-- Half-width and cruise speed by task type (Table 6.5, R163). -/
def seekOf (m : Mach) (type task : Nat) (path : List Pt) (s0 : Nat) : Seek :=
  { mach := m, task := task, half := if type = 2 then m.halfWork else m.halfTransit, vc := if type = 2 then m.vWork else m.vTransit
    path := path, s0 := s0 }

/-- One strip (R162 to R165) entered at speed `vin`, with its base time and latest entry. -/
def buildAt (slack segLen : Nat) (x : Seek) (vin : Nat) (tBase late : Int) (fromRest : Bool) : Res :=
  let m := x.mach
  let all := taskParts segLen x.path x.s0
  let parts := all.take 15
  let ds := stripDist 0 parts
  let l : Int := (ds.foldl (fun s g => s + dist g.1 g.2.1) 0 : Nat)
  let early (s : Int) : Int := profileMs s l vin x.vc x.vc m.accel m.decel
  let lateT (s : Int) : Int := profileMs s l 0 x.vc 0 m.accel m.decel
  let n := ds.length
  let moving := mapFrom (fun i g =>
    let (a, b, s1, s2) := g
    let e : Int := dist a b
    let a' := if i = 0 ∧ e ≠ 0 then (a.1 - ((b.1 - a.1) * m.rear).tdiv e, a.2 - ((b.2 - a.2) * m.rear).tdiv e) else a
    let b' := if i + 1 = n ∧ e ≠ 0 then (b.1 + ((b.1 - a.1) * m.front).tdiv e, b.2 + ((b.2 - a.2) * m.front).tdiv e) else b
    ({ a := a', b := b', half := x.half, t0 := early (max 0 ((s1 : Int) - m.front)) - slack
       t1 := some (late + lateT (min l (s2 + m.rear)) + slack) } : Seg)) 0 ds
  let stop := match parts.getLast? with
    | some g => g.2.1
    | none => pathAt x.path x.s0
  let upTo := match parts.getLast? with
    | some g => g.2.2
    | none => x.s0
  { machine := m.n, task := x.task, flags := setBit (setBit 0 fFINAL (all.length ≤ 15)) fFROMREST fromRest, tBase := tBase, late := late
    segs := moving ++ [{ a := stop, b := stop, half := x.half, t0 := early l - slack, t1 := none }]
    vc := x.vc, earlyL := early l, lateL := lateT l, upTo := upTo }

/-- Length of the strip that would be built. -/
def stripLen (segLen : Nat) (x : Seek) : Nat := ((taskParts segLen x.path x.s0).take 15).foldl (fun s g => s + dist g.1 g.2.1) 0

/-- R165: a strip from rest, or the continuation of `prev` where it can be entered moving: not where it is shorter than v_in² / (2 × DECEL), nor where
its stop point was left unused. -/
def Dev.buildStrip (d : Dev) (k : Nat) (x : Seek) (prev : Option Res) : Res :=
  let slack := d.cf P.SLT_SLACK
  let segLen := d.cf P.SLT_SEG_LEN
  let ck := d.commitMs k
  let lead := d.cf P.SLT_LEAD
  let rest := buildAt slack segLen x 0 (ck + 12) ((lead : Int) - 12) true
  match prev with
  | none => rest
  | some p =>
    let vin := min p.vc x.vc
    let tb := p.tBase + p.earlyL
    if stripLen segLen x < vin * vin / (2 * x.mach.decel) ∨ tb < ck + 12 then rest
    else buildAt slack segLen x vin tb (max (p.tBase + p.late + p.lateL) (ck + lead) - tb) false

/-! ### Reports and positions -/

/-- R169 step 1, R174: a status report taken where it is later than the one held. -/
def Dev.takeStatus (d : Dev) (x : Input) : Dev :=
  let p := x.payload
  let n := fld p 1 1
  if p.length = 16 ∧ fld p 0 1 = 0x34 then
    d.seeM n fun m =>
      let newer : Bool := match m.status with
        | some o => o.stamp < x.stamp
        | none => true
      if newer then
        { m with status := some { stamp := x.stamp, batt := fld p 2 1, tank := fld p 3 1, flags := fld p 4 1, res := fld p 6 2, made := fld p 8 4 } }
      else m
  else d

/-- The position a solution record gives (Table 5.7), usable under R176. -/
def posOf (sigMax : Nat) (r : Bytes) : Pos :=
  let fix := fld r 1 1
  let se := fld r 68 2
  let sn := fld r 70 2
  { epoch := (ofStamp64 (fld r 8 8)).getD 0, fix := fix, p := (fldS r 40 4, fldS r 44 4), ve := fldS r 52 4, vn := fldS r 56 4, sigE := se, sigN := sn
    usable := fix == 3 || fix == 4 || (fix == 2 && se ≤ sigMax && sn ≤ sigMax) }

/-- R169 step 2, R176: the solution record of a machine taken. -/
def Dev.takePosition (d : Dev) (e : Nat × Bytes) : Dev :=
  let p := posOf (d.cf P.SLT_SIG_MAX) e.2
  d.seeM e.1 fun m =>
    let newer (o : Option Pos) : Bool := match o with
      | some q => q.epoch < p.epoch
      | none => true
    let fresh := p.usable && newer m.use
    { m with held := if newer m.held then some p else m.held, use := if fresh then some p else m.use, fresh := fresh
             recent := (m.recent ++ [p]).drop (m.recent.length + 1 - 10) }

/-- Horizontal speed of a position (mm/s), rounded down. -/
def Pos.speed (p : Pos) : Nat := isqrt (sq2 p.ve p.vn).toNat

/-! ### LOST machines, thaw and conformance -/

/-- R179: HELD and ACTIVE reservations become FROZEN. -/
def Res.freeze (k : Nat) (e : Int) (r : Res) : Res :=
  { r with state := 4, tBase := e, frozenIn := k, segs := r.segs.map fun (s : Seg) => { s with t0 := 0, t1 := none } }

/-- The tasks of a machine that are live. -/
def Dev.tasksOfM (d : Dev) (n : Nat) : List Task := d.com.job.tasks.filter fun t => t.machine == n && t.live

/-- A machine becomes LOST (R178, R179, R160); `own` is false under R236, which raises no notice. -/
def Dev.lose (d : Dev) (n k : Nat) (own : Bool) : Dev :=
  match d.ms? n with
  | none => d
  | some m =>
    let e : Int := match m.use with
      | some u => (u.epoch / ms : Nat)
      | none => ((k + 1) * 50 : Nat)
    let rs := d.resOf n [1, 2]
    let d1 := rs.foldl (fun d r => d.updRes r.slot (Res.freeze k e)) d
    let d2 := (d1.tasksOfM n).foldl (fun d t =>
      if t.type = 2 then (if t.state = 0 then d.putTask { t with machine := 0 } else d.putTask { t with flags := setBit t.flags 2 true })
      else d.abandon t) d1
    let d3 := d2.updM n fun m => { m with state := 4, waitFrom := 0, thaw := [], queue := [] }
    if own then
      (d3.inc P.SLT_LOSTS n).notice 0x2180 (le 1 n ++ le 8 (match m.use with | some u => stamp64 u.epoch | none => 0) ++
        le 1 (min 255 rs.length) ++ le 4 (u32 k))
    else d3

/-- R180: a standing reservation at a machine's last position, granted even when it conflicts. -/
def Dev.standing (d : Dev) (n k : Nat) : Dev :=
  match d.ms? n, d.mach? n with
  | some m, some c =>
    match m.use with
    | none => d
    | some u =>
      let r : Res := { machine := n, state := 2, flags := setBit 0 fSTANDING true, tBase := d.commitMs k
                       segs := [{ a := u.p, b := u.p, half := c.halfTransit, t0 := 0, t1 := none }] }
      match d.placeRes k r with
      | (none, d1) => d1
      | (some i, d1) =>
        let g := { r with slot := i, made := k }
        let d2 := (d1.timeCheck g).inc P.SLT_GRANTS
        match d2.conflicts g with
        | [] => d2.sendAllotment g
        | q :: _ =>
          let d3 := d2.updRes i fun r => { r with flags := setBit r.flags fCLASH true }
          (d3.notice 0x2183 (le 2 i ++ le 2 q.slot ++ le 4 (u32 k))).sendAllotment { g with flags := setBit g.flags fCLASH true }
  | _, _ => d

/-- R180, R181: thaw (kind 1) or reseat (kind 2) in one step. -/
def Dev.thawM (d : Dev) (n k kind : Nat) : Dev :=
  let froz := d.resOf n [4]
  let grow := froz.foldl (fun g r => max g r.grow) 0
  let d1 := froz.foldl (fun d r => d.releaseRes r none) d
  let d2 := (d1.tasksOfM n).foldl (fun d t => d.putTask { t with state := 0, machine := 0 }) d1
  let d3 := (d2.updM n fun m => { m with state := 1, task := 0xFFFF, thaw := [] }).standing n k
  d3.notice 0x2181 (le 1 n ++ le 1 kind ++ le 4 grow ++ le 4 (u32 k))

/-- Whether a point lies within `r` of a segment of a reservation, beyond its half-width. -/
def Res.near (r : Res) (p : Pt) (m : Nat) : Bool := r.segs.any fun s => ptNear p s.a s.b (s.half + m : Nat)

/-- R180: epochs that count toward thaw after a new usable position. -/
def Dev.thawEpochs (d : Dev) (n : Nat) (m : MachSt) (u : Pos) : List Nat :=
  let froz := d.resOf n [4]
  let ok := froz.isEmpty || froz.any fun r => r.near u.p (d.cf P.SLT_MARGIN)
  let period := 1000 / max 1 (d.cf P.RTK_RATE n) * ms
  if !ok then []
  else match m.thaw.getLast? with
    | some e => if u.epoch = e + period then m.thaw ++ [u.epoch] else [u.epoch]
    | none => [u.epoch]

/-- Whether a machine has become LOST by time (R178), and whether it lies in a latched stop of the last record (R236). -/
def Dev.lostTest (d : Dev) (n k : Nat) : Dev :=
  match d.ms? n with
  | none => d
  | some m =>
    if m.state = 4 then d
    else
      let limit := (3000 / max 1 (d.cf P.RTK_RATE n) + 50) * ms
      let gone : Bool := match m.use with
        | some u => u.epoch + limit < (k + 1) * cycleNs
        | none => true
      if gone then d.lose n k true else if d.inMask d.com.stop.latched n then d.lose n k false else d

/-- Thaw (R180) or a reseat that acts now (R181); machines in a latched stop stay LOST (R236). -/
def Dev.thawTest (d : Dev) (n k : Nat) : Dev :=
  match d.ms? n with
  | none => d
  | some m =>
    if m.state ≠ 4 ∨ d.inMask d.com.stop.latched n then d
    else
      let eps := match m.use with
        | some u => if m.fresh then d.thawEpochs n m u else m.thaw
        | none => m.thaw
      if d.cf P.SLT_THAW_N ≤ eps.length then d.thawM n k 1
      else if d.com.slt.reseat.contains n then d.thawM n k 2
      else d.updM n fun m => { m with thaw := eps }

/-- R177: conformance at a new usable position. -/
def Dev.conform (d : Dev) (n : Nat) : Dev :=
  match d.ms? n with
  | none => d
  | some m =>
    match m.use with
    | none => d
    | some u =>
      let e : Int := u.epoch
      let covers (r : Res) (s : Seg) : Bool :=
        let w := r.window s
        w.1 * ms ≤ e && (match w.2 with | some t => e ≤ t * ms | none => true)
      let segs := (d.resOf n [2]).flatMap fun r => r.segs.filter (covers r)
      let ok := if !m.fresh ∨ m.state = 4 then !m.nonconf
        else segs.any fun s => ptNear u.p s.a s.b (s.half + d.cf P.SLT_MARGIN : Nat)
      let excess := match segs with
        | [] => 0xFFFFFFFF
        | s :: ss => ss.foldl (fun x s => min x (ptDist u.p s.a s.b - s.half)) (ptDist u.p s.a s.b - s.half)
      let d1 := d.updM n fun m => { m with nonconf := !ok }
      if ok then d1
      else (d1.inc P.SLT_NONCONF n).when (!m.nonconf) (·.notice 0x2182 (le 1 n ++ le 4 excess ++ le 8 (stamp64 u.epoch)))

/-- R168: an ACTIVE reservation the machine has left for another is released. -/
def Dev.leave (d : Dev) (n : Nat) : Dev :=
  match d.ms? n with
  | none => d
  | some m =>
    match m.use with
    | none => d
    | some u =>
      if !m.fresh then d
      else
        let act := d.resOf n [2]
        let near (r : Res) : Bool := r.near u.p (d.cf P.SLT_MARGIN)
        act.foldl (fun d r => if !near r && act.any (fun o => o.slot != r.slot && near o) then d.releaseRes r none else d) d

/-- A task whose first strip is gone before it was driven: a WORK task is PENDING again, any other ABANDONED. -/
def Dev.dropTask (d : Dev) (t : Task) : Dev := if t.type = 2 then d.putTask { t with state := 0, machine := 0 } else d.abandon t

/-- R174, R168, R160: acknowledgement of HELD reservations, then missed acknowledgement. -/
def Dev.acks (d : Dev) (n k : Nat) : Dev :=
  match d.ms? n with
  | none => d
  | some m =>
    let named (r : Res) : Bool := match m.status with
      | some s => s.res == r.slot && s.made == u32 r.made
      | none => false
    (d.resOf n [1]).foldl (fun d r =>
      if named r then
        let d1 := d.updRes r.slot fun r => { r with state := 2 }
        match d1.task? r.task with
        | some t => if t.state = 1 ∧ t.machine = n then d1.putTask { t with state := 2 } else d1
        | none => d1
      else if r.tBase + r.late + d.cf P.SLT_SLACK < d.commitMs k then
        let d1 := d.releaseRes r (some fNOACK)
        match d1.task? r.task with
        | some t =>
          if t.state = 1 ∧ t.machine = n then
            (d1.dropTask t).updM n fun m => if m.task = r.task then { m with task := 0xFFFF, state := 1 } else m
          else d1
        | none => d1
      else d) d

/-- R160: progress of a machine's RUNNING tasks at its usable position; a WORK or TRANSIT task ends within `SLT.END_TOL` of its end. -/
def Dev.taskProgress (d : Dev) (n k : Nat) : Dev :=
  match d.ms? n with
  | none => d
  | some m =>
    match m.use with
    | none => d
    | some u =>
      if !m.fresh ∨ m.state = 4 then d
      else
        let nums := m.task :: (d.resOf n [2]).map (·.task)
        let ts := d.com.job.tasks.filter fun t => nums.contains t.num && t.machine == n && t.state == 2
        ts.foldl (fun d t =>
          let p := max t.progress (project u.p t.path)
          let t1 := { t with progress := p }
          if pathLen t.path ≤ p + d.cf P.SLT_END_TOL then
            (if t.type = 2 then d.workDone t1 k else if t.type = 1 then d.putTask { t1 with state := 3 } else d.putTask t1)
          else d.putTask t1) d

/-- R169 step 3 for one machine. -/
def Dev.machineStep (d : Dev) (k n : Nat) : Dev :=
  let d1 := (d.lostTest n k).thawTest n k
  let lost : Bool := match d1.ms? n with
    | some m => m.state == 4
    | none => true
  let d2 := d1.conform n
  ((d2.when (!lost) (·.leave n)).acks n k).taskProgress n k

/-- R179: growth of a FROZEN reservation, from the cycle after it froze. -/
def Dev.grow (d : Dev) (k : Nat) : Dev :=
  d.slt fun c => { c with res := c.res.map fun (r : Res) =>
    if r.state = 4 ∧ r.frozenIn < k then
      let v := match d.mach? r.machine with
        | some m => m.vMax
        | none => 0
      { r with grow := min (v * (((k + 1) * 50 : Nat) - r.tBase).toNat / 1000) (d.cf P.SLT_FREEZE_MAX) }
    else r }

/-! ### Host reservations -/

/-- The host's record of an instance as a reservation (R183): `RES`, `STATE`, `TASK`, `LATE_OFS`, `GROW` and `MADE` are the device's own. -/
def hostRes (b : Bytes) : Res :=
  { machine := 0, state := 2, task := 0xFFFF, flags := setBit (fld b 7 1 % 2) fHOST true, tBase := fldS b 8 8
    segs := (List.range (fld b 6 1)).map fun i =>
      let o := 28 + 28 * i
      { a := ptAt b o, b := ptAt b (o + 8), half := fld b (o + 16) 2, t0 := fldS b (o + 20) 4
        t1 := if fld b (o + 24) 4 = 0x7FFFFFFF then none else some (fldS b (o + 24) 4) } }

/-- One host write that acts in cycle `k`: the earlier record of its instance is released, the new one installed. -/
def Dev.hostWrite (d : Dev) (k i : Nat) (b : Bytes) : Dev :=
  let d1 := match d.com.slt.host.find? (·.1 == i) with
    | some e => (d.updRes e.2.1 fun r => { r with state := 3 }).slt fun c => { c with host := c.host.filter (·.1 != i) }
    | none => d
  if fld b 6 1 = 0 then d1
  else match d1.placeRes k (hostRes b) with
    | (some slot, d2) => d2.slt fun c => { c with host := insertBy (fun a b => decide (a.1 < b.1)) (i, slot, b) c.host }
    | (none, d2) => d2

/-- `CLASH` of a host or standing reservation judged again; notice 0x2183 where a host reservation comes to conflict (R180, R183). -/
def Dev.recheck (d : Dev) (k : Nat) : Dev :=
  (d.com.slt.res.filter fun r => r.state == 2 && (bitOf r.flags fHOST || (bitOf r.flags fSTANDING && bitOf r.flags fCLASH))).foldl (fun d r =>
    let cs := d.conflicts r
    let now_ := !cs.isEmpty
    let d1 := (d.timeCheck r).updRes r.slot fun r => { r with flags := setBit r.flags fCLASH now_ }
    match cs with
    | q :: _ => d1.when (!bitOf r.flags fCLASH) (·.notice 0x2183 (le 2 r.slot ++ le 2 q.slot ++ le 4 (u32 k)))
    | [] => d1) d

/-! ### The fence table -/

/-- A fence box: flags, least east, least north, greatest east, greatest north. -/
abbrev FBox := Nat × Int × Int × Int × Int

/-- The boxes of one machine (R182): ACTIVE and FROZEN segments whose window meets the next three cycles. -/
def Dev.fenceBoxes (d : Dev) (k n : Nat) : List FBox :=
  let lo : Int := ((k + 1) * 50 : Nat)
  let hi : Int := ((k + 4) * 50 : Nat)
  (d.com.slt.res.filter fun r => r.machine == n && (r.state == 2 || r.state == 4)).flatMap fun r =>
    (r.segs.filter fun s => let w := r.window s; windowsMeet w.1 w.2 lo (some hi)).map fun s =>
      let e : Int := (s.half + r.grow + d.cf P.SLT_MARGIN + d.cf P.SLT_FENCE_PAD : Nat)
      (bit (r.state == 4) + 4 * bit (bitOf r.flags fSTANDING), min s.a.1 s.b.1 - e, min s.a.2 s.b.2 - e, max s.a.1 s.b.1 + e, max s.a.2 s.b.2 + e)

/-- More than 8 boxes: the eighth and later merged into one (R182). -/
def mergeBoxes (l : List FBox) : List FBox :=
  if l.length ≤ 8 then l
  else match l.drop 7 with
    | [] => l
    | b :: bs => l.take 7 ++ [bs.foldl (fun (x y : FBox) =>
        (x.1 ||| y.1, min x.2.1 y.2.1, min x.2.2.1 y.2.2.1, max x.2.2.2.1 y.2.2.2.1, max x.2.2.2.2 y.2.2.2.2)) (b.1 ||| 2, b.2)]

/-- Mask of the machines that a test picks. -/
def Dev.machMask (d : Dev) (f : MachSt → Bool) : Nat := maskOf ((d.com.slt.machs.filter f).map fun m => m.n - 1)

/-- The fence table of cycle `k` (Tables 6.12, 6.13). -/
def Dev.fenceTable (d : Dev) (k : Nat) : Bytes :=
  let es := if d.jobLive then d.jobMachs.flatMap fun n => (mergeBoxes (d.fenceBoxes k n)).map fun b => (n, b) else []
  let t := le 4 (u32 k) ++ le 2 es.length ++ le 2 0 ++ le 12 (d.machMask fun m => m.nonconf) ++ le 12 (d.machMask fun m => m.state == 4) ++
    es.flatMap fun e => le 1 e.1 ++ le 1 e.2.1 ++ le 2 0 ++ le 4 (ofS 32 e.2.2.1) ++ le 4 (ofS 32 e.2.2.2.1) ++ le 4 (ofS 32 e.2.2.2.2.1) ++
      le 4 (ofS 32 e.2.2.2.2.2)
  t ++ le 4 (crc32c t)

/-- The position list of cycle `k` (R219, Table 8.7): held usable positions of the machines of a running or paused job. -/
def Dev.positionList (d : Dev) (k : Nat) : Bytes :=
  let es := if d.jobLive then (d.com.slt.machs.filter fun m => d.jobMachs.contains m.n).filterMap fun (m : MachSt) => m.use.map fun u => (m.n, u) else []
  let t := le 4 (u32 k) ++ le 2 es.length ++ le 2 0 ++
    es.flatMap fun e => le 1 e.1 ++ le 1 1 ++ le 2 0 ++ le 4 (ofS 32 e.2.p.1) ++ le 4 (ofS 32 e.2.p.2) ++ le 8 (stamp64 e.2.epoch)
  t ++ le 4 (crc32c t)

end Sys2Proof.Machine
end

