-- ==== Sys2Proof/Machine/Propose.lean ====
section
/-!
DEFINITION. Allotment: what each machine seeks, urgency, decisions, preemption (R169 to R173), and the `slate(k)` stage as a whole.
-/
namespace Sys2Proof.Machine
open Sys2Proof

/-! ### Urgency -/

/-- Base urgency of a task type for a machine (Table 6.5, R158). -/
def Dev.baseUrgency (d : Dev) (n type : Nat) : Nat :=
  let prio := match d.mach? n with
    | some m => m.prio
    | none => 0
  let batt := match (d.ms? n).bind (·.status) with
    | some s => s.batt
    | none => 100
  let b := match type with
    | 0 => 0
    | 1 => 1
    | 2 => 2
    | 3 => 3
    | _ => if batt ≤ d.cf P.JOB_CHARGE_CRIT then 5 else 3
  b + prio

/-- Procedure `urgency` (R170); `step` is `SLT.AGE_STEP`, `ceil` is `SLT.AGE_CEIL`. -/
def urgency (step ceil base k waitFrom : Nat) (waiting : Bool) : Nat :=
  if waiting then min (base + (k + 2 ^ 32 - waitFrom % 2 ^ 32) % 2 ^ 32 * 50 / step) ceil else base

/-! ### What a machine seeks -/

/-- A candidate: type, path, bay, progress at its start, the task it continues or takes, whether that task is taken from its other end, and the WORK
task that follows a TRANSIT. -/
structure Cand where
  type : Nat := 1
  path : List Pt := []
  bay : Nat := 0
  s0 : Nat := 0
  task : Option Nat := none
  rev : Bool := false
  next : Option (Nat × Bool) := none
  deriving DecidableEq, Repr, Inhabited

/-- A proposal to decide: machine, urgency, predecessor strip, stop point it starts from, and the one strip it seeks (none: a new task). -/
structure Want where
  n : Nat := 0
  urg : Nat := 0
  prev : Option Res := none
  origin : Pt := (0, 0)
  cand : Option Cand := none
  deriving DecidableEq, Repr, Inhabited

/-- The route from a point to another (R158). -/
def Dev.route (d : Dev) (a b : Pt) : List Pt := a :: Config.route d.com.job.image [a.1, a.2, b.1, b.2] ++ [b]

/-- The stop point of a bay. -/
def Dev.bayStop (d : Dev) (bay : Nat) : Option Pt :=
  match d.com.job.job with
  | some j => (j.docks.find? (·.bay == bay)).map (·.stop)
  | none => none

/-- The lowest-numbered bay of a kind (1 charge, 2 refill) that no task holds (R172). -/
def Dev.freeBay (d : Dev) (kind : Nat) : Option DockEntry :=
  match d.com.job.job with
  | none => none
  | some j =>
    let ok (y : DockEntry) : Bool := (y.kind == kind || y.kind == 3) &&
      !(d.com.job.tasks.any fun t => (t.type == 3 || t.type == 4) && t.live && t.bay == y.bay)
    ((sortBy (fun a b => decide (a.bay < b.bay)) j.docks).find? ok)

/-- The path a WORK task would be driven on from its nearer allowed end (R172): its start as it would be driven, whether it is turned round. -/
def workEnd (dir : Nat) (origin : Pt) (t : Task) : Pt × Bool :=
  if 0 < t.progress then (pathAt t.path t.progress, false)
  else
    let a := t.path.headD (0, 0)
    let b := t.path.getLast?.getD (0, 0)
    if dir ≠ 1 ∧ dist origin b < dist origin a then (b, true) else (a, false)

/-- The bay task a machine takes first (R172): REFILL, then CHARGE, where `CAPS` allows and its level is low. -/
def Dev.bayWant (d : Dev) (n : Nat) : Option (Nat × DockEntry) :=
  match d.mach? n, (d.ms? n).bind (·.status) with
  | some m, some s =>
    let refill := if bitOf m.caps 0 && decide (s.tank ≤ d.cf P.JOB_REFILL_AT) then (d.freeBay 2).map fun y => (3, y) else none
    let charge := if bitOf m.caps 1 && decide (s.batt ≤ d.cf P.JOB_CHARGE_AT) then (d.freeBay 1).map fun y => (4, y) else none
    refill.orElse fun _ => charge
  | _, _ => none

/-- The PENDING WORK tasks a machine may take (R172): of its implement, as the headland order allows. -/
def Dev.openWork (d : Dev) (m : Mach) : List Task :=
  match d.com.job.job with
  | none => []
  | some j =>
    let work := d.com.job.tasks.filter fun t => t.type == 2
    let first : Bool := j.order == 0
    let gate := work.any fun t => t.state == 0 && bitOf t.flags 0 == first
    work.filter fun t => t.state == 0 && t.machine == 0 && t.impl == m.impl && m.impl != 255 && (!gate || bitOf t.flags 0 == first)

/-- The candidates of a machine that needs a new task, in the order they are tried (R172). -/
def Dev.candidates (d : Dev) (n : Nat) (origin : Pt) : List Cand :=
  match d.bayWant n with
  | some (type, y) => [{ type := type, path := d.route origin y.stop, bay := y.bay }]
  | none =>
    match d.mach? n, d.com.job.job with
    | some m, some j =>
      let scored := (d.openWork m).map fun t =>
        let (e, rev) := workEnd j.patDir origin t
        let near := decide (dist origin e ≤ d.cf P.SLT_END_TOL)
        let route := if near then [origin, e] else d.route origin e
        (pathLen route, t, rev, near, route)
      let sorted := sortBy (fun a b => lexLt [a.1, a.2.1.num] [b.1, b.2.1.num]) scored
      (sorted.take (d.cf P.SLT_TRY_N)).map fun x =>
        let (_, t, rev, near, route) := x
        if near then { type := 2, path := if rev then t.path.reverse else t.path, s0 := t.progress, task := some t.num, rev := rev }
        else { type := 1, path := route, next := some (t.num, rev) }
    | _, _ => []

/-- Queued tasks of a machine from the first that it can still start on; those before it are given up. -/
def Dev.trimQueue (d : Dev) (n : Nat) (origin : Pt) : List (Nat × Bool) → Dev
  | [] => d.updM n fun m => { m with queue := [] }
  | (num, rev) :: q =>
    match d.task? num with
    | some t =>
      if t.machine ≠ n ∨ t.state ≠ 0 then d.trimQueue n origin q
      else
        let path := if rev then t.path.reverse else t.path
        if t.type = 3 ∨ t.type = 4 ∨ dist origin (pathAt path t.progress) ≤ d.cf P.SLT_END_TOL then
          d.updM n fun m => { m with queue := (num, rev) :: q }
        else (d.dropTask t).trimQueue n origin q
    | none => d.trimQueue n origin q

/-- The head of the queue, else a new task. -/
def Dev.queued (d : Dev) (n : Nat) (origin : Pt) : Option (Option Cand) :=
    match d.ms? n with
    | some m =>
      match m.queue with
      | (num, rev) :: _ =>
        match d.task? num with
        | some t =>
          let path := if t.type = 3 ∨ t.type = 4 then d.route origin ((d.bayStop t.bay).getD origin)
            else if rev then t.path.reverse else t.path
          some (some { type := t.type, path := path, bay := t.bay, s0 := t.progress, task := some num, rev := rev })
        | none => some none
      | [] => some none
    | none => none

/-- The strip a machine seeks beyond its newest ACTIVE reservation `p`: none where it seeks nothing, `some none` where it needs a new task. -/
def Dev.seeks (d : Dev) (n : Nat) (p : Res) (origin : Pt) : Option (Option Cand) :=
  let current := match d.task? p.task with
    | some t => if !bitOf p.flags fSTANDING && t.machine == n && (t.state == 1 || t.state == 2) then some t else none
    | none => none
  match current with
  | some t =>
    if !bitOf p.flags fFINAL then some (some { type := t.type, path := t.path, bay := t.bay, s0 := p.upTo, task := some t.num })
    else if t.type = 3 ∨ t.type = 4 then none
    else d.queued n origin
  | none => d.queued n origin
/-- Whether a machine proposes in cycle `k` beyond its newest ACTIVE reservation (R171, R180). -/
def Dev.mayPropose (d : Dev) (n k : Nat) : Option Res :=
  match d.ms? n with
  | none => none
  | some m =>
    let ready := match m.status with
      | some s => bitOf s.flags 0
      | none => false
    if d.rd P.JOB_STATE ≠ 3 ∨ m.state = 0 ∨ m.state = 4 ∨ !ready ∨ !(d.resOf n [1]).isEmpty then none
    else match (d.resOf n [2]).getLast? with
      | some p =>
        if bitOf p.flags fSTANDING then (if bitOf p.flags fCLASH then none else some p)
        else
          let stopT0 := match p.segs.getLast? with
            | some s => s.t0
            | none => 0
          if p.tBase + stopT0 + d.cf P.SLT_SLACK - d.cf P.SLT_RENEW ≤ d.commitMs k then some p else none
      | none => none

/-- One machine's proposal, with the queue trimmed first. -/
def Dev.want (d : Dev) (n k : Nat) : Dev × Option Want :=
  match d.mayPropose n k with
  | none => (d, none)
  | some p =>
    let origin := match p.segs.getLast? with
      | some s => s.a
      | none => (0, 0)
    let q := match d.ms? n with
      | some m => m.queue
      | none => []
    let d1 := d.trimQueue n origin q
    match d1.seeks n p origin with
    | none => (d1, none)
    | some c =>
      let type := match c with
        | some c => c.type
        | none => match d1.bayWant n with
          | some (ty, _) => ty
          | none => 1
      let (wf, waiting) := match d1.ms? n with
        | some m => (m.waitFrom, m.state == 2)
        | none => (0, false)
      let u := urgency (d1.cf P.SLT_AGE_STEP) (d1.cf P.SLT_AGE_CEIL) (d1.baseUrgency n type) k wf waiting
      (d1, some { n := n, urg := u, prev := if bitOf p.flags fSTANDING then none else some p, origin := origin, cand := c })

/-! ### Decisions -/

/-- The reservations that a proposal would preempt (R171): none where some conflict may not be preempted. -/
def Dev.preempts (d : Dev) (p : Res) (u n k : Nat) : Option (List Res) :=
  let cs := d.conflicts p
  let may (q : Res) : Bool :=
    let first := match q.segs with
      | s :: _ => s.t0
      | [] => 0
    let type := match d.task? q.task with
      | some t => t.type
      | none => 0
    let uq := d.baseUrgency q.machine type
    q.state == 1 && q.machine != 0 && decide (d.commitMs k + d.cf P.SLT_LOCK < q.tBase + first) && (uq < u || (uq == u && n < q.machine))
  if cs.all may then some cs else none

/-- A HELD reservation preempted by machine `n` (R170, R171). -/
def Dev.preempt (d : Dev) (q : Res) (n k : Nat) : Dev :=
  let d1 := ((d.releaseRes q (some fPREEMPTED)).inc P.SLT_PREEMPTS).notice 0x2185 (le 2 q.slot ++ le 1 q.machine ++ le 1 n ++ le 4 (u32 k))
  let d2 := d1.updM q.machine fun m => { m with state := 2, waitFrom := m.savedWait.getD k, preempted := true }
  match d2.task? q.task with
  | some t =>
    if t.state = 1 ∧ t.machine = q.machine then
      (d2.putTask { t with state := 0 }).updM q.machine fun m =>
        { m with queue := (t.num, false) :: m.queue.filter fun e => e.1 != t.num }
    else d2
  | none => d2

/-- The task that a granted candidate serves (R160, R172): created, taken from the pool, or continued. -/
def Dev.serve (d : Dev) (n : Nat) (c : Cand) : Nat × Dev :=
  match c.task with
  | some num =>
    match d.task? num with
    | some t =>
      if t.state = 0 then
        let flags := if c.rev then setBit t.flags 1 (!bitOf t.flags 1) else t.flags
        (num, (d.putTask { t with state := 1, machine := n, path := c.path, flags := flags }).updM n fun m =>
          { m with queue := m.queue.filter fun e => e.1 != num })
      else (num, d)
    | none => (num, d)
  | none =>
    let (num, d1) := d.newTask c.type n c.bay c.path
    let d2 := match d1.task? num with
      | some t => d1.putTask { t with state := 1 }
      | none => d1
    match c.next with
    | some (w, rev) =>
      match d2.task? w with
      | some t => (num, (d2.putTask { t with machine := n }).updM n fun m => { m with queue := [(w, rev)] })
      | none => (num, d2)
    | none => (num, d2)

/-- A PARK task that still waits ends when its machine takes a new task. -/
def Dev.endPark (d : Dev) (n : Nat) : Dev :=
  match (d.ms? n).bind fun m => d.task? m.task with
  | some t => if t.type = 0 ∧ t.machine = n ∧ t.live then d.putTask { t with state := 3 } else d
  | none => d

/-- One candidate tried: granted, failed for want of a slot (`some false`), or in conflict (none). -/
def Dev.tryCand (d : Dev) (w : Want) (k : Nat) (c : Cand) : Option (Bool × Dev) :=
  match d.mach? w.n with
  | none => none
  | some m =>
    let p := d.buildStrip k (seekOf m c.type 0 c.path c.s0) w.prev
    match d.preempts p w.urg w.n k with
    | none => none
    | some pre =>
      let d1 := d.timeCheck p
      match d1.placeRes k { p with state := 1 } with
      | (none, d2) => some (false, d2)
      | (some slot, d2) =>
        let d3 := d2.endPark w.n
        let (num, d4) := d3.serve w.n c
        let d5 := (d4.updRes slot fun r => { r with task := num }).inc P.SLT_GRANTS
        let d6 := pre.foldl (fun d q => d.preempt q w.n k) d5
        let d7 := d6.updM w.n fun m =>
          { m with savedWait := if m.state = 2 then some m.waitFrom else none, state := 3, waitFrom := 0, task := num, urgency := w.urg }
        match d7.com.slt.res.find? (fun r => r.slot == slot) with
        | some r => some (true, d7.sendAllotment r)
        | none => some (true, d7)

/-- The candidates tried in turn: the first that is granted, or fails for want of a slot. -/
def Dev.tryAll (d : Dev) (w : Want) (k : Nat) : List Cand → Bool × Dev
  | [] => (false, d)
  | c :: cs =>
    match d.tryCand w k c with
    | some r => r
    | none =>
      let d1 := match d.mach? w.n with
        | some m => d.timeCheck (d.buildStrip k (seekOf m c.type 0 c.path c.s0) w.prev)
        | none => d
      d1.tryAll w k cs

/-- R172: with no task left a machine receives a PARK task at its position and is IDLE. -/
def Dev.parkM (d : Dev) (w : Want) : Dev :=
  let parked := match (d.ms? w.n).bind fun m => d.task? m.task with
    | some t => t.type == 0 && t.machine == w.n && t.live
    | none => false
  let at_ := match (d.ms? w.n).bind (·.use) with
    | some u => u.p
    | none => w.origin
  let (num, d1) := if parked then (((d.ms? w.n).map (·.task)).getD 0xFFFF, d) else d.newTask 0 w.n 0 [at_]
  d1.updM w.n fun m => { m with state := 1, waitFrom := 0, task := num, urgency := w.urg }

/-- One proposal decided (R171). -/
def Dev.decide_ (d : Dev) (k : Nat) (w : Want) : Dev :=
  let cs := match w.cand with
    | some c => [c]
    | none => d.candidates w.n w.origin
  if cs.isEmpty then d.parkM w
  else
    let (ok, d1) := d.tryAll w k cs
    if ok then d1
    else (d1.inc P.SLT_CONFLICTS).updM w.n fun m =>
      { m with urgency := w.urg, waitFrom := if m.state = 2 then m.waitFrom else k, state := 2 }

/-- R169 step 6: proposals formed in ascending machine number, then decided by urgency and machine number. -/
def Dev.propose (d : Dev) (k : Nat) : Dev :=
  let (d1, ws) := d.jobMachs.foldl (fun (a : Dev × List Want) n =>
    let (d2, w) := a.1.want n k
    (d2, match w with | some w => a.2 ++ [w] | none => a.2)) (d, [])
  let sorted := sortBy (fun (a b : Want) => b.urg < a.urg || (a.urg == b.urg && a.n < b.n)) ws
  sorted.foldl (fun d w => d.decide_ k w) d1

/-! ### Controls -/

/-- The state a job control leads to (Table 6.4), or none where it is not allowed. -/
def jobNext (s ctrl : Nat) : Option Nat :=
  match ctrl, s with
  | 1, 2 => some 3
  | 1, 4 => some 3
  | 2, 3 => some 4
  | 3, 2 => some 0
  | 3, 4 => some 0
  | _, _ => none

/-- Whether a reservation other than a STANDING one is not FREE (R156). -/
def Dev.resInUse (d : Dev) : Bool := d.com.slt.res.any fun r => !bitOf r.flags fSTANDING

/-- A job control acts (R156): it lapses where its transition is no longer allowed. -/
def Dev.jobAct (d : Dev) (k ctrl : Nat) : Dev :=
  let s := d.rd P.JOB_STATE
  match jobNext s ctrl with
  | none => d
  | some n =>
    if ctrl = 1 then
      let d1 := d.jobState n k
      if s = 2 then
        d1.jobMachs.foldl (fun d n =>
          match d.ms? n with
          | some m => if m.use.isNone then d.lose n k true else (d.updM n fun m => { m with state := 1 }).standing n k
          | none => d) d1
      else d1
    else if ctrl = 2 then
      (d.jobState n k).slt fun c => { c with machs := c.machs.map fun (m : MachSt) => if m.state = 2 then { m with state := 1, waitFrom := 0 } else m }
    else if d.resInUse then d
    else
      let d1 := d.slt fun c => { c with res := c.res.map fun (r : Res) => if r.machine = 0 then r else { r with state := 3 } }
      d1.jobGone.jobState n k

/-- The acts of the Slate due in cycle `k`: job controls, then reseats. -/
def Dev.slateActs (d : Dev) (k : Nat) : Dev :=
  let acts := d.ctrls.filter fun c => decide (c.1 ≤ k)
  let d1 := acts.foldl (fun d c => if c.2.1 = P.JOB_CTRL then d.jobAct k (unle c.2.2.2) else d) d
  d1.slt fun c => { c with reseat := (acts.filter fun a => a.2.1 == P.SLT_RESEAT).map (·.2.2.1) }

/-! ### Records and the stage -/

/-- A machine's allotment record (Table 6.10). -/
def Dev.allotment (d : Dev) (m : MachSt) : Bytes :=
  let act := (d.resOf m.n [2]).getLast?
  let held := (d.resOf m.n [1]).getLast?
  let clash := (d.resOf m.n [1, 2, 4]).any fun r => bitOf r.flags fCLASH
  let bad := match m.held with
    | some p => !p.usable
    | none => true
  let slot (r : Option Res) : Nat := match r with
    | some r => r.slot
    | none => 0xFFFF
  le 1 m.n ++ le 1 m.state ++ le 2 m.task ++ le 1 (min 15 m.urgency) ++
    le 1 (bit m.nonconf + 2 * bit (bad && m.state != 0) + 4 * bit clash + 8 * bit m.preempted) ++ le 2 0 ++
    le 4 (if m.state = 2 then u32 m.waitFrom else 0) ++ le 2 (slot act) ++ le 2 (slot held)

/-- The class 2 records (R168, R173): reservations that changed, ascending, then allotment records that changed. -/
def Dev.slateRecords (d : Dev) (before : List Res) : Dev × List Bytes :=
  let rs := d.com.slt.res.filter fun r => !(before.any fun o => o.slot == r.slot && o.bytes == r.bytes)
  let ms := d.com.slt.machs.filter fun m => d.allotment m != m.rec_
  (d.slt fun c => { c with machs := c.machs.map fun (m : MachSt) => { m with rec_ := d.allotment m } }, rs.map Res.bytes ++ ms.map d.allotment)

/-- Marks of the last cycle cleared; the urgency last used stays shown (Table 6.10). -/
def Dev.clearMarks (d : Dev) : Dev :=
  d.slt fun c => { c with machs := c.machs.map fun (m : MachSt) => { m with preempted := false, fresh := false } }

/-- The `slate(k)` stage (R27, R169): `xs` are the status reports; answers the class 2 records, the fence table, the position list and whether an image that
was due had been generated. -/
def Dev.slateStage (d : Dev) (k : Nat) (xs : List Input) : Dev × List Bytes × Bytes × Bytes × Bool :=
  let before := d.com.slt.res
  let d1 := (d.slt fun c => { c with res := c.res.filter fun (r : Res) => r.state != 3 }).showUsed
  let (d2, ok) := d1.jobDue k
  let d3 := (d2.slateActs k).clearMarks
  let d4 := xs.foldl Dev.takeStatus d3
  let d5 := d4.com.rtk.recs.foldl Dev.takePosition d4
  let d6 := if d5.jobLive then d5.jobMachs.foldl (fun d n => d.machineStep k n) d5 else d5
  let d7 := d6.grow k
  let hosts := d7.ctrls.filter fun c => decide (c.1 ≤ k) && c.2.1 == P.SLT_HOST_RES
  let d8 := (hosts.foldl (fun d c => d.hostWrite k c.2.2.1 c.2.2.2) d7).recheck k
  let d9 := d8.propose k
  let fence := d9.fenceTable k
  let d10 := (d9.wr P.SLT_FENCE_CRC 0 (fld fence (fence.length - 4) 4)).showUsed
  let (d11, recs) := d10.slateRecords before
  (d11, recs, fence, d11.positionList k, ok)

/-- R180, R181: whether a reseat of machine `n` is accepted now. -/
def Dev.reseatOk (d : Dev) (n : Nat) : Bool :=
  match d.ms? n with
  | none => false
  | some m =>
    let want := d.cf P.SLT_THAW_N
    let l := m.recent.drop (m.recent.length - want)
    m.state == 4 && l.length == want && m.thaw.length < want && l.all fun p => p.usable && decide (p.speed < 100)

/-- A cold start (R43, R156): reservations, allotments and positions are lost; a job found RUNNING or PAUSED is LOADED; tasks not DONE are PENDING. -/
def Dev.slateCold (d : Dev) : Dev :=
  let ts := (d.com.job.tasks.filter fun t => decide (t.num < 8192)).map fun (t : Task) =>
    if t.state = 3 then t
    else { t with state := 0, machine := 0, progress := 0, flags := t.flags % 2, path := if bitOf t.flags 1 then t.path.reverse else t.path }
  let d1 := { d with com := { d.com with
    slt := { machs := d.jobMachs.map fun n => { n := n, rec_ := offRecord n } }
    job := { d.com.job with tasks := ts, changed := [], lastRun := 8191, load := none, park := [] } } }
  let s := d1.rd P.JOB_STATE
  (d1.wr P.JOB_STATE 0 (if s = 1 then d.com.job.prev else if s = 0 then 0 else 2)).showUsed

end Sys2Proof.Machine
end

