-- ==== Sys2Proof/Machine/Coverage.lean ====
section
/-!
DEFINITION. The Coverage engine: the cell store (R186 to R191), sections on a path (R192 to R194), the decision (R195), schedules (R196 to R199),
as-applied reports and write-back (R201 to R205), and the `coverage(k)` stage.
-/
namespace Sys2Proof.Machine
open Sys2Proof

/-! ### The store -/

/-- The store with its geometry. -/
structure Store where
  cell : Int := 50
  e0 : Int := 0
  n0 : Int := 0
  cols : Nat := 0
  rows : Nat := 0
  layers : Nat := 0
  cov : CovCom := {}
  deriving DecidableEq, Repr, Inhabited

/-- The store as it stands. -/
def Dev.store (d : Dev) : Store :=
  { cell := d.cf P.COV_CELL, e0 := d.rdS P.COV_ORIGIN 0, n0 := d.rdS P.COV_ORIGIN 1, cols := d.rd P.COV_DIR_SIZE 0, rows := d.rd P.COV_DIR_SIZE 1
    layers := d.rd P.COV_LAYERS, cov := d.com.cov }

/-- Slot of the block that holds a cell, none where it is not allocated or outside the directory (R188). -/
def Store.slot (st : Store) (x y : Int) : Option Nat :=
  if x < 0 ∨ y < 0 ∨ (st.cols * 128 : Nat) ≤ x ∨ (st.rows * 128 : Nat) ≤ y then none
  else (st.cov.dir.find? (·.1 == (y.toNat / 128) * st.cols + x.toNat / 128)).map (·.2)

/-- The bytes of a block: those changed since the rebuild, else its mask. -/
def Store.block (st : Store) (b : Nat) : Bytes :=
  match st.cov.blocks.find? (·.1 == b) with
  | some e => e.2
  | none => st.cov.masks.getD (b / max 1 st.layers) (List.replicate 4096 0xFF#8)

/-- Code `i` of a block (R186). -/
def codeAt (b : Bytes) (i : Nat) : Nat := fld b (i / 4) 1 / 4 ^ (i % 4) % 4

/-- A block with code `i` set. -/
def setCode (b : Bytes) (i v : Nat) : Bytes :=
  b.modify (i / 4) fun x => let w := 4 ^ (i % 4); BitVec.ofNat 8 (x.toNat - x.toNat / w % 4 * w + v * w)

/-- Place of a cell in its block. -/
def inBlock (x y : Int) : Nat := 128 * (y.toNat % 128) + x.toNat % 128

/-- The code of a cell on a layer; outside the allocated blocks MASKED (R188). -/
def Store.code (st : Store) (l : Nat) (c : Int × Int) : Nat :=
  match st.slot c.1 c.2 with
  | some s => codeAt (st.block (s * st.layers + l)) (inBlock c.1 c.2)
  | none => 3

/-- The cell that holds a point (R186). -/
def Store.cellOf (st : Store) (p : Pt) : Int × Int := ((p.1 - st.e0) / st.cell, (p.2 - st.n0) / st.cell)

/-- The centre of a cell. -/
def Store.centre (st : Store) (c : Int × Int) : Pt := (st.e0 + c.1 * st.cell + st.cell / 2, st.n0 + c.2 * st.cell + st.cell / 2)

/-! ### Sections on a path -/

/-- Procedure `section_line` (R193): left and right end of a section at path length `s`, none on a path without a segment of non-zero length. -/
def sectionLine (x : Sec) (path : List Pt) (s : Int) : Option (Pt × Pt) :=
  let gs := legs path
  let q := s + x.fore
  let pick := match gs.find? (fun g => q ≤ (g.2.2.1 + g.2.2.2 : Nat)) with
    | some g => some g
    | none => gs.getLast?
  pick.map fun g =>
    let (a, b, c, e) := g
    let de := b.1 - a.1
    let dn := b.2 - a.2
    let m := along a b (q - c) e
    ((m.1 + (-dn * x.left).tdiv e, m.2 + (de * x.left).tdiv e), (m.1 + (-dn * x.right).tdiv e, m.2 + (de * x.right).tdiv e))

/-- Whether a point lies in a triangle or on its edges; a triangle of no area holds none. -/
def inTri (p a b c : Pt) : Bool :=
  orient a b c != 0 && ((0 ≤ orient a b p && 0 ≤ orient b c p && 0 ≤ orient c a p) || (orient a b p ≤ 0 && orient b c p ≤ 0 && orient c a p ≤ 0))

/-- R194: whether a centre is swept between two application lines. -/
def sweptPt (p : Pt) (l0 r0 l1 r1 : Pt) : Bool :=
  (inTri p r0 l0 l1 || inTri p r0 l1 r1) && !onEdge p (l1, r1) && !onEdge p (r1, r0)

/-- A range of integers from `a` to `b`. -/
def intsTo (a b : Int) : List Int := (List.range (b - a + 1).toNat).map fun i => a + (i : Nat)

/-- The cells swept by a section between two path lengths (R194), row by row from the south. -/
def Store.swept (st : Store) (x : Sec) (path : List Pt) (sA sB : Int) : List (Int × Int) :=
  match sectionLine x path sA, sectionLine x path sB with
  | some (l0, r0), some (l1, r1) =>
    let (w, s, e, n) := bbox [l0, r0, l1, r1]
    let lo := st.cellOf (w, s)
    let hi := st.cellOf (e, n)
    (intsTo lo.2 hi.2).flatMap fun y => (intsTo lo.1 hi.1).filterMap fun c => if sweptPt (st.centre (c, y)) l0 r0 l1 r1 then some (c, y) else none
  | _, _ => []

/-- Lowest set bit of a layer mask. -/
def lowLayer (m : Nat) : Nat := (setBits 4 m).headD 0

/-- Procedure `desired` (R195). -/
def Dev.desired (d : Dev) (st : Store) (x : Sec) (path : List Pt) (sA sB v : Int) : Bool :=
  match sectionLine x path sB with
  | none => false
  | some (l, r) =>
    if v < d.cf P.COV_V_MIN ∨ sA = sB then false
    else
      let sw := st.swept x path sA sB
      let cells := if sw.isEmpty then [st.cellOf ((l.1 + r.1).tdiv 2, (l.2 + r.2).tdiv 2)] else sw
      let codes := cells.map (st.code (lowLayer x.layers))
      let t := codes.length
      let a := (codes.filter fun c => c == 1 || c == 2).length
      let m := (codes.filter fun c => c == 3).length
      if m = t then false
      else if d.cf P.COV_BOUND_PCT * t < 100 * m then false
      else if d.cf P.COV_OVERLAP_PCT * (t - m) < 100 * a then false
      else true

/-! ### Schedules -/

/-- A schedule before it is encoded: `TS` (ms), span, HOLD cause, TRUNC, START, events (offset, on, first, last). -/
structure Sched where
  ts : Nat := 0
  span : Nat := 1500
  hold : Nat := 0
  trunc : Bool := false
  start : Nat := 0
  ev : List (Nat × Bool × Nat × Nat) := []
  deriving DecidableEq, Repr, Inhabited

/-- An event as its word (Table 7.8). -/
def evWord (e : Nat × Bool × Nat × Nat) : Nat := e.1 * 2 ^ 21 + bit e.2.1 * 2 ^ 20 + e.2.2.1 * 2 ^ 13 + e.2.2.2 * 2 ^ 6

/-- The fields of an event word. -/
def evOf (w : Nat) : Nat × Bool × Nat × Nat := (bits w 31 21, bitOf w 20, bits w 19 13, bits w 12 6)

/-- A schedule's message (Table 7.6). -/
def Sched.bytes (s : Sched) (n nsec k : Nat) : Bytes :=
  le 1 0x36 ++ le 1 n ++ le 1 nsec ++ le 1 (bit s.trunc + 2 * s.hold) ++ le 4 (u32 k) ++ le 8 (stamp64 (s.ts * ms)) ++ le 2 s.span ++
    le 2 s.ev.length ++ le 16 s.start ++ s.ev.flatMap fun e => le 4 (evWord e)

/-- The schedule that a message holds. -/
def schedOf (b : Bytes) : Sched :=
  { ts := (ofStamp64 (fld b 8 8)).getD 0 / ms, span := fld b 16 2, hold := bits (fld b 3 1) 3 1, trunc := bitOf (fld b 3 1) 0, start := fld b 20 16
    ev := (List.range (fld b 18 2)).map fun i => evOf (fld b (36 + 4 * i) 4) }

/-- A mask with bits `a` to `b` set to `v`. -/
def setRange (m a b : Nat) (v : Bool) : Nat := (List.range (b + 1 - a)).foldl (fun m i => setBit m (a + i) v) m

/-- Section states at an instant: `start` with the events at or before it applied in order. -/
def stateAt (start base : Nat) (ev : List (Nat × Bool × Nat × Nat)) (t : Nat) : Nat :=
  (ev.filter fun e => base + e.1 ≤ t).foldl (fun m e => setRange m e.2.2.1 e.2.2.2 e.2.1) start

/-- The commanded state (R198). -/
def Sched.at_ (s : Sched) (t : Nat) : Nat := stateAt s.start s.ts s.ev t

/-- Whether two schedules command differently from the new one's `TS` to the end of the old one's span (R198). -/
def schedDiffers (new old : Sched) : Bool :=
  let fin := old.ts + old.span
  let times := (new.ts :: (new.ev.map (fun e => new.ts + e.1) ++ old.ev.map fun e => old.ts + e.1)).filter fun t => new.ts ≤ t && t < fin
  times.any fun t => new.at_ t != old.at_ t

/-- The path of schedules (R197): moving segments of the ACTIVE reservations in ascending `T_BASE`, then the stop point of the last. -/
def Dev.schedPath (d : Dev) (n : Nat) : List Pt :=
  let rs := sortBy (fun (a b : Res) => a.tBase < b.tBase || (a.tBase == b.tBase && a.slot < b.slot))
    (d.com.slt.res.filter fun r => r.machine == n && r.state == 2)
  let moving := rs.flatMap fun r => r.segs.dropLast.flatMap fun s => [s.a, s.b]
  match rs.getLast? with
  | some r => moving ++ (match r.segs.getLast? with | some s => [s.a] | none => [])
  | none => moving

/-- The HOLD cause of a machine (Table 7.5), 0 none. -/
def Dev.holdCause (d : Dev) (n k : Nat) : Nat :=
  match d.ms? n with
  | none => 1
  | some m =>
    let isWork := match d.task? m.task with
      | some t => t.type == 2
      | none => false
    let good := match m.use with
      | some u => (u.fix == 3 || u.fix == 4 || (u.sigE ≤ d.cf P.COV_SIG_MAX && u.sigN ≤ d.cf P.COV_SIG_MAX)) &&
          (k + 1) * cycleNs ≤ u.epoch + d.cf P.COV_STALE_MS * ms
      | none => false
    let onStrip := match m.use with
      | some u => (d.resOf n [2]).any fun r => r.near u.p (d.cf P.SLT_MARGIN)
      | none => false
    let fault := match m.status with
      | some s => bitOf s.flags 1 || bitOf s.flags 2
      | none => false
    if d.rd P.JOB_STATE ≠ 3 then 1
    else if !isWork then 2
    else if !good then 3
    else if m.state = 4 then 4
    else if !onStrip then 5
    else if d.inMask d.com.stop.latched n then 6
    else if fault then 7 else 0

/-- The switch commands of one section (R197): grid states in order give command instants; a command at or before the one before cancels both. -/
def commands (ts step onLat offLat : Nat) : Nat → Bool → List Bool → List (Int × Bool) → List (Int × Bool)
  | _, _, [], cmds => cmds
  | i, prev, dv :: ds, cmds =>
    if dv = prev then commands ts step onLat offLat (i + 1) dv ds cmds
    else
      let c : Int := ((ts + i * step : Nat) : Int) - (if dv then onLat else offLat : Nat)
      let cancel := match cmds.getLast? with
        | some l => decide (c ≤ l.1)
        | none => false
      commands ts step onLat offLat (i + 1) dv ds (if cancel then cmds.dropLast else cmds ++ [(c, dv)])

/-- Runs of events with equal offset and state and consecutive sections merged into one (R197). -/
def mergeEv : List (Nat × Bool × Nat × Nat) → List (Nat × Bool × Nat × Nat) → List (Nat × Bool × Nat × Nat)
  | [], acc => acc.reverse
  | e :: es, a :: acc =>
    if e.1 = a.1 ∧ e.2.1 = a.2.1 ∧ e.2.2.1 = a.2.2.2 + 1 then mergeEv es ((a.1, a.2.1, a.2.2.1, e.2.2.2) :: acc) else mergeEv es (e :: a :: acc)
  | e :: es, [] => mergeEv es [e]

/-- More than 224 events: those from the 225th one's offset on are dropped (R197). -/
def truncEv (s : Sched) : Sched :=
  match s.ev[224]? with
  | some e => { s with span := e.1, trunc := true, ev := s.ev.filter fun x => x.1 < e.1 }
  | none => s

/-- Procedure `section_schedule` (R197). -/
def Dev.schedule (d : Dev) (st : Store) (n k : Nat) (secs : List Sec) : Sched :=
  let ts := d.commitAt k / ms + 12 + d.cf P.COV_LEAD
  let cause := d.holdCause n k
  match cause, (d.ms? n).bind (·.use) with
  | 0, some u =>
    let e : Int := (u.epoch / ms : Nat)
    let v : Int := (u.speed : Nat)
    let path := d.schedPath n
    let len : Int := (pathLen path : Nat)
    let s0 : Int := (project u.p path : Nat)
    let step := d.cf P.COV_STEP
    let one (j : Nat) (x : Sec) : Bool × List (Nat × Nat × Bool) :=
      let m := (1500 + max x.onLat x.offLat + step - 1) / step
      let grid := (List.range m).map fun i =>
        let t0 : Int := (ts + i * step : Nat)
        d.desired st x path (min len (s0 + (v * (t0 - e)).tdiv 1000)) (min len (s0 + (v * (t0 + step - e)).tdiv 1000)) v
      match grid with
      | [] => (false, [])
      | d0 :: ds =>
        let cmds := commands ts step x.onLat x.offLat 1 d0 ds []
        let st0 := (cmds.filter fun (c : Int × Bool) => decide (c.1 ≤ (ts : Int))).foldl (fun _ c => c.2) d0
        (st0, (cmds.filter fun (c : Int × Bool) => decide ((ts : Int) < c.1) && decide (c.1 < ((ts + 1500 : Nat) : Int))).map fun (c : Int × Bool) =>
          ((c.1 - (ts : Int)).toNat, j, c.2))
    let rs := mapFrom one 0 secs
    let evs := sortBy (fun a b => lexLt [a.1, a.2.1] [b.1, b.2.1]) (rs.flatMap (·.2))
    truncEv { ts := ts, start := maskOf ((mapFrom (fun i r => (i, r.1)) 0 rs).filterMap fun x => if x.2 then some x.1 else none)
              ev := mergeEv (evs.map fun x => (x.1, x.2.2, x.2.1, x.2.1)) [] }
  | c, _ => { ts := ts, hold := if c = 0 then 3 else c }

/-- A machine in the Coverage engine. -/
def Dev.cm (d : Dev) (n : Nat) : CovMach :=
  match d.com.cov.machs.find? (·.n == n) with
  | some m => m
  | none => { n := n }

/-- That machine changed. -/
def Dev.putCm (d : Dev) (m : CovMach) : Dev :=
  d.cov fun c => { c with machs := insertBy (fun (a b : CovMach) => decide (a.n < b.n)) m (c.machs.filter (·.n != m.n)) }

/-- The implement of a machine, if it has one. -/
def Dev.implOf (d : Dev) (n : Nat) : Option Implement :=
  match d.mach? n, d.com.job.job with
  | some m, some j => if m.impl = 255 then none else j.impls[m.impl]?
  | _, _ => none

/-- R198: one machine's schedule, issued or discarded; the class 3 records so far. -/
def Dev.oneSchedule (k : Nat) (a : Dev × List Bytes) (n : Nat) : Dev × List Bytes :=
  let d := a.1
  match d.implOf n with
  | none => a
  | some im =>
    if d.cf P.RTK_MODE n = 0 then a
    else
      let s := d.schedule d.store n k im.secs
      let m := d.cm n
      let d1 := (d.putCm { m with cause := s.hold }).when (m.cause != s.hold)
        (·.notice 0x2281 (le 1 n ++ le 1 m.cause ++ le 1 s.hold ++ le 4 (u32 k)))
      let issue := match m.issued with
        | none => true
        | some b =>
          let o := schedOf b
          decide (o.ts + d.cf P.COV_REFRESH ≤ s.ts) || s.hold != o.hold || schedDiffers s o
      if !issue then (d1, a.2)
      else
        let b := s.bytes n im.secs.length k
        let d2 := (d1.putCm { m with cause := s.hold, issued := some b }).inc P.COV_ISSUED
        let d3 := (d2.when s.trunc (·.inc P.COV_TRUNCATED)).when (s.hold != 0) (·.inc P.COV_HOLDS n)
        ((d3.toMachine n 0x36 b).stream 8 b, a.2 ++ [b])

/-! ### Write-back -/

/-- Which rule of R203 a report fails, 0 none. -/
def aaRule (p : Bytes) (nsec stamp : Nat) : Nat :=
  let len := p.length
  let nent := fld p 6 2
  let span := fld p 16 2
  let ev := (List.range nent).map fun i => evOf (fld p (36 + 4 * i) 4)
  let bad (e : Nat × Bool × Nat × Nat) : Bool := span ≤ e.1 || e.2.2.2 < e.2.2.1 || nsec ≤ e.2.2.2
  let ordered := (List.zip ev (ev.drop 1)).all fun x => !lexLt [x.2.1, x.2.2.2.1] [x.1.1, x.1.2.2.1]
  match ofStamp64 (fld p 8 8) with
  | none => if len ≠ 36 + 4 * nent then 1 else 5
  | some t =>
    if len ≠ 36 + 4 * nent ∨ 240 < nent then 1
    else if fld p 2 1 ≠ nsec then 2
    else if ev.any bad || !ordered then 3
    else if stamp < t + span * ms then 4
    else if t + 10 * sec < stamp then 5 else 0

/-- The cells off target that write-back counted in this commit: machine, layer mask, cells. -/
abbrev OffTarget := List (Nat × Nat × Nat)

/-- One cell crossed on a layer (R204); what has been counted off target so far, and the blocks changed. -/
def Dev.crossCell (l : Nat) (a : Dev × Nat × List Nat) (c : Int × Int) : Dev × Nat × List Nat :=
  let d := a.1
  let st := d.store
  match st.slot c.1 c.2 with
  | none => (d.inc P.COV_OFFTARGET l, a.2.1 + 1, a.2.2)
  | some s =>
    let b := s * st.layers + l
    let blk := st.block b
    let put (v : Nat) (d : Dev) : Dev := d.cov fun x =>
      { x with blocks := insertBy (fun a b => decide (a.1 < b.1)) (b, setCode blk (inBlock c.1 c.2) v) (x.blocks.filter (·.1 != b)) }
    let note := if a.2.2.contains b then a.2.2 else a.2.2 ++ [b]
    match codeAt blk (inBlock c.1 c.2) with
    | 0 => ((put 1 d).wr P.COV_ONCE l (d.rd P.COV_ONCE l + 1), a.2.1, note)
    | 1 => (((put 2 d).wr P.COV_ONCE l (d.rd P.COV_ONCE l - 1)).wr P.COV_OVERLAP l (d.rd P.COV_OVERLAP l + 1), a.2.1, note)
    | 2 => (d, a.2.1, a.2.2)
    | _ => (d.inc P.COV_OFFTARGET l, a.2.1 + 1, a.2.2)

/-- The records of a history that bracket an interval, at most `gap` apart: epoch and path length of both. -/
def bracket (gap : Nat) (h : List (Nat × Nat)) (ta tb : Nat) : Option ((Nat × Nat) × (Nat × Nat)) :=
  (List.zip h (h.drop 1)).find? fun p => p.1.1 ≤ ta && tb ≤ p.2.1 && p.2.1 ≤ p.1.1 + gap

/-- Path length at an instant between two records, truncated. -/
def lerp (a b : Nat × Nat) (t : Nat) : Nat := a.2 + (b.2 - a.2) * (t - a.1) / max 1 (b.1 - a.1)

/-- A history's epochs with the path length at each. -/
def histLen : Nat → List (Nat × Pt) → List (Nat × Nat)
  | _, [] => []
  | c, [(t, _)] => [(t, c)]
  | c, (t, p) :: (u, q) :: l => (t, c) :: histLen (c + dist p q) ((u, q) :: l)

/-- Times of a list in ascending order, each once. -/
def ascending (l : List Nat) : List Nat := (sortBy (fun a b => decide (a < b)) l).eraseDups

/-- Procedure `write_back` over [t_lo, t_hi) (R204); off-target count, layer mask of it, blocks changed. -/
def Dev.writeBack (d : Dev) (rep : AsApplied) (secs : List Sec) (lo hi : Nat) : Dev × Nat × Nat × List Nat :=
  let h := (d.cm rep.n).hist
  let hl := histLen 0 h
  let path := h.map (·.2)
  let step := max 1 (d.cf P.COV_STEP)
  let gap := d.cf P.COV_GAP_MS
  let inside (t : Nat) : Bool := lo < t && t < hi
  let times := ascending ([lo, hi] ++ ((List.range ((hi - lo) / step + 1)).map fun i => lo + i * step).filter inside ++
    (rep.ev.map (fun e => rep.from_ + e.1)).filter inside ++ (h.map (·.1)).filter inside)
  (List.zip times (times.drop 1)).foldl (fun (a : Dev × Nat × Nat × List Nat) p =>
    match bracket gap hl p.1 p.2 with
    | none => (a.1.addW P.COV_UNPLACED rep.n (p.2 - p.1), a.2)
    | some (x, y) =>
      let on := stateAt rep.start rep.from_ rep.ev p.1
      let sA : Int := (lerp x y p.1 : Nat)
      let sB : Int := (lerp x y p.2 : Nat)
      (mapFrom (fun j s => (j, s)) 0 secs).foldl (fun (a : Dev × Nat × Nat × List Nat) js =>
        if bitOf on js.1 then
          (setBits 4 js.2.layers).foldl (fun (a : Dev × Nat × Nat × List Nat) l =>
            let cells := a.1.store.swept js.2 path sA sB
            let r := cells.foldl (Dev.crossCell l) (a.1, 0, a.2.2.2)
            (r.1, a.2.1 + r.2.1, if r.2.1 = 0 then a.2.2.1 else setBit a.2.2.1 l true, r.2.2)) a
        else a) a) (d, 0, 0, [])

/-- One report written back as far as its machine's history reaches; the rest held until its last cycle (R205). -/
def Dev.placeReport (k : Nat) (a : Dev × OffTarget × List Nat) (rep : AsApplied) : Dev × OffTarget × List Nat :=
  let d := a.1
  let m := d.cm rep.n
  let lo := max rep.from_ m.doneTo
  match d.implOf rep.n with
  | none => a
  | some im =>
    if rep.to_ ≤ lo then a
    else
      let newest := match m.hist.getLast? with
        | some e => e.1
        | none => 0
      let hi := max lo (min rep.to_ newest)
      let r := d.writeBack rep im.secs lo hi
      let d1 := r.1.putCm { r.1.cm rep.n with doneTo := hi }
      let off := if r.2.1 = 0 then a.2.1 else match a.2.1.find? (·.1 == rep.n) with
        | some o => (rep.n, o.2.1 ||| r.2.2.1, o.2.2 + r.2.1) :: a.2.1.filter (·.1 != rep.n)
        | none => (rep.n, r.2.2.1, r.2.1) :: a.2.1
      let blocks := a.2.2 ++ r.2.2.2.filter fun b => !a.2.2.contains b
      if hi = rep.to_ then (d1, off, blocks)
      else if rep.until_ ≤ k then
        ((d1.addW P.COV_UNPLACED rep.n (rep.to_ - hi)).putCm { d1.cm rep.n with doneTo := rep.to_ }, off, blocks)
      else (d1.cov fun c => { c with held := c.held ++ [rep] }, off, blocks)

/-- A report admitted to cycle `k` checked and counted (R203). -/
def Dev.takeApplied (k : Nat) (a : Dev × List AsApplied) (x : Input) : Dev × List AsApplied :=
  let d := a.1
  let p := x.payload
  let n := fld p 1 1
  if n = 0 ∨ 96 < n then a
  else
    let nsec := match d.implOf n with
      | some im => im.secs.length
      | none => 0
    let m := d.cm n
    match aaRule p nsec x.stamp with
    | 0 =>
      let seq := fld p 4 2
      let gap := match m.seq with
        | some o => (seq + 2 ^ 16 - (o + 1) % 2 ^ 16) % 2 ^ 16
        | none => 0
      let t := (ofStamp64 (fld p 8 8)).getD 0 / ms
      let r : AsApplied := { n := n, from_ := t, to_ := t + fld p 16 2, start := fld p 20 16
                             ev := (List.range (fld p 6 2)).map fun i => evOf (fld p (36 + 4 * i) 4)
                             until_ := k + d.cf P.COV_WB_WAIT }
      (((d.addW P.COV_AA_GAP n gap).inc P.COV_AA_REPORTS n).putCm { m with seq := some seq }, a.2 ++ [r])
    | rule =>
      let quiet := match m.noticed with
        | some t => decide (x.stamp < t + 10 * sec)
        | none => false
      let d1 := d.inc P.COV_AA_BAD n
      (if quiet then d1 else (d1.putCm { m with noticed := some x.stamp }).notice 0x2283
        (le 1 n ++ le 1 rule ++ le 2 p.length ++ le 8 (stamp64 x.stamp)), a.2)

/-- The position history of a machine brought up to cycle `k` (R204). -/
def Dev.covHistory (k : Nat) (d : Dev) (n : Nat) : Dev :=
  let m := d.cm n
  match (d.ms? n).bind (·.use) with
  | none => d
  | some u =>
    let t := u.epoch / ms
    let newer := match m.hist.getLast? with
      | some e => decide (e.1 < t)
      | none => true
    let h := if newer then m.hist ++ [(t, u.p)] else m.hist
    d.putCm { m with hist := h.filter fun e => (k + 1) * 50 ≤ e.1 + 10000 }

/-- Blocks changed since the last checkpoint (R32). -/
def Dev.noteChanged (d : Dev) (l : List Nat) : Dev :=
  { d with cyc := { d.cyc with changedCov := d.cyc.changedCov ++ l.filter fun b => !d.cyc.changedCov.contains b } }

/-- The blocks a commit changed appended to the ring (R190). -/
def Dev.noteBlocks (d0 : Dev) (k : Nat) (l : List Nat) : Dev :=
  let d := d0.noteChanged l
  let es := (sortBy (fun a b => decide (a < b)) l).map fun b => (b, u32 k)
  (d.cov fun c => let r := c.ring ++ es; { c with ring := r.drop (r.length - 32768) }).addW P.COV_CHANGED_HEAD 0 es.length

/-! ### The restore image -/

/-- Why a coverage image is refused at its commit (R191), 0 applied. -/
def Dev.covLoadResult (d : Dev) (b : Bytes) : Nat :=
  let n := fld b 16 4
  let st := d.store
  let total := d.rd P.COV_BLOCKS
  if d.rd P.JOB_STATE ≠ 2 then 1
  else if fld b 0 4 ≠ 0x564F434B ∨ fld b 4 2 ≠ 1 ∨ (fld b 6 1 : Int) ≠ st.cell ∨ fld b 7 1 ≠ st.layers ∨ fld b 8 8 ≠ d.rd P.JOB_IMAGE_DIGEST ∨
      n = 0 ∨ 156250 < n then 2
  else if b.length ≠ 24 + 4100 * n + 4 then 4
  else if (List.range n).any fun i => total ≤ fld b (24 + 4100 * i) 4 then 3
  else if crc32c (b.take (b.length - 4)) ≠ fld b (b.length - 4) 4 then 4 else 0

/-- A restored block: MASKED cells stay MASKED, code 3 for another cell is NONE (R191). -/
def restoreBlock (mask img : Bytes) : Bytes :=
  List.zipWith (fun m x =>
    let code (q : Nat) : Nat :=
      let w := 4 ^ q
      if m.toNat / w % 4 = 3 then 3 else if x.toNat / w % 4 = 3 then 0 else x.toNat / w % 4
    BitVec.ofNat 8 (code 0 + 4 * code 1 + 16 * code 2 + 64 * code 3)) mask img

/-- Cells of a block that hold a code. -/
def countCode (b : Bytes) (v : Nat) : Nat := b.foldl (fun s x => s + ([0, 1, 2, 3].filter fun q => x.toNat / 4 ^ q % 4 == v).length) 0

/-- Cells ONCE and OVERLAP counted anew. -/
def Dev.covCount (d : Dev) : Dev :=
  let l := max 1 (d.rd P.COV_LAYERS)
  [0, 1, 2, 3].foldl (fun d i =>
    let bs := d.com.cov.blocks.filter fun b => b.1 % l == i
    (d.wr P.COV_ONCE i (bs.foldl (fun s b => s + countCode b.2 1) 0)).wr P.COV_OVERLAP i (bs.foldl (fun s b => s + countCode b.2 2) 0)) d

/-- The last chunk of a coverage image admitted to cycle `a` (R191). -/
def Dev.covTake (d : Dev) (a : Nat) (img : Bytes) : Dev := d.cov fun c => { c with load := some (a + 100, img) }

/-- A coverage image that waits for cycle `k` applied or refused, with notice 0x2282. -/
def Dev.covDue (d : Dev) (k : Nat) : Dev :=
  match d.com.cov.load with
  | some (due, b) =>
    if due ≤ k then
      let d1 := d.cov fun c => { c with load := none }
      let r := d1.covLoadResult b
      let n := fld b 16 4
      let st := d1.store
      let d2 := if r = 0 then
          ((List.range n).foldl (fun (d : Dev) i =>
            let no := fld b (24 + 4100 * i) 4
            let cells := restoreBlock (st.cov.masks.getD (no / max 1 st.layers) []) (cut b (28 + 4100 * i) 4096)
            d.cov fun c => { c with blocks := insertBy (fun a b => decide (a.1 < b.1)) (no, cells) (c.blocks.filter (·.1 != no)) }) d1).covCount.noteChanged
            ((List.range n).map fun i => fld b (24 + 4100 * i) 4)
        else d1
      d2.notice 0x2282 (le 1 r ++ le 4 (if r = 0 then n else 0) ++ le 4 (u32 k))
    else d
  | none => d

/-! ### The stage -/

/-- The `coverage(k)` stage (R27): write-back of held, then admitted reports; schedules in ascending machine number.  `xs` are the as-applied reports. -/
def Dev.coverageStage (d : Dev) (k : Nat) (xs : List Input) : Dev × List Bytes :=
  let d0 := d.covDue k
  let d1 := d0.jobMachs.foldl (Dev.covHistory k) d0
  let held := d1.com.cov.held
  let (d2, new) := xs.foldl (Dev.takeApplied k) (d1.cov fun c => { c with held := [] }, [])
  let (d3, off, blocks) := (held ++ new).foldl (Dev.placeReport k) (d2, [], [])
  let d4 := (sortBy (fun a b => decide (a.1 < b.1)) off).foldl (fun (d : Dev) o =>
    d.notice 0x2280 (le 1 o.1 ++ le 1 o.2.1 ++ le 4 o.2.2 ++ le 4 (u32 k))) d3
  let d5 := d4.noteBlocks k blocks
  d5.jobMachs.foldl (Dev.oneSchedule k) (d5, [])

/-- R207: a fault of Tile 5.0, treated as a Bench commit fault. -/
def execCoverageFault (t : Nat) (s : State) : Host.Outcome State Fault Refusal := run s fun d0 =>
  ((d0.at t).faultLog 5 (location 5 0 0 .engine) []).giveUp 1

/-- Block `COV.MAP_BASE` + i (R190); beyond the allocation every cell is MASKED. -/
def Dev.covMap (d : Dev) (i : Nat) : Bytes :=
  let b := d.rd P.COV_MAP_BASE + i
  if b < d.rd P.COV_BLOCKS then d.store.block b else List.replicate 4096 0xFF#8

/-- Entries 64 × i to 64 × i + 63 of the changed-block ring (R190). -/
def Dev.covChanged (d : Dev) (i : Nat) : Bytes :=
  let r := d.com.cov.ring
  let h := d.rd P.COV_CHANGED_HEAD
  (List.range 64).flatMap fun j =>
    -- how long ago the place was last written
    let back := (h + 32768 * 2 - 1 - (64 * i + j)) % 32768
    match r[r.length - 1 - back]? with
    | some e => if back < r.length then le 4 e.1 ++ le 4 e.2 else zeros 8
    | none => zeros 8

end Sys2Proof.Machine
end

