-- ==== Sys2Proof/Machine/Gnss.lean ====
section
/-!
DEFINITION. The GNSS signal path: antenna inputs, band chains, signals, tile budget, channels, acquisition, start kinds and snapshot
capture (Chapter 3: R69 to R97).
-/
namespace Sys2Proof.Machine
open Sys2Proof

/-- One row of Table 3.3: system (0 GPS to 6 SBAS), band (0 low, 1 mid, 2 high), centre (Hz), least and largest rate code, direct
acquisition. -/
structure Signal where
  sys : Nat
  band : Nat
  freq : Nat
  lo : Nat
  hi : Nat
  direct : Bool
  deriving DecidableEq, Repr, Inhabited

/-- Table 3.3. -/
def signals : List Signal := [
  ⟨0, 2, 1575420000, 0, 3, true⟩, ⟨0, 2, 1575420000, 1, 3, false⟩, ⟨0, 1, 1227600000, 0, 3, false⟩,
  ⟨0, 0, 1176450000, 2, 3, true⟩, ⟨1, 2, 1602000000, 1, 2, true⟩, ⟨1, 1, 1246000000, 1, 2, false⟩,
  ⟨1, 0, 1202025000, 2, 3, false⟩, ⟨2, 2, 1575420000, 1, 3, false⟩, ⟨2, 0, 1176450000, 2, 3, true⟩,
  ⟨2, 0, 1207140000, 2, 3, false⟩, ⟨2, 1, 1278750000, 1, 3, false⟩, ⟨3, 2, 1561098000, 0, 3, true⟩,
  ⟨3, 2, 1575420000, 1, 3, false⟩, ⟨3, 0, 1176450000, 2, 3, false⟩, ⟨3, 0, 1207140000, 2, 3, false⟩,
  ⟨3, 1, 1268520000, 2, 3, false⟩, ⟨4, 2, 1575420000, 0, 3, true⟩, ⟨4, 2, 1575420000, 1, 3, false⟩,
  ⟨4, 1, 1227600000, 0, 3, false⟩, ⟨4, 0, 1176450000, 2, 3, false⟩, ⟨4, 1, 1278750000, 1, 3, false⟩,
  ⟨5, 0, 1176450000, 0, 3, true⟩, ⟨6, 2, 1575420000, 0, 3, true⟩, ⟨6, 0, 1176450000, 2, 3, false⟩]

/-- R76: whether a rate code lies in a signal's allowed range. -/
def sigRateOk (s v : Nat) : Bool := (nth signals s).lo ≤ v && v ≤ (nth signals s).hi

/-- Load of a channel of a signal, in 0.25 Msps. -/
def Dev.sigLoad (d : Dev) (s : Nat) : Nat := ([25, 50, 100, 200] : List Nat).getD (d.cf P.GNS_SIG_RATE s) 25

/-- The chain a channel takes its samples from (Table 3.2). -/
def chainOf (ant sig : Nat) : Nat := ant * 3 + (nth signals sig).band

/-- `TRK.CHAN_SIG` (Table 3.14). -/
def sigId (ant sig sat : Nat) : Nat := ant * 2 ^ 15 + sig * 2 ^ 10 + sat % 256

/-! ### Channels and tiles -/

/-- A channel that is not FREE. -/
def Dev.chan? (d : Dev) (c : Nat) : Option Chan := d.gns.chans.find? (·.c == c)

/-- A channel's record replaced, in ascending channel order, with the TRK items it shows. -/
def Dev.putChan (d : Dev) (x : Chan) : Dev :=
  let rest := d.gns.chans.filter (·.c != x.c)
  let d1 := { d with gns := { d.gns with chans := insertBy (fun a b => decide (a.c < b.c)) x rest } }
  (d1.wr P.TRK_CHAN_STATE x.c x.state).wr P.TRK_CHAN_SIG x.c (sigId x.ant x.sig x.sat)

/-- Load and channels of a tile shown (Table 3.14). -/
def Dev.showTile (d : Dev) (tile : Nat) : Dev :=
  let l := d.gns.chans.filter fun x => x.c / 48 == tile
  (d.wr P.TRK_TILE_LOAD tile (l.foldl (fun n x => n + d.sigLoad x.sig) 0)).wr P.TRK_TILE_CHANS tile l.length

/-- A channel becomes FREE (Table 3.4). -/
def Dev.freeChan (d : Dev) (c : Nat) : Dev :=
  let d1 := { d with gns := { d.gns with chans := d.gns.chans.filter (·.c != c) } }
  (((d1.wr P.TRK_CHAN_STATE c 0).wr P.TRK_CHAN_SIG c 0xFFFF).wr P.TRK_CHAN_CN0 c 0).showTile (c / 48)

/-- Every channel that satisfies a test becomes FREE. -/
def Dev.freeWhere (d : Dev) (p : Chan → Bool) : Dev := (d.gns.chans.filter p).foldl (fun d x => d.freeChan x.c) d

/-- The tile hardware's enable (R78): refused beyond 48 channels or 500 Msps. -/
def Dev.enableChan (d : Dev) (c ant sig sat : Nat) : Dev :=
  let tile := c / 48
  if 2000 < d.rd P.TRK_TILE_LOAD tile + d.sigLoad sig || 48 ≤ d.rd P.TRK_TILE_CHANS tile || (d.chan? c).isSome then
    d.inc P.TRK_BUDGET_REFUSED
  else
    (d.putChan { c := c, ant := ant, sig := sig, sat := sat, state := 1, since := d.now, rove := d.cfS P.TRK_ROVE_OFFSET sig }).showTile tile

/-- The lowest-numbered tile with room for a load under the cap (R79), and its lowest free slice. -/
def Dev.roomFor (d : Dev) (load : Nat) : Option Nat :=
  let cap := 2000 * d.cf P.TRK_LOAD_CAP / 100
  match (List.range 28).find? fun tile => !d.gns.tilesOut.contains tile && d.rd P.TRK_TILE_LOAD tile + load ≤ cap
      && d.rd P.TRK_TILE_CHANS tile < 48 with
  | some tile => ((List.range 48).find? fun i => (d.chan? (tile * 48 + i)).isNone).map (tile * 48 + ·)
  | none => none

/-- Whether a signal may be tracked on an antenna: running, enabled, its chain delivering samples. -/
def Dev.sigOk (d : Dev) (ant sig : Nat) : Bool :=
  d.cf P.GNS_RUN == 1 && d.cf P.GNS_SIG_EN sig == 1 && d.cf P.GNS_ANT_EN ant == 1 && d.rd P.GNS_CHAIN_STATE (chainOf ant sig) == 2

/-- R79, R91: a signal of a satellite assigned to a channel in PULLIN, where it is not tracked already and a tile has room. -/
def Dev.place (d : Dev) (ant sig sat : Nat) : Dev :=
  if !d.sigOk ant sig || d.gns.chans.any (fun x => x.ant == ant && x.sig == sig && x.sat == sat) then d
  else match d.roomFor (d.sigLoad sig) with
    | some c => d.enableChan c ant sig sat
    | none => d

/-- R79: several signals placed in the order rate descending, signal, antenna, satellite. -/
def Dev.placeAll (d : Dev) (l : List (Nat × Nat × Nat)) : Dev :=
  let key (x : Nat × Nat × Nat) : List Nat := [1000 - d.sigLoad x.2.1, x.2.1, x.1, x.2.2]
  (sortBy (fun a b => lexLt (key a) (key b)) l).foldl (fun d x => d.place x.1 x.2.1 x.2.2) d

/-! ### Antennas and chains -/

/-- A change of an antenna's state, with notice 0x1080. -/
def Dev.antState (d : Dev) (i s ma : Nat) : Dev :=
  let old := d.rd P.GNS_ANT_STATE i
  if old = s then d
  else
    let d1 := if d.rd P.GNS_SNAP_STATE = 2 && s != 1 then { d with gns := { d.gns with snap := { d.gns.snap with antBad := true } } } else d
    (d1.wr P.GNS_ANT_STATE i s).noticeT 0x1080 (le 1 i ++ le 1 old ++ le 1 s ++ le 2 ma)

/-- The state a bias current shows (R71), in 0.1 mA. -/
def biasState (ma : Nat) : Nat := if ma < 30 then 2 else if ma ≤ 1200 then 1 else 3

/-- A bias reading judged: a short switches the bias off and counts. -/
def Dev.judgeBias (d : Dev) (i ma : Nat) : Dev :=
  let d1 := d.wr P.GNS_ANT_MA i ma
  if 1200 < ma then
    ({ d1 with gns := { d1.gns with biasOff := d1.gns.biasOff.set i d1.now } }.inc P.GNS_ANT_SHORTS i).antState i 3 ma
  else d1.antState i (biasState ma) ma

/-- ANT_BIAS_SAMPLE (R71): the bias current of antenna `i`, in 0.1 mA; `peak` its largest value at any instant. -/
def execAntBiasSample (t i ma peak : Nat) (s : State) : Host.Outcome State Fault Refusal := run s fun d0 =>
  let d := d0.at t
  if 2 ≤ i then d
  else if d.cf P.GNS_ANT_EN i = 0 then d.antState i 0 0
  else if d.cf P.GNS_ANT_BIAS i = 0 then d.antState i 4 0
  else if d.rd P.GNS_ANT_STATE i = 3 then d
  else d.judgeBias i (if 1500 < peak then max peak ma else ma)

/-- ANT_BIAS_RETRY (R71): a SHORT antenna's bias tried again, once per second. -/
def execAntBiasRetry (t i ma : Nat) (s : State) : Host.Outcome State Fault Refusal := run s fun d0 =>
  let d := d0.at t
  if i < 2 && d.cf P.GNS_ANT_EN i = 1 && d.cf P.GNS_ANT_BIAS i = 1 && d.rd P.GNS_ANT_STATE i = 3 && nth d.gns.biasOff i + sec ≤ d.now then
    d.judgeBias i ma
  else d

/-- A change of a chain's state, with notice 0x1081 (cause: 1 LO unlock, 2 ADC stuck, 3 enabled, 4 disabled). -/
def Dev.chainState (d : Dev) (c s cause : Nat) : Dev :=
  let old := d.rd P.GNS_CHAIN_STATE c
  if old = s then d
  else
    ({ d with gns := { d.gns with chainSince := d.gns.chainSince.set c d.now } }.wr P.GNS_CHAIN_STATE c s).noticeT 0x1081
      (le 1 c ++ le 1 old ++ le 1 s ++ le 1 cause)

/-- R71, R73: chains of enabled antennas start settling, those of disabled ones go OFF and their channels FREE. -/
def Dev.chainsEnable (d : Dev) : Dev :=
  (List.range 6).foldl (fun d c =>
    if d.cf P.GNS_ANT_EN (c / 3) = 1 then
      if d.rd P.GNS_CHAIN_STATE c = 0 then d.chainState c 1 3 else d
    else ((d.chainState c 0 4).freeWhere fun x => chainOf x.ant x.sig == c).antState (c / 3) 0 0) d

/-- CHAIN_SETTLE_END (R73). -/
def execChainSettleEnd (t c : Nat) (s : State) : Host.Outcome State Fault Refusal := run s fun d0 =>
  let d := d0.at t
  if c < 6 && d.rd P.GNS_CHAIN_STATE c = 1 && nth d.gns.chainSince c + 10 * ms ≤ d.now then d.chainState c 2 3 else d

/-- CHAIN_FAULT (R73): cause 1 LO unlock, 2 ADC stuck; the chain's channels are dropped. -/
def execChainFault (t c cause : Nat) (s : State) : Host.Outcome State Fault Refusal := run s fun d0 =>
  let d := d0.at t
  let st := d.rd P.GNS_CHAIN_STATE c
  if c < 6 && (st = 1 || st = 2) then (d.chainState c 3 cause).freeWhere fun x => chainOf x.ant x.sig == c else d

/-- CHAIN_REENABLE (R73): a FAULT chain is enabled again 10 s after its fault. -/
def execChainReenable (t c : Nat) (s : State) : Host.Outcome State Fault Refusal := run s fun d0 =>
  let d := d0.at t
  if c < 6 && d.rd P.GNS_CHAIN_STATE c = 3 && nth d.gns.chainSince c + 10 * sec ≤ d.now then d.chainState c 1 3 else d

/-- Gains noted for `STA.AGC_REF` (R114): the last 60 s of NORMAL, and the first 10 s of STARTUP. -/
def Dev.noteGain (d : Dev) (c g : Nat) : Dev :=
  match d.rd P.STA_STATE with
  | 3 => { d with gns := { d.gns with hist := upd d.gns.hist c fun l => g :: l.take 59999 } }
  | 1 =>
    if (nth d.gns.startHist c).length < 10000 then { d with gns := { d.gns with startHist := upd d.gns.startHist c (g :: ·) } } else d
  | _ => d

/-- AGC_UPDATE (R73): one millisecond of a running chain: `big` of 100,000 samples reached |I| or |Q| of 4, `clip` reached −8 or +7. -/
def execAgcUpdate (t c big clip : Nat) (s : State) : Host.Outcome State Fault Refusal := run s fun d0 =>
  let d := d0.at t
  if c < 6 && d.rd P.GNS_CHAIN_STATE c = 2 then
    let g := d.rd P.GNS_AGC_DB c
    let g' := if 100000 < 3 * big then g - 1 else if 3 * big < 100000 then min 127 (g + 1) else g
    let d1 := (d.wr P.GNS_AGC_DB c g').when (1000 < clip) (·.inc P.GNS_ADC_CLIP c)
    let d2 := if g' != g && d1.rd P.GNS_SNAP_STATE = 2 then
        { d1 with gns := { d1.gns with snap := { d1.gns.snap with agcMoved := c :: d1.gns.snap.agcMoved } } }
      else d1
    d2.noteGain c g'
  else d

/-! ### Tracking -/

/-- Dump accumulators held to the s32 range (R85), with whether one was cut. -/
def satSums (l : List Int) : Bytes × Bool :=
  ((l.map fun z => le 4 (ofS 32 (satS 32 z))).flatten, l.any fun z => satS 32 z != z)

/-- One tap sample's worth of phase, `n` times, on the UQ32.32 phase. -/
def stepPhase (p : Nat) (rate : Int) (n : Nat) : Nat := ofS 64 ((p : Int) + rate * n)

/-- Table 3.4: the lock test on the averaged C/N0 (0.01 dB-Hz); `fll` says that the frequency loop has locked. -/
def Dev.lockTest (d : Dev) (x : Chan) (cn0 : Nat) (fll : Bool) : Chan :=
  let lim := d.cf P.TRK_CN0_MIN
  match x.state with
  | 1 =>
    if lim ≤ cn0 && fll then
      match x.good with
      | some g => if g + 200 * ms ≤ d.now then { x with state := 2, since := d.now, good := none } else x
      | none => { x with good := some d.now }
    else { x with good := none }
  | 2 => if cn0 + 300 < lim then { x with state := 3, since := d.now } else x
  | _ => if lim ≤ cn0 then { x with state := 2, since := d.now } else x

/-- The signals of a satellite's system other than the one that tracks, which aiding acquires (R91). -/
def aidedSignals (sig : Nat) (have_ : Nat) : List Nat :=
  (List.range 24).filter fun s => s != sig && (nth signals s).sys == (nth signals sig).sys && bitOf have_ s

/-- DUMP_BOUNDARY (R81, R85, R86, R91): channel `c` ends a code period `n` tap samples after the last boundary with the accumulators
E, P, L, V, D (I then Q); `cn0` is the estimate over 100 ms; `early` are rate words firmware wrote before the boundary, `late` those
completed in its own clock; `sigs` are the signals the satellite transmits, `eph` says that its ephemeris has been decoded. -/
def execDumpBoundary (t c n : Nat) (sums : List Int) (cn0 : Nat) (fll : Bool) (early late : Option (Int × Nat)) (sigs : Nat) (eph : Bool)
    (s : State) : Host.Outcome State Fault Refusal := run s fun d0 =>
  let d := d0.at t
  match d.chan? c with
  | none => d
  | some x =>
    let (acc, ovf) := satSums (sums.take 10)
    let rec_ := le 2 c ++ le 1 (bit ovf + 2 * bit x.rateNew + 4 * bit x.lateWrite) ++ le 1 (ofS 8 x.rove) ++ le 4 x.dumps ++ fit 40 acc
    let pend := match early with | some w => some w | none => x.pend
    let mode := d.cf P.TRK_ROVE_MODE x.sig
    let swept := x.rove + d.cf P.TRK_ROVE_STEP x.sig
    let x1 : Chan := { x with
      car := stepPhase x.car x.carRate n, code := stepPhase x.code x.codeRate n, dumps := (x.dumps + 1) % 2 ^ 32, dump := rec_,
      carRate := (match pend with | some w => w.1 | none => x.carRate), codeRate := (match pend with | some w => w.2 | none => x.codeRate),
      rateNew := pend.isSome, pend := late, lateWrite := late.isSome,
      rove := if mode = 1 then (if 64 < swept then -64 else swept) else d.cfS P.TRK_ROVE_OFFSET x.sig }
    let x2 := d.lockTest x1 cn0 fll
    let d1 := (((d.putChan x2).wr P.TRK_CHAN_CN0 c cn0).when ovf (·.inc P.TRK_DUMP_OVF)).when late.isSome (·.inc P.TRK_LOOP_LATE)
    let key := (nth signals x.sig).sys * 256 + x.sat
    let d2 := if eph then { d1 with gns := { d1.gns with
        eph := (key, d1.now) :: d1.gns.eph.filter (·.1 != key), almanac := some d1.now } }.wr P.GNS_ALM_AGE 0 0 else d1
    if x.state = 1 && x2.state = 2 then d2.placeAll ((aidedSignals x.sig sigs).map fun g => (x.ant, g, x.sat)) else d2

/-- PULLIN_TIMEOUT (Table 3.4): 2 s in PULLIN. -/
def execPullinTimeout (t c : Nat) (s : State) : Host.Outcome State Fault Refusal := run s fun d0 =>
  let d := d0.at t
  match d.chan? c with
  | some x => if x.state = 1 && x.since + 2 * sec ≤ d.now then d.freeChan c else d
  | none => d

/-- COAST_EXPIRY (Table 3.4): `TRK.COAST_MS` in COASTING. -/
def execCoastExpiry (t c : Nat) (s : State) : Host.Outcome State Fault Refusal := run s fun d0 =>
  let d := d0.at t
  match d.chan? c with
  | some x => if x.state = 3 && x.since + d.cf P.TRK_COAST_MS * ms ≤ d.now then (d.freeChan c).inc P.TRK_LOSSES x.sig else d
  | none => d

/-- TILE_FAULT (R80): cause 1 parity, 2 dump not delivered; the tile stays out and its signals are placed again. -/
def execTileFault (t tile cause : Nat) (s : State) : Host.Outcome State Fault Refusal := run s fun d0 =>
  let d := d0.at t
  if tile < 28 && !d.gns.tilesOut.contains tile then
    let lost := d.gns.chans.filter fun x => x.c / 48 == tile
    let d1 := d.freeWhere fun x => x.c / 48 == tile
    let d2 := { d1 with gns := { d1.gns with tilesOut := tile :: d1.gns.tilesOut } }.fault 0x1084 (location 2 tile 0 .tile)
      (le 1 lost.length ++ le 1 cause)
    d2.placeAll (lost.map fun x => (x.ant, x.sig, x.sat))
  else d

/-! ### Acquisition and start -/

/-- Procedure `acq_clocks` (R90). -/
def acqClocks (S N T B D : Nat) : Nat :=
  let step := 500000 / T
  let bins := 2 * ((D * 1000 + step - 1) / step) + 1
  bins * B * ((T * S + N + 3) / 4)

/-- Satellites searched for each direct signal in COLD, in order (R92). -/
def coldPlan : List (Nat × List Nat) := [
  (0, (List.range 32).map (· + 1)), (11, (List.range 63).map (· + 1)), (4, (List.range 14).map (· + 0x81)),
  (8, (List.range 36).map (· + 1)), (3, (List.range 32).map (· + 1)), (16, (List.range 10).map (· + 193)),
  (21, (List.range 14).map (· + 1)), (22, (List.range 39).map (· + 120))]

/-- R92: tracking starts: the start kind is chosen and shown, the chains are enabled, the searches planned. -/
def Dev.startTracking (d : Dev) (forced : Bool) : Dev :=
  let rtc := bitOf (d.rd P.PWR_RTC_STATE) 0
  let fresh := (d.gns.eph.filter fun e => d.now ≤ e.2 + 7200 * sec).length
  let age := match d.gns.almanac with | some a => min 0xFFFF ((d.now - a) / (3600 * sec)) | none => 0xFFFF
  let kind : Nat := if forced then 1 else if rtc && 4 ≤ fresh then 3 else if rtc && age < d.cf P.GNS_WARM_AGE_MAX then 2 else 1
  let ant := if d.cf P.GNS_ANT_EN 0 = 1 then 0 else 1
  let all := coldPlan.flatMap fun (g, l) => if d.cf P.GNS_SIG_EN g = 1 then l.map fun n => (g, ant, n) else []
  let plan := if kind = 1 then all else all.filter fun (x : Nat × Nat × Nat) => Config.visible d.freeIx x.1 x.2.2
  let d1 := { d with freeIx := d.freeIx + 1, gns := { d.gns with plan := plan } }
  (((d1.wr P.GNS_ACQ_QUEUE 0 (min 64 plan.length)).wr P.GNS_ALM_AGE 0 age).wr P.GNS_START_KIND 0 kind).chainsEnable.noticeT 0x1085
    (le 1 kind ++ le 2 age)

/-- Tracking stopped: every channel FREE, the searches dropped. -/
def Dev.stopTracking (d : Dev) : Dev :=
  let d1 := d.freeWhere fun _ => true
  { d1 with gns := { d1.gns with plan := [] } }.wr P.GNS_ACQ_QUEUE 0 0

/-- R92: the stored almanac and ephemerides discarded, tracking restarted COLD. -/
def Dev.forceCold (d : Dev) : Dev :=
  let d1 := d.stopTracking
  let d2 := { d1 with gns := { d1.gns with eph := [], almanac := none } }
  if d2.rd P.GNS_RUN = 1 then d2.startTracking true else d2.wr P.GNS_ALM_AGE 0 0xFFFF

/-- ACQ_SEARCH_DONE (R90): the search of a direct signal ends with a ratio of peak to noise floor (UQ8.8). -/
def execAcqSearchDone (t sig ant sat ratio : Nat) (s : State) : Host.Outcome State Fault Refusal := run s fun d0 =>
  let d := d0.at t
  if sig < 24 && (nth signals sig).direct && d.cf P.GNS_RUN = 1 then
    let plan := d.gns.plan.filter fun x => x != (sig, ant, sat)
    let d1 := ({ d with gns := { d.gns with plan := plan } }.wr P.GNS_ACQ_QUEUE 0 (min 64 plan.length)).inc P.GNS_ACQ_DONE
    if d1.cf P.GNS_ACQ_THRESH ≤ ratio then d1.place ant sig sat else d1
  else d

/-! ### Snapshot capture -/

/-- R93, R94: a trigger (cause 1 host, 2 jamming, 3 test): it starts the capture from ARMED, else it is ignored and counted. -/
def Dev.snapTrigger (d : Dev) (cause : Nat) : Dev :=
  if d.rd P.GNS_SNAP_STATE = 1 then
    let index := min (d.cf P.GNS_SNAP_PRE * 100000) ((d.now - d.gns.snap.armed) / 10)
    let notOk := [0, 1].any fun i => d.rd P.GNS_ANT_STATE i != 1 && d.cf P.GNS_ANT_EN i == 1
    { d with gns := { d.gns with snap := { d.gns.snap with
      no := (d.gns.snap.no + 1) % 2 ^ 32, trig := d.now, cause := cause, index := index, start := d.now - index * 10,
      antBad := notOk, agcMoved := [], data := [] } } }.wr P.GNS_SNAP_STATE 0 2
  else d.inc P.GNS_SNAP_IGNORED

/-- R93: whether the state of the capture allows an action: ARM in IDLE, TRIGGER always, EXPORT and DISCARD in HELD, DISARM in ARMED or
CAPTURING. -/
def Dev.snapOk (d : Dev) (action : Nat) : Bool :=
  let st := d.rd P.GNS_SNAP_STATE
  match action with
  | 1 => st == 0
  | 2 => true
  | 3 => st == 3
  | 4 => st == 3
  | 5 => st == 1 || st == 2
  | _ => false

/-- Items of one chain's samples (Table 3.9). -/
def Dev.snapItems (d : Dev) (chain : Nat) (data : Bytes) : List Bytes :=
  let sn := d.gns.snap
  let bs := blocksOf 1024 data
  mapFrom (fun i b =>
    let first := i * 1024
    let flags := bit (i + 1 == bs.length) + 2 * bit (first ≤ sn.index && sn.index < first + b.length) + 4 * bit sn.antBad
      + 8 * bit (sn.agcMoved.contains chain)
    le 4 sn.no ++ le 1 chain ++ le 1 flags ++ le 2 b.length ++ le 4 first ++ le 4 sn.index ++ hubtime80 sn.start ++ le 1 sn.cause ++
      [0#8] ++ b) 0 bs

/-- R93, R95: an allowed action of `GNS.SNAP_CTRL` takes effect. -/
def Dev.snapAct (d : Dev) (action : Nat) : Dev :=
  match action with
  | 1 => { d with gns := { d.gns with snap := { d.gns.snap with armed := d.now } } }.wr P.GNS_SNAP_STATE 0 1
  | 2 => d.snapTrigger 1
  | 3 =>
    let items := d.gns.snap.data.flatMap fun (c, b) => d.snapItems c b
    let d1 := items.foldl (fun d x => d.stream 5 x) (d.wr P.GNS_SNAP_STATE 0 4)
    { d1 with gns := { d1.gns with snap := { d1.gns.snap with items := items.length } } }
  | 4 => { d with gns := { d.gns with snap := { d.gns.snap with data := [] } } }.wr P.GNS_SNAP_STATE 0 0
  | 5 => { d with gns := { d.gns with snap := { d.gns.snap with data := [] } } }.wr P.GNS_SNAP_STATE 0 0
  | _ => d

/-- SNAP_CAPTURE_END (R93): the post-trigger recording ends; `data` holds the sample bytes of the selected chains, ascending. -/
def execSnapCaptureEnd (t : Nat) (data : List (Nat × Bytes)) (s : State) : Host.Outcome State Fault Refusal := run s fun d0 =>
  let d := d0.at t
  let len := d.cf P.GNS_SNAP_LEN
  let sn := d.gns.snap
  if d.rd P.GNS_SNAP_STATE = 2 && sn.trig + (len - d.cf P.GNS_SNAP_PRE) * ms ≤ d.now then
    let kept := data.filter fun x => bitOf (d.cf P.GNS_SNAP_CHAINS) x.1
    ({ d with gns := { d.gns with snap := { sn with data := kept } } }.wr P.GNS_SNAP_STATE 0 3).notice 0x1082
      (le 4 sn.no ++ le 1 (d.cf P.GNS_SNAP_CHAINS) ++ le 1 sn.cause ++ le 1 len ++ le 4 sn.index ++ hubtime80 sn.start)
  else d

/-- SNAP_EXPORT_END (R95): the export completes and the capture stays HELD. -/
def execSnapExportEnd (t : Nat) (s : State) : Host.Outcome State Fault Refusal := run s fun d0 =>
  let d := d0.at t
  if d.rd P.GNS_SNAP_STATE = 4 then
    (d.wr P.GNS_SNAP_STATE 0 3).notice 0x1083 (le 4 d.gns.snap.no ++ le 4 d.gns.snap.items)
  else d

end Sys2Proof.Machine
end

