-- ==== Sys2Proof/Machine/Station.lean ====
section
/-!
DEFINITION. The reference station: epoch inputs, observables, consistency checks, states, jamming indicator, notches, self-test and
RTCM (Chapter 4: R98 to R121).  What the manual leaves to broadcast orbits and to RTCM 10403.3 is a constant of Config.
-/
namespace Sys2Proof.Machine
open Sys2Proof

/-! ### Interference -/

/-- Procedure `jam_index` (R114). -/
def jamIndex (agc ref pk : Nat) : Nat := min 255 (4 * (ref - agc) + 8 * (pk - 10))

/-- Whether indicator and notch bank are active (R113). -/
def Dev.jamActive (d : Dev) : Bool := let s := d.rd P.STA_STATE; s == 1 || s == 2 || s == 4 || s == 5

/-- The lower median of a list of gains. -/
def median (l : List Nat) : Nat := nth (sortBy (fun a b => decide (a < b)) l) ((l.length - 1) / 2)

/-- R114: the reference gain of a chain. -/
def Dev.agcRef (d : Dev) (c : Nat) : Nat :=
  if !(nth d.gns.hist c).isEmpty then median (nth d.gns.hist c)
  else if !(nth d.gns.startHist c).isEmpty then median (nth d.gns.startHist c)
  else d.rd P.STA_AGC_REF c

/-- JAM_INDEX_UPDATE (R94, R113, R114): the indicator of chain `c`, with `pk` the ratio of peak to mean bin in whole dB. -/
def execJamIndexUpdate (t c pk : Nat) (s : State) : Host.Outcome State Fault Refusal := run s fun d0 =>
  let d := d0.at t
  if c < 6 && d.jamActive && d.cf P.GNS_ANT_EN (c / 3) = 1 then
    let ref := d.agcRef c
    let j := jamIndex (d.rd P.GNS_AGC_DB c) ref pk
    let d1 := (d.wr P.STA_AGC_REF c ref).wr P.STA_JAM c j
    let d2 := { d1 with gns := { d1.gns with jamMax := upd d1.gns.jamMax c (max j) } }
    let lim := d2.cf P.GNS_SNAP_JAM
    if 1 ≤ lim && lim ≤ j && bitOf (d2.cf P.GNS_SNAP_CHAINS) c then d2.snapTrigger 2 else d2
  else d

/-- R115: the notches of a chain after a look at the spectrum, whose bins' ratios to the mean are `db`. -/
def Dev.notchStep (d : Dev) (old : List Notch) (db : List Nat) : List Notch :=
  let lim := d.cf P.STA_NOTCH_DB
  let kept : List Notch := old.filterMap fun n =>
    let here := nth db n.bin
    let up := nth db (n.bin + 1); let down := if n.bin = 0 then 0 else nth db (n.bin - 1)
    if here < lim && (lim ≤ up || lim ≤ down) then some { bin := if down ≤ up then n.bin + 1 else n.bin - 1 }
    else if here + 3 < lim then
      match n.below with
      | some b => if b + sec ≤ d.now then none else some n
      | none => some { n with below := some d.now }
    else some { n with below := none }
  let fresh := (List.range 256).filter fun b => lim ≤ nth db b && !kept.any fun (n : Notch) => n.bin == b
  let strongest := sortBy (fun a b => decide (nth db b < nth db a)) fresh
  (kept ++ (strongest.map fun b => ({ bin := b } : Notch))).take 8

/-- NOTCH_UPDATE (R115): the station looks at the 256-bin spectrum of chain `c`. -/
def execNotchUpdate (t c : Nat) (db : List Nat) (s : State) : Host.Outcome State Fault Refusal := run s fun d0 =>
  let d := d0.at t
  if c < 6 && d.jamActive then
    let old := nth d.gns.notches c
    let now_ := d.notchStep old db
    let d1 := { d with gns := { d.gns with notches := d.gns.notches.set c now_ } }
    if now_.map (·.bin) == old.map (·.bin) then d1
    else
      let mask := 2 ^ now_.length - 1
      ({ d1 with gns := { d1.gns with changed := d1.gns.changed.set c true } }.wr P.STA_NOTCH_MASK c mask).noticeT 0x1282
        (le 1 c ++ le 1 mask ++ fit 8 (now_.flatMap fun (n : Notch) => le 1 n.bin))
  else d

/-- Every notch disengages and the indicator stops (R113, R116). -/
def Dev.notchesOff (d : Dev) : Dev :=
  (List.range 6).foldl (fun d c =>
    let had := !(nth d.gns.notches c).isEmpty
    let d1 := { d with gns := { d.gns with notches := d.gns.notches.set c [], jamMax := d.gns.jamMax.set c 0 } }
    if had then ({ d1 with gns := { d1.gns with changed := d1.gns.changed.set c true } }.wr P.STA_NOTCH_MASK c 0).noticeT 0x1282
      (le 1 c ++ le 1 0 ++ zeros 8) else d1.wr P.STA_NOTCH_MASK c 0) d

/-! ### Self-test -/

/-- The first enabled chain from `c` on. -/
def Dev.testChain (d : Dev) (c : Nat) : Option Nat := ((List.range 6).filter fun j => c ≤ j && d.cf P.GNS_ANT_EN (j / 3) == 1).head?

/-- R117: the self-test starts with the tone on the first enabled chain and the snapshot test trigger. -/
def Dev.testBegin (d : Dev) : Dev :=
  let d1 := { d with gns := { d.gns with
    testAt := (d.testChain 0).map fun c => (c, d.now), testFail := 0, testJ := [0, 0, 0, 0, 0, 0], testDone := (d.testChain 0).isNone } }
  d1.snapTrigger 3

/-- SELFTEST_TONE (R117): the tone leaves chain `c` after 200 ms; `ok` says that it met every condition, `j` its indicator with tone. -/
def execSelftestTone (t c : Nat) (ok : Bool) (j : Nat) (s : State) : Host.Outcome State Fault Refusal := run s fun d0 =>
  let d := d0.at t
  match d.gns.testAt with
  | some (c0, at_) =>
    if c = c0 && at_ + 200 * ms ≤ d.now then
      let fail := setBit d.gns.testFail c (!ok)
      let d1 := { d with gns := { d.gns with
        testFail := fail, testJ := d.gns.testJ.set c j, toneSeen := d.gns.toneSeen.set c true } }
      match d1.testChain (c + 1) with
      | some n => { d1 with gns := { d1.gns with testAt := some (n, d1.now) } }
      | none =>
        ({ d1 with gns := { d1.gns with testAt := none, testDone := true } }.wr P.STA_SELFTEST_RESULT 0 fail).notice 0x1285
          (le 1 fail ++ (d1.gns.testJ.flatMap fun v => le 1 v))
    else d
  | none => d

/-! ### Epoch inputs -/

/-- Procedure `epoch_phase` (R87). -/
def epochPhase (p : Nat) (rate : Int) (dt : Nat) : Nat := ofS 64 ((p : Int) + (rate * dt) / 2 ^ 32)

/-- An epoch latch (Table 3.6) of a channel `n` tap samples after its last dump boundary. -/
def Chan.latch (x : Chan) (n dt : Nat) : Bytes :=
  le 2 x.c ++ le 1 (bit (x.state == 3) + 2 * bit (x.state == 1) + 4 * bit (x.rateNew && n == 0)) ++ [0#8] ++
  le 8 (stepPhase x.car x.carRate n) ++ le 8 (stepPhase x.code x.codeRate n) ++ le 4 (ofS 32 x.carRate) ++ le 4 x.codeRate ++ le 4 dt

/-- Chain status at an epoch (Table 4.3). -/
def Dev.chainStatus (d : Dev) (c : Nat) : Bytes :=
  le 1 (d.rd P.STA_NOTCH_MASK c) ++ le 1 (if d.jamActive then nth d.gns.jamMax c else 0) ++ le 1 (d.rd P.GNS_AGC_DB c) ++
  le 1 (bit d.jamActive + 2 * bit (nth d.gns.toneSeen c || (d.gns.testAt.map (·.1)) == some c) + 4 * bit (nth d.gns.changed c)
    + 8 * d.rd P.GNS_CHAIN_STATE c)

/-- EPOCH_LATCH (R87, R104): a measurement epoch on hub time; each enabled antenna delivers its station input through Chute 11. -/
def execEpochLatch (t : Nat) (l : List EpochChan) (s : State) : Host.Outcome State Fault Refusal := run s fun d0 =>
  let d := d0.at t
  let period := 1000 / d.cf P.GNS_EPOCH_RATE * ms
  if d.cf P.GNS_RUN = 1 && t % period = 0 then
    let entry (ant : Nat) (e : EpochChan) : Option Bytes :=
      match d.chan? e.c with
      | some x =>
        if x.ant == ant && (x.state == 2 || x.state == 3) then
          some (le 2 (sigId x.ant x.sig x.sat) ++ le 2 (d.rd P.TRK_CHAN_CN0 x.c) ++ le 1 e.mon ++ le 1 x.state ++ le 2 0 ++ le 8 e.tx ++
            x.latch e.n e.dt)
        else none
      | none => none
    let sorted := sortBy (fun (a b : EpochChan) => decide (a.c < b.c)) l
    let d1 := [0, 1].foldl (fun d ant =>
      if d.cf P.GNS_ANT_EN ant = 1 then
        let es := sorted.filterMap (entry ant)
        d.offer 11 t 1 ant (le 1 ant ++ le 1 (bit (d.rd P.GNS_ANT_STATE ant != 1)) ++ le 2 es.length ++
          ([0, 1, 2].flatMap fun b => d.chainStatus (ant * 3 + b)) ++ es.flatten)
      else d) d
    { d1 with gns := { d1.gns with
      jamMax := [0, 0, 0, 0, 0, 0], changed := List.replicate 6 false, toneSeen := List.replicate 6 false } }
  else d

/-! ### Observables -/

/-- Centre frequency of a signal of a satellite in Hz; GLONASS FDMA signals with their channel offset (R107). -/
def sigFreq (sig sat : Nat) : Nat :=
  let f := (nth signals sig).freq
  let k : Int := if 0x81 ≤ sat then (sat : Int) - 0x81 - 7 else Config.gloChannel sat
  if sig = 4 then ((f : Int) + k * 562500).toNat else if sig = 5 then ((f : Int) + k * 437500).toNat else f

/-- Wavelength in 2^-32 mm (R107). -/
def wavelength (f : Nat) : Nat := 299792458000 * 2 ^ 32 / f

/-- Milliseconds of a week. -/
def weekMs : Nat := 604800000

/-- A hub time as time of week of a system, UQ32.32 ms (R107). -/
def Dev.systemTime (d : Dev) (sys stamp : Nat) : Nat :=
  let off : Int := match sys with
    | 3 => -33
    | 1 => 3 * 3600 - toS 16 (d.cf P.TIM_UTC_OFFSET)
    | _ => -19
  let ns := ((stamp : Int) + off * 1000000000) % (604800 * 1000000000)
  ns.toNat * 2 ^ 32 / 1000000

/-- A light time in 2^-32 ms as millimetres. -/
def lightMm (pr : Int) : Int := pr * 299792458 / 2 ^ 32

/-- A phase in 2^-32 cycles as millimetres. -/
def phaseMm (cp : Int) (lambda : Nat) : Int := cp * lambda / 2 ^ 64

/-- Range rate of a Doppler in mm/s (C2). -/
def rangeRate (dop : Int) (lambda : Nat) : Int := -(dop * lambda / (1000 * 2 ^ 32))

/-- `FLAGS` bits of Table 4.6. -/
def obsFlags (coast notime half slip notched suspect masked late_ spoof mp low : Bool) : Nat :=
  bit coast + 2 * bit notime + 4 * bit half + 8 * bit slip + 16 * bit notched + 32 * bit suspect + 64 * bit masked + 128 * bit late_
    + 256 * bit spoof + 512 * bit mp + 1024 * bit low

/-- A record as it is streamed (Table 4.5). -/
def Obs.bytes (o : Obs) : Bytes :=
  le 1 o.sys ++ le 1 o.sat ++ le 1 o.sig ++ le 1 o.ant ++ le 2 o.flags ++ le 2 o.cn0 ++ le 8 (ofS 64 o.pr) ++ le 8 (ofS 64 o.cp) ++
  le 4 (ofS 32 o.dop) ++ le 4 o.lock

/-- Elevation bin of `STA.CN0_EXP` (Table 4.13). -/
def elevBin (el : Int) : Nat := if el < 0 then 0 else min 8 (el.toNat / 10)

/-- One entry of an epoch input made an observable, with its track (R106, R107); `notched` says that its chain was, `test` that the station
is in TEST. -/
def Dev.formObs (d : Dev) (stamp : Nat) (ant : Nat) (late_ : Bool) (status : Bytes) (e : Bytes) : Obs × Track :=
  let sigid := fld e 0 2; let sat := sigid % 256; let sig := sigid / 2 ^ 10 % 32; let mon := fld e 4 1; let tx := fld e 8 8
  let chan := fld e 16 2; let g := nth signals sig; let lambda := wavelength (sigFreq sig sat)
  let cs := cut status (4 * g.band) 4
  let changed := bitOf (fld cs 3 1) 2
  let notched := fld cs 0 1 != 0 || changed || d.rd P.STA_STATE == 5
  let pr : Int := if tx = 0 then 0 else (((d.systemTime g.sys stamp : Int) - tx) % ((weekMs : Int) * 2 ^ 32))
  let rate := fldS e 36 4
  let phase := epochPhase (fld e 20 8) rate (fld e 44 4)
  -- the rate word is cycles per tap sample × 2^32
  let rateHz := ([6250000, 12500000, 25000000, 50000000] : List Int).getD (d.cf P.GNS_SIG_RATE sig) 6250000
  let dop := -(rate * rateHz * 1000 / 2 ^ 32)
  let old := d.com.sta.tracks.find? fun t => t.sigid == sigid && t.chan == chan
  let base : Int := toS 64 (ofS 64 (-(phase : Int)))
  let predicted (t : Track) : Int := t.cp + t.dop * ((stamp - t.at_ : Nat) : Int) * 2 ^ 32 / 10 ^ 12
  let slip := match old with
    | none => true
    | some t => bitOf mon 3 || changed || (2 ^ 30 : Int) < ((toS 64 (ofS 64 (base + t.whole * 2 ^ 32)) - predicted t).natAbs : Int)
  let whole := match old with
    | some t => if slip then (lightMm pr * 2 ^ 32 + lambda / 2) / lambda else t.whole
    | none => (lightMm pr * 2 ^ 32 + lambda / 2) / lambda
  let cp := toS 64 (ofS 64 (base + whole * 2 ^ 32))
  let lockFrom := match old with | some t => if slip then stamp else t.lockFrom | none => stamp
  let el := Config.elevation stamp g.sys sat
  let cn0 := fld e 2 2
  let exp_ := d.cf P.STA_CN0_EXP (g.band * 9 + elevBin el)
  let cmcNow := lightMm pr - phaseMm cp lambda
  let hist := (match old with | some t => if slip then [] else t.cmc | none => []).filter fun h => stamp ≤ h.1 + d.cf P.STA_CMC_WIN * sec
  let mean := if hist.isEmpty then cmcNow else (hist.foldl (fun n h => n + h.2) 0) / hist.length
  let c1 := (d.cf P.STA_CMC_LIM : Int) < ((cmcNow - mean).natAbs : Int)
  let c3 := exp_ + d.cf P.STA_CN0_HI < cn0
  let failedChain := bitOf (d.rd P.STA_SELFTEST_RESULT) (ant * 3 + g.band)
  let f := obsFlags (fld e 5 1 == 3) (tx == 0) (bitOf mon 2) slip notched (c1 || c3 || bitOf mon 0 || failedChain)
    (el < d.cfS P.STA_CORR_MASK) late_ (bitOf mon 0) (bitOf mon 1) (cn0 + d.cf P.STA_CN0_LO < exp_)
  ({ sys := g.sys, sat := sat, sig := sig, ant := ant, flags := f, cn0 := cn0, pr := pr, cp := cp, dop := dop,
     lock := min 0xFFFFFFFF ((stamp - lockFrom) / ms), sigid := sigid, chan := chan, state := fld e 5 1 },
   { sigid := sigid, chan := chan, at_ := stamp, cp := cp, dop := dop, whole := whole, lockFrom := lockFrom,
     cmc := (stamp, cmcNow) :: hist })

/-- Every observable of an epoch input, with the tracks it leaves. -/
def Dev.formEpoch (d : Dev) (x : Input) : List Obs × List Track :=
  let p := x.payload
  let es := (List.range (fld p 2 2)).map fun i => cut p (16 + 48 * i) 48
  let r := es.map fun e => d.formObs x.stamp (fld p 0 1) x.late (cut p 4 12) e
  (r.map (·.1), r.map (·.2))

/-- An observable corrected to the antenna's reference point (R101); an antenna without offset and variation leaves it as it is. -/
def Dev.toArp (d : Dev) (stamp : Nat) (o : Obs) : Obs :=
  let band := (nth signals o.sig).band
  let model := ((List.range 3).map fun i => d.cfS P.STA_PCO (o.ant * 9 + band * 3 + i)) ++ ((List.range 19).map fun i => d.cfS P.STA_PCV (o.ant * 57 + band * 19 + i))
  if model.all (· == 0) then o
  else
    let at_ := [stamp, o.sys, o.sat, o.sig]
    { o with pr := o.pr + Config.antennaCorrection model at_ 0, cp := toS 64 (ofS 64 (o.cp + Config.antennaCorrection model at_ 1)) }

/-- What the stream and RTCM carry of checked observables: the corrected values while `STA.PCV_APPLY` is 1, else the raw ones (R101). -/
def Dev.shownObs (d : Dev) (raw checked : List Obs) : List Obs :=
  if d.cf P.STA_PCV_APPLY = 1 then checked else List.zipWith (fun (r c : Obs) => { c with pr := r.pr, cp := r.cp }) raw checked

/-- A flag of an observable. -/
def Obs.has (o : Obs) (b : Nat) : Bool := bitOf o.flags b

/-- An observable with a flag set. -/
def Obs.flag (o : Obs) (b : Nat) : Obs := { o with flags := setBit o.flags b true }

/-- R108 without the state: no `NOTCHED`, `SUSPECT`, `SPOOF`, `MASKED`, `HALF`, `NOTIME`. -/
def Obs.eligible (o : Obs) : Bool := !(o.has 4 || o.has 5 || o.has 8 || o.has 6 || o.has 2 || o.has 1)

/-- Procedure `wrap` (R111). -/
def wrapMc (m : Int) : Int := (m + 499) % 1000 - 499

/-- Satellites of a band tracked on both antennas, with the lowest-index eligible signal (R111). -/
def abPairs (band : Nat) (a b : List Obs) : List (Obs × Obs) :=
  let ok (o : Obs) : Bool := (nth signals o.sig).band == band && o.state == 2 && !o.has 2 && !o.has 6
  let pairs := (sortBy (fun (x y : Obs) => lexLt [x.sys, x.sat, x.sig] [y.sys, y.sat, y.sig]) (a.filter ok)).filterMap fun x =>
    (b.find? fun y => ok y && y.sys == x.sys && y.sat == x.sat && y.sig == x.sig).map fun y => (x, y)
  pairs.foldl (fun acc p => if acc.any (fun (q : Obs × Obs) => q.1.sys == p.1.sys && q.1.sat == p.1.sat) then acc else acc ++ [p]) []

/-- Verdict of procedure `ab_check` for a band (R111): none where it is unavailable, else whether it fails, with the failing and
eligible counts. -/
def Dev.abCheck (d : Dev) (stamp band : Nat) (a b : List Obs) : Option (Bool × Nat × Nat) :=
  let base := [0, 1, 2].map fun i => d.cfS P.STA_AB_VEC i
  let s := abPairs band a b
  let n := s.length
  if base.all (· == 0) || d.cf P.GNS_ANT_EN 1 = 0 || d.cf P.GNS_ANT_EN 0 = 0 || d.com.sta.abOff || n < 4 then none
  else
    let q := s.map fun (x, y) =>
      let kq : Int := (sigFreq x.sig x.sat * 2 ^ 32 / 299792458000 : Nat)
      let dd := (List.range 3).foldl (fun z i => z + nth base i * Config.sight stamp x.sys x.sat i) (0 : Int)
      let p := ((dd / 2 ^ 14) * kq) / 2 ^ 16
      let f := (x.cp - y.cp - p) % 2 ^ 32
      wrapMc ((f * 1000 + 2 ^ 31) / 2 ^ 32)
    let c := nth (sortBy (fun (a b : Int) => decide (a < b)) q) ((n - 1) / 2)
    let fails := (q.filter fun z => (d.cf P.STA_AB_LIM : Int) < ((wrapMc (z - c)).natAbs : Int)).length
    some (decide (max 2 ((n * d.cf P.STA_AB_FRAC + 99) / 100) ≤ fails), fails, n)

/-- C2: satellites whose range rates differ between bands. -/
def Dev.rateSuspects (d : Dev) (l : List Obs) : List Obs :=
  l.map fun o =>
    let r := rangeRate o.dop (wavelength (sigFreq o.sig o.sat))
    let bad := l.any fun p => p.sys == o.sys && p.sat == o.sat && (nth signals p.sig).band != (nth signals o.sig).band &&
      decide ((d.cf P.STA_IFD_LIM : Int) < ((rangeRate p.dop (wavelength (sigFreq p.sig p.sat)) - r).natAbs : Int))
    if bad then o.flag 5 else o

/-- C4 on a list: residuals and system offsets. -/
def Dev.residualSuspects (d : Dev) (key : Bytes) (l : List Obs) : List Obs :=
  l.map fun o =>
    let off := (Config.stationSolve key (10 + o.sys) - Config.stationSolve key (20 + o.sys)).natAbs
    if d.cf P.STA_RES_LIM < (Config.residual key o.sigid o.chan).natAbs || d.cf P.STA_ISB_LIM * 1000 < off then o.flag 5 else o

/-! ### States -/

/-- A change of the station's state (R103). -/
def Dev.staState (d : Dev) (s : Nat) : Dev :=
  let old := d.rd P.STA_STATE
  if old = s then d
  else
    let d1 := ((d.wr P.STA_STATE 0 s).wr P.STA_READY 0 (if s = 3 then 1 else 0)).noticeT 0x1280 (le 1 old ++ le 1 s)
    let d2 := { d1 with com := { d1.com with sta := { d1.com.sta with clear := 0, runs := List.replicate 10 0 } } }
    if s = 3 || s = 0 then d2.notchesOff else if s = 5 then d2.testBegin else d2

/-- The committed station state changed. -/
def Dev.sta (d : Dev) (f : StaCom → StaCom) : Dev := { d with com := { d.com with sta := f d.com.sta } }

/-- R102: whether an antenna has failed as the reference. -/
def Dev.refFailed (d : Dev) (a : Nat) : Bool :=
  let st := d.rd P.GNS_ANT_STATE a
  d.cf P.GNS_ANT_EN a == 0 || st == 3 || ([0, 1, 2].all fun b => d.rd P.GNS_CHAIN_STATE (a * 3 + b) == 3) ||
  ([0, 1, 2].all fun b => bitOf (d.rd P.STA_SELFTEST_RESULT) (a * 3 + b))

/-- R102: a reference move that was asked for takes effect at this epoch. -/
def Dev.refMove (d : Dev) : Dev :=
  match d.com.sta.refWant with
  | none => d
  | some (a, cause) =>
    if a = d.com.sta.ref then d.sta fun s => { s with refWant := none, abOff := cause == 1 && s.abOff }
    else
      let d1 := d.sta fun s => { s with ref := a, refWant := none, tracks := [], arpNow := true, moved := s.moved + 1, abOff := cause == 1 }
      d1.noticeT 0x1284 (le 1 a ++ le 1 cause)

/-- R102: a failed reference antenna moves the reference at the next epoch, or counts as trip cause 9. -/
def Dev.refWatch (d : Dev) : Dev × Bool :=
  let a := d.com.sta.ref
  if d.rd P.STA_STATE != 0 && d.refFailed a then
    if d.cf P.STA_REF_FAILOVER = 1 && !d.refFailed (1 - a) then
      ((d.sta fun s => { s with refWant := some (1 - a, 1) }).wr P.STA_REF_ANT 0 (1 - a), false)
    else (d, d.cf P.STA_REF_FAILOVER == 0)
  else (d, false)

/-- CRC-24Q of an RTCM 3 frame (PRESUMED: the polynomial is that of RTCM 10403.3). -/
def crc24 (m : Bytes) : Nat :=
  (m.foldl (fun (c : BitVec 24) (b : Byte) => (List.range 8).foldl (fun (c : BitVec 24) _ =>
    if c.getLsbD 23 then (c <<< 1) ^^^ 0x864CFB#24 else c <<< 1) (c ^^^ ((b.setWidth 24) <<< (16 : Nat)))) 0#24).toNat

/-- A complete RTCM 3 frame (R118). -/
def rtcmFrame (no : Nat) (data : Bytes) : Bytes :=
  let c := (Config.rtcmContent no data).take 1023
  let h := [0xD3#8] ++ be 2 c.length ++ c
  h ++ be 3 (crc24 h)

/-- MSM message number of a system for a type 4 to 7, and the instance of `STA.MSM_TYPE`, in the system order of Table 4.8: GPS,
GLONASS, Galileo, SBAS, QZSS, BeiDou, NavIC. -/
def msmSystems : List (Nat × Nat) := [(0, 1070), (1, 1080), (2, 1090), (6, 1100), (4, 1110), (3, 1120), (5, 1130)]

/-- Observables of one system split by satellite into messages of at most 64 cells (R119). -/
def splitCells (l : List Obs) : List (List Obs) :=
  let sats := (l.map (·.sat)).eraseDups
  let (done, cur) := sats.foldl (fun (acc : List (List Obs) × List Obs) n =>
    let mine := l.filter (·.sat == n)
    if 64 < acc.2.length + mine.length && !acc.2.isEmpty then (acc.1 ++ [acc.2], mine) else (acc.1, acc.2 ++ mine)) ([], [])
  if cur.isEmpty then done else done ++ [cur]

/-- The position of the reference antenna as the 1005/1006 messages carry it. -/
def Dev.arpData (d : Dev) : Bytes :=
  (([0, 1, 2].flatMap fun i => le 8 (d.cf P.STA_POS_ECEF i)) ++ le 1 d.com.sta.ref ++
   ([0, 1, 2].flatMap fun i => le 4 (d.cf P.STA_AB_VEC i)) ++ le 2 (d.cf P.STA_ARP_HEIGHT) ++ le 2 (d.cf P.STA_RTCM_ID))

/-- R118, R119: the RTCM frames of an epoch, in order. -/
def Dev.rtcmFrames (d : Dev) (stamp : Nat) (corr : List Obs) : List Bytes × Dev :=
  let st := d.rd P.STA_STATE
  let at_ (hz : Nat) : Bool := hz != 0 && stamp % (sec / hz) == 0
  let msm := if (st = 3 || st = 4) && at_ (d.cf P.STA_RTCM_RATE) then
      (mapFrom (fun i (x : Nat × Nat) => (i, x)) 0 msmSystems).flatMap fun (i, sys, no) =>
        let ty := d.cf P.STA_MSM_TYPE i
        let mine := splitCells (corr.filter (·.sys == sys))
        if ty = 0 then [] else mapFrom (fun j l =>
          rtcmFrame (no + ty) (le 1 (bit (j + 1 != mine.length)) ++ le 8 (stamp64 stamp) ++ (l.flatMap Obs.bytes))) 0 mine
    else []
  let due := st != 0 && (d.com.sta.arpAt + d.cf P.STA_RTCM_ARP_S * sec ≤ stamp || (d.com.sta.arpNow && !msm.isEmpty))
  let arp := if due && st != 2 then [rtcmFrame (if d.cf P.STA_ARP_HEIGHT = 0 then 1005 else 1006) d.arpData] else []
  let desc := if due then [rtcmFrame 1033 (d.wire P.STA_ANT_DESC d.com.sta.ref ++ d.wire P.STA_ANT_SERIAL d.com.sta.ref ++
      le 1 (d.cf P.STA_ANT_SETUP) ++ ascii "SKT-7140" ++ ascii "5.2" ++ Config.identity P.SYS_SERIAL 0)] else []
  let glo := if due && st != 2 && [4, 5, 6].any (fun i => d.cf P.GNS_SIG_EN i == 1) then [rtcmFrame 1230 [1#8]] else []
  let d1 := if due then d.sta fun s => { s with arpAt := stamp, arpNow := false } else d
  (msm ++ arp ++ desc ++ glo, d1)

/-- RTCM out: on stream kind 0x01 and, at the epochs of `STA.RTCM_AIR_RATE`, on air as message 0x38 (R118, R251). -/
def Dev.sendRtcm (d : Dev) (stamp : Nat) (corr : List Obs) : Dev :=
  let (fs, d1) := d.rtcmFrames stamp corr
  let d2 := fs.foldl (fun d f => d.stream 1 f) d1
  let hz := d2.cf P.STA_RTCM_AIR_RATE
  if hz != 0 && stamp % (sec / hz) = 0 && !fs.isEmpty then d2.toAll 0x38 ([0x38#8, 0#8] ++ fs.flatten) else d2

/-- Observables on stream kind 0x04 (R106). -/
def Dev.streamObs (d : Dev) (k stamp ant : Nat) (l : List Obs) : Dev :=
  let recs := l.map Obs.bytes
  let n := (recs.length + 39) / 40
  (List.range n).foldl (fun d i =>
    let part := (recs.drop (40 * i)).take 40
    d.stream 4 (le 8 (stamp64 stamp) ++ le 4 (u32 k) ++ le 1 ant ++ le 1 (d.rd P.STA_STATE) ++ le 1 part.length ++
      le 1 (bit (i + 1 != n)) ++ part.flatten)) d

/-- R109: the system offsets, shown and streamed. -/
def Dev.showIsto (d : Dev) (k stamp ant : Nat) (key : Bytes) (l : List Obs) : Dev :=
  let systems := [0, 1, 2, 3, 4, 5]
  let valid := systems.filter fun i => 4 ≤ (l.filter fun o => o.sys == i && o.eligible).length
  let d1 := valid.foldl (fun d i => d.wrS P.STA_ISTO i (satS 64 (Config.stationSolve key (10 + i)))) d
  d1.stream 4 (le 8 (stamp64 stamp) ++ le 4 (u32 k) ++ le 1 ant ++ le 1 (d1.rd P.STA_STATE) ++ le 1 1 ++ le 1 0 ++
    le 1 0xFF ++ le 1 (maskOf valid) ++ zeros 6 ++ (systems.flatMap fun i => le 8 (d1.rd P.STA_ISTO i)))

/-- The trip causes of an epoch (Table 4.7, R102) with the band, failing and eligible counts of notice 0x1281. -/
def Dev.tripsOf (d : Dev) (stamp : Nat) (key : Bytes) (obs : List Obs) (ab : List (Nat × Nat × Nat)) (refBad : Bool) :
    List (Nat × Nat × Nat × Nat) :=
  let st := d.rd P.STA_STATE
  let v (i : Nat) : Int := Config.stationSolve key i
  let c5 := st != 2 && (decide ((d.cf P.STA_MOVE_H : Int) < v 0) || decide ((d.cf P.STA_MOVE_V : Int) < v 1) ||
    decide ((d.cf P.STA_VEL_LIM : Int) < v 2))
  let c6 := match d.com.sta.lastIsto with
    | some (t0, x) => decide (((d.cf P.STA_CLK_LIM * 1000 + d.cf P.TIM_OSC_FSTAB * (stamp - t0) / sec : Nat) : Int)
        < ((v 10 - x - v 7).natAbs : Int))
    | none => false
  let sus := (obs.filter (·.has 5)).length
  let c8bands := [0, 1, 2].filterMap fun b =>
    let l := obs.filter fun o => (nth signals o.sig).band == b
    let low := (l.filter (·.has 10)).length
    if l.length != 0 && l.length ≤ 2 * low then some (8, b, low, l.length) else none
  (if c5 then [(5, 0xFF, 0, obs.length)] else []) ++ (if c6 then [(6, 0xFF, 0, obs.length)] else []) ++
  (ab.map fun (b, f, n) => (7, b, f, n)) ++ c8bands ++
  (if obs.length * d.cf P.STA_SUSPECT_FRAC < 100 * sus then [(8, 0xFF, sus, obs.length)] else []) ++
  (if refBad then [(9, 0xFF, 0, 0)] else [])

/-- R112: trips that persist: RECOVERY from NORMAL, clearance reset, survey restarted. `whole` says that every check of the epoch was
made: then a cause that is absent starts again from 0. -/
def Dev.applyTrips (d : Dev) (stamp : Nat) (whole : Bool) (trips : List (Nat × Nat × Nat × Nat)) : Dev :=
  let runs := mapFrom (fun c n => if trips.any (·.1 == c) then n + 1 else if whole then 0 else n) 0 d.com.sta.runs
  let d1 := d.sta fun s => { s with runs := runs, clear := if trips.isEmpty then s.clear else 0 }
  let lim := d1.cf P.STA_TRIP_EPOCHS
  match trips.find? fun t => lim ≤ nth runs t.1 with
  | none => d1
  | some (c, b, f, n) =>
    match d1.rd P.STA_STATE with
    | 3 =>
      ((((d1.staState 4).inc P.STA_RECOVERIES).inc P.STA_TRIPS c).noticeT 0x1281 (le 1 c ++ le 1 b ++ le 2 f ++ le 2 n))
    | 2 => d1.sta fun s => { s with surveyFrom := some stamp }
    | _ => d1

/-- R99: the survey of this epoch. -/
def Dev.surveyStep (d : Dev) (stamp : Nat) (key : Bytes) : Dev :=
  let from_ := match d.com.sta.surveyFrom with | some f => f | none => stamp
  let acc := (Config.stationSolve key 3).toNat
  if from_ + d.cf P.STA_SURVEY_MIN * sec ≤ stamp && acc ≤ d.cf P.STA_SURVEY_ACC then
    let d1 := [0, 1, 2].foldl (fun d i => d.wrS P.STA_POS_ECEF i (satS 64 (Config.stationSolve key (4 + i)))) d
    let d2 := ((d1.wr P.STA_POS_ACC 0 (min acc 0xFFFFFFFF)).wr P.STA_POS_MODE 0 2).notice 0x1283
      ((([0, 1, 2].flatMap fun i => d1.wire P.STA_POS_ECEF i)) ++ le 4 acc ++ le 4 ((stamp - from_) / sec))
    (d2.sta fun s => { s with surveyFrom := none }).staState 1
  else d.sta fun s => { s with surveyFrom := some from_ }

/-- R116: the clearance count of an epoch of the reference antenna. -/
def Dev.clearStep (d : Dev) (jams : List Nat) (trip : Bool) (obs : List Obs) : Dev :=
  let st := d.rd P.STA_STATE
  if st = 1 || st = 4 then
    let el := obs.filter Obs.eligible
    let sats := (el.map fun o => (o.sys, o.sat)).eraseDups
    let ready := d.cf P.STA_READY_SATS ≤ sats.length && 2 ≤ ((sats.map (·.1)).eraseDups).length
    let ok := !trip && jams.all (· ≤ d.cf P.STA_JAM_CLEAR) && d.timeSet && (st != 1 || ready)
    let n := if ok then d.com.sta.clear + 1 else 0
    let need := d.cf P.STA_CLEAR_TIME * d.cf P.GNS_EPOCH_RATE
    if ok && need ≤ n then d.staState 3 else d.sta fun s => { s with clear := n }
  else d

/-- The chain indicators of an epoch input. -/
def epochJams (x : Input) : List Nat := [0, 1, 2].map fun b => fld x.payload (5 + 4 * b) 1

/-- One epoch of the reference antenna processed (R98 to R119), with the other antenna's input for the same stamp where there is one. -/
def Dev.refEpoch (d0 : Dev) (k : Nat) (x : Input) (other : Option Input) (refBad : Bool) : Dev :=
  let (raw, tracks) := d0.formEpoch x
  let (checkRaw, checkTracks) := match other with | some y => d0.formEpoch y | none => ([], [])
  let stamp := x.stamp
  let obs0 := raw.map (d0.toArp stamp)
  let check := checkRaw.map (d0.toArp stamp)
  let st := d0.rd P.STA_STATE
  let judged := st = 1 || st = 2 || st = 3 || st = 4
  let key := obs0.flatMap Obs.bytes
  let a := if d0.com.sta.ref = 0 then obs0 else check
  let b := if d0.com.sta.ref = 0 then check else obs0
  let ab := [0, 1, 2].filterMap fun band =>
    match d0.abCheck stamp band a b with
    | some (true, f, n) => some (band, f, n)
    | _ => none
  let spoof (l : List Obs) : List Obs := l.map fun o => if ab.any (·.1 == (nth signals o.sig).band) then o.flag 8 else o
  let obs := if judged then spoof (d0.residualSuspects key (d0.rateSuspects obs0)) else obs0
  let d1 := d0.sta fun s => { s with
    tracks := tracks ++ checkTracks ++ s.tracks.filter (fun t => !((tracks ++ checkTracks).any fun u => u.sigid == t.sigid) && t.at_ + 10 * sec ≥ stamp),
    held := ((stamp, d0.com.sta.ref, obs) :: s.held).take 4 }
  let trips := if judged then d1.tripsOf stamp key obs ab refBad else []
  let d2 := (d1.showIsto k stamp d1.com.sta.ref key obs).sta fun s => { s with
    lastIsto := some (stamp, Config.stationSolve key 10) }
  let d3 := if judged then d2.applyTrips stamp true trips else d2
  let jams := epochJams x ++ (match other with | some y => epochJams y | none => [])
  let d4 := match d3.rd P.STA_STATE with
    | 0 => if d3.cf P.GNS_RUN = 1 then d3.staState 5 else d3
    | 5 => if d3.gns.testDone then
        if d3.cf P.STA_POS_MODE = 1 then (d3.staState 2).sta fun s => { s with surveyFrom := some stamp } else d3.staState 1
      else d3
    | 2 => d3.surveyStep stamp key
    | _ => d3.clearStep jams (!trips.isEmpty) obs
  let stNow := d4.rd P.STA_STATE
  let corr := if stNow = 3 || stNow = 4 then obs.filter Obs.eligible else []
  let d5 := d4.sta fun s => { s with refData := (stamp, corr) :: s.refData.filter fun e => stamp ≤ e.1 + sec }
  let shown := d5.shownObs raw obs
  let d6 := (d5.streamObs k stamp d5.com.sta.ref shown)
  let d7 := match other with | some y => d6.streamObs k y.stamp (1 - d6.com.sta.ref) (d6.shownObs checkRaw (spoof check)) | none => d6
  d7.sendRtcm stamp (if stNow = 3 || stNow = 4 then shown.filter Obs.eligible else [])

/-- R105: a check input whose reference epoch was processed in an earlier cycle: the A/B check alone. -/
def Dev.lateCheck (d : Dev) (k : Nat) (x : Input) : Dev :=
  let (raw, tracks) := d.formEpoch x
  let check := raw.map (d.toArp x.stamp)
  let d0 := (d.sta fun s => { s with tracks := tracks ++ s.tracks.filter fun t => !(tracks.any fun u => u.sigid == t.sigid) }).streamObs k
    x.stamp (fld x.payload 0 1) (d.shownObs raw check)
  match d0.com.sta.held.find? (·.1 == x.stamp) with
  | none => d0.inc P.STA_AB_UNPAIRED
  | some (_, ref, obs) =>
    let a := if ref = 0 then obs else check
    let b := if ref = 0 then check else obs
    let ab := [0, 1, 2].filterMap fun band =>
      match d0.abCheck x.stamp band a b with
      | some (true, f, n) => some (7, band, f, n)
      | _ => none
    if ab.isEmpty then d0
    else d0.applyTrips x.stamp false ab

/-- The `station_epoch(k)` stage (R27, R104, R105): the class 0x01 inputs of a cycle, on-time first, each in key order. -/
def Dev.stationEpoch (d0 : Dev) (k : Nat) (xs : List Input) : Dev :=
  let d := if d0.cf P.GNS_RUN = 0 || (d0.cf P.GNS_ANT_EN 0 = 0 && d0.cf P.GNS_ANT_EN 1 = 0) then d0.staState 0 else d0
  let aged (x : Input) : Bool := x.late && 200 * ms ≤ (k + 1) * cycleNs - x.stamp
  let live := xs.filter fun x => !aged x
  let d1 := d.incBy P.STA_LATE_DROP 0 (xs.filter aged).length
  (live.map (·.stamp)).eraseDups.foldl (fun d stamp =>
    let d1 := d.refMove
    let (d2, refBad) := d1.refWatch
    let mine := live.filter (·.stamp == stamp)
    let ref := mine.find? fun x => fld x.payload 0 1 == d2.com.sta.ref
    let other := mine.find? fun x => fld x.payload 0 1 != d2.com.sta.ref
    match ref, other with
    | some x, o => d2.refEpoch k x o refBad
    | none, some y =>
      let d3 := d2.lateCheck k y
      if refBad then d3.applyTrips stamp false [(9, 0xFF, 0, 0)] else d3
    | none, none => d2) d1

end Sys2Proof.Machine
end

