-- ==== Sys2Proof/Machine/Rtk.lean ====
section
/-!
DEFINITION. Central RTK: modes and load, reports, matching to the station, fix states, the Chisel's decisions, solution records
(Chapter 5: R122 to R151).  The filter's numerics are constants of Config (R133 leaves them to the Workbench model).
-/
namespace Sys2Proof.Machine
open Sys2Proof

/-- Load units of a CENTRAL machine at a rate (R123). -/
def loadUnits (rate : Nat) : Nat := match rate with | 5 => 1 | 10 => 2 | 20 => 4 | _ => 0

/-- Machine numbers. -/
def machines : List Nat := (List.range 96).map (· + 1)

/-- R122, R123: whether machine `n` may take a mode and rate, judged on the values last accepted. -/
def Dev.rtkFits (d : Dev) (n mode rate : Nat) : Bool :=
  let central := machines.filter fun i => if i = n then mode == 1 else d.rd P.RTK_MODE i == 1
  let load := central.foldl (fun s i => s + loadUnits (if i = n then rate else d.rd P.RTK_RATE i)) 0
  (mode == 0 || rate ≤ d.rd P.GNS_EPOCH_RATE) && central.length ≤ 64 && load ≤ 128

/-- `RTK.LOAD` and `RTK.ACTIVE` of the modes and rates in force. -/
def Dev.showLoad (d : Dev) : Dev :=
  let central := machines.filter fun i => d.cf P.RTK_MODE i == 1
  (d.wr P.RTK_LOAD 0 (central.foldl (fun s i => s + loadUnits (d.cf P.RTK_RATE i)) 0)).wr P.RTK_ACTIVE 0 central.length

/-- The committed RTK state changed. -/
def Dev.rtk (d : Dev) (f : RtkCom → RtkCom) : Dev := { d with com := { d.com with rtk := f d.com.rtk } }

/-- Machine `n`'s filter. -/
def Dev.filter? (d : Dev) (n : Nat) : Option Filter := d.com.rtk.filters.find? (·.n == n)

/-- A filter put in its place. -/
def Dev.putFilter (d : Dev) (x : Filter) : Dev :=
  d.rtk fun r => { r with filters := insertBy (fun a b => decide (a.n < b.n)) x (r.filters.filter (·.n != x.n)) }

/-- A filter reset (R122, R144, R150). -/
def Dev.resetFilter (d : Dev) (n cause k : Nat) : Dev :=
  let d1 := d.rtk fun r => { r with filters := r.filters.filter (·.n != n) }
  (((d1.inc P.RTK_RESETS n).wr P.RTK_TTF n 0xFFFFFFFF).notice 0x1881 (le 1 n ++ le 1 cause ++ le 4 (u32 k)))

/-- R122: filters of machines whose mode or rate in force has changed are reset; R43: those that a cold start emptied. -/
def Dev.rtkConfig (d : Dev) (k : Nat) : Dev :=
  let again (d : Dev) (n : Nat) : Dev :=
    (d.resetFilter n 4 k).putFilter { n := n, mode := d.cf P.RTK_MODE n, rate := d.cf P.RTK_RATE n, moved := d.com.sta.moved }
  let d0 := (d.com.rtk.cold.foldl again d).rtk fun r => { r with cold := [] }
  let d1 := machines.foldl (fun d n =>
    let m := d.cf P.RTK_MODE n; let r := d.cf P.RTK_RATE n
    match d.filter? n with
    | some x =>
      if x.mode = m && x.rate = r then d
      else
        let d1 := d.resetFilter n 1 k
        if m = 0 then d1 else d1.putFilter { n := n, mode := m, rate := r, moved := d1.com.sta.moved }
    | none =>
      if m = 0 then d else (d.resetFilter n 1 k).putFilter { n := n, mode := m, rate := r, moved := d.com.sta.moved }) d0
  d1.showLoad

/-! ### Reports -/

/-- First signal and number of signals of a system (Table 3.3). -/
def sysSignals : Nat → Nat × Nat
  | 0 => (0, 4) | 1 => (4, 3) | 2 => (7, 4) | 3 => (11, 5) | 4 => (16, 5) | 5 => (21, 1) | 6 => (22, 2) | _ => (0, 0)

/-- Hub time of a report's epoch (R126): GPS week and time of week. -/
def reportEpoch (p : Bytes) (weekAt : Nat) : Nat := (fld p weekAt 2 * weekMs + fld p 4 4) * ms + 19 * sec

/-- The grid and epoch rules of R126, rule 6 then 7; 0 when both hold. -/
def epochRule (p : Bytes) (rate stamp : Nat) : Nat :=
  let tow := fld p 4 4
  let e := reportEpoch p 8
  if tow % (1000 / rate) != 0 || weekMs ≤ tow then 6
  else if stamp < e || e + 500 * ms ≤ stamp then 7
  else 0

/-- The first rule of R126 that an observation report fails; 0 when it passes. -/
def obsReportRule (p : Bytes) (n rate stamp : Nat) : Nat :=
  let nsat := fld p 2 1; let nsig := fld p 3 1
  let sat (i : Nat) : Nat := fld p (12 + 4 * i) 4
  let sats := (List.range nsat).map sat
  let mask (v : Nat) : Nat := v / 2 ^ 18 % 32
  if p.length != 12 + 4 * nsat + 6 * nsig || nsat = 0 || nsig = 0 || 40 < nsat || 96 < nsig then 1
  else if sats.foldl (fun s v => s + (setBits 5 (mask v)).length) 0 != nsig then 2
  else if sats.any fun v => v / 2 ^ 29 == 7 || (setBits 5 (mask v)).any (fun b => (sysSignals (v / 2 ^ 29)).2 ≤ b) then 3
  else if !(List.zip sats (sats.drop 1)).all (fun (a, b) => a / 2 ^ 23 < b / 2 ^ 23) then 4
  else if fld p 1 1 != n then 5
  else if epochRule p rate stamp != 0 then epochRule p rate stamp
  else if (1000000 : Int) < ((Config.clockOffset p).natAbs : Int) then 8
  else 0

/-- The first rule that a position report fails (R127). -/
def posReportRule (p : Bytes) (n rate stamp : Nat) : Nat :=
  if p.length != 48 then 1 else if fld p 1 1 != n then 5 else epochRule p rate stamp

/-! ### The Chisel -/

/-- μ of Table 5.6 in thousandths. -/
def muMilli (m pf : Nat) : Nat :=
  let row : List Nat := if m ≤ 5 then [120, 200, 300] else if m ≤ 10 then [220, 330, 450] else if m ≤ 20 then [320, 450, 580]
    else if m ≤ 40 then [420, 550, 680] else [500, 650, 760]
  row.getD pf 0

/-- `mu` of R140, UQ0.16. -/
def mu (m pf : Nat) : Nat := muMilli m pf * 65536 / 1000

/-- Outcome of a request (R139): rejected, aborted, or accepted with the number of ambiguities dropped. -/
inductive Resolved where
  | rejected (f : Nat)
  | aborted
  | accepted (f : Nat)
  deriving DecidableEq, Repr

/-- The loop of `chisel_resolve` over the dropped ambiguities. -/
def resolveFrom (token n pf : Nat) : List Nat → Resolved
  | [] => .rejected 0
  | f :: fs =>
    if 400000 < Config.search token f 0 then .aborted
    else if Config.search token f 1 * 65536 ≤ mu (n - f) pf * Config.search token f 2 then .accepted f
    else match fs with
      | [] => .rejected f
      | fs => resolveFrom token n pf fs

/-- Procedure `chisel_resolve` (R139). -/
def chiselResolve (token n parMin pf : Nat) : Resolved := resolveFrom token n pf (List.range (n + 1 - parMin))

/-- CHISEL_UNIT_FAULT (R141): unit `u` is out of service until the next cold start; requests go on with the others. -/
def execChiselUnitFault (t u : Nat) (s : State) : Host.Outcome State Fault Refusal := run s fun d0 =>
  let d := d0.at t
  if u < 4 && !d.chiselOut.contains u then
    { d with chiselOut := u :: d.chiselOut }.faultLog 3 (location 3 0 u .slice) []
  else d

/-! ### Fix states and records -/

/-- Procedure `fix_state` (R142). -/
def Dev.fixState (d : Dev) (x : Filter) (token ambs : Nat) (acc : Option (List (Nat × Int))) (longbase : Bool) (now_ : Nat) : Nat :=
  let v (i : Nat) : Nat := (Config.filterValue token i).toNat
  let st := d.rd P.STA_STATE
  if (st != 3 && st != 4) || v 10 < d.cf P.RTK_MIN_SATS then (if 4 ≤ v 11 then 1 else 0)
  else if ambs = 0 || longbase then 2
  else
    let agree (kept : List (Nat × Int)) : Bool := x.kept.all fun e => kept.contains e
    match acc with
    | some kept =>
      if x.fix = 4 then 3
      else if x.fix = 3 && agree kept then 3
      else if x.accepted && kept == x.kept then 3
      else 2
    | none =>
      if (x.fix = 3 || x.fix = 4) && v 13 ≤ d.cf P.RTK_HOLD_RES && now_ ≤ x.acceptAt + d.cf P.RTK_HOLD_S * sec then 4 else 2

/-- Arctangents of R147: round(atan(2^-i) / π · 2^31). -/
def atanQ31 : List Int := [
  536870912, 316933406, 167458907, 85004756, 42667331, 21354465, 10679838, 5340245, 2670163, 1335087, 667544, 333772, 166886, 83443,
  41722, 20861, 10430, 5215, 2608, 1304, 652, 326, 163, 81, 41, 20, 10, 5, 3, 1, 1]

/-- Procedure `course_q31` (R147). -/
def courseQ31 (ve vn prev : Int) (min_ : Nat) : Int :=
  if ve * ve + vn * vn < (min_ * min_ : Nat) then prev
  else
    let start : Int × Int × Int := if vn < 0 then (-vn, -ve, 2 ^ 31) else (vn, ve, 0)
    let r := (mapFrom (fun i t => (i, t)) 0 atanQ31).foldl (fun (s : Int × Int × Int) (it : Nat × Int) =>
      let (x, y, a) := s
      if 0 < y then (x + y / 2 ^ it.1, y - x / 2 ^ it.1, a + it.2) else (x - y / 2 ^ it.1, y + x / 2 ^ it.1, a - it.2)) start
    toS 32 (ofS 32 r.2.2)

/-- A vector rotated by the Q2.30 rows of a matrix, rounded (R146). -/
def rotate (r v : List Int) : List Int :=
  (List.range 3).map fun i => ((List.range 3).foldl (fun s j => s + nth r (3 * i + j) * nth v j) 0 + 2 ^ 29) / 2 ^ 30

/-- Distance between two points in mm, as metres. -/
def distM (a b : List Int) : Nat :=
  isqrt (((List.zipWith (fun x y => (x - y) * (x - y)) a b).foldl (· + ·) 0).toNat) / 1000

/-- The station position: antenna A, or zero when none is held. -/
def Dev.stationPos (d : Dev) : List Int := [0, 1, 2].map fun i => d.cfS P.STA_POS_ECEF i

/-- The baseline of a position; 0 while the station holds no position. -/
def Dev.baseline (d : Dev) (ecef : List Int) : Nat := if d.stationPos.all (· == 0) then 0 else distM ecef d.stationPos

/-- What a solution record is made from. -/
structure Solved where
  fix : Nat := 0
  flags : Nat := 0
  epoch : Nat := 0
  ecef : List Int := [0, 0, 0]
  vel : List Int := [0, 0, 0]
  sig : List Nat := [0, 0, 0]
  rho : Int := 0
  nsat : Nat := 0
  nfix : Nat := 0
  namb : Nat := 0
  deriving DecidableEq, Repr, Inhabited

/-- The solution record (Table 5.7) with the course it leaves. `vel` is already in the field frame for a position report. -/
def Dev.solution (d : Dev) (k n : Nat) (x : Filter) (s : Solved) (posrep : Bool) : Bytes × Int :=
  let (field, vel, nofield) := match d.com.frame with
    | some (o, r) => (rotate r (List.zipWith (· - ·) s.ecef o), (if posrep then s.vel else rotate r s.vel), false)
    | none => ([0, 0, 0], [0, 0, 0], true)
  let course := if nofield then 0 else courseQ31 (nth vel 0) (nth vel 1) x.course (d.cf P.RTK_COURSE_MIN)
  let flags := setBit s.flags 4 nofield
  let age := (d.commitAt k + 12 * ms - s.epoch) / ms
  (le 1 n ++ le 1 s.fix ++ le 2 flags ++ le 4 (u32 k) ++ le 8 (stamp64 s.epoch) ++ (s.ecef.flatMap fun z => le 8 (ofS 64 z)) ++
    (field.flatMap fun z => le 4 (ofS 32 z)) ++ (vel.flatMap fun z => le 4 (ofS 32 z)) ++ le 4 (ofS 32 course) ++
    (s.sig.flatMap fun v => le 2 (min v 65535)) ++ le 1 (ofS 8 s.rho) ++ le 1 s.nsat ++ le 1 s.nfix ++ le 1 s.namb ++
    le 2 (min age 65535), course)

/-- The result of one processed report: filter, record parts. -/
def Dev.processPos (d : Dev) (x : Filter) (p : Bytes) (e : Nat) : Filter × Solved :=
  let ecef := [0, 1, 2].map fun i => fldS p (12 + 8 * i) 8
  let long := d.cf P.RTK_BASE_MAX < d.baseline ecef
  let fix0 := if 3 < fld p 2 1 then 0 else fld p 2 1
  let fix := if long && fix0 = 3 then 2 else fix0
  ({ x with hist := true, last := e, first := if x.hist then x.first else e },
   { fix := fix, flags := 2 + 64 * bit long, epoch := e, ecef := ecef,
     vel := [0, 1, 2].map fun i => fldS p (36 + 2 * i) 2, sig := [fld p 42 2, fld p 42 2, fld p 44 2] })

/-- The configuration that the filter's models read (R133, R134), with the station position. -/
def Dev.filterConfig (d : Dev) : Bytes :=
  ([P.RTK_ELEV_MASK, P.RTK_CODE_SD, P.RTK_PHASE_SD, P.RTK_ACC_H, P.RTK_ACC_V, P.RTK_IONO_RW].flatMap fun id => le 2 (d.cf id)) ++
    [0, 1, 2].flatMap fun i => le 8 (d.cf P.STA_POS_ECEF i)

/-- A CENTRAL report stepped through the filter (R133 to R143). -/
def Dev.processObs (d : Dev) (x : Filter) (p : Bytes) (e : Nat) (ref : List Obs) : Dev × Filter × Solved :=
  let changed := x.hist && x.moved != d.com.sta.moved
  let token := Config.filterStep (if x.hist then x.token else 0) (p ++ [BitVec.ofNat 8 (bit changed)] ++ d.filterConfig ++ ref.flatMap Obs.bytes)
  let v (i : Nat) : Int := Config.filterValue token i
  let ambs := (v 12).toNat
  let parMin := d.cf P.RTK_PAR_MIN
  let pf := d.cf P.RTK_PF
  let asked := parMin ≤ ambs && ambs != 0
  let r := if asked then chiselResolve token ambs parMin pf else .rejected 0
  let d1 := if asked then
      let d1 := d.inc P.RTK_SEARCHES
      match r with
      | .aborted => d1.inc P.RTK_SEARCH_ABORT
      | .rejected _ => d1.inc P.RTK_REJECTED
      | .accepted _ => d1
    else d
  let tried := match r with | .accepted f => f | .rejected f => f | .aborted => 0
  let d2 := if asked && r != .aborted then
      d1.wr P.RTK_RATIO x.n (min 65535 (Config.search token tried 1 * 65536 / (max 1 (Config.search token tried 2))))
    else d1
  let kept := match r with | .accepted f => if asked then some (Config.kept token f) else none | _ => none
  let ecef := [v 0, v 1, v 2]
  let base := d2.baseline ecef
  let long := d2.cf P.RTK_BASE_MAX < base
  let x0 := if changed then { x with kept := [], accepted := false, fix := if 2 < x.fix then 2 else x.fix } else x
  let fix := d2.fixState x0 token ambs kept long e
  let sE := isqrt (v 6).toNat; let sN := isqrt (v 7).toNat; let sU := isqrt (v 8).toNat
  let partial_ := match r with | .accepted f => f != 0 | _ => false
  let flags := 4 * bit changed + 8 * bit (partial_ && 3 ≤ fix) + 32 * bit (bitOf (fld p 10 1) 1) + 64 * bit long
  let x1 : Filter := { x0 with
    token := token, hist := true, last := e, first := if x.hist then x.first else e, moved := d2.com.sta.moved,
    accepted := kept.isSome, kept := (match kept with | some l => l | none => x0.kept),
    acceptAt := if kept.isSome then e else x0.acceptAt }
  let nfix := if 3 ≤ fix then (match kept with | some l => l.length | none => x0.kept.length) else 0
  (d2, x1, { fix := fix, flags := flags, epoch := e, ecef := ecef, vel := [v 3, v 4, v 5], sig := [sE, sN, sU]
             rho := if sE = 0 || sN = 0 then 0 else Int.tdiv (127 * v 9) (sE * sN : Nat)
             nsat := (v 10).toNat % 256, nfix := nfix % 256, namb := ambs % 256 })

/-- What one machine's reports of a cycle leave: the last record made, whether a LATE report took part. -/
structure RtkRun where
  solved : Option Solved := none
  late : Bool := false
  deriving Inhabited

/-- R129: one report of machine `n` in the stage of cycle `j`. -/
def Dev.oneReport (d : Dev) (j n : Nat) (acc : RtkRun) (x : Input) : Dev × RtkRun :=
  let e := reportEpoch x.payload 8
  match d.filter? n with
  | none => (d, acc)
  | some f0 =>
    if 200 * ms ≤ (j + 1) * cycleNs - x.stamp then (d.inc (if x.late then P.RTK_LATE_DROP else P.RTK_NO_REF) n, acc)
    else if f0.hist && e ≤ f0.last then (d.inc P.RTK_STALE n, acc)
    else
      let ref := d.com.sta.refData.find? (·.1 == e)
      let gone := d.com.sta.refData.any fun r => e + sec < r.1
      if f0.mode = 1 && ref.isNone then
        if gone then (d.inc P.RTK_NO_REF n, acc)
        else (d.putFilter { f0 with held := f0.held ++ [x] }, acc)
      else
        let d1 := if f0.hist && f0.last + 30 * sec ≤ e then
            (d.resetFilter n 2 j).putFilter { n := n, mode := f0.mode, rate := f0.rate, moved := d.com.sta.moved, held := f0.held }
          else d
        let f := match d1.filter? n with | some f => f | none => f0
        let d2 := (d1.inc P.RTK_REPORTS n).when x.late (·.inc P.RTK_LATE_USED n)
        let (d3, f1, sv) := if f.mode = 2 then (let r := d2.processPos f x.payload e; (d2, r.1, r.2))
          else d2.processObs f x.payload e (match ref with | some r => r.2 | none => [])
        let d4 := if f.hist && f.mode = 1 && f.moved != d3.com.sta.moved then
            (d3.inc P.RTK_RESETS n).notice 0x1881 (le 1 n ++ le 1 3 ++ le 4 (u32 j))
          else d3
        let d5 := if sv.fix != f.fix then
            d4.notice 0x1880 (le 1 n ++ le 1 f.fix ++ le 1 sv.fix ++ le 1 sv.nfix ++ le 8 (stamp64 e) ++ le 4 (u32 j))
          else d4
        let d6 := ((d5.wr P.RTK_FIX n sv.fix).wr P.RTK_LAST_EPOCH n (stamp64 e)).wr P.RTK_BASELINE n (min (d5.baseline sv.ecef) 0xFFFFFFFF)
        let d7 := if sv.fix = 3 && d6.rd P.RTK_TTF n = 0xFFFFFFFF then
            d6.wr P.RTK_TTF n (min ((e - f1.first) / ms) 0xFFFFFFFE) else d6
        (d7.putFilter { f1 with fix := sv.fix }, { solved := some sv, late := acc.late || x.late })

/-- R131, R145, R148: the record of machine `n` committed, streamed and sent to the machine. -/
def Dev.commitSolution (d : Dev) (j n : Nat) (r : RtkRun) : Dev :=
  match r.solved, d.filter? n with
  | some sv, some f =>
    let reduced := d.rd P.STA_STATE == 4
    let sv1 := { sv with flags := sv.flags + bit r.late + 128 * bit reduced }
    let (rec_, course) := d.solution j n f sv1 (f.mode == 2)
    let d1 := (d.putFilter { f with course := course }).rtk fun c => { c with recs := c.recs ++ [(n, rec_)] }
    (d1.stream 2 rec_).toMachine n 0x33 ([0x33#8] ++ rec_)
  | _, _ => d

/-- R126 to R128: a class 0x02 report checked; accepted ones wait in their machine's filter. -/
def Dev.takeReport (d : Dev) (x : Input) : Dev :=
  let p := x.payload
  let n := fld p 1 1
  let type := fld p 0 1
  match d.filter? n with
  | none => if 1 ≤ n && n ≤ 96 then d.rtkBad n 0 p.length x.stamp else d
  | some f =>
    let rule := if f.mode = 1 && type = 0x31 then some (obsReportRule p n f.rate x.stamp)
      else if f.mode = 2 && type = 0x32 then some (posReportRule p n f.rate x.stamp) else none
    match rule with
    | some 0 => d.putFilter { f with held := f.held ++ [x] }
    | some r => d.rtkBad n r p.length x.stamp
    | none => d.rtkBad n 0 p.length x.stamp

/-- The `rtk(k)` stage (R27, R122, R129, R131): `xs` are the observation and position reports handed to it. -/
def Dev.rtkStage (d : Dev) (k : Nat) (xs : List Input) : Dev :=
  let d1 := (d.rtkConfig k).rtk fun r => { r with recs := [] }
  let d2 := xs.foldl Dev.takeReport d1
  machines.foldl (fun d n =>
    match d.filter? n with
    | none => d
    | some f =>
      if f.held.isEmpty then d
      else
        let key (x : Input) : List Nat := [reportEpoch x.payload 8, bit x.late, x.stamp, x.idx, x.seq]
        let sorted := sortBy (fun a b => lexLt (key a) (key b)) f.held
        let (d1, r) := sorted.foldl (fun (a : Dev × RtkRun) x => a.1.oneReport k n a.2 x) (d.putFilter { f with held := [] }, ({} : RtkRun))
        d1.commitSolution k n r) d2

end Sys2Proof.Machine
end

