-- ==== Sys2Proof/Machine/Metering.lean ====
section
/-!
DEFINITION. The Metering engine: blocks, scaling, pairing, the quantities of a cycle, gates and billing registers, saving and restoring
(Chapter 13: R336 to R350).
-/
namespace Sys2Proof.Machine
open Sys2Proof

/-- The committed metering state changed. -/
def Dev.mtrCom (d : Dev) (f : MtrCom → MtrCom) : Dev := { d with com := { d.com with mtr := f d.com.mtr } }

/-- Voltage and current channel of a phase of a bay (Table 13.2). -/
def Dev.bayChan (d : Dev) (b ph : Nat) : Nat × Nat :=
  let w := le 8 (d.cf P.MTR_BAY_CFG b)
  (fld w (2 + ph) 1, fld w (5 + ph) 1)

/-- Phases of a bay. -/
def Dev.bayPhases (d : Dev) (b : Nat) : Nat := d.cf P.MTR_BAY_CFG b % 256

/-- The bays, ascending. -/
def bays12 : List Nat := (List.range 12).map (· + 1)

/-- The bays that use a channel. -/
def Dev.baysOf (d : Dev) (c : Nat) : List Nat :=
  bays12.filter fun b => (List.range (d.bayPhases b)).any fun ph => let x := d.bayChan b ph; x.1 == c || x.2 == c

/-! ### Scaling -/

/-- Procedure `scale` (R338) on one code. -/
def scale (sensor : Nat) (offset : Int) (phase leak gain : Nat) (st : MtrChan) (code : Int) : MtrChan × Int :=
  let x := code - offset
  let y := x - ((phase : Int) * (x - st.xprev)).tdiv 256
  let coil := sensor == 2
  let h := st.h + y - st.yprev - st.h / 65536
  let i := st.i + h - st.i / 2 ^ leak
  let st1 := if coil then { st with h := h, i := i, yprev := y, xprev := x } else { st with xprev := x }
  (st1, toS 32 (ofS 32 (((if coil then i else y) * gain).tdiv 1000000)))

/-- Codes scaled in order. -/
def scaleAll (sensor : Nat) (offset : Int) (phase leak gain : Nat) : MtrChan → List Int → List Int → MtrChan × List Int
  | st, [], acc => (st, acc.reverse)
  | st, c :: cs, acc => let r := scale sensor offset phase leak gain st c; scaleAll sensor offset phase leak gain r.1 cs (r.2 :: acc)

/-- The codes of a block (Table 13.1). -/
def blockCodes (p : Bytes) : List Int := (List.range 40).map fun i => fldS p (16 + 4 * i) 4

/-- A block scaled on its channel's state. -/
def Dev.scaleBlock (d : Dev) (st : MtrChan) (p : Bytes) : MtrChan × List Int :=
  let c := fld p 0 1
  scaleAll (d.cf P.MTR_SENSOR c) (d.cfS P.MTR_OFFSET c) (d.cf P.MTR_PHASE c) (d.cf P.MTR_INT_LEAK) (d.cf P.MTR_GAIN c) st (blockCodes p) []

/-! ### Blocks -/

/-- The bytes of a block (Table 13.1). -/
def mtrBlock (c flags snum last : Nat) (codes : List Int) : Bytes :=
  le 1 c ++ le 1 flags ++ le 2 40 ++ le 4 (u32 snum) ++ le 8 (stamp64 last) ++ codes.flatMap fun z => le 4 (ofS 32 z)

/-- Samples before the origin (R350): a pair of blocks adds its energy to `MTR.PRE_ORIGIN` of the bays that use it. -/
def Dev.preOrigin (d : Dev) (p : Bytes) : Dev :=
  let c := fld p 0 1
  let x : MtrBlk := { c := c, snum := fld p 4 4, v := (d.scaleBlock {} p).2 }
  let d1 := { d with mtr := { d.mtr with pre := x :: d.mtr.pre.take 63 } }
  bays12.foldl (fun d b => (List.range (d.bayPhases b)).foldl (fun d ph =>
    let (v, i) := d.bayChan b ph
    let other := if v = c then some i else if i = c then some v else none
    match other.bind fun o => d.mtr.pre.find? fun y => y.c == o && y.snum == x.snum with
    | some y =>
      let e := ((List.zipWith (· * ·) x.v y.v).foldl (· + ·) 0).natAbs
      let acc := nth d.mtr.preAcc (b - 1) + e
      ({ d with mtr := { d.mtr with preAcc := d.mtr.preAcc.set (b - 1) acc } }).wr P.MTR_PRE_ORIGIN b (min (2 ^ 32 - 1) (acc / 28800000000))
    | none => d) d) d1

/-- R337: a metering channel delivers a block of 40 codes; `stamp` is that of its first sample, `last` of its last. -/
def execMtrBlock (t c stamp last snum : Nat) (codes : List Int) (s : State) : Host.Outcome State Fault Refusal := run s fun d0 =>
  let d := d0.at t
  if 16 ≤ c ∨ codes.length ≠ 40 ∨ (d.baysOf c).isEmpty then d
  else
    let full := codes.any fun z => decide (2 ^ 23 - 1 ≤ z) || decide (z ≤ -2 ^ 23)
    let p := mtrBlock c (bit full + 2 * bit (d.mtr.failed.contains c || d.mtr.failed.contains 16)) snum last codes
    let d1 := d.when (bitOf (d.cf P.MTR_WAVE_MASK) c) (·.stream 7 p)
    let d1 := codes.foldl (fun (d : Dev) z => d.trace 6 1 (le 1 c ++ le 3 0 ++ le 4 (ofS 32 z))) d1
    let d2 := if d.tooEarly stamp then d1.preOrigin p else d1
    let held := ((nth d2.chutes 11).waiting.filter fun x => x.cls == 5 && x.idx == c).length
    if 64 ≤ held then
      (({ d2 with mtr := { d2.mtr with lost := d2.mtr.lost ++ [c] } }).inc P.MTR_BLOCK_LOST c).noticeT 0x5081 (le 1 c ++ le 4 (u32 snum))
    else d2.offer 11 stamp 5 c p

/-- R364: a fault of Tile 10.0 (channel 16) or of one modulator. -/
def execMeteringFault (t c cause : Nat) (s : State) : Host.Outcome State Fault Refusal := run s fun d0 =>
  let d := d0.at t
  if 16 < c ∨ d.mtr.failed.contains c then d
  else
    let loc := if c = 16 then location 10 0 0 .tile else location 10 0 c .slice
    ({ d with mtr := { d.mtr with failed := d.mtr.failed ++ [c] } }).fault 0x5084 loc (le 1 cause)

/-- A block admitted to cycle `k` scaled and kept (R338, R340). -/
def Dev.takeBlock (k : Nat) (d : Dev) (x : Input) : Dev :=
  let c := fld x.payload 0 1
  let (st, v) := d.scaleBlock (nth d.com.mtr.chans c) x.payload
  let b : MtrBlk := { c := c, snum := fld x.payload 4 4, cycle := k, late := x.late, fault := bitOf (fld x.payload 1 1) 1, v := v }
  d.mtrCom fun m => { m with chans := m.chans.set c st, blocks := m.blocks ++ [b] }

/-! ### Quantities -/

/-- What a phase's pairs of a cycle give: samples, Σv², Σi², Σvi, Σc, positive-going crossings of the voltage (1/256 sample), the last sample, LATE and
FAULT, mean |P| of each pair. -/
structure PhaseSum where
  n : Nat := 0
  vv : Int := 0
  ii : Int := 0
  vi : Int := 0
  c : Int := 0
  cross : List Nat := []
  last : Int × Int := (0, 0)
  late : Bool := false
  fault : Bool := false
  peaks : List (Nat × Nat) := []
  deriving DecidableEq, Repr, Inhabited

/-- One sample of a pair (R340). -/
def PhaseSum.sample (s : PhaseSum) (no : Nat) (v i : Int) : PhaseSum :=
  let (pv, pi) := s.last
  let cross := if pv < 0 ∧ 0 ≤ v ∧ 0 < no then [256 * (no - 1) + (256 * (-pv)).toNat / (v - pv).toNat] else []
  { s with n := s.n + 1, vv := s.vv + v * v, ii := s.ii + i * i, vi := s.vi + v * i, c := s.c + (pv * i - v * pi)
           cross := s.cross ++ cross, last := (v, i) }

/-- The samples of one pair in order. -/
def PhaseSum.pair (s : PhaseSum) (a b : MtrBlk) : PhaseSum :=
  let r := (mapFrom (fun j x => (j, x)) 0 (List.zip a.v b.v)).foldl (fun (s : PhaseSum) x => s.sample (a.snum + x.1) x.2.1 x.2.2) s
  let p := (r.vi - s.vi).natAbs / 40 / 1000
  { r with late := s.late || a.late || b.late, fault := s.fault || a.fault || b.fault, peaks := s.peaks ++ [(a.snum, p)] }

/-- The pairs of a phase processed in cycle `k` (R340): equal sample numbers, the later block admitted to `k`; ascending sample number. -/
def phasePairs (k v i : Nat) (l : List MtrBlk) : List (MtrBlk × MtrBlk) :=
  let vs := l.filter (·.c == v)
  let ps := vs.filterMap fun a => (l.find? fun b => b.c == i && b.snum == a.snum).map fun b => (a, b)
  sortBy (fun a b => decide (a.1.snum < b.1.snum)) (ps.filter fun p => max p.1.cycle p.2.cycle == k)

/-- The sums of a phase in cycle `k`. -/
def Dev.phaseSum (d : Dev) (k b ph : Nat) : PhaseSum :=
  let (v, i) := d.bayChan b ph
  (phasePairs k v i d.com.mtr.blocks).foldl (fun s p => s.pair p.1 p.2) { last := nth (nth d.com.mtr.bays (b - 1)).last ph }

/-- Mean period of crossings in 1/256 sample, 0 with fewer than two. -/
def meanPeriod (l : List Nat) : Nat :=
  match l with
  | [] => 0
  | x :: _ => if l.length < 2 then 0 else (l.getLastD x - x) / (l.length - 1)

/-- `FREQ` from the crossings of L1, 0 where none is valid (R340). -/
def freqOf (l : List Nat) : Nat :=
  match l with
  | [] => 0
  | x :: _ =>
    let span := l.getLastD x - x
    let f := if l.length < 2 ∨ span = 0 then 0 else 2048000000 * (l.length - 1) / span
    if 45000 ≤ f ∧ f ≤ 65000 then f else 0

/-- `VANG` of a phase behind L1 (R340), 2^-15 semicircle. -/
def vangOf (l1 ph : List Nat) : Int :=
  match l1, meanPeriod l1 with
  | x :: _, p =>
    match ph.find? (fun y => x ≤ y), p with
    | some y, q + 1 => toS 16 (65536 * ((y - x) % (q + 1)) / (q + 1))
    | _, _ => 0
  | [], _ => 0

/-- A phase entry (Tables 13.3, 13.5). -/
def PhaseSum.bytes (s : PhaseSum) (l1 : List Nat) (first : Bool) : Bytes :=
  if s.n = 0 then zeros 28
  else
    let urms := isqrt (s.vv.toNat / s.n)
    let irms := isqrt (s.ii.toNat / s.n)
    let p := (s.vi.tdiv s.n).tdiv 1000
    let sv := urms * irms / 1000
    let q := s.c.sign * (isqrt ((sv : Int) * sv - p * p).toNat : Nat)
    let pf := if sv = 0 then 0 else (10000 * p).tdiv sv
    let iang := courseQ31 q p 0 0 / 65536
    let vang := if first then 0 else vangOf l1 s.cross
    le 4 (min urms (2 ^ 32 - 1)) ++ le 4 (min irms (2 ^ 32 - 1)) ++ le 4 (ofS 32 (satS 32 p)) ++ le 4 (ofS 32 (satS 32 q)) ++
      le 4 (min sv (2 ^ 32 - 1)) ++ le 2 (ofS 16 (satS 16 pf)) ++ le 2 (ofS 16 iang) ++ le 2 (ofS 16 vang) ++ le 2 0

/-- Procedure `noload_gate` (R343). -/
def noloadGate (on off : Nat) (b : MtrBay) (s : Int) (n : Nat) : MtrBay :=
  let p := if n = 0 then 0 else s.natAbs / n / 1000
  let below := if b.gate ∧ p < off then b.below + 1 else 0
  let gate := b.gate || decide (on ≤ p)
  if gate ∧ 2 ≤ below then { b with gate := false, below := 0 } else { b with gate := gate, below := below }

/-- Whole LSBs carried out of the fractions (R344). -/
def MtrBay.carry (b : MtrBay) (unit : Nat) : MtrBay :=
  let k := b.acc / unit
  let x := b.xacc / unit
  { b with acc := b.acc % unit, reg := (b.reg + k) % 2 ^ 32, wraps := (b.wraps + (b.reg + k) / 2 ^ 32) % 2 ^ 16
           xacc := b.xacc % unit, exp := (b.exp + x) % 2 ^ 32 }

/-- Energy added to a fraction by its sign. -/
def MtrBay.add (b : MtrBay) (s : Int) : MtrBay := if 0 ≤ s then { b with acc := b.acc + s.toNat } else { b with xacc := b.xacc + (-s).toNat }

/-- µW × samples in one LSB (R344). -/
def Dev.mtrUnit (d : Dev) : Nat := max 1 (d.cf P.MTR_ELSB) * 28800000000

/-- Procedure `meter_accumulate` (R344). -/
def Dev.accumulate (d : Dev) (b : MtrBay) (s : Int) : MtrBay := (b.add s).carry d.mtrUnit

/-- Register block of a bay (Table 13.7). -/
def Dev.regBlock (d : Dev) (b : MtrBay) (k : Nat) : Bytes := le 4 b.reg ++ le 2 b.wraps ++ le 2 (d.cf P.MTR_ELSB) ++ le 4 (u32 k)

/-- The bay's parameters shown (R345). -/
def Dev.showBay (d : Dev) (b k : Nat) : Dev :=
  let y := nth d.com.mtr.bays (b - 1)
  ((d.wr P.MTR_REG b (unle (d.regBlock y k))).wr P.MTR_EXPORT b y.exp).wr P.MTR_GATE b (bit y.gate)

/-- One bay of `metering(k)` (R340 to R345): its result, none where it is not metered. -/
def Dev.meterBay (d : Dev) (k b : Nat) (snap : Bool) : Dev × Option Bytes :=
  let n := d.bayPhases b
  if n = 0 then (d, none)
  else
    let sums := (List.range n).map (d.phaseSum k b)
    let l1 := sums.headD {}
    let y := nth d.com.mtr.bays (b - 1)
    let s : Int := sums.foldl (fun a p => a + p.vi) 0
    let y1 := noloadGate (d.cf P.MTR_NOLOAD_ON) (d.cf P.MTR_NOLOAD_OFF) y s l1.n
    let y2 := if y1.gate then d.accumulate y1 s else y1
    let lost := (List.range n).any fun ph => let c := d.bayChan b ph; d.mtr.lost.contains c.1 || d.mtr.lost.contains c.2
    let failed := d.mtr.failed.contains 16 || (List.range n).any fun ph => let c := d.bayChan b ph; d.mtr.failed.contains c.1 || d.mtr.failed.contains c.2
    let gap := y.gap || lost
    let settle := decide (y.samples < 2 ^ (d.cf P.MTR_INT_LEAK + 2))
    let peaks := y.peaks ++ sums.flatMap (·.peaks)
    let y3 := { y2 with samples := y.samples + l1.n, last := (mapFrom (fun i o => match sums[i]? with | some p => p.last | none => o) 0 y.last)
                        peaks := peaks.drop (peaks.length - 60), gap := false }
    let freq := freqOf l1.cross
    let flags := bit y3.gate + 2 * bit settle + 4 * bit (sums.any (·.late)) + 8 * bit (freq == 0) + 16 * bit snap + 32 * bit gap +
      64 * bit (failed || sums.any (·.fault))
    let d1 := (d.mtrCom fun m => { m with bays := m.bays.set (b - 1) y3 }).when (y3.gate != y.gate)
      (·.notice 0x5082 (le 1 b ++ le 1 (bit y3.gate) ++ le 4 (u32 k)))
    let r := le 1 b ++ le 1 flags ++ le 1 n ++ le 1 0 ++ le 4 (u32 k) ++ le 2 (min 65535 l1.n) ++ le 2 freq ++ le 4 y3.reg ++ le 2 y3.wraps ++ le 2 0 ++
      (mapFrom (fun i p => PhaseSum.bytes p l1.cross (i == 0)) 0 sums).flatten
    ((d1.wr P.MTR_RESULT b (unle r)).showBay b k, some r)

/-- Blocks after the bays were served: those paired are marked, those that waited 100 cycles are dropped; one that found no partner sets `GAP` (R340). -/
def Dev.ageBlocks (d : Dev) (k : Nat) : Dev :=
  let pairs := bays12.flatMap fun b => (List.range (d.bayPhases b)).flatMap fun ph =>
    let (v, i) := d.bayChan b ph
    (phasePairs k v i d.com.mtr.blocks).map fun p => (v, i, p.1.snum)
  let mark (x : MtrBlk) : MtrBlk := if pairs.any fun p => (p.1 == x.c || p.2.1 == x.c) && p.2.2 == x.snum then { x with paired := true } else x
  let all := d.com.mtr.blocks.map mark
  let old := all.filter fun x => decide (x.cycle + 100 ≤ k)
  let gaps := (old.filter fun x => !x.paired).flatMap fun x => d.baysOf x.c
  d.mtrCom fun m => { m with
    blocks := all.filter fun x => decide (k < x.cycle + 100)
    bays := mapFrom (fun i (y : MtrBay) => if gaps.contains (i + 1) then { y with gap := true } else y) 0 m.bays }

/-! ### Saving and restoring -/

/-- The inputs of class 5 that no commit has processed: admitted, or waiting in Chute 11. -/
def Dev.openBlocks (d : Dev) : List Input :=
  (d.cyc.adm.map (·.2) ++ (nth d.chutes 11).waiting).filter fun x => x.cls == 5

/-- The flush of R348 and R349: the bays as last committed, and the tail of what was sampled since with its bound. -/
def Dev.mtrFlush (d : Dev) (last : Nat) : Dev :=
  let k := last + 1
  let d1 := d.openBlocks.foldl (Dev.takeBlock k) d
  let one (b : Nat) : Int × Nat :=
    let sums := (List.range (d1.bayPhases b)).map (d1.phaseSum k b)
    let y := nth d.com.mtr.bays (b - 1)
    let ps := y.peaks ++ sums.flatMap (·.peaks)
    let newest := ps.foldl (fun m p => max m p.1) 0
    let pk := (ps.filter fun p => newest < p.1 + 800).foldl (fun m p => max m p.2) 0
    (sums.foldl (fun a p => a + p.vi) 0, (pk * d.cf P.MTR_TAIL_MS + 3599999) / 3600000)
  let rs := bays12.map one
  -- before the first commit of a start there is nothing newer than what MRAM holds
  if d.com.mtr.restore then d
  else { d with mtr := { d.mtr with mram := some { cycle := last, bays := d.com.mtr.bays, tails := rs.map (·.1), bounds := rs.map (·.2) } } }

/-- R350: the newer of save and flush restored in the origin cycle, with record and notice 0x5080. -/
def Dev.mtrRestore (d : Dev) (k : Nat) : Dev :=
  let d1 := d.mtrCom fun m => { m with restore := false, saved := k, chans := List.replicate 16 {}, blocks := [] }
  let fresh (l : List MtrBay) : List MtrBay := l.map fun (y : MtrBay) =>
    { reg := y.reg, wraps := y.wraps, exp := y.exp, acc := y.acc, xacc := y.xacc }
  let flushNewer := match d.mtr.mram, d.mtr.nand with
    | some a, some b => decide (b.cycle ≤ a.cycle)
    | some _, none => true
    | none, _ => false
  let unit := d.mtrUnit
  let note (d : Dev) (kind cycle mask bound : Nat) (per : Bytes) : Dev :=
    (d.log 0x5080 0xFF (le 1 kind ++ le 4 (u32 cycle) ++ per)).noticeOut 0x5080 (le 1 kind ++ le 4 (u32 cycle) ++ le 2 mask ++ le 4 bound)
  match d.mtr.mram, d.mtr.nand, flushNewer with
  | some f, _, true =>
    let ys := List.zipWith (fun (y : MtrBay) (s : Int) => (y.add s).carry unit) (fresh f.bays) f.tails
    let d2 := d1.mtrCom fun m => { m with bays := ys }
    let d3 := (List.zip bays12 f.bounds).foldl (fun d p => (d.wr P.MTR_LAST_TAIL p.1 p.2).showBay p.1 k) d2
    let mask := maskOf ((mapFrom (fun i s => (i, s)) 0 f.tails).filterMap fun x => if x.2 ≠ 0 then some x.1 else none)
    note d3 1 f.cycle mask (f.bounds.foldl max 0) ((List.zip f.tails f.bounds).flatMap fun x => le 8 (ofS 64 x.1) ++ le 4 x.2)
  | _, some s, _ =>
    let d2 := d1.mtrCom fun m => { m with bays := fresh s.bays }
    let d3 := bays12.foldl (fun d b => (d.wr P.MTR_LAST_TAIL b 0xFFFFFFFF).showBay b k) d2
    note d3 2 s.cycle 0xFFF 0xFFFFFFFF (bays12.flatMap fun _ => le 8 0 ++ le 4 0xFFFFFFFF)
  | _, _, _ => d1

/-- R347: the NAND save at the first commit after each `MTR.SAVE` seconds. -/
def Dev.mtrSave (d : Dev) (k : Nat) : Dev :=
  if d.com.mtr.saved + 20 * d.cf P.MTR_SAVE ≤ k then
    ({ (d.mtrCom fun m => { m with saved := k }) with mtr := { d.mtr with nand := some { cycle := k, bays := d.com.mtr.bays } } }).inc P.MTR_SAVES
  else d

/-- The snapshot of R346. -/
def Dev.mtrSnap (d : Dev) (k : Nat) : Dev :=
  (bays12.foldl (fun d b => d.wr P.MTR_SNAP_REG b (unle (d.regBlock (nth d.com.mtr.bays (b - 1)) k))) d).inc P.MTR_SNAP_SEQ

/-- The `metering(k)` stage (R27, R340): `xs` are the metering blocks in the order handed to it. -/
def Dev.meteringStage (d : Dev) (k : Nat) (xs : List Input) : Dev × List Bytes :=
  let d0 := if d.com.mtr.restore then d.mtrRestore k else d
  let snap := d0.ctrls.any fun c => decide (c.1 ≤ k) && c.2.1 == P.MTR_SNAP
  let d1 := xs.foldl (Dev.takeBlock k) d0
  let (d2, rs) := bays12.foldl (fun (a : Dev × List Bytes) b =>
    let (d, r) := a.1.meterBay k b snap
    (d, match r with | some r => a.2 ++ [r] | none => a.2)) (d1, [])
  let d3 := (d2.ageBlocks k).when snap (·.mtrSnap k)
  (({ d3 with mtr := { d3.mtr with lost := [], mram := none } }).mtrSave k, rs)

/-- A cold start (R350): gates closed, scaling at zero; what NAND and MRAM hold is restored at the origin. -/
def Dev.mtrCold (d : Dev) : Dev :=
  let d1 := { d with com := { d.com with mtr := {} }, mtr := { d.mtr with failed := [], lost := [], pre := [], preAcc := List.replicate 12 0 } }
  bays12.foldl (fun d b => d.wr P.MTR_GATE b 0) d1

end Sys2Proof.Machine
end

