-- ==== Sys2Proof/Machine/Session.lean ====
section
/-!
DEFINITION. Level keys, sessions and authentication of the host link (Chapter 14: R383 to R385; Chapter 18: R478, R479).
-/
namespace Sys2Proof.Machine
open Sys2Proof

/-- A level key (R478): level 1 to 3. -/
def Dev.levelKey (d : Dev) (level : Nat) : Bytes := hmac Config.deviceKey (ascii "LVLK" ++ le 1 level ++ nth d.pwr.salts (level - 1))

/-- `SEC.KEY_HASH`: the first 8 bytes of SHA-256 over each level key (R479). -/
def Dev.keyHashes (d : Dev) : Bytes := [1, 2, 3].flatMap fun l => (sha256 (d.levelKey l)).take 8

/-- RFC 3394 key wrap: the six rounds over the blocks `r` of 8 bytes, with register `a`. -/
def wrapRounds (kek : Bytes) : Nat → Nat → Bytes → List Bytes → Bytes
  | 0, _, a, r => a ++ r.flatten
  | n + 1, t, a, r =>
    match r with
    | b :: rest =>
      let x := aes kek (a ++ b)
      wrapRounds kek n (t + 1) (xorB (x.take 8) (be 8 t)) (rest ++ [x.drop 8])
    | [] => a

/-- AES key wrap of a key of 32 bytes (R479). -/
def keyWrap (kek key : Bytes) : Bytes := wrapRounds kek 24 1 (List.replicate 8 0xA6#8) (blocksOf 8 key)

/-- Notice 0x6080 (R385, Table 14.14): `SID`, transport, level, event. -/
def Dev.sessionNote (d : Dev) (sid tr level event : Nat) : Dev := d.noticeT 0x6080 (le 1 sid ++ le 1 tr ++ le 1 level ++ le 1 event)

/-- A slot's content. -/
def Dev.slotAt (d : Dev) (i : Nat) : Option Session := nth d.host.slots i

/-- A slot set. -/
def Dev.setSlot (d : Dev) (i : Nat) (x : Option Session) : Dev := { d with host := { d.host with slots := d.host.slots.set i x } }

/-- A session ends, or a pending challenge is withdrawn; only an open session's end is a session event (R385). -/
def Dev.endSession (d : Dev) (i event : Nat) : Dev :=
  match d.slotAt i with
  | some x =>
    let d1 := { d.setSlot i none with rcd := { d.rcd with clears := d.rcd.clears.filter (·.sid != i) } }
    if x.pending || x.closing then d1 else d1.sessionNote i x.ep.tr x.level event
  | none => d

/-- `CLOSE` (R382, R385): the session stands no more; its slot keeps the key for the reply that is still to carry the trailer. -/
def Dev.closeSession (d : Dev) (i : Nat) : Dev :=
  match d.slotAt i with
  | some x => (({ d with rcd := { d.rcd with clears := d.rcd.clears.filter (·.sid != i) } }).setSlot i (some { x with closing := true })).sessionNote
      i x.ep.tr x.level 2
  | none => d

/-- The session of an endpoint that stands at a stamp (R385). -/
def Dev.sessionOf (d : Dev) (ep : Ep) (stamp : Nat) : Option (Nat × Session) :=
  match slotOf ep d.host.slots with
  | some (i, x) => if !x.pending && !x.closing && stamp < x.last + d.cf P.HST_SESSION_IDLE * sec then some (i, x) else none
  | none => none

/-- Pending challenges whose 10 s have passed at a stamp no longer hold their slot (R383). -/
def Dev.expireChallenges (d : Dev) (stamp : Nat) : Dev :=
  let keep (o : Option Session) : Option Session := o.bind fun x => if x.pending && x.begun + 10 * sec < stamp then none else some x
  { d with host := { d.host with slots := d.host.slots.map keep } }

/-- R384: what a frame's trailer gives at its stamp: the level of the sender with its slot, or refusal (DENIED). -/
def Dev.judgeTrailer (d : Dev) (h : HostCtx) (stamp : Nat) (payload : Bytes) : Option (Nat × Option Nat) × Dev :=
  match h.trailer with
  | none => (some (0, none), d)
  | some (scnt, mac) =>
    match d.sessionOf h.ep stamp with
    | none => (none, d)
    | some (i, x) =>
      let head := mailHead 1 (payload.length + 12) h.tag h.mbx 1
      if mac == smac x.ks head payload scnt && x.hostCnt < scnt then
        (some (x.level, some i), d.setSlot i (some { x with hostCnt := scnt, last := stamp }))
      else (none, d.inc P.HST_MAC_FAIL)

/-- Whether an endpoint is locked out of `AUTH_BEGIN` at a stamp (R385). -/
def Dev.lockedOut (d : Dev) (ep : Ep) (stamp : Nat) : Bool :=
  d.host.fails.any fun f => f.ep == ep && (match f.lockedFrom with | some l => decide (stamp < l + 60 * sec) | none => false)

/-- AUTH_BEGIN (R383, R385). -/
def Dev.authBegin (d0 : Dev) (ep : Ep) (stamp : Nat) (p : Bytes) : Reply × Dev :=
  let d := d0.expireChallenges stamp
  let level := fld p 1 1
  if p.length != 20 || fld p 2 2 != 0 then ({ status := 6 }, d)
  else if level = 0 || 3 < level then ({ status := 4 }, d)
  else if d.lockedOut ep stamp then ({ status := 5 }, d)
  else
    let d1 := match slotOf ep d.host.slots with
      | some (i, x) => d.endSession i (if stamp < x.last + d.cf P.HST_SESSION_IDLE * sec then 4 else 3)
      | none => d
    match d1.host.slots.findIdx? Option.isNone with
    | none => ({ status := 1 }, d)
    | some i =>
      let key := d1.levelKey level
      let ch := (hmac key (ascii "CHAL" ++ le 8 (stamp64 stamp) ++ le 8 (d1.rd P.HST_AUTH_COUNT))).take 16
      let hn := cut p 4 16
      ({ body := le 1 i ++ le 3 0 ++ ch },
       (d1.inc P.HST_AUTH_COUNT).setSlot i (some { ep := ep, level := level, begun := stamp, hn := hn, ch := ch, last := stamp }))

/-- A wrong proof counted against its endpoint (R385): the `HST.AUTH_LOCK_N`-th within 60 s locks it out. -/
def Dev.wrongProof (d : Dev) (ep : Ep) (stamp sid level : Nat) : Dev :=
  let old := match d.host.fails.find? (·.ep == ep) with | some f => f.stamps | none => []
  let l := (stamp :: old).filter fun s => stamp < s + 60 * sec
  let lock := d.cf P.HST_AUTH_LOCK_N ≤ l.length
  let f : AuthFail := { ep := ep, stamps := if lock then [] else l, lockedFrom := if lock then some stamp else none }
  let d1 := { d with host := { d.host with fails := f :: d.host.fails.filter (·.ep != ep) } }.inc P.HST_AUTH_FAIL
  if lock then d1.sessionNote sid ep.tr level 5 else d1

/-- AUTH_PROVE (R383): it consumes the pending challenge whatever its outcome. -/
def Dev.authProve (d : Dev) (ep : Ep) (stamp : Nat) (p : Bytes) : Reply × Dev :=
  let sid := fld p 1 1
  if p.length != 36 || fld p 2 2 != 0 then ({ status := 6 }, d)
  else match slotOf ep d.host.slots with
    | some (i, x) =>
      if !x.pending then ({ status := 3 }, d)
      else
        let d1 := d.setSlot i none
        if sid != i || x.begun + 10 * sec < stamp then ({ status := 3 }, d1)
        else
          let key := d.levelKey x.level
          let tail := le 1 x.level ++ le 1 sid
          if cut p 4 32 != hmac key (ascii "HOST" ++ x.ch ++ x.hn ++ tail) then ({ status := 3 }, d1.wrongProof ep stamp sid x.level)
          else
            let s : Session := { x with pending := false, ks := hmac key (ascii "SESS" ++ x.ch ++ x.hn), last := stamp }
            ({ body := le 1 x.level ++ le 3 0 ++ hmac key (ascii "UNIT" ++ x.hn ++ x.ch ++ tail) },
             (d1.setSlot i (some s)).sessionNote i ep.tr x.level 1)
    | none => ({ status := 3 }, d)

/-- R385: at the commit of cycle k the sessions that have been idle end, with event 3. -/
def Dev.idleSessions (d : Dev) (k : Nat) : Dev :=
  [0, 1, 2, 3].foldl (fun d i =>
    match d.slotAt i with
    | some x => if !x.pending && x.last + d.cf P.HST_SESSION_IDLE * sec ≤ (k + 1) * cycleNs then d.endSession i 3 else d
    | none => d) d

/-- AUTH_CHALLENGE_EXPIRE (R383): a pending challenge lapses 10 s after its `AUTH_BEGIN` and frees its slot. -/
def execAuthChallengeExpire (t sid : Nat) (s : State) : Host.Outcome State Fault Refusal := run s fun d0 =>
  let d := d0.at t
  match d.slotAt sid with
  | some x => if x.pending && x.begun + 10 * sec ≤ d.now then d.setSlot sid none else d
  | none => d

/-- AUTH_LOCKOUT_END (R385): 60 s after the last wrong proof the endpoint may authenticate again. -/
def execAuthLockoutEnd (t : Nat) (ep : Ep) (s : State) : Host.Outcome State Fault Refusal := run s fun d0 =>
  let d := d0.at t
  let done_ (f : AuthFail) : Bool := f.ep == ep && (match f.lockedFrom with | some l => decide (l + 60 * sec ≤ d.now) | none => false)
  { d with host := { d.host with fails := d.host.fails.filter fun f => !done_ f } }

end Sys2Proof.Machine
end

