-- ==== Sys2Proof/Machine/Derrick.lean ====
section
/-!
DEFINITION. The Derrick: axes, lines, stops, homing, faults and gantry commands (Chapter 13: R353 to R364).  A line's position follows the profile of
R163 in whole steps; what ends a motion is the command that says it has ended.
-/
namespace Sys2Proof.Machine
open Sys2Proof

/-- The Derrick's state changed. -/
def Dev.drkSt (d : Dev) (f : DrkSt → DrkSt) : Dev := { d with drk := f d.drk }

/-- The four axes. -/
def axes : List Nat := [0, 1, 2, 3]

/-! ### Where a line stands -/

/-- Largest number of lead steps whose profile time is at most `tau` ms, by bits from the top. -/
def stepsAt (f : Nat → Int) (tau : Int) (l : Nat) : Nat → Nat → Nat
  | 0, p => p
  | b + 1, p => stepsAt f tau l b (if p + 2 ^ b ≤ l ∧ f (p + 2 ^ b) ≤ tau then p + 2 ^ b else p)

/-- Profile time of `s` lead steps (ms). -/
def Line.time (x : Line) (s : Nat) : Int := profileMs s x.len x.v0 x.vc x.ve x.a x.dc

/-- Lead steps at an instant, without a stop. -/
def Line.cruise (x : Line) (t : Nat) : Nat := stepsAt x.time ((t - x.t0) / ms : Nat) x.len 32 0

/-- Lead steps at an instant: a stop covers v² / (2 × rate) from where it began. -/
def Line.lead (x : Line) (t : Nat) : Nat :=
  match x.stop with
  | some (t1, p1, v, rate) =>
    if t ≤ t1 then min p1 (x.cruise t)
    else
      let ta : Nat := min ((t - t1) / us) (v * 1000000 / max 1 rate)
      min x.len (p1 + (v * ta / 1000000 - rate * ta * ta / 2000000000000))
  | none => x.cruise t

/-- Speed of the lead at an instant (steps/s). -/
def Line.speed (x : Line) (t : Nat) : Nat :=
  let p := x.lead t
  match x.stop with
  | some (t1, _, v, rate) => if t ≤ t1 then v else v - rate * ((t - t1) / ms) / 1000
  | none => min x.vc (min (isqrt (x.v0 * x.v0 + 2 * x.a * p)) (isqrt (x.ve * x.ve + 2 * x.dc * (x.len - p))))

/-- Position of an axis with `p` lead steps covered (R355). -/
def Line.axis (x : Line) (ax p : Nat) : Int :=
  let dx := nth x.target ax - nth x.start ax
  nth x.start ax + dx.sign * ((p * dx.natAbs + x.len / 2) / max 1 x.len : Nat)

/-- Position of an axis at an instant. -/
def Line.posAt (x : Line) (ax t : Nat) : Int := x.axis ax (x.lead t)

/-- Whether a line is at rest at an instant. -/
def Line.done (x : Line) (t : Nat) : Bool :=
  match x.stop with
  | some (t1, _, v, rate) => t1 + v * sec / max 1 rate ≤ t
  | none => x.home == 0 && x.time x.len ≤ ((t - x.t0) / ms : Nat)

/-- The line that moves an axis. -/
def Dev.lineOf (d : Dev) (ax : Nat) : Option Line := d.drk.lines.find? fun x => bitOf x.mask ax

/-- Commanded position of an axis now. -/
def Dev.axisPos (d : Dev) (ax : Nat) : Int :=
  match d.lineOf ax with
  | some x => x.posAt ax d.now
  | none => d.rdS P.DRK_POS ax

/-- `DRK.POS` brought up to now, for axes whose pulses the unit drives. -/
def Dev.drkSync (d : Dev) : Dev :=
  axes.foldl (fun d ax => match d.lineOf ax with
    | some x => let p := x.posAt ax d.now; if p = d.rdS P.DRK_POS ax then d else (d.wrS P.DRK_POS ax p).emit (.axis ax p)
    | none => d) d

/-- An axis state set, with notice 0x5880 (R353). -/
def Dev.axisState (d : Dev) (ax new : Nat) : Dev :=
  let old := d.rd P.DRK_STATE ax
  if old = new then d
  else (d.wr P.DRK_STATE ax new).noticeT 0x5880 (le 1 ax ++ le 1 old ++ le 1 new ++ le 4 (ofS 32 (d.rdS P.DRK_POS ax)))

/-- The axes of a mask. -/
def maskAxes (m : Nat) : List Nat := setBits 4 m

/-- Targets as held in `DRK.TARGET`. -/
def Dev.targets (d : Dev) : List Int := axes.map fun ax => d.rdS P.DRK_TARGET ax

/-! ### Moves -/

/-- Procedure `move_plan` (R355): lead length and the line's limits. -/
def Dev.movePlan (d : Dev) (mask : Nat) (delta : List Int) : Nat × Nat × Nat × Nat :=
  let ds := (maskAxes mask).map fun ax => (ax, (nth delta ax).natAbs)
  let l := ds.foldl (fun m x => max m x.2) 0
  let moving := ds.filter fun x => x.2 != 0
  let least (id : Nat) : Nat := match moving.map fun x => d.rd id x.1 * l / x.2 with
    | [] => 1
    | y :: ys => max 1 (ys.foldl min y)
  (l, least P.DRK_VMAX, least P.DRK_ACC, least P.DRK_DEC)

/-- A line added. -/
def Dev.addLine (d : Dev) (x : Line) : Dev := d.drkSt fun s => { s with lines := s.lines ++ [x] }

/-- A move from rest (R355): its axes are MOVING, or at once IDLE on their targets. -/
def Dev.startMove (d : Dev) (mask : Nat) (target : List Int) : Dev :=
  let start := axes.map d.axisPos
  let delta := axes.map fun ax => nth target ax - nth start ax
  let (l, vc, a, dc) := d.movePlan mask delta
  let d1 := (maskAxes mask).foldl (fun d ax => (d.axisState ax (if l = 0 then 3 else 4)).wr P.DRK_REMAIN ax 0) (d.inc P.DRK_MOVES)
  if l = 0 then d1
  else
    let tg := axes.map fun ax => if bitOf mask ax then nth target ax else nth start ax
    d1.addLine { mask := mask, start := start, target := tg, t0 := d.now, len := l, vc := vc, a := a, dc := dc }

/-- A line brought to rest at a rate from now on: a stop already begun is only hardened (R363). -/
def Line.halt (x : Line) (t rate : Nat) : Line :=
  match x.stop with
  | some (t1, _, _, r) => if t1 ≤ t ∧ rate ≤ r then x else { x with stop := some (t, x.lead t, x.speed t, rate) }
  | none => { x with stop := some (t, x.lead t, x.speed t, rate) }

/-- Lines that share an axis with a mask brought to rest. -/
def Dev.haltLines (d : Dev) (mask : Nat) (rate : Line → Nat) : Dev :=
  d.drkSt fun s => { s with lines := s.lines.map fun (x : Line) => if x.mask &&& mask = 0 then x else x.halt d.now (rate x) }

/-- The emergency rate of a line: the least `DRK.EDEC` of its axes. -/
def Dev.edec (d : Dev) (x : Line) : Nat :=
  match (maskAxes x.mask).map fun ax => d.rd P.DRK_EDEC ax with
  | [] => 1
  | y :: ys => max 1 (ys.foldl min y)

/-- Axes of a mask that move (MOVING) shown STOPPING. -/
def Dev.showStopping (d : Dev) (mask : Nat) : Dev :=
  (maskAxes mask).foldl (fun d ax => d.when (d.rd P.DRK_STATE ax == 4) (·.axisState ax 5)) d

/-- The mask of every axis that shares a line with a mask. -/
def Dev.linesMask (d : Dev) (mask : Nat) : Nat := d.drk.lines.foldl (fun m x => if x.mask &&& mask = 0 then m else m ||| x.mask) mask

/-- R355 to R357: a MOVE of the axes in a mask. -/
def Dev.move (d : Dev) (mask : Nat) (target : List Int) : Dev :=
  let busy := d.drk.lines.filter fun x => x.mask &&& mask != 0
  match busy, maskAxes mask with
  | [], _ => d.startMove mask target
  | [x], [ax] =>
    let p := d.axisPos ax
    let dir := (nth x.target ax - nth x.start ax).sign
    let v := x.speed d.now
    let ahead := (nth target ax - p) * dir
    if x.mask = mask ∧ x.stop.isNone ∧ x.home = 0 ∧ (v * v / (2 * x.dc) : Nat) < ahead then
      let start := axes.map d.axisPos
      ((d.inc P.DRK_MOVES).drkSt fun s => { s with lines := s.lines.filter fun y => y.mask != mask }).addLine
        { mask := mask, start := start, target := start.set ax (nth target ax), t0 := d.now, len := ahead.toNat, v0 := v
          vc := max v (max 1 (d.rd P.DRK_VMAX ax)), a := max 1 (d.rd P.DRK_ACC ax), dc := max 1 (d.rd P.DRK_DEC ax) }
    else (d.haltLines mask fun x => x.dc).drkSt fun s => { s with waiting := s.waiting ++ [(mask, target)] }
  | _, _ => (d.haltLines mask fun x => x.dc).drkSt fun s => { s with waiting := s.waiting ++ [(mask, target)] }

/-! ### Homing -/

/-- Homing begins on an axis (R359): it moves toward `DRK.HOME_DIR` until something stops it. -/
def Dev.homeAxis (d : Dev) (ax : Nat) : Dev :=
  let start := axes.map d.axisPos
  let dir : Int := if d.rd P.DRK_HOME_DIR ax = 1 then 1 else -1
  let v := max 1 (d.rd P.DRK_HOME_V ax)
  ((d.drkSt fun s => { s with homed := s.homed.set ax false }).axisState ax 2).addLine
    { mask := 2 ^ ax, start := start, target := start.set ax (nth start ax + dir * 2 ^ 31), t0 := d.now, len := 2 ^ 31, vc := v, ve := v
      a := max 1 (d.rd P.DRK_ACC ax), dc := max 1 (d.rd P.DRK_DEC ax), home := 1 }

/-- R359: the home input is accepted while an axis moves toward it; the axis decelerates. -/
def execHomeInputAccept (t ax : Nat) (s : State) : Host.Outcome State Fault Refusal := run s fun d0 =>
  let d := (d0.at t).drkSync
  match d.lineOf ax with
  | some x =>
    if x.home = 1 ∧ x.stop.isNone then
      d.drkSt fun s => { s with lines := s.lines.map fun (y : Line) => if bitOf y.mask ax then { y.halt t y.dc with home := 2 } else y }
    else d
  | none => d

/-- R359: the raw release edge while the axis moves back: that position is `DRK.HOME_OFS`; the axis decelerates once the release is accepted. -/
def execHomeReleaseLatch (t ax : Nat) (s : State) : Host.Outcome State Fault Refusal := run s fun d0 =>
  let d := (d0.at t).drkSync
  match d.lineOf ax with
  | some x =>
    if x.home = 3 ∧ x.stop.isNone then
      let shift := d.rdS P.DRK_HOME_OFS ax - x.posAt ax t
      let move (l : List Int) : List Int := l.set ax (nth l ax + shift)
      let acc := t + d.rd P.DRK_DEBOUNCE ax * ms
      let y := { x with start := move x.start, target := move x.target }
      let y1 := { y with home := 4, stop := some (acc, y.cruise acc, y.speed acc, y.dc) }
      (d.drkSt fun s => { s with lines := s.lines.map fun (z : Line) => if bitOf z.mask ax then y1 else z }).drkSync
    else d
  | none => d

/-! ### Gantry commands -/

/-- The motions of a gantry command (R352): raise, travel and lower at a bay, or park. -/
def Dev.gantrySteps (d : Dev) (bay : Option Nat) : List GStep :=
  let pos (id i : Nat) : List Int := axes.map fun ax => fldS (d.wire id i) (4 * ax) 4
  let park := pos P.DRK_PARK_POS 0
  match bay with
  | some b =>
    let at_ := pos P.DRK_BAY_POS b
    [{ step := 1, mask := 4, target := park }, { step := 2, mask := 11, target := at_ }, { step := 3, mask := 4, target := at_ }]
  | none => [{ step := 4, mask := 4, target := park }, { step := 4, mask := 11, target := park, ends := true }]

/-- The next gantry motion begins where every axis is at rest: an axis it names that is not referenced homes first (R354). -/
def Dev.gantryNext (d : Dev) : Dev :=
  match d.drk.gantry with
  | g :: gs =>
    if !d.drk.lines.isEmpty || !d.drk.waiting.isEmpty || !d.stp.outOn || !d.active then d
    else if (maskAxes g.mask).any fun ax => d.rd P.DRK_STATE ax == 0 || d.rd P.DRK_STATE ax == 6 || d.rd P.DRK_STATE ax == 7 then d
    else
      let un := (maskAxes g.mask).filter fun ax => d.rd P.DRK_STATE ax == 1
      if !un.isEmpty then un.foldl (fun d ax => d.homeAxis ax) d
      else
        let d1 := (d.drkSt fun s => { s with gantry := gs }).startMove g.mask g.target
        d1.when (g.ends && d1.drk.lines.isEmpty) (·.wr P.DRK_OWNER 0 0)
  | [] => d

/-- R352: the committed gantry commands that are due reach the Derrick, which takes ownership (R354). -/
def execGantryCommand (t : Nat) (s : State) : Host.Outcome State Fault Refusal := run s fun d0 =>
  let d := (d0.at t).drkSync
  let due := d.drk.inbox.filter fun e => decide (e.1 ≤ t)
  if due.isEmpty ∨ !d.active ∨ d.drk.failed then d
  else
    ((d.drkSt fun s => { s with inbox := s.inbox.filter fun e => decide (t < e.1), gantry := s.gantry ++ due.flatMap (·.2) }).wr
      P.DRK_OWNER 0 1).gantryNext

/-! ### Ends of motion -/

/-- A park command that has ended at rest gives the gantry back to the host (R354). -/
def Dev.gantryEnd (d : Dev) (parked : Bool) : Dev :=
  (d.when (parked && d.drk.gantry.isEmpty && d.drk.inbox.isEmpty && d.rd P.DRK_OWNER == 1) (·.wr P.DRK_OWNER 0 0)).gantryNext

/-- Moves that waited for their axes to come to rest begin (R357). -/
def Dev.startWaiting (d : Dev) : Dev :=
  let ready (w : Nat × List Int) : Bool := d.drk.lines.all fun x => x.mask &&& w.1 == 0
  let go := d.drk.waiting.filter ready
  go.foldl (fun d w => d.startMove w.1 w.2) (d.drkSt fun s => { s with waiting := s.waiting.filter fun w => !ready w })

/-- Whether a target is the park position of a park command. -/
def Dev.atPark (d : Dev) (x : Line) : Bool := x.mask == 11 && d.rd P.DRK_OWNER == 1 && d.drk.gantry.isEmpty &&
  (maskAxes 11).all fun ax => nth x.target ax == fldS (d.wire P.DRK_PARK_POS 0) (4 * ax) 4

/-- R355: a move ends at rest on its targets and its axes become IDLE. -/
def execAxisMoveDone (t ax : Nat) (s : State) : Host.Outcome State Fault Refusal := run s fun d0 =>
  let d := (d0.at t).drkSync
  match d.lineOf ax with
  | some x =>
    if x.stop.isSome ∨ !x.done t then d
    else
      let d1 := (maskAxes x.mask).foldl (fun (d : Dev) a => ((d.wrS P.DRK_POS a (nth x.target a)).emit (.axis a (nth x.target a))).axisState a 3)
        (d.drkSt fun s => { s with lines := s.lines.filter fun y => y.mask != x.mask })
      d1.startWaiting.gantryEnd (d.atPark x)
  | none => d

/-- What an axis becomes when its stopped line is at rest: FAULT, UNHOMED, IDLE after homing, or STOPPED with its remaining distance. -/
def Dev.restAxis (d : Dev) (x : Line) (a : Nat) : Dev :=
  let p := x.axis a (x.lead d.now)
  let d1 := (d.wrS P.DRK_POS a p).emit (.axis a p)
  match x.faults.find? (·.1 == a) with
  | some f => (d1.drkSt fun s => { s with homed := if f.2 then s.homed.set a false else s.homed }).axisState a 7
  | none =>
    if x.home = 4 then
      ((d1.drkSt fun s => { s with homed := s.homed.set a true }).axisState a 3).noticeT 0x5882 (le 1 a ++ le 4 (ofS 32 (d.rdS P.DRK_HOME_OFS a)))
    else
      let waits := d.drk.waiting.any fun w => bitOf w.1 a
      if waits then d1
      else
        let left := if x.home = 0 then nth x.target a - p else 0
        (d1.wrS P.DRK_REMAIN a left).axisState a 6

/-- R356 to R359: a stopping line reaches rest; a homing axis that found its input moves back. -/
def execAxisStopDone (t ax : Nat) (s : State) : Host.Outcome State Fault Refusal := run s fun d0 =>
  let d := (d0.at t).drkSync
  match d.lineOf ax with
  | some x =>
    if x.stop.isNone ∨ !x.done t then d
    else
      let d1 := d.drkSt fun s => { s with lines := s.lines.filter fun y => y.mask != x.mask }
      if x.home = 2 ∧ x.faults.isEmpty then
        let start := axes.map fun a => if a = ax then x.axis a (x.lead t) else d.axisPos a
        let dir : Int := if d.rd P.DRK_HOME_DIR ax = 1 then -1 else 1
        let v := max 1 (d.rd P.DRK_HOME_V2 ax)
        (d1.wrS P.DRK_POS ax (nth start ax)).addLine
          { mask := x.mask, start := start, target := start.set ax (nth start ax + dir * 2 ^ 31), t0 := t, len := 2 ^ 31, vc := v, ve := v
            a := x.a, dc := x.dc, home := 3 }
      else (((maskAxes x.mask).foldl (fun (d : Dev) a => d.restAxis x a) d1).startWaiting).gantryEnd false
  | none => d

/-! ### Faults -/

/-- An axis fault (R358 to R362): cause, input, whether it loses its homing. A moving axis stops with its line and faults at rest, another at once. -/
def Dev.axisFault (d : Dev) (ax cause input : Nat) (unhome : Bool) : Dev :=
  let d1 := ((d.wr P.DRK_FAULT ax cause).inc P.DRK_FAULTS ax).noticeT 0x5881
    (le 1 ax ++ le 1 cause ++ le 1 input ++ le 4 (ofS 32 (d.rdS P.DRK_POS ax)))
  match d1.lineOf ax with
  | some x =>
    let whole := d1.linesMask (2 ^ ax)
    let d2 := (d1.haltLines (2 ^ ax) d.edec).showStopping whole
    d2.drkSt fun s => { s with
      waiting := s.waiting.filter fun w => w.1 &&& whole == 0
      lines := s.lines.map fun (y : Line) => if bitOf y.mask ax then { y with faults := (ax, unhome || x.home != 0) :: y.faults } else y }
  | none => (d1.drkSt fun s => { s with homed := if unhome then s.homed.set ax false else s.homed }).axisState ax 7

/-- R358, R360: a limit input is accepted active (or inactive again); `positive` names it. -/
def execLimitTrip (t ax : Nat) (positive active : Bool) (s : State) : Host.Outcome State Fault Refusal := run s fun d0 =>
  let d := (d0.at t).drkSync
  if 4 ≤ ax then d
  else
    let rest := d.drk.limits.filter fun e => e != (ax, positive)
    let d1 := d.drkSt fun s => { s with limits := if active then rest ++ [(ax, positive)] else rest }
    if !active then d1
    else match d1.lineOf ax with
      | some x => if x.faults.any (·.1 == ax) then d1 else d1.axisFault ax (if x.home = 0 then 1 else 2) (if positive then 2 else 1) (x.home != 0)
      | none => d1

/-- R361: `edges` raw edges of an input (0 home, 1 negative, 2 positive) within `DRK.CHATTER_MS`. -/
def execChatter (t ax input edges : Nat) (s : State) : Host.Outcome State Fault Refusal := run s fun d0 =>
  let d := (d0.at t).drkSync
  if 4 ≤ ax ∨ edges ≤ d.rd P.DRK_CHATTER_N then d
  else
    let d1 := d.drkSt fun s => { s with chatter := (ax, t) :: s.chatter.filter fun e => e.1 != ax }
    let homing : Bool := match d1.lineOf ax with
      | some x => x.home != 0
      | none => false
    if d1.rd P.DRK_STATE ax = 0 ∨ d1.rd P.DRK_STATE ax = 7 ∨ d1.rd P.DRK_FAULT ax ≠ 0 then d1 else d1.axisFault ax 3 input homing

/-- R362: the commanded position compared with the encoder count. -/
def execFollowingErrorCheck (t ax : Nat) (count : Int) (s : State) : Host.Outcome State Fault Refusal := run s fun d0 =>
  let d := (d0.at t).drkSync
  let ratio := d.rd P.DRK_ENC_RATIO ax
  if 4 ≤ ax ∨ ratio = 0 then d
  else
    let enc := (count * ratio) / 65536
    let diff := (d.axisPos ax - enc).natAbs
    let d1 := (d.wrS P.DRK_ENC_POS ax enc).maxTo P.DRK_FERR_PEAK ax diff
    let n := if d.rd P.DRK_FERR_MAX ax < diff then nth d.drk.ferr ax + 1 else 0
    let d2 := d1.drkSt fun s => { s with ferr := s.ferr.set ax n }
    if 2 ≤ n ∧ d2.rd P.DRK_STATE ax ≠ 0 ∧ d2.rd P.DRK_FAULT ax = 0 then d2.axisFault ax 4 0xFF true else d2

/-- R364: a fault of Tile 11.0 makes every axis FAULT. -/
def execDerrickFault (t : Nat) (s : State) : Host.Outcome State Fault Refusal := run s fun d0 =>
  let d := (d0.at t).drkSync
  let d1 := (d.drkSt fun s => { s with lines := [], waiting := [], gantry := [], failed := true }).faultLog 11 (location 11 0 0 .engine) []
  axes.foldl (fun d ax => d.axisState ax 7) d1

/-- R363: stop-all. -/
def Dev.drkStopAll (d : Dev) : Dev :=
  let d1 := d.drkSync
  let d2 := (d1.haltLines 15 d1.edec).showStopping 15
  d2.drkSt fun s => { s with waiting := [] }

/-- R364: every enabled axis is UNHOMED at position 0 after a cold start and in a unit that becomes ACTIVE. -/
def Dev.drkCold (d : Dev) : Dev :=
  let d1 := { d with drk := { inbox := d.drk.inbox } }
  axes.foldl (fun d ax => ((((d.wr P.DRK_STATE ax (if d.rd P.DRK_EN ax = 1 then 1 else 0)).wrS P.DRK_POS ax 0).wr P.DRK_REMAIN ax 0).wr P.DRK_FAULT ax 0))
    (d1.wr P.DRK_OWNER 0 0)

/-! ### Host commands -/

/-- Whether a MOVE of an axis heads toward an active limit input (R354). -/
def Dev.towardLimit (d : Dev) (ax : Nat) : Bool :=
  let dx := d.rdS P.DRK_TARGET ax - d.axisPos ax
  (dx < 0 && d.drk.limits.contains (ax, false)) || (0 < dx && d.drk.limits.contains (ax, true))

/-- Status of a `DRK.CTRL` write (R354, R361), 0 where it is accepted. -/
def Dev.drkStatus (d : Dev) (v : Nat) : Nat :=
  let cmd := v % 256
  let as_ := maskAxes (v / 256 % 16)
  let st (ax : Nat) : Nat := d.rd P.DRK_STATE ax
  if v / 4096 ≠ 0 ∨ cmd = 0 ∨ 5 < cmd then 4
  else if !d.active then 5
  else if (cmd = 1 ∨ cmd = 4) ∧ d.rd P.DRK_OWNER = 1 then 5
  else if (cmd = 1 ∨ cmd = 3 ∨ cmd = 4) ∧ !d.stp.outOn then 5
  else if cmd = 1 then
    (if as_.any fun ax => st ax == 5 then 1
     else if as_.any fun ax => st ax == 0 || st ax == 1 || st ax == 2 || st ax == 7 || !(nth d.drk.homed ax) then 5
     else if as_.any d.towardLimit then 4 else 0)
  else if cmd = 5 then (if as_.any fun ax => d.drk.chatter.any fun e => e.1 == ax && d.now < e.2 + sec then 5 else 0)
  else 0

/-- What an accepted `DRK.CTRL` write does (R354 to R359). -/
def Dev.drkCtrl (d0 : Dev) (v : Nat) : Dev :=
  let d := d0.drkSync
  let mask := v / 256 % 16
  let as_ := maskAxes mask
  match v % 256 with
  | 1 => d.move mask d.targets
  | 2 => let whole := d.linesMask mask
         if d.drk.lines.all fun x => x.mask &&& mask == 0 then d
         else ((d.haltLines mask fun x => x.dc).showStopping whole).drkSt fun s => { s with waiting := s.waiting.filter fun w => w.1 &&& whole == 0 }
  | 3 =>
    let ok := as_.filter fun ax => d.rd P.DRK_STATE ax == 6 && nth d.drk.homed ax
    if ok.isEmpty then d
    else d.startMove (maskOf ok) (axes.map fun ax => d.rdS P.DRK_POS ax + d.rdS P.DRK_REMAIN ax)
  | 4 => (as_.filter fun ax => d.rd P.DRK_STATE ax == 1 || d.rd P.DRK_STATE ax == 3 || d.rd P.DRK_STATE ax == 6).foldl (fun d ax => d.homeAxis ax) d
  | _ => ((as_.filter fun ax => d.rd P.DRK_STATE ax == 7 && !d.drk.failed).foldl (fun (d : Dev) ax =>
      (d.wr P.DRK_FAULT ax 0).axisState ax (if nth d.drk.homed ax then 3 else 1)) d).gantryNext

/-- What follows a write of `DRK.EN` (Table 13.8). -/
def Dev.drkWritten (d : Dev) : Dev :=
  axes.foldl (fun d ax =>
    if d.rd P.DRK_EN ax = 0 ∧ d.rd P.DRK_STATE ax ≠ 0 then
      (d.drkSt fun s => { s with lines := s.lines.filter fun x => !bitOf x.mask ax, homed := s.homed.set ax false }).axisState ax 0
    else if d.rd P.DRK_EN ax = 1 ∧ d.rd P.DRK_STATE ax = 0 ∧ !d.drk.failed then d.axisState ax 1 else d) d

end Sys2Proof.Machine
end

