-- ==== Sys2Proof/Machine/Tasks.lean ====
section
/-!
DEFINITION. The `tasks(k)` stage: charge and refill tasks at their bays, gantry commands, task state records (R159, R351, R352).
-/
namespace Sys2Proof.Machine
open Sys2Proof

/-- A gantry command committed in cycle `k` (R352): a record and notice for each step, received by the Derrick at C(k) + 12 ms. -/
def Dev.gantryCommand (d : Dev) (k task : Nat) (bay : Option Nat) : Dev :=
  let steps := d.gantrySteps bay
  let shown := match bay with
    | some _ => steps
    | none => steps.drop 1
  let d1 := shown.foldl (fun d g => d.notice 0x5083 (le 2 task ++ le 1 g.step ++ (g.target.flatMap fun z => le 4 (ofS 32 z)) ++ le 4 (u32 k))) d
  d1.drkSt fun s => { s with inbox := s.inbox ++ [(d.commitAt k + 12 * ms, steps)] }

/-- Whether the machine of a bay task stands at its stop point (R351): within `SLT.END_TOL`, slower than 100 mm/s; and whether it has left it. -/
def Dev.atStop (d : Dev) (t : Task) : Bool × Bool :=
  match d.bayStop t.bay, (d.ms? t.machine).bind (·.use) with
  | some p, some u =>
    let near := decide (dist u.p p ≤ d.cf P.SLT_END_TOL)
    (near && decide (u.speed < 100), !near)
  | _, _ => (false, false)

/-- One CHARGE task (R351). -/
def Dev.chargeTask (d : Dev) (t : Task) : Dev :=
  let (here, left) := d.atStop t
  if t.atBay && left then
    (d.putTask { t with state := 0, atBay := false, opened := false, closedFor := 0 }).updM t.machine fun m => { m with queue := (t.num, false) :: m.queue }
  else if t.atBay || here then
    let gate := d.rd P.MTR_GATE t.bay == 1
    let opened := t.opened || gate
    let closedFor := if gate then 0 else if opened then t.closedFor + 1 else 0
    let full : Bool := match (d.ms? t.machine).bind (·.status) with
      | some s => decide (d.cf P.MTR_CHARGE_FULL ≤ s.batt)
      | none => false
    let done := full || (opened && decide (20 * d.cf P.MTR_CHARGE_END_S ≤ closedFor))
    d.putTask { t with atBay := true, opened := opened, closedFor := closedFor, state := if done then 3 else t.state }
  else d

/-- One REFILL task (R352). -/
def Dev.refillTask (d : Dev) (k : Nat) (t : Task) : Dev :=
  let (here, _) := d.atStop t
  let d1 := if here && !t.served then (d.putTask { t with atBay := true, served := true }).gantryCommand k t.num (some t.bay) else d
  let served := t.served || here
  let full : Bool := match (d.ms? t.machine).bind (·.status) with
    | some s => decide (s.tank ≤ 100) && decide (d.cf P.DRK_REFILL_FULL ≤ s.tank)
    | none => false
  if served && full then
    (match d1.task? t.num with
     | some x => (d1.putTask { x with state := 3 }).gantryCommand k t.num none
     | none => d1)
  else d1

/-- The `tasks(k)` stage (R27): answers the class 4 records, ascending task number. -/
def Dev.tasksStage (d : Dev) (k : Nat) : Dev × List Bytes :=
  let live := d.com.job.tasks.filter fun t => (t.type == 3 || t.type == 4) && (t.state == 1 || t.state == 2)
  let d1 := live.foldl (fun d t => if t.type = 4 then d.chargeTask t else d.refillTask k t) d
  let d2 := d1.com.job.park.foldl (fun d n => d.gantryCommand k n none) d1
  let nums := sortBy (fun a b => decide (a < b)) d2.com.job.changed
  (d2.job fun c => { c with changed := [], park := [] }, (nums.filterMap d2.task?).map Task.bytes)

end Sys2Proof.Machine
end

