-- ==== Sys2Proof/Machine/Journal.lean ====
section
/-!
DEFINITION. Digests, the admission record, the input journal and checkpoints (Chapter 1: R31 to R37; Chapter 17: R446, R451 to R453), and the image of
the committed state that checkpoints and peer copies carry.
-/
namespace Sys2Proof

/-- The state image in the copy format, whose layout the manual does not give (R33). -/
opaque Config.imageBytes : Machine.Image → Bytes

/-- The committed state that a state image holds. -/
opaque Config.imageOf : Bytes → Machine.Image

end Sys2Proof

namespace Sys2Proof.Machine
open Sys2Proof

/-! ### Digests -/

/-- The groups of Table 17.1, ascending. -/
def groups : List Nat :=
  [0x01, 0x02, 0x03, 0x10, 0x11, 0x12, 0x18, 0x20, 0x21, 0x22, 0x28, 0x30, 0x31, 0x38, 0x40, 0x48, 0x50, 0x58, 0x60, 0x61, 0x68, 0x69, 0x70, 0x78, 0x7C]

/-- An input as `input_digest` takes it. -/
def Input.digested (x : Input) : Bytes :=
  le 8 (stamp64 x.stamp) ++ le 1 x.cls ++ le 1 x.idx ++ le 4 (u32 x.seq) ++ le 2 (x.payload.length % 65536) ++ x.payload

/-- Procedure `input_digest` over the inputs of a cycle in commit order. -/
def inputDigest (xs : List Input) : Nat := digest64 (xs.flatMap Input.digested)

/-- Records of one class as `cycle_digest` takes them. -/
def classBytes (c : Nat) (rs : List Bytes) : Bytes :=
  le 1 c ++ le 4 rs.length ++ rs.flatMap fun r => le 2 (r.length % 65536) ++ r

/-- Procedure `cycle_digest` over the records of classes 1 to 7. -/
def cycleDigest (k : Nat) (outs : List (List Bytes)) : Nat :=
  digest64 (le 4 (u32 k) ++ (mapFrom (fun i rs => classBytes (i + 1) rs) 0 outs).flatten)

/-- The instances of an item (R445, R455). -/
def Param.insts (p : Param) : List Nat := (List.range (p.hi + 1 - p.lo)).map (· + p.lo)

/-- The bytes of a host reservation as it stands: 28 zero bytes where the instance is unused. -/
def Dev.hostRes (d : Dev) (i : Nat) : Bytes :=
  match d.com.slt.host.find? (·.1 == i) with
  | some (_, slot, b) =>
    match d.com.slt.res.find? (fun r => r.slot == slot) with
    | some r => r.bytes
    | none => b
  | none => zeros 28

/-- A host reservation in force for cycle `k` as it was written: a write that acts in the cycle stands (R183, R450); 28 zero bytes where none is. -/
def Dev.hostResAt (d : Dev) (k i : Nat) : Bytes :=
  match (d.ctrls.filter fun c => decide (c.1 ≤ k) && c.2.1 == P.SLT_HOST_RES && c.2.2.1 == i).getLast? with
  | some c => c.2.2.2
  | none => match d.com.slt.host.find? (·.1 == i) with
    | some (_, _, b) => b
    | none => zeros 28

/-- The value of a digest item in force for cycle `k`, as on the wire (R451, R453). -/
def Dev.cfgValue (d : Dev) (k : Nat) (p : Param) (i : Nat) : Bytes :=
  if p.id = P.SEC_KEY_HASH then d.keyHashes
  else if p.id = P.SLT_HOST_RES then d.hostResAt k i
  else le p.ty.width (d.cf p.id i)

/-- Procedure `cfg_digest` (R451). -/
def Dev.cfgDigest (d : Dev) (k : Nat) : Nat :=
  digest64 (((groups.flatMap paramsOf).filter digestItem).flatMap fun (p : Param) => p.insts.flatMap fun i =>
    let v := d.cfgValue k p i
    le 2 p.id ++ le 2 i ++ le 2 (v.length % 65536) ++ v)

/-- The coverage digest (R32): every allocated block, ascending. -/
def Dev.covDigest (d : Dev) : Nat :=
  let st := d.store
  digest64 ((List.range (d.rd P.COV_BLOCKS)).flatMap fun b => le 4 b ++ st.block b)

/-! ### The admission record and the digest item -/

/-- A LATE entry (Table 1.6). -/
def Input.lateEntry (x : Input) : Bytes := le 8 (stamp64 x.stamp) ++ le 1 x.cls ++ le 1 x.idx ++ le 2 0 ++ le 4 (u32 x.seq)

/-- The admission record (Table 1.4) of a cycle whose inputs are `xs`, on-time first. -/
def admissionRecord (k flags skipped cfg : Nat) (xs : List Input) : Bytes :=
  let late := xs.filter (·.late)
  le 4 (u32 k) ++ le 2 flags ++ le 2 late.length ++ le 4 (xs.length - late.length) ++ le 4 skipped ++ le 8 cfg ++ le 8 (inputDigest xs) ++
    late.flatMap Input.lateEntry

/-- The cycle digest item (Table 1.7). -/
def digestItemBytes (record : Bytes) (digest tenure unit us : Nat) : Bytes :=
  cut record 0 8 ++ le 8 digest ++ cut record 24 8 ++ cut record 16 8 ++ le 4 tenure ++ le 1 unit ++ le 1 0 ++ le 2 (min us 65535)

/-! ### The journal -/

/-- Entry bytes in a journal block (Table 1.10). -/
def blockData : Nat := 4080

/-- Entry bytes that 1,024 MB of blocks of 4,096 bytes hold (R32). -/
def journalRoom : Nat := 262144 * blockData

/-- A journal entry: header (Table 1.11) and body. -/
def jEntry (kind flags : Nat) (body : Bytes) : Bytes := le 1 kind ++ le 1 flags ++ le 2 0 ++ le 4 body.length ++ body

/-- An input's entry (Table 1.12). -/
def Input.jEntry (x : Input) : Bytes :=
  Machine.jEntry 2 (bit x.late) (le 8 (stamp64 x.stamp) ++ le 1 x.cls ++ le 1 x.idx ++ le 2 0 ++ le 4 (u32 x.seq) ++ le 8 (stamp64 x.admitAt) ++ x.payload)

/-- The end of the stream since the cold start. -/
def Journal.fin (j : Journal) : Nat := j.base * blockData + j.stream.length

/-- The oldest cycle overwritten, up to the first entry of the next. -/
def Journal.dropOne (j : Journal) : Journal :=
  match (j.marks.filter (·.first)).drop 1 with
  | m :: _ =>
    let b := m.offset / blockData
    { j with base := b, stream := j.stream.drop ((b - j.base) * blockData), marks := j.marks.filter fun e => m.offset ≤ e.offset }
  | [] => j

/-- Oldest cycles overwritten until `n` more bytes fit. -/
def Journal.makeRoom (n : Nat) : Nat → Journal → Journal
  | 0, j => j
  | f + 1, j => if j.stream.length + n ≤ journalRoom then j else Journal.makeRoom n f j.dropOne

/-- Where the entries of a list begin. -/
def entryMarks (cycle : Nat) : Nat → Bool → List Bytes → List JMark
  | _, _, [] => []
  | o, first, e :: es => { offset := o, cycle := cycle, first := first } :: entryMarks cycle (o + e.length) false es

/-- The entries of a cycle appended (R32): the answer's second part is true where they did not fit a held window and the cycle is lost. -/
def Journal.append (j : Journal) (cycle : Nat) (es : List Bytes) : Journal × Bool :=
  let n := (es.map List.length).sum
  if j.hold && journalRoom < j.stream.length + n then (j, true)
  else
    let j1 := j.makeRoom n j.marks.length
    ({ j1 with stream := j1.stream ++ es.flatten, marks := j1.marks ++ entryMarks cycle j1.fin true es }, false)

/-- Block `i` of the journal, counted from the oldest held (Table 1.10); blocks beyond the stream hold no entry bytes. -/
def Journal.block (j : Journal) (i : Nat) : Bytes :=
  let b := j.base + i
  let data := cut j.stream (i * blockData) blockData
  let (start, cycle) := match j.marks.find? (fun m => m.offset / blockData == b) with
    | some m => (m.offset % blockData, u32 m.cycle)
    | none => (0xFFFF, 0xFFFFFFFF)
  let head := le 4 (u32 b) ++ le 2 data.length ++ le 2 start ++ le 4 cycle
  head ++ le 4 (crc32c (head ++ data)) ++ fit blockData data

/-! ### The image of the committed state -/

/-- Parameters that belong to the committed path: its configuration (R451) and the groups the commit writes. -/
def committedItem (id : Nat) : Bool :=
  [0x12, 0x18, 0x20, 0x21, 0x22, 0x50].contains (id / 256) || id == P.CYC_COMMITTED || id == P.STP_REL_REFUSED ||
    (match paramOf id with | some p => digestItem p | none => false)

/-- The image of the state after a commit (R279, R280, R32). -/
def Dev.image (d : Dev) : Image :=
  { com := d.com, regs := d.regs.filter fun e => committedItem (e.1 / 65536), staged := d.staged, ctrls := d.ctrls, next := d.cyc.next, wins := d.air.wins,
    marks := d.air.keys.map fun k => (k.inst, k.mark), iso := (d.rd P.CAN_ISO_STATE, d.rd P.CAN_ISO_ADDR_NOW), keys := d.air.keys
    loads := d.host.loads.filter (·.target != 0x7C) }

/-- A register file with the committed part taken from an image. -/
def imageRegs (own img : RegFile) : RegFile :=
  (img.filter fun e => committedItem (e.1 / 65536)).foldl (fun r e => Regs.put r e.1 e.2) (own.filter fun e => !committedItem (e.1 / 65536))

/-- The committed state taken from an image; `all` takes the state of the air link and the ISO 11783 address as well (R279). -/
def Dev.takeImage (d : Dev) (x : Image) (all : Bool) : Dev :=
  let d1 := { d with com := x.com, regs := imageRegs d.regs x.regs, staged := x.staged, ctrls := x.ctrls, cyc := { d.cyc with next := x.next }
                     host := { d.host with loads := x.loads ++ d.host.loads.filter (·.target == 0x7C) } }
  if all then
    ({ d1 with air := { d1.air with wins := x.wins, keys := x.keys } }.wr P.CAN_ISO_STATE 0 x.iso.1).wr P.CAN_ISO_ADDR_NOW 0 x.iso.2
  else d1

/-- A checkpoint after the commit of cycle `k` (R32): its head and the coverage blocks changed since the one before. -/
def Dev.checkpoint (d : Dev) (k : Nat) : List Bytes :=
  let img := Config.imageBytes { d.image with com := { d.com with cov := { d.com.cov with blocks := [] } } }
  let st := d.store
  let bs := sortBy (fun a b => decide (a < b)) d.cyc.changedCov
  let base := match d.cyc.covBase with | some b => u32 b | none => 0xFFFFFFFF
  jEntry 4 0 (le 4 (u32 k) ++ le 1 (Config.copyVersion % 256) ++ le 3 0 ++ le 8 d.covDigest ++ le 4 base ++ le 4 bs.length ++ le 4 img.length ++ img) ::
    bs.map fun b => jEntry 5 0 (le 4 b ++ le 4 (u32 k) ++ st.block b)

/-- The entries of a committed cycle appended to the journal (R32), with a checkpoint at the origin and at every 1,200th cycle. -/
def Dev.journalCycle (d : Dev) (k : Nat) (record : Bytes) (xs : List Input) (item : Bytes) (origin : Bool) : Dev :=
  let cp := origin || u32 k % 1200 == 0
  let es := [jEntry 1 0 record] ++ xs.map Input.jEntry ++ [jEntry 3 0 item] ++ (if cp then d.checkpoint k else [])
  let (j, lost) := d.cyc.journal.append k es
  let changed := if cp then [] else d.cyc.changedCov
  { d with cyc := { d.cyc with journal := j, changedCov := changed } }.when lost (·.inc P.CYC_JOURNAL_LOST)

end Sys2Proof.Machine
end

