-- ==== Sys2Proof/Machine/Chutes.lean ====
section
/-!
DEFINITION. The Chutes between engines (Chapter 14: R389 to R395).
-/
namespace Sys2Proof.Machine
open Sys2Proof

/-- A trace record of a Chute (Table 15.2). -/
def Dev.chuteTrace (d : Dev) (kind i words : Nat) (desc : Bool) : Dev :=
  d.trace 2 kind (le 1 i ++ le 1 words ++ le 1 (bit desc) ++ le 1 0 ++ le 4 (d.rd P.CHU_PACKETS i))

/-- A Chute changed. -/
def Dev.chute (d : Dev) (i : Nat) (f : Chute → Chute) : Dev := { d with chutes := upd d.chutes i f }

/-- The input that a lost packet carried never reaches its consumer. -/
def Chute.lose (c : Chute) : Chute := { c with waiting := c.waiting.drop 1 }

/-- A packet rewound (R391). -/
def Dev.rewind (d : Dev) (i words : Nat) : Dev := ((d.inc P.CHU_REWIND i).chuteTrace 2 i words false)

/-- A parity failure noted (R395). -/
def Dev.parityFail (d : Dev) (i : Nat) : Dev :=
  d.chute i fun (c : Chute) => { c with parity := d.now :: c.parity.filter fun p => d.now < p + sec }

/-- A committed packet (R389, R391): the head of what waits is admitted at this instant; a task that waits on the Chute is woken. -/
def Dev.packetIn (d : Dev) (i : Nat) (p : Packet) : Dev :=
  let d1 := ((d.inc P.CHU_PACKETS i).maxTo P.CHU_FILL_MAX i p.words).chuteTrace 1 i p.words p.desc
  if !p.parityOut then ((d1.inc P.CHU_PARITY i).parityFail i).chute i Chute.lose
  else if !p.descOk then (d1.inc P.CHU_DESC_BAD i).chute i Chute.lose
  else
    let waits := d1.dsp.tasks.any fun x => x.state == 3 && x.kind == 2 && x.obj == i
    let since : Option Nat := if waits then none else match (nth d1.chutes i).stood with | some s => some s | none => some d1.now
    let d2 := (d1.wakeAll 2 i 2).chute i fun (c : Chute) => { c with stood := since }
    match (nth d2.chutes i).waiting with
    | x :: rest => (d2.chute i fun (c : Chute) => { c with waiting := rest }).admitInput x d2.now
    | [] => d2

/-- CHUTE_PACKET_COMMIT (R391, R392, R393): an `EOP` word enters stage 0 of Chute `i`; without `ABORT` and with right parity its packet is committed. -/
def execChutePacketCommit (t i : Nat) (p : Packet) (s : State) : Host.Outcome State Fault Refusal := run s fun d0 =>
  let d := d0.at t
  if 16 ≤ i || d.chuteDown i || p.words = 0 || 32 < p.words then d
  else
    let d1 := (List.range p.orphans).foldl (fun d _ => (d.inc P.CHU_ORPHAN i).chuteTrace 4 i 0 false) d
    let d2 := (List.range p.cutOff).foldl (fun d _ => (d.rewind i 0).chute i Chute.lose) d1
    let d3 := d2.chute i fun (c : Chute) => { c with discarding := false }
    if p.abort then (d3.rewind i p.words).chute i Chute.lose
    else if !p.parityIn then ((d3.rewind i p.words).parityFail i).chute i Chute.lose
    else d3.packetIn i p

/-- CHUTE_STALL (R393): the open packet of Chute `i`, whose last word came at `last`, is rewound; words are discarded until the next `SOP`. -/
def execChuteStall (t i last : Nat) (s : State) : Host.Outcome State Fault Refusal := run s fun d0 =>
  let d := d0.at t
  if 16 ≤ i || d.chuteDown i || (nth d.chutes i).discarding || d.now < last + d.rd P.CHU_STALL i * us then d
  else ((d.inc P.CHU_STALL_REWIND i).chuteTrace 3 i 0 false).chute i fun (c : Chute) => { c.lose with discarding := true }

/-- CHUTE_READ_IDLE_WAKE (R394): a committed packet has stood unread for `CHU.READ_IDLE`. -/
def execChuteReadIdleWake (t i : Nat) (s : State) : Host.Outcome State Fault Refusal := run s fun d0 =>
  let d := d0.at t
  match (nth d.chutes i).stood with
  | some since =>
    if 16 ≤ i || d.now < since + d.rd P.CHU_READ_IDLE i * us then d
    else ((d.inc P.CHU_IDLE_WAKE i).chute i fun (c : Chute) => { c with stood := none }).wakeAll 2 i 3
  | none => d

/-- CHUTE_FAULT (R395): three parity failures within 1 s. -/
def execChuteFault (t i : Nat) (s : State) : Host.Outcome State Fault Refusal := run s fun d0 =>
  let d := d0.at t
  let n := ((nth d.chutes i).parity.filter fun p => d.now < p + sec).length
  if 16 ≤ i || d.chuteDown i || n < 3 then d
  else
    let d1 := (d.wr P.CHU_STATE i 1).chute i fun (c : Chute) => { c with waiting := [], stood := none }
    let raised := [4, 6, 11, 12, 13].contains i
    let loc := location 13 0 i (if raised then .engine else .slice)
    let body := le 4 loc ++ le 1 (if raised then 2 else 1)
    if raised then (d1.fault 0x6180 loc (le 1 2)).giveUp 5
    else if i ≤ 3 then (d1.faultLast 0x6180 loc).log 0x6180 0 body
    else d1.fault 0x6180 loc (le 1 1)

end Sys2Proof.Machine
end

