-- ==== Sys2Proof/Machine/EventLog.lean ====
section
/-!
DEFINITION. The Event Recorder's regions, flushes, reading, clearing, power failure and the failure of its memory (Chapter 16: R418 to R443).  Entry of a
record, with coalescing, stands with the operations.
-/
namespace Sys2Proof.Machine
open Sys2Proof

/-- The Recorder changed. -/
def Dev.recorder (d : Dev) (f : Recorder → Recorder) : Dev := { d with rcd := f d.rcd }

/-- A region changed. -/
def Dev.region (d : Dev) (r : Nat) (f : Region → Region) : Dev := d.recorder fun (g : Recorder) => { g with regions := upd g.regions r f }

/-- The items that show a region (Table 16.10): oldest held sequence, bytes held. -/
def Dev.showRegion (d : Dev) (r : Nat) : Dev :=
  let l := (nth d.rcd.regions r).recs
  let first := match l with | x :: _ => x.seq | [] => d.rd P.LOG_NEXT r
  (d.wr P.LOG_FIRST r first).wr P.LOG_USED r (l.foldl (fun n x => n + x.stored) 0)

/-- Bytes of a last-words entry (Table 16.7). -/
def Rec.itemLen (r : Rec) : Nat := 32 + r.body.length

/-- A record enters the last-words area (R441), which keeps its first entries. -/
def Dev.lastWords (d : Dev) (r : Nat) (x : Rec) : Dev :=
  let used := d.rcd.lw.foldl (fun n y => n + y.itemLen) 0
  let st := d.rd P.LOG_STATUS
  let d1 := if bitOf st 0 then d
    else (d.wr P.LOG_STATUS 0 (setBit st 0 true)).noticeT 0x7083 (le 1 r ++ le 1 (nth d.rcd.regions r).why)
  if 4096 < used + x.itemLen then (d1.inc P.LOG_LW_LOST).wr P.LOG_STATUS 0 (setBit (d1.rd P.LOG_STATUS) 2 true)
  else (d1.recorder fun (g : Recorder) => { g with lw := g.lw ++ [x], lwWrote := false }).wr P.LOG_LW_USED 0 (used + x.itemLen)

/-- The oldest held record that may make room for one of severity `sev` (procedure `op_place`), taken out. -/
def dropVictim (sev : Nat) : List Rec → Option (List Rec)
  | [] => none
  | v :: vs => if v.sev ≤ sev && !v.isOpen then some vs else (dropVictim sev vs).map (v :: ·)

/-- The loop of `op_place`: records discarded until the new one fits, or none can be. -/
def opRoom (cap need sev : Nat) : Nat → List Rec → Option (List Rec)
  | 0, l => some l
  | n + 1, l =>
    if l.foldl (fun m x => m + x.stored) 0 + need ≤ cap then some l
    else match dropVictim sev l with
      | some l' => opRoom cap need sev n l'
      | none => none

/-- A record written to its region (R426 to R428, R441). -/
def Dev.placeRec (d : Dev) (x : Rec) : Dev :=
  let r := bit x.safety
  let g := nth d.rcd.regions r
  let cap := d.rd P.LOG_CAPACITY r
  let put (d : Dev) (l : List Rec) : Dev := (d.region r fun (g : Region) => { g with recs := l ++ [x], failRun := 0 }).showRegion r
  if g.lastWords then d.lastWords r x
  else if x.safety then
    if cap < d.rd P.LOG_USED 1 + x.stored then
      let d1 := d.inc P.LOG_SAFETY_LOST
      if bitOf (d1.rd P.LOG_STATUS) 1 then d1
      else
        let kept := match g.recs.getLast? with | some y => y.seq | none => 0
        ((d1.wr P.LOG_STATUS 0 (setBit (d1.rd P.LOG_STATUS) 1 true)).recorder fun (g : Recorder) => { g with fullMark := some (kept, x.stamp) }).notice 0x7081
          (le 4 kept ++ le 8 (stamp64 x.stamp))
    else put d g.recs
  else if x.sev < d.rd P.LOG_OP_MIN_SEV then d.inc P.LOG_OP_FILTERED
  else match opRoom cap x.stored x.sev (g.recs.length + 1) g.recs with
    | some l => put d l
    | none => d.inc P.LOG_OP_DROPS

/-- Repeat information programmed, or held in MRAM while a record is open (R430). -/
def Rec.flushed (x : Rec) : Rec := { x with repF := x.rep, lastF := x.last, openF := x.isOpen }

/-- A flush (R424, R430, R437): the records of the buffer go to their regions in `SEQ` order; an image that no reset used is discarded after it. -/
def Dev.flush (d : Dev) : Dev :=
  if d.rcd.pfail || d.chuteDown 15 then d
  else
    let l := d.rcd.buf
    let d1 := (d.inc P.LOG_FLUSHES).recorder fun (g : Recorder) =>
      { g with buf := [], nvNext := [d.rd P.LOG_NEXT 0, d.rd P.LOG_NEXT 1], image := none, imageTail := 0 }
    let d2 := l.foldl (fun d x => d.placeRec x) d1
    d2.recorder fun (g : Recorder) => { g with regions := g.regions.map fun (h : Region) => { h with recs := h.recs.map Rec.flushed } }

/-! ### Commands -/

/-- LOG_RECORD_ENTER (R419, R423, R425, R429): an engine's Tile forms a record of a code; it takes the next sequence of its region, counts on the open
record that it repeats, or is dropped at a full buffer. -/
def execLogRecordEnter (t code tile : Nat) (body : Bytes) (s : State) : Host.Outcome State Fault Refusal := run s fun d0 =>
  let d := d0.at t
  if 236 < body.length || code % 256 = 0 || 255 ≤ code % 256 || 65536 ≤ code then d else d.log code (tile % 256) body

/-- LOG_FLUSH (R424): a trigger has come; the flush takes `dur` µs. -/
def execLogFlush (t dur : Nat) (s : State) : Host.Outcome State Fault Refusal := run s fun d0 =>
  let d := d0.at t
  if d.rcd.pfail then d else d.flush.maxTo P.LOG_FLUSH_MAX 0 dur

/-- A region that can be written no more sends its records to the last-words area (R441). -/
def Dev.regionLost (d : Dev) (r why : Nat) : Dev :=
  if (nth d.rcd.regions r).lastWords then d
  else d.region r fun (g : Region) => { g with lastWords := true, why := why, retryAt := d.now + 60 * sec }

/-- LOG_BLOCK_FAIL (R439, R440, R441): block `block` of region `r` failed (cause 1 program, 2 erase, 3 read-back, 4 read) with the records of the
sequences `lost`. -/
def execLogBlockFail (t r block cause : Nat) (lost : List Nat) (s : State) : Host.Outcome State Fault Refusal := run s fun d0 =>
  let d := d0.at t
  if 2 ≤ r || cause = 0 || 4 < cause then d
  else
    let spares := d.rd P.LOG_SPARES r
    let gone := (nth d.rcd.regions r).recs.filter fun x => lost.contains x.seq
    let d1 := (d.inc P.LOG_RETIRED r).region r fun (g : Region) =>
      { g with recs := g.recs.filter fun x => !lost.contains x.seq, failRun := g.failRun + 1, unreadable := g.unreadable || (cause == 4 && !gone.isEmpty) }
    let d2 := if spares = 0 then d1.wr P.LOG_CAPACITY r (d1.rd P.LOG_CAPACITY r - 128 * 1024) else d1.wr P.LOG_SPARES r (spares - 1)
    let d3 := (d2.showRegion r).fault 0x7082 (location 20 1 0 .cell)
      (le 2 block ++ le 1 cause ++ le 2 gone.length ++ le 2 (d2.rd P.LOG_SPARES r))
    if 3 ≤ (nth d3.rcd.regions r).failRun then d3.regionLost r 1
    else if d3.rd P.LOG_CAPACITY r = 0 then d3.regionLost r 2 else d3

/-- LOG_REGION_RETRY (R441): every 60 s the region writer tries a region again. -/
def execLogRegionRetry (t r : Nat) (ok : Bool) (s : State) : Host.Outcome State Fault Refusal := run s fun d0 =>
  let d := d0.at t
  let g := nth d.rcd.regions r
  if 2 ≤ r || !g.lastWords || d.now < g.retryAt then d
  else if ok then (d.region r fun (g : Region) => { g with lastWords := false, failRun := 0 }).recorder fun (g : Recorder) => { g with lwWrote := true }
  else d.region r fun (g : Region) => { g with retryAt := d.now + 60 * sec }

/-! ### Reading -/

/-- An item of a `LOG_READ` reply (Table 16.7), with repeat information as given. -/
def Rec.item (x : Rec) (rep last : Nat) (open_ : Bool) : Bytes :=
  le 2 rep ++ le 1 (bit open_ + 2 * bit (rep == 65535)) ++ le 1 0 ++ le 8 (stamp64 (if rep = 0 then x.stamp else last)) ++ x.bytes

/-- The items that fit in a number of bytes, whole (R433). -/
def fitItems (room : Nat) : List (Nat × Bytes) → List (Nat × Bytes)
  | [] => []
  | (n, b) :: l => if b.length ≤ room then (n, b) :: fitItems (room - b.length) l else []

/-- The reply to `LOG_READ` (R432, R433), for a reply body of at most `room` bytes. -/
def Dev.logRead (d : Dev) (p : Bytes) (room : Nat) : Reply :=
  let region := fld p 1 1; let gen := fld p 4 4; let from_ := fld p 8 4; let maxb := fld p 12 2
  if p.length != 16 || fld p 2 2 != 0 || fld p 14 2 != 0 then { status := 6 }
  else if 2 < region then { status := 4 }
  else
    let held : List (Nat × Bytes) := if region = 2 then mapFrom (fun i x => (x.seq, x.item x.rep x.last (i + 1 == d.rcd.lw.length))) 0 d.rcd.lw
      else (nth d.rcd.regions region).recs.map fun x => (x.seq, x.item x.repF x.lastF x.openF)
    let g := if region = 2 then 0 else d.rd P.LOG_GEN region
    let first := match held with | (n, _) :: _ => n | [] => if region = 2 then 0 else d.rd P.LOG_NEXT region
    let bad := gen != 0xFFFFFFFF && gen != g
    let start := if later first from_ then first else from_
    let want := if bad then [] else held.filter fun e => !later start e.1
    let got := fitItems (min (room - 16) (if maxb = 0 then room else maxb)) want
    let next := match got.getLast? with | some e => u32 (e.1 + 1) | none => start
    let unread := region < 2 && (nth d.rcd.regions region).unreadable
    let flags := bit (region == 1 && bitOf (d.rd P.LOG_STATUS) 1) + 2 * bit (!bad && got.length == want.length) + 4 * bit unread
    { status := if bad then 8 else 0
      body := le 1 region ++ le 1 flags ++ le 2 got.length ++ le 4 g ++ le 4 first ++ le 4 next ++ got.flatMap (·.2) }

/-! ### Clearing -/

/-- The clear of a region (R436) at the request of a session: slot, level, transport. -/
def Dev.logClear (d : Dev) (region sid level tr : Nat) : Dev :=
  if region = 2 then
    let first := match d.rcd.lw with | x :: _ => x.seq | [] => 0
    let last := match d.rcd.lw.getLast? with | some x => x.seq | none => 0
    let st := d.rd P.LOG_STATUS
    let st1 := setBit (if d.rcd.lwWrote then setBit st 0 false else st) 2 false
    ((((d.recorder fun (g : Recorder) => { g with lw := [] }).wr P.LOG_LW_USED 0 0).wr P.LOG_STATUS 0 st1)).notice 0x7080
      (le 1 2 ++ le 4 0 ++ le 4 0 ++ le 4 first ++ le 4 last ++ le 1 level ++ le 1 sid ++ le 1 tr)
  else
    let d0 := d.flush
    let l := (nth d0.rcd.regions region).recs
    let first := match l with | x :: _ => x.seq | [] => d0.rd P.LOG_NEXT region
    let last := match l.getLast? with | some x => x.seq | none => first
    let old := d0.rd P.LOG_GEN region
    let body := le 1 region ++ le 4 old ++ le 4 (u32 (old + 1)) ++ le 4 first ++ le 4 last ++ le 1 level ++ le 1 sid ++ le 1 tr
    let d1 := (d0.region region fun (g : Region) => { g with recs := [], unreadable := false }).wr P.LOG_GEN region (u32 (old + 1))
    let d2 := if region = 1 then
        (d1.wr P.LOG_STATUS 0 (setBit (d1.rd P.LOG_STATUS) 1 false)).recorder fun (g : Recorder) => { g with fullMark := none }
      else d1
    let r : Rec := { code := 0x7080, safety := region == 1, sev := 5, source := 14 * 256 + 0xFF, stamp := d2.now, seq := d2.rd P.LOG_NEXT region,
                     body := body, last := d2.now, lastF := d2.now }
    let d3 := ((d2.inc P.LOG_NEXT region).showRegion region).placeRec r
    d3.noticeOut 0x7080 body

/-! ### Power failure and cold start -/

/-- R437: the copy of the buffer to the MRAM image when `PFAIL_N` asserts. -/
def Dev.imageCopy (d : Dev) : Dev :=
  d.recorder fun (g : Recorder) =>
    let regions := g.regions.map fun (h : Region) => { h with recs := h.recs.map Rec.flushed }
    { g with pfail := true, image := some g.buf, imageTail := 0, regions := regions }

/-- R437: `PFAIL_N` releases without a reset. -/
def Dev.imageKeep (d : Dev) : Dev := d.recorder fun (g : Recorder) => { g with pfail := false }

/-- A record closed, with what MRAM holds of its repeats (R430). -/
def Rec.closed (x : Rec) : Rec := { x with isOpen := false, openF := false, rep := x.repF, last := x.lastF }

/-- A cold start of the Recorder (R430, R438): open records close, the image's records are written with `RESTORED` set; `torn` says that the last record
appended to the image was cut off. -/
def Dev.logCold (d : Dev) (torn : Bool) : Dev :=
  let cut := torn && d.rcd.imageTail != 0 && d.rcd.image.isSome
  let l0 := match d.rcd.image with | some l => l | none => []
  let l := if cut then l0.dropLast else l0
  let kind := if d.rcd.image.isSome then 1 else 2
  let next (r : Nat) : Nat := if kind = 1 then d.rd P.LOG_NEXT r else nth d.rcd.nvNext r
  let d1 := { d with rcd := { d.rcd with
    buf := [], image := none, imageTail := 0, pfail := false, clears := []
    lw := d.rcd.lw.map Rec.closed
    regions := d.rcd.regions.map fun (g : Region) => { g with recs := g.recs.map Rec.closed } } }
  let d2 := [0, 1].foldl (fun d r => (d.wr P.LOG_NEXT r (next r)).showRegion r) d1
  let d3 := (d2.when cut (·.inc P.LOG_TORN)).wr P.LOG_LW_USED 0 (d2.rcd.lw.foldl (fun n y => n + y.itemLen) 0)
  let st := bit (!d3.rcd.lw.isEmpty) + 2 * bit d3.rcd.fullMark.isSome
  let d4 := l.foldl (fun d x => d.placeRec ({ x with flags := x.flags ||| 4 }).flushed.closed) (d3.wr P.LOG_STATUS 0 st)
  d4.notice 0x7084 (le 1 kind ++ le 2 l.length ++ le 2 (bit cut))

end Sys2Proof.Machine
end

