-- ==== Sys2Proof/Machine/TimeUnit.lean ====
section
/-!
DEFINITION. Hub time, its sources and states, holdover, time pulses, event capture and the clock monitor
(Chapter 2: R50 to R66), except the application of a STEP, which closes a cycle and stands with the commit.
-/
namespace Sys2Proof.Machine
open Sys2Proof

/-- R50: one TIME clock tick of procedure `advance`; seconds wrap after 2^48. -/
def Dev.advance (d : Dev) : Dev :=
  let incr := d.rd P.TIM_INCR
  let f := d.tim.frac + incr % 2 ^ 32
  { d with
    now := (d.now + incr / 2 ^ 32 + f / 2 ^ 32) % (2 ^ 48 * sec)
    tim := { d.tim with frac := f % 2 ^ 32 } }

/-- What the block does while no command waits: one TIME tick; without its clocks (reset held, or Dormant) nothing. -/
def Dev.idleTick (d : Dev) : Dev := if d.up then d.advance else d

/-- R51: the increment is the frequency term plus the slew term, held between 3.999 6 ns and 4.000 4 ns. -/
def Dev.setIncr (d : Dev) : Dev :=
  let lo := 39996 * 2 ^ 32 / 10000 + 1
  let hi := 40004 * 2 ^ 32 / 10000
  d.wr P.TIM_INCR 0 (max lo (min hi ((d.tim.freq : Int) + d.tim.slew).toNat))

/-- R56: the causes of the degraded flag in the order of the list; 0 when none holds. -/
def Dev.degradedCause (d : Dev) : Nat :=
  match d.rd P.TIM_STATE with
  | 0 => 5
  | 1 => 1
  | 3 =>
    if d.cf P.TIM_HOLD_LIMIT ≤ d.rd P.TIM_HOLD_ELAPSED then 2
    else if d.cf P.TIM_UNC_LIMIT < d.rd P.TIM_UNC then 3 else 0
  | 4 => if (d.cf P.TIM_UNC_LIMIT : Int) < (d.tim.remain.natAbs : Int) then 4 else 0
  | _ => 0

/-- R56: the degraded flag judged again; a change raises notice 0x0281 with the first cause that holds, or, on clearing, the
cause that held until then. -/
def Dev.judgeDegraded (d : Dev) : Dev :=
  let c := d.degradedCause
  let old := d.rd P.TIM_DEGRADED
  if c != 0 then
    let d1 := { d with tim := { d.tim with degCause := c } }
    if old = 0 then (d1.wr P.TIM_DEGRADED 0 1).noticeT 0x0281 (le 1 1 ++ le 1 c) else d1
  else if old = 1 then (d.wr P.TIM_DEGRADED 0 0).noticeT 0x0281 (le 1 0 ++ le 1 d.tim.degCause)
  else d

/-- R54: a transition of the time state, with notice 0x0280. -/
def Dev.timeState (d : Dev) (s : Nat) : Dev :=
  let old := d.rd P.TIM_STATE
  if old = s then d.judgeDegraded
  else
    ((d.wr P.TIM_STATE 0 s).noticeT 0x0280
      (le 1 old ++ le 1 s ++ le 1 (d.rd P.TIM_SOURCE) ++ le 4 (d.rd P.TIM_UNC))).judgeDegraded

/-- Whether a source is enabled and may be used by this unit (R53): Peer only in STANDBY or SHADOW; GNSS not while the station
is in RECOVERY; never one that an oscillator fault dropped (R51). -/
def Dev.sourceOk (d : Dev) (src : Nat) : Bool :=
  1 ≤ src && src ≤ 3 && bitOf (d.cf P.TIM_SOURCE_MASK) (src - 1) && !d.tim.barred.contains src && !d.tim.untrusted &&
  (if d.rd P.DPX_STATE = 2 || d.rd P.DPX_STATE = 3 then src == 3 else true) &&
  !(src == 1 && d.rd P.STA_STATE == 4)

/-- R53: the preferred of the qualified sources: GNSS, then PTP, then Peer. -/
def Dev.preferred (d : Dev) : Option Nat := [1, 2, 3].find? fun s => d.tim.qualified.contains s && d.sourceOk s

/-- R58: the slew term that opposes an offset under `TIM.SLEW`, zero when the offset lies within one rate step; in COARSE at
the hardware maximum of 10 µs/s (R54). -/
def Dev.slewFor (d : Dev) (offset : Int) : Int :=
  let rate := if d.rd P.TIM_STATE = 1 then 10000 else d.cf P.TIM_SLEW
  let mag : Nat := rate * 4 * 2 ^ 32 / 10 ^ 9
  let step : Nat := mag * 250000000 / 2 ^ 32
  if offset.natAbs ≤ step then 0 else if 0 < offset then -(mag : Int) else mag

/-- A measurement of the source in use: offset, uncertainty, and the frequency term it gives (R51, R58). In LOCKED the slew term
stays 0. -/
def Dev.measure (d : Dev) (offset : Int) (unc freq : Nat) : Dev :=
  let slew := if d.rd P.TIM_STATE = 2 then 0 else d.slewFor offset
  let d1 := { d with tim := { d.tim with lastMeas := some d.now, remain := offset, slew := slew, freq := freq } }
  (((d1.wrS P.TIM_OFFSET 0 (satS 32 offset)).wr P.TIM_UNC 0 (min unc 0xFFFFFFFF)).setIncr).judgeDegraded

/-- R60: an armed STEP is abandoned. -/
def Dev.abandonStep (d : Dev) (cause : Nat) : Dev :=
  match d.tim.stepAt with
  | some _ =>
    ({ d with tim := { d.tim with stepAt := none } }.wr P.TIM_STEP 0 0).noticeT 0x0283 (le 1 cause)
  | none => d

/-- R53: the source in use becomes another; in LOCKED, RECOVERING or HOLDOVER the state becomes RECOVERING, in COARSE the time
counted toward LOCKED starts again. An armed STEP is abandoned with the source it was armed for. -/
def Dev.changeSource (d : Dev) (src : Nat) (offset : Int) (unc : Nat) : Dev :=
  let d0 := d.abandonStep 1
  let d1 := { d0.wr P.TIM_SOURCE 0 src with tim := { d0.tim with countFrom := d0.now, lastMeas := some d0.now } }
  let st := d1.rd P.TIM_STATE
  let d2 := if st = 2 || st = 3 || st = 4 then
      ({ d1 with tim := { d1.tim with remain := offset } }.wr P.TIM_UNC 0 (min unc 0xFFFFFFFF)).timeState 4 else d1
  d2.measure offset unc d2.tim.freq

/-- R55: HOLDOVER is entered: the slew is abandoned and its remainder recorded. -/
def Dev.enterHoldover (d : Dev) : Dev :=
  let st := d.rd P.TIM_STATE
  if st = 1 || st = 2 || st = 4 then
    let u0 := if st = 1 then d.cf P.TIM_UNC_LIMIT else d.rd P.TIM_UNC
    let d1 := { d with tim := { d.tim with slew := 0, holdRemain := d.tim.remain, u0 := u0 } }
    ((((d1.setIncr).wr P.TIM_HOLD_ELAPSED 0 0).wr P.TIM_UNC 0 u0).wr P.TIM_SOURCE 0 0).timeState 3
  else d

/-- R55, procedure `hold_unc`. -/
def holdUnc (u0 f a t : Nat) : Nat := min (u0 + f * t / 1000 + a * t * t / 172800000) 0xFFFFFFFF

/-- TIME_LOAD (R54): in UNSET a usable source first delivers time; hub time is loaded once and the state becomes COARSE. -/
def execTimeLoad (t src time unc : Nat) (s : State) : Host.Outcome State Fault Refusal := run s fun d0 =>
  let d := d0.at t
  if d.rd P.TIM_STATE = 0 && d.sourceOk src then
    let d1 := { d with
      now := time
      tim := { d.tim with frac := 0, remain := 0, slew := 0, lastMeas := some time, countFrom := time, setAt := time }
      pwr := { d.pwr with rtcOfs := d.pwr.rtcOfs + (time : Int) - d.now } }
    (((d1.wr P.TIM_SOURCE 0 src).wr P.TIM_UNC 0 (min unc 0xFFFFFFFF)).wr P.TIM_OFFSET 0 0).timeState 1
  else d

/-- SOURCE_LOSS (R53, R55, R60): a source whose last usable measurement was at `last` has been silent for `TIM.LOSS_TIME`. -/
def execSourceLoss (t src last : Nat) (s : State) : Host.Outcome State Fault Refusal := run s fun d0 =>
  let d := d0.at t
  if last + d.cf P.TIM_LOSS_TIME * ms ≤ d.now then
    let d1 := { d with tim := { d.tim with qualified := d.tim.qualified.filter (· != src) } }
    if d1.rd P.TIM_SOURCE = src && d1.rd P.TIM_STATE != 0 && d1.rd P.TIM_STATE != 3 then
      let d2 := d1.abandonStep 1
      match d2.preferred with
      | some p => d2.changeSource p d2.tim.remain (d2.rd P.TIM_UNC)
      | none => d2.enterHoldover
    else d1
  else d

/-- SOURCE_QUALIFIED (R53): a source usable since `since` becomes qualified; it is taken when preferred to the source in use, or
in HOLDOVER. -/
def execSourceQualified (t src since : Nat) (offset : Int) (unc : Nat) (s : State) : Host.Outcome State Fault Refusal := run s fun d0 =>
  let d := d0.at t
  if since + d.cf P.TIM_QUAL_TIME * sec ≤ d.now && d.sourceOk src then
    let d1 := { d with tim := { d.tim with qualified := src :: d.tim.qualified.filter (· != src) } }
    let st := d1.rd P.TIM_STATE
    if st != 0 && d1.preferred == some src && d1.rd P.TIM_SOURCE != src then d1.changeSource src offset unc
    else d1
  else d

/-- TIME_LOCKED (R54): the offset has lain within `TIM.LOCK_NS` since `since`, for `TIM.LOCK_TIME`. -/
def execTimeLocked (t since : Nat) (offset : Int) (unc : Nat) (s : State) : Host.Outcome State Fault Refusal := run s fun d0 =>
  let d := d0.at t
  let st := d.rd P.TIM_STATE
  if (st = 1 || st = 4) && offset.natAbs ≤ d.cf P.TIM_LOCK_NS && d.tim.countFrom ≤ since
      && since + d.cf P.TIM_LOCK_TIME * sec ≤ d.now then
    let d1 := ({ d with tim := { d.tim with slew := 0 } }.wr P.TIM_UNC 0 (min unc 0xFFFFFFFF)).timeState 2
    d1.measure offset unc d1.tim.freq
  else d

/-- SLEW_REMEASURE (R58): in RECOVERING the offset is measured again and the slew goes on from the new value. `freq` is the
frequency term the measurement gives (UQ8.32 ns). The same measurement is taken in COARSE, where it sets the slew term, and in
LOCKED, where the frequency term alone answers (R54, R58, R59; DEDUCED). -/
def execSlewRemeasure (t : Nat) (offset : Int) (unc freq : Nat) (s : State) : Host.Outcome State Fault Refusal := run s fun d0 =>
  let d := d0.at t
  let st := d.rd P.TIM_STATE
  if st = 1 || st = 2 || st = 4 then d.measure offset unc freq else d

/-- HOLDOVER_SECOND (R55, R56): one more whole second in HOLDOVER. -/
def execHoldoverSecond (t : Nat) (s : State) : Host.Outcome State Fault Refusal := run s fun d0 =>
  let d := d0.at t
  if d.rd P.TIM_STATE = 3 then
    let n := d.rd P.TIM_HOLD_ELAPSED + 1
    ((d.wr P.TIM_HOLD_ELAPSED 0 n).wr P.TIM_UNC 0
      (holdUnc d.tim.u0 (d.cf P.TIM_OSC_FSTAB) (d.cf P.TIM_OSC_AGE) n)).judgeDegraded
  else d

/-- A configuration value that the device sets itself: in force for the first cycle that begins after it (R452). -/
def Dev.selfSet (d : Dev) (id i v : Nat) : Dev :=
  let e : Staged := { cycle := cycleOf d.now, key := regKey id i, old := d.rd id i }
  { d with staged := d.staged ++ [e] }.wr id i v

/-- LEAP_APPLY (R52): while `TIM.UTC_AUTO` is 1 the offset and a leap second that the decoded broadcast parameters announce are taken (`utc`: offset,
leap, instant); at `TIM.LEAP_AT` the announced leap changes the offset from UTC, and nothing else. -/
def execLeapApply (t : Nat) (utc : Option (Int × Int × Nat)) (s : State) : Host.Outcome State Fault Refusal := run s fun d0 =>
  let d1 := d0.at t
  let d := match utc with
    | some (ofs, leap, at_) =>
      if d1.cf P.TIM_UTC_AUTO = 1 && d1.timeSet && -128 ≤ ofs && ofs ≤ 127 && -1 ≤ leap && leap ≤ 1 then
        let d2 := if d1.rdS P.TIM_UTC_OFFSET = ofs then d1 else d1.selfSet P.TIM_UTC_OFFSET 0 (ofS 16 ofs)
        if leap ≠ 0 && d1.now < at_ then (d2.wr P.TIM_LEAP_PENDING 0 (ofS 8 leap)).wr P.TIM_LEAP_AT 0 (unle (hubtime80 at_)) else d2
      else d1
    | none => d1
  let leap := toS 8 (d.rd P.TIM_LEAP_PENDING)
  if leap != 0 && ofHubtime80 (d.wire P.TIM_LEAP_AT 0) 0 ≤ d.now then
    (d.selfSet P.TIM_UTC_OFFSET 0 (ofS 16 (toS 16 (d.rd P.TIM_UTC_OFFSET) + leap))).wr P.TIM_LEAP_PENDING 0 0
  else d

/-- OSCILLATOR_FAULT (R51): the frequency term driven by a source deviates by `ppb` from 4 ns, beyond `TIM.FREQ_LIMIT`: the
source is used no longer. -/
def execOscillatorFault (t : Nat) (ppb : Int) (src : Nat) (s : State) : Host.Outcome State Fault Refusal := run s fun d0 =>
  let d := d0.at t
  if (d.cf P.TIM_FREQ_LIMIT : Int) < (ppb.natAbs : Int) then
    let d1 := ({ d with tim := { d.tim with barred := src :: d.tim.barred.filter (· != src)
                                            qualified := d.tim.qualified.filter (· != src) } }.faultLast
                0x0287 (location 12 0 0 .tile)).notice 0x0287 (le 4 (ofS 32 ppb) ++ le 1 src)
    if d1.rd P.TIM_SOURCE = src && d1.rd P.TIM_STATE != 0 && d1.rd P.TIM_STATE != 3 then
      let d2 := d1.abandonStep 1
      match d2.preferred with
      | some p => d2.changeSource p d2.tim.remain (d2.rd P.TIM_UNC)
      | none => d2.enterHoldover
    else d1
  else d

/-- CLOCK_MONITOR_FAULT (R66): cause 1 two windows outside 2,250 to 2,750 counts, 2 missing edges, 3 PLL lock lost. -/
def execClockMonitorFault (t cause count prev : Nat) (s : State) : Host.Outcome State Fault Refusal := run s fun d0 =>
  let d := d0.at t
  let bad (c : Nat) : Bool := c < 2250 || 2750 < c
  if (cause == 1 && bad count && bad prev) || cause == 2 || cause == 3 then
    let flags := setBit (setBit (d.rd P.TIM_CLKMON) 0 true) 1 (cause != 3)
    let d1 := { d.wr P.TIM_CLKMON 0 flags with tim := { d.tim with untrusted := true } }
    (((d1.inc P.TIM_CLKMON_FAULTS).faultLast 0x0286 (location 0 0 0 .package)).notice 0x0286
      (le 1 cause ++ le 2 count)).packageVerdict
  else d

/-! ### Pulses -/

/-- Whether an edge index was emitted already (R64). -/
def emitted (n : Nat) (l : List (Nat × Nat)) : Bool := l.any fun r => r.1 ≤ n && n ≤ r.2

/-- An emitted edge index noted. -/
def noteEdge (n : Nat) : List (Nat × Nat) → List (Nat × Nat)
  | (a, b) :: rs => if n = b + 1 then (a, n) :: rs else (n, n) :: (a, b) :: rs
  | [] => [(n, n)]

/-- The scheduled hub time of edge `n` of an output (Table 2.3), if its mode has that edge. -/
def Dev.edgeAt (d : Dev) (o n : Nat) : Option Nat :=
  let start := ofHubtime80 (le 10 (d.cf P.TIM_TP_START o)) 0
  match nth d.tim.tpMode o with
  | 1 => some (n * sec)
  | 2 => some (start + n * d.cf P.TIM_TP_PERIOD o)
  | 3 => if n = 0 then some start else none
  | _ => none

/-- R61, R64: a ONESHOT has ended: the output returns to OFF with notice 0x0284 (status 0 EMITTED, 1 MISSED). -/
def Dev.oneshotEnd (d : Dev) (o status sched : Nat) : Dev :=
  ({ d with tim := { d.tim with tpMode := d.tim.tpMode.set o 0 } }.wr P.TIM_TP_MODE o 0).noticeAt 0x0284 0xFF
    (le 1 o ++ le 1 status) (some sched)

/-- TP_EDGE (R62 to R64): edge `n` of an output falls due. -/
def execTpEdge (t o n : Nat) (s : State) : Host.Outcome State Fault Refusal := run s fun d0 =>
  let d := d0.at t
  match d.edgeAt o n with
  | none => d
  | some sched =>
    let mode := nth d.tim.tpMode o
    -- R62: positions in steps of 62.5 ps, 64 to the tick; TP2 and TP3 have no delay
    let pos := ((sched * 16 : Nat) : Int) - (if o < 2 then d.cfS P.TIM_TP_DELAY o else 0)
    if (d.now : Int) * 16 + 64 < pos then d          -- not due yet
    else if !d.timeSet then
      if mode = 3 then (d.inc P.TIM_TP_SUPPRESSED o).oneshotEnd o 1 sched else d
    else if emitted n (nth d.tim.tpDone o) then
      match nth d.tim.tpSuppress o with
      | some at_ => if mode = 1 && at_ < sched then { d with tim := { d.tim with tpSuppress := d.tim.tpSuppress.set o none } } else d
      | none => d
    else if mode = 1 && (match nth d.tim.tpSuppress o with | some at_ => decide (at_ < sched) | none => false) then
      { d with tim := { d.tim with tpSuppress := d.tim.tpSuppress.set o none
                                   tpDone := upd d.tim.tpDone o (noteEdge n) } }.inc P.TIM_TP_SUPPRESSED o
    else
      let width := if mode = 1 && d.rd P.TIM_DEGRADED = 1 && o < 2 then d.cf P.TIM_TP_DEG_WIDTH o else d.cf P.TIM_TP_WIDTH o
      let fine := if o < 2 then (pos % 64).toNat else 0
      let d1 := ({ d with tim := { d.tim with tpDone := upd d.tim.tpDone o (noteEdge n) } }.inc P.TIM_TP_EMITTED o).emit
        (.pulse o n sched width fine)
      if mode = 3 then d1.oneshotEnd o 0 sched else d1

/-- TP_MODE_TAKE_EFFECT (R61): a waiting change of an output's mode whose instant has come. -/
def execTpModeTakeEffect (t o : Nat) (s : State) : Host.Outcome State Fault Refusal := run s fun d0 =>
  let d := d0.at t
  match nth d.tim.tpPend o with
  | some (mode, at_) =>
    if at_ ≤ d.now then
      { d with tim := { d.tim with tpPend := d.tim.tpPend.set o none, tpMode := d.tim.tpMode.set o mode
                                   tpDone := if mode = 2 || mode = 3 then d.tim.tpDone.set o [] else d.tim.tpDone } }
    else d
  | none => d

/-- R61: the first whole second at least 100 ms after an instant. -/
def wholeSecondAfter (t : Nat) : Nat := (t + 100 * ms + sec - 1) / sec * sec

/-- R61: when a write of a pulse mode, decided at `c`, takes effect: OFF to ONESHOT at once, else at a whole second. -/
def Dev.tpEffect (d : Dev) (o mode c : Nat) : Nat :=
  if nth d.tim.tpMode o = 0 && mode = 3 then c else wholeSecondAfter c

/-- R61, Table 2.3: whether a pulse mode may be written to an output, at decision instant `c`. -/
def Dev.tpModeOk (d : Dev) (o mode c : Nat) : Bool :=
  let w := d.rd P.TIM_TP_WIDTH o
  let p := d.rd P.TIM_TP_PERIOD o
  match mode with
  | 0 => true
  | 1 => o < 2 && 1000 ≤ w && w ≤ 900000000
  | 2 => 1000 ≤ p && p ≤ 4000000000 && p % 4 = 0 && 4 ≤ w && w ≤ p - 4
  | 3 => 4 ≤ w && w ≤ 4000000000 && d.tpEffect o 3 c + ms ≤ ofHubtime80 (le 10 (d.rd P.TIM_TP_START o)) 0
  | _ => false

/-- R61: an accepted write of a pulse mode waits for its instant. -/
def Dev.tpModeSet (d : Dev) (o mode c : Nat) : Dev :=
  { d with tim := { d.tim with tpPend := d.tim.tpPend.set o (some (mode, d.tpEffect o mode c)) } }

/-- EVENT_CAPTURE (R65): an edge at an EVT input (1 rising, 2 falling), `half` where it lies 0.5 ns after `t`. -/
def execEventCapture (t i edge half : Nat) (s : State) : Host.Outcome State Fault Refusal := run s fun d0 =>
  let d := d0.at t
  let sel := d.cf P.TIM_EVT_EDGE i
  let tooSoon := match nth d.tim.evtLast i with
    | some l => decide (2 * t + half < l + 2 * d.cf P.TIM_EVT_HOLDOFF i)
    | none => false
  if i < 4 && (edge = 1 || edge = 2) && bitOf sel (edge - 1) && !tooSoon then
    let held := ((nth d.chutes 11).waiting.filter fun x => x.cls == 7 && x.idx == i).length
    let d1 := { d with tim := { d.tim with evtLast := d.tim.evtLast.set i (some (2 * t + half)) } }
    if 16 ≤ held then { d1.inc P.TIM_EVT_LOST i with tim := { d1.tim with evtLost := d1.tim.evtLost.set i true } }
    else d1.offer 11 t 7 i
      (hubtime80 t ++ le 1 (half % 2) ++ le 1 i ++ le 1 edge ++ le 1 (d.rd P.TIM_STATE) ++ le 1 (d.rd P.TIM_DEGRADED))
  else d

/-- The report of an admitted capture (Table 2.4, R65), in the commit of its cycle. -/
def Dev.reportCapture (d : Dev) (x : Input) : Dev :=
  let i := x.idx % 4
  let lost := nth d.tim.evtLost i
  let p := x.payload
  let flags := bit x.late + 2 * bit lost + 4 * (fld p 14 1 % 2)
  { d with tim := { d.tim with evtLost := d.tim.evtLost.set i false } }.notice 0x0285
    (cut p 0 12 ++ le 4 x.seq ++ cut p 12 1 ++ cut p 13 1 ++ le 1 flags ++ le 1 0)

end Sys2Proof.Machine
end

