-- ==== Sys2Proof/Machine/Peer.lean ====
section
/-!
DEFINITION. The duplex pair: unit states, heartbeat, link, giving up, start-up and split control (Chapter 10: R273 to R291).
What applies a copy, becomes ACTIVE or restarts the unit stands with the commit and the cold start.
-/
namespace Sys2Proof.Machine
open Sys2Proof

/-- A change of the unit's state, with notice 0x3880 (R276). -/
def Dev.unitState (d : Dev) (s cause : Nat) : Dev :=
  let old := d.rd P.DPX_STATE
  if old = s then d
  else (d.wr P.DPX_STATE 0 s).notice 0x3880
    (le 1 d.side ++ le 1 old ++ le 1 s ++ le 1 cause ++ le 4 (d.rd P.DPX_TENURE) ++ le 4 (u32 (cycleOf d.now)))

/-- R280: the unit asks the ACTIVE unit for a checkpoint. -/
def Dev.sendResync (d : Dev) : Dev :=
  ({ d with peer := { d.peer with waitCheckpoint := true, matchRun := 0, mismatchRun := 0 } }.inc P.DPX_RESYNCS).emit (.link 4 [])

/-- The unit becomes SHADOW and sends RESYNC (R280, R285, R286). -/
def Dev.toShadow (d : Dev) : Dev :=
  ({ d with peer := { d.peer with holdFrom := some d.now, holdMismatch := false } }.unitState 3 0).sendResync

/-- The heartbeat of this unit (Table 10.3). -/
def Dev.heartbeat (d : Dev) : Bytes :=
  let flags := bit d.peer.seatDriven + 2 * bit d.peer.yielding + 4 * bit d.peer.digestSkip + 8 * d.rd P.TIM_DEGRADED
  let done := if d.active then d.rd P.CYC_COMMITTED else match d.peer.lastCopy with | some k => u32 k | none => 0
  let b := le 1 d.side ++ le 1 (d.rd P.DPX_STATE) ++ le 1 flags ++ le 1 (Config.copyVersion % 256) ++ le 4 d.peer.hbSeq ++
    le 4 (d.rd P.DPX_TENURE) ++ le 4 (u32 (cycleOf d.now)) ++ le 4 done ++ fit 8 (Config.identity P.SYS_BUILD 0) ++
    hubtime80 d.now ++ le 2 0
  b ++ le 4 (crc32c b)

/-- HEARTBEAT_SEND (R277). -/
def execHeartbeatSend (t : Nat) (s : State) : Host.Outcome State Fault Refusal := run s fun d0 =>
  let d := d0.at t
  if d.cf P.DPX_MODE = 1 then
    { d with peer := { d.peer with hbSeq := (d.peer.hbSeq + 1) % 2 ^ 32 } }.emit (.link 0 d.heartbeat)
  else d

/-- R287: split control against a peer that is ACTIVE too: the lower tenure gives up, with equal tenures the B-side. -/
def Dev.splitResolve (d : Dev) (peerSide peerTenure : Nat) : Dev :=
  if d.active && peerSide != d.side then
    let own := d.rd P.DPX_TENURE
    let d1 := d.inc P.DPX_SPLIT
    if own < peerTenure || (own = peerTenure && d.side = 2) then d1.giveUp 6 else d1
  else d

/-- The first condition of R274 that a received heartbeat fails, from 1; 0 when the units pair. -/
def Dev.pairFails (d : Dev) (hb : Bytes) (sameKey : Bool) : Nat :=
  if d.cf P.DPX_MODE != 1 then 1
  else if fld hb 0 1 = d.side then 2
  else if !sameKey || d.peer.key.isNone then 3
  else if fld hb 3 1 != Config.copyVersion % 256 then 4
  else if 28 < d.cf P.CYC_HORIZON then 5
  else 0

/-- HEARTBEAT_RECEIVE (R277, R274, R287, R291): 44 bytes from the peer; `sameKey` says that both units hold the same pair key,
`offset` is the measured difference of hub time. -/
def execHeartbeatReceive (t : Nat) (hb : Bytes) (sameKey : Bool) (offset : Int) (s : State) : Host.Outcome State Fault Refusal := run s fun d0 =>
  let d := d0.at t
  let seq := fld hb 4 4
  let fresh := match d.peer.hbLastSeq with | some l => later seq l | none => true
  if hb.length = 44 && crcOk hb && fresh then
    let fails := d.pairFails hb sameKey
    let build := cut hb 20 8
    let d1 := { d with peer := { d.peer with
      hbLastSeq := some seq, hbLastAt := some d.now, restored := d.peer.restored + 1
      peerTenure := fld hb 8 4, peerCycle := fld hb 12 4, peerOffset := some offset
      digestSkip := build != fit 8 (Config.identity P.SYS_BUILD 0) } }
    let d2 := (d1.wr P.DPX_PEER_STATE 0 (fld hb 1 1)).wr P.DPX_PEER_BUILD 0 (unle build)
    let d3 := if d2.rd P.DPX_LINK = 0 then d2.wr P.DPX_LINK 0 1 else d2
    if fails != 0 then
      if d3.peer.refused then d3
      else { d3 with peer := { d3.peer with refused := true } }.notice 0x3884 (le 1 fails ++ cut hb 0 1 ++ cut hb 3 1)
    else if fld hb 1 1 = 1 then
      if d3.active then d3.splitResolve (fld hb 0 1) (fld hb 8 4)
      else if (d3.rd P.DPX_STATE = 2 || d3.rd P.DPX_STATE = 3) && d3.rd P.TIM_SOURCE = 3 then
        d3.measure offset (d3.rd P.TIM_UNC) d3.tim.freq
      else d3
    else d3
  else d

/-- LINK_FAIL (R277, R285): five consecutive 1 ms intervals without a received heartbeat. -/
def execLinkFail (t : Nat) (s : State) : Host.Outcome State Fault Refusal := run s fun d0 =>
  let d := d0.at t
  let last := match d.peer.hbLastAt with | some x => x | none => 0
  if d.rd P.DPX_LINK != 0 && last + 5 * ms ≤ d.now then
    (((({ d with peer := { d.peer with restored := 0 } }.wr P.DPX_LINK 0 0).inc P.DPX_LINK_LOSSES).addW P.DPX_HB_MISSED 0 5).noticeT
      0x3881 (le 1 0 ++ le 1 (d.rd P.DPX_PEER_STATE) ++ le 1 (bit d.peer.seatHigh)))
  else d

/-- LINK_RESTORE (R277, R285): after lane training and 100 consecutive received heartbeats; a STANDBY becomes SHADOW. -/
def execLinkRestore (t : Nat) (s : State) : Host.Outcome State Fault Refusal := run s fun d0 =>
  let d := d0.at t
  if d.rd P.DPX_LINK = 1 && 100 ≤ d.peer.restored then
    let d1 := (d.wr P.DPX_LINK 0 2).noticeT 0x3881 (le 1 1 ++ le 1 (d.rd P.DPX_PEER_STATE) ++ le 1 (bit d.peer.seatHigh))
    if d1.rd P.DPX_STATE = 2 then d1.toShadow else d1
  else d

/-- PEER_INPUT (R278): a unit that follows stores an input of the ACTIVE unit under its admission cycle, instant and LATE mark. -/
def execPeerInput (t cycle : Nat) (x : Input) (s : State) : Host.Outcome State Fault Refusal := run s fun d0 =>
  let d := d0.at t
  if d.rd P.DPX_STATE = 2 || d.rd P.DPX_STATE = 3 then
    { d with peer := { d.peer with foreign := d.peer.foreign ++ [(cycle, x)] } }
  else d

/-- RESYNC (R280, Table 10.4): the ACTIVE unit answers with a CHECKPOINT, whose body belongs to the copy format. -/
def execResync (t : Nat) (s : State) : Host.Outcome State Fault Refusal := run s fun d0 =>
  let d := d0.at t
  if d.active then
    let n := d.freeIx
    { d with freeIx := n + 1 }.emit (.link 3 (Config.freeBytes 3 n))
  else d

/-- GIVE_UP_RECEIVE (R282, R289): a STANDBY, or the A-side SHADOW that asked for the return, that holds the copy of b − 2 answers
TAKE; without the copy yet it waits for it. -/
def execGiveUpReceive (t cause b : Nat) (s : State) : Host.Outcome State Fault Refusal := run s fun d0 =>
  let d := d0.at t
  let st := d.rd P.DPX_STATE
  if st = 2 || (st = 3 && cause = 8 && d.side = 1) then
    let d1 := { d with peer := { d.peer with giveB := some b } }
    match d1.peer.lastCopy with
    | some j => if b ≤ j + 2 then { d1 with peer := { d1.peer with takeSent := true } }.emit (.link 6 (le 4 (u32 b))) else d1
    | none => d1
  else d

/-- SILENT_AT_BOUNDARY (R281): at boundary b the giving-up unit becomes SILENT, or STANDBY with cause 8, and stops every output. -/
def execSilentAtBoundary (t : Nat) (s : State) : Host.Outcome State Fault Refusal := run s fun d0 =>
  let d := d0.at t
  match d.peer.boundary with
  | some b =>
    if d.peer.yielding && b * cycleNs ≤ d.now then
      let cause := d.rd P.DPX_GIVEUP_CAUSE
      let st := if cause = 8 then 2 else 4
      let d1 := { d with
        peer := { d.peer with yielding := false, boundary := none, silentAt := some d.now, lastCopy := some (d.cyc.next - 1) }
        stp := { d.stp with series := none } }
      (d1.unitState st cause).outputs
    else d
  | none => d

/-- CLAIM_RECEIVE (R286): a peer's CLAIM for the same boundary makes a claiming B-side yield. -/
def execClaimReceive (t b : Nat) (s : State) : Host.Outcome State Fault Refusal := run s fun d0 =>
  let d := d0.at t
  match d.peer.claim with
  | some c =>
    if c = b && d.side = 2 then
      (({ d with peer := { d.peer with seatDriven := false, claim := none } }.emit (.pin "SEAT" true)).toShadow).outputs
    else d
  | none => d

/-- RETURN_REQUEST (R289): an A-side SHADOW under `DPX.REVERT` with equal digests for `DPX.RETURN_HOLD` asks for the return of
control; at the ACTIVE B-side the request gives up with cause 8. -/
def execReturnRequest (t : Nat) (s : State) : Host.Outcome State Fault Refusal := run s fun d0 =>
  let d := d0.at t
  if d.active then if d.side = 2 then d.giveUp 8 else d
  else if d.rd P.DPX_STATE = 3 && d.side = 1 && d.cf P.DPX_REVERT = 1 && !d.peer.holdMismatch && !d.peer.waitCheckpoint then
    match d.peer.holdFrom with
    | some h => if h + d.cf P.DPX_RETURN_HOLD * sec ≤ d.now then d.emit (.link 9 []) else d
    | none => d
  else d

/-- The scope that the payload of a safety mail frame names (R216, Table 8.5): ALL when it names nothing or cannot be trusted. -/
def stopScope (p : Bytes) : Scope :=
  let sc : Scope := { all := bitOf (fld p 1 1) 0, groups := fld p 2 2, mask := fld p 4 12 }
  if p.length != 16 || fld p 1 1 / 2 != 0 then Scope.allScope
  else if !sc.all && sc.groups = 0 && sc.mask = 0 then Scope.allScope
  else sc

/-- PEER_STOP_FWD (R276): a STOP that the non-ACTIVE unit forwards enters the ACTIVE unit as a class 0x08 input under the stamp it
arrived with; the lanes latch it at once and the confirmation goes back. -/
def execPeerStopFwd (t stamp idx : Nat) (payload : Bytes) (s : State) : Host.Outcome State Fault Refusal := run s fun d0 =>
  let d := d0.at t
  if d.active then
    ((d.stopEvent 3 (stopScope payload) { stamp := stamp, cls := 8, idx := idx } false).input stamp 8 idx payload).emit (.link 8 [])
  else d

/-- STOP_FWD_CONFIRM (R276): the ACTIVE unit has latched the oldest forwarded STOP; its sender gets OK. -/
def execStopFwdConfirm (t : Nat) (s : State) : Host.Outcome State Fault Refusal := run s fun d0 =>
  let d := d0.at t
  match d.peer.fwd with
  | (_, q) :: rest => { d with peer := { d.peer with fwd := rest } }.sendReply q.ep q.tag q.mbx q.op {} q.trailer
  | [] => d

end Sys2Proof.Machine
end

