-- ==== Sys2Proof/Machine/Ring.lean ====
section
/-!
DEFINITION. The Ring engine: ports, switch, by-pass, PTP and the transparent clock (Chapter 11: R294 to R309).
-/
namespace Sys2Proof.Machine
open Sys2Proof

/-- The Ring engine's state changed. -/
def Dev.rng (d : Dev) (f : RingSt → RingSt) : Dev := { d with ring := f d.ring }

/-- The unit's MAC address (R295). -/
def macBytes : Bytes := fit 6 (Config.identity P.SYS_MAC 0)

/-- A byte string as a number, first byte highest. -/
def beNat (b : Bytes) : Nat := b.foldl (fun s x => 256 * s + x.toNat) 0

/-- The clockIdentity (R302): EUI-64 of the MAC address. -/
def clockId : Bytes := macBytes.take 3 ++ [0xFF#8, 0xFE#8] ++ macBytes.drop 3

/-! ### Ports and by-pass -/

/-- A port state set, with notice 0x4080 (Table 11.4); also where it stays DOWN on a link it cannot use (R294). -/
def Dev.portState (d : Dev) (p new speed : Nat) : Dev :=
  ((d.wr P.RNG_PORT_STATE p new).wr P.RNG_SPEED p speed).noticeT 0x4080
    (le 1 p ++ le 1 (d.rd P.RNG_PORT_STATE p) ++ le 1 new ++ le 1 speed)

/-- A by-pass state set, with its pin and notice 0x4081 (R298). -/
def Dev.bypass (d : Dev) (new cause : Nat) : Dev :=
  let old := d.rd P.RNG_BYPASS_STATE
  if old = new then d
  else ((d.wr P.RNG_BYPASS_STATE 0 new).emit (.pin "BYPASS_DRV" (new != 0))).noticeT 0x4081 (le 1 old ++ le 1 new ++ le 1 cause)

/-- A hardware release of the by-pass (R298). -/
def Dev.bypassHw (d : Dev) : Dev := d.bypass 0 4

/-- Whether a ring port is up. -/
def Dev.portUp (d : Dev) (p : Nat) : Bool := 2 ≤ d.rd P.RNG_PORT_STATE p

/-- What the by-pass makes of the ports (Table 11.1): joined with both up; in DRIVEN, since when both are down. -/
def Dev.bypassPorts (d : Dev) : Dev :=
  let both := d.portUp 0 && d.portUp 1
  let none_ := !d.portUp 0 && !d.portUp 1
  let d1 := d.rng fun r => { r with downSince := if none_ then (match r.downSince with | some t => some t | none => some d.now) else none }
  d1.when (d1.rd P.RNG_BYPASS_STATE == 1 && both) (·.bypass 2 1)

/-- R294, R297: a ring port's link comes up (`mbit`, `full` duplex) or goes down. With MRP a second port that comes up stays BLOCKED until the topology
change. -/
def execPortLinkChange (t p : Nat) (up : Bool) (mbit : Nat) (full : Bool) (s : State) : Host.Outcome State Fault Refusal := run s fun d0 =>
  let d := d0.at t
  let old := d.rd P.RNG_PORT_STATE p
  if 1 < p ∨ d.rd P.RNG_PORT_EN p = 0 ∨ d.ring.failed.contains p ∨ d.ring.failed.contains 2 then d
  else if up then
    if d.portUp p then d
    else if !full || (mbit != 100 && mbit != 1000) then d.portState p 1 0
    else
      let mrp := d.rd P.RNG_MRP_EN == 1
      let new := if mrp && d.rd P.RNG_PORT_STATE (1 - p) == 3 then 2 else 3
      let d1 := (d.inc P.RNG_LINK_CHANGES p).portState p new (if mbit = 1000 then 2 else 1)
      (d1.when (mrp && d.portUp (1 - p)) (·.emit (.eth (1 - p) (ascii "MRP_LinkUp" ++ le 1 p)))).bypassPorts
  else if old < 2 then d
  else
    let d1 := (d.inc P.RNG_LINK_CHANGES p).portState p 1 0
    (d1.when (d.rd P.RNG_MRP_EN == 1 && d.portUp (1 - p)) fun d =>
      -- the port that stays carries the ring
      ((d.emit (.eth (1 - p) (ascii "MRP_LinkDown" ++ le 1 p))).when (d.rd P.RNG_PORT_STATE (1 - p) == 2) fun d =>
        d.portState (1 - p) 3 (d.rd P.RNG_SPEED (1 - p)))).bypassPorts

/-- R298: firmware drives the by-pass: at once after a reset, else `RNG.RETRY_S` after the last failure. -/
def execBypassJoin (t : Nat) (s : State) : Host.Outcome State Fault Refusal := run s fun d0 =>
  let d := d0.at t
  let due : Bool := match d.ring.lastFail with
    | some f => decide (f + d.rd P.RNG_RETRY_S * sec ≤ t)
    | none => true
  if d.rd P.RNG_BYPASS_STATE = 0 ∧ d.rd P.RNG_BYPASS_EN = 1 ∧ due ∧ !d.rcd.pfail ∧ !d.ring.failed.contains 2 then
    -- the manual lists no cause for this change
    let (v, d1) := d.free
    ((d1.rng fun r => { r with joinAt := t }).bypass 1 (v % 256)).bypassPorts
  else d

/-- R298: a join without both ports up within `RNG.JOIN_MS`. -/
def execBypassJoinTimeout (t : Nat) (s : State) : Host.Outcome State Fault Refusal := run s fun d0 =>
  let d := d0.at t
  if d.rd P.RNG_BYPASS_STATE = 1 ∧ d.ring.joinAt + d.rd P.RNG_JOIN_MS * ms ≤ t then
    ((d.rng fun r => { r with lastFail := some t }).inc P.RNG_JOIN_FAILS).bypass 0 2
  else d

/-- R298: both ports down for 1 s in DRIVEN. -/
def execBypassDownRelease (t : Nat) (s : State) : Host.Outcome State Fault Refusal := run s fun d0 =>
  let d := d0.at t
  match d.ring.downSince with
  | some f =>
    if d.rd P.RNG_BYPASS_STATE = 2 ∧ f + sec ≤ t then (d.rng fun r => { r with lastFail := some t }).bypass 0 3 else d
  | none => d

/-- R307: a fault of Tile 0, 1 (a port) or 2 (switch core). -/
def execRingFault (t tile cause : Nat) (s : State) : Host.Outcome State Fault Refusal := run s fun d0 =>
  let d := d0.at t
  if 2 < tile ∨ d.ring.failed.contains tile then d
  else
    let d1 := d.rng fun r => { r with failed := r.failed ++ [tile] }
    if tile = 2 then (d1.bypassHw).fault 0x4082 (location 8 0 0 .engine) (le 1 cause)
    else
      let d2 := (d1.when (d.portUp tile) fun d => (d.inc P.RNG_LINK_CHANGES tile).portState tile 1 0).bypassPorts
      d2.fault 0x4082 (location 8 tile 0 .tile) (le 1 cause)

/-! ### The switch -/

/-- Entry of `RNG.VLAN` for a VID: members and untagged masks. -/
def Dev.vlan (d : Dev) (vid : Nat) : Option (Nat × Nat) :=
  (List.range 16).findSome? fun i =>
    let v := d.rd P.RNG_VLAN i
    if vid ≠ 0 ∧ v % 65536 = vid then some (v / 65536 % 256 % 8, v / 2 ^ 24 % 256) else none

/-- PTP: EtherType 0x88F7, or UDP ports 319 and 320 (R301). -/
def EthFrame.isPtp (f : EthFrame) : Bool := f.etype == 0x88F7 || f.udp == some 319 || f.udp == some 320

/-- MRP: EtherType 0x88E3. -/
def EthFrame.isMrp (f : EthFrame) : Bool := f.etype == 0x88E3

/-- A multicast or broadcast destination: the low bit of its first byte. -/
def EthFrame.group (f : EthFrame) : Bool := bitOf f.dst 40

/-- The egress queue of a frame (R296). -/
def EthFrame.queue (f : EthFrame) : Nat :=
  if f.isMrp || (match f.ptp with | some (ty, _) => ty ≤ 3 | none => false) then 3
  else match f.tag with
    | some (_, pcp) => pcp / 2
    | none => 0

/-- Where a frame goes (R295, R297): ports of its VLAN but its own, FORWARDING (MRP also over BLOCKED ring ports). -/
def Dev.egress (d : Dev) (f : EthFrame) (vid members : Nat) : List Nat :=
  let open_ (p : Nat) : Bool := p != f.port && bitOf members p &&
    (p == 2 || d.rd P.RNG_PORT_STATE p == 3 || (f.isMrp && d.rd P.RNG_PORT_STATE p == 2))
  if f.group then [0, 1, 2].filter open_
  else if f.dst = beNat macBytes then [2].filter open_
  else match d.ring.table.find? (fun e => e.1 == vid && e.2.1 == f.dst && d.now < e.2.2.2 + 300 * sec) with
    | some e => [e.2.2.1].filter open_
    | none => [0, 1].filter open_

/-- The policer of port 2 (R295): bits of one second against `RNG.INT_RATE`. -/
def Dev.police (d : Dev) (len : Nat) : Bool × Dev :=
  let s := d.now / sec
  let used := if d.ring.polSec = s then d.ring.polBits else 0
  let ok := decide (used + 8 * len ≤ d.rd P.RNG_INT_RATE * 1000000)
  (ok, d.rng fun r => { r with polSec := s, polBits := if ok then used + 8 * len else used })

/-- Internal latency and PHY latency on ingress and egress (R299). -/
def Dev.wireIn (d : Dev) (p stamp : Nat) : Nat :=
  if p = 2 then stamp else stamp - (if d.rd P.RNG_SPEED p = 2 then 112 else 840) - d.rd P.RNG_PHY_RX_NS p

/-- The egress wire stamp. -/
def Dev.wireOut (d : Dev) (p stamp : Nat) : Nat :=
  if p = 2 then stamp else stamp + (if d.rd P.RNG_SPEED p = 2 then 88 else 600) + d.rd P.RNG_PHY_TX_NS p

/-- Whether a frame to port 2 has a taker there (R306): IPv4 needs an address, UDP port 52140 or PTP; TCP has none. -/
def Dev.served (d : Dev) (f : EthFrame) : Bool :=
  if f.tcp then false
  else match f.udp with
    | some p => d.rd P.RNG_IP != 0 && (p == 52140 || p == 319 || p == 320)
    | none => f.etype != 0x0800 || d.rd P.RNG_IP != 0

/-- One egress copy (R304, R305): a forwarded Sync or Delay_Req leaves corrected by its residence, a Sync in the peer-to-peer profile also by the link
delay of its ingress port; Pdelay messages go no further. -/
def Dev.sendCopy (d : Dev) (f : EthFrame) (p : Nat) : Dev :=
  if f.lost.contains p then d.inc P.RNG_DROPS p
  else
    let d1 := d.inc P.RNG_TX_FRAMES p
    let res := d.wireOut p (nth f.tx p) - d.wireIn f.port f.rx
    match f.ptp with
    | some (ty, corr) =>
      if ty ≤ 1 ∧ d.rd P.RNG_TC_EN = 1 then
        let link := if d.rd P.RNG_PTP_DELAY = 1 ∧ ty = 0 ∧ f.port < 2 then d.rd P.RNG_PEER_DELAY f.port else 0
        (d1.maxTo P.RNG_RES_MAX 0 res).emit (.ptp p ty (le 8 ((corr + (res + link) * 65536) % 2 ^ 64) ++ f.data))
      else d1.emit (.eth p f.data)
    | none => d1.emit (.eth p f.data)

/-- R295, R296, R304: the switch stores and forwards a frame. -/
def execEthFrameForward (t : Nat) (f : EthFrame) (s : State) : Host.Outcome State Fault Refusal := run s fun d0 =>
  let d := d0.at t
  if 2 < f.port ∨ d.ring.failed.contains 2 ∨ (f.port < 2 ∧ !d.portUp f.port) ∨ (f.port < 2 ∧ d.rd P.RNG_PORT_STATE f.port = 2 ∧ !f.isMrp) then d
  else if !f.ok ∨ f.len < 64 ∨ 1522 < f.len then d.when (f.port < 2) (·.inc P.RNG_RX_ERR f.port)
  else
    let d1 := d.inc P.RNG_RX_FRAMES f.port
    let vid := match f.tag with
      | some (v, _) => if v = 0 then d.rd P.RNG_PVID f.port else v
      | none => d.rd P.RNG_PVID f.port
    match d.vlan vid with
    | none => d1.inc P.RNG_DROPS f.port
    | some (members, _) =>
      if !bitOf members f.port then d1.inc P.RNG_DROPS f.port
      else
        let old := d1.ring.table.filter fun e => !(e.1 == vid && e.2.1 == f.src) && decide (t < e.2.2.2 + 300 * sec)
        let d2 := d1.rng fun r => { r with table := if f.src / 2 ^ 40 % 2 = 1 then old else ((vid, f.src, f.port, t) :: old).take 1024 }
        let pdelay := match f.ptp with
          | some (ty, _) => ty == 2 || ty == 3
          | none => false
        if pdelay && d.rd P.RNG_TC_EN == 1 then d2
        else (d2.egress f vid members).foldl (fun d p =>
          if p = 2 then
            if f.group && !f.isPtp && !f.isMrp then
              let (ok, d3) := d.police f.len
              if ok && (f.etype == 0x0806 || vid == d.rd P.RNG_HOST_VID) then d3.inc P.RNG_TX_FRAMES 2 else d3.inc P.RNG_DROPS 2
            else if d.served f then d.inc P.RNG_TX_FRAMES 2 else d.inc P.RNG_DROPS 2
          else d.sendCopy f p) d2

/-- R297: an MRP_TopologyChange with its interval (ms): the address table is flushed after it; a BLOCKED port forwards. -/
def execMrpTopologyChange (t p interval : Nat) (s : State) : Host.Outcome State Fault Refusal := run s fun d0 =>
  let d := d0.at t
  if d.rd P.RNG_MRP_EN ≠ 1 ∨ 1 < p ∨ !d.portUp p then d
  else
    let fl := t + interval * ms
    let d1 := ((d.rng fun r => { r with flushAt := some fl, table := r.table.filter fun e => decide (fl < e.2.2.2) }).inc
      P.RNG_TOPO_CHANGES).noticeT 0x4084 (le 1 p ++ le 2 interval)
    [0, 1].foldl (fun d q => d.when (d.rd P.RNG_PORT_STATE q == 2) fun d => d.portState q 3 (d.rd P.RNG_SPEED q)) d1

/-! ### PTP -/

/-- `clockClass` as grandmaster (Table 2.2). -/
def Dev.clockClass (d : Dev) : Nat :=
  match d.rd P.TIM_STATE with
  | 0 => 255
  | 1 => 248
  | 2 => 6
  | _ => if d.rd P.TIM_DEGRADED = 1 then 187 else 7

/-- Whether the unit may originate Announce and Sync (R303). -/
def Dev.mayAnnounce (d : Dev) : Bool := d.timeSet && !d.replay && (d.cf P.DPX_MODE == 0 || d.active)

/-- The dataset the unit offers (R302), in the order the best master algorithm compares. -/
def Dev.ownDataset (d : Dev) : List Nat :=
  [d.rd P.RNG_PTP_PRIO1, d.clockClass, Config.clockQuality 0 % 256, Config.clockQuality 1 % 65536, d.rd P.RNG_PTP_PRIO2, beNat clockId]

/-- The best foreign master heard within three Announce intervals. -/
def Dev.bestForeign (d : Dev) : Option (Nat × List Nat × Nat) :=
  let alive := d.ring.foreign.filter fun e => d.now ≤ e.2.2 + 3 * 2 ^ d.rd P.RNG_PTP_ANN_LOG * sec
  (sortBy (fun (a b : Nat × List Nat × Nat) => lexLt a.2.1 b.2.1) alive).head?

/-- The role in force (Table 11.3, R303): 0 off, 1 master, 2 follower, 3 best of both, 4 listens only. -/
def Dev.ptpRole (d : Dev) : Nat :=
  let r := d.rd P.RNG_PTP_ROLE
  if (r = 1 ∨ r = 3) ∧ d.cf P.DPX_MODE = 1 ∧ !d.active then (if bitOf (d.cf P.TIM_SOURCE_MASK) 1 then 2 else 4) else r

/-- The PTP state judged again, with notice 0x4083 on a change. -/
def Dev.ptpJudge (d : Dev) : Dev :=
  let best := d.bestForeign
  let slave : Nat × Nat := match best with
    | some e => (3, e.2.1.getLastD 0)
    | none => (1, 0)
  let own : Nat × Nat := (2, beNat clockId)
  let wins := match best with
    | some e => lexLt d.ownDataset e.2.1
    | none => true
  let (st, gm) := match d.ptpRole with
    | 0 => (0, 0)
    | 1 => if d.mayAnnounce then own else (1, 0)
    | 2 => slave
    | 3 => if d.mayAnnounce && wins then own else slave
    | _ => (1, 0)
  -- the identity is kept as its eight bytes, first byte first
  let id := ((le 8 gm).reverse)
  let old := d.rd P.RNG_PTP_STATE
  let d1 := (d.wr P.RNG_PTP_STATE 0 st).wr P.RNG_PTP_GM_ID 0 (unle id)
  d1.when (old != st) (·.noticeT 0x4083 (le 1 old ++ le 1 st ++ id))

/-- A PTP message of the unit sent on both ring ports that are up (R301). -/
def Dev.ptpSend (d : Dev) (type : Nat) (body : Bytes) : Dev :=
  [0, 1].foldl (fun d p => if d.portUp p then (d.inc P.RNG_TX_FRAMES p).emit (.ptp p type body) else d) d

/-- R302: one-step Sync as master: sequence, origin time. -/
def execPtpSyncSend (t : Nat) (s : State) : Host.Outcome State Fault Refusal := run s fun d0 =>
  let d := (d0.at t).ptpJudge
  if d.rd P.RNG_PTP_STATE ≠ 2 then d
  else (d.ptpSend 0 (le 2 d.ring.seqSync ++ le 1 (d.rd P.RNG_PTP_DOMAIN) ++ hubtime80 t)).rng fun r => { r with seqSync := (r.seqSync + 1) % 65536 }

/-- R302: Announce as master: sequence, domain, dataset, timeSource, currentUtcOffset. -/
def execPtpAnnounceSend (t : Nat) (s : State) : Host.Outcome State Fault Refusal := run s fun d0 =>
  let d := (d0.at t).ptpJudge
  if d.rd P.RNG_PTP_STATE ≠ 2 then d
  else
    let ds := d.ownDataset
    let src := if d.rd P.TIM_SOURCE = 1 then 0x20 else 0xA0
    (d.ptpSend 11 (le 2 d.ring.seqAnn ++ le 1 (d.rd P.RNG_PTP_DOMAIN) ++ le 1 (nth ds 0) ++ le 1 (nth ds 1) ++ le 1 (nth ds 2) ++ le 2 (nth ds 3) ++
      le 1 (nth ds 4) ++ clockId ++ le 1 src ++ le 2 (ofS 16 (d.rdS P.TIM_UTC_OFFSET)))).rng fun r => { r with seqAnn := (r.seqAnn + 1) % 65536 }

/-- R304: a Pdelay_Req on a ring port; `mac` is its egress MAC stamp. -/
def execPdelayReqSend (t p mac : Nat) (s : State) : Host.Outcome State Fault Refusal := run s fun d0 =>
  let d := d0.at t
  if 1 < p ∨ !d.portUp p ∨ (d.rd P.RNG_TC_EN = 0 ∧ d.rd P.RNG_PTP_DELAY = 0) then d
  else
    let n := d.ring.seqPd
    ((d.inc P.RNG_TX_FRAMES p).emit (.ptp p 2 (le 2 n ++ le 1 (d.rd P.RNG_PTP_DOMAIN)))).rng fun r =>
      { r with seqPd := (n + 1) % 65536, pdReq := (p, n, d.wireOut p mac) :: r.pdReq.filter (·.1 != p) }

/-- R301 to R304: a PTP message for the unit's clock. Sync 0, Delay_Req 1, Pdelay_Req 2, Pdelay_Resp 3, Announce 11. -/
def execPtpMessageReceive (t p : Nat) (m : PtpMsg) (s : State) : Host.Outcome State Fault Refusal := run s fun d0 =>
  let d := d0.at t
  let wire := d.wireIn p m.rx
  if 1 < p ∨ !d.portUp p then d
  else match m.type with
    | 2 => if d.rd P.RNG_TC_EN = 0 ∧ d.rd P.RNG_PTP_DELAY = 0 then d
           else (d.inc P.RNG_TX_FRAMES p).emit (.ptp p 3 (le 2 m.seq ++ le 1 m.domain ++ hubtime80 wire))
    | 3 =>
      match d.ring.pdReq.find? (fun e => e.1 == p && e.2.1 == m.seq) with
      | some (_, _, sent) =>
        (d.wr P.RNG_PEER_DELAY p (min (2 ^ 32 - 1) ((wire - sent - m.corr / 65536) / 2))).rng fun r => { r with pdReq := r.pdReq.filter (·.1 != p) }
      | none => d
    | _ =>
      if m.domain ≠ d.rd P.RNG_PTP_DOMAIN ∨ d.rd P.RNG_PTP_ROLE = 0 then d
      else match m.type with
        | 11 =>
          if m.dataset.length ≠ 6 ∨ m.dataset.getLastD 0 = beNat clockId then d.ptpJudge
          else (d.rng fun r => { r with foreign := (m.id, m.dataset, t) :: r.foreign.filter (·.1 != m.id) }).ptpJudge
        | 0 =>
          let d1 := d.ptpJudge
          let mine : Bool := match d1.bestForeign with
            | some e => e.1 == m.id
            | none => false
          if d1.rd P.RNG_PTP_STATE = 3 ∧ mine ∧ d1.rd P.TIM_SOURCE = 2 then { d1 with tim := { d1.tim with lastMeas := some t } } else d1
        | 1 =>
          let d1 := d.ptpJudge
          if d1.rd P.RNG_PTP_STATE = 2 ∧ d1.rd P.RNG_PTP_DELAY = 0 then
            (d1.inc P.RNG_TX_FRAMES p).emit (.ptp p 9 (le 2 m.seq ++ le 1 m.domain ++ le 8 m.id ++ hubtime80 wire))
          else d1
        | _ => d.ptpJudge

/-- After a cold start: ports enabled are DOWN until their link is reported, nothing is learned, the by-pass is released (R298, R307). -/
def Dev.ringCold (d : Dev) : Dev :=
  let d1 := d.bypassHw
  let d2 := { d1 with ring := {} }
  [0, 1].foldl (fun d p => (d.wr P.RNG_PORT_STATE p (if d.rd P.RNG_PORT_EN p = 1 then 1 else 0)).wr P.RNG_SPEED p 0) d2

/-- What follows a write of the ring's parameters (R298, R302, R309): port enables, by-pass enable, role. -/
def Dev.ringWritten (d : Dev) : Dev :=
  let d1 := [0, 1].foldl (fun d p =>
    if d.rd P.RNG_PORT_EN p = 0 ∧ d.rd P.RNG_PORT_STATE p ≠ 0 then d.portState p 0 0
    else if d.rd P.RNG_PORT_EN p = 1 ∧ d.rd P.RNG_PORT_STATE p = 0 then d.portState p 1 0 else d) d
  ((d1.when (d1.rd P.RNG_BYPASS_EN == 0) (·.bypass 0 5)).bypassPorts).ptpJudge

end Sys2Proof.Machine
end

