-- ==== Sys2Proof/Machine/Power.lean ====
section
/-!
DEFINITION. Supplies, reset causes, boot, cold start, Dormant, firmware slots, memory faults (Chapter 18: R460 to R481; R43 for what survives).
-/
namespace Sys2Proof.Machine
open Sys2Proof

/-! ### Firmware slots -/

/-- The header of a slot's image (Table 18.7); that of the image a unit is delivered with is the part's own. -/
def Slot.header (s : Slot) (i : Nat) : Bytes :=
  match s.image with
  | some b => b.take 256
  | none => if s.state = 1 then fit 256 (Config.identity P.SEC_SLOT_INFO i) else zeros 256

/-- Result of checking an image (R472, notice 0x7C80): 0 valid, 1 signature, 2 digest, 3 `ARB`, 4 length, 5 key hash; `other` stands for the code of a wrong
`MAGIC` or `HVER`, which the manual does not give. -/
def imageResult (b : Bytes) (arb other : Nat) : Nat :=
  let len := fld b 20 4
  if fld b 0 4 != 0x4B525746 || fld b 4 2 != 1 then other
  else if 67108608 < len || b.length != 256 + len then 4
  else if sha256 (cut b 56 64) != fit 32 (Config.vendorKey (fld b 6 1)) || 3 < fld b 6 1 then 5
  else if !Config.ecdsa (cut b 56 64) (sha256 (b.take 128)) (cut b 128 64) then 1
  else if sha256 (b.drop 256) != cut b 24 32 then 2
  else if fld b 7 1 < arb then 3
  else 0

/-- Whether a slot is valid (R472). -/
def Dev.slotValid (d : Dev) (i : Nat) : Bool :=
  let s := nth d.pwr.slots i
  s.state == 1 && match s.image with | some b => imageResult b (d.rd P.SEC_ARB) 1 == 0 | none => true

/-- The supplies and the boot core changed. -/
def Dev.power (d : Dev) (f : Pwr → Pwr) : Dev := { d with pwr := f d.pwr }

/-- A slot set. -/
def Dev.setBootSlot (d : Dev) (i : Nat) (s : Slot) : Dev := d.power fun (p : Pwr) => { p with slots := p.slots.set i s }

/-- `SEC.SLOT_INFO` (Table 18.11). -/
def Dev.slotInfo (d : Dev) : Bytes :=
  [0, 1].flatMap fun i =>
    let s := nth d.pwr.slots i
    let h := s.header i
    le 1 s.state ++ cut h 7 1 ++ cut h 18 1 ++ le 1 0 ++ cut h 16 2 ++ le 2 0 ++ cut h 8 8 ++ cut h 20 4 ++ zeros 12

/-! ### Reset -/

/-- The RTC in 1/32,768 s (R468). -/
def Dev.rtcTicks (d : Dev) : Nat := ((d.now : Int) - d.pwr.rtcOfs).toNat * 32768 / sec

/-- A reset starts (R464, R466): its cause is recorded unless one is under way; every output goes to its state in reset. -/
def Dev.beginReset (d : Dev) (cause : Nat) : Dev :=
  if d.pwr.mode = 1 then d
  else
    let d1 := d.power fun (p : Pwr) => { p with mode := 1, cause := cause, due := none, rtcReset := d.rtcTicks }
    let d2 := ({ d1 with stp := { d1.stp with outOn := false, series := none }, peer := { d1.peer with seatDriven := false } }.bypassHw).emit
      (.pin "RESET_OUT_N" false)
    (((d2.when d.stp.outOn fun d => (d.emit (.pin "SAFE_OUT0" false)).emit (.pin "SAFE_OUT1" false)).when d.peer.seatDriven
      (·.emit (.pin "SEAT" true))))

/-- Reset sources that arise while the steps of a power failure run wait for them (R465); they are complete in this model. -/
def Dev.resetBy (d : Dev) (cause : Nat) : Dev := if d.pwr.mode = 4 then d else d.beginReset cause

/-- Procedure `boot_select` (R473): the slot, or none for recovery, with the boot state after it. -/
def Dev.bootSelect (d : Dev) : Option Nat × Pwr :=
  let p := d.pwr
  if p.pending ≠ 0xFF ∧ 0 < p.tries ∧ d.slotValid p.pending then
    (some p.pending, { p with tries := p.tries - 1, trial := true, fallback := false })
  else
    let fb := p.pending != 0xFF
    let q := { p with pending := 0xFF, trial := false, fallback := fb }
    if d.slotValid p.active then (some p.active, q)
    else if d.slotValid (1 - p.active) then (some (1 - p.active), { q with active := 1 - p.active, fallback := true })
    else (none, q)

/-- BOOT (R465, R471, R473, R474): the supplies are good and the reset is released; a restart that is due begins its reset first.  `lost` says that the Backup
Domain had lost its power. -/
def execBoot (t : Nat) (lost : Bool) (s : State) : Host.Outcome State Fault Refusal := runAlways s fun d0 =>
  let d1 := d0.at t
  let d := match d1.pwr.due with
    | some (c, at_) => if d1.pwr.mode = 0 && at_ ≤ d1.now then d1.beginReset c else d1
    | none => d1
  if d.pwr.mode ≠ 1 || d.pwr.hot || d.pwr.pinLow || d.pwr.pfail then d
  else
    let (slot, p) := d.bootSelect
    let p1 : Pwr := { p with readyAt := d.now, cause := if lost then 2 else p.cause }
    let d2 := { d with pwr := p1 }.when p1.fallback (·.inc P.SEC_FALLBACKS)
    match slot with
    | some i => (d2.power fun (q : Pwr) => { q with mode := 2, slot := i }).emit (.pin "RESET_OUT_N" true)
    | none => [0, 1, 2, 3].foldl (fun (d : Dev) i => d.wr P.CHU_STATE i 0) { d2.power fun (q : Pwr) => { q with mode := 3 } with host := {} }

/-- Items that a cold start keeps beside configuration (R43, R266, R467): identity, counters in MRAM, the log, the job, keys, measurements. -/
def keepIds : List Nat := [
  P.DPX_SIDE, P.DPX_TENURE, P.HST_AUTH_COUNT, P.LOG_GEN, P.LOG_NEXT, P.LOG_CAPACITY, P.LOG_SPARES, P.LOG_RETIRED, P.LOG_CLEAR_COUNT,
  P.PWR_BOOTS, P.PWR_PFAIL_EVENTS, P.PWR_RAIL_MV, P.PWR_VBAT_MV, P.SYS_TEMP, P.SEC_PROV_STATE, P.SEC_ARB, P.SEC_FALLBACKS, P.AIR_ROLL, P.AIR_EPOCH,
  P.AIR_FCNT, P.AIR_KEY_MISSING, P.JOB_STATE, P.JOB_ID, P.JOB_IMAGE_DIGEST, P.JOB_TRACK_DIGEST, P.JOB_ORIGIN, P.JOB_ROT, P.JOB_TRACKS, P.JOB_DONE_COUNT,
  P.JOB_DONE_MAP, P.JOB_ENROLLED, P.JOB_LOAD_ERR]

/-- Whether an item keeps its value over a cold start. -/
def survives (id : Nat) : Bool :=
  keepIds.contains id || match paramOf id with | some p => p.acc == .rw || p.acc == .rwi | none => false

/-- The register file a cold start leaves. -/
def keepRegs (r : RegFile) : RegFile := r.filter fun e => survives (e.1 / 65536)

/-- R43: every engine from its empty state; what survives is carried over.  Hub time is supplied by the RTC again (R54). -/
def Dev.emptied (d : Dev) : Dev :=
  let rtc := ((d.now : Int) - d.pwr.rtcOfs).toNat
  let regs := keepRegs d.regs
  let pend (o : Option (Nat × Nat)) : Option (Nat × Nat) := o.map fun m => (m.1, wholeSecondAfter rtc)
  let slots := d.pwr.slots.map fun (x : Slot) => if x.state = 3 then { x with state := 2 } else x
  { now := rtc, regs := regs, snap := regs, sticky := d.sticky.filter fun k => survives (k / 65536), out := d.out, freeIx := d.freeIx,
    tim := { tpMode := d.tim.tpMode, tpPend := d.tim.tpPend.map pend },
    rcd := d.rcd, air := d.air, gns := { eph := d.gns.eph, almanac := d.gns.almanac }, mtr := d.mtr,
    pwr := { d.pwr with rtcOfs := 0, slots := slots, wrap := none, due := none },
    peer := { key := d.peer.key, restarts := d.peer.restarts },
    com := { jobMachines := d.com.jobMachines, frame := d.com.frame, job := d.com.job, mtr := d.com.mtr,
             rtk := { cold := (d.com.rtk.filters.filter (·.hist)).map (·.n)
                      filters := d.com.rtk.filters.map fun (x : Filter) => { n := x.n, mode := x.mode, rate := x.rate } } } }

/-- Restarts of the last 24 h (R283). -/
def Dev.recentRestarts (d : Dev) : List Nat := d.peer.restarts.filter fun a => d.now < a + 86400 * sec

/-- R467, R468: the cause, at the head of the history; cause 2 clears the retention first. -/
def Dev.recordCause (d : Dev) : Dev :=
  let c := d.pwr.cause
  let d1 := if c = 2 then
      (((((d.power fun (p : Pwr) => { p with hist := [], rtcOk := false, rtcAt := none }).wr P.PWR_RSTOUT_MS 0 (resetOf P.PWR_RSTOUT_MS 0)).wr P.PWR_WAKE_EN 0
        (resetOf P.PWR_WAKE_EN 0)).wr P.PWR_WAKE_EDGE 0 (resetOf P.PWR_WAKE_EDGE 0)).wr P.PWR_WAKE_AT 0 (resetOf P.PWR_WAKE_AT 0))
    else d
  let d2 := d1.power fun (p : Pwr) => { p with hist := (c, p.slot, p.rtcReset) :: p.hist.take 7 }
  ((d2.wr P.PWR_RESET_CAUSE 0 c).inc P.PWR_BOOTS).wr P.PWR_RTC_STATE 0 (bit d2.pwr.rtcOk)

/-- A cold start (R43, R350, R438, R466, R467): every engine empty, what survives restored, the cause recorded, host link ready. -/
def Dev.coldStart (d0 : Dev) (torn : Bool) : Dev :=
  let wake := d0.rd P.PWR_WAKE_CAUSE
  let d := d0.emptied
  let d1 := ((((((d.slateCold).mtrCold).drkCold).canCold).ringCold).airCold).dspCold
  let d2 := d1.power fun (p : Pwr) => { p with mode := 0, started := true, readyAt := d1.now }
  let d3 := ((d2.recordCause).wr P.PWR_WAKE_CAUSE 0 (if d2.pwr.cause = 9 then wake else 0)).wr P.DPX_RESTARTS 0 d2.recentRestarts.length
  let trial := bit d3.pwr.trial
  let d4 := (d3.wr P.SEC_SLOT_ACTIVE 0 d3.pwr.slot).wr P.SEC_TRIAL 0 (trial * 128 + d3.pwr.tries)
  let kind := if d4.pwr.trial then 2 else if d4.pwr.fallback then 3 else 1
  let d5 := (d4.logCold torn).notice 0x7C81 (le 1 d4.pwr.slot ++ le 1 kind ++ le 1 (d4.rd P.SEC_ARB))
  let d6 := d5.notice 0x7880 (le 1 d5.pwr.cause ++ le 1 d5.pwr.slot ++ le 1 trial ++ le 1 (bit d5.pwr.rtcOk) ++ le 4 (d5.rd P.PWR_BOOTS))
  if d6.rd P.GNS_RUN = 1 then d6.startTracking false else d6

/-- COLD_START (R466, R467): the firmware of a booted unit starts; at power-up the unit has booted.  `torn` says that the last record appended to the log's
image was cut off (R438). -/
def execColdStart (t : Nat) (torn : Bool) (s : State) : Host.Outcome State Fault Refusal := runAlways s fun d0 =>
  let d := d0.at t
  if d.pwr.mode = 2 || d.pwr.mode = 0 && !d.pwr.started then d.coldStart torn else d

/-- RESET_PIN (R464): `RESET_N` has gone low for `width` ns, or has risen; `taken` says whether a pulse between 100 ns and 1 µs was accepted. -/
def execResetPin (t : Nat) (low : Bool) (width : Nat) (taken : Bool) (s : State) : Host.Outcome State Fault Refusal := runAlways s fun d0 =>
  let d := d0.at t
  if d.pwr.mode = 4 then d
  else if !low then d.power fun (p : Pwr) => { p with pinLow := false }
  else if width < 100 || width < 1000 && !taken then d
  else (d.resetBy 4).power fun (p : Pwr) => { p with pinLow := true }

/-- WATCHDOG_RESET (Table 18.4): the host link is not ready within 5 s of the reset release, or an ACTIVE unit has completed no commit for 1 s. -/
def execWatchdogReset (t : Nat) (s : State) : Host.Outcome State Fault Refusal := runAlways s fun d0 =>
  let d := d0.at t
  if d.pwr.mode = 2 && d.pwr.readyAt + 5 * sec ≤ d.now then d.resetBy 5
  else if d.up && d.active && !d.replay then
    match d.cyc.origin with
    | some k => if max d.cyc.lastCommitAt (k * cycleNs) + sec ≤ d.now then d.resetBy 5 else d
    | none => d
  else d

/-- TRIAL_EXPIRE (R477): a trial not confirmed within `SEC.TRIAL_S` of host link ready. -/
def execTrialExpire (t : Nat) (s : State) : Host.Outcome State Fault Refusal := run s fun d0 =>
  let d := d0.at t
  if d.pwr.trial && d.pwr.readyAt + d.cf P.SEC_TRIAL_S * sec ≤ d.now then (d.power fun (p : Pwr) => { p with tries := 0 }).resetBy 11 else d

/-- SILENT_RESTART (R283): a SILENT unit restarts itself `DPX.RESTART_S` after it became SILENT, `DPX.RESTART_MAX` times in 24 h. -/
def execSilentRestart (t : Nat) (s : State) : Host.Outcome State Fault Refusal := run s fun d0 =>
  let d := d0.at t
  let n := d.cf P.DPX_RESTART_S
  match d.peer.silentAt with
  | some a =>
    if d.rd P.DPX_STATE = 4 && n ≠ 0 && a + n * sec ≤ d.now && d.recentRestarts.length < d.cf P.DPX_RESTART_MAX then
      { d with peer := { d.peer with restarts := d.now :: d.recentRestarts } }.resetBy 8
    else d
  | none => d

/-! ### Supplies -/

/-- Monitor limits of the supplies in the row order of Table 18.1 (mV): low, high (0 none), 85 % of nominal for rails of step 1 or 2, else 0. -/
def rails : List (Nat × Nat × Nat) := [
  (705, 810, 0), (752, 864, 0), (1674, 1944, 1530), (3069, 3564, 2805), (1692, 1944, 1530), (1128, 1296, 0), (1692, 1944, 1530), (987, 1134, 0),
  (846, 972, 0), (470, 540, 0), (1900, 0, 0)]

/-- A rail's reading shown (Table 18.10). -/
def Dev.railRead (d : Dev) (r mv : Nat) : Dev :=
  if r = 10 then d.wr P.PWR_VBAT_MV 0 mv
  else
    let b := d.wire P.PWR_RAIL_MV 0
    d.wr P.PWR_RAIL_MV 0 (unle (b.take (2 * r) ++ le 2 mv ++ b.drop (2 * r + 2)))

/-- RAIL_MONITOR_FAULT (R462): a filtered reading outside its monitor range. -/
def execRailMonitorFault (t r mv : Nat) (s : State) : Host.Outcome State Fault Refusal := run s fun d0 =>
  let d := d0.at t
  let (lo, hi, _) := nth rails r
  let low := decide (mv < lo)
  let high := decide (hi ≠ 0) && decide (hi < mv)
  if 11 ≤ r || !(low || high) then d
  else ((((d.railRead r mv).inc P.PWR_MON_FAULTS).faultLast 0x7882 (location 0 0 0 .package)).noticeT 0x7882
    (le 1 r ++ le 2 mv ++ le 1 (if low then 1 else 2))).packageVerdict

/-- BROWNOUT (R462): a rail low since `since` for 500 µs, or one of step 1 or 2 below 85 % of nominal. -/
def execBrownout (t r mv since : Nat) (s : State) : Host.Outcome State Fault Refusal := runAlways s fun d0 =>
  let d := d0.at t
  let (lo, _, deep) := nth rails r
  if 11 ≤ r then d
  else if mv < lo && since + 500 * us ≤ d.now || mv < deep then (d.railRead r mv).resetBy 3 else d

/-- A junction temperature shown (0.1 °C). -/
def Dev.tempRead (d : Dev) (die : Nat) (z : Int) : Dev := d.wrS P.SYS_TEMP die z

/-- Body of notice 0x7884. -/
def thermalBody (die : Nat) (z : Int) (level : Nat) : Bytes := le 1 die ++ le 2 (ofS 16 z) ++ le 1 level

/-- THERMAL_WARNING (Table 18.2): 115 °C or above. -/
def execThermalWarning (t die : Nat) (temp : Int) (s : State) : Host.Outcome State Fault Refusal := run s fun d0 =>
  let d := d0.at t
  if 4 ≤ die || temp < 1150 || d.rd P.PWR_THERMAL ≠ 0 then d
  else (((d.tempRead die temp).wr P.PWR_THERMAL 0 1).faultLast 0x7884 (location 0 die 0 .die)).notice 0x7884 (thermalBody die temp 1)

/-- THERMAL_VERDICT (Table 18.2): 120 °C or above since `since`, for 100 ms. -/
def execThermalVerdict (t die since : Nat) (temp : Int) (s : State) : Host.Outcome State Fault Refusal := run s fun d0 =>
  let d := d0.at t
  if 4 ≤ die || temp < 1200 || d.now < since + 100 * ms || d.rd P.PWR_THERMAL = 2 then d
  else ((((d.tempRead die temp).wr P.PWR_THERMAL 0 2).faultLast 0x7884 (location 0 0 0 .package)).notice 0x7884 (thermalBody die temp 2)).packageVerdict

/-- THERMAL_RESET (Table 18.2): 125 °C or above; the boot is held until every die reads below 105 °C. -/
def execThermalReset (t die : Nat) (temp : Int) (s : State) : Host.Outcome State Fault Refusal := runAlways s fun d0 =>
  let d := d0.at t
  if 4 ≤ die || temp < 1250 || d.pwr.mode = 4 then d
  else ((d.tempRead die temp).resetBy 6).power fun (p : Pwr) => { p with hot := true }

/-- THERMAL_CLEARED (Table 18.2, notice 0x7884 level 0): the temperatures of the four dies, of which `die` was the last to fall. -/
def execThermalCleared (t die : Nat) (temps : List Int) (s : State) : Host.Outcome State Fault Refusal := runAlways s fun d0 =>
  let d := d0.at t
  if 4 ≤ die || temps.length ≠ 4 || d.pwr.mode = 4 then d
  else
    let d1 := (mapFrom (fun i z => (i, z)) 0 temps).foldl (fun d (i, z) => d.tempRead i z) d
    let d2 := d1.when (temps.all fun z => z < 1050) (·.power fun (p : Pwr) => { p with hot := false })
    if d2.up && d2.rd P.PWR_THERMAL ≠ 0 && temps.all fun z => z < 1150 then
      (d2.wr P.PWR_THERMAL 0 0).notice 0x7884 (thermalBody die (nth temps die) 0)
    else d2

/-- PFAIL_ASSERT (R465): by-pass release, give-up cause 4, metering flush, log image. -/
def execPfailAssert (t : Nat) (s : State) : Host.Outcome State Fault Refusal := runAlways s fun d0 =>
  let d := (d0.at t).power fun (p : Pwr) => { p with pfail := true }
  if !d.up || d0.pwr.pfail then d
  else
    let d1 := (((d.inc P.PWR_PFAIL_EVENTS).noticeT 0x7881 (le 1 0)).bypassHw).giveUp 4
    (d1.mtrFlush (d1.cyc.next - 1)).imageCopy

/-- PFAIL_RELEASE (R465): metering and the log continue; the unit that gave up stays so. -/
def execPfailRelease (t : Nat) (s : State) : Host.Outcome State Fault Refusal := runAlways s fun d0 =>
  let d := (d0.at t).power fun (p : Pwr) => { p with pfail := false }
  if d.up && d0.pwr.pfail then (d.noticeT 0x7881 (le 1 1)).imageKeep else d

/-! ### Backup Domain -/

/-- RTC_SET (R468): in LOCKED, at a whole second, at most once per 60 s, the RTC is set from hub time. -/
def execRtcSet (t : Nat) (s : State) : Host.Outcome State Fault Refusal := run s fun d0 =>
  let d := d0.at t
  let soon := match d.pwr.rtcAt with | some a => decide (d.now < a + 60 * sec) | none => false
  if d.rd P.TIM_STATE = 2 && d.now % sec = 0 && !soon then
    (d.power fun (p : Pwr) => { p with rtcAt := some d.now, rtcOk := true, rtcOfs := 0 }).wr P.PWR_RTC_STATE 0 3
  else d

/-- R469: the unit enters Dormant: metering saved, log flushed, by-pass released, `PWR_EN` low. -/
def Dev.enterDormant (d : Dev) : Dev :=
  let d1 := ((d.mtrFlush (d.cyc.next - 1)).flush).airCommit
  let d2 := { d1.bypassHw with stp := { d1.bypassHw.stp with outOn := false, series := none } }
  ((d2.power fun (p : Pwr) => { p with mode := 4 }).emit (.pin "PWR_EN" false)).emit (.pin "RESET_OUT_N" false)

/-- WAKE (R470): an edge of `WAKE0` (1) or `WAKE1` (2), or the RTC alarm (3), in Dormant. -/
def execWake (t source : Nat) (rising : Bool) (s : State) : Host.Outcome State Fault Refusal := runAlways s fun d0 =>
  let d := d0.at t
  let en := bitOf (d.rd P.PWR_WAKE_EN) (source - 1)
  let edge := bitOf (d.rd P.PWR_WAKE_EDGE / 4 ^ (source - 1)) (if rising then 0 else 1)
  let alarm := d.rd P.PWR_WAKE_AT
  let hit := if source = 3 then alarm ≠ 0 && alarm * 32768 ≤ d.rtcTicks else (source == 1 || source == 2) && edge
  if d.pwr.mode = 4 && en && hit then
    ((d.power fun (p : Pwr) => { p with mode := 1, cause := 9, rtcReset := d.rtcTicks }).wr P.PWR_WAKE_CAUSE 0 source).emit (.pin "PWR_EN" true)
  else d

/-! ### Memory -/

/-- DRAM_SCRUB (R480): the patrol scrub has corrected `n` single-bit errors. -/
def execDramScrub (t n : Nat) (s : State) : Host.Outcome State Fault Refusal := run s fun d0 => (d0.at t).addW P.PWR_DRAM_CE 0 n

/-- MEMORY_FAULT (Table 18.8): memory 1 DRAM, 2 NAND, 3 MRAM; `hard` is false for a corrected DRAM error and for an uncorrectable NAND page, which its
reader handles. -/
def execMemoryFault (t mem addr : Nat) (hard : Bool) (s : State) : Host.Outcome State Fault Refusal := run s fun d0 =>
  let d := d0.at t
  let rep (d : Dev) : Dev := d.fault 0x7883 (location 20 0 0 .engine) (le 1 mem ++ le 4 addr)
  match mem with
  | 1 => if hard then (rep (d.inc P.PWR_DRAM_UE)).giveUp 5 else d.inc P.PWR_DRAM_CE
  | 2 => if hard then ((rep (d.inc P.PWR_NAND_UE)).regionLost 0 3).regionLost 1 3 else d
  | 3 => if hard then (rep (d.inc P.PWR_MRAM_UE)).giveUp 5 else d
  | _ => d

/-! ### Keys -/

/-- REKEY_SESSION_END (R479): 60 s after the commit of a rekey its session ends. -/
def execRekeySessionEnd (t : Nat) (s : State) : Host.Outcome State Fault Refusal := run s fun d0 =>
  let d := d0.at t
  match d.pwr.wrap with
  | some (i, _, until_) => if until_ ≤ d.now then (d.power fun (p : Pwr) => { p with wrap := none }).endSession i 2 else d
  | none => d

/-- R479: a salt replaced at its commit: other sessions of the level end, notice 0x7C82, the new key may be exported for 60 s. -/
def Dev.rekey (d : Dev) (i level : Nat) (salt : Bytes) : Dev :=
  let d1 := d.power fun (p : Pwr) => { p with salts := p.salts.set (level - 1) salt, wrap := some (i, level, d.now + 60 * sec) }
  let d2 := [0, 1, 2, 3].foldl (fun d j =>
    match d.slotAt j with
    | some x => if j ≠ i && x.level = level && !x.pending then d.endSession j 2 else d
    | none => d) d1
  d2.notice 0x7C82 (le 1 level ++ (sha256 (d2.levelKey level)).take 8)

/-- `SEC.KEY_EXPORT` as a session slot reads it over a transport (R478, R479). -/
def Dev.keyExport (d : Dev) (tr : Nat) (slot : Option Nat) : Bytes :=
  if d.rd P.SEC_PROV_STATE = 0 then
    if tr = 1 then [1, 2, 3].flatMap fun l => fit 40 (d.levelKey l) else zeros 120
  else match d.pwr.wrap, slot with
    | some (i, level, until_), some j =>
      if i = j && d.now < until_ then
        let ks := match d.slotAt i with | some x => x.ks | none => []
        [1, 2, 3].flatMap fun l => if l = level then keyWrap (ks.take 16) (d.levelKey l) else zeros 40
      else zeros 120
    | _, _ => zeros 120

end Sys2Proof.Machine
end

