-- ==== Sys2Proof/Machine/Items.lean ====
section
/-!
DEFINITION. What a read of a parameter returns: plain items and the blocks that are formed when they are read (Chapter 17: R444 to R449, R457).
-/
namespace Sys2Proof

/-- What an observation counter beyond the Bench counts: its event code and unit (R413, which states neither). -/
opaque Config.counterEvent : Nat → Nat

/-- Record codes without a notice that this firmware uses (R458). -/
opaque Config.recordCode : Nat → Bool

end Sys2Proof

namespace Sys2Proof.Machine
open Sys2Proof

/-! ### Descriptors -/

/-- The type code of Table 17.2. -/
def VType.code : VType → Nat
  | .u 1 => 1 | .s 1 => 2 | .u 2 => 3 | .s 2 => 4 | .u 4 => 5 | .s 4 => 6 | .u _ => 7 | .s _ => 8
  | .q _ => 9 | .stamp => 10 | .hubtime => 11 | .chars _ => 12 | .block _ _ => 13

/-- Whether a value is a block. -/
def VType.isBlock : VType → Bool
  | .block _ _ => true
  | _ => false

/-- Items that hold a key and read as zeros (R449). -/
def keyItem (id : Nat) : Bool := id == P.AIR_KEY || id == P.DPX_PAIR_KEY || id == P.SEC_REKEY

/-- `SYS.ITEM_DESC` of an identifier (R457, Table 17.5). -/
def itemDesc (id : Nat) : Bytes :=
  match paramOf id with
  | some p =>
    let a := bit (p.acc == .rw) + 2 * bit (p.acc == .rwi) + 4 * bit (p.acc == .act) + 8 * bit (digestItem p) + 16 * bit (keyItem id)
    let c := match p.cnt with | .none => 0 | .wrap => 1 | .stick => 2 | .event => 3
    le 1 p.ty.code ++ le 1 a ++ le 1 (if p.acc == .ro then 0xFF else p.level) ++ le 1 c ++ le 4 p.ty.width ++ le 4 p.lo ++ le 4 p.hi
  | none => List.replicate 16 0xFF#8

/-- Whether a code is a notice of Table 17.1 or Chapter 18 (R458). -/
def noticeCode (c : Nat) : Bool :=
  [(0x02, 8), (0x03, 1), (0x10, 6), (0x12, 6), (0x18, 3), (0x20, 3), (0x21, 6), (0x22, 4), (0x28, 7), (0x30, 4), (0x31, 1), (0x38, 5), (0x40, 5), (0x48, 5),
   (0x50, 5), (0x58, 3), (0x60, 3), (0x61, 1), (0x68, 1), (0x69, 1), (0x70, 5), (0x78, 5), (0x7C, 4)].any fun g =>
    c / 256 == g.1 && 0x80 ≤ c % 256 && c % 256 < 0x80 + g.2

/-- `LOG.CODE_INFO` of a code: class and severity; all ones for a code not in use. -/
def codeInfo (c : Nat) : Bytes :=
  if noticeCode c || c = 0x28C0 || (0xC0 ≤ c % 256 && c % 256 ≤ 0xFE && Config.recordCode c) then le 1 (bit (safetyCode c)) ++ le 1 (sevOf c) ++ le 2 0
  else List.replicate 4 0xFF#8

/-- The engine that a counter is allotted to (Table 15.3), 0 for a reserved one. -/
def counterEngine (i : Nat) : Nat :=
  let ends : List (Nat × Nat) := [(52, 1), (64, 0), (128, 2), (136, 3), (144, 4), (152, 5), (168, 6), (200, 7), (216, 8), (228, 9), (244, 10), (252, 11),
    (260, 12), (308, 13), (316, 14), (324, 15), (328, 16), (348, 17), (368, 20)]
  match ends.find? (fun e => i < e.1) with
  | some e => e.2
  | none => 0

/-- `TLG.CTR_DESC` (R413): the location of a Bench core is its Tile and Slice. -/
def counterDesc (i : Nat) : Bytes :=
  let eng := counterEngine i
  if eng = 0 then zeros 8
  else
    let loc := if i < 48 then location 1 (i / 8) (i / 4 % 2) .slice else location eng 0 0 .engine
    let unit := if i < 48 then bit (i % 4 == 0) else if i < 64 then 0 else Config.counterEvent i / 65536 % 3
    le 4 loc ++ le 2 (Config.counterEvent i % 65536) ++ le 1 unit ++ le 1 0

/-! ### Blocks formed on reading -/

/-- `HST.SESSION` (Table 14.15): zeros for a slot without an open session. -/
def Dev.sessionBytes (d : Dev) (i : Nat) : Bytes :=
  match d.slotAt i with
  | some x =>
    if x.pending then zeros 28
    else le 1 x.ep.tr ++ le 1 x.level ++ le 1 i ++ le 1 0 ++ le 4 x.ep.ip ++ le 2 x.ep.port ++ le 2 0 ++ le 8 (stamp64 x.last) ++ le 4 x.hostCnt ++
      le 4 x.devCnt
  | none => zeros 28

/-- `HST.SUBS` (Table 14.15). -/
def Dev.subBytes (d : Dev) (i : Nat) : Bytes :=
  match d.host.subs[i]? with
  | some u => le 1 u.ep.tr ++ le 1 0 ++ le 2 u.ep.port ++ le 4 u.ep.ip ++ le 2 u.mask ++ le 2 0
  | none => zeros 12

/-- `HST.NOTICE` (R387). -/
def Dev.noticeBytes (d : Dev) (i : Nat) : Bytes :=
  match d.host.ring.find? (fun n => n.seq % 256 == i) with
  | some n => le 2 n.seq ++ le 2 n.code ++ le 2 n.body.length ++ le 2 0 ++ fit 56 n.body
  | none => zeros 64

/-- `PWR.RESET_HIST` (Table 18.10). -/
def Dev.resetHist (d : Dev) : Bytes :=
  fit 128 (d.pwr.hist.flatMap fun h => le 1 h.1 ++ le 1 h.2.1 ++ le 2 0 ++ le 8 h.2.2 ++ le 4 0)

/-- The bytes a read of an item's instance returns (R447).  Blocks with a rule of their own (`CAN.BUF`, `SEC.KEY_EXPORT`, `CYC.JOURNAL`) stand with
`GET_BLOCK`; here the journal's low index is served. -/
def Dev.item (d : Dev) (id i : Nat) : Bytes :=
  match id with
  | 0x0104 | 0x0105 | 0x0106 | 0x0107 => match paramOf id with | some p => fit p.ty.width (Config.identity id i) | none => []
  | 0x010A => itemDesc i
  | 0x0202 => hubtime80 d.now
  | 0x030C => d.cyc.journal.block i
  | 0x200A => le 1024 (match d.com.job.job with | some j => j.done | none => 0)
  | 0x200B => match d.task? i with | some t => t.bytes | none => le 2 i ++ zeros 14
  | 0x2111 => match d.com.slt.res.find? (fun r => r.slot == i) with | some r => r.bytes | none => zeros 28
  | 0x2112 => match d.ms? i with | some m => fit 16 m.rec_ | none => fit 16 (offRecord i)
  | 0x2114 => d.hostRes i
  | 0x2211 => d.covMap i
  | 0x2212 => d.covChanged i
  | 0x2216 => match (d.com.cov.machs.find? (·.n == i)).bind (·.issued) with | some b => fit 932 b | none => zeros 932
  | 0x2821 => d.com.stop.record
  | 0x3012 | 0x3810 => zeros 16
  | 0x7C03 => zeros 17
  | 0x400A => fit 6 (Config.identity P.SYS_MAC 0)
  | 0x480D => (d.bufRead i).1
  | 0x6007 => d.sessionBytes i
  | 0x6008 => d.subBytes i
  | 0x6009 => d.noticeBytes i
  | 0x6803 => d.taskBytes i
  | 0x6804 => d.coreBytes i
  | 0x6805 => le 2 (d.readyCount i)
  | 0x6902 => match d.tlg.snaps with | s :: _ => s.2 | [] => zeros 1976
  | 0x6903 => counterDesc i
  | 0x7015 => codeInfo i
  | 0x7802 => d.resetHist
  | 0x7C04 => zeros 120
  | 0x7C05 => d.keyHashes
  | 0x7C07 => d.slotInfo
  | _ => d.wire id i

/-- The row of an item whose instance exists, else none (`NO_SUCH_PARAM`: R444, R445). -/
def itemRow (id i : Nat) : Option Param :=
  match paramOf id with
  | some p => if p.hasInst i then some p else none
  | none => none

/-! ### The state reads are served from -/

/-- The register file as the commit of cycle `k` leaves it: writes of later cycles do not show (R374, R450). -/
def Dev.regsAfter (d : Dev) (k : Nat) : RegFile :=
  (d.staged.filter fun s => k < s.cycle).reverse.foldl (fun r s => Regs.put r s.key s.old) d.regs

/-- Items that are live whatever the last commit left (`TIM.NOW` is formed when read; Table 8.14). -/
def liveItem (id : Nat) : Bool := id == P.STP_STATE || id == P.STP_LATCH_GROUPS || id == P.STP_LATCH_MASK

/-- What a read sees: the state of the last completed commit, or, in a unit that does not commit or before its first commit, the state as it is. -/
def Dev.view (d : Dev) : Dev :=
  if d.active && d.committedOnce then
    let live := d.regs.filter fun e => liveItem (e.1 / 65536)
    { d with regs := live.foldl (fun r e => Regs.put r e.1 e.2) (d.snap.filter fun e => !liveItem (e.1 / 65536)) }
  else d

end Sys2Proof.Machine
end

