-- ==== Sys2Proof/Machine/StopRecord.lean ====
section
/-!
DEFINITION. The stop/permit record of a cycle: the fold of the stop inputs, release in two steps, and what the lanes are given (Chapter 8: R213, R231 to
R235).
-/
namespace Sys2Proof.Machine
open Sys2Proof

/-- An entry of the record (Table 8.11). -/
structure StopEntry where
  key : EvKey := {}
  src : Nat := 0
  action : Nat := 1
  status : Nat := 0
  scope : Scope := {}
  deriving DecidableEq, Repr, Inhabited

/-- The entry's 28 bytes (Table 8.11). -/
def StopEntry.bytes (e : StopEntry) : Bytes :=
  le 8 (stamp64 e.key.stamp) ++ le 1 e.key.cls ++ le 1 e.key.idx ++ le 1 e.src ++ le 1 e.action ++ e.scope.wire e.status

/-- What identifies the event of an input. -/
def Input.evKey (x : Input) : EvKey := { stamp := x.stamp, cls := x.cls, idx := x.idx }

/-- The scope in bytes 10 to 27 of Table 8.11, as a class 0x09 payload carries it. -/
def verdictScope (p : Bytes) : Scope := { all := bitOf (fld p 4 1) 0, groups := fld p 2 2, mask := fld p 6 12 }

/-! ### Levels and faults (pass 1) -/

/-- R213, R214, R235: an input's part in the levels and faults that `HARDWIRED` is formed from. -/
def StopCom.level (c : StopCom) (x : Input) : StopCom :=
  match x.cls with
  | 6 => { c with levels := c.levels.set (x.idx % 4) (fld x.payload 0 1 == 1) }
  | 9 =>
    let set := fld x.payload 1 1 == 2
    if fld x.payload 1 1 != 2 && fld x.payload 1 1 != 3 then c
    else match fld x.payload 0 1 with
      | 2 => { c with faults := c.faults.set (fld x.payload 19 1 % 2) set }
      | 11 => { c with outFault := set }
      | _ => c
  | _ => c

/-- `HARDWIRED` (Table 8.11): an enabled channel open, or a circuit or output fault held. -/
def Dev.hardwired (d : Dev) (c : StopCom) : Bool :=
  [0, 1, 2, 3].any (fun i => d.cf P.STP_ESTOP_EN (i / 2) == 1 && !(nth c.levels i)) || c.faults.any id || c.outFault

/-! ### Entries (pass 2) -/

/-- The fold's state: committed stop state, entries, what was released, the outcome of each arm or release with its input, and whether a release named ALL. -/
structure StopFold where
  com : StopCom := {}
  evs : List StopEntry := []
  released : Scope := {}
  outcomes : List (Input × Nat) := []
  deriving DecidableEq, Repr, Inhabited

/-- A stop or fault entry: its scope latches (R221). -/
def StopFold.stop (f : StopFold) (e : StopEntry) : StopFold :=
  { f with evs := f.evs ++ [e], com := { f.com with latched := f.com.latched.join e.scope } }

/-- Whether a scope names a component that is latched (R232). -/
def namesLatched (s latched : Scope) : Bool :=
  s.all && latched.all || s.groups &&& latched.groups != 0 || s.mask &&& latched.mask != 0

/-- The components of a scope cleared (R232). -/
def clearScope (latched s : Scope) : Scope :=
  { all := latched.all && !s.all, groups := maskOf ((setBits 16 latched.groups).filter fun g => !(bitOf s.groups g))
    mask := maskOf ((setBits 96 latched.mask).filter fun m => !(bitOf s.mask m)) }

/-- The scope that an arm or release names, as its bytes say. -/
def namedScope (p : Bytes) : Scope := { all := bitOf (fld p 1 1) 0, groups := fld p 2 2, mask := fld p 4 12 }

/-- ARM_RELEASE (R231): DENIED below OPERATE, RANGE where its scope names nothing latched; an accepted arm replaces any earlier one. -/
def StopFold.arm (f : StopFold) (x : Input) : StopFold :=
  let sc := namedScope x.payload
  let status := if x.level < 1 then 3 else if namesLatched sc f.com.latched then 0 else 4
  let e : StopEntry := { key := x.evKey, src := 12, action := if status = 0 then 4 else 6, status := status, scope := sc }
  let arm : Arm := { sid := x.sid.getD 255, scope := cut x.payload 1 15, stamp := x.stamp }
  { f with evs := f.evs ++ [e], outcomes := f.outcomes ++ [(x, status)],
           com := { f.com with arm := if status = 0 then some arm else f.com.arm } }

/-- The status of a RELEASE (Table 8.10): `hard` is the `HARDWIRED` bit of the record, `nonconf` the machines that are `NONCONF` and not LOST in the fence
table of the cycle. -/
def Dev.releaseStatus (d : Dev) (f : StopFold) (hard : Bool) (nonconf : Nat) (x : Input) : Nat :=
  let sc := namedScope x.payload
  if x.level < 1 then 3
  else match f.com.arm with
    | none => 5
    | some a =>
      if a.sid != x.sid.getD 255 then 3
      else if a.stamp + 10 * sec < x.stamp || a.scope != cut x.payload 1 15 then 5
      else if hard then 5
      else if d.effMask sc &&& nonconf != 0 then 5
      else if namesLatched sc f.com.latched then 0
      else 4

/-- RELEASE (R231, R232): from the session of the arm it consumes the arm, whatever its outcome. -/
def Dev.foldRelease (d : Dev) (hard : Bool) (nonconf : Nat) (f : StopFold) (x : Input) : StopFold :=
  let sc := namedScope x.payload
  let status := d.releaseStatus f hard nonconf x
  let own := match f.com.arm with | some a => decide (1 ≤ x.level) && a.sid == x.sid.getD 255 | none => false
  let e : StopEntry := { key := x.evKey, src := 12, action := if status = 0 then 5 else 6, status := status, scope := sc }
  { f with evs := f.evs ++ [e], outcomes := f.outcomes ++ [(x, status)],
           released := if status = 0 then f.released.join sc else f.released
           com := { f.com with arm := if own then none else f.com.arm
                               latched := if status = 0 then clearScope f.com.latched sc else f.com.latched } }

/-- The joined scope of the CAN stop entries that a frame's record matches with data byte 0 of 0x5A (R217). -/
def Dev.canStopScope (d : Dev) (x : Input) : Option Scope :=
  let p := x.payload
  let id := fld p 4 4 % 2 ^ 29 + (if bitOf (fld p 0 1) 3 then 2 ^ 31 else 0)
  if fld p 24 1 != 0x5A then none
  else
    let hits := [0, 1, 2, 3].filterMap fun i =>
      let e := le 8 (d.cf P.STP_CAN_STOP i)
      if fld e 0 4 == id && fld e 4 1 == x.idx then d.canScope i else none
    match hits with
    | [] => none
    | s :: ss => some (ss.foldl Scope.join s)

/-- One input folded (R235). -/
def Dev.foldStop (d : Dev) (hard : Bool) (nonconf : Nat) (f : StopFold) (x : Input) : StopFold :=
  let p := x.payload
  match x.cls with
  | 2 =>
    let i := fld p 4 2 - 0x0800
    if p.length == 6 && fld p 0 1 == 0x42 && (fld p 1 1 == 1 || fld p 1 1 == 3) && 0x0800 ≤ fld p 4 2 && i < 16 && d.cf P.STP_REMOTE_MODE i != 0 then
      f.stop { key := x.evKey, src := 6, scope := d.remoteScope i }
    else f
  | 3 => match d.canStopScope x with
    | some sc => f.stop { key := x.evKey, src := 4, scope := sc }
    | none => f
  | 6 => if fld p 0 1 == 0 && fld p 1 1 == 1 then f.stop { key := x.evKey, src := 1, scope := Scope.allScope } else f
  | 8 =>
    if x.level = 255 then f
    else match fld p 0 1 with
      | 0x0C => f.stop { key := x.evKey, src := 3, scope := stopScope p }
      | 0x0D => f.arm x
      | 0x0E => d.foldRelease hard nonconf f x
      | _ => f
  | 9 =>
    let e : StopEntry := { key := x.evKey, src := fld p 0 1, action := fld p 1 1, scope := verdictScope p }
    if fld p 1 1 = 3 then { f with evs := f.evs ++ [e] } else f.stop e
  | _ => f

/-- R235: the `NONCONF` bits of the cycle's fence table, ascending, stamped with the `EPOCH` of the solution. -/
def Dev.foldNonconf (d : Dev) (nonconf : Nat) (list_ : Bytes) (f : StopFold) : StopFold :=
  (setBits 96 nonconf).foldl (fun f j =>
    let n := j + 1
    let at_ := (List.range (fld list_ 4 2)).find? fun i => fld list_ (8 + 20 * i) 1 == n
    let stamp := match at_ with
      | some i => match ofStamp64 (fld list_ (8 + 20 * i + 12) 8) with | some t => t | none => 0
      | none => 0
    f.stop { key := { stamp := stamp, cls := 0, idx := n }, src := 8, scope := d.nonconfScope n }) f

/-- The record (Table 8.11). -/
def stopRecord (k : Nat) (c : StopCom) (hard : Bool) (evs : List StopEntry) : Bytes :=
  let armed := match c.arm with | some a => decide ((k + 1) * cycleNs < a.stamp + 10 * sec) | none => false
  let kept := evs.take 1024
  let flags := bit c.latched.all + 2 * bit armed + 4 * bit hard + 8 * bit (1024 < evs.length)
  le 4 (u32 k) ++ le 2 flags ++ le 2 kept.length ++ le 2 c.latched.groups ++ le 2 0 ++ le 12 c.latched.mask ++ kept.flatMap StopEntry.bytes

/-- Stop sources of the cycle enter its record: they no longer wait for one (R233). -/
def Dev.enterKeys (d : Dev) (evs : List StopEntry) : Dev :=
  { d with stp := { d.stp with unentered := d.stp.unentered.filter fun k => !(evs.any fun e => e.key == k) } }

/-- Notice 0x2881 of each release decided. -/
def Dev.releaseNotices (d : Dev) (k : Nat) (l : List (Input × Nat)) : Dev :=
  l.foldl (fun d (x, status) =>
    if fld x.payload 0 1 = 0x0E then
      let d1 := d.when (status != 0) (·.inc P.STP_REL_REFUSED)
      d1.notice 0x2881 (le 1 status ++ cut x.payload 1 15 ++ le 4 (u32 k))
    else d) d

/-- The `stop_permit(k)` stage (R27, R231 to R235): `xs` are the cycle's inputs in commit order, `fence` and `list_` what `slate(k)` built; answers the
outcomes of the arms and releases. -/
def Dev.stopPermit (d : Dev) (k : Nat) (xs : List Input) (fence list_ : Bytes) : Dev × List (Input × Nat) :=
  let levels := xs.foldl StopCom.level d.com.stop
  let hard := d.hardwired levels
  let nonconf := maskOf ((setBits 96 (fld fence 8 12)).filter fun j => !(bitOf (fld fence 20 12) j))
  let f0 : StopFold := { com := levels }
  let f := d.foldNonconf nonconf list_ (xs.foldl (d.foldStop hard nonconf) f0)
  let arm := match f.com.arm with | some a => if a.stamp + 10 * sec < (k + 1) * cycleNs then none else some a | none => none
  let com := { f.com with record := stopRecord k f.com hard f.evs, arm := arm }
  let d1 := { d with com := { d.com with stop := com }
                     stp := { d.stp with lastRecord := some (k, f.released), pendingFence := some (k, fence, list_) } }
  let d2 := (d1.enterKeys f.evs).releaseNotices k f.outcomes
  (if f.released.all then d2.abandonStep 2 else d2, f.outcomes)

end Sys2Proof.Machine
end

