-- ==== Sys2Proof/Machine/Acts.lean ====
section
/-!
DEFINITION. Writes of parameters: the checks of R379 in their order, the refusals of each defining rule, and what an accepted write does (Chapter 17: R445 to
R450; the act items and value rules of every group).
-/
namespace Sys2Proof.Machine
open Sys2Proof

/-- Who writes: transport, level, session slot, endpoint, stamp, the cycle the command is admitted to, and whether the unit itself decides it (`live`) or
decides it again from a fed or forwarded input. -/
structure Who where
  tr : Nat := 0
  level : Nat := 0
  slot : Option Nat := none
  ep : Ep := {}
  stamp : Nat := 0
  cycle : Nat := 0
  live : Bool := true
  deriving DecidableEq, Repr, Inhabited

/-- Whether commits run, so that a command takes effect through one (R41); else it is decided on receipt (R276) or in replay. -/
def Dev.commits (d : Dev) : Bool := d.active && !d.replay && d.cyc.origin.isSome

/-- The instant at which a command is decided: C(k) of its cycle, or now (R59, R61, R276). -/
def Dev.decideAt (d : Dev) (w : Who) : Nat := if d.commits then d.commitAt w.cycle else d.now

/-! ### The state a command of a cycle sees -/

/-- The latched state of the committed path after every input admitted so far to cycles up to `m` (R59, R232, R450). -/
def Dev.latchedBy (d : Dev) (m : Nat) : Scope :=
  let xs := (d.cyc.adm.filter fun e => decide (e.1 ≤ m)).map (·.2)
  let levels := xs.foldl StopCom.level d.com.stop
  let f0 : StopFold := { com := levels }
  (xs.foldl (d.foldStop (d.hardwired levels) 0) f0).com.latched

/-- One control or load mark applied to a job state and the state a load returns to. -/
def jobMark (a : Nat × Nat) (c : Nat × Nat × Nat × Bytes) : Nat × Nat :=
  let v := unle c.2.2.2
  if c.2.1 = P.JOB_CTRL then
    match jobNext a.1 v with
    | some n => (n, a.2)
    | none => a
  else if c.2.1 = P.JOB_STATE then
    if v = 1 then (if a.1 = 1 then a else (1, a.1)) else (if a.1 = 1 then (a.2, a.2) else a)
  else a

/-- The job state that what has been accepted leaves once it has acted, as far as it acts in cycles up to `m` (R156, R450). -/
def Dev.jobBy (d : Dev) (m : Nat) : Nat :=
  let s := d.rd P.JOB_STATE
  let s0 := match d.com.job.load with
    | some l =>
      if l.due ≤ m then
        match l.gen with
        | some g => if g.bad.isNone then 2 else d.com.job.prev
        | none => d.com.job.prev
      else s
    | none => s
  let acts := sortBy (fun (a b : Nat × Nat × Nat × Bytes) => decide (a.1 < b.1)) (d.ctrls.filter fun c => decide (c.1 ≤ m))
  (acts.foldl jobMark (s0, d.com.job.prev)).1

/-! ### Values -/

/-- Whether a value lies in its item's range (Tables 1.9 to 18.11). -/
def domOk (p : Param) (v : Nat) : Bool :=
  match p.dom with
  | .any => true
  | .upto hi => v ≤ hi
  | .rng lo hi =>
    let z : Int := match p.ty with
      | .s n => toS (8 * n) v
      | _ => v
    decide (lo ≤ z) && decide (z ≤ hi)
  | .oneOf l => l.contains v
  | .mask m => v &&& m == v

/-- R313, Table 12.2. -/
def nbtOk (v : Nat) : Bool :=
  let sjw := bits v 26 22 + 1
  let t2 := bits v 21 17 + 1
  let t1 := bits v 16 11 + 1
  let brp := bits v 4 0 + 1
  bits v 31 27 == 0 && bits v 10 5 == 0 && 2 ≤ t1 && sjw ≤ t2 && 40 ≤ brp * (1 + t1 + t2)

/-- R313, Table 12.3. -/
def dbtOk (v : Nat) : Bool :=
  let sjw := bits v 19 16 + 1
  let t2 := bits v 15 12 + 1
  let t1 := bits v 11 7 + 1
  let brp := bits v 4 0 + 1
  bits v 23 20 == 0 && bits v 6 5 == 0 && sjw ≤ t2 && 5 ≤ brp * (1 + t1 + t2)

/-- Whether a nominal timing gives 250 kbit/s from 40 MHz (R331). -/
def nbt250 (v : Nat) : Bool := (bits v 4 0 + 1) * (1 + (bits v 16 11 + 1) + (bits v 21 17 + 1)) == 160

/-- R339: a bay configuration's value, against the current channels that other bays hold. -/
def Dev.bayCfgOk (d : Dev) (b : Nat) (v : Bytes) : Bool :=
  let ph := fld v 0 1
  let vs := [2, 3, 4].map fun o => fld v o 1
  let is := [5, 6, 7].map fun o => fld v o 1
  let held := ((List.range 12).filter fun j => j + 1 != b).flatMap fun j =>
    let c := le 8 (d.rd P.MTR_BAY_CFG (j + 1))
    ([5, 6, 7].map fun o => fld c o 1).take (fld c 0 1)
  fld v 1 1 == 0 && (ph == 0 || ph == 1 || ph == 3) && (vs.take ph).all (· < 4) &&
    (is.take ph).all (fun i => 4 ≤ i && i ≤ 15 && !held.contains i) && (ph != 1 || ((vs.drop 1) ++ is.drop 1).all (· == 0xFF))

/-- Value rules that are more than a range of their own (R61, R76, R97, R240, R245, R313, R317, R331, R339, R353 and the tables). -/
def Dev.valueOk (d : Dev) (w : Who) (id i : Nat) (b : Bytes) : Bool :=
  let v := unle b
  match id with
  | 0x021B => d.tpModeOk i v (d.decideAt w)
  | 0x021C => v / 2 ^ 48 < sec
  | 0x021D => 1000 ≤ v && v ≤ 4000000000 && v % 4 == 0
  | 0x021E => 4 ≤ v && v ≤ 4000000000
  | 0x0301 => d.rd P.DPX_MODE == 0 || v ≤ 28
  | 0x100B => sigRateOk i v
  | 0x100C => machines.all (fun n => d.rd P.RTK_MODE n == 0 || d.rd P.RTK_RATE n ≤ v) && v % max 1 (d.rd P.STA_RTCM_RATE) == 0 &&
      (d.rd P.STA_RTCM_AIR_RATE == 0 || v % d.rd P.STA_RTCM_AIR_RATE == 0)
  | 0x1011 => d.rd P.GNS_ACQ_COH ≤ v && v ≤ 200
  | 0x101D => v ≤ d.rd P.GNS_SNAP_LEN
  | 0x1215 => d.rd P.GNS_EPOCH_RATE % max 1 v == 0
  | 0x1216 => v == 0 || d.rd P.GNS_EPOCH_RATE % v == 0
  | 0x1801 => d.rtkFits i v (d.rd P.RTK_RATE i)
  | 0x1802 => d.rtkFits i (d.rd P.RTK_MODE i) v
  | 0x2010 => v ≤ d.rd P.JOB_CHARGE_AT
  | 0x2114 => fld b 4 1 == 0 && fld b 6 1 ≤ 16
  | 0x2807 => v ≤ 15 || v == 0xFF
  | 0x280C => fld b 4 1 ≤ 2 && fld b 5 1 ≤ 2 && fld b 6 1 ≤ 15 && fld b 7 1 == 0
  | 0x280D => v == 0 || (50 ≤ v && v ≤ 2000)
  | 0x2811 => v ≤ 2
  | 0x3003 => v ≤ 5 && (profile v).band == i
  | 0x3004 => (d.profileOf i).modes.contains v
  | 0x3105 => d.rd P.MSH_DELAY_MIN ≤ v && v ≤ 100
  | 0x400C => fld b 0 2 ≤ 4094 && fld b 2 1 ≤ 7 && fld b 3 1 ≤ 7 && fld b 4 4 == 0
  | 0x4011 => v ≤ 4094
  | 0x4017 => v ≤ 3
  | 0x4803 => nbtOk v
  | 0x4804 => dbtOk v
  | 0x480C => fld b 0 1 ≤ 2 && fld b 1 1 < 16 && fld b 2 2 == 0 && fld b 4 4 < 2 ^ 29 && fld b 8 4 < 2 ^ 29 && fld b 12 4 == 0
  | 0x4813 => 0 < v && 1000 % v == 0
  | 0x4817 => v == 0 || (d.rd P.CAN_MODE 0 == 1 && nbt250 (d.rd P.CAN_NBT 0))
  | 0x5001 => d.bayCfgOk i b
  | 0x5008 => 50 ≤ v && v < d.rd P.MTR_NOLOAD_ON
  | 0x5808 => v * 2 * d.rd P.DRK_PULSE_NS ≤ 1000000000
  | 0x580B => d.rd P.DRK_DEC i ≤ v && v ≤ 100000000
  | 0x580C => v % 25 == 0 && [0, 1, 2, 3].all fun ax => d.rd P.DRK_VMAX ax * 2 * v ≤ 1000000000
  | 0x580D => v % 25 == 0
  | 0x580F => 1 ≤ v && v ≤ d.rd P.DRK_VMAX i
  | 0x5810 => 1 ≤ v && v ≤ d.rd P.DRK_HOME_V i
  | 0x6904 => v < 384 || v == 0xFFFF
  | 0x7C03 => let l := fld b 0 1; 1 ≤ l && l ≤ 3
  | _ => true

/-! ### IDLE -/

/-- Whether the owning engine counts as IDLE for an rwi item's instance (R48, R61, R68, R97, R121, R156, R207, R239, R272, R293, R309, R315, R335, R366,
R397, R450, R456). -/
def Dev.idleFor (d : Dev) (w : Who) (id i : Nat) : Bool :=
  let axis (ax : Nat) : Bool := let s := d.rd P.DRK_STATE ax; s == 0 || s == 1 || s == 3 || s == 7
  let jobIdle : Bool := let s := d.jobBy w.cycle; s == 0 || s == 2
  match id / 256 with
  | 0x02 => if 0x021C ≤ id && id ≤ 0x0221 then nth d.tim.tpMode i == 0 else d.rd P.TIM_STATE == 0
  | 0x03 => d.cyc.origin.isNone || d.replay
  | 0x10 => d.rd P.GNS_RUN == 0
  | 0x11 => d.rd P.GNS_RUN == 0
  | 0x12 => d.rd P.STA_STATE == 0
  | 0x20 => jobIdle
  | 0x21 => jobIdle
  | 0x22 => jobIdle
  | 0x28 => (d.latchedBy w.cycle).all
  | 0x30 =>
    if id = P.AIR_PROFILE then [0, 1, 2, 3].all fun j => d.cf P.AIR_BAND j != i || d.rd P.STP_SLICE_STATE j == 0
    else d.rd P.STP_SLICE_STATE i == 0
  | 0x38 => d.rd P.DPX_STATE == 0 || d.rd P.DPX_STATE == 4
  | 0x40 =>
    if id = P.RNG_PHY_ADDR || id = P.RNG_PHY_RX_NS || id = P.RNG_PHY_TX_NS then d.rd P.RNG_PORT_EN i == 0
    else d.rd P.RNG_PORT_EN 0 == 0 && d.rd P.RNG_PORT_EN 1 == 0
  | 0x48 => if 0x4817 ≤ id && id ≤ 0x4819 then d.rd P.CAN_MODE 0 == 0 else d.rd P.CAN_MODE i == 0
  | 0x50 => bays12.all fun b => d.cf P.MTR_BAY_CFG b % 256 == 0
  | 0x58 => if id = P.DRK_PULSE_NS || id = P.DRK_DIR_SETUP_NS then [0, 1, 2, 3].all axis else axis i
  | 0x60 => d.host.slots.all (fun s => match s with | some x => x.pending || x.ep.tr != 1 | none => true) && d.host.subs.all fun u => u.mask == 0 || u.ep.tr != 1
  | _ => true

/-! ### Refusals of the defining rules -/

/-- The status that the defining rule of an item gives to a write that has passed the checks before it; 0 where it is accepted. -/
def Dev.ruleStatus (d : Dev) (w : Who) (id i : Nat) (b : Bytes) : Nat :=
  let v := unle b
  match id with
  | 0x0218 =>
    let st := d.rd P.TIM_STATE
    let fresh := match d.tim.lastMeas with | some l => decide (d.decideAt w ≤ l + sec) | none => false
    if !d.active then 5
    else if !((st == 1 || st == 2 || st == 4) && d.rd P.TIM_SOURCE != 0 && fresh) then 8
    else if !(d.latchedBy w.cycle).all then 5
    else if d.tim.stepAt.isSome then 1 else 0
  | 0x030F =>
    let s := d.jobBy w.cycle
    if v = 1 && ((d.active && s == 3) || d.rd P.DPX_STATE == 2) then 5 else 0
  | 0x1019 =>
    if !d.snapOk v then 5
    else if v = 3 && !(d.host.subs.any fun u => u.ep == w.ep && bitOf u.mask 5) then 5 else 0
  | 0x101B => if d.rd P.GNS_SNAP_STATE = 0 then 0 else 5
  | 0x101C => if d.rd P.GNS_SNAP_STATE = 0 then 0 else 5
  | 0x101D => if d.rd P.GNS_SNAP_STATE = 0 then 0 else 5
  | 0x1231 => if d.jobBy w.cycle = 3 then 5 else 0
  | 0x2002 =>
    match jobNext (d.jobBy (w.cycle + 1)) v with
    | none => 5
    | some _ => if v = 3 && d.resInUse then 5 else 0
  | 0x2113 => if d.reseatOk i then 0 else 3
  | 0x3012 => if (d.airKey i).roll.isSome then 5 else 0
  | 0x3013 => if (d.airKey i).next.isNone then 5 else if later v (u32 (cycleOf (d.decideAt w) + 200)) then 0 else 4
  | 0x380B =>
    match v with
    | 1 => if d.active && d.rd P.DPX_PEER_STATE == 2 then 0 else 5
    | 2 => if d.active then 0 else 5
    | _ => if d.rd P.DPX_STATE = 4 then 0 else 5
  | 0x480C => if d.bufFirmware i then 5 else 0
  | 0x480D => d.bufWriteStatus i b
  | 0x480E => if d.bufFirmware i then 5 else 0
  | 0x5807 => d.drkStatus v
  | 0x7809 =>
    if d.active && (!(d.latchedBy w.cycle).all || d.jobBy w.cycle == 3 || d.rd P.DPX_PEER_STATE == 2) then 5
    else if d.rd P.PWR_VBAT_MV < 2000 then 5
    else if d.rd P.PWR_WAKE_EN = 0 then 4 else 0
  | 0x7C02 => if d.rd P.SEC_PROV_STATE = 0 then 0 else 5
  | 0x7C03 => if d.rd P.SEC_PROV_STATE = 0 then 5 else 0
  | 0x7C08 => if !d.slotValid (1 - d.pwr.active) || (d.active && !(d.latchedBy w.cycle).all) then 5 else 0
  | 0x7C09 => if d.pwr.trial then 0 else 5
  | _ => 0

/-- Length of a value that a write must carry (R447). -/
def lenOk (p : Param) (b : Bytes) : Bool :=
  if p.id = P.SLT_HOST_RES then b.length == 28 + 28 * fld b 6 1 else b.length == p.ty.width

/-- Whether the writer may write the item (R449, R478). -/
def Dev.mayWrite (d : Dev) (w : Who) (p : Param) : Bool :=
  if p.id = P.SEC_PROV_LOCK then w.level == 3 || (w.slot.isNone && w.tr == 1 && d.rd P.SEC_PROV_STATE == 0)
  else p.acc != .ro && p.level ≤ w.level

/-- Acts of the committed path, which a fed or forwarded command applies as well; the keys of the deciding unit (`SEC.REKEY`) stay its own. -/
def committedAct (id : Nat) : Bool :=
  id == P.JOB_CTRL || id == P.SLT_RESEAT || id == P.SLT_HOST_RES || id == P.STA_SELFTEST || id == P.MTR_SNAP

/-- Whether a fed or forwarded command's entry is judged and applied here: the rest acts on the deciding unit alone. -/
def committedWrite (p : Param) : Bool := digestItem p || committedAct p.id

/-- Status of one entry of a SET (R379), 0 where it passes: the first check that fails, in the order of the rule. -/
def Dev.checkEntry (d : Dev) (w : Who) (id i : Nat) (b : Bytes) : Nat :=
  match itemRow id i with
  | none => 2
  | some p =>
    if !d.mayWrite w p then 3
    else if !lenOk p b then 4
    else if !w.live && !committedWrite p then 0
    else if p.acc == .rwi && !d.idleFor w id i then 5
    else if !(domOk p (unle b) && d.valueOk w id i b) then 4
    else d.ruleStatus w id i b

/-! ### What an accepted write does -/

/-- Items whose writes take effect at once or at an instant of their engine's own, not with a commit. -/
def ownEffect (id : Nat) : Bool :=
  [0x40, 0x48, 0x61, 0x68, 0x69, 0x70].contains (id / 256) || (id / 256 == 0x58 && !(0x5819 ≤ id && id ≤ 0x581B)) || id == P.COV_MAP_BASE

/-- An act that waits for the commit of a cycle (R41). -/
def Dev.putCtrl (d : Dev) (k id i : Nat) (b : Bytes) : Dev := { d with ctrls := d.ctrls ++ [(k, id, i, b)] }

/-- A register written: in an ACTIVE unit the value is in force from the end of its cycle's commit (R41). -/
def Dev.setItem (d : Dev) (w : Who) (id i v : Nat) : Dev :=
  let e : Staged := { cycle := w.cycle, key := regKey id i, old := d.rd id i }
  let d1 := if (d.commits || !w.live) && !ownEffect id then { d with staged := d.staged ++ [e] } else d
  d1.wr id i v

/-- The first instant S + 500 ms at or after `t`, S a whole second (R60). -/
def halfSecondAfter (t : Nat) : Nat := (t + 500 * ms - 1) / sec * sec + 500 * ms

/-- R45: replay mode entered: the safety outputs open, the counters of the replay start again, no feed yet. -/
def Dev.replayEnter (d : Dev) : Dev :=
  if d.replay then d
  else
    let d1 := { d with cyc := { d.cyc with feed := {} } }
    ((((d1.wr P.CYC_REPLAY_STATE 0 1).wr P.CYC_REPLAY 0 1).wr P.CYC_MISMATCH 0 0).wr P.CYC_FIRST_MISMATCH 0 0).outputs

/-- R477: a trial confirmed: `active` takes `pending`, the anti-rollback level the larger one. -/
def Dev.confirmTrial (d : Dev) : Dev :=
  let i := d.pwr.slot
  let arb := fld ((nth d.pwr.slots i).header i) 7 1
  let d1 := (d.power fun (p : Pwr) => { p with active := i, pending := 0xFF, tries := 0, trial := false }).wr P.SEC_ARB 0 (max (d.rd P.SEC_ARB) arb)
  (d1.wr P.SEC_TRIAL 0 0).notice 0x7C81 (le 1 i ++ le 1 4 ++ le 1 (d1.rd P.SEC_ARB))

/-- What an accepted entry does; what follows its reply (a restart, Dormant) is left to the reply. -/
def Dev.applyEntry (d : Dev) (w : Who) (id i : Nat) (b : Bytes) : Dev :=
  let v := unle b
  let k := w.cycle
  match itemRow id i with
  | none => d
  | some p =>
    if !w.live && !committedWrite p then d
    else match id with
      | 0x0218 => { d with tim := { d.tim with stepAt := some (halfSecondAfter (d.decideAt w + 200 * ms)) } }.wr P.TIM_STEP 0 1
      | 0x021B => (d.setItem w id i v).tpModeSet i v (d.decideAt w)
      | 0x030D => { d with cyc := { d.cyc with journal := { d.cyc.journal with hold := v == 1 } } }.wr id 0 v
      | 0x030F => if v = 1 then d.replayEnter else d
      | 0x1001 =>
        let old := d.rd P.GNS_RUN
        let d1 := d.setItem w id i v
        if v = old then d1 else if v = 1 then d1.startTracking false else d1.stopTracking
      | 0x1016 => d.forceCold
      | 0x1019 => d.snapAct v
      | 0x1210 => (d.setItem w id i v).putCtrl (k + 1) id i b
      | 0x1231 => d.putCtrl (k + 1) id i b
      | 0x2002 => d.putCtrl (k + 1) id i b
      | 0x2113 => d.putCtrl (k + 1) id i b
      | 0x2114 => d.putCtrl (k + 1) id i b
      | 0x3012 => d.airKeyWrite i b
      | 0x3013 => d.airRollWrite i v
      | 0x380B => match v with | 1 => d.giveUp 8 | 2 => d.giveUp 7 | _ => d
      | 0x3810 => { d with peer := { d.peer with key := some b } }
      | 0x4001 => (d.setItem w id i v).ringWritten
      | 0x4012 => (d.setItem w id i v).ringWritten
      | 0x4017 => (d.setItem w id i v).ringWritten
      | 0x480B => d.canCtrl i v
      | 0x480D => d.bufWrite i b
      | 0x480E => d.txAbort i
      | 0x500E => d.putCtrl (k + 1) id i b
      | 0x5802 => (d.setItem w id i v).drkWritten
      | 0x5807 => d.drkCtrl v
      | 0x6904 => d.tlgClear v
      | 0x7809 => d
      | 0x7C02 => (d.wr P.SEC_PROV_STATE 0 1).noticeT 0x7C83 []
      | 0x7C03 =>
        if d.commits then d.putCtrl k id 0 (le 1 (w.slot.getD 255) ++ b) else d.rekey (w.slot.getD 255) (fld b 0 1) (b.drop 1)
      | 0x7C08 => (d.power fun (q : Pwr) => { q with pending := 1 - q.active, tries := 3 }).wr P.SEC_TRIAL 0 3
      | 0x7C09 => d.confirmTrial
      | _ => d.setItem w id i v

/-- The entries of a SET checked in order, each as if those before it were applied (R379): their statuses, and the device with all of them applied. -/
def Dev.setAll (d : Dev) (w : Who) : List (Nat × Nat × Bytes) → List Nat × Dev
  | [] => ([], d)
  | (id, i, b) :: es =>
    let st := d.checkEntry w id i b
    let (rest, d1) := (if st = 0 then d.applyEntry w id i b else d).setAll w es
    (st :: rest, d1)

/-- What follows the reply of accepted entries: 3 trial boot, 4 Dormant, 5 replay left, 6 restart of a SILENT unit; 0 nothing. -/
def Dev.afterEntries (d : Dev) (es : List (Nat × Nat × Bytes)) : Nat :=
  es.foldl (fun a e =>
    let v := unle e.2.2
    if e.1 = P.SEC_ACTIVATE then 3
    else if e.1 = P.PWR_DORMANT then 4
    else if e.1 = P.CYC_REPLAY && v = 0 && d.replay then 5
    else if e.1 = P.DPX_CTRL && v = 3 then 6
    else a) 0

end Sys2Proof.Machine
end

