-- ==== Sys2Proof/Machine/Decide.lean ====
section
/-!
DEFINITION. What a mail command is answered and does: framing checks (R371), reads (R378, R380, R432), writes (R379), actions, subscriptions, loads, log
clears and snapshots (Chapter 14: R371 to R386; R435, R436; R95).
-/
namespace Sys2Proof.Machine
open Sys2Proof

/-! ### Framing (R371, R374) -/

/-- The mailboxes of an opcode (Table 14.4); none for an unknown opcode. -/
def mailboxesOf (op : Nat) : List Nat :=
  match op with
  | 0x01 | 0x02 | 0x04 => [1, 2, 5, 6, 7]
  | 0x03 => [1, 2, 3, 5, 6, 7]
  | 0x05 | 0x06 | 0x10 => [1, 5, 6, 7]
  | 0x07 | 0x08 => [1]
  | 0x09 | 0x0F => [3]
  | 0x0A | 0x0B => [4]
  | 0x0C | 0x0D | 0x0E => [0]
  | _ => []

/-- The entries of a `SET` payload (Table 14.5), none where they do not fill it exactly. -/
def setEntries : Nat → Bytes → Option (List (Nat × Nat × Bytes))
  | 0, [] => some []
  | 0, _ :: _ => none
  | n + 1, b =>
    let l := fld b 4 2
    if b.length < 6 + l then none
    else (setEntries n (b.drop (6 + l))).map ((fld b 0 2, fld b 2 2, cut b 6 l) :: ·)

/-- The identifiers and instances of a `GET` payload. -/
def getList (p : Bytes) : List (Nat × Nat) := (List.range (fld p 2 2)).map fun i => (fld p (4 + 4 * i) 2, fld p (6 + 4 * i) 2)

/-- Whether a payload's size matches its opcode (R371). -/
def sizeOk (p : Bytes) : Bool :=
  let n := p.length
  match fld p 0 1 with
  | 0x01 => let c := fld p 2 2; 1 ≤ c && c ≤ 64 && n == 4 + 4 * c
  | 0x02 => let c := fld p 2 2; 1 ≤ c && c ≤ 64 && (setEntries c (p.drop 4)).isSome
  | 0x03 => n == 12
  | 0x04 => 7 ≤ n
  | 0x05 => match fld p 1 1 with
    | 1 | 3 => n == 4
    | 2 => 4 ≤ n && n ≤ 68
    | _ => 4 ≤ n
  | 0x06 => n == 4
  | 0x07 => n == 20
  | 0x08 => n == 36
  | 0x09 => 13 ≤ n
  | 0x0A => n == 16
  | 0x0B => n == if fld p 1 1 = 2 then 20 else 4
  | 0x0C | 0x0D | 0x0E => n == 16
  | 0x0F => 9 ≤ n
  | 0x10 => n == 4
  | _ => false

/-- Whether the reserved fields of a payload are 0 (R10, R371). -/
def reservedOk (p : Bytes) : Bool :=
  match fld p 0 1 with
  | 0x01 | 0x02 | 0x03 | 0x04 => fld p 1 1 == 0
  | 0x05 | 0x07 | 0x08 | 0x09 | 0x10 => fld p 2 2 == 0
  | 0x06 | 0x0B => fld p 3 1 == 0
  | 0x0A => fld p 2 2 == 0 && fld p 14 2 == 0
  | 0x0F => fld p 2 2 == 0 && fld p 1 1 < 4
  | 0x0D | 0x0E => fld p 1 1 < 2
  | _ => true

/-- Whether a frame is a `STOP` (R216): it is never refused. -/
def isStop (mbx : Nat) (p : Bytes) : Bool := mbx == 0 && !p.isEmpty && fld p 0 1 == 0x0C

/-- The checks of R371 that are answered with `BAD_FRAME`. -/
def frameOk (mbx flags : Nat) (p : Bytes) : Bool :=
  !p.isEmpty && (mailboxesOf (fld p 0 1)).contains mbx && flags < 8 && sizeOk p && reservedOk p

/-! ### Reads -/

/-- One entry of a `GET` reply with its status (R378, R448). -/
def Dev.getEntry (v : Dev) (e : Nat × Nat) : Nat × Bytes :=
  let (st, b) := match itemRow e.1 e.2 with
    | none => (2, [])
    | some _ => let b := v.item e.1 e.2; if 64 < b.length then (4, []) else (0, b)
  (st, le 2 e.1 ++ le 2 e.2 ++ le 1 st ++ le 1 0 ++ le 2 b.length ++ b)

/-- `GET` (R378): the status of the reply is that of the first failing entry. -/
def Dev.getReply (d : Dev) (p : Bytes) : Reply :=
  let es := (getList p).map d.view.getEntry
  { status := match es.find? (fun e => e.1 != 0) with | some e => e.1 | none => 0, body := es.flatMap (·.2) }

/-- A part of an item's content as `GET_BLOCK` returns it (R380). -/
def blockPart (id inst offset at_ size room : Nat) (content : Bytes) : Reply :=
  if content.length ≤ at_ then { status := 4 }
  else
    let want := if size = 0 then room else min size room
    let part := cut content at_ want
    { body := le 2 id ++ le 2 inst ++ le 4 offset ++ le 2 part.length ++ le 4 content.length ++ part }

/-- The content of a block item as it stands, and the device after the read (R318: a read takes `NEWDAT`; R478: keys as the session may read them). -/
def Dev.blockNow (d : Dev) (q : Queued) (id blk : Nat) : Bytes × Dev :=
  if id = P.CAN_BUF then d.bufRead blk
  else if id = P.SEC_KEY_EXPORT then (d.keyExport q.ep.tr q.slot, d)
  else if id = P.CYC_JOURNAL then (d.cyc.journal.block blk, d)
  else (d.view.item id blk, d)

/-- `GET_BLOCK` (R380, R414, R446). -/
def Dev.getBlock (d : Dev) (q : Queued) (p : Bytes) : Reply × Dev :=
  let id := fld p 2 2; let inst := fld p 4 2; let offset := fld p 6 4; let size := fld p 10 2
  let room := d.room q.ep - 14
  match itemRow id inst with
  | none => ({ status := 2 }, d)
  | some row =>
    let jr := id == P.CYC_JOURNAL
    let blk := if jr then inst + 65536 * (offset / 4096) else inst
    let o := if jr then offset % 4096 else offset
    if jr && 16384 ≤ offset then ({ status := 4 }, d)
    else if !row.ty.isBlock then (blockPart id inst offset o size room (d.view.item id inst), d)
    else if o = 0 then
      let (content, d1) := d.blockNow q id blk
      let f : Fixed := { ep := q.ep, id := id, inst := blk, at_ := q.stamp, body := content }
      let keep (x : Fixed) : Bool := x.ep != q.ep || (x.id == P.TLG_SNAP && id != P.TLG_SNAP)
      (blockPart id inst offset o size room content, { d1 with host := { d1.host with fixed := f :: d1.host.fixed.filter keep } })
    else
      let d1 := if id = P.TLG_SNAP then d
        else { d with host := { d.host with fixed := d.host.fixed.filter fun x => x.ep != q.ep || x.id == P.TLG_SNAP || (x.id == id && x.inst == blk) } }
      match d.host.fixed.find? (fun x => x.ep == q.ep && x.id == id && x.inst == blk) with
      | some f =>
        let stands := if id = P.TLG_SNAP then d.tlg.snaps.any fun s => s.2 == f.body else q.stamp ≤ f.at_ + 2 * sec
        (if stands then blockPart id inst offset o size room f.body else { status := 8 }, d1)
      | none => ({ status := 8 }, d1)

/-- A command that reads (Table 14.4). -/
def isRead (op : Nat) : Bool := op == 1 || op == 3 || op == 0x0A

/-- A read served (R374). -/
def Dev.readReply (d : Dev) (q : Queued) (p : Bytes) : Reply × Dev :=
  match fld p 0 1 with
  | 0x01 => (d.getReply p, d)
  | 0x03 => d.getBlock q p
  | 0x0A => (d.logRead p (d.room q.ep), d)
  | _ => ({ status := 6 }, d)

/-! ### Decisions -/

/-- The answer to a command: its reply, what follows it (as in `Queued.after`), whether it is held until a load is decided. -/
structure Answer where
  r : Reply := {}
  after : Nat := 0
  held : Bool := false
  deriving DecidableEq, Repr, Inhabited

/-- Entries written whole or not at all (R379, R380). -/
def Dev.setCmd (d : Dev) (w : Who) (es : List (Nat × Nat × Bytes)) : Answer × Dev :=
  let (sts, d1) := d.setAll w es
  match sts.find? (· != 0) with
  | some st =>
    let body := (es.zip sts).flatMap fun (e, s) => le 2 e.1 ++ le 2 e.2.1 ++ le 1 s ++ le 1 0
    ({ r := { status := st, body := body } }, d)
  | none => ({ after := d.afterEntries es }, d1)

/-- ACTION (R382, Table 14.8). -/
def Dev.action (d : Dev) (w : Who) (p : Bytes) : Answer × Dev :=
  match fld p 1 1 with
  | 1 => match w.slot with
    | some i => ({ after := 1 }, d.closeSession i)
    | none => ({ r := { status := 3 } }, d)
  | 2 => ({ r := { body := p.drop 4 } }, d)
  | 3 => if w.level = 3 then ({ after := 2 }, d) else ({ r := { status := 3 } }, d)
  | _ => ({ r := { status := 4 } }, d)

/-- SUBSCRIBE (R386). -/
def Dev.subscribe (d : Dev) (w : Who) (p : Bytes) : Reply × Dev :=
  let target := fld p 1 1; let on := fld p 2 1
  if 8 < target || 1 < on then ({ status := 4 }, d)
  else
    let subs := d.host.subs
    let set (l : List Sub) : Dev := { d with host := { d.host with subs := l } }
    let new : Sub := { ep := w.ep, mask := 2 ^ target, last := w.stamp }
    match subs.findIdx? (fun u => u.mask != 0 && u.ep == w.ep) with
    | some i =>
      let m := setBit (nth subs i).mask target (on == 1)
      ({}, set (upd subs i fun (u : Sub) => if m = 0 then {} else { u with mask := m, last := w.stamp }))
    | none =>
      if on = 0 then ({}, d)
      else match subs.findIdx? (fun u => u.mask == 0) with
        | some i => ({}, set (upd subs i fun _ => new))
        | none => if 4 ≤ subs.length then ({ status := 1 }, d) else ({}, set (subs ++ [new]))

/-! #### Loads (R381) -/

/-- The slot that a firmware image is written to (R474, R476). -/
def Dev.loadSlot (d : Dev) : Nat := if d.pwr.mode = 3 then 0 else 1 - d.pwr.active

/-- Images being loaded changed. -/
def Dev.setLoads (d : Dev) (l : List Load) : Dev := { d with host := { d.host with loads := l } }

/-- The open image of a target replaced, or removed. -/
def Dev.putLoad (d : Dev) (target : Nat) (l : Option Load) : Dev :=
  d.setLoads ((match l with | some x => [x] | none => []) ++ d.host.loads.filter fun x => x.target != target || x.done)

/-- An image abandoned, with notice 0x6081: cause 1 idle, 2 offset or `TOTAL`, 3 reopened. -/
def Dev.abandonLoad (d : Dev) (k : Nat) (l : Load) (cause : Nat) : Dev :=
  let d1 := (d.putLoad l.target none).when d.up (·.notice 0x6081 (le 1 l.target ++ le 1 cause ++ le 4 l.data.length))
  if !l.allowed || cause = 3 then d1
  else if l.target = 0x20 then d1.putCtrl k P.JOB_STATE 0 (le 1 0)
  else if l.target = 0x7C then d1.setBootSlot d1.loadSlot { state := 2 }
  else d1

/-- Whether the state of a target allows a load at all (R152, R191, R476). -/
def Dev.loadAllowed (d : Dev) (w : Who) (target : Nat) : Bool :=
  if d.host.loads.any (fun l => l.target == target && l.done) then false
  else match target with
    | 0x20 => (d.commits || !w.live) && (let s := d.jobBy w.cycle; s == 0 || s == 2)
    | 0x22 => (d.commits || !w.live) && d.jobBy w.cycle == 2
    | _ => !d.pwr.trial

/-- An image complete: LOCKED where the target's state forbade it, else the reply waits for its decision (R153, R191, R476). -/
def Dev.lastChunk (d : Dev) (w : Who) (l : Load) : Answer × Dev :=
  if !l.allowed then ({ r := { status := 5 } }, d.putLoad l.target none)
  else
    let d1 := d.putLoad l.target (some { l with done := true, decideAt := w.cycle + 100 })
    match l.target with
    | 0x20 => ({ held := true }, d1.jobTake w.cycle l.data)
    | 0x22 => ({ held := true }, d1.covTake w.cycle l.data)
    | _ => ({ held := true }, d1.setBootSlot d1.loadSlot { state := 3, image := some l.data })

/-- R381: an open image that received no chunk for `HST.LOAD_IDLE` before a stamp is abandoned. -/
def Dev.lapseLoad (d : Dev) (w : Who) (target : Nat) : Dev :=
  match d.host.loads.find? fun l => l.target == target && !l.done with
  | some l => if l.last + d.cf P.HST_LOAD_IDLE * sec ≤ w.stamp then d.abandonLoad w.cycle l 1 else d
  | none => d

/-- LOAD (R381, Tables 14.6 and 14.7). -/
def Dev.load (d0 : Dev) (w : Who) (tag : Nat) (p : Bytes) : Answer × Dev :=
  let target := fld p 1 1; let total := fld p 4 4; let offset := fld p 8 4; let data := p.drop 12
  if !([0x20, 0x22, 0x7C].contains target) then ({ r := { status := 4 } }, d0)
  else if w.level < (if target = 0x7C then 3 else 2) then ({ r := { status := 3 } }, d0)
  else
    let d := d0.lapseLoad w target
    if offset = 0 && total < data.length then ({ r := { status := 4 } }, d) else
    let take (d : Dev) (l : Load) : Answer × Dev :=
      let l1 : Load := { l with data := l.data ++ data, last := w.stamp, tag := tag, ep := w.ep }
      if total < l1.data.length then ({ r := { status := 4 } }, d.abandonLoad w.cycle l 2)
      else if l1.data.length = total then d.lastChunk w l1 else ({}, d.putLoad target (some l1))
    let cur := d.host.loads.find? fun l => l.target == target && !l.done
    if offset = 0 then
      let d1 := match cur with | some l => d.abandonLoad w.cycle l 3 | none => d
      let was := (cur.map (·.allowed)).getD false
      let ok := was || d1.loadAllowed w target
      let d2 := if !ok || was then d1
        else if target = 0x20 then d1.putCtrl w.cycle P.JOB_STATE 0 (le 1 1)
        else if target = 0x7C then d1.setBootSlot d1.loadSlot { state := 3 }
        else d1
      let l : Load := { target := target, total := total, allowed := ok, last := w.stamp, tag := tag, ep := w.ep }
      take (d2.putLoad target (some l)) l
    else match cur with
      | some l => if l.total = total && offset = l.data.length then take d l else ({ r := { status := 4 } }, d.abandonLoad w.cycle l 2)
      | none => ({ r := { status := 4 } }, d)

/-! #### Log clears (R435, R436) -/

/-- A pending request for a region consumed. -/
def Dev.dropClear (d : Dev) (region : Nat) : Dev := d.recorder fun (g : Recorder) => { g with clears := g.clears.filter (·.region != region) }

/-- The session key of a slot. -/
def Dev.slotKey (d : Dev) (i : Nat) : Bytes := match d.slotAt i with | some x => x.ks | none => []

/-- LOG_CLEAR step 1 (R435). -/
def Dev.clearRequest (d : Dev) (w : Who) (region : Nat) : Reply × Dev :=
  match w.slot with
  | none => ({ status := 3 }, d)
  | some i =>
    if w.level < (if region = 0 then 2 else 3) then ({ status := 3 }, d)
    else if d.replay then ({ status := 5 }, d)
    else
      let cn := (hmac (d.slotKey i) (ascii "LCHL" ++ le 8 (stamp64 w.stamp) ++ d.wire P.LOG_CLEAR_COUNT 0)).take 16
      let gen := if region = 2 then 0 else d.rd P.LOG_GEN region
      let c : ClearReq := { sid := i, region := region, cn := cn, gen := gen, stamp := w.stamp }
      let d1 := (d.inc P.LOG_CLEAR_COUNT).dropClear region
      ({ body := cn ++ le 4 gen }, d1.recorder fun (g : Recorder) => { g with clears := g.clears ++ [c] })

/-- LOG_CLEAR step 2 (R435, R436): refused or expired, it consumes the request. -/
def Dev.clearConfirm (d : Dev) (w : Who) (region : Nat) (proof : Bytes) : Reply × Dev :=
  let d1 := d.dropClear region
  match w.slot with
  | none => ({ status := 3 }, d1)
  | some i =>
    if w.level < (if region = 0 then 2 else 3) then ({ status := 3 }, d1)
    else match d.rcd.clears.find? (·.region == region) with
      | none => ({ status := 5 }, d1)
      | some c =>
        if c.sid != i then ({ status := 3 }, d1)
        else if c.stamp + 10 * sec < w.stamp || d.replay then ({ status := 5 }, d1)
        else if proof != (hmac (d.slotKey i) (ascii "LCLR" ++ c.cn ++ le 1 region ++ le 4 c.gen)).take 16 then ({ status := 3 }, d1)
        else ({}, d1.logClear region i w.level w.tr)

/-- LOG_CLEAR (R435). -/
def Dev.clearCmd (d : Dev) (w : Who) (p : Bytes) : Reply × Dev :=
  let step := fld p 1 1; let region := fld p 2 1
  if step = 0 || 2 < step || 2 < region then ({ status := 4 }, d)
  else if step = 1 then d.clearRequest w region else d.clearConfirm w region (cut p 4 16)

/-! #### Every command -/

/-- A command that is decided (Table 14.4): its answer and the device after it.  `REPLAY_FEED` and the safety mail stand with the commit. -/
def Dev.decideMail (d : Dev) (w : Who) (tag : Nat) (p : Bytes) : Answer × Dev :=
  let plain (x : Reply × Dev) : Answer × Dev := ({ r := x.1 }, x.2)
  match fld p 0 1 with
  | 0x02 => match setEntries (fld p 2 2) (p.drop 4) with
    | some es => d.setCmd w es
    | none => ({ r := { status := 6 } }, d)
  | 0x04 => d.setCmd w [(fld p 2 2, fld p 4 2, p.drop 6)]
  | 0x05 => d.action w p
  | 0x06 => plain (d.subscribe w p)
  | 0x07 => plain (d.authBegin w.ep w.stamp p)
  | 0x08 => plain (d.authProve w.ep w.stamp p)
  | 0x09 => d.load w tag p
  | 0x0B => plain (d.clearCmd w p)
  | 0x10 =>
    let st := d.checkEntry w P.GNS_SNAP_CTRL 0 (le 1 (fld p 1 1))
    if st = 0 then ({}, d.applyEntry w P.GNS_SNAP_CTRL 0 (le 1 (fld p 1 1))) else ({ r := { status := st } }, d)
  | _ => ({ r := { status := 6 } }, d)

end Sys2Proof.Machine
end

