-- ==== Sys2Proof/Machine/Commit.lean ====
section
/-!
DEFINITION. Commit processing: the stages of `commit_cycle`, what follows a commit, replies, replay, the STEP of hub time, taking control and following a peer
(Chapter 1: R19 to R46; Chapter 2: R60; Chapter 10: R278 to R291; Chapter 14: R374, R376).
-/
namespace Sys2Proof.Machine
open Sys2Proof

/-! ### The commit procedure -/

/-- `key(x)` of procedure `commit_cycle`. -/
def Input.key (x : Input) : List Nat := [stamp64 x.stamp, x.cls, x.idx, u32 x.seq]

/-- Commit order (R27): on-time inputs, then LATE ones, each ascending by key. -/
def commitOrder (xs : List Input) : List Input :=
  let l := sortBy (fun (a b : Input) => lexLt a.key b.key) xs
  l.filter (fun x => !x.late) ++ l.filter (·.late)

/-- What a commit leaves beside the state: configuration digest, cycle digest, outcomes of arms and releases, whether a due job image had been generated, and
what became of a job and of a coverage image that were due. -/
structure CommitOut where
  cfg : Nat := 0
  digest : Nat := 0
  outcomes : List (Input × Nat) := []
  ok : Bool := true
  job : Option Bool := none
  cov : Option Bool := none
  deriving DecidableEq, Repr, Inhabited

/-- An act that waited for this commit and is not a stage's own (R102, R117, R156). -/
def Dev.commitAct (k : Nat) (d : Dev) (c : Nat × Nat × Nat × Bytes) : Dev :=
  let v := unle c.2.2.2
  match c.2.1 with
  | 0x2001 => if v = 1 then d.jobLoading k else d.jobBack k
  | 0x1210 => { d with com := { d.com with sta := { d.com.sta with refWant := some (v, 2) } } }
  | 0x1231 => if d.rd P.STA_STATE = 0 then d else d.staState 5
  | _ => d

/-- Keys replaced at this commit (R479). -/
def Dev.commitRekey (d : Dev) (c : Nat × Nat × Nat × Bytes) : Dev :=
  if c.2.1 = P.SEC_REKEY then d.rekey (fld c.2.2.2 0 1) (fld c.2.2.2 1 1) (c.2.2.2.drop 2) else d

/-- The notices of the commands of cycles up to `k` entered, in the order in which the commands came (R35, R421, R422). -/
def Dev.enterSaid (d : Dev) (k : Nat) : Dev :=
  let now := d.cyc.said.filter fun n => decide (n.cycle ≤ k)
  let d1 := { d with cyc := { d.cyc with said := d.cyc.said.filter fun n => decide (k < n.cycle) }, com := { d.com with said := now } }
  now.foldl (fun (d : Dev) (n : Said) => d.noticeNow n.code n.tile n.body (if n.timed then some ((k + 1) * cycleNs) else none)) d1

/-- Class 0x02 inputs of the message types given. -/
def radio (types : List Nat) (xs : List Input) : List Input := xs.filter fun x => x.cls == 2 && types.contains (fld x.payload 0 1)

/-- Procedure `commit_cycle` (R27) over the inputs of cycle `k` in commit order: the stages, the digest, and configuration in force from the next cycle (R41). -/
def Dev.commitCore (d0 : Dev) (k : Nat) (xs : List Input) : CommitOut × Dev :=
  let cfg := d0.cfgDigest k
  let acts := d0.ctrls.filter fun c => decide (c.1 ≤ k)
  let d1 := { d0 with cyc := { d0.cyc with inCommit := some k, log := [] } }.enterSaid k
  let d2 := acts.foldl Dev.commitRekey d1
  let d3 := (xs.filter (·.cls == 7)).foldl Dev.reportCapture (acts.foldl (Dev.commitAct k) d2)
  let d4 := (d3.stationEpoch k (xs.filter (·.cls == 1))).rtkStage k (radio [0x31, 0x32] xs)
  let job : Option Bool := match d4.com.job.load with
    | some l => if l.due ≤ k then some (match l.gen with | some g => g.bad.isNone | none => false) else none
    | none => none
  let (d5, recs2, fence, list_, ok) := d4.slateStage k (radio [0x34] xs)
  let cov : Option Bool := match d5.com.cov.load with
    | some (due, b) => if due ≤ k then some (d5.covLoadResult b == 0) else none
    | none => none
  let (d6, recs3) := d5.coverageStage k (radio [0x37] xs)
  let (d7, recs5) := d6.meteringStage k (xs.filter (·.cls == 5))
  let (d8, recs4) := d7.tasksStage k
  let (d9, outcomes) := d8.stopPermit k xs fence list_
  let outs := [d9.com.rtk.recs.map (·.2), recs2, recs3, recs4, recs5, [d9.com.stop.record], d9.cyc.log]
  let d10 := { d9 with
    com := { d9.com with outs := outs }
    cyc := { d9.cyc with inCommit := none, log := [], next := k + 1 }
    staged := d9.staged.filter fun s => decide (k < s.cycle)
    ctrls := d9.ctrls.filter fun c => decide (k < c.1) }
  ({ cfg := cfg, digest := cycleDigest k outs, outcomes := outcomes, ok := ok, job := job, cov := cov }, d10)

/-! ### Commands of fed and forwarded cycles -/

/-- A command of a fed or forwarded cycle decided again, as far as it acts on the committed path (R41, R278, R280). -/
def Dev.decideFed (k : Nat) (d : Dev) (x : Input) : Dev :=
  let p := x.payload
  if x.cls = 8 && x.level ≤ 3 && (fld p 0 1 == 2 || fld p 0 1 == 4 || fld p 0 1 == 9) && sizeOk p && reservedOk p then
    let w : Who := { tr := x.idx, level := x.level, slot := x.sid, stamp := x.stamp, cycle := k, live := false }
    (d.decideMail w 0 p).2
  else d

/-- Images whose last chunk lies `HST.LOAD_IDLE` back by the end of cycle `k` are abandoned in it (R381). -/
def Dev.idleLoads (d : Dev) (k : Nat) : Dev :=
  (d.host.loads.filter fun l => l.target != 0x7C && !l.done && cycleOf (l.last + d.cf P.HST_LOAD_IDLE * sec) ≤ k).foldl
    (fun (d : Dev) l => d.abandonLoad k l 1) d

/-- A cycle committed from inputs that another unit or a feed gives; `said` are the notices of its commands where the other unit gives them: sessions rest
on keys that each unit has for itself (R479). -/
def Dev.commitFed (d0 : Dev) (k : Nat) (xs : List Input) (said : Option (List Said)) : CommitOut × Dev :=
  let d1 := d0.deferring k fun (d : Dev) =>
    let e := d.idleLoads k
    xs.foldl (Dev.decideFed k) { e with cyc := { e.cyc with adm := xs.map fun x => (k, x) } }
  let own := match said with | some l => l.map fun n => { n with cycle := k } | none => d1.cyc.said
  { d1 with cyc := { d1.cyc with adm := [], said := own } }.commitCore k xs

/-! ### Replies -/

/-- What follows a reply (R382, R469, R477, R46, R290). -/
def Dev.afterReply (d : Dev) (q : Queued) : Dev :=
  match q.after with
  | 1 => match q.slot with | some i => d.endSession i 2 | none => d
  | 2 => d.power fun (p : Pwr) => { p with due := some (7, d.now + 100 * ms) }
  | 3 => d.power fun (p : Pwr) => { p with due := some (10, d.now + 100 * ms) }
  | 4 => d.enterDormant
  | 5 => d.resetBy 12
  | 6 => d.resetBy 8
  | _ => d

/-- The stored reply of a command (R377). -/
def Dev.noteReply (d : Dev) (q : Queued) (r : Reply) : Dev :=
  let same (x : DupRec) : Bool := x.ep == q.ep && x.mbx == q.mbx && x.tag == q.tag && x.crc == q.crc && x.stamp == q.stamp
  { d with host := { d.host with dup := d.host.dup.map fun x => if same x then { x with reply := some r } else x } }

/-- A command answered. -/
def Dev.answer (d : Dev) (q : Queued) (r : Reply) : Dev :=
  ((d.noteReply q r).sendReply q.ep q.tag q.mbx q.op r q.trailer).afterReply q

/-- One queued command: answered where its mailbox is not held up and its decision stands (R376); `upto` is the cycle committed last, none where commands
are decided on receipt. -/
def Dev.serveOne (upto : Option Nat) (a : Dev × List Queued × List Nat) (q : Queued) : Dev × List Queued × List Nat :=
  let hold : Dev × List Queued × List Nat := (a.1, a.2.1 ++ [q], q.mbx :: a.2.2)
  if a.2.2.contains q.mbx then hold
  else match q.decided with
    | .done r => if (match upto with | some k => decide (q.cycle ≤ k) | none => true) then (a.1.answer q r, a.2.1, a.2.2) else hold
    | .read p => let (r, d) := a.1.readReply q p; (d.answer q r, a.2.1, a.2.2)
    | .held => hold

/-- The mailbox queues served in order (R374, R376). -/
def Dev.serveQueue (d : Dev) (upto : Option Nat) : Dev :=
  let (d1, keep, _) := d.host.queue.foldl (Dev.serveOne upto) ({ d with host := { d.host with queue := [] } }, [], [])
  { d1 with host := { d1.host with queue := keep } }

/-- The replies of arms and releases (R216, R232). -/
def Dev.safetyReplies (d : Dev) (l : List (Input × Nat)) : Dev :=
  l.foldl (fun d (x, st) =>
    match d.stp.mail.find? (fun m => m.1.key == x.key) with
    | some (_, _, _, q) =>
      { d with stp := { d.stp with mail := d.stp.mail.filter fun m => m.1.key != x.key } }.sendReply q.ep q.tag q.mbx q.op { status := st } q.trailer
    | none => d) d

/-- The held reply of a load decided (R381). -/
def Dev.loadDecided (d : Dev) (target status : Nat) : Dev :=
  match d.host.loads.find? (fun l => l.target == target && l.done) with
  | some l =>
    let fix (q : Queued) : Queued := if q.op == 9 && q.ep == l.ep && q.tag == l.tag && q.decided == .held then { q with decided := .done { status := status } } else q
    { d with host := { d.host with loads := d.host.loads.filter fun x => !(x.target == target && x.done), queue := d.host.queue.map fix } }
  | none => d

/-- The loads that a commit decided. -/
def Dev.loadsDecided (d : Dev) (o : CommitOut) : Dev :=
  let one (d : Dev) (target : Nat) (r : Option Bool) : Dev := match r with | some b => d.loadDecided target (if b then 0 else 4) | none => d
  one (one d 0x20 o.job) 0x22 o.cov

/-! ### A commit of the ACTIVE unit -/

/-- The registers and the read state that a commit leaves (Table 1.9, R374), the digest item streamed, the cycle journalled (R31, R32, R37). -/
def Dev.publish (d : Dev) (k : Nat) (record item : Bytes) (cfg us : Nat) (xs : List Input) (origin : Bool) : Dev :=
  let d1 := (d.stream 3 item).journalCycle k record xs item origin
  let d2 := ((d1.wr P.CYC_COMMITTED 0 (u32 k)).wr P.CYC_CFG_DIGEST 0 cfg).maxTo P.CYC_COMMIT_MAX 0 us
  let d3 := d2.flush
  { d3 with snap := d3.regsAfter k, committedOnce := true, cyc := { d3.cyc with lastCommitAt := d3.now } }

/-- `FLAGS` of the admission record (Table 1.5). -/
def Dev.commitFlags (d : Dev) (k us : Nat) : Nat :=
  bit d.cyc.flagCold + 2 * bit d.cyc.flagStep + 8 * bit (d.cyc.overrun || 12000 < us) + 16 * bit (d.cyc.spilled.contains k) + 32 * bit d.cyc.flagTake

/-- R26, R153: the Bench has failed; control is given up with cause 1. -/
def Dev.benchFault (d : Dev) : Dev := (d.faultLog 1 (location 1 0 0 .engine) []).giveUp 1

/-- COPY of a cycle to the peer (R279): its body belongs to the copy format. -/
def Dev.sendCopy2 (d : Dev) (record item : Bytes) (copyUs : Nat) : Dev :=
  if d.cf P.DPX_MODE = 1 && d.rd P.DPX_LINK = 2 then
    let b := record ++ item ++ Config.imageBytes d.image
    ((d.emit (.link 2 b)).maxTo P.DPX_COPY_MAX 0 copyUs).maxTo P.DPX_COPY_BYTES_MAX 0 b.length
  else d

/-- The commit of cycle `k` in the ACTIVE unit, which took `us` µs, its copy `copyUs` µs. -/
def Dev.activeCommit (d0 : Dev) (k us copyUs : Nat) : Dev :=
  let d := (d0.tlgLatch k).deferring k fun (d : Dev) => d.idleSessions k
  let xs := commitOrder ((d.cyc.adm.filter fun e => decide (e.1 ≤ k)).map (·.2))
  let flags := d.commitFlags k us
  let skipped := d.cyc.skipped
  let late := 12000 < us && !d.cyc.overrun
  let cold := d.cyc.flagCold
  let (o, d1) := d.commitCore k xs
  let record := admissionRecord k flags skipped o.cfg xs
  let item := digestItemBytes record o.digest (d1.rd P.DPX_TENURE) d1.side us
  let d2 := { d1 with cyc := { d1.cyc with
    adm := d1.cyc.adm.filter fun e => decide (k < e.1)
    spilled := d1.cyc.spilled.filter fun m => decide (k < m)
    flagCold := false, flagStep := false, flagTake := false, skipped := 0, overrun := false, missed := false } }.when late (·.inc P.CYC_OVERRUN)
  let d3 := ((d2.publish k record item o.cfg us xs cold).airCommit).sendCopy2 record item copyUs
  let d4 := ((d3.loadsDecided o).serveQueue (some k)).safetyReplies o.outcomes
  if o.ok then d4 else d4.benchFault

/-- CYCLE_COMMIT (R25, R27, R35 to R37, R374): at C(k) the commit of the next cycle, which takes `us` µs and its copy `copyUs` µs. -/
def execCycleCommit (t us copyUs : Nat) (s : State) : Host.Outcome State Fault Refusal := run s fun d0 =>
  let d := d0.at t
  let k := d.cyc.next
  if !d.commits || d.dsp.failed || d.now < d.commitAt k then d else d.activeCommit k us copyUs

/-- COMMIT_OVERRUN (R26): the commit of the next cycle has not completed 12 ms after C(k). -/
def execCommitOverrun (t : Nat) (s : State) : Host.Outcome State Fault Refusal := run s fun d0 =>
  let d := d0.at t
  if !d.commits || d.cyc.overrun || d.now < d.commitAt d.cyc.next + 12 * ms then d
  else { d with cyc := { d.cyc with overrun := true } }.inc P.CYC_OVERRUN

/-- COMMIT_MISSED (R26): the commit of cycle k has not completed by C(k + 1). -/
def execCommitMissed (t : Nat) (s : State) : Host.Outcome State Fault Refusal := run s fun d0 =>
  let d := d0.at t
  if !d.commits || d.cyc.missed || d.now < d.commitAt (d.cyc.next + 1) then d
  else { d with cyc := { d.cyc with missed := true } }.benchFault

/-- CYCLE_BOUNDARY (R19, R223, R241, Table 15.7): a cycle begins. -/
def execCycleBoundary (t : Nat) (s : State) : Host.Outcome State Fault Refusal := run s fun d0 =>
  let d := d0.at t
  let k := cycleOf d.now
  let begun := match d.cyc.origin with | some o => decide (o ≤ k) | none => false
  let past := match d.cyc.origin with | some o => decide (o < k) | none => false
  let d1 := if begun then d.wr P.CYC_NOW 0 (u32 k) else d
  let d2 := if past && d1.active && !d1.replay && d1.stp.bcnCycle != some (k - 1) then d1.inc P.STP_WITHHELD else d1
  (d2.dspCycle).airBoundary k

/-- VOTER_TICK (R210, R211, R230): when the safety outputs go off the Derrick stops all axes. -/
def execVoterTick (t : Nat) (s : State) : Host.Outcome State Fault Refusal := run s fun d0 =>
  let d := d0.at t
  let d1 := d.voterTick
  if d.stp.outOn && !d1.stp.outOn then d1.drkStopAll else d1

/-! ### The cycle origin and taking control -/

/-- The inputs of the cycle origin (R213, R214): levels of enabled circuits, faults that lanes hold. -/
def Dev.originInputs (d : Dev) (at_ : Nat) : Dev :=
  let d1 := [0, 1, 2, 3].foldl (fun (d : Dev) i =>
    if d.cf P.STP_ESTOP_EN (i / 2) = 1 then d.input at_ 6 i (le 1 (bit (nth d.stp.level i)) ++ le 1 2 ++ le 2 0) else d) d
  [0, 1, 2].foldl (fun (d : Dev) i =>
    if !d.laneVotes i then d
    else
      let d1 := [0, 1].foldl (fun (d : Dev) c =>
        if nth d.stp.circuit c then d.input at_ 9 i (verdictBody 2 2 Scope.allScope (circuitLoc c)) else d) d
      if d1.stp.outFault then d1.input at_ 9 i (verdictBody 11 2 Scope.allScope (location 6 0 0 .engine)) else d1) d1

/-- The committed path starts at cycle `o` (R42, R43, R187, R235). -/
def Dev.startPath (d : Dev) (o : Nat) : Dev :=
  let d1 := { d with cyc := { d.cyc with origin := some o, next := o, floor := o * cycleNs, adm := [], spilled := [], flagCold := true, skipped := 0,
                                         overrun := false, missed := false } }
  let d2 := (d1.wr P.CYC_ORIGIN 0 (u32 o)).wr P.CYC_NOW 0 (u32 (cycleOf d1.now))
  (if d2.com.job.job.isSome then d2.covRebuild else d2).originInputs (o * cycleNs)

/-- A unit becomes ACTIVE (R282, R288, R291, R303, R364): kind 1 planned, 2 heartbeat loss, 3 start claim; `first` is the first cycle it commits. -/
def Dev.becomeActive (d : Dev) (kind first : Nat) (offset : Int) (unc : Nat) : Dev :=
  let tenure := min (max (d.rd P.DPX_TENURE) d.peer.peerTenure + 1) 0xFFFFFFFF
  let own := d.rd P.DPX_TENURE
  let last := match d.peer.lastCopy with | some j => u32 j | none => 0xFFFFFFFF
  let d1 := (d.wr P.DPX_TENURE 0 tenure).inc P.DPX_TAKEOVERS
  let d2 := if 0xFFFFFFFF ≤ max own d.peer.peerTenure && !d1.isSticky P.DPX_TENURE then { d1 with sticky := regKey P.DPX_TENURE 0 :: d1.sticky } else d1
  let join (l : Lane) : Lane := { l with latched := l.latched.join d2.com.stop.latched }
  let d3 := { d2 with
    peer := { d2.peer with seatDriven := true, giveB := none, takeSent := false, holdFrom := none, claim := none, lossLatch := false }
    stp := { d2.stp with lanes := d2.stp.lanes.map join, firstBeacon := true }
    cyc := { d2.cyc with flagTake := true, adm := (d2.peer.foreign.filter fun e => first ≤ e.1), lastCommitAt := d2.now } }
  let d4 := ({ d3 with peer := { d3.peer with foreign := [] }, snap := d3.regs }.emit (.pin "SEAT" false)).unitState 1 0
  let d5 := d4.notice 0x3882 (le 1 kind ++ le 4 tenure ++ le 4 (u32 first) ++ le 4 last)
  let d6 := if kind = 3 then d5 else d5.drkCold
  let d7 := if d6.rd P.TIM_SOURCE = 3 then (match d6.preferred with | some src => d6.changeSource src offset unc | none => d6.enterHoldover) else d6
  d7.ptpJudge

/-- TAKEOVER (R282, R289): at boundary b the unit that answered TAKE becomes ACTIVE; `offset` and `unc` are those of the source it moves to. -/
def execTakeover (t : Nat) (offset : Int) (unc : Nat) (s : State) : Host.Outcome State Fault Refusal := run s fun d0 =>
  let d := d0.at t
  let st := d.rd P.DPX_STATE
  match d.peer.giveB with
  | some b => if (st = 2 || st = 3) && d.peer.takeSent && b * cycleNs ≤ d.now then d.becomeActive 1 (b - 1) offset unc else d
  | none => d

/-- HEARTBEAT_LOSS_TAKEOVER (R284): a STANDBY whose link has failed, at a boundary; `seat` is the level `SEAT` reads. -/
def execHeartbeatLossTakeover (t : Nat) (seat : Bool) (offset : Int) (unc : Nat) (s : State) : Host.Outcome State Fault Refusal := run s fun d0 =>
  let d1 := d0.at t
  let d := { d1 with peer := { d1.peer with seatHigh := seat } }
  if d.rd P.DPX_STATE != 2 || d.rd P.DPX_LINK != 0 || d.cf P.DPX_MODE != 1 then d
  else
    let b := cycleOf d.now
    let heard := d.peer.beaconCycles.any fun c => [1, 2, 3].any fun j => c == u32 (b - j)
    if seat && !heard then
      let first := match d.peer.lastCopy with | some j => j + 1 | none => d.cyc.next
      let d2 := d.becomeActive 2 first offset unc
      let d3 := d2.stopEvent 10 Scope.allScope { stamp := d2.now, cls := 9, idx := 3 } false
      let (n, d4) := d3.takeSeq 9 3
      let x : Input := { stamp := d4.now, cls := 9, idx := 3, seq := n, admitAt := d4.now
                         payload := verdictBody 10 1 Scope.allScope (location 15 0 0 .engine) }
      { d4 with cyc := { d4.cyc with adm := d4.cyc.adm ++ [(first, x)] } }.inc P.CYC_ADMITTED
    else d.noticeT 0x3881 (le 1 0 ++ le 1 (d.rd P.DPX_PEER_STATE) ++ le 1 (bit seat))

/-- START_CLAIM (R286, R42): a STARTING unit at a cycle boundary once hub time is set; `seat` is the level `SEAT` reads in the last 100 µs before it. -/
def execStartClaim (t : Nat) (seat : Bool) (s : State) : Host.Outcome State Fault Refusal := run s fun d0 =>
  let d1 := d0.at t
  let d := { d1 with peer := { d1.peer with seatHigh := seat } }
  let b := cycleOf d.now
  let o := (d.tim.setAt + cycleNs - 1) / cycleNs
  if d.rd P.DPX_STATE != 0 || !d.timeSet || b < o then d
  else if d.cf P.DPX_MODE = 0 then (d.becomeActive 3 b 0 0).startPath b
  else if d.peer.refused then d
  else if d.rd P.DPX_PEER_STATE = 1 then
    let d2 := { d with cyc := { d.cyc with origin := some b, next := b } }.wr P.CYC_ORIGIN 0 (u32 b)
    d2.toShadow
  else
    let heard := d.peer.beaconCycles.any fun c => [1, 2, 3].any fun j => c == u32 (b - j)
    let ready := if d.side = 1 then o < b else o + 5 ≤ b && !heard
    if seat && ready then
      let d2 := (d.becomeActive 3 b 0 0).startPath b
      { d2 with peer := { d2.peer with claim := some b } }.emit (.link 7 (le 4 (u32 b)))
    else d

/-! ### A STEP of hub time (R44, R60) -/

/-- The cycles up to and including `last` committed, at an instant that closes their admission. -/
def Dev.commitUpTo (us : Nat) : Nat → Nat → Dev → Dev
  | 0, _, d => d
  | n + 1, last, d => if last < d.cyc.next then d else Dev.commitUpTo us n last (d.activeCommit d.cyc.next us 0)

/-- Every engine of the committed path empty again; configuration, job, accumulators and the log stay (R43, R44). -/
def Dev.emptyPath (d : Dev) : Dev :=
  let bay (b : MtrBay) : MtrBay := { b with gate := false, below := 0, samples := 0, last := [(0, 0), (0, 0), (0, 0)], peaks := [], gap := false }
  let loads := d.host.loads.filter fun l => l.target != 0x7C
  let d1 := loads.foldl (fun (d : Dev) l => d.loadDecided l.target 4) d
  let d2 := { d1 with
    staged := [], ctrls := []
    host := { d1.host with loads := d1.host.loads.filter fun l => l.target == 0x7C }
    com := { jobMachines := d1.com.jobMachines, frame := d1.com.frame, job := d1.com.job
             mtr := { bays := d1.com.mtr.bays.map bay, saved := d1.com.mtr.saved, restore := false }
             rtk := { cold := (d1.com.rtk.filters.filter fun (f : Filter) => f.hist).map fun (f : Filter) => f.n }
             sta := { ref := d1.com.sta.ref } } }
  (bays12.foldl (fun (d : Dev) b => d.wr P.MTR_GATE b 0) d2.slateCold).staState 0

/-- A ONESHOT that a forward STEP passes over is missed (R64). -/
def Dev.missOneshots (d : Dev) (t1 : Nat) : Dev :=
  [0, 1, 2, 3].foldl (fun (d : Dev) o =>
    match nth d.tim.tpMode o, d.edgeAt o 0 with
    | 3, some start => if start < t1 then (d.inc P.TIM_TP_SUPPRESSED o).oneshotEnd o 1 start else d
    | _, _ => d) d

/-- STEP_APPLY (R44, R60): at the step instant; `offset` is hub time less the source, `frac` the fraction loaded, `us` what the commit that the step closes took. -/
def execStepApply (t : Nat) (offset : Int) (frac us : Nat) (s : State) : Host.Outcome State Fault Refusal := run s fun d0 =>
  let d := d0.at t
  match d.tim.stepAt with
  | none => d
  | some at_ =>
    if d.now < at_ || !d.commits then d
    else
      let j := cycleOf d.now
      let d1 := (Dev.commitUpTo us (j - d.cyc.next) (j - 1) { d with tim := { d.tim with stepAt := none } }).wr P.TIM_STEP 0 0
      let old := d1.now
      let t1 := ((old : Int) - offset).toNat
      let next := (t1 + cycleNs - 1) / cycleNs
      let back := t1 < old
      let skipped := if back then 0 else next - j
      let lost := (d1.chutes.map fun c => c.waiting.length).sum
      let d2 := { d1.incBy P.CYC_EARLY_DROP 0 lost with chutes := d1.chutes.map fun (c : Chute) => { c with waiting := [] } }
      let d3 : Dev := if back then d2 else d2.missOneshots t1
      let pps : List (Option Nat) := mapFrom (fun (o : Nat) (x : Option Nat) => if nth d3.tim.tpMode o == 1 then some t1 else x) 0 d3.tim.tpSuppress
      let pend (o : Option (Nat × Nat)) : Option (Nat × Nat) := o.map fun m => (m.1, wholeSecondAfter t1)
      let d4 := { d3 with
        now := t1
        tim := { d3.tim with frac := frac % 2 ^ 32, slew := 0, remain := 0, lastMeas := some t1, countFrom := t1, tpSuppress := pps, tpPend := d3.tim.tpPend.map pend }
        pwr := { d3.pwr with rtcOfs := d3.pwr.rtcOfs + ((t1 : Int) - old) } }
      let d5 := (((d4.setIncr).wrS P.TIM_STEP_LAST 0 ((t1 : Int) - old)).inc P.TIM_STEP_COUNT).wr P.TIM_OFFSET 0 0
      let d6 := d5.noticeT 0x0282 (le 8 (ofS 64 ((t1 : Int) - old)) ++ le 4 frac ++ le 4 skipped)
      let d7 := d6.timeState 4
      if back then
        let d8 := d7.emptyPath.startPath next
        { d8 with cyc := { d8.cyc with flagStep := true } }
      else { d7 with cyc := { d7.cyc with next := next, floor := next * cycleNs, flagStep := true, skipped := skipped } }

/-! ### Following the ACTIVE unit (R278 to R280) -/

/-- The cycle a 32-bit number names, at or after `near` (R9). -/
def unwrap32 (near v : Nat) : Nat := near + (v + 2 ^ 32 - u32 near) % 2 ^ 32

/-- R280: the outcome of a comparison. -/
def Dev.compareDigest (d : Dev) (k own peer : Nat) : Dev :=
  if d.peer.digestSkip || own = peer then { d with peer := { d.peer with matchRun := d.peer.matchRun + 1, mismatchRun := 0 } }
  else
    let n := d.peer.mismatchRun + 1
    let d1 := ({ d with peer := { d.peer with matchRun := 0, mismatchRun := n, holdMismatch := true } }.inc P.DPX_MISMATCHES).notice 0x3883
      (le 4 (u32 k) ++ le 8 own ++ le 8 peer ++ le 2 (min n 65535))
    if d1.rd P.DPX_STATE = 2 && d1.cf P.DPX_MISMATCH_N ≤ n then d1.toShadow else d1

/-- R280, R289, R291: a SHADOW unit after a copy: STANDBY, or the hold for the return of control started again. -/
def Dev.afterCopy (d : Dev) : Dev :=
  let near := match d.peer.peerOffset with | some o => decide (o.natAbs ≤ 1000) | none => false
  let d1 := if d.rd P.DPX_STATE = 3 && d.cf P.DPX_MATCH_N ≤ d.peer.matchRun then
      (if d.side = 2 || d.cf P.DPX_REVERT = 0 then (if near then d.unitState 2 0 else d)
       else if d.peer.holdMismatch then { d with peer := { d.peer with holdMismatch := false, holdFrom := some d.now } }
       else d)
    else d
  match d1.peer.giveB, d1.peer.lastCopy with
  | some b, some j => if b ≤ j + 2 && !d1.peer.takeSent then { d1 with peer := { d1.peer with takeSent := true } }.emit (.link 6 (le 4 (u32 b))) else d1
  | _, _ => d1

/-- PEER_COPY (R279, R280): the copy of a cycle: admission record, digest item and the state of the ACTIVE unit after it; `ok` that it came whole and in time. -/
def execPeerCopy (t : Nat) (record item : Bytes) (img : Image) (ok : Bool) (s : State) : Host.Outcome State Fault Refusal := run s fun d0 =>
  let d := d0.at t
  let st := d.rd P.DPX_STATE
  if (st != 2 && st != 3) || d.peer.waitCheckpoint then d
  else
    let k := unwrap32 d.cyc.next (fld record 0 4)
    let xs := commitOrder ((d.peer.foreign.filter fun e => e.1 == k).map (·.2))
    if !ok || k != d.cyc.next || xs.length != fld record 6 2 + fld record 8 4 then (if st = 2 then d.toShadow else d.sendResync)
    else
      let (o, d1) := (d.tlgLatch k).commitFed k xs (some img.com.said)
      let d2 := (d1.journalCycle k record xs item (bitOf (fld record 4 2) 0)).flush
      let d3 := (d2.takeImage img true).compareDigest k o.digest (fld item 8 8)
      let d4 := { d3 with
        cyc := { d3.cyc with next := k + 1 }
        peer := { d3.peer with lastCopy := some k, foreign := d3.peer.foreign.filter fun e => decide (k < e.1) } }
      (d4.wr P.CYC_COMMITTED 0 (u32 k)).afterCopy

/-- PEER_CHECKPOINT (R280): a SHADOW unit that asked for a checkpoint applies it. -/
def execPeerCheckpoint (t : Nat) (img : Image) (s : State) : Host.Outcome State Fault Refusal := run s fun d0 =>
  let d := d0.at t
  if d.rd P.DPX_STATE = 3 && d.peer.waitCheckpoint then
    let d1 := d.takeImage img true
    { d1 with peer := { d1.peer with waitCheckpoint := false, lastCopy := some (img.next - 1), foreign := d1.peer.foreign.filter fun e => img.next ≤ e.1 } }
  else d

/-! ### Replay (R34, R45, R46) -/

/-- The feed changed. -/
def Dev.feed (d : Dev) (f : Feed → Feed) : Dev := { d with cyc := { d.cyc with feed := f d.cyc.feed } }

/-- A mismatch of a replayed cycle (R46, R459). -/
def Dev.mismatch (d : Dev) (k own recorded : Nat) : Dev :=
  let d1 := d.inc P.CYC_MISMATCH
  let d2 := if d.rd P.CYC_MISMATCH = 0 then d1.wr P.CYC_FIRST_MISMATCH 0 (u32 k) else d1
  d2.notice 0x0380 (le 4 (u32 k) ++ le 8 own ++ le 8 recorded ++ le 4 (d2.rd P.CYC_MISMATCH))

/-- The feed abandoned: WAITING for another. -/
def Dev.feedAbandon (d : Dev) : Dev := (d.feed fun (f : Feed) => { committed := f.committed }).wr P.CYC_REPLAY_STATE 0 1

/-- An input as a journal entry holds it (Table 1.12). -/
def feedInput (flags : Nat) (b : Bytes) : Input :=
  { stamp := (ofStamp64 (fld b 0 8)).getD 0, cls := fld b 8 1, idx := fld b 9 1, seq := fld b 12 4, payload := b.drop 24
    admitAt := (ofStamp64 (fld b 16 8)).getD 0, late := bitOf flags 0 }

/-- A fed cycle committed (R46): its digest item goes out on stream 0x03; a backward STEP in the journal starts the path again. -/
def Dev.replayCommit (d : Dev) (record : Bytes) (xs0 : List Input) : Dev :=
  let k := unwrap32 d.cyc.next (fld record 0 4)
  let flags := setBit (fld record 4 2) 2 true
  let xs := commitOrder xs0
  let d0 := if fld record 4 2 % 4 = 3 then
      (let e := d.emptyPath; if e.com.job.job.isSome then e.covRebuild else e) else d
  let (o, d1) := (d0.tlgLatch k).commitFed k xs none
  let (us, d2) := d1.free
  let own := admissionRecord k flags (fld record 12 4) o.cfg xs
  let item := digestItemBytes own o.digest (d2.rd P.DPX_TENURE) d2.side us
  let d3 := d2.publish k own item o.cfg 0 xs (bitOf flags 0)
  d3.feed fun (f : Feed) => { f with committed := some k, record := none, inputs := [], digest := some (k, item) }

/-- The cycle being fed committed once its record and inputs are complete. -/
def Dev.feedReady (d : Dev) : Dev :=
  match d.cyc.feed.record with
  | some r => if fld r 6 2 + fld r 8 4 ≤ d.cyc.feed.inputs.length then d.replayCommit r d.cyc.feed.inputs else d
  | none => d

/-- The starting checkpoint (R34): state taken from its image, the store checked against `COV_DIGEST`; true where it is refused with STALE. -/
def Dev.feedHead (d : Dev) (b : Bytes) : Bool × Dev :=
  let img := Config.imageOf (cut b 28 (fld b 24 4))
  let d1 := d.takeImage img false
  let d2 := { d1 with com := { d1.com with cov := { d1.com.cov with blocks := d.cyc.feed.base } } }
  if d2.covDigest = fld b 8 8 then
    (false, { d2 with cyc := { d2.cyc with next := unwrap32 d2.cyc.next (u32 (fld b 0 4 + 1)) } }.feed fun (f : Feed) => { f with base := [], ready := true })
  else (true, d2)

/-- One entry of the feed (Table 1.12); true where the feed is refused. -/
def Dev.feedEntry (d : Dev) (kind flags : Nat) (b : Bytes) : Bool × Dev :=
  match kind with
  | 6 => (false, d.feed fun (f : Feed) => { f with base := f.base ++ [(fld b 0 4, b.drop 8)] })
  | 4 =>
    if !d.cyc.feed.ready then d.feedHead b
    else
      let own := d.covDigest
      (false, if own = fld b 8 8 then d else d.mismatch (unwrap32 (d.cyc.next - 1) (fld b 0 4)) own (fld b 8 8))
  | 1 => (false, if d.cyc.feed.ready then (d.feed fun (f : Feed) => { f with record := some b, inputs := [] }).feedReady else d)
  | 2 => (false, if d.cyc.feed.record.isSome then (d.feed fun (f : Feed) => { f with inputs := f.inputs ++ [feedInput flags b] }).feedReady else d)
  | 3 =>
    match d.cyc.feed.digest with
    | some (k, item) =>
      (false, if u32 k = fld b 0 4 && cut item 8 24 != cut b 8 24 then d.mismatch k (fld item 8 8) (fld b 8 8) else d)
    | none => (false, d)
  | _ => (false, d)

/-- The complete entries of the feed processed; true where the feed is refused with STALE. -/
def Dev.feedRun : Nat → Dev → Bool × Dev
  | 0, d => (false, d)
  | n + 1, d =>
    let b := d.cyc.feed.buf
    let len := fld b 4 4
    if b.length < 8 + len || b.length < 8 then (false, d)
    else
      let (bad, d1) := (d.feed fun (f : Feed) => { f with buf := b.drop (8 + len) }).feedEntry (fld b 0 1) (fld b 1 1) (cut b 8 len)
      if bad then (true, d1.feedAbandon) else Dev.feedRun n d1

/-- The reply of a chunk (R34). -/
def Dev.feedReply (d : Dev) (status : Nat) : Reply :=
  let f := d.cyc.feed
  { status := status, body := if status = 0 then le 4 (match f.committed with | some k => u32 k | none => 0xFFFFFFFF) ++ le 4 f.next else [] }

/-- REPLAY_FEED (R34, R46). -/
def Dev.replayFeed (d : Dev) (w : Who) (p : Bytes) : Reply × Dev :=
  let first := bitOf (fld p 1 1) 0; let fin := bitOf (fld p 1 1) 1; let offset := fld p 4 4; let data := p.drop 8
  if w.level < 3 then ({ status := 3 }, d)
  else if !d.replay then ({ status := 5 }, d)
  else
    let f := d.cyc.feed
    if (if first then offset != 0 else !f.started || offset != f.next) then ({ status := 4 }, d.feedAbandon)
    else
      let g : Feed := if first then { started := true, committed := f.committed } else f
      let d1 := { d with cyc := { d.cyc with feed := { g with next := offset + data.length, buf := g.buf ++ data, ended := fin } } }.wr P.CYC_REPLAY_STATE 0 2
      let (bad, d2) := Dev.feedRun (g.buf.length + data.length) d1
      if bad then (d2.feedReply 8, d2) else (d2.feedReply 0, if fin then d2.wr P.CYC_REPLAY_STATE 0 3 else d2)

end Sys2Proof.Machine
end

