-- ==== Sys2Proof/Machine/Mailbox.lean ====
section
/-!
DEFINITION. The way of a mail frame from its last byte to its answer (Chapter 14: R367 to R377; R216; R276; R474), and the commands of the host.
-/
namespace Sys2Proof.Machine
open Sys2Proof

/-! ### The way of a frame -/

/-- Bytes of a frame's payload and trailer (R369). -/
def mailLength (h : HostCtx) (p : Bytes) : Nat := p.length + (if h.trailer.isSome then 12 else 0)

/-- Whether every entry that a write names is one that a unit decides alone (R276). -/
def ownWrite (id : Nat) : Bool := id / 256 == 0x38 || id == P.SEC_ACTIVATE || id == P.SEC_CONFIRM || id == P.PWR_DORMANT

/-- The commands that a unit in any state answers (R276). -/
def localCmd (p : Bytes) : Bool :=
  match fld p 0 1 with
  | 0x01 | 0x03 | 0x05 | 0x06 | 0x07 | 0x08 | 0x0A => true
  | 0x02 => match setEntries (fld p 2 2) (p.drop 4) with
    | some es => es.all fun e => ownWrite e.1
    | none => false
  | 0x04 => ownWrite (fld p 2 2)
  | 0x09 => fld p 1 1 == 0x7C
  | _ => false

/-- A subscription kept alive by an admitted frame of its endpoint (R386). -/
def Dev.touchSub (d : Dev) (ep : Ep) : Dev :=
  { d with host := { d.host with subs := d.host.subs.map fun (u : Sub) => if u.mask ≠ 0 ∧ u.ep = ep then { u with last := d.now } else u } }

/-- The record that a command repeats (R377): one of the last 16 of its endpoint and mailbox within 10 s. -/
def Dev.repeatOf (d : Dev) (h : HostCtx) (crc : Nat) : Option DupRec :=
  let mine := (d.host.dup.filter fun x => x.ep == h.ep && x.mbx == h.mbx && decide (d.now ≤ x.stamp + 10 * sec)).take 16
  mine.find? fun x => x.tag == h.tag && x.crc == crc

/-- A mail frame admitted as a class 0x08 input (R20, R371), with what was found of its sender. -/
def Dev.admitMail (d : Dev) (h : HostCtx) (p : Bytes) (level : Nat) (sid : Option Nat) : Input × Dev :=
  let (n, d1) := d.takeSeq 8 h.ep.tr
  let x : Input := { stamp := d.now, cls := 8, idx := h.ep.tr, seq := n, payload := p, sid := sid, level := level }
  (x, d1.admitInput x (max h.admitAt d.now))

/-- A frame that passed its first checks is an admitted input even where a later check refuses it (R371); nothing reduces it. -/
def Dev.admitRefused (d : Dev) (h : HostCtx) (p : Bytes) : Dev := if d.active then (d.admitMail h p 255 none).2 else d

/-- A `STOP` (R216, R276): the lanes latch it at once; a unit that is not ACTIVE forwards it and answers once the ACTIVE unit has latched it. -/
def Dev.mailStop (d : Dev) (h : HostCtx) (p : Bytes) : Dev :=
  let q : Queued := { mbx := h.mbx, ep := h.ep, tag := h.tag, op := 0x0C, stamp := d.now }
  let d1 := d.stopEvent 3 (stopScope p) { stamp := d.now, cls := 8, idx := h.ep.tr } false
  if d1.active then ((d1.admitMail h p 0 none).2).answer q {}
  else if d1.rd P.DPX_LINK = 2 then
    { d1 with peer := { d1.peer with fwd := d1.peer.fwd ++ [(d1.now, q)] } }.emit (.link 10 (le 8 (stamp64 d1.now) ++ le 1 h.ep.tr ++ p))
  else d1.answer q {}

/-- `ARM_RELEASE` and `RELEASE` (R216, R232): decided in `stop_permit` of their cycle. -/
def Dev.mailSafety (d : Dev) (flags : Nat) (h : HostCtx) (p : Bytes) : Dev :=
  let q : Queued := { mbx := h.mbx, ep := h.ep, tag := h.tag, op := fld p 0 1, stamp := d.now }
  if !frameOk h.mbx flags p then (d.admitRefused h p).answer q { status := 6 }
  else
    let (auth, d1) := d.judgeTrailer h d.now p
    match auth with
    | none => (d1.admitRefused h p).answer { q with trailer := false } { status := 3 }
    | some (level, slot) =>
      if !d1.commits then d1.answer q { status := 5 }
      else
        let (x, d2) := d1.admitMail h p level slot
        { d2 with stp := { d2.stp with mail := d2.stp.mail ++ [(x, slot, level, q)] } }

/-- A command of mailboxes 1 to 7 decided (R371, R374, R276). -/
def Dev.decideQueued (d : Dev) (q : Queued) (flags : Nat) (h : HostCtx) (p : Bytes) : Queued × Dev :=
  let op := fld p 0 1
  if !frameOk h.mbx flags p then ({ q with decided := .done { status := 6 }, cycle := if isRead op then 0 else q.cycle }, d)
  else
    let (auth, d1) := d.judgeTrailer h d.now p
    match auth with
    | none => ({ q with trailer := false, decided := .done { status := 3 }, cycle := if isRead op then 0 else q.cycle }, d1)
    | some (level, slot) =>
      let q1 : Queued := { q with slot := slot, trailer := op != 7 && op != 8 }
      let w : Who := { tr := h.ep.tr, level := level, slot := slot, ep := h.ep, stamp := d.now, cycle := q.cycle }
      if !d1.active && !localCmd p then ({ q1 with decided := .done { status := 5 } }, d1)
      else if isRead op then ({ q1 with decided := .read p }, d1)
      else if op = 0x0F then let (r, d2) := d1.replayFeed w p; ({ q1 with decided := .done r }, d2)
      else
        let dq := if d1.commits then { d1 with cyc := { d1.cyc with defer := some q.cycle } } else d1
        let (a, d3) := dq.decideMail w h.tag p
        let d2 := { d3 with cyc := { d3.cyc with defer := none } }
        ({ q1 with decided := if a.held then .held else .done a.r, after := a.after }, d2)

/-- Level and slot of a mail frame as its input carries them. -/
def Dev.mailLevel (d : Dev) (h : HostCtx) (p : Bytes) : Nat × Option Nat :=
  match (d.judgeTrailer h d.now p).1 with
  | some x => x
  | none => (255, none)

/-- A command of mailboxes 1 to 7 (R372, R375 to R377). -/
def Dev.mailQueued (d : Dev) (flags : Nat) (h : HostCtx) (p : Bytes) : Dev :=
  let op := fld p 0 1
  let crc := crc32c p
  let held := (d.host.queue.filter fun q => q.mbx == h.mbx).length
  match d.repeatOf h crc with
  | some x =>
    let d1 := ((d.inc P.HST_DUP).inc P.HST_RX_FRAMES h.ep.tr).touchSub h.ep
    let d2 := d1.admitRefused h p
    match x.reply with
    | some r => d2.sendReply h.ep h.tag h.mbx op r true
    | none => d2.sendFrame 5 h.ep h.tag h.mbx 0 (le 1 (16 - held) ++ le 1 0) false
  | none =>
    if 16 ≤ held then ((d.inc P.HST_BUSY).admitRefused h p).sendReply h.ep h.tag h.mbx op { status := 1 } true
    else
      let d1 := (d.inc P.HST_RX_FRAMES h.ep.tr).touchSub h.ep
      let (k, _, _) := d1.admitCycle d1.now (max h.admitAt d1.now)
      let q : Queued := { mbx := h.mbx, ep := h.ep, tag := h.tag, op := op, crc := crc, stamp := d1.now, cycle := k }
      let rec_ : DupRec := { ep := h.ep, mbx := h.mbx, tag := h.tag, crc := crc, stamp := d1.now, op := op }
      let old := d1.host.dup.filter fun x => decide (d1.now ≤ x.stamp + 10 * sec)
      let d2 := { d1 with host := { d1.host with dup := rec_ :: old } }
      let d3 := d2.sendFrame 5 h.ep h.tag h.mbx 0 (le 1 (15 - held) ++ le 1 0) false
      let (level, slot) := if frameOk h.mbx flags p then d3.mailLevel h p else (255, none)
      let d4 := if d3.active then (d3.admitMail h p level slot).2 else d3
      let (q1, d5) := d4.decideQueued q flags h p
      { d5 with host := { d5.host with queue := d5.host.queue ++ [q1] } }.serveQueue (if d5.commits then some (d5.cyc.next - 1) else none)

/-- In recovery the boot core serves the serial port alone (R474). -/
def Dev.mailRecovery (d : Dev) (h : HostCtx) (p : Bytes) : Dev :=
  let q : Queued := { mbx := h.mbx, ep := h.ep, tag := h.tag, op := fld p 0 1, stamp := d.now, trailer := false }
  let known := (getList p).all fun e => e.1 == P.SYS_PART || e.1 == P.SYS_STEPPING || e.1 == P.SEC_SLOT_INFO
  if h.ep.tr != 1 then d
  else if fld p 0 1 = 1 && sizeOk p && known then d.sendReply h.ep h.tag h.mbx 1 (d.getReply p) false
  else if fld p 0 1 = 9 && fld p 1 1 = 0x7C && sizeOk p then
    let w : Who := { tr := 1, level := 3, ep := h.ep, stamp := d.now }
    let (a, d1) := d.decideMail w h.tag p
    if a.held then { d1 with host := { d1.host with queue := d1.host.queue ++ [q] } } else d1.sendReply h.ep h.tag h.mbx 9 a.r false
  else d.sendReply h.ep h.tag h.mbx (fld p 0 1) { status := 5 } false

/-- A command frame that the Host Port has received whole at `t` (R369, R371, R375): `flags` are its `FLAGS`, `p` its payload. -/
def Dev.mail (d0 : Dev) (t flags : Nat) (h : HostCtx) (p : Bytes) : Dev :=
  let d := d0.at t
  if 1 < h.ep.tr || d.hostDown || (h.ep.tr = 1 && d.up && d.rd P.HST_SERIAL_EN = 0) then d
  else if transportLimit h.ep.tr < mailLength h p then d.inc P.HST_BAD_FRAMES h.ep.tr
  else if !d.up then (if d.pwr.mode = 3 then d.mailRecovery h p else d)
  else if isStop h.mbx p then ((d.inc P.HST_RX_FRAMES h.ep.tr).touchSub h.ep).mailStop h p
  else if d.commits && d.tooEarly d.now then d.inc P.CYC_EARLY_DROP
  else if h.mbx = 0 then ((d.inc P.HST_RX_FRAMES h.ep.tr).touchSub h.ep).mailSafety flags h p
  else if 7 < h.mbx then (((d.inc P.HST_RX_FRAMES h.ep.tr).touchSub h.ep).admitRefused h p).sendReply h.ep h.tag h.mbx (fld p 0 1) { status := 6 } true
  else d.mailQueued flags h p

/-- A command of the host with `FLAGS` as its trailer says. -/
def mailCmd (t : Nat) (h : HostCtx) (p : Bytes) (s : State) : Host.Outcome State Fault Refusal :=
  runAlways s fun d => d.mail t (bit h.trailer.isSome) h p

/-- An entry of a `SET` (Table 14.5). -/
def entryBytes (id inst : Nat) (b : Bytes) : Bytes := le 2 id ++ le 2 inst ++ le 2 b.length ++ b

/-- The payload of a `SET` with one entry. -/
def setOne (id inst : Nat) (b : Bytes) : Bytes := le 1 2 ++ le 1 0 ++ le 2 1 ++ entryBytes id inst b

/-- A `SET` of one item to a number of its width. -/
def setValue (id inst v : Nat) : Bytes := setOne id inst (le (match paramOf id with | some p => p.ty.width | none => 0) v)

/-- The payload of a `GET_BLOCK` (R380). -/
def getBlockBytes (id inst offset size : Nat) : Bytes := le 1 3 ++ le 1 0 ++ le 2 id ++ le 2 inst ++ le 4 offset ++ le 2 size

/-- The payload of a `LOAD` chunk (Table 14.6). -/
def loadBytes (target total offset : Nat) (data : Bytes) : Bytes := le 1 9 ++ le 1 target ++ le 2 0 ++ le 4 total ++ le 4 offset ++ data

/-- The payload of safety mail (Table 8.5). -/
def safetyBytes (op scope groups mask : Nat) : Bytes := le 1 op ++ le 1 scope ++ le 2 groups ++ le 12 mask

/-! ### Commands -/

/-- GET (R378). -/
def execGet (t : Nat) (h : HostCtx) (items : List (Nat × Nat)) (s : State) : Host.Outcome State Fault Refusal :=
  mailCmd t h (le 1 1 ++ le 1 0 ++ le 2 items.length ++ items.flatMap fun e => le 2 e.1 ++ le 2 e.2) s

/-- SET (R379). -/
def execSet (t : Nat) (h : HostCtx) (entries : List (Nat × Nat × Bytes)) (s : State) : Host.Outcome State Fault Refusal :=
  mailCmd t h (le 1 2 ++ le 1 0 ++ le 2 entries.length ++ entries.flatMap fun e => entryBytes e.1 e.2.1 e.2.2) s

/-- GET_BLOCK (R380). -/
def execGetBlock (t : Nat) (h : HostCtx) (id inst offset size : Nat) (s : State) : Host.Outcome State Fault Refusal :=
  mailCmd t h (getBlockBytes id inst offset size) s

/-- SET_BLOCK (R380). -/
def execSetBlock (t : Nat) (h : HostCtx) (id inst : Nat) (block : Bytes) (s : State) : Host.Outcome State Fault Refusal :=
  mailCmd t h (le 1 4 ++ le 1 0 ++ le 2 id ++ le 2 inst ++ block) s

/-- CLOSE (R382). -/
def execClose (t : Nat) (h : HostCtx) (s : State) : Host.Outcome State Fault Refusal := mailCmd t h (le 1 5 ++ le 1 1 ++ le 2 0) s

/-- ECHO (R382). -/
def execEcho (t : Nat) (h : HostCtx) (arg : Bytes) (s : State) : Host.Outcome State Fault Refusal := mailCmd t h (le 1 5 ++ le 1 2 ++ le 2 0 ++ arg) s

/-- RESTART (R382). -/
def execRestart (t : Nat) (h : HostCtx) (s : State) : Host.Outcome State Fault Refusal := mailCmd t h (le 1 5 ++ le 1 3 ++ le 2 0) s

/-- SUBSCRIBE (R386). -/
def execSubscribe (t : Nat) (h : HostCtx) (target on : Nat) (s : State) : Host.Outcome State Fault Refusal :=
  mailCmd t h (le 1 6 ++ le 1 target ++ le 1 on ++ le 1 0) s

/-- AUTH_BEGIN (R383). -/
def execAuthBegin (t : Nat) (h : HostCtx) (level : Nat) (nonce : Bytes) (s : State) : Host.Outcome State Fault Refusal :=
  mailCmd t h (le 1 7 ++ le 1 level ++ le 2 0 ++ nonce) s

/-- AUTH_PROVE (R383). -/
def execAuthProve (t : Nat) (h : HostCtx) (sid : Nat) (proof : Bytes) (s : State) : Host.Outcome State Fault Refusal :=
  mailCmd t h (le 1 8 ++ le 1 sid ++ le 2 0 ++ proof) s

/-- LOAD_JOB_IMAGE (R152, R381). -/
def execLoadJobImage (t : Nat) (h : HostCtx) (total offset : Nat) (data : Bytes) (s : State) : Host.Outcome State Fault Refusal :=
  mailCmd t h (loadBytes 0x20 total offset data) s

/-- LOAD_COVERAGE_IMAGE (R191, R381). -/
def execLoadCoverageImage (t : Nat) (h : HostCtx) (total offset : Nat) (data : Bytes) (s : State) : Host.Outcome State Fault Refusal :=
  mailCmd t h (loadBytes 0x22 total offset data) s

/-- LOAD_FIRMWARE_IMAGE (R476, R381). -/
def execLoadFirmwareImage (t : Nat) (h : HostCtx) (total offset : Nat) (data : Bytes) (s : State) : Host.Outcome State Fault Refusal :=
  mailCmd t h (loadBytes 0x7C total offset data) s

/-- LOG_READ (R432). -/
def execLogRead (t : Nat) (h : HostCtx) (region gen start maxb : Nat) (s : State) : Host.Outcome State Fault Refusal :=
  mailCmd t h (le 1 0x0A ++ le 1 region ++ le 2 0 ++ le 4 gen ++ le 4 start ++ le 2 maxb ++ le 2 0) s

/-- LOG_CLEAR_REQUEST (R435). -/
def execLogClearRequest (t : Nat) (h : HostCtx) (region : Nat) (s : State) : Host.Outcome State Fault Refusal :=
  mailCmd t h (le 1 0x0B ++ le 1 1 ++ le 1 region ++ le 1 0) s

/-- LOG_CLEAR_CONFIRM (R435, R436). -/
def execLogClearConfirm (t : Nat) (h : HostCtx) (region : Nat) (proof : Bytes) (s : State) : Host.Outcome State Fault Refusal :=
  mailCmd t h (le 1 0x0B ++ le 1 2 ++ le 1 region ++ le 1 0 ++ proof) s

/-- STOP (R216). -/
def execStop (t : Nat) (h : HostCtx) (scope groups mask : Nat) (s : State) : Host.Outcome State Fault Refusal :=
  mailCmd t h (safetyBytes 0x0C scope groups mask) s

/-- ARM_RELEASE (R231). -/
def execArmRelease (t : Nat) (h : HostCtx) (scope groups mask : Nat) (s : State) : Host.Outcome State Fault Refusal :=
  mailCmd t h (safetyBytes 0x0D scope groups mask) s

/-- RELEASE (R232). -/
def execRelease (t : Nat) (h : HostCtx) (scope groups mask : Nat) (s : State) : Host.Outcome State Fault Refusal :=
  mailCmd t h (safetyBytes 0x0E scope groups mask) s

/-- REPLAY_FEED (R34). -/
def execReplayFeed (t : Nat) (h : HostCtx) (flags offset : Nat) (data : Bytes) (s : State) : Host.Outcome State Fault Refusal :=
  mailCmd t h (le 1 0x0F ++ le 1 flags ++ le 2 0 ++ le 4 offset ++ data) s

/-- A snapshot action (R93 to R95): a write of `GNS.SNAP_CTRL`, or the `SNAPSHOT` command where `cmd` is true. -/
def snapBytes (cmd : Bool) (action : Nat) : Bytes := if cmd then le 1 0x10 ++ le 1 action ++ le 2 0 else setValue P.GNS_SNAP_CTRL 0 action

/-- SNAP_ARM (R93). -/
def execSnapArm (t : Nat) (h : HostCtx) (cmd : Bool) (s : State) : Host.Outcome State Fault Refusal := mailCmd t h (snapBytes cmd 1) s

/-- SNAP_TRIGGER (R94). -/
def execSnapTrigger (t : Nat) (h : HostCtx) (cmd : Bool) (s : State) : Host.Outcome State Fault Refusal := mailCmd t h (snapBytes cmd 2) s

/-- SNAP_EXPORT (R95). -/
def execSnapExport (t : Nat) (h : HostCtx) (cmd : Bool) (s : State) : Host.Outcome State Fault Refusal := mailCmd t h (snapBytes cmd 3) s

/-- SNAP_DISCARD (R93). -/
def execSnapDiscard (t : Nat) (h : HostCtx) (cmd : Bool) (s : State) : Host.Outcome State Fault Refusal := mailCmd t h (snapBytes cmd 4) s

/-- SNAP_DISARM (R93). -/
def execSnapDisarm (t : Nat) (h : HostCtx) (cmd : Bool) (s : State) : Host.Outcome State Fault Refusal := mailCmd t h (snapBytes cmd 5) s

/-- JOURNAL_HOLD (R32): a write of 1. -/
def execJournalHold (t : Nat) (h : HostCtx) (s : State) : Host.Outcome State Fault Refusal := mailCmd t h (setValue P.CYC_JOURNAL_HOLD 0 1) s

/-- JOURNAL_RELEASE (R32): a write of 0. -/
def execJournalRelease (t : Nat) (h : HostCtx) (s : State) : Host.Outcome State Fault Refusal := mailCmd t h (setValue P.CYC_JOURNAL_HOLD 0 0) s

/-- REPLAY_ENTER (R45): a write of 1. -/
def execReplayEnter (t : Nat) (h : HostCtx) (s : State) : Host.Outcome State Fault Refusal := mailCmd t h (setValue P.CYC_REPLAY 0 1) s

/-- REPLAY_LEAVE (R46): a write of 0. -/
def execReplayLeave (t : Nat) (h : HostCtx) (s : State) : Host.Outcome State Fault Refusal := mailCmd t h (setValue P.CYC_REPLAY 0 0) s

/-- TIM_STEP (R59): a write of 1. -/
def execTimStep (t : Nat) (h : HostCtx) (s : State) : Host.Outcome State Fault Refusal := mailCmd t h (setValue P.TIM_STEP 0 1) s

/-- TP_MODE_WRITE (R61). -/
def execTpModeWrite (t : Nat) (h : HostCtx) (out mode : Nat) (s : State) : Host.Outcome State Fault Refusal := mailCmd t h (setValue P.TIM_TP_MODE out mode) s

/-- GNS_RUN_WRITE (R97). -/
def execGnsRunWrite (t : Nat) (h : HostCtx) (v : Nat) (s : State) : Host.Outcome State Fault Refusal := mailCmd t h (setValue P.GNS_RUN 0 v) s

/-- FORCE_COLD (R92): a write of 1. -/
def execForceCold (t : Nat) (h : HostCtx) (s : State) : Host.Outcome State Fault Refusal := mailCmd t h (setValue P.GNS_FORCE_COLD 0 1) s

/-- STA_SELFTEST (R117): a write of 1. -/
def execStaSelftest (t : Nat) (h : HostCtx) (s : State) : Host.Outcome State Fault Refusal := mailCmd t h (setValue P.STA_SELFTEST 0 1) s

/-- REF_ANT_WRITE (R102). -/
def execRefAntWrite (t : Nat) (h : HostCtx) (ant : Nat) (s : State) : Host.Outcome State Fault Refusal := mailCmd t h (setValue P.STA_REF_ANT 0 ant) s

/-- JOB_START (R156). -/
def execJobStart (t : Nat) (h : HostCtx) (s : State) : Host.Outcome State Fault Refusal := mailCmd t h (setValue P.JOB_CTRL 0 1) s

/-- JOB_PAUSE (R156). -/
def execJobPause (t : Nat) (h : HostCtx) (s : State) : Host.Outcome State Fault Refusal := mailCmd t h (setValue P.JOB_CTRL 0 2) s

/-- JOB_UNLOAD (R156). -/
def execJobUnload (t : Nat) (h : HostCtx) (s : State) : Host.Outcome State Fault Refusal := mailCmd t h (setValue P.JOB_CTRL 0 3) s

/-- RESEAT (R181): a write of 1 for a machine. -/
def execReseat (t : Nat) (h : HostCtx) (machine : Nat) (s : State) : Host.Outcome State Fault Refusal := mailCmd t h (setValue P.SLT_RESEAT machine 1) s

/-- HOST_RES_WRITE (R183). -/
def execHostResWrite (t : Nat) (h : HostCtx) (inst : Nat) (block : Bytes) (s : State) : Host.Outcome State Fault Refusal :=
  mailCmd t h (setOne P.SLT_HOST_RES inst block) s

/-- MTR_SNAP (R346): a write of 1. -/
def execMtrSnap (t : Nat) (h : HostCtx) (s : State) : Host.Outcome State Fault Refusal := mailCmd t h (setValue P.MTR_SNAP 0 1) s

/-- A write of `DRK.CTRL`: command and axis mask. -/
def drkBytes (cmd mask : Nat) : Bytes := setValue P.DRK_CTRL 0 (cmd + 256 * mask)

/-- MOVE (R355). -/
def execMove (t : Nat) (h : HostCtx) (mask : Nat) (s : State) : Host.Outcome State Fault Refusal := mailCmd t h (drkBytes 1 mask) s

/-- AXIS_STOP (R356). -/
def execAxisStop (t : Nat) (h : HostCtx) (mask : Nat) (s : State) : Host.Outcome State Fault Refusal := mailCmd t h (drkBytes 2 mask) s

/-- RESUME (R356). -/
def execResume (t : Nat) (h : HostCtx) (mask : Nat) (s : State) : Host.Outcome State Fault Refusal := mailCmd t h (drkBytes 3 mask) s

/-- HOME (R359). -/
def execHome (t : Nat) (h : HostCtx) (mask : Nat) (s : State) : Host.Outcome State Fault Refusal := mailCmd t h (drkBytes 4 mask) s

/-- AXIS_CLEAR (R358). -/
def execAxisClear (t : Nat) (h : HostCtx) (mask : Nat) (s : State) : Host.Outcome State Fault Refusal := mailCmd t h (drkBytes 5 mask) s

/-- CAN_START_RECOVERY (R326). -/
def execCanStartRecovery (t : Nat) (h : HostCtx) (c : Nat) (s : State) : Host.Outcome State Fault Refusal := mailCmd t h (setValue P.CAN_CTRL c 1) s

/-- CAN_ABORT_HOST_BUFFERS (R327). -/
def execCanAbortHostBuffers (t : Nat) (h : HostCtx) (c : Nat) (s : State) : Host.Outcome State Fault Refusal := mailCmd t h (setValue P.CAN_CTRL c 2) s

/-- TX_ABORT (R320): a write of 1 for a buffer. -/
def execTxAbort (t : Nat) (h : HostCtx) (buf : Nat) (s : State) : Host.Outcome State Fault Refusal := mailCmd t h (setValue P.CAN_TX_ABORT buf 1) s

/-- CAN_BUF_WRITE (R320): a frame record for a transmit buffer. -/
def execCanBufWrite (t : Nat) (h : HostCtx) (buf : Nat) (record : Bytes) (s : State) : Host.Outcome State Fault Refusal :=
  mailCmd t h (setOne P.CAN_BUF buf record) s

/-- CAN_BUF_READ (R318): a block read of a buffer. -/
def execCanBufRead (t : Nat) (h : HostCtx) (buf offset size : Nat) (s : State) : Host.Outcome State Fault Refusal :=
  mailCmd t h (getBlockBytes P.CAN_BUF buf offset size) s

/-- AIR_KEY_WRITE (R266). -/
def execAirKeyWrite (t : Nat) (h : HostCtx) (inst : Nat) (key : Bytes) (s : State) : Host.Outcome State Fault Refusal := mailCmd t h (setOne P.AIR_KEY inst key) s

/-- AIR_ROLL_WRITE (R267). -/
def execAirRollWrite (t : Nat) (h : HostCtx) (inst cycle : Nat) (s : State) : Host.Outcome State Fault Refusal := mailCmd t h (setValue P.AIR_ROLL inst cycle) s

/-- PAIR_KEY_WRITE (R274). -/
def execPairKeyWrite (t : Nat) (h : HostCtx) (key : Bytes) (s : State) : Host.Outcome State Fault Refusal := mailCmd t h (setOne P.DPX_PAIR_KEY 0 key) s

/-- PLANNED_HANDOVER (R290). -/
def execPlannedHandover (t : Nat) (h : HostCtx) (s : State) : Host.Outcome State Fault Refusal := mailCmd t h (setValue P.DPX_CTRL 0 1) s

/-- DPX_GIVE_UP (R290). -/
def execDpxGiveUp (t : Nat) (h : HostCtx) (s : State) : Host.Outcome State Fault Refusal := mailCmd t h (setValue P.DPX_CTRL 0 2) s

/-- DPX_RESTART (R290). -/
def execDpxRestart (t : Nat) (h : HostCtx) (s : State) : Host.Outcome State Fault Refusal := mailCmd t h (setValue P.DPX_CTRL 0 3) s

/-- TLG_CLEAR (R415). -/
def execTlgClear (t : Nat) (h : HostCtx) (counter : Nat) (s : State) : Host.Outcome State Fault Refusal := mailCmd t h (setValue P.TLG_CLEAR 0 counter) s

/-- DORMANT_REQUEST (R469): a write of 1. -/
def execDormantRequest (t : Nat) (h : HostCtx) (s : State) : Host.Outcome State Fault Refusal := mailCmd t h (setValue P.PWR_DORMANT 0 1) s

/-- PROV_LOCK (R478): a write of 1. -/
def execProvLock (t : Nat) (h : HostCtx) (s : State) : Host.Outcome State Fault Refusal := mailCmd t h (setValue P.SEC_PROV_LOCK 0 1) s

/-- REKEY (R479): level and new salt. -/
def execRekey (t : Nat) (h : HostCtx) (level : Nat) (salt : Bytes) (s : State) : Host.Outcome State Fault Refusal :=
  mailCmd t h (setOne P.SEC_REKEY 0 (le 1 level ++ salt)) s

/-- KEY_EXPORT_READ (R478, R479): a block read of `SEC.KEY_EXPORT`. -/
def execKeyExportRead (t : Nat) (h : HostCtx) (offset size : Nat) (s : State) : Host.Outcome State Fault Refusal :=
  mailCmd t h (getBlockBytes P.SEC_KEY_EXPORT 0 offset size) s

/-- ACTIVATE (R477): a write of 1. -/
def execActivate (t : Nat) (h : HostCtx) (s : State) : Host.Outcome State Fault Refusal := mailCmd t h (setValue P.SEC_ACTIVATE 0 1) s

/-- CONFIRM (R477): a write of 1. -/
def execConfirm (t : Nat) (h : HostCtx) (s : State) : Host.Outcome State Fault Refusal := mailCmd t h (setValue P.SEC_CONFIRM 0 1) s

/-! ### The serial port and time-outs -/

/-- `HU_RTS` follows the receive buffer (R368): high below 4,200 free bytes, low again at 8,400. -/
def Dev.rtsFill (d : Dev) (fill : Nat) : Dev :=
  let free := 16384 - fill
  let high := if free < 4200 then true else if 8400 ≤ free then false else d.host.rtsOff
  let d1 := { d with host := { d.host with rxFill := min fill 16384, rtsOff := high } }
  if high = d.host.rtsOff then d1 else d1.emit (.pin "HU_RTS" high)

/-- SERIAL_GAP_TIMEOUT (R368): more than 10 ms after the byte at `last`, the `n` bytes received since the last delimiter are discarded and counted. -/
def execSerialGapTimeout (t last n : Nat) (s : State) : Host.Outcome State Fault Refusal := run s fun d0 =>
  let d := d0.at t
  if d.rd P.HST_SERIAL_EN = 0 || n = 0 || d.now ≤ last + 10 * ms then d
  else ({ d with host := { d.host with discard := true } }.inc P.HST_BAD_FRAMES 1).rtsFill (d.host.rxFill - n)

/-- HU_CTS_CHANGE (R368): `HU_CTS` high stops transmission, low resumes it; `fill` bytes stand in the receive buffer. -/
def execHuCtsChange (t : Nat) (high : Bool) (fill : Nat) (s : State) : Host.Outcome State Fault Refusal := run s fun d0 =>
  let d := (d0.at t).rtsFill fill
  if high then { d with host := { d.host with ctsStop := true } }
  else d.host.txHeld.foldl (fun (d : Dev) o => d.emit o) { d with host := { d.host with ctsStop := false, txHeld := [] } }

/-- BAD_MAIL_FRAME (R368, R369, R371, R10): a frame with the fault `why`: 1 `SYNC`, 2 `LENGTH`, 3 `CRC`, 4 `KIND`, 5 COBS or a run without delimiter, 6 overrun
of the serial buffer are dropped and counted; 0 is a frame that passes these checks, with its `FLAGS` and payload as they came. -/
def execBadMailFrame (t why flags fill : Nat) (h : HostCtx) (p : Bytes) (s : State) : Host.Outcome State Fault Refusal := runAlways s fun d0 =>
  if why = 0 then d0.mail t flags h p
  else
    let d := d0.at t
    if !d.up || 1 < h.ep.tr || (h.ep.tr = 1 && d.rd P.HST_SERIAL_EN = 0) then d
    else
      let d1 := if h.ep.tr = 1 then d.rtsFill fill else d
      let d2 := { d1 with host := { d1.host with discard := false } }
      if why = 6 then (if h.ep.tr = 1 then d2.inc P.HST_SERIAL_OVF else d2)
      else if 6 < why || (why = 5 && h.ep.tr = 0) then d2
      else d2.inc P.HST_BAD_FRAMES h.ep.tr

/-- SUBSCRIPTION_LAPSE (R386): an endpoint has sent no admitted frame for `HST.SUB_LAPSE`. -/
def execSubscriptionLapse (t : Nat) (ep : Ep) (s : State) : Host.Outcome State Fault Refusal := run s fun d0 =>
  let d := d0.at t
  let lapsed (u : Sub) : Bool := u.mask != 0 && u.ep == ep && decide (u.last + d.cf P.HST_SUB_LAPSE * sec ≤ d.now)
  { d with host := { d.host with subs := d.host.subs.map fun (u : Sub) => if lapsed u then {} else u } }

/-- LOAD_IDLE_ABANDON (R381): an open image has received no chunk for `HST.LOAD_IDLE`. -/
def execLoadIdleAbandon (t target : Nat) (s : State) : Host.Outcome State Fault Refusal := run s fun d0 =>
  let d := d0.at t
  match d.host.loads.find? (fun l => l.target == target && !l.done) with
  | some l =>
    let due := l.last + d.cf P.HST_LOAD_IDLE * sec
    if due ≤ d.now then
      let k := max d.cyc.next (cycleOf due)
      if d.commits && target != 0x7C then d.deferring k fun (d : Dev) => d.abandonLoad k l 1 else d.abandonLoad k l 1
    else d
  | none => d

/-! ### Firmware images -/

/-- Notice 0x7C80 of an image checked. -/
def Dev.imageNotice (d : Dev) (slot result : Nat) (img : Bytes) : Dev := d.notice 0x7C80 (le 1 slot ++ le 1 result ++ cut img 7 1 ++ cut img 8 8)

/-- IMAGE_CHECK_DONE (R476): the check of the slot written completes; `other` is the result code of a wrong `MAGIC` or `HVER`, which the manual does not give. -/
def execImageCheckDone (t other : Nat) (s : State) : Host.Outcome State Fault Refusal := run s fun d0 =>
  let d := d0.at t
  match d.host.loads.find? (fun l => l.target == 0x7C && l.done) with
  | some l =>
    let i := d.loadSlot
    let r := imageResult l.data (d.rd P.SEC_ARB) (max 1 other)
    let d1 := ((d.setBootSlot i { state := if r = 0 then 1 else 2, image := some l.data }).when (r != 0) (·.inc P.SEC_IMG_REFUSED)).imageNotice i r l.data
    (d1.loadDecided 0x7C (if r = 0 then 0 else 4)).serveQueue (if d1.commits then some (d1.cyc.next - 1) else none)
  | none => d

/-- RECOVERY_IMAGE_WRITE (R474): in recovery a valid image is written to slot A, `active` becomes 0, and a cold start with cause 13 follows. -/
def execRecoveryImageWrite (t : Nat) (s : State) : Host.Outcome State Fault Refusal := runAlways s fun d0 =>
  let d := d0.at t
  match d.host.loads.find? (fun l => l.target == 0x7C && l.done) with
  | some l =>
    if d.pwr.mode != 3 then d
    else
      let ok := imageResult l.data (d.rd P.SEC_ARB) 1 == 0
      let d1 := (d.loadDecided 0x7C (if ok then 0 else 4)).serveQueue none
      if ok then
        ((d1.setBootSlot 0 { state := 1, image := some l.data }).power fun (p : Pwr) => { p with active := 0, pending := 0xFF, tries := 0 }).resetBy 13
      else d1.setBootSlot 0 { state := 2, image := some l.data }
  | none => d

end Sys2Proof.Machine
end

