-- ==== Sys2Proof/Machine/Dispatch.lean ====
section
/-!
DEFINITION. One arm per command: the meaning it has.
-/
namespace Sys2Proof.Machine
open Sys2Proof

def exec (i : Instr) (s : State) : Host.Outcome State Fault Refusal :=
  match i with
  | .get t h items => Sys2Proof.Machine.execGet t h items s
  | .set t h entries => Sys2Proof.Machine.execSet t h entries s
  | .getBlock t h id inst offset size => Sys2Proof.Machine.execGetBlock t h id inst offset size s
  | .setBlock t h id inst block => Sys2Proof.Machine.execSetBlock t h id inst block s
  | .close t h => Sys2Proof.Machine.execClose t h s
  | .echo t h arg => Sys2Proof.Machine.execEcho t h arg s
  | .restart t h => Sys2Proof.Machine.execRestart t h s
  | .subscribe t h target on => Sys2Proof.Machine.execSubscribe t h target on s
  | .authBegin t h level nonce => Sys2Proof.Machine.execAuthBegin t h level nonce s
  | .authProve t h sid proof => Sys2Proof.Machine.execAuthProve t h sid proof s
  | .loadJobImage t h total offset data => Sys2Proof.Machine.execLoadJobImage t h total offset data s
  | .loadCoverageImage t h total offset data => Sys2Proof.Machine.execLoadCoverageImage t h total offset data s
  | .loadFirmwareImage t h total offset data => Sys2Proof.Machine.execLoadFirmwareImage t h total offset data s
  | .logRead t h region gen start maxb => Sys2Proof.Machine.execLogRead t h region gen start maxb s
  | .logClearRequest t h region => Sys2Proof.Machine.execLogClearRequest t h region s
  | .logClearConfirm t h region proof => Sys2Proof.Machine.execLogClearConfirm t h region proof s
  | .stop t h scope groups mask => Sys2Proof.Machine.execStop t h scope groups mask s
  | .armRelease t h scope groups mask => Sys2Proof.Machine.execArmRelease t h scope groups mask s
  | .release t h scope groups mask => Sys2Proof.Machine.execRelease t h scope groups mask s
  | .replayFeed t h flags offset data => Sys2Proof.Machine.execReplayFeed t h flags offset data s
  | .snapArm t h cmd => Sys2Proof.Machine.execSnapArm t h cmd s
  | .snapTrigger t h cmd => Sys2Proof.Machine.execSnapTrigger t h cmd s
  | .snapExport t h cmd => Sys2Proof.Machine.execSnapExport t h cmd s
  | .snapDiscard t h cmd => Sys2Proof.Machine.execSnapDiscard t h cmd s
  | .snapDisarm t h cmd => Sys2Proof.Machine.execSnapDisarm t h cmd s
  | .journalHold t h => Sys2Proof.Machine.execJournalHold t h s
  | .journalRelease t h => Sys2Proof.Machine.execJournalRelease t h s
  | .replayEnter t h => Sys2Proof.Machine.execReplayEnter t h s
  | .replayLeave t h => Sys2Proof.Machine.execReplayLeave t h s
  | .timStep t h => Sys2Proof.Machine.execTimStep t h s
  | .tpModeWrite t h out mode => Sys2Proof.Machine.execTpModeWrite t h out mode s
  | .gnsRunWrite t h v => Sys2Proof.Machine.execGnsRunWrite t h v s
  | .forceCold t h => Sys2Proof.Machine.execForceCold t h s
  | .staSelftest t h => Sys2Proof.Machine.execStaSelftest t h s
  | .refAntWrite t h ant => Sys2Proof.Machine.execRefAntWrite t h ant s
  | .jobStart t h => Sys2Proof.Machine.execJobStart t h s
  | .jobPause t h => Sys2Proof.Machine.execJobPause t h s
  | .jobUnload t h => Sys2Proof.Machine.execJobUnload t h s
  | .reseat t h machine => Sys2Proof.Machine.execReseat t h machine s
  | .hostResWrite t h inst block => Sys2Proof.Machine.execHostResWrite t h inst block s
  | .mtrSnap t h => Sys2Proof.Machine.execMtrSnap t h s
  | .move t h mask => Sys2Proof.Machine.execMove t h mask s
  | .axisStop t h mask => Sys2Proof.Machine.execAxisStop t h mask s
  | .resume t h mask => Sys2Proof.Machine.execResume t h mask s
  | .home t h mask => Sys2Proof.Machine.execHome t h mask s
  | .axisClear t h mask => Sys2Proof.Machine.execAxisClear t h mask s
  | .canStartRecovery t h c => Sys2Proof.Machine.execCanStartRecovery t h c s
  | .canAbortHostBuffers t h c => Sys2Proof.Machine.execCanAbortHostBuffers t h c s
  | .txAbort t h buf => Sys2Proof.Machine.execTxAbort t h buf s
  | .canBufWrite t h buf record => Sys2Proof.Machine.execCanBufWrite t h buf record s
  | .canBufRead t h buf offset size => Sys2Proof.Machine.execCanBufRead t h buf offset size s
  | .airKeyWrite t h inst key => Sys2Proof.Machine.execAirKeyWrite t h inst key s
  | .airRollWrite t h inst cycle => Sys2Proof.Machine.execAirRollWrite t h inst cycle s
  | .pairKeyWrite t h key => Sys2Proof.Machine.execPairKeyWrite t h key s
  | .plannedHandover t h => Sys2Proof.Machine.execPlannedHandover t h s
  | .dpxGiveUp t h => Sys2Proof.Machine.execDpxGiveUp t h s
  | .dpxRestart t h => Sys2Proof.Machine.execDpxRestart t h s
  | .tlgClear t h counter => Sys2Proof.Machine.execTlgClear t h counter s
  | .dormantRequest t h => Sys2Proof.Machine.execDormantRequest t h s
  | .provLock t h => Sys2Proof.Machine.execProvLock t h s
  | .rekey t h level salt => Sys2Proof.Machine.execRekey t h level salt s
  | .keyExportRead t h offset size => Sys2Proof.Machine.execKeyExportRead t h offset size s
  | .activate t h => Sys2Proof.Machine.execActivate t h s
  | .confirm t h => Sys2Proof.Machine.execConfirm t h s
  | .serialGapTimeout t last n => Sys2Proof.Machine.execSerialGapTimeout t last n s
  | .huCtsChange t high fill => Sys2Proof.Machine.execHuCtsChange t high fill s
  | .authChallengeExpire t sid => Sys2Proof.Machine.execAuthChallengeExpire t sid s
  | .authLockoutEnd t ep => Sys2Proof.Machine.execAuthLockoutEnd t ep s
  | .subscriptionLapse t ep => Sys2Proof.Machine.execSubscriptionLapse t ep s
  | .loadIdleAbandon t target => Sys2Proof.Machine.execLoadIdleAbandon t target s
  | .chutePacketCommit t i1 p => Sys2Proof.Machine.execChutePacketCommit t i1 p s
  | .chuteStall t i1 last => Sys2Proof.Machine.execChuteStall t i1 last s
  | .chuteReadIdleWake t i1 => Sys2Proof.Machine.execChuteReadIdleWake t i1 s
  | .chuteFault t i1 => Sys2Proof.Machine.execChuteFault t i1 s
  | .cycleBoundary t => Sys2Proof.Machine.execCycleBoundary t s
  | .cycleCommit t us copyUs => Sys2Proof.Machine.execCycleCommit t us copyUs s
  | .trackGenerationDone t pieces digest => Sys2Proof.Machine.execTrackGenerationDone t pieces digest s
  | .commitOverrun t => Sys2Proof.Machine.execCommitOverrun t s
  | .commitMissed t => Sys2Proof.Machine.execCommitMissed t s
  | .timeLoad t src time unc => Sys2Proof.Machine.execTimeLoad t src time unc s
  | .sourceLoss t src last => Sys2Proof.Machine.execSourceLoss t src last s
  | .sourceQualified t src since offset unc => Sys2Proof.Machine.execSourceQualified t src since offset unc s
  | .timeLocked t since offset unc => Sys2Proof.Machine.execTimeLocked t since offset unc s
  | .slewRemeasure t offset unc freq => Sys2Proof.Machine.execSlewRemeasure t offset unc freq s
  | .holdoverSecond t => Sys2Proof.Machine.execHoldoverSecond t s
  | .stepApply t offset frac us => Sys2Proof.Machine.execStepApply t offset frac us s
  | .leapApply t utc => Sys2Proof.Machine.execLeapApply t utc s
  | .oscillatorFault t ppb src => Sys2Proof.Machine.execOscillatorFault t ppb src s
  | .clockMonitorFault t cause count prev => Sys2Proof.Machine.execClockMonitorFault t cause count prev s
  | .tpModeTakeEffect t o => Sys2Proof.Machine.execTpModeTakeEffect t o s
  | .tpEdge t o n => Sys2Proof.Machine.execTpEdge t o n s
  | .eventCapture t i1 edge half => Sys2Proof.Machine.execEventCapture t i1 edge half s
  | .rtcSet t => Sys2Proof.Machine.execRtcSet t s
  | .antBiasSample t i1 ma peak => Sys2Proof.Machine.execAntBiasSample t i1 ma peak s
  | .antBiasRetry t i1 ma => Sys2Proof.Machine.execAntBiasRetry t i1 ma s
  | .chainSettleEnd t c => Sys2Proof.Machine.execChainSettleEnd t c s
  | .chainFault t c cause => Sys2Proof.Machine.execChainFault t c cause s
  | .chainReenable t c => Sys2Proof.Machine.execChainReenable t c s
  | .dumpBoundary t c n sums cn0 fll early late sigs eph => Sys2Proof.Machine.execDumpBoundary t c n sums cn0 fll early late sigs eph s
  | .epochLatch t l => Sys2Proof.Machine.execEpochLatch t l s
  | .acqSearchDone t sig ant sat ratio => Sys2Proof.Machine.execAcqSearchDone t sig ant sat ratio s
  | .pullinTimeout t c => Sys2Proof.Machine.execPullinTimeout t c s
  | .coastExpiry t c => Sys2Proof.Machine.execCoastExpiry t c s
  | .tileFault t tile cause => Sys2Proof.Machine.execTileFault t tile cause s
  | .snapCaptureEnd t data => Sys2Proof.Machine.execSnapCaptureEnd t data s
  | .snapExportEnd t => Sys2Proof.Machine.execSnapExportEnd t s
  | .jamIndexUpdate t c pk => Sys2Proof.Machine.execJamIndexUpdate t c pk s
  | .notchUpdate t c db => Sys2Proof.Machine.execNotchUpdate t c db s
  | .selftestTone t c ok j => Sys2Proof.Machine.execSelftestTone t c ok j s
  | .laneTick t i1 ok => Sys2Proof.Machine.execLaneTick t i1 ok s
  | .voterTick t => Sys2Proof.Machine.execVoterTick t s
  | .voterTest t ok => Sys2Proof.Machine.execVoterTest t ok s
  | .beaconForm t i1 => Sys2Proof.Machine.execBeaconForm t i1 s
  | .beaconSelfListen t i1 heard => Sys2Proof.Machine.execBeaconSelfListen t i1 heard s
  | .stopCopy t => Sys2Proof.Machine.execStopCopy t s
  | .estopEdge t i1 raw closed => Sys2Proof.Machine.execEstopEdge t i1 raw closed s
  | .estopTestPulse t i1 low back other => Sys2Proof.Machine.execEstopTestPulse t i1 low back other s
  | .estopDiscrepancy t c => Sys2Proof.Machine.execEstopDiscrepancy t c s
  | .canSilence t i1 => Sys2Proof.Machine.execCanSilence t i1 s
  | .remoteSilence t i1 => Sys2Proof.Machine.execRemoteSilence t i1 s
  | .fenceDeadline t i1 k => Sys2Proof.Machine.execFenceDeadline t i1 k s
  | .laneRecordApply t i1 good => Sys2Proof.Machine.execLaneRecordApply t i1 good s
  | .safeOutTest t o ok => Sys2Proof.Machine.execSafeOutTest t o ok s
  | .safeFbMismatch t o since fb => Sys2Proof.Machine.execSafeFbMismatch t o since fb s
  | .safeFaultClear t since => Sys2Proof.Machine.execSafeFaultClear t since s
  | .startupTests t mask lanes chans slices => Sys2Proof.Machine.execStartupTests t mask lanes chans slices s
  | .airFrameReceive t i1 sfd f => Sys2Proof.Machine.execAirFrameReceive t i1 sfd f s
  | .reasmExpire t => Sys2Proof.Machine.execReasmExpire t s
  | .airFrameTransmit t i1 clear => Sys2Proof.Machine.execAirFrameTransmit t i1 clear s
  | .ackReceive t i1 psdu => Sys2Proof.Machine.execAckReceive t i1 psdu s
  | .ackTimeout t i1 => Sys2Proof.Machine.execAckTimeout t i1 s
  | .txQueueExpire t i1 => Sys2Proof.Machine.execTxQueueExpire t i1 s
  | .synthUnlock t i1 => Sys2Proof.Machine.execSynthUnlock t i1 s
  | .keyRollover t inst => Sys2Proof.Machine.execKeyRollover t inst s
  | .keyDeliverySend t n kclass => Sys2Proof.Machine.execKeyDeliverySend t n kclass s
  | .linkConfigSend t n => Sys2Proof.Machine.execLinkConfigSend t n s
  | .allotmentRepeat t slot => Sys2Proof.Machine.execAllotmentRepeat t slot s
  | .heartbeatSend t => Sys2Proof.Machine.execHeartbeatSend t s
  | .heartbeatReceive t hb sameKey offset => Sys2Proof.Machine.execHeartbeatReceive t hb sameKey offset s
  | .linkFail t => Sys2Proof.Machine.execLinkFail t s
  | .linkRestore t => Sys2Proof.Machine.execLinkRestore t s
  | .peerInput t cycle x => Sys2Proof.Machine.execPeerInput t cycle x s
  | .peerCopy t record item img ok => Sys2Proof.Machine.execPeerCopy t record item img ok s
  | .peerCheckpoint t img => Sys2Proof.Machine.execPeerCheckpoint t img s
  | .resync t => Sys2Proof.Machine.execResync t s
  | .peerStopFwd t stamp idx payload => Sys2Proof.Machine.execPeerStopFwd t stamp idx payload s
  | .giveUpReceive t cause b => Sys2Proof.Machine.execGiveUpReceive t cause b s
  | .silentAtBoundary t => Sys2Proof.Machine.execSilentAtBoundary t s
  | .takeover t offset unc => Sys2Proof.Machine.execTakeover t offset unc s
  | .heartbeatLossTakeover t seat offset unc => Sys2Proof.Machine.execHeartbeatLossTakeover t seat offset unc s
  | .startClaim t seat => Sys2Proof.Machine.execStartClaim t seat s
  | .claimReceive t b => Sys2Proof.Machine.execClaimReceive t b s
  | .silentRestart t => Sys2Proof.Machine.execSilentRestart t s
  | .returnRequest t => Sys2Proof.Machine.execReturnRequest t s
  | .portLinkChange t p up mbit full => Sys2Proof.Machine.execPortLinkChange t p up mbit full s
  | .bypassJoin t => Sys2Proof.Machine.execBypassJoin t s
  | .bypassJoinTimeout t => Sys2Proof.Machine.execBypassJoinTimeout t s
  | .bypassDownRelease t => Sys2Proof.Machine.execBypassDownRelease t s
  | .ethFrameForward t f => Sys2Proof.Machine.execEthFrameForward t f s
  | .mrpTopologyChange t p interval => Sys2Proof.Machine.execMrpTopologyChange t p interval s
  | .ptpSyncSend t => Sys2Proof.Machine.execPtpSyncSend t s
  | .ptpAnnounceSend t => Sys2Proof.Machine.execPtpAnnounceSend t s
  | .pdelayReqSend t p mac => Sys2Proof.Machine.execPdelayReqSend t p mac s
  | .ptpMessageReceive t p m => Sys2Proof.Machine.execPtpMessageReceive t p m s
  | .ringFault t tile cause => Sys2Proof.Machine.execRingFault t tile cause s
  | .canFrameReceive t c f => Sys2Proof.Machine.execCanFrameReceive t c f s
  | .canFrameSent t c b sof loop => Sys2Proof.Machine.execCanFrameSent t c b sof loop s
  | .canTxError t c b kind => Sys2Proof.Machine.execCanTxError t c b kind s
  | .canRecoveryStart t c => Sys2Proof.Machine.execCanRecoveryStart t c s
  | .canRecoveryDone t c => Sys2Proof.Machine.execCanRecoveryDone t c s
  | .canModeApply t c => Sys2Proof.Machine.execCanModeApply t c s
  | .canRefSchedule t c => Sys2Proof.Machine.execCanRefSchedule t c s
  | .canRefLost t c => Sys2Proof.Machine.execCanRefLost t c s
  | .isoAddressClaim t ev addr name => Sys2Proof.Machine.execIsoAddressClaim t ev addr name s
  | .canControllerFault t c cause => Sys2Proof.Machine.execCanControllerFault t c cause s
  | .mtrBlock t c stamp last snum codes => Sys2Proof.Machine.execMtrBlock t c stamp last snum codes s
  | .meteringFault t c cause => Sys2Proof.Machine.execMeteringFault t c cause s
  | .gantryCommand t => Sys2Proof.Machine.execGantryCommand t s
  | .axisMoveDone t ax => Sys2Proof.Machine.execAxisMoveDone t ax s
  | .axisStopDone t ax => Sys2Proof.Machine.execAxisStopDone t ax s
  | .homeInputAccept t ax => Sys2Proof.Machine.execHomeInputAccept t ax s
  | .homeReleaseLatch t ax => Sys2Proof.Machine.execHomeReleaseLatch t ax s
  | .limitTrip t ax positive active => Sys2Proof.Machine.execLimitTrip t ax positive active s
  | .chatter t ax input edges => Sys2Proof.Machine.execChatter t ax input edges s
  | .followingErrorCheck t ax count => Sys2Proof.Machine.execFollowingErrorCheck t ax count s
  | .derrickFault t => Sys2Proof.Machine.execDerrickFault t s
  | .taskReady t n base => Sys2Proof.Machine.execTaskReady t n base s
  | .corePick t c => Sys2Proof.Machine.execCorePick t c s
  | .holdExpire t n => Sys2Proof.Machine.execHoldExpire t n s
  | .taskAge t n => Sys2Proof.Machine.execTaskAge t n s
  | .taskWait t n kind obj timeout => Sys2Proof.Machine.execTaskWait t n kind obj timeout s
  | .eventPost t ev => Sys2Proof.Machine.execEventPost t ev s
  | .taskWaitTimeout t n => Sys2Proof.Machine.execTaskWaitTimeout t n s
  | .coreFault t tile cause => Sys2Proof.Machine.execCoreFault t tile cause s
  | .dispatcherFault t => Sys2Proof.Machine.execDispatcherFault t s
  | .traceSync t => Sys2Proof.Machine.execTraceSync t s
  | .logRecordEnter t code tile body => Sys2Proof.Machine.execLogRecordEnter t code tile body s
  | .logFlush t dur => Sys2Proof.Machine.execLogFlush t dur s
  | .logBlockFail t r block cause lost => Sys2Proof.Machine.execLogBlockFail t r block cause lost s
  | .logRegionRetry t r ok => Sys2Proof.Machine.execLogRegionRetry t r ok s
  | .pfailAssert t => Sys2Proof.Machine.execPfailAssert t s
  | .pfailRelease t => Sys2Proof.Machine.execPfailRelease t s
  | .railMonitorFault t r mv => Sys2Proof.Machine.execRailMonitorFault t r mv s
  | .brownout t r mv since => Sys2Proof.Machine.execBrownout t r mv since s
  | .thermalWarning t die temp => Sys2Proof.Machine.execThermalWarning t die temp s
  | .thermalVerdict t die since temp => Sys2Proof.Machine.execThermalVerdict t die since temp s
  | .thermalReset t die temp => Sys2Proof.Machine.execThermalReset t die temp s
  | .resetPin t low width taken => Sys2Proof.Machine.execResetPin t low width taken s
  | .watchdogReset t => Sys2Proof.Machine.execWatchdogReset t s
  | .coldStart t torn => Sys2Proof.Machine.execColdStart t torn s
  | .boot t lost => Sys2Proof.Machine.execBoot t lost s
  | .recoveryImageWrite t => Sys2Proof.Machine.execRecoveryImageWrite t s
  | .imageCheckDone t other => Sys2Proof.Machine.execImageCheckDone t other s
  | .trialExpire t => Sys2Proof.Machine.execTrialExpire t s
  | .wake t source rising => Sys2Proof.Machine.execWake t source rising s
  | .dramScrub t n => Sys2Proof.Machine.execDramScrub t n s
  | .memoryFault t mem addr hard => Sys2Proof.Machine.execMemoryFault t mem addr hard s
  | .agcUpdate t c big clip => Sys2Proof.Machine.execAgcUpdate t c big clip s
  | .canReceiveError t c dominant => Sys2Proof.Machine.execCanReceiveError t c dominant s
  | .thermalCleared t die temps => Sys2Proof.Machine.execThermalCleared t die temps s
  | .chiselUnitFault t u => Sys2Proof.Machine.execChiselUnitFault t u s
  | .slateFault t => Sys2Proof.Machine.execSlateFault t s
  | .coverageFault t => Sys2Proof.Machine.execCoverageFault t s
  | .rekeySessionEnd t => Sys2Proof.Machine.execRekeySessionEnd t s
  | .stopFwdConfirm t => Sys2Proof.Machine.execStopFwdConfirm t s
  | .badMailFrame t why flags fill h p => Sys2Proof.Machine.execBadMailFrame t why flags fill h p s

end Sys2Proof.Machine
end

