-- ==== Sys2Proof/Safety.lean ====
section
/-!
DEFINITION. The words statements about the block are made of: what completing means, what a report may touch beside the effect it reports,
the canonical form of the register file, and which commands wait well formed.
-/
namespace Sys2Proof
open Sys2Proof.Machine

/-- The command answers a next state that leaves the queue as it stands and whose device meets `Q`. -/
def Completes (c : Instr) (s : State) (Q : Dev → Prop) : Prop :=
  ∃ u : State, exec c s = .next u ∧ u.pending = s.pending ∧ Q u.dev

/-- A counter's value after it has counted once (R11): an item with the mark S stays at its largest value, one with the mark W wraps. -/
def bumped (id v : Nat) : Nat :=
  match paramOf id with
  | some p =>
    match p.cnt with
    | .stick => if v + 1 < 256 ^ p.ty.width then v + 1 else v
    | _ => (v + 1) % 256 ^ p.ty.width
  | none => v

/-- The items that the reports of an event touch, whatever the event: notices, mail frames, stream items, records, trace records, the last fault
report and the counters of what they drop (R2, R387, R388, R407 to R412, R423 to R429). -/
def reportItem (id : Nat) : Bool :=
  [P.HST_NOTICE_SEQ, P.HST_TX_FRAMES, P.HST_STREAM_DROP, P.LOG_NEXT, P.LOG_COALESCED, P.LOG_BUF_DROPS, P.TLG_RECORDS, P.TLG_DROPPED,
   P.SYS_FAULT_LAST].contains id

/-- A cycle state without the notices and commit log records that wait in it. -/
def quietCyc (c : Cyc) : Cyc := { c with said := [], log := [] }

/-- A session slot without the counter of the frames the device has sent under it (R384). -/
def quietSlot (o : Option Session) : Option Session := o.map fun x => { x with devCnt := 0 }

/-- A subscription without its marks of lost frames (R386). -/
def quietSub (u : Sub) : Sub := { u with lost := 0 }

/-- The Host Port without the notice ring, the stream sequences and the frames that wait for `HU_CTS`. -/
def quietHost (h : HostSt) : HostSt :=
  { h with ring := [], sseq := [], txHeld := [], slots := h.slots.map quietSlot, subs := h.subs.map quietSub }

/-- The Recorder without the records it holds. -/
def quietRcd (r : Recorder) : Recorder := { r with buf := [], regions := [], lw := [], image := none, imageTail := 0 }

/-- The Telegraph without what its trace port has sent or waits to send. -/
def quietTlg (g : TlgSt) : TlgSt := { g with seq := 0, busy := 0, syncSec := none, lost := 0, noticed := none }

/-- Everything a device holds beside its register file and what a report may touch. -/
def Machine.Dev.rest (d : Dev) : Dev :=
  { d with regs := [], sticky := [], out := [], cyc := quietCyc d.cyc, host := quietHost d.host, rcd := quietRcd d.rcd, tlg := quietTlg d.tlg }

/-- Two devices agree in everything but what a report may touch: every engine holds the same, and every other item reads the same and has the same
sticky flag. -/
def Same (d e : Dev) : Prop :=
  d.rest = e.rest ∧ ∀ id i, reportItem id = false → d.rd id i = e.rd id i ∧ d.isSticky id i = e.isSticky id i

/-- Beside the items named (each with all its instances), the single instances named and what a report may touch, every item of `d` reads as in `e` and has
the same sticky flag. -/
def ItemsBut (ids : List Nat) (ks : List (Nat × Nat)) (d e : Dev) : Prop :=
  ∀ id i, reportItem id = false → id ∉ ids → (∀ k ∈ ks, regKey k.1 k.2 ≠ regKey id i) → d.rd id i = e.rd id i ∧ d.isSticky id i = e.isSticky id i

/-- The register file and the one reads are served from stand in their canonical form: keys rising, no entry at its reset value. -/
def Machine.Dev.canonical (d : Dev) : Bool := Regs.wf d.regs && Regs.wf d.snap

/-- Every waiting command is well formed: each operand lies in the range its field gives. -/
def Machine.State.queueWf (s : State) : Bool := s.pending.all Instr.wf

/-- What the sender of a frame is to the unit: nobody without a trailer, else the session of its endpoint whose key signs the frame (R384). -/
def Signed (d : Dev) (t : Nat) (h : HostCtx) (p : Bytes) (level : Nat) (slot : Option Nat) : Prop :=
  (h.trailer = none ∧ level = 0 ∧ slot = none) ∨
  ∃ scnt i x, h.trailer = some (scnt, smac x.ks (mailHead 1 (p.length + 12) h.tag h.mbx 1) p scnt) ∧ x.hostCnt < scnt ∧
    d.sessionOf h.ep (max d.now t) = some (i, x) ∧ level = x.level ∧ slot = some i

/-- The Host Port takes a frame that its transport carries whole to a running unit (R367 to R369). -/
def Heard (d : Dev) (h : HostCtx) (p : Bytes) : Prop :=
  d.up = true ∧ d.hostDown = false ∧ h.ep.tr ≤ 1 ∧ (h.ep.tr = 1 → d.rd P.HST_SERIAL_EN ≠ 0) ∧ mailLength h p ≤ transportLimit h.ep.tr

/-- A command of mailboxes 1 to 7 that passes every check of R371 to R377, at a unit whose queues are empty; `commits` says whether the unit commits. -/
def Accepted (commits : Bool) (d : Dev) (t : Nat) (h : HostCtx) (p : Bytes) (level : Nat) (slot : Option Nat) : Prop :=
  Heard d h p ∧ 1 ≤ h.mbx ∧ h.mbx ≤ 7 ∧ frameOk h.mbx (bit h.trailer.isSome) p = true ∧ d.commits = commits ∧
  (commits = true → d.tooEarly (max d.now t) = false ∧ d.cyc.next ≤ (d.admitCycle (max d.now t) (max h.admitAt (max d.now t))).1) ∧ d.host.queue = [] ∧ (d.at t).repeatOf h (crc32c p) = none ∧ Signed d t h p level slot

/-- The command waits in its mailbox with what was decided, and is an input of class 0x08 of a cycle still to be committed (R371, R376). -/
def Waits (d u : Dev) (h : HostCtx) (p : Bytes) (decided : Decided) (after : Nat) : Prop :=
  ∃ q k x, u.host.queue = [q] ∧ q.ep = h.ep ∧ q.mbx = h.mbx ∧ q.tag = h.tag ∧ q.decided = decided ∧ q.after = after ∧ q.cycle = k ∧
    u.cyc.adm = d.cyc.adm ++ [(k, x)] ∧ x.cls = 8 ∧ x.payload = p

/-- The command has been answered, and its reply is kept for a repeat (R377). -/
def Answered (u : Dev) (h : HostCtx) (p : Bytes) (r : Reply) : Prop :=
  u.host.queue = [] ∧ ∃ x, u.host.dup.head? = some x ∧ x.ep = h.ep ∧ x.mbx = h.mbx ∧ x.tag = h.tag ∧ x.crc = crc32c p ∧ x.reply = some r

/-- The items that taking a command counts in. -/
def mailItems : List Nat := [P.HST_RX_FRAMES, P.CYC_ADMITTED, P.CYC_LATE, P.CYC_LATE_SPILL, P.CYC_EARLY_DROP]

/-- What a device holds beside its register file, as taking a command leaves it: the input, the mailbox queue, the repeat record, and the marks of the sender's
session and subscription may differ, and the mark of the cycle whose command is being decided. -/
def mailRest (u d : Dev) (t : Nat) : Dev :=
  { d.rest with
    now := max d.now t
    cyc := { quietCyc d.cyc with adm := u.cyc.adm, seqs := u.cyc.seqs, spilled := u.cyc.spilled, defer := u.cyc.defer }
    host := { quietHost d.host with queue := u.host.queue, dup := u.host.dup, slots := (quietHost u.host).slots, subs := (quietHost u.host).subs } }

/-- The frame that a command of the mail brings: when it comes, what the Host Port knows of it, and its payload. -/
def mailOf : Instr → Option (Nat × HostCtx × Bytes)
  | .get t h items => some (t, h, (le 1 1 ++ le 1 0 ++ le 2 items.length ++ items.flatMap fun e => le 2 e.1 ++ le 2 e.2))
  | .set t h entries => some (t, h, (le 1 2 ++ le 1 0 ++ le 2 entries.length ++ entries.flatMap fun e => entryBytes e.1 e.2.1 e.2.2))
  | .getBlock t h id inst offset size => some (t, h, (getBlockBytes id inst offset size))
  | .setBlock t h id inst block => some (t, h, (le 1 4 ++ le 1 0 ++ le 2 id ++ le 2 inst ++ block))
  | .close t h => some (t, h, (le 1 5 ++ le 1 1 ++ le 2 0))
  | .echo t h arg => some (t, h, (le 1 5 ++ le 1 2 ++ le 2 0 ++ arg))
  | .restart t h => some (t, h, (le 1 5 ++ le 1 3 ++ le 2 0))
  | .subscribe t h target on => some (t, h, (le 1 6 ++ le 1 target ++ le 1 on ++ le 1 0))
  | .authBegin t h level nonce => some (t, h, (le 1 7 ++ le 1 level ++ le 2 0 ++ nonce))
  | .authProve t h sid proof => some (t, h, (le 1 8 ++ le 1 sid ++ le 2 0 ++ proof))
  | .loadJobImage t h total offset data => some (t, h, (loadBytes 0x20 total offset data))
  | .loadCoverageImage t h total offset data => some (t, h, (loadBytes 0x22 total offset data))
  | .loadFirmwareImage t h total offset data => some (t, h, (loadBytes 0x7C total offset data))
  | .logRead t h region gen start maxb => some (t, h, (le 1 0x0A ++ le 1 region ++ le 2 0 ++ le 4 gen ++ le 4 start ++ le 2 maxb ++ le 2 0))
  | .logClearRequest t h region => some (t, h, (le 1 0x0B ++ le 1 1 ++ le 1 region ++ le 1 0))
  | .logClearConfirm t h region proof => some (t, h, (le 1 0x0B ++ le 1 2 ++ le 1 region ++ le 1 0 ++ proof))
  | .stop t h scope groups mask => some (t, h, (safetyBytes 0x0C scope groups mask))
  | .armRelease t h scope groups mask => some (t, h, (safetyBytes 0x0D scope groups mask))
  | .release t h scope groups mask => some (t, h, (safetyBytes 0x0E scope groups mask))
  | .replayFeed t h flags offset data => some (t, h, (le 1 0x0F ++ le 1 flags ++ le 2 0 ++ le 4 offset ++ data))
  | .snapArm t h cmd => some (t, h, (snapBytes cmd 1))
  | .snapTrigger t h cmd => some (t, h, (snapBytes cmd 2))
  | .snapExport t h cmd => some (t, h, (snapBytes cmd 3))
  | .snapDiscard t h cmd => some (t, h, (snapBytes cmd 4))
  | .snapDisarm t h cmd => some (t, h, (snapBytes cmd 5))
  | .journalHold t h => some (t, h, (setValue P.CYC_JOURNAL_HOLD 0 1))
  | .journalRelease t h => some (t, h, (setValue P.CYC_JOURNAL_HOLD 0 0))
  | .replayEnter t h => some (t, h, (setValue P.CYC_REPLAY 0 1))
  | .replayLeave t h => some (t, h, (setValue P.CYC_REPLAY 0 0))
  | .timStep t h => some (t, h, (setValue P.TIM_STEP 0 1))
  | .tpModeWrite t h out mode => some (t, h, (setValue P.TIM_TP_MODE out mode))
  | .gnsRunWrite t h v => some (t, h, (setValue P.GNS_RUN 0 v))
  | .forceCold t h => some (t, h, (setValue P.GNS_FORCE_COLD 0 1))
  | .staSelftest t h => some (t, h, (setValue P.STA_SELFTEST 0 1))
  | .refAntWrite t h ant => some (t, h, (setValue P.STA_REF_ANT 0 ant))
  | .jobStart t h => some (t, h, (setValue P.JOB_CTRL 0 1))
  | .jobPause t h => some (t, h, (setValue P.JOB_CTRL 0 2))
  | .jobUnload t h => some (t, h, (setValue P.JOB_CTRL 0 3))
  | .reseat t h machine => some (t, h, (setValue P.SLT_RESEAT machine 1))
  | .hostResWrite t h inst block => some (t, h, (setOne P.SLT_HOST_RES inst block))
  | .mtrSnap t h => some (t, h, (setValue P.MTR_SNAP 0 1))
  | .move t h mask => some (t, h, (drkBytes 1 mask))
  | .axisStop t h mask => some (t, h, (drkBytes 2 mask))
  | .resume t h mask => some (t, h, (drkBytes 3 mask))
  | .home t h mask => some (t, h, (drkBytes 4 mask))
  | .axisClear t h mask => some (t, h, (drkBytes 5 mask))
  | .canStartRecovery t h c => some (t, h, (setValue P.CAN_CTRL c 1))
  | .canAbortHostBuffers t h c => some (t, h, (setValue P.CAN_CTRL c 2))
  | .txAbort t h buf => some (t, h, (setValue P.CAN_TX_ABORT buf 1))
  | .canBufWrite t h buf record => some (t, h, (setOne P.CAN_BUF buf record))
  | .canBufRead t h buf offset size => some (t, h, (getBlockBytes P.CAN_BUF buf offset size))
  | .airKeyWrite t h inst key => some (t, h, (setOne P.AIR_KEY inst key))
  | .airRollWrite t h inst cycle => some (t, h, (setValue P.AIR_ROLL inst cycle))
  | .pairKeyWrite t h key => some (t, h, (setOne P.DPX_PAIR_KEY 0 key))
  | .plannedHandover t h => some (t, h, (setValue P.DPX_CTRL 0 1))
  | .dpxGiveUp t h => some (t, h, (setValue P.DPX_CTRL 0 2))
  | .dpxRestart t h => some (t, h, (setValue P.DPX_CTRL 0 3))
  | .tlgClear t h counter => some (t, h, (setValue P.TLG_CLEAR 0 counter))
  | .dormantRequest t h => some (t, h, (setValue P.PWR_DORMANT 0 1))
  | .provLock t h => some (t, h, (setValue P.SEC_PROV_LOCK 0 1))
  | .rekey t h level salt => some (t, h, (setOne P.SEC_REKEY 0 (le 1 level ++ salt)))
  | .keyExportRead t h offset size => some (t, h, (getBlockBytes P.SEC_KEY_EXPORT 0 offset size))
  | .activate t h => some (t, h, (setValue P.SEC_ACTIVATE 0 1))
  | .confirm t h => some (t, h, (setValue P.SEC_CONFIRM 0 1))
  | _ => none

end Sys2Proof
end

