-- ==== Sys2Proof/Certificates/Slice0/Obligations.lean ====
section
/-!
DEFINITION. What is claimed of the block, for the provers: rules of the whole machine first, then what each command does, family by family.  Every command
completes in at least one clause, on hypotheses about the state and the operands alone, and every clause says what stays as it was (Sys2Proof/Safety.lean).
-/
open Sys2Proof Sys2Proof.Machine

/-- A step takes the command at the front of the queue and answers what `exec` answers for it with the queue's rest. The queue is the model's
(notes/assumptions/1.md). -/
def Obligations.StepRunsTheFrontCommand : Prop :=
  ∀ (c : Instr) (s : State), step { s with pending := c :: s.pending } = exec c s

/-- R50 by the model's choice of notes/assumptions/1.md: with no command waiting a step of a running unit advances hub time by one TIME tick, the increment
of 2^-32 ns steps added to the nanosecond and its fraction; a unit that does not run stands still; nothing else changes. -/
def Obligations.IdleStepIsOneTick : Prop :=
  (∀ (s : State), s.pending = [] → s.dev.up →
    ∃ u : State, step s = .next u ∧ u.pending = [] ∧
      u.dev.now * 2 ^ 32 + u.dev.tim.frac = (s.dev.now * 2 ^ 32 + s.dev.tim.frac + s.dev.rd P.TIM_INCR) % (2 ^ 48 * 1000000000 * 2 ^ 32) ∧
      u.dev = { s.dev with now := u.dev.now, tim := { s.dev.tim with frac := u.dev.tim.frac } }) ∧
  (∀ (s : State), s.pending = [] → s.dev.up = false → step s = .next s)

/-- R1, R10, R371: whatever command comes in whatever state, the block goes on: a step answers a next state whose queue is what was waiting behind the
command. -/
def Obligations.EveryStepAnswersNext : Prop :=
  ∀ (s : State), ∃ u : State, step s = .next u ∧ u.pending = s.pending.tail

/-- R43, R54, R209, R383, R475, R478: after reset hub time is UNSET and no cycle has an origin, no job is loaded, every lane has latched ALL, no session is
open, nothing is committed, no input waits, the safety outputs are off, `SEC.PROV_STATE` is OPEN and `SEC.ARB` is 0; no command waits. That the unit of the
reset state has booted and runs is the model's choice (notes/assumptions/2.md). -/
def Obligations.StateAfterReset : Prop :=
  State.reset.pending = [] ∧ State.reset.dev.rd P.TIM_STATE = 0 ∧ State.reset.dev.cyc.origin = none ∧ State.reset.dev.cyc.adm = [] ∧ State.reset.dev.rd P.JOB_STATE = 0 ∧
  (∀ l ∈ State.reset.dev.stp.lanes, l.latched.all = true) ∧ State.reset.dev.stp.lanes.length = 3 ∧ State.reset.dev.stp.outOn = false ∧
  State.reset.dev.host.slots = [none, none, none, none] ∧ State.reset.dev.committedOnce = false ∧ (∀ c ∈ State.reset.dev.chutes, c.waiting = []) ∧
  State.reset.dev.rd P.SEC_PROV_STATE = 0 ∧ State.reset.dev.rd P.SEC_ARB = 0 ∧ State.reset.dev.up = true

/-- The register file of the reset state stands in its canonical form, so does the file reads are served from, and no waiting command is ill formed. -/
def Obligations.ResetIsCanonical : Prop :=
  State.reset.dev.canonical = true ∧ State.reset.queueWf = true

/-- From every state whose register files (the one that commands write and the one reads are served from) hold their keys strictly rising with no entry at
its reset value, and whose waiting commands are well formed, every step leads to such a state: equal contents stay equal data, whatever the command writes,
commits, copies from the peer or restores at a cold start. -/
def Obligations.CanonicalFormKept : Prop :=
  ∀ (s u : State), s.dev.canonical = true → s.queueWf = true → step s = .next u → u.dev.canonical = true ∧ u.queueWf = true

/-- R7: bits 63:30 of a stamp64 hold the seconds modulo 2^34 and bits 29:0 the nanoseconds, below 1,000,000,000, so that the values from 1,000,000,000 never
occur; one that carries such a value is read as invalid, and one of the device is read back. -/
def Obligations.StampsOnTheWire : Prop :=
  (∀ (t : Nat), stamp64 t / 2 ^ 30 = t / 1000000000 % 2 ^ 34 ∧ stamp64 t % 2 ^ 30 = t % 1000000000 ∧ stamp64 t % 2 ^ 30 ≤ 999999999 ∧ stamp64 t < 2 ^ 64) ∧
  (∀ (v : Nat), 1000000000 ≤ v % 2 ^ 30 → ofStamp64 v = none) ∧
  (∀ (t : Nat), t < 2 ^ 34 * 1000000000 → ofStamp64 (stamp64 t) = some t)

/-- R9: the cycle number is hub time divided by 50 ms; taken as 32 bits it wraps; a is later than b exactly when (a − b) mod 2^32 lies in 1 to 2^31 − 1, and
at 2^31 it is not. -/
def Obligations.CycleNumbersCompare : Prop :=
  (∀ (t k : Nat), (cycleOf t = k ↔ k * 50000000 ≤ t ∧ t < (k + 1) * 50000000)) ∧
  (∀ (n : Nat), u32 n = n % 4294967296) ∧
  (∀ (a b : Nat), a < 4294967296 → b < 4294967296 →
    (later a b = true ↔ ∃ d : Nat, 1 ≤ d ∧ d ≤ 2147483647 ∧ ((a : Int) - b) % 4294967296 = d)) ∧
  (∀ (b : Nat), later (b + 2147483648) b = false)

/-- R21: the commit instant of cycle k is (k + 1)·50 ms + H; `CYC.HORIZON` is 20 at reset, and exactly the whole milliseconds from 2 to 40 lie in its range.
-/
def Obligations.CommitInstantOfACycle : Prop :=
  (∀ (d : Dev) (k : Nat), d.commitAt k = (k + 1) * 50000000 + d.cf P.CYC_HORIZON * 1000000) ∧
  State.reset.dev.cf P.CYC_HORIZON = 20 ∧
  (∃ r, itemRow P.CYC_HORIZON 0 = some r ∧ r.ty.width = 1 ∧ ∀ v : Nat, domOk r v = true ↔ 2 ≤ v ∧ v ≤ 40)

/-- The register file as the operations on it see it: after a write of an item's instance it reads as written, every other instance reads as before, no
sticky flag moves, and nothing beside the register file changes. -/
def Obligations.ItemsReadBack : Prop :=
  ∀ (d : Dev) (id i v : Nat), (d.wr id i v).rd id i = v ∧ (∀ (id' i' : Nat), regKey id' i' ≠ regKey id i → (d.wr id i v).rd id' i' = d.rd id' i') ∧
  (∀ (id' i' : Nat), (d.wr id i v).isSticky id' i' = d.isSticky id' i') ∧ { d.wr id i v with regs := d.regs } = d

/-- R11 and Table 0.7: a counter whose item carries the mark S counts up to the largest value of its width, stays there and then sets its sticky flag; any
other counter wraps to 0; no other item or flag moves. -/
def Obligations.CountersCount : Prop :=
  ∀ (d : Dev) (id i : Nat) (p : Param), paramOf id = some p →
    (p.cnt = .stick → d.rd id i + 1 < 256 ^ p.ty.width → (d.inc id i).rd id i = d.rd id i + 1 ∧ (d.inc id i).isSticky id i = d.isSticky id i) ∧
    (p.cnt = .stick → 256 ^ p.ty.width ≤ d.rd id i + 1 → (d.inc id i).rd id i = d.rd id i ∧ (d.inc id i).isSticky id i = true) ∧
    (p.cnt ≠ .stick → (d.inc id i).rd id i = (d.rd id i + 1) % 256 ^ p.ty.width ∧ (d.inc id i).isSticky id i = d.isSticky id i) ∧
    (∀ (id' i' : Nat), regKey id' i' ≠ regKey id i → (d.inc id i).rd id' i' = d.rd id' i' ∧ (d.inc id i).isSticky id' i' = d.isSticky id' i')

/-- R53 to R56: hub time is loaded once from the first usable source and the unit is COARSE; a usable source becomes qualified, and is taken when it is
preferred to the source in use; the loss of the only source, with no STEP armed, enters HOLDOVER with the uncertainty kept (from COARSE, the limit); each
second of HOLDOVER counts and grows the uncertainty. -/
def Obligations.HubTimeSources : Prop :=
  (∀ (s : State) (t src time unc : Nat), s.dev.up → s.dev.rd P.TIM_STATE = 0 → (s.dev.at t).sourceOk src →
     Completes (.timeLoad t src time unc) s fun u =>
       u.now = time ∧ u.rd P.TIM_STATE = 1 ∧ u.rd P.TIM_SOURCE = src ∧ u.rd P.TIM_UNC = min unc 0xFFFFFFFF ∧ u.rd P.TIM_OFFSET = 0 ∧
       u.tim.setAt = time ∧ u.tim.frac = 0 ∧
       u.rest = { s.dev.rest with now := time, tim := u.tim, pwr := u.pwr } ∧
       ItemsBut [] [(P.TIM_STATE, 0), (P.TIM_SOURCE, 0), (P.TIM_UNC, 0), (P.TIM_OFFSET, 0), (P.TIM_DEGRADED, 0)] u s.dev) ∧
  (∀ (s : State) (t src last : Nat), s.dev.up → last + s.dev.cf P.TIM_LOSS_TIME * ms ≤ max s.dev.now t → s.dev.rd P.TIM_SOURCE = src →
     s.dev.rd P.TIM_STATE = 1 ∨ s.dev.rd P.TIM_STATE = 2 ∨ s.dev.rd P.TIM_STATE = 4 → (∀ x ∈ s.dev.tim.qualified, x = src) → s.dev.tim.stepAt = none →
     Completes (.sourceLoss t src last) s fun u =>
       u.rd P.TIM_STATE = 3 ∧ u.rd P.TIM_SOURCE = 0 ∧ u.rd P.TIM_HOLD_ELAPSED = 0 ∧
       u.rd P.TIM_UNC = (if s.dev.rd P.TIM_STATE = 1 then s.dev.cf P.TIM_UNC_LIMIT else s.dev.rd P.TIM_UNC) ∧
       u.tim.slew = 0 ∧ u.tim.holdRemain = s.dev.tim.remain ∧ u.tim.qualified = [] ∧
       u.rest = { s.dev.rest with now := max s.dev.now t, tim := u.tim } ∧
       ItemsBut [] [(P.TIM_STATE, 0), (P.TIM_SOURCE, 0), (P.TIM_HOLD_ELAPSED, 0), (P.TIM_UNC, 0), (P.TIM_INCR, 0), (P.TIM_DEGRADED, 0)] u s.dev) ∧
  (∀ (s : State) (t src since : Nat) (offset : Int) (unc : Nat), s.dev.up → since + s.dev.cf P.TIM_QUAL_TIME * sec ≤ max s.dev.now t →
     (s.dev.at t).sourceOk src → s.dev.rd P.TIM_STATE = 0 ∨ s.dev.rd P.TIM_SOURCE = src →
     Completes (.sourceQualified t src since offset unc) s fun u =>
       u.tim.qualified = src :: s.dev.tim.qualified.filter (· != src) ∧
       u.rest = { s.dev.rest with now := max s.dev.now t, tim := u.tim } ∧ ItemsBut [] [] u s.dev) ∧
  (∀ (s : State) (t since : Nat) (offset : Int) (unc : Nat), s.dev.up → since + s.dev.cf P.TIM_QUAL_TIME * sec ≤ max s.dev.now t →
     (s.dev.at t).sourceOk 1 → s.dev.rd P.TIM_STATE = 1 → s.dev.rd P.TIM_SOURCE ≠ 1 → s.dev.tim.stepAt = none →
     Completes (.sourceQualified t 1 since offset unc) s fun u =>
       u.rd P.TIM_SOURCE = 1 ∧ u.rd P.TIM_STATE = 1 ∧ u.rd P.TIM_UNC = min unc 0xFFFFFFFF ∧ u.tim.countFrom = max s.dev.now t ∧
       u.tim.remain = offset ∧ u.rest = { s.dev.rest with now := max s.dev.now t, tim := u.tim } ∧
       ItemsBut [] [(P.TIM_SOURCE, 0), (P.TIM_UNC, 0), (P.TIM_OFFSET, 0), (P.TIM_INCR, 0), (P.TIM_DEGRADED, 0)] u s.dev) ∧
  (∀ (s : State) (t : Nat), s.dev.up → s.dev.rd P.TIM_STATE = 3 →
     Completes (.holdoverSecond t) s fun u =>
       u.rd P.TIM_HOLD_ELAPSED = s.dev.rd P.TIM_HOLD_ELAPSED + 1 ∧
       u.rd P.TIM_UNC = holdUnc s.dev.tim.u0 (s.dev.cf P.TIM_OSC_FSTAB) (s.dev.cf P.TIM_OSC_AGE) (s.dev.rd P.TIM_HOLD_ELAPSED + 1) ∧
       u.rd P.TIM_STATE = 3 ∧ u.rest = { s.dev.rest with now := max s.dev.now t, tim := u.tim } ∧
       ItemsBut [] [(P.TIM_HOLD_ELAPSED, 0), (P.TIM_UNC, 0), (P.TIM_DEGRADED, 0)] u s.dev)

/-- R51, R54, R58, R52, R66: LOCKED after the lock time; a measurement sets offset, uncertainty, frequency and the held increment; a leap that has come
changes the offset from UTC and not hub time; a source whose frequency is out of limit is barred; a clock fault makes hub time untrusted and is a
Package-level verdict. -/
def Obligations.HubTimeDiscipline : Prop :=
  (∀ (s : State) (t since : Nat) (offset : Int) (unc : Nat), s.dev.up → s.dev.rd P.TIM_STATE = 1 ∨ s.dev.rd P.TIM_STATE = 4 →
     offset.natAbs ≤ s.dev.cf P.TIM_LOCK_NS → s.dev.tim.countFrom ≤ since → since + s.dev.cf P.TIM_LOCK_TIME * sec ≤ max s.dev.now t →
     Completes (.timeLocked t since offset unc) s fun u =>
       u.rd P.TIM_STATE = 2 ∧ u.rd P.TIM_UNC = min unc 0xFFFFFFFF ∧ u.tim.slew = 0 ∧ u.tim.remain = offset ∧
       u.rest = { s.dev.rest with now := max s.dev.now t, tim := u.tim } ∧
       ItemsBut [] [(P.TIM_STATE, 0), (P.TIM_UNC, 0), (P.TIM_OFFSET, 0), (P.TIM_INCR, 0), (P.TIM_DEGRADED, 0)] u s.dev) ∧
  (∀ (s : State) (t : Nat) (offset : Int) (unc freq : Nat), s.dev.up →
     s.dev.rd P.TIM_STATE = 1 ∨ s.dev.rd P.TIM_STATE = 2 ∨ s.dev.rd P.TIM_STATE = 4 →
     Completes (.slewRemeasure t offset unc freq) s fun u =>
       u.rd P.TIM_OFFSET = ofS 32 (satS 32 offset) ∧ u.rd P.TIM_UNC = min unc 0xFFFFFFFF ∧ u.tim.freq = freq ∧ u.tim.remain = offset ∧
       u.tim.lastMeas = some (max s.dev.now t) ∧ (s.dev.rd P.TIM_STATE = 2 → u.tim.slew = 0) ∧
       39996 * 2 ^ 32 ≤ 10000 * u.rd P.TIM_INCR ∧ 10000 * u.rd P.TIM_INCR ≤ 40004 * 2 ^ 32 ∧
       u.rest = { s.dev.rest with now := max s.dev.now t, tim := u.tim } ∧
       ItemsBut [] [(P.TIM_UNC, 0), (P.TIM_OFFSET, 0), (P.TIM_INCR, 0), (P.TIM_DEGRADED, 0)] u s.dev) ∧
  (∀ (s : State) (t : Nat), s.dev.up → toS 8 (s.dev.rd P.TIM_LEAP_PENDING) ≠ 0 → ofHubtime80 (s.dev.wire P.TIM_LEAP_AT 0) 0 ≤ max s.dev.now t →
     Completes (.leapApply t none) s fun u =>
       u.rd P.TIM_UTC_OFFSET = ofS 16 (toS 16 (s.dev.rd P.TIM_UTC_OFFSET) + toS 8 (s.dev.rd P.TIM_LEAP_PENDING)) ∧ u.rd P.TIM_LEAP_PENDING = 0 ∧
       u.now = max s.dev.now t ∧
       u.rest = { s.dev.rest with now := max s.dev.now t, staged := u.staged } ∧
       ItemsBut [] [(P.TIM_UTC_OFFSET, 0), (P.TIM_LEAP_PENDING, 0)] u s.dev) ∧
  (∀ (s : State) (t : Nat) (ppb : Int) (src : Nat), s.dev.up → (s.dev.cf P.TIM_FREQ_LIMIT : Int) < (ppb.natAbs : Int) → s.dev.rd P.TIM_SOURCE ≠ src →
     Completes (.oscillatorFault t ppb src) s fun u =>
       u.tim.barred = src :: s.dev.tim.barred.filter (· != src) ∧ u.tim.qualified = s.dev.tim.qualified.filter (· != src) ∧
       u.rest = { s.dev.rest with now := max s.dev.now t, tim := u.tim } ∧ ItemsBut [] [] u s.dev) ∧
  (∀ (s : State) (t cause count prev : Nat), s.dev.up → cause = 2 ∨ cause = 3 →
     Completes (.clockMonitorFault t cause count prev) s fun u =>
       u.rd P.TIM_CLKMON = setBit (setBit (s.dev.rd P.TIM_CLKMON) 0 true) 1 (cause != 3) ∧ u.tim.untrusted = true ∧ u.stp.verdict = true)

/-- R61 to R65: a waiting pulse mode takes effect; a PPS edge that is due is emitted once with its scheduled time; an accepted edge at an EVT input waits in
the capture Chute with its time. -/
def Obligations.PulsesAndCaptures : Prop :=
  (∀ (s : State) (t o mode at_ : Nat), s.dev.up → nth s.dev.tim.tpPend o = some (mode, at_) → at_ ≤ max s.dev.now t →
     Completes (.tpModeTakeEffect t o) s fun u =>
       u.tim.tpMode = s.dev.tim.tpMode.set o mode ∧ u.tim.tpPend = s.dev.tim.tpPend.set o none ∧
       u.rest = { s.dev.rest with now := max s.dev.now t, tim := u.tim } ∧ ItemsBut [] [] u s.dev) ∧
  (∀ (s : State) (t o n : Nat), s.dev.up → nth s.dev.tim.tpMode o = 1 → s.dev.timeSet → n * sec ≤ max s.dev.now t → s.dev.cfS P.TIM_TP_DELAY o = 0 →
     emitted n (nth s.dev.tim.tpDone o) = false → nth s.dev.tim.tpSuppress o = none →
     Completes (.tpEdge t o n) s fun u =>
       (∃ width fine, u.out = s.dev.out ++ [.pulse o n (n * sec) width fine]) ∧
       u.tim = { s.dev.tim with tpDone := upd s.dev.tim.tpDone o (noteEdge n) } ∧
       u.rest = { s.dev.rest with now := max s.dev.now t, tim := u.tim } ∧
       ItemsBut [] [(P.TIM_TP_EMITTED, o)] u s.dev) ∧
  (∀ (s : State) (t i edge half : Nat), s.dev.up → i < 4 → edge = 1 ∨ edge = 2 → bitOf (s.dev.cf P.TIM_EVT_EDGE i) (edge - 1) →
     nth s.dev.tim.evtLast i = none → (nth s.dev.chutes 11).waiting = [] →
     Completes (.eventCapture t i edge half) s fun u =>
       u.tim.evtLast = s.dev.tim.evtLast.set i (some (2 * t + half)) ∧
       (∃ n p, p = hubtime80 t ++ le 1 (half % 2) ++ le 1 i ++ le 1 edge ++ le 1 (s.dev.rd P.TIM_STATE) ++ le 1 (s.dev.rd P.TIM_DEGRADED) ∧
         u.chutes = upd s.dev.chutes 11 fun c => { c with waiting := c.waiting ++ [{ stamp := t, cls := 7, idx := i, seq := n, payload := p }] }) ∧
       u.rest = { s.dev.rest with now := max s.dev.now t, tim := u.tim, chutes := u.chutes, cyc := { quietCyc s.dev.cyc with seqs := u.cyc.seqs } } ∧ ItemsBut [] [] u s.dev)

/-- R462, R464, R466, R477, R283: a running unit whose reset pin is held low, whose rail stays low, whose die is too hot, whose trial was not confirmed, or
that restarts itself when SILENT, is in reset with the cause of Table 18.4; the safety outputs are off and control is not driven. -/
def Obligations.ResetCauses : Prop :=
  (∀ (s : State) (t width : Nat) (taken : Bool), s.dev.up → 1000 ≤ width →
     Completes (.resetPin t true width taken) s fun u =>
       u.pwr.mode = 1 ∧ u.pwr.cause = 4 ∧ u.pwr.pinLow = true ∧ u.stp.outOn = false ∧ u.peer.seatDriven = false ∧
       u.rest = { s.dev.rest with now := max s.dev.now t, pwr := u.pwr, stp := u.stp, peer := u.peer } ∧ ItemsBut [] [(P.RNG_BYPASS_STATE, 0)] u s.dev) ∧
  (∀ (s : State) (t r mv since : Nat), s.dev.up → r < 11 → mv < (nth rails r).1 → since + 500 * us ≤ max s.dev.now t →
     Completes (.brownout t r mv since) s fun u =>
       u.pwr.mode = 1 ∧ u.pwr.cause = 3 ∧ u.stp.outOn = false ∧ u.peer.seatDriven = false ∧
       u.rest = { s.dev.rest with now := max s.dev.now t, pwr := u.pwr, stp := u.stp, peer := u.peer } ∧ ItemsBut [] [(P.PWR_VBAT_MV, 0), (P.PWR_RAIL_MV, 0), (P.RNG_BYPASS_STATE, 0)] u s.dev) ∧
  (∀ (s : State) (t die : Nat) (temp : Int), s.dev.up → die < 4 → 1250 ≤ temp →
     Completes (.thermalReset t die temp) s fun u =>
       u.pwr.mode = 1 ∧ u.pwr.cause = 6 ∧ u.pwr.hot = true ∧ u.stp.outOn = false ∧ u.peer.seatDriven = false ∧
       u.rest = { s.dev.rest with now := max s.dev.now t, pwr := u.pwr, stp := u.stp, peer := u.peer } ∧ ItemsBut [] [(P.SYS_TEMP, die), (P.RNG_BYPASS_STATE, 0)] u s.dev) ∧
  (∀ (s : State) (t : Nat), s.dev.up → s.dev.pwr.trial → s.dev.pwr.readyAt + s.dev.cf P.SEC_TRIAL_S * sec ≤ max s.dev.now t →
     Completes (.trialExpire t) s fun u =>
       u.pwr.mode = 1 ∧ u.pwr.cause = 11 ∧ u.pwr.tries = 0 ∧ u.stp.outOn = false ∧ u.peer.seatDriven = false ∧
       u.rest = { s.dev.rest with now := max s.dev.now t, pwr := u.pwr, stp := u.stp, peer := u.peer } ∧ ItemsBut [] [(P.RNG_BYPASS_STATE, 0)] u s.dev) ∧
  (∀ (s : State) (t a : Nat), s.dev.up → s.dev.peer.silentAt = some a → s.dev.rd P.DPX_STATE = 4 → s.dev.cf P.DPX_RESTART_S ≠ 0 →
     a + s.dev.cf P.DPX_RESTART_S * sec ≤ max s.dev.now t → (s.dev.at t).recentRestarts.length < s.dev.cf P.DPX_RESTART_MAX →
     Completes (.silentRestart t) s fun u =>
       u.pwr.mode = 1 ∧ u.pwr.cause = 8 ∧ u.stp.outOn = false ∧ u.peer.seatDriven = false ∧ u.peer.restarts = max s.dev.now t :: (s.dev.at t).recentRestarts ∧
       u.rest = { s.dev.rest with now := max s.dev.now t, pwr := u.pwr, stp := u.stp, peer := u.peer } ∧ ItemsBut [] [(P.RNG_BYPASS_STATE, 0)] u s.dev) ∧
  (∀ (s : State) (t : Nat), s.dev.pwr.mode = 2 → s.dev.pwr.readyAt + 5 * sec ≤ max s.dev.now t →
     Completes (.watchdogReset t) s fun u =>
       u.pwr.mode = 1 ∧ u.pwr.cause = 5 ∧ u.stp.outOn = false ∧ u.peer.seatDriven = false ∧
       u.rest = { s.dev.rest with now := max s.dev.now t, pwr := u.pwr, stp := u.stp, peer := u.peer } ∧ ItemsBut [] [(P.RNG_BYPASS_STATE, 0)] u s.dev)

/-- R465 to R474, R43, R476: a released unit boots the slot that is active where its image is valid, and its firmware starts; with no valid slot it waits in
recovery; an image that recovery accepted is written to slot A and a cold start with cause 13 follows; the check of an image that was loaded decides its
slot, and one that is refused is counted. -/
def Obligations.BootAndStart : Prop :=
  (∀ (s : State) (t : Nat) (lost : Bool), s.dev.pwr.mode = 1 → s.dev.pwr.hot = false → s.dev.pwr.pinLow = false → s.dev.pwr.pfail = false →
     s.dev.pwr.due = none → s.dev.pwr.pending = 0xFF → s.dev.slotValid s.dev.pwr.active →
     Completes (.boot t lost) s fun u =>
       u.pwr.mode = 2 ∧ u.pwr.slot = s.dev.pwr.active ∧ u.pwr.trial = false ∧ u.pwr.cause = (if lost then 2 else s.dev.pwr.cause) ∧
       u.rest = { s.dev.rest with now := max s.dev.now t, pwr := u.pwr } ∧ ItemsBut [] [] u s.dev) ∧
  (∀ (s : State) (t : Nat) (lost : Bool), s.dev.pwr.mode = 1 → s.dev.pwr.hot = false → s.dev.pwr.pinLow = false → s.dev.pwr.pfail = false →
     s.dev.pwr.due = none → s.dev.pwr.pending = 0xFF → s.dev.slotValid s.dev.pwr.active = false → s.dev.slotValid (1 - s.dev.pwr.active) = false →
     Completes (.boot t lost) s fun u => u.pwr.mode = 3 ∧ u.pwr.slots = s.dev.pwr.slots ∧ u.host = {} ∧ u.com = s.dev.com) ∧
  (∀ (s : State) (t : Nat) (torn : Bool), s.dev.pwr.mode = 2 →
     Completes (.coldStart t torn) s fun u =>
       u.pwr.mode = 0 ∧ u.pwr.started = true ∧ u.cyc.origin = none ∧ u.pwr.hist.head? = some (s.dev.pwr.cause, s.dev.pwr.slot, s.dev.pwr.rtcReset)) ∧
  (∀ (s : State) (t : Nat) (l : Load), s.dev.pwr.mode = 3 → s.dev.host.loads.find? (fun x => x.target == 0x7C && x.done) = some l →
     (∀ q ∈ s.dev.host.queue, q.after = 0 ∧ ∀ p, q.decided ≠ .read p) →
     Completes (.recoveryImageWrite t) s fun u =>
       u.pwr.slots = s.dev.pwr.slots.set 0 { state := if imageResult l.data (s.dev.rd P.SEC_ARB) 1 = 0 then 1 else 2, image := some l.data } ∧
       (imageResult l.data (s.dev.rd P.SEC_ARB) 1 = 0 → u.pwr.mode = 1 ∧ u.pwr.cause = 13 ∧ u.pwr.active = 0 ∧ u.pwr.pending = 0xFF) ∧
       (imageResult l.data (s.dev.rd P.SEC_ARB) 1 ≠ 0 → u.pwr = { s.dev.pwr with slots := u.pwr.slots })) ∧
  (∀ (s : State) (t : Nat) (l : Load) (other : Nat), s.dev.up → s.dev.host.loads.find? (fun x => x.target == 0x7C && x.done) = some l →
     (∀ q ∈ s.dev.host.queue, q.after = 0 ∧ ∀ p, q.decided ≠ .read p) →
     Completes (.imageCheckDone t other) s fun u =>
       u.pwr = { s.dev.pwr with slots := s.dev.pwr.slots.set (1 - s.dev.pwr.active) { state := if imageResult l.data (s.dev.rd P.SEC_ARB) (max 1 other) = 0 then 1 else 2, image := some l.data } } ∧
       u.host.loads = s.dev.host.loads.filter (fun x => !(x.target == 0x7C && x.done)) ∧
       u.rd P.SEC_IMG_REFUSED = (if imageResult l.data (s.dev.rd P.SEC_ARB) (max 1 other) = 0 then s.dev.rd P.SEC_IMG_REFUSED else bumped P.SEC_IMG_REFUSED (s.dev.rd P.SEC_IMG_REFUSED)) ∧ u.com = s.dev.com)

/-- R462, R465, R468 to R470, Table 18.2: a monitor reading out of range, a thermal verdict and a clock that fails are verdicts; thermal warnings show and
clear; a power failure is counted once; the RTC is set at a whole second in LOCKED; an enabled wake edge ends Dormant. -/
def Obligations.SuppliesAndBackup : Prop :=
  (∀ (s : State) (t r mv : Nat), s.dev.up → r < 11 → mv < (nth rails r).1 →
     Completes (.railMonitorFault t r mv) s fun u => u.stp.verdict = true ∧ u.pwr = s.dev.pwr ∧ u.com = s.dev.com) ∧
  (∀ (s : State) (t die : Nat) (temp : Int), s.dev.up → die < 4 → 1150 ≤ temp → s.dev.rd P.PWR_THERMAL = 0 →
     Completes (.thermalWarning t die temp) s fun u =>
       u.rd P.PWR_THERMAL = 1 ∧ u.rest = { s.dev.rest with now := max s.dev.now t } ∧ ItemsBut [] [(P.SYS_TEMP, die), (P.PWR_THERMAL, 0)] u s.dev) ∧
  (∀ (s : State) (t die since : Nat) (temp : Int), s.dev.up → die < 4 → 1200 ≤ temp → since + 100 * ms ≤ max s.dev.now t → s.dev.rd P.PWR_THERMAL ≠ 2 →
     Completes (.thermalVerdict t die since temp) s fun u => u.rd P.PWR_THERMAL = 2 ∧ u.stp.verdict = true ∧ u.pwr = s.dev.pwr ∧ u.com = s.dev.com) ∧
  (∀ (s : State) (t die : Nat) (temps : List Int), s.dev.up → die < 4 → temps.length = 4 → (∀ z ∈ temps, z < 1050) → s.dev.rd P.PWR_THERMAL ≠ 0 →
     Completes (.thermalCleared t die temps) s fun u =>
       u.rd P.PWR_THERMAL = 0 ∧ u.pwr.hot = false ∧ u.rest = { s.dev.rest with now := max s.dev.now t, pwr := u.pwr } ∧ ItemsBut [P.SYS_TEMP] [(P.PWR_THERMAL, 0)] u s.dev) ∧
  (∀ (s : State) (t : Nat), s.dev.up → s.dev.pwr.pfail = false →
     Completes (.pfailAssert t) s fun u =>
       u.rcd.pfail = true ∧ u.rcd.imageTail = 0 ∧ u.rcd.image = some u.rcd.buf ∧ u.rest = { s.dev.rest with now := max s.dev.now t, pwr := { s.dev.pwr with pfail := true }, rcd := quietRcd u.rcd, peer := u.peer, mtr := u.mtr } ∧
       ItemsBut [] [(P.PWR_PFAIL_EVENTS, 0), (P.DPX_GIVEUP_CAUSE, 0), (P.RNG_BYPASS_STATE, 0)] u s.dev) ∧
  (∀ (s : State) (t : Nat), s.dev.up → s.dev.pwr.pfail →
     Completes (.pfailRelease t) s fun u =>
       u.pwr.pfail = false ∧ u.rcd.pfail = false ∧ u.rest = { s.dev.rest with now := max s.dev.now t, pwr := u.pwr, rcd := quietRcd u.rcd } ∧ ItemsBut [] [] u s.dev) ∧
  (∀ (s : State) (t : Nat), s.dev.up → s.dev.rd P.TIM_STATE = 2 → max s.dev.now t % sec = 0 → s.dev.pwr.rtcAt = none →
     Completes (.rtcSet t) s fun u =>
       u.rd P.PWR_RTC_STATE = 3 ∧ u.pwr = { s.dev.pwr with rtcAt := some (max s.dev.now t), rtcOk := true, rtcOfs := 0 } ∧
       u.rest = { s.dev.rest with now := max s.dev.now t, pwr := u.pwr } ∧ ItemsBut [] [(P.PWR_RTC_STATE, 0)] u s.dev) ∧
  (∀ (s : State) (t source : Nat) (rising : Bool), s.dev.pwr.mode = 4 → source = 1 ∨ source = 2 → bitOf (s.dev.rd P.PWR_WAKE_EN) (source - 1) →
     bitOf (s.dev.rd P.PWR_WAKE_EDGE / 4 ^ (source - 1)) (if rising then 0 else 1) →
     Completes (.wake t source rising) s fun u =>
       u.pwr.mode = 1 ∧ u.pwr.cause = 9 ∧ u.rd P.PWR_WAKE_CAUSE = source ∧ u.rest = { s.dev.rest with now := max s.dev.now t, pwr := u.pwr } ∧ ItemsBut [] [(P.PWR_WAKE_CAUSE, 0)] u s.dev) ∧
  (∀ (s : State) (t n : Nat), s.dev.up →
     Completes (.dramScrub t n) s fun u =>
       u.rd P.PWR_DRAM_CE = (s.dev.rd P.PWR_DRAM_CE + n) % 2 ^ 32 ∧ u.rest = { s.dev.rest with now := max s.dev.now t } ∧ ItemsBut [] [(P.PWR_DRAM_CE, 0)] u s.dev) ∧
  (∀ (s : State) (t addr : Nat), s.dev.up → Completes (.memoryFault t 1 addr false) s fun u => u.rest = { s.dev.rest with now := max s.dev.now t } ∧ ItemsBut [] [(P.PWR_DRAM_CE, 0)] u s.dev) ∧
  (∀ (s : State) (t i level until_ : Nat) (x : Session), s.dev.up → s.dev.pwr.wrap = some (i, level, until_) → until_ ≤ max s.dev.now t →
     s.dev.slotAt i = some x →
     Completes (.rekeySessionEnd t) s fun u =>
       u.host.slots.map quietSlot = (s.dev.host.slots.set i none).map quietSlot ∧
       u.rest = { s.dev.rest with now := max s.dev.now t, pwr := { s.dev.pwr with wrap := none }, host := quietHost u.host, rcd := quietRcd u.rcd } ∧ ItemsBut [] [] u s.dev)

/-- R419, R423 to R425, R439, R441: a record formed outside a commit takes the next sequence of its region and ends the run of the record before it; a flush
notes the sequences and discards the image; a failed block is retired and a spare takes its place; a region that can be written again leaves the last-words
area. -/
def Obligations.RecorderEntersAndFlushes : Prop :=
  (∀ (s : State) (t code tile : Nat) (body : Bytes), s.dev.up → body.length ≤ 236 → code % 256 ≠ 0 → code % 256 < 255 → code < 65536 →
     s.dev.cyc.inCommit = none → s.dev.rd P.CHU_STATE 15 = 0 →
     (∀ r : Rec, r.body = body → s.dev.rcd.isRepeat r = false) → s.dev.rcd.full body = false →
     Completes (.logRecordEnter t code tile body) s fun u =>
       u.rcd = s.dev.rcd.enter
         { code := code, safety := safetyCode code, sev := sevOf code, source := engineOf code * 256 + tile % 256, seq := s.dev.rd P.LOG_NEXT (bit (safetyCode code)),
           stamp := max s.dev.now t, body := body, last := max s.dev.now t, lastF := max s.dev.now t, isOpen := true } ∧
       u.rd P.LOG_NEXT (bit (safetyCode code)) = bumped P.LOG_NEXT (s.dev.rd P.LOG_NEXT (bit (safetyCode code))) ∧
       u.rest = { s.dev.rest with now := max s.dev.now t, rcd := quietRcd u.rcd } ∧ ItemsBut [] [] u s.dev) ∧
  (∀ (s : State) (t dur : Nat), s.dev.up → s.dev.rcd.pfail = false → s.dev.rd P.CHU_STATE 15 = 0 → s.dev.rcd.buf = [] →
     Completes (.logFlush t dur) s fun u =>
       u.rcd.buf = [] ∧ u.rcd.image = none ∧ u.rcd.nvNext = [s.dev.rd P.LOG_NEXT 0, s.dev.rd P.LOG_NEXT 1] ∧
       u.rcd.regions = s.dev.rcd.regions.map (fun g => { g with recs := g.recs.map Rec.flushed }) ∧
       u.rd P.LOG_FLUSHES = bumped P.LOG_FLUSHES (s.dev.rd P.LOG_FLUSHES) ∧
       u.rest = { s.dev.rest with now := max s.dev.now t, rcd := quietRcd u.rcd } ∧ ItemsBut [] [(P.LOG_FLUSHES, 0), (P.LOG_FLUSH_MAX, 0)] u s.dev) ∧
  (∀ (s : State) (t dur : Nat), s.dev.up → s.dev.rcd.pfail = false →
     Completes (.logFlush t dur) s fun u =>
       u.rest = { s.dev.rest with now := max s.dev.now t, rcd := quietRcd u.rcd } ∧
       ItemsBut [P.LOG_FIRST, P.LOG_USED] [(P.LOG_STATUS, 0), (P.LOG_LW_LOST, 0), (P.LOG_LW_USED, 0), (P.LOG_SAFETY_LOST, 0), (P.LOG_OP_FILTERED, 0),
         (P.LOG_OP_DROPS, 0), (P.LOG_FLUSHES, 0), (P.LOG_FLUSH_MAX, 0)] u s.dev) ∧
  (∀ (s : State) (t r block cause : Nat) (lost : List Nat), s.dev.up → r < 2 → 1 ≤ cause → cause ≤ 4 → s.dev.rd P.LOG_SPARES r ≠ 0 →
     Completes (.logBlockFail t r block cause lost) s fun u =>
       u.rd P.LOG_RETIRED r = bumped P.LOG_RETIRED (s.dev.rd P.LOG_RETIRED r) ∧ u.rd P.LOG_SPARES r = s.dev.rd P.LOG_SPARES r - 1 ∧
       u.rest = { s.dev.rest with now := max s.dev.now t, rcd := quietRcd u.rcd } ∧ ItemsBut [] [(P.LOG_RETIRED, r), (P.LOG_SPARES, r), (P.LOG_FIRST, r), (P.LOG_USED, r)] u s.dev) ∧
  (∀ (s : State) (t r : Nat), s.dev.up → r < 2 → (nth s.dev.rcd.regions r).lastWords → (nth s.dev.rcd.regions r).retryAt ≤ max s.dev.now t →
     Completes (.logRegionRetry t r true) s fun u =>
       u.rcd = { s.dev.rcd with regions := upd s.dev.rcd.regions r (fun g => { g with lastWords := false, failRun := 0 }), lwWrote := true } ∧
       u.rest = { s.dev.rest with now := max s.dev.now t, rcd := quietRcd u.rcd } ∧ ItemsBut [] [] u s.dev)

/-- R389 to R395: a committed packet hands its consumer the input that waited longest and is counted; an aborted one is rewound and its input lost; a
stalled producer's open packet is rewound and its words are discarded until the next SOP; a packet that stood unread wakes its reader once; a Chute with
three parity failures within 1 s is in FAULT. -/
def Obligations.ChutesCarryPackets : Prop :=
  (∀ (s : State) (t i : Nat) (p : Packet), s.dev.up → i < 16 → s.dev.chutes.length = 16 → s.dev.rd P.CHU_STATE i = 0 → 1 ≤ p.words → p.words ≤ 32 →
     p.orphans = 0 → p.cutOff = 0 → p.abort = false → p.parityIn → p.parityOut → p.descOk →
     Completes (.chutePacketCommit t i p) s fun u =>
       (nth u.chutes i).waiting = (nth s.dev.chutes i).waiting.drop 1 ∧ u.rd P.CHU_PACKETS i = bumped P.CHU_PACKETS (s.dev.rd P.CHU_PACKETS i) ∧
       u.rest = { s.dev.rest with now := max s.dev.now t, chutes := u.chutes, dsp := u.dsp, cyc := quietCyc u.cyc, tlg := quietTlg u.tlg } ∧
       ItemsBut [] [(P.CHU_PACKETS, i), (P.CHU_FILL_MAX, i), (P.CHU_PARITY, i), (P.CHU_DESC_BAD, i), (P.DSP_DISPATCHES, 0), (P.DSP_READY_MAX, 0), (P.DSP_PREEMPTS, 0), (P.CYC_EARLY_DROP, 0), (P.CYC_ADMITTED, 0), (P.CYC_LATE, 0), (P.CYC_LATE_SPILL, 0)] u s.dev) ∧
  (∀ (s : State) (t i : Nat) (p : Packet), s.dev.up → i < 16 → s.dev.chutes.length = 16 → s.dev.rd P.CHU_STATE i = 0 → 1 ≤ p.words → p.words ≤ 32 →
     p.orphans = 0 → p.cutOff = 0 → p.abort →
     Completes (.chutePacketCommit t i p) s fun u =>
       u.rd P.CHU_REWIND i = bumped P.CHU_REWIND (s.dev.rd P.CHU_REWIND i) ∧ (nth u.chutes i).waiting = (nth s.dev.chutes i).waiting.drop 1 ∧
       u.rest = { s.dev.rest with now := max s.dev.now t, chutes := u.chutes } ∧ ItemsBut [] [(P.CHU_REWIND, i)] u s.dev) ∧
  (∀ (s : State) (t i last : Nat), s.dev.up → i < 16 → s.dev.chutes.length = 16 → s.dev.rd P.CHU_STATE i = 0 → (nth s.dev.chutes i).discarding = false →
     last + s.dev.rd P.CHU_STALL i * us ≤ max s.dev.now t →
     Completes (.chuteStall t i last) s fun u =>
       u.rd P.CHU_STALL_REWIND i = bumped P.CHU_STALL_REWIND (s.dev.rd P.CHU_STALL_REWIND i) ∧ (nth u.chutes i).discarding = true ∧
       (nth u.chutes i).waiting = (nth s.dev.chutes i).waiting.drop 1 ∧
       u.rest = { s.dev.rest with now := max s.dev.now t, chutes := u.chutes } ∧ ItemsBut [] [(P.CHU_STALL_REWIND, i)] u s.dev) ∧
  (∀ (s : State) (t i since : Nat), s.dev.up → i < 16 → s.dev.chutes.length = 16 → (nth s.dev.chutes i).stood = some since →
     since + s.dev.rd P.CHU_READ_IDLE i * us ≤ max s.dev.now t →
     Completes (.chuteReadIdleWake t i) s fun u =>
       u.rd P.CHU_IDLE_WAKE i = bumped P.CHU_IDLE_WAKE (s.dev.rd P.CHU_IDLE_WAKE i) ∧ (nth u.chutes i).stood = none ∧
       u.rest = { s.dev.rest with now := max s.dev.now t, chutes := u.chutes, dsp := u.dsp, tlg := quietTlg u.tlg } ∧
       ItemsBut [] [(P.CHU_IDLE_WAKE, i), (P.DSP_DISPATCHES, 0), (P.DSP_READY_MAX, 0), (P.DSP_PREEMPTS, 0)] u s.dev) ∧
  (∀ (s : State) (t i : Nat), s.dev.up → i < 16 → s.dev.rd P.CHU_STATE i = 0 →
     3 ≤ ((nth s.dev.chutes i).parity.filter fun p => max s.dev.now t < p + sec).length →
     Completes (.chuteFault t i) s fun u =>
       u.rd P.CHU_STATE i = 1 ∧ u.chutes = upd s.dev.chutes i (fun c => { c with waiting := [], stood := none }) ∧
       u.rest = { s.dev.rest with now := max s.dev.now t, chutes := u.chutes, peer := u.peer } ∧ ItemsBut [] [(P.CHU_STATE, i), (P.DPX_GIVEUP_CAUSE, 0)] u s.dev)

/-- R399 to R403, R405: a task that becomes READY while a core is idle runs on the lowest idle core at its base level; an idle core takes what procedure
pick gives; a hold that has passed sends its task to the lowest idle core; a READY task above level 4 that has waited DSP.AGE moves one level up. -/
def Obligations.DispatcherSchedules : Prop :=
  (∀ (s : State) (t n base c : Nat) (cs : List Nat), s.dev.up → s.dev.dsp.failed = false → n < 256 → base < 32 → s.dev.task n = none →
     s.dev.idleCores = c :: cs → c < s.dev.dsp.cores.length →
     Completes (.taskReady t n base) s fun u =>
       (∃ y, u.task n = some y ∧ y.state = 2 ∧ y.base = base ∧ y.level = base ∧ y.core = some c) ∧
       (nth u.dsp.cores c).state = 1 ∧ (nth u.dsp.cores c).task = n ∧
       u.rest = { s.dev.rest with now := max s.dev.now t, dsp := u.dsp, tlg := quietTlg u.tlg } ∧ ItemsBut [] [(P.DSP_DISPATCHES, 0), (P.DSP_READY_MAX, 0)] u s.dev) ∧
  (∀ (s : State) (t c : Nat) (x : DTask), s.dev.up → s.dev.dsp.failed = false → c < 12 → s.dev.dsp.cores.length = 12 → (nth s.dev.dsp.cores c).state = 0 →
     (s.dev.at t).pick c = some x →
     Completes (.corePick t c) s fun u =>
       (∃ m, u.task x.n = some { x with state := 2, level := x.base, core := some c, held := false, ran := max s.dev.now t, maxReady := m }) ∧
       (nth u.dsp.cores c).state = 1 ∧ (nth u.dsp.cores c).task = x.n ∧
       u.rest = { s.dev.rest with now := max s.dev.now t, dsp := u.dsp, tlg := quietTlg u.tlg } ∧ ItemsBut [] [(P.DSP_DISPATCHES, 0), (P.DSP_READY_MAX, 0)] u s.dev) ∧
  (∀ (s : State) (t n c : Nat) (cs : List Nat) (x : DTask), s.dev.up → s.dev.dsp.failed = false → s.dev.task n = some x → x.n = n → x.state = 1 → x.held →
     x.hold ≤ max s.dev.now t → s.dev.idleCores = c :: cs → c < s.dev.dsp.cores.length →
     Completes (.holdExpire t n) s fun u =>
       (∃ m, u.task n = some { x with state := 2, level := x.base, core := some c, held := false, ran := max s.dev.now t, maxReady := m }) ∧
       (nth u.dsp.cores c).state = 1 ∧ (nth u.dsp.cores c).task = n ∧
       u.rest = { s.dev.rest with now := max s.dev.now t, dsp := u.dsp, tlg := quietTlg u.tlg } ∧ ItemsBut [] [(P.DSP_DISPATCHES, 0), (P.DSP_READY_MAX, 0)] u s.dev) ∧
  (∀ (s : State) (t n : Nat) (x : DTask), s.dev.up → s.dev.dsp.failed = false → s.dev.task n = some x → x.n = n → x.state = 1 → 4 < x.level →
     x.age + s.dev.rd P.DSP_AGE * us ≤ max s.dev.now t →
     Completes (.taskAge t n) s fun u =>
       u.task n = some { x with level := x.level - 1, age := max s.dev.now t } ∧ u.rd P.DSP_AGED = bumped P.DSP_AGED (s.dev.rd P.DSP_AGED) ∧
       u.rest = { s.dev.rest with now := max s.dev.now t, dsp := u.dsp, tlg := quietTlg u.tlg } ∧ ItemsBut [] [(P.DSP_AGED, 0)] u s.dev)

/-- R404, R406, R408: a running task that waits leaves its core idle; an event no task waits on is held; a wait whose timeout has passed is counted; a
Tile's fault takes both its cores out; a fault of the dispatcher ends control; the trace sends a SYNC record after each whole second. -/
def Obligations.DispatcherWaitsAndFaults : Prop :=
  (∀ (s : State) (t n kind obj timeout c : Nat) (x : DTask), s.dev.up → s.dev.dsp.failed = false → s.dev.task n = some x → x.n = n → x.state = 2 →
     x.core = some c → kind = 2 → obj < 16 → timeout < 2 ^ 32 → c < s.dev.dsp.cores.length →
     Completes (.taskWait t n kind obj timeout) s fun u =>
       (∃ m, u.task n = some { x with state := 3, kind := kind, obj := obj, maxRun := m, ends := if timeout = 0 then none else some (max s.dev.now t + timeout * us) }) ∧
       (nth u.dsp.cores c).state = 0 ∧ u.rest = { s.dev.rest with now := max s.dev.now t, dsp := u.dsp, tlg := quietTlg u.tlg } ∧ ItemsBut [] [] u s.dev) ∧
  (∀ (s : State) (t ev : Nat), s.dev.up → s.dev.dsp.failed = false → ev < 65536 →
     (∀ x ∈ s.dev.dsp.tasks, ¬ (x.state = 3 ∧ x.kind = 1 ∧ x.obj = ev)) → ev ∉ s.dev.dsp.events →
     Completes (.eventPost t ev) s fun u =>
       u.dsp = { s.dev.dsp with events := ev :: s.dev.dsp.events } ∧ u.rest = { s.dev.rest with now := max s.dev.now t, dsp := u.dsp } ∧ ItemsBut [] [] u s.dev) ∧
  (∀ (s : State) (t n e : Nat) (x : DTask), s.dev.up → s.dev.dsp.failed = false → s.dev.task n = some x → x.state = 3 → x.ends = some e → e ≤ max s.dev.now t →
     Completes (.taskWaitTimeout t n) s fun u =>
       u.rd P.DSP_TIMEOUTS = bumped P.DSP_TIMEOUTS (s.dev.rd P.DSP_TIMEOUTS) ∧
       u.rest = { s.dev.rest with now := max s.dev.now t, dsp := u.dsp, tlg := quietTlg u.tlg } ∧ ItemsBut [] [(P.DSP_TIMEOUTS, 0), (P.DSP_PREEMPTS, 0), (P.DSP_DISPATCHES, 0), (P.DSP_READY_MAX, 0)] u s.dev) ∧
  (∀ (s : State) (t tile cause : Nat), s.dev.up → s.dev.dsp.failed = false → tile < 6 → s.dev.dsp.cores.length = 12 →
     (nth s.dev.dsp.cores (2 * tile)).state = 0 → (nth s.dev.dsp.cores (2 * tile + 1)).state = 0 →
     Completes (.coreFault t tile cause) s fun u =>
       u.dsp.cores = (s.dev.dsp.cores.set (2 * tile) { state := 2 }).set (2 * tile + 1) { state := 2 } ∧ u.dsp.tasks = s.dev.dsp.tasks ∧
       u.rest = { s.dev.rest with now := max s.dev.now t, dsp := u.dsp } ∧ ItemsBut [] [] u s.dev) ∧
  (∀ (s : State) (t : Nat), s.dev.up → s.dev.dsp.failed = false →
     Completes (.dispatcherFault t) s fun u =>
       u.dsp.failed = true ∧ (s.dev.active → s.dev.peer.yielding = false → u.rd P.DPX_GIVEUP_CAUSE = 1 ∧ u.peer.yielding = true) ∧
       u.rest = { s.dev.rest with now := max s.dev.now t, dsp := { s.dev.dsp with failed := true }, peer := u.peer } ∧ ItemsBut [] [(P.DPX_GIVEUP_CAUSE, 0)] u s.dev) ∧
  (∀ (s : State) (t : Nat), s.dev.up → s.dev.rd P.TLG_SOURCES ≠ 0 → s.dev.tlg.syncSec ≠ some (max s.dev.now t / sec) →
     Completes (.traceSync t) s fun u =>
       u.tlg.syncSec = some (max s.dev.now t / sec) ∧ u.tlg.seq = (s.dev.tlg.seq + 1) % 65536 ∧ u.rest = { s.dev.rest with now := max s.dev.now t } ∧ ItemsBut [] [] u s.dev)

/-- R71, R73: a bias reading is shown and judged, a short switches the bias off and counts, and a SHORT antenna is tried again; a chain settles, a faulty
one drops its channels and is enabled again 10 s later; the gain follows the share of large samples. -/
def Obligations.AntennasAndChains : Prop :=
  (∀ (s : State) (t i ma peak : Nat), s.dev.up → i < 2 → s.dev.cf P.GNS_ANT_EN i = 1 → s.dev.cf P.GNS_ANT_BIAS i = 1 → s.dev.rd P.GNS_ANT_STATE i ≠ 3 →
     ma ≤ 1200 → peak ≤ 1500 →
     Completes (.antBiasSample t i ma peak) s fun u =>
       u.rd P.GNS_ANT_MA i = ma ∧ u.rd P.GNS_ANT_STATE i = biasState ma ∧ u.rest = { s.dev.rest with now := max s.dev.now t, gns := u.gns } ∧ ItemsBut [] [(P.GNS_ANT_MA, i), (P.GNS_ANT_STATE, i)] u s.dev) ∧
  (∀ (s : State) (t i ma peak : Nat), s.dev.up → i < 2 → s.dev.gns.biasOff.length = 2 → s.dev.cf P.GNS_ANT_EN i = 1 → s.dev.cf P.GNS_ANT_BIAS i = 1 →
     s.dev.rd P.GNS_ANT_STATE i ≠ 3 → 1200 < ma → peak ≤ 1500 →
     Completes (.antBiasSample t i ma peak) s fun u =>
       u.rd P.GNS_ANT_MA i = ma ∧ u.rd P.GNS_ANT_STATE i = 3 ∧ u.rd P.GNS_ANT_SHORTS i = bumped P.GNS_ANT_SHORTS (s.dev.rd P.GNS_ANT_SHORTS i) ∧
       nth u.gns.biasOff i = max s.dev.now t ∧ u.rest = { s.dev.rest with now := max s.dev.now t, gns := u.gns } ∧ ItemsBut [] [(P.GNS_ANT_MA, i), (P.GNS_ANT_STATE, i), (P.GNS_ANT_SHORTS, i)] u s.dev) ∧
  (∀ (s : State) (t i ma : Nat), s.dev.up → i < 2 → s.dev.cf P.GNS_ANT_EN i = 1 → s.dev.cf P.GNS_ANT_BIAS i = 1 → s.dev.rd P.GNS_ANT_STATE i = 3 →
     nth s.dev.gns.biasOff i + sec ≤ max s.dev.now t → ma ≤ 1200 →
     Completes (.antBiasRetry t i ma) s fun u =>
       u.rd P.GNS_ANT_MA i = ma ∧ u.rd P.GNS_ANT_STATE i = biasState ma ∧ u.rest = { s.dev.rest with now := max s.dev.now t, gns := u.gns } ∧ ItemsBut [] [(P.GNS_ANT_MA, i), (P.GNS_ANT_STATE, i)] u s.dev) ∧
  (∀ (s : State) (t c : Nat), s.dev.up → c < 6 → s.dev.rd P.GNS_CHAIN_STATE c = 1 → nth s.dev.gns.chainSince c + 10 * ms ≤ max s.dev.now t →
     Completes (.chainSettleEnd t c) s fun u =>
       u.rd P.GNS_CHAIN_STATE c = 2 ∧ u.gns = { s.dev.gns with chainSince := s.dev.gns.chainSince.set c (max s.dev.now t) } ∧ u.rest = { s.dev.rest with now := max s.dev.now t, gns := u.gns } ∧
       ItemsBut [] [(P.GNS_CHAIN_STATE, c)] u s.dev) ∧
  (∀ (s : State) (t c cause : Nat), s.dev.up → c < 6 → s.dev.rd P.GNS_CHAIN_STATE c = 1 ∨ s.dev.rd P.GNS_CHAIN_STATE c = 2 →
     Completes (.chainFault t c cause) s fun u =>
       u.rd P.GNS_CHAIN_STATE c = 3 ∧ (∀ x ∈ u.gns.chans, x ∈ s.dev.gns.chans ∧ chainOf x.ant x.sig ≠ c) ∧ u.rest = { s.dev.rest with now := max s.dev.now t, gns := u.gns } ∧
       ItemsBut [P.TRK_CHAN_STATE, P.TRK_CHAN_SIG, P.TRK_CHAN_CN0, P.TRK_TILE_LOAD, P.TRK_TILE_CHANS] [(P.GNS_CHAIN_STATE, c)] u s.dev) ∧
  (∀ (s : State) (t c : Nat), s.dev.up → c < 6 → s.dev.rd P.GNS_CHAIN_STATE c = 3 → nth s.dev.gns.chainSince c + 10 * sec ≤ max s.dev.now t →
     Completes (.chainReenable t c) s fun u =>
       u.rd P.GNS_CHAIN_STATE c = 1 ∧ u.gns = { s.dev.gns with chainSince := s.dev.gns.chainSince.set c (max s.dev.now t) } ∧ u.rest = { s.dev.rest with now := max s.dev.now t, gns := u.gns } ∧
       ItemsBut [] [(P.GNS_CHAIN_STATE, c)] u s.dev) ∧
  (∀ (s : State) (t c big clip : Nat), s.dev.up → c < 6 → s.dev.rd P.GNS_CHAIN_STATE c = 2 →
     Completes (.agcUpdate t c big clip) s fun u =>
       u.rd P.GNS_AGC_DB c = (if 100000 < 3 * big then s.dev.rd P.GNS_AGC_DB c - 1 else if 3 * big < 100000 then min 127 (s.dev.rd P.GNS_AGC_DB c + 1)
         else s.dev.rd P.GNS_AGC_DB c) ∧
       u.rd P.GNS_ADC_CLIP c = (if 1000 < clip then bumped P.GNS_ADC_CLIP (s.dev.rd P.GNS_ADC_CLIP c) else s.dev.rd P.GNS_ADC_CLIP c) ∧ u.rest = { s.dev.rest with now := max s.dev.now t, gns := u.gns } ∧
       ItemsBut [] [(P.GNS_AGC_DB, c), (P.GNS_ADC_CLIP, c)] u s.dev)

/-- Table 3.4, R80, R81, R85: a dump boundary advances the channel's phases and shows its C/N0; a channel that does not pull in, or that coasts too long, is
FREE; a faulty tile stays out. -/
def Obligations.TrackingChannels : Prop :=
  (∀ (s : State) (t c n : Nat) (sums : List Int) (cn0 : Nat) (fll : Bool) (early late : Option (Int × Nat)) (sigs : Nat) (x : Chan), s.dev.up →
     s.dev.chan? c = some x → x.c = c → x.state ≠ 1 →
     Completes (.dumpBoundary t c n sums cn0 fll early late sigs false) s fun u =>
       (∃ y, u.chan? c = some y ∧ y.car = stepPhase x.car x.carRate n ∧ y.code = stepPhase x.code x.codeRate n ∧ y.dumps = (x.dumps + 1) % 2 ^ 32 ∧
         y.sig = x.sig ∧ y.sat = x.sat ∧ y.ant = x.ant ∧ y.pend = late ∧ y.lateWrite = late.isSome ∧ u.rd P.TRK_CHAN_STATE c = y.state) ∧
       u.rd P.TRK_CHAN_CN0 c = cn0 ∧ u.rest = { s.dev.rest with now := max s.dev.now t, gns := u.gns } ∧
       ItemsBut [] [(P.TRK_CHAN_STATE, c), (P.TRK_CHAN_SIG, c), (P.TRK_CHAN_CN0, c), (P.TRK_DUMP_OVF, 0), (P.TRK_LOOP_LATE, 0)] u s.dev) ∧
  (∀ (s : State) (t c : Nat) (x : Chan), s.dev.up → s.dev.chan? c = some x → x.state = 1 → x.since + 2 * sec ≤ max s.dev.now t →
     Completes (.pullinTimeout t c) s fun u =>
       u.chan? c = none ∧ u.rd P.TRK_CHAN_STATE c = 0 ∧ u.rd P.TRK_CHAN_SIG c = 0xFFFF ∧ u.rd P.TRK_CHAN_CN0 c = 0 ∧
       u.gns = { s.dev.gns with chans := s.dev.gns.chans.filter (·.c != c) } ∧ u.rest = { s.dev.rest with now := max s.dev.now t, gns := u.gns } ∧
       ItemsBut [] [(P.TRK_CHAN_STATE, c), (P.TRK_CHAN_SIG, c), (P.TRK_CHAN_CN0, c), (P.TRK_TILE_LOAD, (c / 48)), (P.TRK_TILE_CHANS, (c / 48))] u s.dev) ∧
  (∀ (s : State) (t c : Nat) (x : Chan), s.dev.up → s.dev.chan? c = some x → x.state = 3 → x.since + s.dev.cf P.TRK_COAST_MS * ms ≤ max s.dev.now t →
     Completes (.coastExpiry t c) s fun u =>
       u.chan? c = none ∧ u.rd P.TRK_CHAN_STATE c = 0 ∧ u.rd P.TRK_LOSSES x.sig = bumped P.TRK_LOSSES (s.dev.rd P.TRK_LOSSES x.sig) ∧
       u.gns = { s.dev.gns with chans := s.dev.gns.chans.filter (·.c != c) } ∧ u.rest = { s.dev.rest with now := max s.dev.now t, gns := u.gns } ∧
       ItemsBut [] [(P.TRK_CHAN_STATE, c), (P.TRK_CHAN_SIG, c), (P.TRK_CHAN_CN0, c), (P.TRK_TILE_LOAD, (c / 48)), (P.TRK_TILE_CHANS, (c / 48)), (P.TRK_LOSSES, x.sig)] u s.dev) ∧
  (∀ (s : State) (t tile cause : Nat), s.dev.up → tile < 28 → tile ∉ s.dev.gns.tilesOut → (∀ x ∈ s.dev.gns.chans, x.c / 48 ≠ tile) →
     Completes (.tileFault t tile cause) s fun u =>
       u.gns = { s.dev.gns with tilesOut := tile :: s.dev.gns.tilesOut } ∧ u.rest = { s.dev.rest with now := max s.dev.now t, gns := u.gns } ∧ ItemsBut [] [] u s.dev) ∧
  (∀ (s : State) (t tile cause : Nat), s.dev.up → tile < 28 → tile ∉ s.dev.gns.tilesOut →
     Completes (.tileFault t tile cause) s fun u =>
       u.rest = { s.dev.rest with now := max s.dev.now t, gns := u.gns } ∧ ItemsBut [P.TRK_CHAN_STATE, P.TRK_CHAN_SIG, P.TRK_CHAN_CN0, P.TRK_TILE_LOAD, P.TRK_TILE_CHANS] [(P.TRK_BUDGET_REFUSED, 0)] u s.dev)

/-- R90, R93, R95: a search that ends leaves the plan and counts; a capture that has recorded its length is HELD with the samples of the chains selected; an
export that ends leaves the capture HELD. -/
def Obligations.AcquisitionAndSnapshot : Prop :=
  (∀ (s : State) (t sig ant sat ratio : Nat), s.dev.up → sig < 24 → (nth signals sig).direct → s.dev.cf P.GNS_RUN = 1 → ratio < s.dev.cf P.GNS_ACQ_THRESH →
     Completes (.acqSearchDone t sig ant sat ratio) s fun u =>
       u.gns = { s.dev.gns with plan := s.dev.gns.plan.filter fun x => x != (sig, ant, sat) } ∧ u.rd P.GNS_ACQ_QUEUE = min 64 u.gns.plan.length ∧
       u.rd P.GNS_ACQ_DONE = bumped P.GNS_ACQ_DONE (s.dev.rd P.GNS_ACQ_DONE) ∧ u.rest = { s.dev.rest with now := max s.dev.now t, gns := u.gns } ∧ ItemsBut [] [(P.GNS_ACQ_QUEUE, 0), (P.GNS_ACQ_DONE, 0)] u s.dev) ∧
  (∀ (s : State) (t sig ant sat ratio : Nat), s.dev.up → sig < 24 → (nth signals sig).direct → s.dev.cf P.GNS_RUN = 1 → s.dev.cf P.GNS_ACQ_THRESH ≤ ratio →
     Completes (.acqSearchDone t sig ant sat ratio) s fun u =>
       u.rd P.GNS_ACQ_DONE = bumped P.GNS_ACQ_DONE (s.dev.rd P.GNS_ACQ_DONE) ∧ u.rest = { s.dev.rest with now := max s.dev.now t, gns := u.gns } ∧
       ItemsBut [P.TRK_CHAN_STATE, P.TRK_CHAN_SIG, P.TRK_CHAN_CN0, P.TRK_TILE_LOAD, P.TRK_TILE_CHANS]
         [(P.GNS_ACQ_QUEUE, 0), (P.GNS_ACQ_DONE, 0), (P.TRK_BUDGET_REFUSED, 0)] u s.dev) ∧
  (∀ (s : State) (t : Nat) (data : List (Nat × Bytes)), s.dev.up → s.dev.rd P.GNS_SNAP_STATE = 2 →
     s.dev.gns.snap.trig + (s.dev.cf P.GNS_SNAP_LEN - s.dev.cf P.GNS_SNAP_PRE) * ms ≤ max s.dev.now t →
     Completes (.snapCaptureEnd t data) s fun u =>
       u.rd P.GNS_SNAP_STATE = 3 ∧
       u.gns = { s.dev.gns with snap := { s.dev.gns.snap with data := data.filter fun x => bitOf (s.dev.cf P.GNS_SNAP_CHAINS) x.1 } } ∧ u.rest = { s.dev.rest with now := max s.dev.now t, gns := u.gns } ∧
       ItemsBut [] [(P.GNS_SNAP_STATE, 0)] u s.dev) ∧
  (∀ (s : State) (t : Nat), s.dev.up → s.dev.rd P.GNS_SNAP_STATE = 4 →
     Completes (.snapExportEnd t) s fun u => u.rd P.GNS_SNAP_STATE = 3 ∧ u.rest = { s.dev.rest with now := max s.dev.now t } ∧ ItemsBut [] [(P.GNS_SNAP_STATE, 0)] u s.dev)

/-- R87, R104, R113 to R117: the indicator of a running chain follows procedure jam_index; the notches of a chain follow its spectrum; the self-test goes on
to the next enabled chain or shows its result; an epoch on hub time gives each enabled antenna's input to the station. -/
def Obligations.InterferenceAndSelfTest : Prop :=
  (∀ (s : State) (t c pk : Nat), s.dev.up → c < 6 → s.dev.jamActive → s.dev.cf P.GNS_ANT_EN (c / 3) = 1 → s.dev.cf P.GNS_SNAP_JAM = 0 →
     Completes (.jamIndexUpdate t c pk) s fun u =>
       u.rd P.STA_AGC_REF c = s.dev.agcRef c ∧ u.rd P.STA_JAM c = jamIndex (s.dev.rd P.GNS_AGC_DB c) (s.dev.agcRef c) pk ∧
       u.gns = { s.dev.gns with jamMax := upd s.dev.gns.jamMax c (max (jamIndex (s.dev.rd P.GNS_AGC_DB c) (s.dev.agcRef c) pk)) } ∧ u.rest = { s.dev.rest with now := max s.dev.now t, gns := u.gns } ∧
       ItemsBut [] [(P.STA_AGC_REF, c), (P.STA_JAM, c)] u s.dev) ∧
  (∀ (s : State) (t c : Nat) (db : List Nat), s.dev.up → c < 6 → s.dev.jamActive →
     Completes (.notchUpdate t c db) s fun u =>
       u.gns.notches = s.dev.gns.notches.set c ((s.dev.at t).notchStep (nth s.dev.gns.notches c) db) ∧
       (((s.dev.at t).notchStep (nth s.dev.gns.notches c) db).map (·.bin) ≠ (nth s.dev.gns.notches c).map (·.bin) →
         u.rd P.STA_NOTCH_MASK c = 2 ^ ((s.dev.at t).notchStep (nth s.dev.gns.notches c) db).length - 1 ∧ u.gns.changed = s.dev.gns.changed.set c true) ∧ u.rest = { s.dev.rest with now := max s.dev.now t, gns := u.gns } ∧
       ItemsBut [] [(P.STA_NOTCH_MASK, c)] u s.dev) ∧
  (∀ (s : State) (t c j at_ : Nat) (ok : Bool), s.dev.up → s.dev.gns.testAt = some (c, at_) → at_ + 200 * ms ≤ max s.dev.now t → s.dev.testChain (c + 1) = none →
     Completes (.selftestTone t c ok j) s fun u =>
       u.rd P.STA_SELFTEST_RESULT = setBit s.dev.gns.testFail c (!ok) ∧ u.gns.testDone = true ∧ u.gns.testAt = none ∧
       u.gns.testJ = s.dev.gns.testJ.set c j ∧ u.rest = { s.dev.rest with now := max s.dev.now t, gns := u.gns } ∧ ItemsBut [] [(P.STA_SELFTEST_RESULT, 0)] u s.dev) ∧
  (∀ (s : State) (t c j at_ m : Nat) (ok : Bool), s.dev.up → s.dev.gns.testAt = some (c, at_) → at_ + 200 * ms ≤ max s.dev.now t → s.dev.testChain (c + 1) = some m →
     Completes (.selftestTone t c ok j) s fun u =>
       u.gns = { s.dev.gns with testFail := setBit s.dev.gns.testFail c (!ok), testJ := s.dev.gns.testJ.set c j, toneSeen := s.dev.gns.toneSeen.set c true, testAt := some (m, max s.dev.now t) } ∧ u.rest = { s.dev.rest with now := max s.dev.now t, gns := u.gns } ∧ ItemsBut [] [] u s.dev) ∧
  (∀ (s : State) (t : Nat) (l : List EpochChan), s.dev.up → s.dev.cf P.GNS_RUN = 1 → t % (1000 / s.dev.cf P.GNS_EPOCH_RATE * ms) = 0 → s.dev.chutes.length = 16 →
     s.dev.cf P.GNS_ANT_EN 0 = 1 → s.dev.cf P.GNS_ANT_EN 1 ≠ 1 →
     Completes (.epochLatch t l) s fun u =>
       (∃ x, (nth u.chutes 11).waiting = (nth s.dev.chutes 11).waiting ++ [x] ∧ x.cls = 1 ∧ x.idx = 0 ∧ x.stamp = t) ∧
       u.gns = { s.dev.gns with jamMax := [0, 0, 0, 0, 0, 0], changed := List.replicate 6 false, toneSeen := List.replicate 6 false } ∧
       u.rest = { s.dev.rest with now := max s.dev.now t, gns := u.gns, chutes := u.chutes, cyc := quietCyc u.cyc } ∧ ItemsBut [] [] u s.dev)

/-- R209, R210, R211, R219, R233, R510: a lane that passes its checks writes its vote word with its sequence; one that fails is out; the voter's output
follows Table 8.2; a failed compare test makes the voter FAILED; a lane releases at its record what a release names, and its permit clears where it holds no
table in time. -/
def Obligations.LanesAndVoter : Prop :=
  (∀ (s : State) (t i : Nat) (l : Lane), s.dev.up → i < 3 → nth s.dev.stp.lanes i = l → l.failed = false →
     Completes (.laneTick t i true) s fun u =>
       u.stp = { s.dev.stp with lanes := s.dev.stp.lanes.set i { l with newEv := [], seq := (if l.newEv.isEmpty then l.seq else (l.seq + 1) % 2 ^ 32), word := some (max s.dev.now t, { permit := (s.dev.at t).permitFails l == 0, scope := l.latched, seq := if l.newEv.isEmpty then l.seq else (l.seq + 1) % 2 ^ 32 }) } } ∧
       u.rest = { s.dev.rest with now := max s.dev.now t, stp := u.stp } ∧ ItemsBut [] [] u s.dev) ∧
  (∀ (s : State) (t i : Nat), s.dev.up → i < 3 → (nth s.dev.stp.lanes i).failed = false →
     Completes (.laneTick t i false) s fun u =>
       u.stp = { s.dev.stp with lanes := s.dev.stp.lanes.set i { nth s.dev.stp.lanes i with failed := true } } ∧ u.rest = { s.dev.rest with now := max s.dev.now t, stp := u.stp } ∧ ItemsBut [] [] u s.dev) ∧
  (∀ (s : State) (t : Nat), s.dev.up → s.dev.stp.outOn = false →
     Completes (.voterTick t) s fun u =>
       u.stp.out = (s.dev.at t).compareLanes.voterOutput ∧ u.rd P.STP_STOP_SEQ = u.stp.out.seq ∧ u.rd P.STP_LATCH_GROUPS = u.stp.out.scope.groups ∧
       u.rd P.STP_LATCH_MASK = u.stp.out.scope.mask ∧ u.rest = { s.dev.rest with now := max s.dev.now t, stp := u.stp, peer := u.peer, cyc := quietCyc u.cyc } ∧
       ItemsBut [P.STP_LANE_STATE] [(P.STP_MODE, 0), (P.STP_ISOLATIONS, 0), (P.STP_STATE, 0), (P.STP_LATCH_GROUPS, 0), (P.STP_LATCH_MASK, 0), (P.STP_STOP_SEQ, 0),
         (P.STP_OUT_STATE, 0), (P.DPX_GIVEUP_CAUSE, 0), (P.CYC_EARLY_DROP, 0), (P.CYC_ADMITTED, 0), (P.CYC_LATE, 0), (P.CYC_LATE_SPILL, 0)] u s.dev) ∧
  (∀ (s : State) (t : Nat), s.dev.up → s.dev.rd P.STP_MODE ≠ 2 →
     Completes (.voterTest t false) s fun u =>
       u.rd P.STP_MODE = 2 ∧ u.rest = { s.dev.rest with now := max s.dev.now t, stp := u.stp, peer := u.peer, cyc := quietCyc u.cyc } ∧ ItemsBut [] [(P.STP_MODE, 0), (P.DPX_GIVEUP_CAUSE, 0), (P.CYC_EARLY_DROP, 0), (P.CYC_ADMITTED, 0), (P.CYC_LATE, 0), (P.CYC_LATE_SPILL, 0)] u s.dev) ∧
  (∀ (s : State) (t : Nat), s.dev.up → Completes (.voterTest t true) s fun u => u.rest = { s.dev.rest with now := max s.dev.now t } ∧ ItemsBut [] [] u s.dev) ∧
  (∀ (s : State) (t i k : Nat) (rel : Scope) (good : Bool), s.dev.up → i < 3 → (nth s.dev.stp.lanes i).failed = false → s.dev.stp.pendingFence = none →
     s.dev.stp.lastRecord = some (k, rel) → s.dev.commitAt k + 12 * ms ≤ max s.dev.now t → s.dev.liveCheck →
     Completes (.laneRecordApply t i good) s fun u =>
       u.stp = { s.dev.stp with lanes := upd s.dev.stp.lanes i fun l => l.release rel s.dev.stp.unentered } ∧ u.rest = { s.dev.rest with now := max s.dev.now t, stp := u.stp } ∧ ItemsBut [] [] u s.dev) ∧
  (∀ (s : State) (t i k o : Nat), s.dev.up → i < 3 → s.dev.cyc.origin = some o → o ≤ k → s.dev.commitAt k + 40 * ms ≤ max s.dev.now t →
     (nth s.dev.stp.lanes i).fenceCycle = none → (nth s.dev.stp.lanes i).lateFor = none →
     Completes (.fenceDeadline t i k) s fun u =>
       u.stp = { s.dev.stp with lanes := s.dev.stp.lanes.set i { nth s.dev.stp.lanes i with lateFor := some k } } ∧
       u.rd P.STP_FENCE_LATE = bumped P.STP_FENCE_LATE (s.dev.rd P.STP_FENCE_LATE) ∧ u.rest = { s.dev.rest with now := max s.dev.now t, stp := u.stp } ∧ ItemsBut [] [(P.STP_FENCE_LATE, 0)] u s.dev)

/-- R214, R215: an accepted E-stop level is held, shown and entered, and an opening level is a stop of every machine that each lane latches; a test pulse
that both inputs follow counts; one that fails, or channels that differ for too long, is a circuit fault. -/
def Obligations.EstopCircuits : Prop :=
  (∀ (s : State) (t i raw : Nat), s.dev.up → i < 4 → s.dev.cf P.STP_ESTOP_EN (i / 2) = 1 → raw + s.dev.cf P.STP_ESTOP_FILT * 100 * us ≤ max s.dev.now t →
     nth s.dev.stp.level i = false →
     Completes (.estopEdge t i raw true) s fun u =>
       u.stp.level = s.dev.stp.level.set i true ∧ u.stp.lanes = s.dev.stp.lanes ∧ u.rest = { s.dev.rest with now := max s.dev.now t, stp := u.stp, cyc := quietCyc u.cyc } ∧ ItemsBut [] [(P.STP_ESTOP_LEVEL, i), (P.CYC_EARLY_DROP, 0), (P.CYC_ADMITTED, 0), (P.CYC_LATE, 0), (P.CYC_LATE_SPILL, 0)] u s.dev) ∧
  (∀ (s : State) (t i raw : Nat), s.dev.up → i < 4 → s.dev.cf P.STP_ESTOP_EN (i / 2) = 1 → raw + s.dev.cf P.STP_ESTOP_FILT * 100 * us ≤ max s.dev.now t →
     nth s.dev.stp.level i = true →
     Completes (.estopEdge t i raw false) s fun u =>
       u.stp.level = s.dev.stp.level.set i false ∧
       u.stp.lanes = s.dev.stp.lanes.map (fun l => l.latch Scope.allScope 1 { stamp := raw, cls := 6, idx := i }) ∧ u.rest = { s.dev.rest with now := max s.dev.now t, stp := u.stp, cyc := quietCyc u.cyc } ∧
       ItemsBut [] [(P.STP_ESTOP_LEVEL, i), (P.CYC_EARLY_DROP, 0), (P.CYC_ADMITTED, 0), (P.CYC_LATE, 0), (P.CYC_LATE_SPILL, 0)] u s.dev) ∧
  (∀ (s : State) (t i : Nat), s.dev.up → i < 4 → nth s.dev.stp.level i = true → nth s.dev.stp.circuit (i / 2) = false →
     Completes (.estopTestPulse t i true true none) s fun u =>
       u.stp.pulsePass = upd s.dev.stp.pulsePass i (· + 1) ∧ u.stp.circuit = s.dev.stp.circuit ∧ u.rest = { s.dev.rest with now := max s.dev.now t, stp := u.stp } ∧ ItemsBut [] [(P.STP_ESTOP_LEVEL, i)] u s.dev) ∧
  (∀ (s : State) (t i : Nat), s.dev.up → i < 4 → nth s.dev.stp.level i = true → nth s.dev.stp.circuit (i / 2) = false → s.dev.cf P.STP_ESTOP_EN (i / 2) = 1 →
     s.dev.stp.circuit.length = 2 → s.dev.stp.sawClosed.length = 2 →
     Completes (.estopTestPulse t i false true none) s fun u =>
       u.stp.circuit = s.dev.stp.circuit.set (i / 2) true ∧ u.rd P.STP_TP_FAULTS i = bumped P.STP_TP_FAULTS (s.dev.rd P.STP_TP_FAULTS i) ∧ u.rest = { s.dev.rest with now := max s.dev.now t, stp := u.stp, cyc := quietCyc u.cyc } ∧
       ItemsBut [] [(P.STP_ESTOP_LEVEL, i), (P.STP_TP_FAULTS, i), (P.CYC_EARLY_DROP, 0), (P.CYC_ADMITTED, 0), (P.CYC_LATE, 0), (P.CYC_LATE_SPILL, 0)] u s.dev) ∧
  (∀ (s : State) (t c since i : Nat), s.dev.up → nth s.dev.stp.diffSince c = some (since, i) → since + s.dev.cf P.STP_DISC_MS * ms < max s.dev.now t →
     i / 2 = c → s.dev.cf P.STP_ESTOP_EN c = 1 → nth s.dev.stp.circuit c = false →
     Completes (.estopDiscrepancy t c) s fun u =>
       u.stp.circuit = s.dev.stp.circuit.set c true ∧ u.stp.diffSince = s.dev.stp.diffSince.set c none ∧
       u.rd P.STP_TP_FAULTS i = bumped P.STP_TP_FAULTS (s.dev.rd P.STP_TP_FAULTS i) ∧ u.rest = { s.dev.rest with now := max s.dev.now t, stp := u.stp, cyc := quietCyc u.cyc } ∧ ItemsBut [] [(P.STP_TP_FAULTS, i), (P.CYC_EARLY_DROP, 0), (P.CYC_ADMITTED, 0), (P.CYC_LATE, 0), (P.CYC_LATE_SPILL, 0)] u s.dev)

/-- R217, R218, R229, R230, R514: a silent CAN sender or remote stops its scope once; a failed test of a safety output, or feedback that disagrees with it,
is an output fault, which agreement for 1 s ends; the start-up tests are noted once; a slice whose beacon is not heard three times is FAULT. -/
def Obligations.SilenceAndOutputs : Prop :=
  (∀ (s : State) (t i : Nat) (sc : Scope), s.dev.up → s.dev.canScope i = some sc → s.dev.cf P.STP_CAN_HB_MS i ≠ 0 → nth s.dev.stp.canLast i = none →
     s.dev.cf P.STP_CAN_HB_MS i * ms ≤ max s.dev.now t → nth s.dev.stp.canSilent i = false →
     Completes (.canSilence t i) s fun u =>
       u.stp.canSilent = s.dev.stp.canSilent.set i true ∧ u.rest = { s.dev.rest with now := max s.dev.now t, stp := u.stp, cyc := quietCyc u.cyc } ∧ ItemsBut [] [(P.CYC_EARLY_DROP, 0), (P.CYC_ADMITTED, 0), (P.CYC_LATE, 0), (P.CYC_LATE_SPILL, 0)] u s.dev) ∧
  (∀ (s : State) (t i : Nat), s.dev.up → i < 16 → s.dev.cf P.STP_REMOTE_MODE i = 2 → nth s.dev.stp.remoteLast i = none →
     s.dev.cf P.STP_REMOTE_TMO * ms ≤ max s.dev.now t → nth s.dev.stp.remoteSilent i = false →
     Completes (.remoteSilence t i) s fun u =>
       u.stp.remoteSilent = s.dev.stp.remoteSilent.set i true ∧ u.rest = { s.dev.rest with now := max s.dev.now t, stp := u.stp, cyc := quietCyc u.cyc } ∧ ItemsBut [] [(P.CYC_EARLY_DROP, 0), (P.CYC_ADMITTED, 0), (P.CYC_LATE, 0), (P.CYC_LATE_SPILL, 0)] u s.dev) ∧
  (∀ (s : State) (t o : Nat), s.dev.up → o < 2 → s.dev.stp.outOn → s.dev.stp.outFault = false →
     Completes (.safeOutTest t o false) s fun u =>
       u.stp.outFault = true ∧ u.rd P.STP_OUT_FAULTS = bumped P.STP_OUT_FAULTS (s.dev.rd P.STP_OUT_FAULTS) ∧ u.rest = { s.dev.rest with now := max s.dev.now t, stp := u.stp, cyc := quietCyc u.cyc } ∧ ItemsBut [] [(P.STP_OUT_FAULTS, 0), (P.CYC_EARLY_DROP, 0), (P.CYC_ADMITTED, 0), (P.CYC_LATE, 0), (P.CYC_LATE_SPILL, 0)] u s.dev) ∧
  (∀ (s : State) (t o since : Nat) (fb : Bool), s.dev.up → o < 2 → fb ≠ s.dev.stp.outOn → since + 2 * ms < max s.dev.now t → s.dev.stp.outFault = false →
     Completes (.safeFbMismatch t o since fb) s fun u =>
       u.stp.outFault = true ∧ u.rd P.STP_OUT_STATE = setBit (s.dev.rd P.STP_OUT_STATE) (2 + o) fb ∧
       u.rd P.STP_OUT_FAULTS = bumped P.STP_OUT_FAULTS (s.dev.rd P.STP_OUT_FAULTS) ∧ u.rest = { s.dev.rest with now := max s.dev.now t, stp := u.stp, cyc := quietCyc u.cyc } ∧ ItemsBut [] [(P.STP_OUT_STATE, 0), (P.STP_OUT_FAULTS, 0), (P.CYC_EARLY_DROP, 0), (P.CYC_ADMITTED, 0), (P.CYC_LATE, 0), (P.CYC_LATE_SPILL, 0)] u s.dev) ∧
  (∀ (s : State) (t since : Nat), s.dev.up → s.dev.stp.outFault → since + sec ≤ max s.dev.now t →
     Completes (.safeFaultClear t since) s fun u =>
       u.stp.outFault = false ∧ u.rd P.STP_OUT_STATE = s.dev.rd P.STP_OUT_STATE % 4 + (if s.dev.stp.outOn then 12 else 0) ∧ u.rest = { s.dev.rest with now := max s.dev.now t, stp := u.stp, cyc := quietCyc u.cyc } ∧
       ItemsBut [] [(P.STP_OUT_STATE, 0), (P.CYC_EARLY_DROP, 0), (P.CYC_ADMITTED, 0), (P.CYC_LATE, 0), (P.CYC_LATE_SPILL, 0)] u s.dev) ∧
  (∀ (s : State) (t lanes chans slices : Nat), s.dev.up → s.dev.cyc.origin = none → s.dev.stp.testsDone = false →
     Completes (.startupTests t 0 lanes chans slices) s fun u =>
       u.stp = { s.dev.stp with testsDone := true } ∧ u.rest = { s.dev.rest with now := max s.dev.now t, stp := u.stp } ∧ ItemsBut [] [] u s.dev) ∧
  (∀ (s : State) (t i : Nat), s.dev.up → i < 4 → s.dev.rd P.STP_SLICE_STATE i = 1 → nth s.dev.stp.unheard i < 2 →
     Completes (.beaconSelfListen t i none) s fun u =>
       u.stp.unheard = s.dev.stp.unheard.set i (nth s.dev.stp.unheard i + 1) ∧
       u.rd P.STP_BCN_UNHEARD i = bumped P.STP_BCN_UNHEARD (s.dev.rd P.STP_BCN_UNHEARD i) ∧ u.rest = { s.dev.rest with now := max s.dev.now t, stp := u.stp } ∧ ItemsBut [] [(P.STP_BCN_UNHEARD, i)] u s.dev) ∧
  (∀ (s : State) (t i : Nat), s.dev.up → i < 4 → s.dev.rd P.STP_SLICE_STATE i = 1 → 2 ≤ nth s.dev.stp.unheard i →
     Completes (.beaconSelfListen t i none) s fun u =>
       u.rd P.STP_SLICE_STATE i = 2 ∧ u.rd P.STP_BCN_UNHEARD i = bumped P.STP_BCN_UNHEARD (s.dev.rd P.STP_BCN_UNHEARD i) ∧ u.rest = { s.dev.rest with now := max s.dev.now t, stp := u.stp } ∧
       ItemsBut [] [(P.STP_BCN_UNHEARD, i), (P.STP_SLICE_STATE, i)] u s.dev)

/-- R277, R278, R280, R285, R287: a paired unit sends a heartbeat with the next sequence; a heartbeat heard shows the peer's state; five missed intervals
fail the link and 100 heartbeats restore it, a STANDBY becoming SHADOW; a unit that follows keeps the inputs of the other; RESYNC is answered with a
checkpoint, which a SHADOW that waits applies. -/
def Obligations.PeerLink : Prop :=
  (∀ (s : State) (t : Nat), s.dev.up → s.dev.cf P.DPX_MODE = 1 →
     Completes (.heartbeatSend t) s fun u =>
       u.peer = { s.dev.peer with hbSeq := (s.dev.peer.hbSeq + 1) % 2 ^ 32 } ∧ u.rest = { s.dev.rest with now := max s.dev.now t, peer := u.peer } ∧ ItemsBut [] [] u s.dev) ∧
  (∀ (s : State) (t : Nat) (m : Bytes) (offset : Int), s.dev.up → m.length = 44 → crcOk m → s.dev.peer.hbLastSeq = none →
     s.dev.pairFails m true = 0 ∨ s.dev.peer.refused = true → fld m 1 1 ≠ 1 → s.dev.rd P.DPX_LINK = 0 →
     Completes (.heartbeatReceive t m true offset) s fun u =>
       u.rd P.DPX_PEER_STATE = fld m 1 1 ∧ u.rd P.DPX_PEER_BUILD = unle (cut m 20 8) ∧ u.rd P.DPX_LINK = 1 ∧
       u.peer.hbLastSeq = some (fld m 4 4) ∧ u.peer.hbLastAt = some (max s.dev.now t) ∧ u.peer.restored = s.dev.peer.restored + 1 ∧
       u.peer.peerTenure = fld m 8 4 ∧ u.peer.peerOffset = some offset ∧ u.rest = { s.dev.rest with now := max s.dev.now t, peer := u.peer } ∧ ItemsBut [] [(P.DPX_PEER_STATE, 0), (P.DPX_PEER_BUILD, 0), (P.DPX_LINK, 0)] u s.dev) ∧
  (∀ (s : State) (t l : Nat), s.dev.up → s.dev.rd P.DPX_LINK ≠ 0 → s.dev.peer.hbLastAt = some l → l + 5 * ms ≤ max s.dev.now t →
     Completes (.linkFail t) s fun u =>
       u.rd P.DPX_LINK = 0 ∧ u.rd P.DPX_LINK_LOSSES = bumped P.DPX_LINK_LOSSES (s.dev.rd P.DPX_LINK_LOSSES) ∧
       u.peer = { s.dev.peer with restored := 0 } ∧ u.rest = { s.dev.rest with now := max s.dev.now t, peer := u.peer } ∧ ItemsBut [] [(P.DPX_LINK, 0), (P.DPX_LINK_LOSSES, 0), (P.DPX_HB_MISSED, 0)] u s.dev) ∧
  (∀ (s : State) (t : Nat), s.dev.up → s.dev.rd P.DPX_LINK = 1 → 100 ≤ s.dev.peer.restored → s.dev.rd P.DPX_STATE = 2 →
     Completes (.linkRestore t) s fun u =>
       u.rd P.DPX_LINK = 2 ∧ u.rd P.DPX_STATE = 3 ∧ u.peer.waitCheckpoint = true ∧ u.rd P.DPX_RESYNCS = bumped P.DPX_RESYNCS (s.dev.rd P.DPX_RESYNCS) ∧
       u.rest = { s.dev.rest with now := max s.dev.now t, peer := u.peer } ∧ ItemsBut [] [(P.DPX_LINK, 0), (P.DPX_STATE, 0), (P.DPX_RESYNCS, 0)] u s.dev) ∧
  (∀ (s : State) (t : Nat), s.dev.up → s.dev.rd P.DPX_LINK = 1 → 100 ≤ s.dev.peer.restored → s.dev.rd P.DPX_STATE ≠ 2 →
     Completes (.linkRestore t) s fun u => u.rd P.DPX_LINK = 2 ∧ u.rest = { s.dev.rest with now := max s.dev.now t } ∧ ItemsBut [] [(P.DPX_LINK, 0)] u s.dev) ∧
  (∀ (s : State) (t cycle : Nat) (x : Input), s.dev.up → s.dev.rd P.DPX_STATE = 2 ∨ s.dev.rd P.DPX_STATE = 3 →
     Completes (.peerInput t cycle x) s fun u =>
       u.peer = { s.dev.peer with foreign := s.dev.peer.foreign ++ [(cycle, x)] } ∧ u.rest = { s.dev.rest with now := max s.dev.now t, peer := u.peer } ∧ ItemsBut [] [] u s.dev) ∧
  (∀ (s : State) (t : Nat), s.dev.up → s.dev.active →
     Completes (.resync t) s fun u => u.freeIx = s.dev.freeIx + 1 ∧ u.rest = { s.dev.rest with now := max s.dev.now t, freeIx := u.freeIx } ∧ ItemsBut [] [] u s.dev) ∧
  (∀ (s : State) (t : Nat) (img : Image), s.dev.up → s.dev.rd P.DPX_STATE = 3 → s.dev.peer.waitCheckpoint →
     Completes (.peerCheckpoint t img) s fun u =>
       u.peer.waitCheckpoint = false ∧ u.peer.lastCopy = some (img.next - 1) ∧ u.com = ((s.dev.at t).takeImage img true).com ∧
       u.regs = ((s.dev.at t).takeImage img true).regs)

/-- R276, R281, R282, R284, R286, R287, R289: GIVE_UP is answered with TAKE once the copy of b - 2 stands; at the boundary the unit that gives up is SILENT,
or STANDBY after a return of control; the unit that took, the STANDBY of a dead link and the unit that claims at the start become ACTIVE with a tenure above
both; a B-side that is asked returns control; a STOP forwarded by the other unit latches at once and is confirmed to its sender. -/
def Obligations.TakingControl : Prop :=
  (∀ (s : State) (t cause b j : Nat), s.dev.up → s.dev.rd P.DPX_STATE = 2 → s.dev.peer.lastCopy = some j → b ≤ j + 2 →
     Completes (.giveUpReceive t cause b) s fun u =>
       u.peer = { s.dev.peer with giveB := some b, takeSent := true } ∧ u.rest = { s.dev.rest with now := max s.dev.now t, peer := u.peer } ∧ ItemsBut [] [] u s.dev) ∧
  (∀ (s : State) (t cause b : Nat), s.dev.up → s.dev.rd P.DPX_STATE = 2 → s.dev.peer.lastCopy = none →
     Completes (.giveUpReceive t cause b) s fun u => u.peer = { s.dev.peer with giveB := some b } ∧ u.rest = { s.dev.rest with now := max s.dev.now t, peer := u.peer } ∧ ItemsBut [] [] u s.dev) ∧
  (∀ (s : State) (t b : Nat), s.dev.up → s.dev.peer.boundary = some b → s.dev.peer.yielding → b * cycleNs ≤ max s.dev.now t →
     s.dev.rd P.DPX_STATE = 1 →
     Completes (.silentAtBoundary t) s fun u =>
       u.rd P.DPX_STATE = (if s.dev.rd P.DPX_GIVEUP_CAUSE = 8 then 2 else 4) ∧ u.stp.outOn = false ∧ u.stp.series = none ∧
       u.peer = { s.dev.peer with yielding := false, boundary := none, silentAt := some (max s.dev.now t), lastCopy := some (s.dev.cyc.next - 1) } ∧
       u.rest = { s.dev.rest with now := max s.dev.now t, peer := u.peer, stp := u.stp } ∧ ItemsBut [] [(P.DPX_STATE, 0), (P.STP_OUT_STATE, 0)] u s.dev) ∧
  (∀ (s : State) (t b : Nat) (offset : Int) (unc : Nat), s.dev.up → s.dev.rd P.DPX_STATE = 2 → s.dev.peer.giveB = some b → s.dev.peer.takeSent →
     b * cycleNs ≤ max s.dev.now t →
     Completes (.takeover t offset unc) s fun u =>
       u.rd P.DPX_STATE = 1 ∧ u.rd P.DPX_TENURE = min (max (s.dev.rd P.DPX_TENURE) s.dev.peer.peerTenure + 1) 0xFFFFFFFF ∧ u.peer.seatDriven = true ∧
       u.peer.giveB = none ∧ u.cyc.flagTake = true ∧ u.cyc.adm = (s.dev.peer.foreign.filter fun e => b - 1 ≤ e.1) ∧ u.com = s.dev.com ∧ u.gns = s.dev.gns ∧
       u.chutes = s.dev.chutes ∧ u.dsp = s.dev.dsp) ∧
  (∀ (s : State) (t j : Nat) (offset : Int) (unc : Nat), s.dev.up → s.dev.rd P.DPX_STATE = 2 → s.dev.rd P.DPX_LINK = 0 → s.dev.cf P.DPX_MODE = 1 →
     s.dev.peer.beaconCycles = [] → s.dev.peer.lastCopy = some j →
     Completes (.heartbeatLossTakeover t true offset unc) s fun u =>
       u.rd P.DPX_STATE = 1 ∧ u.rd P.DPX_TENURE = min (max (s.dev.rd P.DPX_TENURE) s.dev.peer.peerTenure + 1) 0xFFFFFFFF ∧ u.peer.seatDriven = true ∧
       u.cyc.flagTake = true ∧ u.com = s.dev.com ∧ u.gns = s.dev.gns ∧ u.chutes = s.dev.chutes ∧ u.dsp = s.dev.dsp) ∧
  (∀ (s : State) (t : Nat), s.dev.up → s.dev.rd P.DPX_STATE = 0 → s.dev.timeSet → (s.dev.tim.setAt + cycleNs - 1) / cycleNs ≤ cycleOf (max s.dev.now t) →
     s.dev.cf P.DPX_MODE = 0 →
     Completes (.startClaim t true) s fun u =>
       u.rd P.DPX_STATE = 1 ∧ u.cyc.origin = some (cycleOf (max s.dev.now t)) ∧ u.cyc.next = cycleOf (max s.dev.now t) ∧
       u.rd P.CYC_ORIGIN = u32 (cycleOf (max s.dev.now t)) ∧ u.cyc.flagCold = true ∧ u.peer.seatDriven = true) ∧
  (∀ (s : State) (t b : Nat), s.dev.up → s.dev.peer.claim = some b → s.dev.side = 2 →
     Completes (.claimReceive t b) s fun u =>
       u.rd P.DPX_STATE = 3 ∧ u.peer.seatDriven = false ∧ u.peer.claim = none ∧ u.stp.outOn = false ∧ u.rest = { s.dev.rest with now := max s.dev.now t, peer := u.peer, stp := u.stp } ∧
       ItemsBut [] [(P.DPX_STATE, 0), (P.DPX_RESYNCS, 0), (P.STP_OUT_STATE, 0)] u s.dev) ∧
  (∀ (s : State) (t : Nat), s.dev.up → s.dev.active → s.dev.side = 2 → s.dev.peer.yielding = false →
     Completes (.returnRequest t) s fun u =>
       u.rd P.DPX_GIVEUP_CAUSE = 8 ∧ u.peer.yielding = true ∧ u.peer.seatDriven = false ∧ u.rest = { s.dev.rest with now := max s.dev.now t, peer := u.peer } ∧ ItemsBut [] [(P.DPX_GIVEUP_CAUSE, 0)] u s.dev) ∧
  (∀ (s : State) (t w : Nat), s.dev.up → s.dev.rd P.DPX_STATE = 3 → s.dev.side = 1 → s.dev.cf P.DPX_REVERT = 1 → s.dev.peer.holdMismatch = false →
     s.dev.peer.waitCheckpoint = false → s.dev.peer.holdFrom = some w → w + s.dev.cf P.DPX_RETURN_HOLD * sec ≤ max s.dev.now t →
     s.dev.rd P.CHU_STATE 14 = 0 → Completes (.returnRequest t) s fun u => u.out = s.dev.out ++ [.link 9 []] ∧ u.rest = { s.dev.rest with now := max s.dev.now t } ∧ ItemsBut [] [] u s.dev) ∧
  (∀ (s : State) (t stamp idx : Nat) (payload : Bytes), s.dev.up → s.dev.active →
     Completes (.peerStopFwd t stamp idx payload) s fun u =>
       u.stp.lanes = s.dev.stp.lanes.map (fun l => l.latch (stopScope payload) 3 { stamp := stamp, cls := 8, idx := idx }) ∧
       u.rest = { s.dev.rest with now := max s.dev.now t, stp := u.stp, cyc := quietCyc u.cyc } ∧ ItemsBut [] [(P.CYC_EARLY_DROP, 0), (P.CYC_ADMITTED, 0), (P.CYC_LATE, 0), (P.CYC_LATE_SPILL, 0)] u s.dev) ∧
  (∀ (s : State) (t : Nat) (x : Nat × Queued) (l : List (Nat × Queued)), s.dev.up → s.dev.peer.fwd = x :: l →
     Completes (.stopFwdConfirm t) s fun u => u.peer = { s.dev.peer with fwd := l } ∧ u.rest = { s.dev.rest with now := max s.dev.now t, peer := u.peer } ∧ ItemsBut [] [] u s.dev) ∧
  (∀ (s : State) (t : Nat) (record item : Bytes) (img : Image), s.dev.up → s.dev.rd P.DPX_STATE = 2 → s.dev.peer.waitCheckpoint = false →
     unwrap32 s.dev.cyc.next (fld record 0 4) = s.dev.cyc.next →
     (commitOrder ((s.dev.peer.foreign.filter fun e => e.1 == s.dev.cyc.next).map (·.2))).length = fld record 6 2 + fld record 8 4 →
     Completes (.peerCopy t record item img true) s fun u =>
       u.cyc.next = s.dev.cyc.next + 1 ∧ u.rd P.CYC_COMMITTED = u32 s.dev.cyc.next ∧ u.peer.lastCopy = some s.dev.cyc.next)

/-- R294, R295, R297, R298, R307: a link that comes up forwards and one that goes down is DOWN, each counted; the by-pass is driven, is joined with both
ports up and is released when a join fails or both ports stay down; a topology change flushes the table; a fault of the switch core releases the by-pass. -/
def Obligations.RingPortsAndBypass : Prop :=
  (∀ (s : State) (t p : Nat), s.dev.up → p ≤ 1 → s.dev.rd P.RNG_PORT_EN p ≠ 0 → s.dev.ring.failed = [] → s.dev.rd P.RNG_PORT_STATE p < 2 → s.dev.rd P.RNG_MRP_EN ≠ 1 →
     Completes (.portLinkChange t p true 1000 true) s fun u =>
       u.rd P.RNG_PORT_STATE p = 3 ∧ u.rd P.RNG_SPEED p = 2 ∧ u.rd P.RNG_LINK_CHANGES p = bumped P.RNG_LINK_CHANGES (s.dev.rd P.RNG_LINK_CHANGES p) ∧ u.rest = { s.dev.rest with now := max s.dev.now t, ring := u.ring } ∧
       ItemsBut [] [(P.RNG_PORT_STATE, p), (P.RNG_SPEED, p), (P.RNG_LINK_CHANGES, p), (P.RNG_BYPASS_STATE, 0)] u s.dev) ∧
  (∀ (s : State) (t p mbit : Nat) (full : Bool), s.dev.up → p ≤ 1 → s.dev.rd P.RNG_PORT_EN p ≠ 0 → s.dev.ring.failed = [] → 2 ≤ s.dev.rd P.RNG_PORT_STATE p → s.dev.rd P.RNG_MRP_EN ≠ 1 →
     Completes (.portLinkChange t p false mbit full) s fun u =>
       u.rd P.RNG_PORT_STATE p = 1 ∧ u.rd P.RNG_SPEED p = 0 ∧ u.rd P.RNG_LINK_CHANGES p = bumped P.RNG_LINK_CHANGES (s.dev.rd P.RNG_LINK_CHANGES p) ∧ u.rest = { s.dev.rest with now := max s.dev.now t, ring := u.ring } ∧
       ItemsBut [] [(P.RNG_PORT_STATE, p), (P.RNG_SPEED, p), (P.RNG_LINK_CHANGES, p), (P.RNG_BYPASS_STATE, 0)] u s.dev) ∧
  (∀ (s : State) (t : Nat), s.dev.up → s.dev.rd P.RNG_BYPASS_STATE = 0 → s.dev.rd P.RNG_BYPASS_EN = 1 → s.dev.ring.lastFail = none → s.dev.rcd.pfail = false → s.dev.ring.failed = [] → s.dev.rd P.RNG_PORT_STATE 0 < 2 →
     Completes (.bypassJoin t) s fun u =>
       u.rd P.RNG_BYPASS_STATE = 1 ∧ u.ring.joinAt = t ∧ u.rest = { s.dev.rest with now := max s.dev.now t, ring := u.ring, freeIx := u.freeIx } ∧ ItemsBut [] [(P.RNG_BYPASS_STATE, 0)] u s.dev) ∧
  (∀ (s : State) (t : Nat), s.dev.up → s.dev.rd P.RNG_BYPASS_STATE = 1 → s.dev.ring.joinAt + s.dev.rd P.RNG_JOIN_MS * ms ≤ t →
     Completes (.bypassJoinTimeout t) s fun u =>
       u.rd P.RNG_BYPASS_STATE = 0 ∧ u.ring = { s.dev.ring with lastFail := some t } ∧ u.rd P.RNG_JOIN_FAILS = bumped P.RNG_JOIN_FAILS (s.dev.rd P.RNG_JOIN_FAILS) ∧ u.rest = { s.dev.rest with now := max s.dev.now t, ring := u.ring } ∧
       ItemsBut [] [(P.RNG_BYPASS_STATE, 0), (P.RNG_JOIN_FAILS, 0)] u s.dev) ∧
  (∀ (s : State) (t f : Nat), s.dev.up → s.dev.rd P.RNG_BYPASS_STATE = 2 → s.dev.ring.downSince = some f → f + sec ≤ t →
     Completes (.bypassDownRelease t) s fun u =>
       u.rd P.RNG_BYPASS_STATE = 0 ∧ u.ring = { s.dev.ring with lastFail := some t } ∧ u.rest = { s.dev.rest with now := max s.dev.now t, ring := u.ring } ∧ ItemsBut [] [(P.RNG_BYPASS_STATE, 0)] u s.dev) ∧
  (∀ (s : State) (t cause : Nat), s.dev.up → s.dev.ring.failed = [] → s.dev.rd P.RNG_BYPASS_STATE ≠ 0 →
     Completes (.ringFault t 2 cause) s fun u =>
       u.rd P.RNG_BYPASS_STATE = 0 ∧ u.ring = { s.dev.ring with failed := [2] } ∧ u.rest = { s.dev.rest with now := max s.dev.now t, ring := u.ring } ∧ ItemsBut [] [(P.RNG_BYPASS_STATE, 0)] u s.dev) ∧
  (∀ (s : State) (t p interval : Nat), s.dev.up → s.dev.rd P.RNG_MRP_EN = 1 → p ≤ 1 → 2 ≤ s.dev.rd P.RNG_PORT_STATE p → s.dev.rd P.RNG_PORT_STATE 0 ≠ 2 →
     s.dev.rd P.RNG_PORT_STATE 1 ≠ 2 →
     Completes (.mrpTopologyChange t p interval) s fun u =>
       u.ring = { s.dev.ring with flushAt := some (t + interval * ms), table := s.dev.ring.table.filter fun e => decide (t + interval * ms < e.2.2.2) } ∧
       u.rd P.RNG_TOPO_CHANGES = bumped P.RNG_TOPO_CHANGES (s.dev.rd P.RNG_TOPO_CHANGES) ∧ u.rest = { s.dev.rest with now := max s.dev.now t, ring := u.ring } ∧ ItemsBut [] [(P.RNG_TOPO_CHANGES, 0)] u s.dev) ∧
  (∀ (s : State) (t : Nat) (f : EthFrame) (members x : Nat), s.dev.up → f.port < 2 → s.dev.ring.failed = [] → s.dev.rd P.RNG_PORT_STATE f.port = 3 → f.ok → 64 ≤ f.len → f.len ≤ 1522 →
     f.tag = none → f.ptp = none → s.dev.vlan (s.dev.rd P.RNG_PVID f.port) = some (members, x) → bitOf members f.port → f.src / 2 ^ 40 % 2 = 0 →
     ({ s.dev.at t with ring := { s.dev.ring with table := ((s.dev.rd P.RNG_PVID f.port, f.src, f.port, t) :: (s.dev.ring.table.filter fun e => !(e.1 == s.dev.rd P.RNG_PVID f.port && e.2.1 == f.src) && decide (t < e.2.2.2 + 300 * sec))).take 1024 } } : Dev).egress f
       (s.dev.rd P.RNG_PVID f.port) members = [] →
     Completes (.ethFrameForward t f) s fun u =>
       u.rd P.RNG_RX_FRAMES f.port = bumped P.RNG_RX_FRAMES (s.dev.rd P.RNG_RX_FRAMES f.port) ∧
       u.ring.table = ((s.dev.rd P.RNG_PVID f.port, f.src, f.port, t) :: (s.dev.ring.table.filter fun e => !(e.1 == s.dev.rd P.RNG_PVID f.port && e.2.1 == f.src) && decide (t < e.2.2.2 + 300 * sec))).take 1024 ∧
       u.rest = { s.dev.rest with now := max s.dev.now t, ring := u.ring } ∧ ItemsBut [] [(P.RNG_RX_FRAMES, f.port)] u s.dev) ∧
  (∀ (s : State) (t : Nat) (f : EthFrame), s.dev.up → f.port < 2 → s.dev.ring.failed = [] → s.dev.rd P.RNG_PORT_STATE f.port = 3 → f.ok = false →
     Completes (.ethFrameForward t f) s fun u =>
       u.rd P.RNG_RX_ERR f.port = bumped P.RNG_RX_ERR (s.dev.rd P.RNG_RX_ERR f.port) ∧ u.rest = { s.dev.rest with now := max s.dev.now t } ∧ ItemsBut [] [(P.RNG_RX_ERR, f.port)] u s.dev)

/-- R301 to R304: a master sends Sync and Announce with the next sequence; a peer-delay request is sent and remembered with its egress stamp; a response to
it gives the link delay. -/
def Obligations.PrecisionTime : Prop :=
  (∀ (s : State) (t : Nat), s.dev.up → (s.dev.at t).ptpJudge.rd P.RNG_PTP_STATE = 2 → s.dev.rd P.RNG_PORT_STATE 0 < 2 → s.dev.rd P.RNG_PORT_STATE 1 < 2 →
     Completes (.ptpSyncSend t) s fun u =>
       u.ring = { s.dev.ring with seqSync := (s.dev.ring.seqSync + 1) % 65536 } ∧ u.rest = { s.dev.rest with now := max s.dev.now t, ring := u.ring } ∧ ItemsBut [] [(P.RNG_PTP_STATE, 0), (P.RNG_PTP_GM_ID, 0)] u s.dev) ∧
  (∀ (s : State) (t : Nat), s.dev.up → (s.dev.at t).ptpJudge.rd P.RNG_PTP_STATE = 2 → 2 ≤ s.dev.rd P.RNG_PORT_STATE 0 → s.dev.rd P.RNG_PORT_STATE 1 < 2 →
     Completes (.ptpSyncSend t) s fun u =>
       u.ring = { s.dev.ring with seqSync := (s.dev.ring.seqSync + 1) % 65536 } ∧ u.rd P.RNG_TX_FRAMES 0 = bumped P.RNG_TX_FRAMES (s.dev.rd P.RNG_TX_FRAMES 0) ∧ u.rest = { s.dev.rest with now := max s.dev.now t, ring := u.ring } ∧
       ItemsBut [] [(P.RNG_PTP_STATE, 0), (P.RNG_PTP_GM_ID, 0), (P.RNG_TX_FRAMES, 0)] u s.dev) ∧
  (∀ (s : State) (t : Nat), s.dev.up → (s.dev.at t).ptpJudge.rd P.RNG_PTP_STATE = 2 → s.dev.rd P.RNG_PORT_STATE 0 < 2 → 2 ≤ s.dev.rd P.RNG_PORT_STATE 1 →
     Completes (.ptpAnnounceSend t) s fun u =>
       u.ring = { s.dev.ring with seqAnn := (s.dev.ring.seqAnn + 1) % 65536 } ∧ u.rd P.RNG_TX_FRAMES 1 = bumped P.RNG_TX_FRAMES (s.dev.rd P.RNG_TX_FRAMES 1) ∧ u.rest = { s.dev.rest with now := max s.dev.now t, ring := u.ring } ∧
       ItemsBut [] [(P.RNG_PTP_STATE, 0), (P.RNG_PTP_GM_ID, 0), (P.RNG_TX_FRAMES, 1)] u s.dev) ∧
  (∀ (s : State) (t p mac : Nat), s.dev.up → p ≤ 1 → 2 ≤ s.dev.rd P.RNG_PORT_STATE p → s.dev.rd P.RNG_TC_EN = 1 →
     Completes (.pdelayReqSend t p mac) s fun u =>
       u.ring = { s.dev.ring with seqPd := (s.dev.ring.seqPd + 1) % 65536, pdReq := (p, s.dev.ring.seqPd, s.dev.wireOut p mac) :: s.dev.ring.pdReq.filter (·.1 != p) } ∧
       u.rd P.RNG_TX_FRAMES p = bumped P.RNG_TX_FRAMES (s.dev.rd P.RNG_TX_FRAMES p) ∧ u.rest = { s.dev.rest with now := max s.dev.now t, ring := u.ring } ∧ ItemsBut [] [(P.RNG_TX_FRAMES, p)] u s.dev) ∧
  (∀ (s : State) (t p sent : Nat) (m : PtpMsg), s.dev.up → p ≤ 1 → 2 ≤ s.dev.rd P.RNG_PORT_STATE p → m.type = 3 →
     (s.dev.ring.pdReq.find? fun e => e.1 == p && e.2.1 == m.seq) = some (p, m.seq, sent) →
     Completes (.ptpMessageReceive t p m) s fun u =>
       u.rd P.RNG_PEER_DELAY p = min (2 ^ 32 - 1) ((s.dev.wireIn p m.rx - sent - m.corr / 65536) / 2) ∧
       u.ring = { s.dev.ring with pdReq := s.dev.ring.pdReq.filter (·.1 != p) } ∧ u.rest = { s.dev.rest with now := max s.dev.now t, ring := u.ring } ∧ ItemsBut [] [(P.RNG_PEER_DELAY, p)] u s.dev) ∧
  (∀ (s : State) (t p : Nat) (m : PtpMsg), s.dev.up → p ≤ 1 → 2 ≤ s.dev.rd P.RNG_PORT_STATE p → m.type = 2 → s.dev.rd P.RNG_TC_EN = 1 →
     Completes (.ptpMessageReceive t p m) s fun u =>
       u.rd P.RNG_TX_FRAMES p = bumped P.RNG_TX_FRAMES (s.dev.rd P.RNG_TX_FRAMES p) ∧ u.rest = { s.dev.rest with now := max s.dev.now t } ∧ ItemsBut [] [(P.RNG_TX_FRAMES, p)] u s.dev)

/-- R310, R312, R317, R321 to R325, R329: a frame that matches a receive buffer fills it, counts and lowers REC; an acknowledged frame of a buffer is SENT;
an error raises the counter and leaves the buffer PENDING; a bus-idle instant offers the frame of highest priority; a master schedules its reference. -/
def Obligations.FieldBusFrames : Prop :=
  (∀ (s : State) (t c b : Nat) (f : CanFrame), s.dev.up → s.dev.active → c ≤ 2 → s.dev.rd P.CAN_STATE c = 1 → f.fdf = false → f.rtr = false → s.dev.rd P.CAN_REC c = 0 →
     s.dev.rd P.CAN_TEC c < 128 → s.dev.rd P.CAN_REF_ROLE c ≠ 2 → (∀ i, i < 4 → s.dev.canScope i = none) →
     ((List.range 64).find? fun b => cfgMatches (s.dev.bufCfg (64 * c + b)) f) = some b → bitOf (fld (s.dev.bufCfg (64 * c + b)) 1 1) 3 = false →
     Completes (.canFrameReceive t c f) s fun u =>
       u.can.bufs = insertBy (fun x y => decide (x.i < y.i)) { i := 64 * c + b, newdat := true, lost := (s.dev.canBuf (64 * c + b)).newdat, f := f } (s.dev.can.bufs.filter (·.i != 64 * c + b)) ∧
       u.rd P.CAN_RX_FRAMES c = bumped P.CAN_RX_FRAMES (s.dev.rd P.CAN_RX_FRAMES c) ∧ u.rest = { s.dev.rest with now := max s.dev.now t, can := u.can } ∧
       ItemsBut [] [(P.CAN_RX_FRAMES, c), (P.CAN_TEC, c), (P.CAN_REC, c), (P.CAN_STATE, c)] u s.dev) ∧
  (∀ (s : State) (t c b sof loop : Nat) (x : CanBuf), s.dev.up → s.dev.active → c ≤ 2 → s.dev.rd P.CAN_STATE c = 1 → s.dev.canOffered c = some x → x.i = 64 * c + b → b ≠ 63 → b < 64 →
     s.dev.rd P.CAN_TEC c < 128 → s.dev.rd P.CAN_REC c < 128 → x.f.brs = false →
     Completes (.canFrameSent t c b sof loop) s fun u =>
       u.can.bufs = insertBy (fun x y => decide (x.i < y.i)) { x with txst := 3, errs := 0, abort := false, f := { x.f with sof := sof } } (s.dev.can.bufs.filter (·.i != x.i)) ∧
       u.rd P.CAN_TX_FRAMES c = bumped P.CAN_TX_FRAMES (s.dev.rd P.CAN_TX_FRAMES c) ∧ u.rd P.CAN_TEC c = s.dev.rd P.CAN_TEC c - 1 ∧ u.rd P.CAN_STATE c = 1 ∧ u.rest = { s.dev.rest with now := max s.dev.now t, can := u.can } ∧
       ItemsBut [] [(P.CAN_TX_FRAMES, c), (P.CAN_TEC, c), (P.CAN_REC, c)] u s.dev) ∧
  (∀ (s : State) (t c b : Nat) (x : CanBuf), s.dev.up → s.dev.active → c ≤ 2 → s.dev.rd P.CAN_STATE c = 1 → s.dev.canOffered c = some x → x.i = 64 * c + b →
     s.dev.rd P.CAN_TEC c + 8 < 128 → s.dev.rd P.CAN_REC c < 128 → x.abort = false →
     Completes (.canTxError t c b 3) s fun u =>
       u.can.bufs = insertBy (fun x y => decide (x.i < y.i)) { x with txst := 1, abort := false } (s.dev.can.bufs.filter (·.i != x.i)) ∧
       u.rd P.CAN_ERR_FRAMES c = bumped P.CAN_ERR_FRAMES (s.dev.rd P.CAN_ERR_FRAMES c) ∧ u.rd P.CAN_TEC c = s.dev.rd P.CAN_TEC c + 8 ∧ u.rd P.CAN_STATE c = 1 ∧ u.rest = { s.dev.rest with now := max s.dev.now t, can := u.can } ∧
       ItemsBut [] [(P.CAN_ERR_FRAMES, c), (P.CAN_TEC, c), (P.CAN_REC, c)] u s.dev) ∧
  (∀ (s : State) (t c : Nat), s.dev.up → s.dev.active → c ≤ 2 → s.dev.rd P.CAN_STATE c = 1 → s.dev.rd P.CAN_TEC c < 128 → s.dev.rd P.CAN_REC c + 1 < 128 →
     Completes (.canReceiveError t c false) s fun u =>
       u.rd P.CAN_ERR_FRAMES c = bumped P.CAN_ERR_FRAMES (s.dev.rd P.CAN_ERR_FRAMES c) ∧ u.rd P.CAN_REC c = s.dev.rd P.CAN_REC c + 1 ∧ u.rd P.CAN_STATE c = 1 ∧ u.rest = { s.dev.rest with now := max s.dev.now t } ∧
       ItemsBut [] [(P.CAN_ERR_FRAMES, c), (P.CAN_TEC, c), (P.CAN_REC, c)] u s.dev) ∧
  (∀ (s : State) (t c : Nat), s.dev.up → s.dev.active → c ≤ 2 → s.dev.can.failed = [] → s.dev.rd P.CAN_MODE c = 0 → s.dev.rd P.CAN_STATE c ≠ 0 →
     Completes (.canModeApply t c) s fun u =>
       u.rd P.CAN_STATE c = 0 ∧ u.rd P.CAN_TEC c = 0 ∧ u.rd P.CAN_REC c = 0 ∧ u.can.mode = s.dev.can.mode.set c 0 ∧ (∀ b ∈ u.can.bufs, b.i / 64 = c → b.txst ≠ 1) ∧ u.rest = { s.dev.rest with now := max s.dev.now t, can := u.can } ∧
       ItemsBut [] [(P.CAN_STATE, c), (P.CAN_TEC, c), (P.CAN_REC, c)] u s.dev) ∧
  (∀ (s : State) (t c : Nat), s.dev.up → s.dev.active → c ≤ 2 → s.dev.can.failed = [] → s.dev.rd P.CAN_MODE c = 1 → s.dev.rd P.CAN_STATE c = 0 →
     (∀ b ∈ s.dev.can.bufs, b.i / 64 = c → b.txst ≠ 1 ∧ b.txst ≠ 2) →
     Completes (.canModeApply t c) s fun u => u.rd P.CAN_STATE c = 1 ∧ u.can.mode = s.dev.can.mode.set c 1 ∧ u.can.bufs = s.dev.can.bufs ∧ u.rest = { s.dev.rest with now := max s.dev.now t, can := u.can } ∧ ItemsBut [] [(P.CAN_STATE, c)] u s.dev) ∧
  (∀ (s : State) (t c : Nat), s.dev.up → s.dev.active → c ≤ 2 → s.dev.rd P.CAN_REF_ROLE c = 1 → s.dev.timeSet → s.dev.rd P.CAN_REF_PERIOD c ≠ 0 →
     t % (s.dev.rd P.CAN_REF_PERIOD c * ms) = 0 → (s.dev.canBuf (64 * c + 63)).txst = 0 →
     Completes (.canRefSchedule t c) s fun u =>
       u.rd P.CAN_REF_SEQ c = (s.dev.rd P.CAN_REF_SEQ c + 1) % 256 ∧
       (∃ f, u.can.bufs = insertBy (fun x y => decide (x.i < y.i)) { i := 64 * c + 63, txst := 1, f := f } (s.dev.can.bufs.filter (·.i != 64 * c + 63)) ∧ f.dlc = 8 ∧
         f.id = s.dev.rd P.CAN_REF_ID c % 2 ^ 29) ∧ u.rest = { s.dev.rest with now := max s.dev.now t, can := u.can } ∧ ItemsBut [] [(P.CAN_REF_SEQ, c)] u s.dev)

/-- R326, R330, R331, R333: recovery starts where it is automatic and ends with both counters 0; three periods without a reference lose it; an ACTIVE unit
that can send claims its address, and after its wait holds it; a faulty controller is OFF. -/
def Obligations.FieldBusControl : Prop :=
  (∀ (s : State) (t c l : Nat), s.dev.up → c ≤ 2 → s.dev.rd P.CAN_STATE c = 3 → s.dev.rd P.CAN_RECOVER c = 1 → nth s.dev.can.offs c = [l] →
     l + s.dev.rd P.CAN_RECOVER_MS c * ms ≤ t → 1 ≤ s.dev.rd P.CAN_RECOVER_MAX c →
     Completes (.canRecoveryStart t c) s fun u => u.rd P.CAN_STATE c = 4 ∧ u.rest = { s.dev.rest with now := max s.dev.now t } ∧ ItemsBut [] [(P.CAN_STATE, c)] u s.dev) ∧
  (∀ (s : State) (t c : Nat), s.dev.up → c ≤ 2 → s.dev.rd P.CAN_STATE c = 4 →
     Completes (.canRecoveryDone t c) s fun u =>
       u.rd P.CAN_STATE c = 1 ∧ u.rd P.CAN_TEC c = 0 ∧ u.rd P.CAN_REC c = 0 ∧ u.rest = { s.dev.rest with now := max s.dev.now t } ∧ ItemsBut [] [(P.CAN_STATE, c), (P.CAN_TEC, c), (P.CAN_REC, c)] u s.dev) ∧
  (∀ (s : State) (t c l : Nat), s.dev.up → c ≤ 2 → s.dev.rd P.CAN_REF_ROLE c = 2 → nth s.dev.can.refLast c = some l → l + 3 * s.dev.rd P.CAN_REF_PERIOD c * ms ≤ t →
     nth s.dev.can.refLost c = false →
     Completes (.canRefLost t c) s fun u => u.can = { s.dev.can with refLost := s.dev.can.refLost.set c true } ∧ u.rest = { s.dev.rest with now := max s.dev.now t, can := u.can } ∧ ItemsBut [] [] u s.dev) ∧
  (∀ (s : State) (t addr name : Nat), s.dev.up → s.dev.active → s.dev.rd P.CAN_ISO_EN = 1 → s.dev.rd P.CAN_STATE 0 = 1 → s.dev.rd P.CAN_ISO_STATE = 0 →
     Completes (.isoAddressClaim t 0 addr name) s fun u =>
       u.rd P.CAN_ISO_STATE = 1 ∧ u.rd P.CAN_ISO_ADDR_NOW = s.dev.rd P.CAN_ISO_ADDR ∧ u.can = { s.dev.can with claimAt := max s.dev.now t } ∧ u.rest = { s.dev.rest with now := max s.dev.now t, can := u.can } ∧
       ItemsBut [] [(P.CAN_ISO_STATE, 0), (P.CAN_ISO_ADDR_NOW, 0)] u s.dev) ∧
  (∀ (s : State) (t addr name : Nat), s.dev.up → s.dev.active → s.dev.rd P.CAN_ISO_EN = 1 → s.dev.rd P.CAN_STATE 0 = 1 → s.dev.rd P.CAN_ISO_STATE = 1 → s.dev.can.claimAt + 250 * ms ≤ t →
     Completes (.isoAddressClaim t 3 addr name) s fun u =>
       u.rd P.CAN_ISO_STATE = 2 ∧ u.rd P.CAN_ISO_ADDR_NOW = s.dev.rd P.CAN_ISO_ADDR_NOW ∧ u.rest = { s.dev.rest with now := max s.dev.now t } ∧ ItemsBut [] [(P.CAN_ISO_STATE, 0), (P.CAN_ISO_ADDR_NOW, 0)] u s.dev) ∧
  (∀ (s : State) (t c cause : Nat), s.dev.up → c ≤ 2 → s.dev.can.failed = [] →
     Completes (.canControllerFault t c cause) s fun u =>
       u.rd P.CAN_STATE c = 0 ∧ u.can = { s.dev.can with failed := [c] } ∧ u.rest = { s.dev.rest with now := max s.dev.now t, can := u.can } ∧ ItemsBut [] [(P.CAN_STATE, c)] u s.dev)

/-- R337, R364, R391: a modulator's block of 40 codes waits for Chute 11 with the bytes of Table 13.1; a block that finds 64 of its channel waiting is lost
and counted; a fault of a modulator or of the tile is held. -/
def Obligations.MeteringBlocks : Prop :=
  (∀ (s : State) (t c stamp last snum : Nat) (codes : List Int), s.dev.up → c < 16 → codes.length = 40 → s.dev.baysOf c ≠ [] → s.dev.tooEarly stamp = false →
     ((nth s.dev.chutes 11).waiting.filter fun x => x.cls == 5 && x.idx == c).length < 64 →
     Completes (.mtrBlock t c stamp last snum codes) s fun u =>
       (∃ n, u.chutes = upd s.dev.chutes 11 fun q => { q with waiting := q.waiting ++ [{ stamp := stamp, cls := 5, idx := c, seq := n, payload := mtrBlock c (bit (codes.any fun z => decide (2 ^ 23 - 1 ≤ z) || decide (z ≤ -2 ^ 23)) + 2 * bit (s.dev.mtr.failed.contains c || s.dev.mtr.failed.contains 16)) snum last codes }] }) ∧
       u.rest = { s.dev.rest with now := max s.dev.now t, chutes := u.chutes, cyc := { quietCyc s.dev.cyc with seqs := u.cyc.seqs } } ∧ ItemsBut [] [] u s.dev) ∧
  (∀ (s : State) (t c stamp last snum : Nat) (codes : List Int), s.dev.up → c < 16 → codes.length = 40 → s.dev.baysOf c ≠ [] → s.dev.tooEarly stamp = false →
     64 ≤ ((nth s.dev.chutes 11).waiting.filter fun x => x.cls == 5 && x.idx == c).length →
     Completes (.mtrBlock t c stamp last snum codes) s fun u =>
       u.mtr = { s.dev.mtr with lost := s.dev.mtr.lost ++ [c] } ∧ u.rd P.MTR_BLOCK_LOST c = bumped P.MTR_BLOCK_LOST (s.dev.rd P.MTR_BLOCK_LOST c) ∧
       u.rest = { s.dev.rest with now := max s.dev.now t, mtr := u.mtr } ∧ ItemsBut [] [(P.MTR_BLOCK_LOST, c)] u s.dev) ∧
  (∀ (s : State) (t c cause : Nat), s.dev.up → c ≤ 16 → s.dev.mtr.failed.contains c = false →
     Completes (.meteringFault t c cause) s fun u =>
       u.mtr = { s.dev.mtr with failed := s.dev.mtr.failed ++ [c] } ∧ u.rest = { s.dev.rest with now := max s.dev.now t, mtr := u.mtr } ∧ ItemsBut [] [] u s.dev)

/-- R352 to R357: a gantry command due takes ownership and begins its first motion at rest; a move that reaches its target leaves its axis IDLE there; a
stopped axis is STOPPED with the rest of its move in `DRK.REMAIN`. -/
def Obligations.AxesMoveAndStop : Prop :=
  (∀ (s : State) (t c : Nat) (gs : List GStep), s.dev.up → s.dev.active → s.dev.drk.failed = false → s.dev.drk.lines = [] → s.dev.drk.inbox = [(c, gs)] → c ≤ t →
     s.dev.stp.outOn = false →
     Completes (.gantryCommand t) s fun u =>
       u.drk = { s.dev.drk with inbox := [], gantry := s.dev.drk.gantry ++ gs } ∧ u.rd P.DRK_OWNER = 1 ∧ u.rest = { s.dev.rest with now := max s.dev.now t, drk := u.drk } ∧ ItemsBut [] [(P.DRK_OWNER, 0)] u s.dev) ∧
  (∀ (s : State) (t c l vc a dc : Nat) (g : GStep) (gs : List GStep), s.dev.up → s.dev.active → s.dev.drk.failed = false → s.dev.drk.lines = [] → s.dev.drk.waiting = [] →
     s.dev.drk.gantry = [] → s.dev.drk.inbox = [(c, g :: gs)] → c ≤ t → s.dev.stp.outOn → g.mask = 4 → s.dev.rd P.DRK_STATE 2 = 3 →
     s.dev.movePlan 4 [0, 0, nth g.target 2 - s.dev.rdS P.DRK_POS 2, 0] = (l, vc, a, dc) → 0 < l →
     Completes (.gantryCommand t) s fun u =>
       u.rd P.DRK_OWNER = 1 ∧ u.rd P.DRK_STATE 2 = 4 ∧ u.rd P.DRK_REMAIN 2 = 0 ∧ u.drk.gantry = gs ∧ u.drk.inbox = [] ∧ u.rd P.DRK_MOVES = bumped P.DRK_MOVES (s.dev.rd P.DRK_MOVES) ∧
       (∃ y, u.drk.lines = [y] ∧ y.mask = 4 ∧ nth y.target 2 = nth g.target 2 ∧ y.len = l ∧ y.vc = vc ∧ y.a = a ∧ y.dc = dc ∧ y.t0 = (max s.dev.now t) ∧ y.v0 = 0) ∧ u.rest = { s.dev.rest with now := max s.dev.now t, drk := u.drk } ∧
       ItemsBut [] [(P.DRK_OWNER, 0), (P.DRK_STATE, 2), (P.DRK_REMAIN, 2), (P.DRK_MOVES, 0)] u s.dev) ∧
  (∀ (s : State) (t ax : Nat) (x : Line), s.dev.up → s.dev.drk.lines = [x] → ax ≤ 3 → x.mask = 2 ^ ax → x.stop = none → x.done t → s.dev.drk.waiting = [] → s.dev.drk.gantry = [] → s.dev.rd P.DRK_OWNER = 0 →
     Completes (.axisMoveDone t ax) s fun u =>
       u.drk = { s.dev.drk with lines := [] } ∧ u.rd P.DRK_POS ax = ofS 32 (nth x.target ax) ∧ u.rd P.DRK_STATE ax = 3 ∧ u.rest = { s.dev.rest with now := max s.dev.now t, drk := u.drk } ∧ ItemsBut [] [(P.DRK_POS, ax), (P.DRK_STATE, ax)] u s.dev) ∧
  (∀ (s : State) (t ax : Nat) (x : Line), s.dev.up → s.dev.drk.lines = [x] → ax ≤ 3 → x.mask = 2 ^ ax → x.stop.isSome → x.done t → x.home = 0 → x.faults = [] → s.dev.drk.waiting = [] → s.dev.drk.gantry = [] →
     Completes (.axisStopDone t ax) s fun u =>
       u.drk = { s.dev.drk with lines := [] } ∧ u.rd P.DRK_POS ax = ofS 32 (x.posAt ax (max s.dev.now t)) ∧ u.rd P.DRK_STATE ax = 6 ∧
       u.rd P.DRK_REMAIN ax = ofS 32 (nth x.target ax - x.posAt ax (max s.dev.now t)) ∧ u.rest = { s.dev.rest with now := max s.dev.now t, drk := u.drk } ∧ ItemsBut [] [(P.DRK_POS, ax), (P.DRK_STATE, ax), (P.DRK_REMAIN, ax)] u s.dev)

/-- R358 to R362, R364: homing accepts its input, latches `DRK.HOME_OFS` at the release edge and ends IDLE and referenced; a limit reached in a move,
chatter, two following errors in a row and a fault of the tile are axis faults. -/
def Obligations.AxesHomeAndFault : Prop :=
  (∀ (s : State) (t ax : Nat) (x : Line), s.dev.up → s.dev.drk.lines = [x] → ax ≤ 3 → x.mask = 2 ^ ax → x.home = 1 → x.stop = none →
     Completes (.homeInputAccept t ax) s fun u =>
       u.drk = { s.dev.drk with lines := [{ x.halt t x.dc with home := 2 }] } ∧ u.rest = { s.dev.rest with now := max s.dev.now t, drk := u.drk } ∧ ItemsBut [] [(P.DRK_POS, ax)] u s.dev) ∧
  (∀ (s : State) (t ax : Nat) (x : Line), s.dev.up → s.dev.drk.lines = [x] → ax ≤ 3 → x.mask = 2 ^ ax → x.home = 3 → x.stop = none → x.start.length = 4 → x.target.length = 4 →
     Completes (.homeReleaseLatch t ax) s fun u =>
       (∃ y, u.drk = { s.dev.drk with lines := [y] } ∧ y.home = 4 ∧ nth y.start ax = nth x.start ax + (s.dev.rdS P.DRK_HOME_OFS ax - x.posAt ax t) ∧
         nth y.target ax = nth x.target ax + (s.dev.rdS P.DRK_HOME_OFS ax - x.posAt ax t) ∧ (y.stop.map fun z => z.1) = some (t + s.dev.rd P.DRK_DEBOUNCE ax * ms)) ∧ u.rest = { s.dev.rest with now := max s.dev.now t, drk := u.drk } ∧ ItemsBut [] [(P.DRK_POS, ax)] u s.dev) ∧
  (∀ (s : State) (t ax : Nat) (x : Line), s.dev.up → s.dev.drk.lines = [x] → ax ≤ 3 → x.mask = 2 ^ ax → x.stop.isSome → x.done t → x.home = 4 → x.faults = [] → s.dev.drk.waiting = [] → s.dev.drk.gantry = [] →
     Completes (.axisStopDone t ax) s fun u =>
       u.drk = { s.dev.drk with lines := [], homed := s.dev.drk.homed.set ax true } ∧ u.rd P.DRK_STATE ax = 3 ∧ u.rest = { s.dev.rest with now := max s.dev.now t, drk := u.drk } ∧ ItemsBut [] [(P.DRK_POS, ax), (P.DRK_STATE, ax)] u s.dev) ∧
  (∀ (s : State) (t ax : Nat) (positive : Bool) (x : Line), s.dev.up → s.dev.drk.lines = [x] → ax ≤ 3 → x.mask = 2 ^ ax → x.home = 0 → x.stop = none → x.faults = [] → s.dev.drk.waiting = [] → s.dev.rd P.DRK_STATE ax = 4 →
     Completes (.limitTrip t ax positive true) s fun u =>
       u.rd P.DRK_FAULT ax = 1 ∧ u.rd P.DRK_FAULTS ax = bumped P.DRK_FAULTS (s.dev.rd P.DRK_FAULTS ax) ∧ u.rd P.DRK_STATE ax = 5 ∧ (ax, positive) ∈ u.drk.limits ∧
       u.drk.lines = [{ x.halt (max s.dev.now t) (max 1 (s.dev.rd P.DRK_EDEC ax)) with faults := [(ax, false)] }] ∧ u.rest = { s.dev.rest with now := max s.dev.now t, drk := u.drk } ∧ ItemsBut [] [(P.DRK_FAULT, ax), (P.DRK_FAULTS, ax), (P.DRK_STATE, ax), (P.DRK_POS, ax)] u s.dev) ∧
  (∀ (s : State) (t ax input edges : Nat), s.dev.up → ax ≤ 3 → s.dev.rd P.DRK_CHATTER_N ax < edges → s.dev.drk.lines = [] → s.dev.rd P.DRK_STATE ax = 3 → s.dev.rd P.DRK_FAULT ax = 0 →
     Completes (.chatter t ax input edges) s fun u =>
       u.drk = { s.dev.drk with chatter := (ax, t) :: s.dev.drk.chatter.filter fun e => e.1 != ax } ∧ u.rd P.DRK_FAULT ax = 3 ∧ u.rd P.DRK_STATE ax = 7 ∧
       u.rd P.DRK_FAULTS ax = bumped P.DRK_FAULTS (s.dev.rd P.DRK_FAULTS ax) ∧ u.rest = { s.dev.rest with now := max s.dev.now t, drk := u.drk } ∧ ItemsBut [] [(P.DRK_FAULT, ax), (P.DRK_FAULTS, ax), (P.DRK_STATE, ax)] u s.dev) ∧
  (∀ (s : State) (t ax : Nat) (count : Int), s.dev.up → ax ≤ 3 → s.dev.rd P.DRK_ENC_RATIO ax ≠ 0 → s.dev.drk.lines = [] →
     (s.dev.rdS P.DRK_POS ax - count * s.dev.rd P.DRK_ENC_RATIO ax / 65536).natAbs ≤ s.dev.rd P.DRK_FERR_MAX ax →
     Completes (.followingErrorCheck t ax count) s fun u =>
       u.drk = { s.dev.drk with ferr := s.dev.drk.ferr.set ax 0 } ∧ u.rd P.DRK_ENC_POS ax = ofS 32 (count * s.dev.rd P.DRK_ENC_RATIO ax / 65536) ∧ u.rest = { s.dev.rest with now := max s.dev.now t, drk := u.drk } ∧
       ItemsBut [] [(P.DRK_ENC_POS, ax), (P.DRK_FERR_PEAK, ax)] u s.dev) ∧
  (∀ (s : State) (t ax : Nat) (count : Int), s.dev.up → ax ≤ 3 → s.dev.rd P.DRK_ENC_RATIO ax ≠ 0 → s.dev.drk.lines = [] →
     s.dev.rd P.DRK_FERR_MAX ax < (s.dev.rdS P.DRK_POS ax - count * s.dev.rd P.DRK_ENC_RATIO ax / 65536).natAbs → nth s.dev.drk.ferr ax = 1 → s.dev.rd P.DRK_STATE ax = 3 →
     s.dev.rd P.DRK_FAULT ax = 0 →
     Completes (.followingErrorCheck t ax count) s fun u =>
       u.drk = { s.dev.drk with ferr := s.dev.drk.ferr.set ax 2, homed := s.dev.drk.homed.set ax false } ∧ u.rd P.DRK_FAULT ax = 4 ∧ u.rd P.DRK_STATE ax = 7 ∧ u.rest = { s.dev.rest with now := max s.dev.now t, drk := u.drk } ∧
       ItemsBut [] [(P.DRK_ENC_POS, ax), (P.DRK_FERR_PEAK, ax), (P.DRK_FAULT, ax), (P.DRK_FAULTS, ax), (P.DRK_STATE, ax)] u s.dev) ∧
  (∀ (s : State) (t : Nat), s.dev.up →
     Completes (.derrickFault t) s fun u =>
       (∀ ax, ax ≤ 3 → u.rd P.DRK_STATE ax = 7) ∧ u.drk = { s.dev.drk with lines := [], waiting := [], gantry := [], failed := true } ∧ u.rest = { s.dev.rest with now := max s.dev.now t, drk := u.drk } ∧
       ItemsBut [P.DRK_POS] [(P.DRK_STATE, 0), (P.DRK_STATE, 1), (P.DRK_STATE, 2), (P.DRK_STATE, 3)] u s.dev)

/-- R242, R244, R246, R252, R255, R256: an idle slice sends its next frame within the cycle and the dwell budget; a matching acknowledgement ends the
exchange; without one the frame is tried again; frames queued 500 ms are dropped; a slice whose synthesizer unlocks is FAULT. -/
def Obligations.FramesOnAir : Prop :=
  (∀ (s : State) (t i : Nat) (f : TxFrame), s.dev.up → s.dev.active → s.dev.replay = false → i < 4 → (∀ j, j < 4 → s.dev.rd P.STP_SLICE_STATE j = 1) → nth s.dev.air.onAir i = none → s.dev.air.onAir.length = 4 → s.dev.air.queues.length = 4 → nth s.dev.air.stay i ≤ (max s.dev.now t) →
     headFrame (nth s.dev.air.queues i) = some f → f.psdu = none → f.flood = false → f.retries = 0 → (s.dev.airKey f.key).cur.isSome → s.dev.rd P.AIR_FCNT f.key + 1 < 0xF0000000 →
     s.dev.cf P.STP_BCN_OFS = 0 → (cycleOf (max s.dev.now t)) * cycleNs + 10 * ms ≤ (max s.dev.now t) →
     (max s.dev.now t) + (airTime (s.dev.cf P.AIR_RATE i) (32 + f.part.length) + 256 + airTime (s.dev.cf P.AIR_RATE i) 10 + 100) * us ≤ ((cycleOf (max s.dev.now t)) + 1) * cycleNs → s.dev.air.silent = [] →
     s.dev.used i (s.dev.channel i (cycleOf (max s.dev.now t))) (cycleOf (max s.dev.now t)) + airTime (s.dev.cf P.AIR_RATE i) (32 + f.part.length) ≤ (s.dev.profileOf i).budget - s.dev.cf P.AIR_SAFE_RESERVE * 1000 →
     Completes (.airFrameTransmit t i true) s fun u =>
       (∃ p, u.air.onAir = s.dev.air.onAir.set i (some { frame := { f with psdu := some p }, chan := s.dev.channel i (cycleOf (max s.dev.now t)), fin := (max s.dev.now t) + airTime (s.dev.cf P.AIR_RATE i) (32 + f.part.length) * us, wait := (max s.dev.now t) + (airTime (s.dev.cf P.AIR_RATE i) (32 + f.part.length) + (256 + airTime (s.dev.cf P.AIR_RATE i) 10)) * us })) ∧
       u.air.queues = upd s.dev.air.queues i (dropFrame f) ∧ u.rd P.AIR_FCNT f.key = s.dev.rd P.AIR_FCNT f.key + 1 ∧ u.air.lseq = (s.dev.air.lseq + 1) % 256 ∧
       u.air.bins = addBin (dwellKey (s.dev.profileOf i).band (s.dev.channel i (cycleOf (max s.dev.now t)))) ((cycleOf (max s.dev.now t)) / (s.dev.profileOf i).bin) (airTime (s.dev.cf P.AIR_RATE i) (32 + f.part.length)) s.dev.air.bins ∧
       u.rd P.AIR_TX_FRAMES i = bumped P.AIR_TX_FRAMES (s.dev.rd P.AIR_TX_FRAMES i) ∧ u.rest = { s.dev.rest with now := max s.dev.now t, air := u.air } ∧
       ItemsBut [] [(P.AIR_FCNT, f.key), (P.AIR_TX_FRAMES, i), (P.AIR_DWELL_USED, dwellKey (s.dev.profileOf i).band (s.dev.channel i (cycleOf (max s.dev.now t))))] u s.dev) ∧
  (∀ (s : State) (t i : Nat) (psdu sent : Bytes) (o : OnAir), s.dev.up → nth s.dev.air.onAir i = some o → o.frame.psdu = some sent → o.frame.flood = false → o.fin ≤ (max s.dev.now t) → (max s.dev.now t) ≤ o.wait →
     psdu.length = 10 → crc32 (psdu.take 6) = fld psdu 6 4 → fld psdu 0 1 / 64 = 1 → bitOf (fld psdu 0 1) 4 = false → fld psdu 1 1 = fld sent 1 1 → fld psdu 2 2 = fld sent 4 2 →
     fld psdu 4 2 = fld sent 2 2 →
     Completes (.ackReceive t i psdu) s fun u =>
       u.air = { s.dev.air with onAir := s.dev.air.onAir.set i none } ∧ u.rest = { s.dev.rest with now := max s.dev.now t, air := u.air } ∧ ItemsBut [] [] u s.dev) ∧
  (∀ (s : State) (t i : Nat) (o : OnAir), s.dev.up → nth s.dev.air.onAir i = some o → o.wait ≤ (max s.dev.now t) → o.frame.flood = false → o.frame.retries + 1 ≤ s.dev.cf P.AIR_RETRIES →
     Completes (.ackTimeout t i) s fun u =>
       u.air = { s.dev.air with onAir := s.dev.air.onAir.set i none, queues := upd s.dev.air.queues i ({ o.frame with retries := o.frame.retries + 1 } :: ·) } ∧ u.rest = { s.dev.rest with now := max s.dev.now t, air := u.air } ∧ ItemsBut [] [] u s.dev) ∧
  (∀ (s : State) (t i : Nat) (f : TxFrame), s.dev.up → nth s.dev.air.queues i = [f] → f.since + 500 * ms ≤ (max s.dev.now t) → i < s.dev.air.queues.length →
     Completes (.txQueueExpire t i) s fun u =>
       nth u.air.queues i = [] ∧ u.rd P.AIR_TX_DROP = bumped P.AIR_TX_DROP (s.dev.rd P.AIR_TX_DROP) ∧ u.rest = { s.dev.rest with now := max s.dev.now t, air := u.air } ∧ ItemsBut [] [(P.AIR_TX_DROP, 0)] u s.dev) ∧
  (∀ (s : State) (t i : Nat), s.dev.up → i < 4 → s.dev.rd P.STP_SLICE_STATE i ≠ 2 → (∀ j, j < 4 → nth s.dev.air.queues j = []) →
     Completes (.synthUnlock t i) s fun u =>
       u.rd P.STP_SLICE_STATE i = 2 ∧ u.air = { s.dev.air with onAir := s.dev.air.onAir.set i none } ∧ u.rest = { s.dev.rest with now := max s.dev.now t, air := u.air } ∧ ItemsBut [] [(P.STP_SLICE_STATE, i)] u s.dev)

/-- R224 to R226: at its formation instant a slice in service forms the permit beacon of the cycle, with the body of Table 8.8; the next copy of a stop
frame series follows 10 ms after the last, 50 in all. -/
def Obligations.BeaconsAndStopFrames : Prop :=
  (∀ (s : State) (t i : Nat), s.dev.up → s.dev.active → s.dev.replay = false → i < 4 → s.dev.rd P.STP_SLICE_STATE i = 1 → s.dev.cf P.STP_HUB_ID ≠ 0 → (s.dev.airKey 0).cur.isSome → s.dev.rd P.AIR_FCNT 0 + 1 < 0xF0000000 →
     s.dev.tokenOk ((cycleOf (max s.dev.now t)) * cycleNs + (s.dev.cf P.STP_BCN_OFS + 3 * i) * ms) → s.dev.tim.untrusted = false → (cycleOf (max s.dev.now t)) * cycleNs + (s.dev.cf P.STP_BCN_OFS + 3 * i) * ms ≤ (max s.dev.now t) →
     (max s.dev.now t) < (cycleOf (max s.dev.now t)) * cycleNs + (s.dev.cf P.STP_BCN_OFS + 3 * i) * ms + ms → nth s.dev.air.bcnDone i ≠ some (cycleOf (max s.dev.now t)) → s.dev.air.bcnDone.length = 4 → s.dev.air.silent = [] →
     s.dev.used i (s.dev.channel i (cycleOf (max s.dev.now t))) (cycleOf (max s.dev.now t)) + airTime (s.dev.cf P.AIR_RATE i) 72 ≤ (s.dev.profileOf i).budget →
     Completes (.beaconForm t i) s fun u =>
       u.air.bcnDone = s.dev.air.bcnDone.set i (some (cycleOf (max s.dev.now t))) ∧ u.stp.bcnCycle = some (cycleOf (max s.dev.now t)) ∧ u.stp.firstBeacon = false ∧
       (∃ psdu, .safe i (s.dev.channel i (cycleOf (max s.dev.now t))) 0 (s.dev.beaconBody i (cycleOf (max s.dev.now t))) psdu ∈ u.out) ∧ u.rd P.AIR_FCNT 0 = s.dev.rd P.AIR_FCNT 0 + 1 ∧
       u.rd P.STP_BCN_SENT i = bumped P.STP_BCN_SENT (s.dev.rd P.STP_BCN_SENT i) ∧ u.rest = { s.dev.rest with now := max s.dev.now t, air := u.air, stp := u.stp } ∧
       ItemsBut [] [(P.AIR_FCNT, 0), (P.AIR_TX_FRAMES, i), (P.STP_BCN_SENT, i), (P.AIR_DWELL_USED, dwellKey (s.dev.profileOf i).band (s.dev.channel i (cycleOf (max s.dev.now t))))] u s.dev) ∧
  (∀ (s : State) (t : Nat) (se : Series), s.dev.up → s.dev.active → s.dev.replay = false → s.dev.stp.series = some se → se.due ≤ (max s.dev.now t) → s.dev.stp.out.scope ≠ {} → se.next + 1 < 50 → s.dev.slicesIn = [] →
     Completes (.stopCopy t) s fun u =>
       u.stp = { s.dev.stp with series := some { se with next := se.next + 1, due := se.due + 10 * ms } } ∧ u.rest = { s.dev.rest with now := max s.dev.now t, stp := u.stp } ∧ ItemsBut [] [] u s.dev) ∧
  (∀ (s : State) (t i : Nat) (se : Series), s.dev.up → s.dev.active → s.dev.replay = false → s.dev.stp.series = some se → se.due ≤ (max s.dev.now t) → s.dev.stp.out.scope ≠ {} → se.next = 49 → s.dev.slicesIn = [i] →
     (s.dev.airKey 0).cur.isSome → s.dev.rd P.AIR_FCNT 0 + 1 < 0xF0000000 → nth s.dev.air.onAir i = none → s.dev.air.silent = [] →
     s.dev.used i (s.dev.channel i (cycleOf (max s.dev.now t))) (cycleOf (max s.dev.now t)) + airTime (s.dev.cf P.AIR_RATE i) 76 ≤ (s.dev.profileOf i).budget →
     Completes (.stopCopy t) s fun u =>
       u.stp = { s.dev.stp with series := none } ∧ (∃ psdu, .safe i (s.dev.channel i (cycleOf (max s.dev.now t))) 49 ((s.dev.at t).stopBody se) psdu ∈ u.out) ∧ u.rd P.AIR_FCNT 0 = s.dev.rd P.AIR_FCNT 0 + 1 ∧
       u.rest = { s.dev.rest with now := max s.dev.now t, air := u.air, stp := u.stp } ∧ ItemsBut [] [(P.AIR_FCNT, 0), (P.AIR_TX_FRAMES, i), (P.AIR_DWELL_USED, dwellKey (s.dev.profileOf i).band (s.dev.channel i (cycleOf (max s.dev.now t))))] u s.dev)

/-- R249, R252 to R254, R260: a frame whose FCS fails is counted; a secured frame of a known machine that passes every check is delivered as an input of
class 0x02; a message that does not complete in time is dropped. -/
def Obligations.FramesReceived : Prop :=
  (∀ (s : State) (t i sfd : Nat) (f : Bytes), s.dev.up → s.dev.active → s.dev.replay = false → i < 4 → s.dev.rd P.STP_SLICE_STATE i = 1 → cycleOf sfd = (cycleOf (max s.dev.now t)) → 100 * us ≤ sfd % cycleNs → 10 ≤ f.length →
     crc32 (f.take (f.length - 4)) ≠ fld f (f.length - 4) 4 →
     Completes (.airFrameReceive t i sfd f) s fun u =>
       u.rd P.AIR_FCS_ERR i = bumped P.AIR_FCS_ERR (s.dev.rd P.AIR_FCS_ERR i) ∧ u.rest = { s.dev.rest with now := max s.dev.now t } ∧ ItemsBut [] [(P.AIR_FCS_ERR, i)] u s.dev) ∧
  (∀ (s : State) (t i sfd n : Nat) (f key plain : Bytes), s.dev.up → s.dev.active → s.dev.replay = false → i < 4 → s.dev.rd P.STP_SLICE_STATE i = 1 → cycleOf sfd = (cycleOf (max s.dev.now t)) → 100 * us ≤ sfd % cycleNs →
     crc32 (f.take (f.length - 4)) = fld f (f.length - 4) 4 → fld f 0 1 = 0 → fld f 2 2 = s.dev.side → fld f 4 2 = 0x0100 + n → fld f 6 2 = 0x0100 + n → fld f 8 2 = s.dev.side →
     1 ≤ n → n ≤ 96 → s.dev.com.jobMachines.contains n → s.dev.air.links = [] → s.dev.air.heard = [] → frameFieldsOk f → fld f 11 1 = 64 → fld f 18 1 = 0 →
     s.dev.headerKey f = some (n, key) → plain = xorB (cut f 20 (f.length - 32)) (ccmStream key (airNonce (0x0100 + n) (s.dev.cf P.STP_HUB_ID) 1 (fld f 10 1) (fld f 12 4)) 1 (f.length - 32)) →
     ccmTag key (airNonce (0x0100 + n) (s.dev.cf P.STP_HUB_ID) 1 (fld f 10 1) (fld f 12 4)) (cut f 6 14) plain 8 = cut f (20 + (f.length - 32)) 8 →
     (s.dev.window (0x0100 + n) n (fld f 10 1) (fld f 12 4)).1 → fld plain 0 1 = 0x34 → plain ≠ [] → s.dev.rd P.MSH_ROUTE n = 0 →
     Completes (.airFrameReceive t i sfd f) s fun u =>
       (∃ q, u.chutes = upd s.dev.chutes 4 fun c => { c with waiting := c.waiting ++ [{ stamp := sfd, cls := 2, idx := i, seq := q, payload := plain }] }) ∧
       (s.dev.window (0x0100 + n) n (fld f 10 1) (fld f 12 4)).2 ∈ u.air.wins ∧ u.rd P.AIR_RX_FRAMES i = bumped P.AIR_RX_FRAMES (s.dev.rd P.AIR_RX_FRAMES i) ∧ u.rd P.MSH_HOPS n = 0 ∧
       u.rest = { s.dev.rest with now := max s.dev.now t, air := u.air, chutes := u.chutes, cyc := { quietCyc s.dev.cyc with seqs := u.cyc.seqs } } ∧ ItemsBut [] [(P.AIR_RX_FRAMES, i), (P.MSH_HOPS, n), (P.MSH_SEEN_USED, 0)] u s.dev) ∧
  (∀ (s : State) (t : Nat) (r : Reasm), s.dev.up → s.dev.air.reasm = [r] → r.opened + s.dev.cf P.AIR_REASM_MS * ms ≤ (max s.dev.now t) → s.dev.air.orphans = [] →
     Completes (.reasmExpire t) s fun u =>
       u.air = { s.dev.air with reasm := [], orphans := [(r.origin, r.mid, (max s.dev.now t))] } ∧ u.rd P.AIR_REASM_DROP = bumped P.AIR_REASM_DROP (s.dev.rd P.AIR_REASM_DROP) ∧ u.rest = { s.dev.rest with now := max s.dev.now t, air := u.air } ∧ ItemsBut [] [(P.AIR_REASM_DROP, 0)] u s.dev)

/-- R267 to R269: at the boundary of its cycle the next key of an instance becomes current, with the next epoch and a frame counter of 0; deliveries of keys
and the link configuration are queued for their machine. -/
def Obligations.KeysAndLinkConfiguration : Prop :=
  (∀ (s : State) (t n a : Nat) (key : Bytes), s.dev.up → 1 ≤ n → n ≤ 96 → (s.dev.airKey n).roll = some a → (s.dev.airKey n).next = some key → (s.dev.airKey n).inst = n →
     notLater a (u32 (cycleOf (max s.dev.now t))) → s.dev.air.deliveries = [] →
     Completes (.keyRollover t n) s fun u =>
       u.airKey n = { s.dev.airKey n with cur := some key, next := none, prev := (s.dev.airKey n).cur, roll := none, mark := 65536, grace := (max s.dev.now t) + s.dev.cf P.AIR_EPOCH_GRACE * sec } ∧
       u.rd P.AIR_EPOCH n = (s.dev.rd P.AIR_EPOCH n + 1) % 256 ∧ u.rd P.AIR_FCNT n = 0 ∧ u.isSticky P.AIR_FCNT n = false ∧ u.rest = { s.dev.rest with now := max s.dev.now t, air := u.air } ∧ ItemsBut [] [(P.AIR_EPOCH, n), (P.AIR_FCNT, n)] u s.dev) ∧
  (∀ (s : State) (t n i kclass : Nat) (x : Delivery), s.dev.up → s.dev.active → s.dev.replay = false → s.dev.air.deliveries = [x] → x.machine = n → x.kind = 1 → x.kclass = kclass → x.done = false → x.sent = none →
     fragments x.msg = [(0, 0, x.msg)] → (s.dev.airKey n).cur.isSome → s.dev.rd P.AIR_FCNT n < fcntStick → s.dev.sliceFor n = some i → (nth s.dev.air.queues i).length < 256 → i < s.dev.air.queues.length → s.dev.rd P.MSH_ROUTE n ≠ 1 → 
     Completes (.keyDeliverySend t n kclass) s fun u =>
       nth u.air.queues i = nth s.dev.air.queues i ++ [{ row := 4, since := (max s.dev.now t), type := 0x3A, machine := n, key := n, mid := s.dev.air.mid, part := x.msg, msg := x.msg }] ∧ u.air.mid = (s.dev.air.mid + 1) % 65536 ∧
       u.air.deliveries = [{ x with sent := some (max s.dev.now t) }] ∧ u.rest = { s.dev.rest with now := max s.dev.now t, air := u.air } ∧ ItemsBut [] [] u s.dev) ∧
  (∀ (s : State) (t n i : Nat), s.dev.up → s.dev.active → s.dev.replay = false → s.dev.air.deliveries = [] → 1 ≤ n → n ≤ 96 → (s.dev.airKey n).cur.isSome → s.dev.rd P.AIR_FCNT n < fcntStick → s.dev.sliceFor n = some i → (nth s.dev.air.queues i).length < 256 → i < s.dev.air.queues.length → s.dev.rd P.MSH_ROUTE n ≠ 1 → 
     Completes (.linkConfigSend t n) s fun u =>
       nth u.air.queues i = nth s.dev.air.queues i ++ [{ row := 4, since := (max s.dev.now t), type := 0x39, machine := n, key := n, mid := s.dev.air.mid, part := le 1 0x39 ++ le 1 n ++ s.dev.linkValues n ++ le 2 0 ++ le 4 (u32 ((cycleOf (max s.dev.now t)) + 1)), msg := le 1 0x39 ++ le 1 n ++ s.dev.linkValues n ++ le 2 0 ++ le 4 (u32 ((cycleOf (max s.dev.now t)) + 1)) }] ∧ u.air.mid = (s.dev.air.mid + 1) % 65536 ∧
       (u.air.deliveries.map fun x => (x.machine, x.kind, x.sent, x.done)) = [(n, 2, some (max s.dev.now t), false)] ∧ u.rest = { s.dev.rest with now := max s.dev.now t, air := u.air } ∧ ItemsBut [] [] u s.dev)

/-- R19, R25 to R27, R35, R241: a boundary begins a cycle and the changes of the air link; at C(k) the unit commits the next cycle, which is then the
committed one; a commit 12 ms late is an overrun, and one that is a cycle late a commit fault, which ends control. -/
def Obligations.CyclesAndCommits : Prop :=
  (∀ (s : State) (t o : Nat), s.dev.up → s.dev.active → s.dev.replay = false → s.dev.cyc.origin = some o → o < (cycleOf (max s.dev.now t)) → s.dev.stp.bcnCycle ≠ some ((cycleOf (max s.dev.now t)) - 1) →
     s.dev.rd P.STP_SLICE_STATE 0 ≠ 2 →
     Completes (.cycleBoundary t) s fun u =>
       u.rd P.CYC_NOW = u32 (cycleOf (max s.dev.now t)) ∧ u.rd P.STP_WITHHELD = bumped P.STP_WITHHELD (s.dev.rd P.STP_WITHHELD) ∧
       u.rd P.STP_SLICE_STATE 0 = (if s.dev.rd P.AIR_SLICE_EN 0 = 1 then 1 else 0) ∧ u.air.silent = [] ∧ u.air.nvCycle = (cycleOf (max s.dev.now t)) ∧ u.rest = { s.dev.rest with now := max s.dev.now t, air := u.air, staged := u.staged, dsp := u.dsp } ∧
       ItemsBut [P.CYC_NOW, P.STP_WITHHELD, P.STP_SLICE_STATE, P.AIR_CHANNEL, P.AIR_DWELL_USED, P.AIR_FCNT, P.AIR_TX_DROP] [] u s.dev) ∧
  (∀ (s : State) (t us copyUs : Nat), s.dev.up → s.dev.commits → s.dev.dsp.failed = false → s.dev.commitAt s.dev.cyc.next ≤ (max s.dev.now t) → s.dev.host.queue = [] → us ≤ 12000 →
     Completes (.cycleCommit t us copyUs) s fun u =>
       u.cyc.next = s.dev.cyc.next + 1 ∧ u.rd P.CYC_COMMITTED = u32 s.dev.cyc.next ∧ u.committedOnce = true ∧ u.cyc.flagCold = false ∧ u.cyc.flagStep = false ∧
       u.cyc.overrun = false ∧ u.cyc.missed = false ∧ u.cyc.lastCommitAt = (max s.dev.now t) ∧ u.air.nvWin = u.air.wins) ∧
  (∀ (s : State) (t : Nat), s.dev.up → s.dev.commits → s.dev.cyc.overrun = false → s.dev.commitAt s.dev.cyc.next + 12 * ms ≤ (max s.dev.now t) →
     Completes (.commitOverrun t) s fun u =>
       u.cyc.overrun = true ∧ u.rd P.CYC_OVERRUN = bumped P.CYC_OVERRUN (s.dev.rd P.CYC_OVERRUN) ∧
       u.rest = { s.dev.rest with now := max s.dev.now t, cyc := { quietCyc s.dev.cyc with overrun := true } } ∧ ItemsBut [] [(P.CYC_OVERRUN, 0)] u s.dev) ∧
  (∀ (s : State) (t : Nat), s.dev.up → s.dev.commits → s.dev.cyc.missed = false → s.dev.commitAt (s.dev.cyc.next + 1) ≤ (max s.dev.now t) →
     Completes (.commitMissed t) s fun u =>
       u.cyc.missed = true ∧ (s.dev.active → s.dev.peer.yielding = false → u.rd P.DPX_GIVEUP_CAUSE = 1 ∧ u.peer.yielding = true ∧ u.peer.seatDriven = false) ∧ u.rest = { s.dev.rest with now := max s.dev.now t, cyc := { quietCyc s.dev.cyc with missed := true }, peer := u.peer } ∧ ItemsBut [] [(P.DPX_GIVEUP_CAUSE, 0)] u s.dev) ∧
  (∀ (s : State) (t at_ frac us n : Nat), s.dev.up → s.dev.commits → s.dev.tim.stepAt = some at_ → at_ ≤ (max s.dev.now t) → s.dev.cyc.next = (cycleOf (max s.dev.now t)) → (∀ o, o < 4 → nth s.dev.tim.tpMode o = 0) →
     Completes (.stepApply t (-n) frac us) s fun u =>
       u.now = (max s.dev.now t) + n ∧ u.tim.frac = frac % 2 ^ 32 ∧ u.tim.stepAt = none ∧ u.rd P.TIM_STEP = 0 ∧ u.rd P.TIM_STEP_COUNT = bumped P.TIM_STEP_COUNT (s.dev.rd P.TIM_STEP_COUNT) ∧
       u.rd P.TIM_STATE = 4 ∧ u.cyc.next = ((max s.dev.now t) + n + cycleNs - 1) / cycleNs ∧ u.cyc.skipped = u.cyc.next - (cycleOf (max s.dev.now t)) ∧ u.cyc.flagStep = true ∧ (∀ c ∈ u.chutes, c.waiting = []))

/-- R115, R153, R166, R175, R207: a Chisel unit that fails is out; a fault of the Slate or the coverage Tile ends control as a commit fault; a job image is
checked and its tracks generated; an allotment is repeated to its machine. -/
def Obligations.ComputingTiles : Prop :=
  (∀ (s : State) (t i : Nat), s.dev.up → i < 4 → s.dev.chiselOut.contains i = false →
     Completes (.chiselUnitFault t i) s fun u =>
       u.chiselOut = i :: s.dev.chiselOut ∧ u.rest = { s.dev.rest with now := max s.dev.now t, chiselOut := i :: s.dev.chiselOut } ∧ ItemsBut [] [] u s.dev) ∧
  (∀ (s : State) (t : Nat), s.dev.up →
     Completes (.slateFault t) s fun u => (s.dev.active → s.dev.peer.yielding = false → u.rd P.DPX_GIVEUP_CAUSE = 1 ∧ u.peer.yielding = true ∧ u.peer.seatDriven = false) ∧ u.rest = { s.dev.rest with now := max s.dev.now t, peer := u.peer } ∧ ItemsBut [] [(P.DPX_GIVEUP_CAUSE, 0)] u s.dev) ∧
  (∀ (s : State) (t : Nat), s.dev.up →
     Completes (.coverageFault t) s fun u => (s.dev.active → s.dev.peer.yielding = false → u.rd P.DPX_GIVEUP_CAUSE = 1 ∧ u.peer.yielding = true ∧ u.peer.seatDriven = false) ∧ u.rest = { s.dev.rest with now := max s.dev.now t, peer := u.peer } ∧ ItemsBut [] [(P.DPX_GIVEUP_CAUSE, 0)] u s.dev) ∧
  (∀ (s : State) (t digest : Nat) (pieces : List Piece) (l : JobLoad), s.dev.up → s.dev.com.job.load = some l → l.gen = none →
     Completes (.trackGenerationDone t pieces digest) s fun u =>
       (∀ e, checkImage (s.dev.cf P.COV_CELL) l.image = .error e → u.com.job.load = some { l with gen := some { bad := some e } }) ∧
       (∀ j, checkImage (s.dev.cf P.COV_CELL) l.image = .ok j → (pieces.filter fun p => s.dev.cf P.JOB_MIN_TRACK ≤ pathLen p.points).length ≤ 8192 →
         u.com.job.load = some { l with gen := some { job := j, pieces := (pieces.filter fun p => s.dev.cf P.JOB_MIN_TRACK ≤ pathLen p.points), digest := digest % 2 ^ 64 } }) ∧
       (∀ j, checkImage (s.dev.cf P.COV_CELL) l.image = .ok j → 8192 < (pieces.filter fun p => s.dev.cf P.JOB_MIN_TRACK ≤ pathLen p.points).length →
         u.com.job.load = some { l with gen := some { bad := some { reason := 8, kind := 5 } } }) ∧ u.rest = { s.dev.rest with now := max s.dev.now t, com := u.com } ∧ ItemsBut [] [] u s.dev) ∧
  (∀ (s : State) (t slot n i : Nat) (r : Res), s.dev.up → s.dev.active → s.dev.replay = false → s.dev.com.slt.res = [r] → r.slot = slot → r.state = 1 → r.machine = n → n ≠ 0 →
     fragments ([0x35#8] ++ r.bytes) = [(0, 0, [0x35#8] ++ r.bytes)] → (s.dev.airKey n).cur.isSome → s.dev.rd P.AIR_FCNT n < fcntStick → s.dev.sliceFor n = some i → (nth s.dev.air.queues i).length < 256 → i < s.dev.air.queues.length → s.dev.rd P.MSH_ROUTE n ≠ 1 →
     Completes (.allotmentRepeat t slot) s fun u =>
       nth u.air.queues i = nth s.dev.air.queues i ++ [{ row := 5, since := (max s.dev.now t), type := 0x35, machine := n, key := n, mid := s.dev.air.mid, part := [0x35#8] ++ r.bytes, msg := [0x35#8] ++ r.bytes }] ∧
       u.air.mid = (s.dev.air.mid + 1) % 65536 ∧ u.rest = { s.dev.rest with now := max s.dev.now t, air := u.air } ∧ ItemsBut [] [] u s.dev)

/-- R368, R369, R381, R383, R385, R386: a pending challenge lapses after 10 s and a lockout after 60; bytes without a delimiter are discarded; `HU_CTS`
stops and resumes transmission; a frame with a fault is dropped and counted; an endpoint that is silent loses its subscription and an image its load. -/
def Obligations.HostPortTimers : Prop :=
  (∀ (s : State) (t i : Nat) (x : Session), s.dev.up → s.dev.slotAt i = some x → x.pending → x.begun + 10 * sec ≤ (max s.dev.now t) →
     Completes (.authChallengeExpire t i) s fun u =>
       u.host.slots = s.dev.host.slots.set i none ∧ u.rest = { s.dev.rest with now := max s.dev.now t, host := { quietHost s.dev.host with slots := (s.dev.host.slots.set i none).map quietSlot } } ∧ ItemsBut [] [] u s.dev) ∧
  (∀ (s : State) (t l : Nat) (ep : Ep) (f : AuthFail), s.dev.up → s.dev.host.fails = [f] → f.ep = ep → f.lockedFrom = some l → l + 60 * sec ≤ (max s.dev.now t) →
     Completes (.authLockoutEnd t ep) s fun u =>
       u.host.fails = [] ∧ u.rest = { s.dev.rest with now := max s.dev.now t, host := { quietHost s.dev.host with fails := [] } } ∧ ItemsBut [] [] u s.dev) ∧
  (∀ (s : State) (t last n : Nat), s.dev.up → s.dev.rd P.HST_SERIAL_EN ≠ 0 → n ≠ 0 → last + 10 * ms < (max s.dev.now t) →
     Completes (.serialGapTimeout t last n) s fun u =>
       u.host.discard = true ∧ u.host.rxFill = min (s.dev.host.rxFill - n) 16384 ∧ u.rd P.HST_BAD_FRAMES 1 = bumped P.HST_BAD_FRAMES (s.dev.rd P.HST_BAD_FRAMES 1) ∧
       u.rest = { s.dev.rest with now := max s.dev.now t, host := { quietHost s.dev.host with discard := true, rxFill := u.host.rxFill, rtsOff := u.host.rtsOff } } ∧ ItemsBut [] [(P.HST_BAD_FRAMES, 1)] u s.dev) ∧
  (∀ (s : State) (t fill : Nat), s.dev.up →
     Completes (.huCtsChange t true fill) s fun u =>
       u.host.ctsStop = true ∧ u.host.txHeld = s.dev.host.txHeld ∧ u.host.rxFill = min fill 16384 ∧
       u.rest = { s.dev.rest with now := max s.dev.now t, host := { quietHost s.dev.host with ctsStop := true, rxFill := u.host.rxFill, rtsOff := u.host.rtsOff } } ∧ ItemsBut [] [] u s.dev) ∧
  (∀ (s : State) (t fill : Nat), s.dev.up →
     Completes (.huCtsChange t false fill) s fun u =>
       u.host.ctsStop = false ∧ u.host.txHeld = [] ∧ (∀ o ∈ s.dev.host.txHeld, o ∈ u.out) ∧
       u.rest = { s.dev.rest with now := max s.dev.now t, host := { quietHost s.dev.host with ctsStop := false, rxFill := u.host.rxFill, rtsOff := u.host.rtsOff } } ∧ ItemsBut [] [] u s.dev) ∧
  (∀ (s : State) (t why flags fill : Nat) (h : HostCtx) (p : Bytes), s.dev.up → h.ep.tr = 0 → 1 ≤ why → why ≤ 4 →
     Completes (.badMailFrame t why flags fill h p) s fun u =>
       u.rd P.HST_BAD_FRAMES 0 = bumped P.HST_BAD_FRAMES (s.dev.rd P.HST_BAD_FRAMES 0) ∧ u.rest = { s.dev.rest with now := max s.dev.now t, host := { quietHost s.dev.host with discard := false } } ∧ ItemsBut [] [(P.HST_BAD_FRAMES, 0)] u s.dev) ∧
  (∀ (s : State) (t why flags fill : Nat) (h : HostCtx) (p : Bytes), s.dev.up → h.ep.tr = 1 → s.dev.rd P.HST_SERIAL_EN ≠ 0 → why = 6 →
     Completes (.badMailFrame t why flags fill h p) s fun u =>
       u.rd P.HST_SERIAL_OVF = bumped P.HST_SERIAL_OVF (s.dev.rd P.HST_SERIAL_OVF) ∧
       u.rest = { s.dev.rest with now := max s.dev.now t, host := { quietHost s.dev.host with discard := false, rxFill := u.host.rxFill, rtsOff := u.host.rtsOff } } ∧ ItemsBut [] [(P.HST_SERIAL_OVF, 0)] u s.dev) ∧
  (∀ (s : State) (t : Nat) (x : Sub), s.dev.up → s.dev.host.subs = [x] → x.mask ≠ 0 → x.last + s.dev.cf P.HST_SUB_LAPSE * sec ≤ (max s.dev.now t) →
     Completes (.subscriptionLapse t x.ep) s fun u =>
       u.host.subs = [{}] ∧ u.rest = { s.dev.rest with now := max s.dev.now t, host := { quietHost s.dev.host with subs := [{}] } } ∧ ItemsBut [] [] u s.dev) ∧
  (∀ (s : State) (t : Nat) (l : Load), s.dev.up → s.dev.host.loads = [l] → l.target = 0x22 → l.done = false → l.last + s.dev.cf P.HST_LOAD_IDLE * sec ≤ (max s.dev.now t) →
     Completes (.loadIdleAbandon t 0x22) s fun u =>
       u.host.loads = [] ∧ u.rest = { s.dev.rest with now := max s.dev.now t, host := { quietHost s.dev.host with loads := [] } } ∧ ItemsBut [] [] u s.dev)

/-- R32, R41, R374, R378 to R380: a SET writes its items, each staged for the end of its cycle's commit; SET_BLOCK writes a block; GET and GET_BLOCK are
answered with the value that the last commit left; JOURNAL_HOLD is written at once. -/
def Obligations.ItemsReadAndWritten : Prop :=
  (∀ (s : State) (t : Nat) (h : HostCtx) (lv : Nat) (sl : Option Nat) (v : Nat), Accepted true s.dev t h (le 1 2 ++ le 1 0 ++ le 2 1 ++ entryBytes P.AIR_RETRIES 0 (le 1 v)) lv sl → 2 ≤ lv → v ≤ 7 → 
     Completes (.set t h [(P.AIR_RETRIES, 0, le 1 v)]) s fun u =>
       Waits s.dev u h (le 1 2 ++ le 1 0 ++ le 2 1 ++ entryBytes P.AIR_RETRIES 0 (le 1 v)) (.done {}) 0 ∧
       u.rd P.AIR_RETRIES = v ∧
       (∃ k, u.staged = s.dev.staged ++ [{ cycle := k, key := regKey P.AIR_RETRIES 0, old := s.dev.rd P.AIR_RETRIES }]) ∧
       u.rest = { mailRest u s.dev t with staged := u.staged } ∧
       ItemsBut (mailItems ++ []) [(P.AIR_RETRIES, 0)] u s.dev) ∧
  (∀ (s : State) (t : Nat) (h : HostCtx) (lv : Nat) (sl : Option Nat) (b : Bytes), Accepted true s.dev t h (le 1 4 ++ le 1 0 ++ le 2 P.DRK_PARK_POS ++ le 2 0 ++ b) lv sl → 2 ≤ lv → b.length = 16 → 
     Completes (.setBlock t h P.DRK_PARK_POS 0 b) s fun u =>
       Waits s.dev u h (le 1 4 ++ le 1 0 ++ le 2 P.DRK_PARK_POS ++ le 2 0 ++ b) (.done {}) 0 ∧
       u.rd P.DRK_PARK_POS = unle b ∧
       (∃ k, u.staged = s.dev.staged ++ [{ cycle := k, key := regKey P.DRK_PARK_POS 0, old := s.dev.rd P.DRK_PARK_POS }]) ∧
       u.rest = { mailRest u s.dev t with staged := u.staged } ∧
       ItemsBut (mailItems ++ []) [(P.DRK_PARK_POS, 0)] u s.dev) ∧
  (∀ (s : State) (t : Nat) (h : HostCtx) (lv : Nat) (sl : Option Nat), Accepted true s.dev t h (le 1 1 ++ le 1 0 ++ le 2 1 ++ (le 2 P.JOB_STATE ++ le 2 0)) lv sl → s.dev.committedOnce → 
     Completes (.get t h [(P.JOB_STATE, 0)]) s fun u =>
       Answered u h (le 1 1 ++ le 1 0 ++ le 2 1 ++ (le 2 P.JOB_STATE ++ le 2 0)) ({ status := 0, body := le 2 P.JOB_STATE ++ le 2 0 ++ le 1 0 ++ le 1 0 ++ le 2 1 ++ s.dev.view.item P.JOB_STATE 0 }) ∧
       u.rest = mailRest u s.dev t ∧
       ItemsBut (mailItems ++ []) [] u s.dev) ∧
  (∀ (s : State) (t : Nat) (h : HostCtx) (lv : Nat) (sl : Option Nat), Accepted true s.dev t h (getBlockBytes P.JOB_STATE 0 0 0) lv sl → s.dev.committedOnce → 
     Completes (.getBlock t h P.JOB_STATE 0 0 0) s fun u =>
       Answered u h (getBlockBytes P.JOB_STATE 0 0 0) ({ status := 0, body := le 2 P.JOB_STATE ++ le 2 0 ++ le 4 0 ++ le 2 1 ++ le 4 1 ++ s.dev.view.item P.JOB_STATE 0 }) ∧
       u.rest = mailRest u s.dev t ∧
       ItemsBut (mailItems ++ []) [] u s.dev) ∧
  (∀ (s : State) (t : Nat) (h : HostCtx) (lv : Nat) (sl : Option Nat), Accepted true s.dev t h (setValue P.CYC_JOURNAL_HOLD 0 1) lv sl → 2 ≤ lv → 
     Completes (.journalHold t h) s fun u =>
       Waits s.dev u h (setValue P.CYC_JOURNAL_HOLD 0 1) (.done {}) 0 ∧
       u.rd P.CYC_JOURNAL_HOLD = 1 ∧
       u.cyc.journal = { s.dev.cyc.journal with hold := true } ∧
       u.rest = { mailRest u s.dev t with cyc := { (mailRest u s.dev t).cyc with journal := u.cyc.journal } } ∧
       ItemsBut (mailItems ++ []) [(P.CYC_JOURNAL_HOLD, 0)] u s.dev) ∧
  (∀ (s : State) (t : Nat) (h : HostCtx) (lv : Nat) (sl : Option Nat), Accepted true s.dev t h (setValue P.CYC_JOURNAL_HOLD 0 0) lv sl → 2 ≤ lv → 
     Completes (.journalRelease t h) s fun u =>
       Waits s.dev u h (setValue P.CYC_JOURNAL_HOLD 0 0) (.done {}) 0 ∧
       u.rd P.CYC_JOURNAL_HOLD = 0 ∧
       u.cyc.journal = { s.dev.cyc.journal with hold := false } ∧
       u.rest = { mailRest u s.dev t with cyc := { (mailRest u s.dev t).cyc with journal := u.cyc.journal } } ∧
       ItemsBut (mailItems ++ []) [(P.CYC_JOURNAL_HOLD, 0)] u s.dev)

/-- R382, R383, R385, R386: CLOSE ends the session of its frame, ECHO returns its argument, RESTART is answered before the restart, SUBSCRIBE takes a place,
AUTH_BEGIN takes a slot with a challenge and AUTH_PROVE opens the session that a right proof shows. -/
def Obligations.SessionsAndSubscriptions : Prop :=
  (∀ (s : State) (t : Nat) (h : HostCtx) (lv : Nat) (sl : Option Nat) (i : Nat) (x : Session), Accepted true s.dev t h (le 1 5 ++ le 1 1 ++ le 2 0) lv sl → sl = some i → s.dev.slotAt i = some x → x.pending = false → x.closing = false → i < s.dev.host.slots.length → 
     Completes (.close t h) s fun u =>
       Waits s.dev u h (le 1 5 ++ le 1 1 ++ le 2 0) (.done {}) 1 ∧
       ((u.slotAt i).map fun y => y.closing) = some true ∧
       u.rest = { mailRest u s.dev t with rcd := { quietRcd s.dev.rcd with clears := s.dev.rcd.clears.filter (·.sid != i) } } ∧
       ItemsBut (mailItems ++ []) [] u s.dev) ∧
  (∀ (s : State) (t : Nat) (h : HostCtx) (lv : Nat) (sl : Option Nat) (arg : Bytes), Accepted true s.dev t h (le 1 5 ++ le 1 2 ++ le 2 0 ++ arg) lv sl → 
     Completes (.echo t h arg) s fun u =>
       Waits s.dev u h (le 1 5 ++ le 1 2 ++ le 2 0 ++ arg) (.done { body := arg }) 0 ∧
       u.rest = mailRest u s.dev t ∧
       ItemsBut (mailItems ++ []) [] u s.dev) ∧
  (∀ (s : State) (t : Nat) (h : HostCtx) (lv : Nat) (sl : Option Nat), Accepted true s.dev t h (le 1 5 ++ le 1 3 ++ le 2 0) lv sl → lv = 3 → 
     Completes (.restart t h) s fun u =>
       Waits s.dev u h (le 1 5 ++ le 1 3 ++ le 2 0) (.done {}) 2 ∧
       u.rest = mailRest u s.dev t ∧
       ItemsBut (mailItems ++ []) [] u s.dev) ∧
  (∀ (s : State) (t : Nat) (h : HostCtx) (lv : Nat) (sl : Option Nat) (target : Nat), Accepted true s.dev t h (le 1 6 ++ le 1 target ++ le 1 1 ++ le 1 0) lv sl → target ≤ 8 → s.dev.host.subs = [] → 
     Completes (.subscribe t h target 1) s fun u =>
       Waits s.dev u h (le 1 6 ++ le 1 target ++ le 1 1 ++ le 1 0) (.done {}) 0 ∧
       u.host.subs.map (fun x => (x.ep, x.mask, x.last)) = [(h.ep, 2 ^ target, (max s.dev.now t))] ∧
       u.rest = mailRest u s.dev t ∧
       ItemsBut (mailItems ++ []) [] u s.dev) ∧
  (∀ (s : State) (t : Nat) (h : HostCtx) (lv : Nat) (sl : Option Nat) (level : Nat) (nonce : Bytes), Accepted true s.dev t h (le 1 7 ++ le 1 level ++ le 2 0 ++ nonce) lv sl → nonce.length = 16 → 1 ≤ level → level ≤ 3 → h.trailer = none → s.dev.host.slots = [none, none, none, none] → s.dev.host.fails = [] → 
     Completes (.authBegin t h level nonce) s fun u =>
       Waits s.dev u h (le 1 7 ++ le 1 level ++ le 2 0 ++ nonce) (.done { body := le 1 0 ++ le 3 0 ++ (hmac (s.dev.levelKey level) (ascii "CHAL" ++ le 8 (stamp64 (max s.dev.now t)) ++ le 8 (s.dev.rd P.HST_AUTH_COUNT))).take 16 }) 0 ∧
       u.host.slots = [some { ep := h.ep, level := level, begun := (max s.dev.now t), hn := nonce, ch := (hmac (s.dev.levelKey level) (ascii "CHAL" ++ le 8 (stamp64 (max s.dev.now t)) ++ le 8 (s.dev.rd P.HST_AUTH_COUNT))).take 16, last := (max s.dev.now t) }, none, none, none] ∧
       u.rd P.HST_AUTH_COUNT = bumped P.HST_AUTH_COUNT (s.dev.rd P.HST_AUTH_COUNT) ∧
       u.rest = mailRest u s.dev t ∧
       ItemsBut (mailItems ++ [P.HST_AUTH_COUNT]) [] u s.dev) ∧
  (∀ (s : State) (t : Nat) (h : HostCtx) (lv : Nat) (sl : Option Nat) (proof : Bytes) (x : Session), Accepted true s.dev t h (le 1 8 ++ le 1 0 ++ le 2 0 ++ proof) lv sl → h.trailer = none → s.dev.host.slots = [some x, none, none, none] → x.ep = h.ep → x.pending → (max s.dev.now t) ≤ x.begun + 10 * sec → proof = hmac (s.dev.levelKey x.level) (ascii "HOST" ++ x.ch ++ x.hn ++ (le 1 x.level ++ le 1 0)) → 
     Completes (.authProve t h 0 proof) s fun u =>
       Waits s.dev u h (le 1 8 ++ le 1 0 ++ le 2 0 ++ proof) (.done { body := le 1 x.level ++ le 3 0 ++ hmac (s.dev.levelKey x.level) (ascii "UNIT" ++ x.hn ++ x.ch ++ (le 1 x.level ++ le 1 0)) }) 0 ∧
       u.host.slots = [some { x with pending := false, ks := hmac (s.dev.levelKey x.level) (ascii "SESS" ++ x.ch ++ x.hn), last := (max s.dev.now t) }, none, none, none] ∧
       u.rest = mailRest u s.dev t ∧
       ItemsBut (mailItems ++ []) [] u s.dev)

/-- R152, R191, R381, R432, R435, R436, R476: the first chunk of an image opens its load; LOG_READ is answered from the region; a log clear is requested and
then confirmed with the proof of its challenge. -/
def Obligations.ImagesAndLogOverMail : Prop :=
  (∀ (s : State) (t : Nat) (h : HostCtx) (lv : Nat) (sl : Option Nat) (total : Nat) (data : Bytes), Accepted true s.dev t h (loadBytes 0x20 total 0 data) lv sl → 2 ≤ lv → 1 ≤ data.length → data.length < total → total < 2 ^ 32 → s.dev.host.loads = [] → s.dev.rd P.JOB_STATE = 0 → s.dev.ctrls = [] → s.dev.com.job.load = none → 
     Completes (.loadJobImage t h total 0 data) s fun u =>
       Waits s.dev u h (loadBytes 0x20 total 0 data) (.done {}) 0 ∧
       u.host.loads = [{ target := 0x20, total := total, data := data, last := (max s.dev.now t), tag := h.tag, ep := h.ep }] ∧
       (∃ k, u.ctrls = [(k, P.JOB_STATE, 0, le 1 1)]) ∧
       u.rest = { mailRest u s.dev t with ctrls := u.ctrls, host := { (mailRest u s.dev t).host with loads := u.host.loads } } ∧
       ItemsBut (mailItems ++ []) [] u s.dev) ∧
  (∀ (s : State) (t : Nat) (h : HostCtx) (lv : Nat) (sl : Option Nat) (total : Nat) (data : Bytes), Accepted true s.dev t h (loadBytes 0x22 total 0 data) lv sl → 2 ≤ lv → 1 ≤ data.length → data.length < total → total < 2 ^ 32 → s.dev.host.loads = [] → s.dev.rd P.JOB_STATE = 2 → s.dev.ctrls = [] → s.dev.com.job.load = none → 
     Completes (.loadCoverageImage t h total 0 data) s fun u =>
       Waits s.dev u h (loadBytes 0x22 total 0 data) (.done {}) 0 ∧
       u.host.loads = [{ target := 0x22, total := total, data := data, last := (max s.dev.now t), tag := h.tag, ep := h.ep }] ∧
       u.rest = { mailRest u s.dev t with host := { (mailRest u s.dev t).host with loads := u.host.loads } } ∧
       ItemsBut (mailItems ++ []) [] u s.dev) ∧
  (∀ (s : State) (t : Nat) (h : HostCtx) (lv : Nat) (sl : Option Nat) (total : Nat) (data : Bytes), Accepted true s.dev t h (loadBytes 0x7C total 0 data) lv sl → 3 ≤ lv → 1 ≤ data.length → data.length < total → total < 2 ^ 32 → s.dev.host.loads = [] → s.dev.pwr.trial = false → s.dev.pwr.slots.length = 2 → s.dev.pwr.active ≤ 1 → 
     Completes (.loadFirmwareImage t h total 0 data) s fun u =>
       Waits s.dev u h (loadBytes 0x7C total 0 data) (.done {}) 0 ∧
       u.host.loads = [{ target := 0x7C, total := total, data := data, last := (max s.dev.now t), tag := h.tag, ep := h.ep }] ∧
       u.pwr = { s.dev.pwr with slots := s.dev.pwr.slots.set (1 - s.dev.pwr.active) { state := 3 } } ∧
       u.rest = { mailRest u s.dev t with pwr := u.pwr, host := { (mailRest u s.dev t).host with loads := u.host.loads } } ∧
       ItemsBut (mailItems ++ []) [] u s.dev) ∧
  (∀ (s : State) (t : Nat) (h : HostCtx) (lv : Nat) (sl : Option Nat), Accepted true s.dev t h (le 1 0x0A ++ le 1 0 ++ le 2 0 ++ le 4 0xFFFFFFFF ++ le 4 0 ++ le 2 0 ++ le 2 0) lv sl → (nth s.dev.rcd.regions 0).recs = [] → (nth s.dev.rcd.regions 0).unreadable = false → s.dev.rd P.LOG_NEXT 0 = 0 → 
     Completes (.logRead t h 0 0xFFFFFFFF 0 0) s fun u =>
       Answered u h (le 1 0x0A ++ le 1 0 ++ le 2 0 ++ le 4 0xFFFFFFFF ++ le 4 0 ++ le 2 0 ++ le 2 0) ({ status := 0, body := le 1 0 ++ le 1 2 ++ le 2 0 ++ le 4 (s.dev.rd P.LOG_GEN 0) ++ le 4 0 ++ le 4 0 }) ∧
       u.rest = mailRest u s.dev t ∧
       ItemsBut (mailItems ++ []) [] u s.dev) ∧
  (∀ (s : State) (t : Nat) (h : HostCtx) (lv : Nat) (sl : Option Nat) (i : Nat) (x : Session), Accepted true s.dev t h (le 1 0x0B ++ le 1 1 ++ le 1 0 ++ le 1 0) lv sl → 2 ≤ lv → sl = some i → s.dev.slotAt i = some x → s.dev.rcd.clears = [] → 
     Completes (.logClearRequest t h 0) s fun u =>
       Waits s.dev u h (le 1 0x0B ++ le 1 1 ++ le 1 0 ++ le 1 0) (.done { body := (hmac x.ks (ascii "LCHL" ++ le 8 (stamp64 (max s.dev.now t)) ++ s.dev.wire P.LOG_CLEAR_COUNT 0)).take 16 ++ le 4 (s.dev.rd P.LOG_GEN 0) }) 0 ∧
       u.rcd.clears = [{ sid := i, region := 0, cn := (hmac x.ks (ascii "LCHL" ++ le 8 (stamp64 (max s.dev.now t)) ++ s.dev.wire P.LOG_CLEAR_COUNT 0)).take 16, gen := s.dev.rd P.LOG_GEN 0, stamp := (max s.dev.now t) }] ∧
       u.rd P.LOG_CLEAR_COUNT = bumped P.LOG_CLEAR_COUNT (s.dev.rd P.LOG_CLEAR_COUNT) ∧
       u.rest = { mailRest u s.dev t with rcd := { quietRcd s.dev.rcd with clears := u.rcd.clears } } ∧
       ItemsBut (mailItems ++ [P.LOG_CLEAR_COUNT]) [] u s.dev) ∧
  (∀ (s : State) (t : Nat) (h : HostCtx) (lv : Nat) (sl : Option Nat) (i : Nat) (x : Session) (c : ClearReq) (proof : Bytes), Accepted true s.dev t h (le 1 0x0B ++ le 1 2 ++ le 1 2 ++ le 1 0 ++ proof) lv sl → 3 ≤ lv → sl = some i → s.dev.slotAt i = some x → s.dev.rcd.clears = [c] → c.region = 2 → c.sid = i → (max s.dev.now t) ≤ c.stamp + 10 * sec → proof = (hmac x.ks (ascii "LCLR" ++ c.cn ++ le 1 2 ++ le 4 c.gen)).take 16 → 
     Completes (.logClearConfirm t h 2 proof) s fun u =>
       Waits s.dev u h (le 1 0x0B ++ le 1 2 ++ le 1 2 ++ le 1 0 ++ proof) (.done {}) 0 ∧
       u.rcd.lw = [] ∧
       u.rcd.clears = [] ∧
       u.rd P.LOG_LW_USED = 0 ∧
       bitOf (u.rd P.LOG_STATUS) 2 = false ∧
       u.rest = { mailRest u s.dev t with rcd := { quietRcd s.dev.rcd with clears := [] } } ∧
       ItemsBut (mailItems ++ [P.LOG_LW_USED, P.LOG_STATUS]) [] u s.dev)

/-- R41, R59, R61, R92, R97, R102, R117, R156, R181, R183, R346: the acts of the committed path wait for the commit of the cycle after their own; a STEP of
hub time and a pulse mode are decided for their instants; GNSS tracking starts, and starts again cold. -/
def Obligations.ActsOfTheHost : Prop :=
  (∀ (s : State) (t : Nat) (h : HostCtx) (lv : Nat) (sl : Option Nat), Accepted true s.dev t h (setValue P.JOB_CTRL 0 1) lv sl → 1 ≤ lv → s.dev.rd P.JOB_STATE = 2 → s.dev.ctrls = [] → s.dev.com.job.load = none → 
     Completes (.jobStart t h) s fun u =>
       Waits s.dev u h (setValue P.JOB_CTRL 0 1) (.done {}) 0 ∧
       (∃ k, s.dev.cyc.next ≤ k + 1 ∧ u.ctrls = s.dev.ctrls ++ [(k + 1, P.JOB_CTRL, 0, le 1 1)]) ∧
       u.rest = { mailRest u s.dev t with ctrls := u.ctrls } ∧
       ItemsBut (mailItems ++ []) [] u s.dev) ∧
  (∀ (s : State) (t : Nat) (h : HostCtx) (lv : Nat) (sl : Option Nat), Accepted true s.dev t h (setValue P.JOB_CTRL 0 2) lv sl → 1 ≤ lv → s.dev.rd P.JOB_STATE = 3 → s.dev.ctrls = [] → s.dev.com.job.load = none → 
     Completes (.jobPause t h) s fun u =>
       Waits s.dev u h (setValue P.JOB_CTRL 0 2) (.done {}) 0 ∧
       (∃ k, s.dev.cyc.next ≤ k + 1 ∧ u.ctrls = s.dev.ctrls ++ [(k + 1, P.JOB_CTRL, 0, le 1 2)]) ∧
       u.rest = { mailRest u s.dev t with ctrls := u.ctrls } ∧
       ItemsBut (mailItems ++ []) [] u s.dev) ∧
  (∀ (s : State) (t : Nat) (h : HostCtx) (lv : Nat) (sl : Option Nat), Accepted true s.dev t h (setValue P.JOB_CTRL 0 3) lv sl → 1 ≤ lv → s.dev.rd P.JOB_STATE = 4 → s.dev.ctrls = [] → s.dev.com.job.load = none → s.dev.resInUse = false → 
     Completes (.jobUnload t h) s fun u =>
       Waits s.dev u h (setValue P.JOB_CTRL 0 3) (.done {}) 0 ∧
       (∃ k, s.dev.cyc.next ≤ k + 1 ∧ u.ctrls = s.dev.ctrls ++ [(k + 1, P.JOB_CTRL, 0, le 1 3)]) ∧
       u.rest = { mailRest u s.dev t with ctrls := u.ctrls } ∧
       ItemsBut (mailItems ++ []) [] u s.dev) ∧
  (∀ (s : State) (t : Nat) (h : HostCtx) (lv : Nat) (sl : Option Nat) (n : Nat), Accepted true s.dev t h (setValue P.SLT_RESEAT n 1) lv sl → 1 ≤ lv → 1 ≤ n → n ≤ 96 → s.dev.reseatOk n → 
     Completes (.reseat t h n) s fun u =>
       Waits s.dev u h (setValue P.SLT_RESEAT n 1) (.done {}) 0 ∧
       (∃ k, s.dev.cyc.next ≤ k + 1 ∧ u.ctrls = s.dev.ctrls ++ [(k + 1, P.SLT_RESEAT, n, le 1 1)]) ∧
       u.rest = { mailRest u s.dev t with ctrls := u.ctrls } ∧
       ItemsBut (mailItems ++ []) [] u s.dev) ∧
  (∀ (s : State) (t : Nat) (h : HostCtx) (lv : Nat) (sl : Option Nat) (i : Nat) (b : Bytes), Accepted true s.dev t h (setOne P.SLT_HOST_RES i b) lv sl → 1 ≤ lv → i ≤ 255 → b.length = 28 + 28 * fld b 6 1 → fld b 4 1 = 0 → fld b 6 1 ≤ 16 → 
     Completes (.hostResWrite t h i b) s fun u =>
       Waits s.dev u h (setOne P.SLT_HOST_RES i b) (.done {}) 0 ∧
       (∃ k, u.ctrls = s.dev.ctrls ++ [(k + 1, P.SLT_HOST_RES, i, b)]) ∧
       u.rest = { mailRest u s.dev t with ctrls := u.ctrls } ∧
       ItemsBut (mailItems ++ []) [] u s.dev) ∧
  (∀ (s : State) (t : Nat) (h : HostCtx) (lv : Nat) (sl : Option Nat), Accepted true s.dev t h (setValue P.MTR_SNAP 0 1) lv sl → 1 ≤ lv → 
     Completes (.mtrSnap t h) s fun u =>
       Waits s.dev u h (setValue P.MTR_SNAP 0 1) (.done {}) 0 ∧
       (∃ k, s.dev.cyc.next ≤ k + 1 ∧ u.ctrls = s.dev.ctrls ++ [(k + 1, P.MTR_SNAP, 0, le 1 1)]) ∧
       u.rest = { mailRest u s.dev t with ctrls := u.ctrls } ∧
       ItemsBut (mailItems ++ []) [] u s.dev) ∧
  (∀ (s : State) (t : Nat) (h : HostCtx) (lv : Nat) (sl : Option Nat), Accepted true s.dev t h (setValue P.STA_SELFTEST 0 1) lv sl → 2 ≤ lv → s.dev.rd P.JOB_STATE = 2 → s.dev.ctrls = [] → s.dev.com.job.load = none → 
     Completes (.staSelftest t h) s fun u =>
       Waits s.dev u h (setValue P.STA_SELFTEST 0 1) (.done {}) 0 ∧
       (∃ k, s.dev.cyc.next ≤ k + 1 ∧ u.ctrls = s.dev.ctrls ++ [(k + 1, P.STA_SELFTEST, 0, le 1 1)]) ∧
       u.rest = { mailRest u s.dev t with ctrls := u.ctrls } ∧
       ItemsBut (mailItems ++ []) [] u s.dev) ∧
  (∀ (s : State) (t : Nat) (h : HostCtx) (lv : Nat) (sl : Option Nat) (a : Nat), Accepted true s.dev t h (setValue P.STA_REF_ANT 0 a) lv sl → 2 ≤ lv → a ≤ 1 → 
     Completes (.refAntWrite t h a) s fun u =>
       Waits s.dev u h (setValue P.STA_REF_ANT 0 a) (.done {}) 0 ∧
       (∃ k, u.ctrls = s.dev.ctrls ++ [(k + 1, P.STA_REF_ANT, 0, le 1 a)]) ∧
       u.rd P.STA_REF_ANT = a ∧
       (∃ k, u.staged = s.dev.staged ++ [{ cycle := k, key := regKey P.STA_REF_ANT 0, old := s.dev.rd P.STA_REF_ANT }]) ∧
       u.rest = { mailRest u s.dev t with ctrls := u.ctrls, staged := u.staged } ∧
       ItemsBut (mailItems ++ []) [(P.STA_REF_ANT, 0)] u s.dev) ∧
  (∀ (s : State) (t : Nat) (h : HostCtx) (lv : Nat) (sl : Option Nat) (l : Nat), Accepted true s.dev t h (setValue P.TIM_STEP 0 1) lv sl → 2 ≤ lv → s.dev.cyc.adm = [] → s.dev.com.stop.latched.all → s.dev.rd P.TIM_STATE = 4 → s.dev.rd P.TIM_SOURCE ≠ 0 → s.dev.tim.lastMeas = some l → s.dev.tim.stepAt = none → s.dev.commitAt (s.dev.admitCycle (max s.dev.now t) (max h.admitAt (max s.dev.now t))).1 ≤ l + sec → 
     Completes (.timStep t h) s fun u =>
       Waits s.dev u h (setValue P.TIM_STEP 0 1) (.done {}) 0 ∧
       u.rd P.TIM_STEP = 1 ∧
       u.tim = { s.dev.tim with stepAt := some (halfSecondAfter (s.dev.commitAt (s.dev.admitCycle (max s.dev.now t) (max h.admitAt (max s.dev.now t))).1 + 200 * ms)) } ∧
       u.rest = { mailRest u s.dev t with tim := u.tim } ∧
       ItemsBut (mailItems ++ []) [(P.TIM_STEP, 0)] u s.dev) ∧
  (∀ (s : State) (t : Nat) (h : HostCtx) (lv : Nat) (sl : Option Nat) (o : Nat), Accepted true s.dev t h (setValue P.TIM_TP_MODE o 1) lv sl → 2 ≤ lv → o ≤ 1 → 1000 ≤ s.dev.rd P.TIM_TP_WIDTH o → s.dev.rd P.TIM_TP_WIDTH o ≤ 900000000 → nth s.dev.tim.tpMode o = 0 → 
     Completes (.tpModeWrite t h o 1) s fun u =>
       Waits s.dev u h (setValue P.TIM_TP_MODE o 1) (.done {}) 0 ∧
       u.rd P.TIM_TP_MODE o = 1 ∧
       u.tim = { s.dev.tim with tpPend := s.dev.tim.tpPend.set o (some (1, wholeSecondAfter (s.dev.commitAt (s.dev.admitCycle (max s.dev.now t) (max h.admitAt (max s.dev.now t))).1))) } ∧
       u.rest = { mailRest u s.dev t with tim := u.tim, staged := u.staged } ∧
       ItemsBut (mailItems ++ []) [(P.TIM_TP_MODE, o)] u s.dev) ∧
  (∀ (s : State) (t : Nat) (h : HostCtx) (lv : Nat) (sl : Option Nat), Accepted true s.dev t h (setValue P.GNS_RUN 0 1) lv sl → 2 ≤ lv → s.dev.rd P.GNS_RUN = 0 → 
     Completes (.gnsRunWrite t h 1) s fun u =>
       Waits s.dev u h (setValue P.GNS_RUN 0 1) (.done {}) 0 ∧
       u.rd P.GNS_RUN = 1 ∧
       1 ≤ u.rd P.GNS_START_KIND) ∧
  (∀ (s : State) (t : Nat) (h : HostCtx) (lv : Nat) (sl : Option Nat), Accepted true s.dev t h (setValue P.GNS_FORCE_COLD 0 1) lv sl → 2 ≤ lv → s.dev.rd P.GNS_RUN = 0 → 
     Completes (.forceCold t h) s fun u =>
       Waits s.dev u h (setValue P.GNS_FORCE_COLD 0 1) (.done {}) 0 ∧
       u.gns.eph = [] ∧
       u.gns.almanac = none ∧
       u.gns.plan = [] ∧
       u.rd P.GNS_ACQ_QUEUE = 0 ∧
       u.rd P.GNS_ALM_AGE = 0xFFFF)

/-- R34, R45, R46, R93 to R95: ARM, TRIGGER, EXPORT, DISCARD and DISARM take the capture through its states; replay mode is entered with the counters of the
replay at 0, a first chunk opens the feed, and leaving it is answered and restarts the unit. -/
def Obligations.SnapshotsAndReplay : Prop :=
  (∀ (s : State) (t : Nat) (h : HostCtx) (lv : Nat) (sl : Option Nat) (cmd : Bool), Accepted true s.dev t h (snapBytes cmd 1) lv sl → 1 ≤ lv → s.dev.rd P.GNS_SNAP_STATE = 0 → 
     Completes (.snapArm t h cmd) s fun u =>
       Waits s.dev u h (snapBytes cmd 1) (.done {}) 0 ∧
       u.rd P.GNS_SNAP_STATE = 1 ∧
       u.gns = { s.dev.gns with snap := { s.dev.gns.snap with armed := (max s.dev.now t) } } ∧
       u.rest = { mailRest u s.dev t with gns := u.gns } ∧
       ItemsBut (mailItems ++ []) [(P.GNS_SNAP_STATE, 0)] u s.dev) ∧
  (∀ (s : State) (t : Nat) (h : HostCtx) (lv : Nat) (sl : Option Nat) (cmd : Bool), Accepted true s.dev t h (snapBytes cmd 2) lv sl → 1 ≤ lv → s.dev.rd P.GNS_SNAP_STATE = 1 → 
     Completes (.snapTrigger t h cmd) s fun u =>
       Waits s.dev u h (snapBytes cmd 2) (.done {}) 0 ∧
       u.rd P.GNS_SNAP_STATE = 2 ∧
       u.gns.snap.trig = (max s.dev.now t) ∧
       u.gns.snap.no = (s.dev.gns.snap.no + 1) % 2 ^ 32 ∧
       u.gns.snap.cause = 1 ∧
       u.rest = { mailRest u s.dev t with gns := u.gns } ∧
       ItemsBut (mailItems ++ []) [(P.GNS_SNAP_STATE, 0)] u s.dev) ∧
  (∀ (s : State) (t : Nat) (h : HostCtx) (lv : Nat) (sl : Option Nat) (cmd : Bool), Accepted true s.dev t h (snapBytes cmd 3) lv sl → 1 ≤ lv → s.dev.rd P.GNS_SNAP_STATE = 3 → (s.dev.host.subs.any fun x => x.ep == h.ep && bitOf x.mask 5) → 
     Completes (.snapExport t h cmd) s fun u =>
       Waits s.dev u h (snapBytes cmd 3) (.done {}) 0 ∧
       u.rd P.GNS_SNAP_STATE = 4 ∧
       u.rest = { mailRest u s.dev t with gns := u.gns } ∧
       ItemsBut (mailItems ++ []) [(P.GNS_SNAP_STATE, 0)] u s.dev) ∧
  (∀ (s : State) (t : Nat) (h : HostCtx) (lv : Nat) (sl : Option Nat) (cmd : Bool), Accepted true s.dev t h (snapBytes cmd 4) lv sl → 1 ≤ lv → s.dev.rd P.GNS_SNAP_STATE = 3 → 
     Completes (.snapDiscard t h cmd) s fun u =>
       Waits s.dev u h (snapBytes cmd 4) (.done {}) 0 ∧
       u.rd P.GNS_SNAP_STATE = 0 ∧
       u.gns.snap.data = [] ∧
       u.rest = { mailRest u s.dev t with gns := u.gns } ∧
       ItemsBut (mailItems ++ []) [(P.GNS_SNAP_STATE, 0)] u s.dev) ∧
  (∀ (s : State) (t : Nat) (h : HostCtx) (lv : Nat) (sl : Option Nat) (cmd : Bool), Accepted true s.dev t h (snapBytes cmd 5) lv sl → 1 ≤ lv → s.dev.rd P.GNS_SNAP_STATE = 2 → 
     Completes (.snapDisarm t h cmd) s fun u =>
       Waits s.dev u h (snapBytes cmd 5) (.done {}) 0 ∧
       u.rd P.GNS_SNAP_STATE = 0 ∧
       u.gns.snap.data = [] ∧
       u.rest = { mailRest u s.dev t with gns := u.gns } ∧
       ItemsBut (mailItems ++ []) [(P.GNS_SNAP_STATE, 0)] u s.dev) ∧
  (∀ (s : State) (t : Nat) (h : HostCtx) (lv : Nat) (sl : Option Nat), Accepted true s.dev t h (setValue P.CYC_REPLAY 0 1) lv sl → 3 ≤ lv → s.dev.rd P.JOB_STATE = 2 → s.dev.ctrls = [] → s.dev.com.job.load = none → s.dev.rd P.DPX_STATE = 1 → 
     Completes (.replayEnter t h) s fun u =>
       Answered u h (setValue P.CYC_REPLAY 0 1) ({}) ∧
       u.rd P.CYC_REPLAY_STATE = 1 ∧
       u.rd P.CYC_REPLAY = 1 ∧
       u.rd P.CYC_MISMATCH = 0 ∧
       u.rd P.CYC_FIRST_MISMATCH = 0 ∧
       u.cyc.feed = {} ∧
       u.rest = { mailRest u s.dev t with stp := u.stp, cyc := { (mailRest u s.dev t).cyc with feed := {} } } ∧
       ItemsBut (mailItems ++ [P.STP_OUT_STATE]) [(P.CYC_REPLAY_STATE, 0), (P.CYC_REPLAY, 0), (P.CYC_MISMATCH, 0), (P.CYC_FIRST_MISMATCH, 0)] u s.dev) ∧
  (∀ (s : State) (t : Nat) (h : HostCtx) (lv : Nat) (sl : Option Nat), Accepted false s.dev t h (setValue P.CYC_REPLAY 0 0) lv sl → 3 ≤ lv → s.dev.replay → s.dev.pwr.mode = 0 → s.dev.active → 
     Completes (.replayLeave t h) s fun u =>
       Answered u h (setValue P.CYC_REPLAY 0 0) ({}) ∧
       u.pwr.mode = 1 ∧
       u.pwr.cause = 12) ∧
  (∀ (s : State) (t : Nat) (h : HostCtx) (lv : Nat) (sl : Option Nat) (data : Bytes), Accepted false s.dev t h (le 1 0x0F ++ le 1 1 ++ le 2 0 ++ le 4 0 ++ data) lv sl → 3 ≤ lv → s.dev.replay → s.dev.cyc.feed = {} → 1 ≤ data.length → data.length < 8 → s.dev.active → 
     Completes (.replayFeed t h 1 0 data) s fun u =>
       Answered u h (le 1 0x0F ++ le 1 1 ++ le 2 0 ++ le 4 0 ++ data) ({ status := 0, body := le 4 0xFFFFFFFF ++ le 4 data.length }) ∧
       u.rd P.CYC_REPLAY_STATE = 2 ∧
       u.cyc.feed = { started := true, next := data.length, buf := data } ∧
       u.rest = { mailRest u s.dev t with cyc := { (mailRest u s.dev t).cyc with feed := u.cyc.feed } } ∧
       ItemsBut (mailItems ++ []) [(P.CYC_REPLAY_STATE, 0)] u s.dev)

/-- R216, R221, R231, R232: a STOP is latched by every lane at once, is answered at once and is never refused; an ARM_RELEASE and a RELEASE are held for the
commit of their cycle. -/
def Obligations.StopArmAndRelease : Prop :=
  (∀ (s : State) (t scope groups mask : Nat) (h : HostCtx), Heard s.dev h (safetyBytes 0x0C scope groups mask) → h.mbx = 0 → s.dev.active → s.dev.replay = false → s.dev.tooEarly (max s.dev.now t) = false →
     Completes (.stop t h scope groups mask) s fun u =>
       u.stp.lanes = s.dev.stp.lanes.map (fun l => l.latch (stopScope (safetyBytes 0x0C scope groups mask)) 3 { stamp := (max s.dev.now t), cls := 8, idx := h.ep.tr }) ∧
       u.stp.lastEv = (3, (max s.dev.now t)) ∧ (∃ k x, u.cyc.adm = s.dev.cyc.adm ++ [(k, x)] ∧ x.cls = 8 ∧ x.payload = safetyBytes 0x0C scope groups mask) ∧
       u.rest = { mailRest u s.dev t with stp := u.stp } ∧ ItemsBut (mailItems ++ []) [] u s.dev) ∧
  (∀ (s : State) (t scope groups mask lv : Nat) (sl : Option Nat) (h : HostCtx), Heard s.dev h (safetyBytes 0x0D scope groups mask) → h.mbx = 0 → s.dev.commits → s.dev.tooEarly (max s.dev.now t) = false →
     frameOk 0 (bit h.trailer.isSome) (safetyBytes 0x0D scope groups mask) → Signed s.dev t h (safetyBytes 0x0D scope groups mask) lv sl →
     Completes (.armRelease t h scope groups mask) s fun u =>
       (∃ k x q, u.cyc.adm = s.dev.cyc.adm ++ [(k, x)] ∧ x.level = lv ∧ x.payload = safetyBytes 0x0D scope groups mask ∧ u.stp.mail = s.dev.stp.mail ++ [q] ∧ q.2.1 = sl ∧ q.2.2.1 = lv ∧ q.2.2.2.tag = h.tag ∧
         q.2.2.2.op = 0x0D) ∧ u.rest = { mailRest u s.dev t with stp := { s.dev.stp with mail := u.stp.mail } } ∧ ItemsBut (mailItems ++ []) [] u s.dev) ∧
  (∀ (s : State) (t scope groups mask lv : Nat) (sl : Option Nat) (h : HostCtx), Heard s.dev h (safetyBytes 0x0E scope groups mask) → h.mbx = 0 → s.dev.commits → s.dev.tooEarly (max s.dev.now t) = false →
     frameOk 0 (bit h.trailer.isSome) (safetyBytes 0x0E scope groups mask) → Signed s.dev t h (safetyBytes 0x0E scope groups mask) lv sl →
     Completes (.release t h scope groups mask) s fun u =>
       (∃ k x q, u.cyc.adm = s.dev.cyc.adm ++ [(k, x)] ∧ x.level = lv ∧ x.payload = safetyBytes 0x0E scope groups mask ∧ u.stp.mail = s.dev.stp.mail ++ [q] ∧ q.2.1 = sl ∧ q.2.2.1 = lv ∧ q.2.2.2.tag = h.tag ∧
         q.2.2.2.op = 0x0E) ∧ u.rest = { mailRest u s.dev t with stp := { s.dev.stp with mail := u.stp.mail } } ∧ ItemsBut (mailItems ++ []) [] u s.dev)

/-- R318, R320, R326, R327, R354 to R359: the axis commands move, stop, resume, home and clear the axes of their mask; the field bus commands start a
recovery, abort, write and read buffers. -/
def Obligations.AxesAndBuffersOverMail : Prop :=
  (∀ (s : State) (t : Nat) (h : HostCtx) (lv : Nat) (sl : Option Nat) (l vc a dc : Nat), Accepted true s.dev t h (setValue P.DRK_CTRL 0 (1 + 256 * 1)) lv sl → 1 ≤ lv → s.dev.drk.lines = [] → s.dev.rd P.DRK_OWNER = 0 → s.dev.stp.outOn → s.dev.rd P.DRK_STATE 0 = 3 → nth s.dev.drk.homed 0 = true → s.dev.drk.limits = [] → s.dev.movePlan 1 [s.dev.rdS P.DRK_TARGET 0 - s.dev.rdS P.DRK_POS 0, 0, 0, 0] = (l, vc, a, dc) → 0 < l → 
     Completes (.move t h 1) s fun u =>
       Waits s.dev u h (setValue P.DRK_CTRL 0 (1 + 256 * 1)) (.done {}) 0 ∧
       u.rd P.DRK_STATE 0 = 4 ∧
       u.rd P.DRK_REMAIN 0 = 0 ∧
       u.rd P.DRK_MOVES = bumped P.DRK_MOVES (s.dev.rd P.DRK_MOVES) ∧
       (∃ y, u.drk = { s.dev.drk with lines := [y] } ∧ y.mask = 1 ∧ nth y.target 0 = s.dev.rdS P.DRK_TARGET 0 ∧ y.len = l ∧ y.vc = vc ∧ y.a = a ∧ y.dc = dc) ∧
       u.rest = { mailRest u s.dev t with drk := u.drk } ∧
       ItemsBut (mailItems ++ []) [(P.DRK_STATE, 0), (P.DRK_REMAIN, 0), (P.DRK_MOVES, 0)] u s.dev) ∧
  (∀ (s : State) (t : Nat) (h : HostCtx) (lv : Nat) (sl : Option Nat) (x : Line), Accepted true s.dev t h (setValue P.DRK_CTRL 0 (2 + 256 * 1)) lv sl → 1 ≤ lv → s.dev.drk.lines = [x] → x.mask = 1 → s.dev.rd P.DRK_STATE 0 = 4 → s.dev.drk.waiting = [] → 
     Completes (.axisStop t h 1) s fun u =>
       Waits s.dev u h (setValue P.DRK_CTRL 0 (2 + 256 * 1)) (.done {}) 0 ∧
       u.rd P.DRK_STATE 0 = 5 ∧
       u.drk = { s.dev.drk with lines := [x.halt (max s.dev.now t) x.dc] } ∧
       u.rest = { mailRest u s.dev t with drk := u.drk } ∧
       ItemsBut (mailItems ++ []) [(P.DRK_STATE, 0), (P.DRK_POS, 0)] u s.dev) ∧
  (∀ (s : State) (t : Nat) (h : HostCtx) (lv : Nat) (sl : Option Nat) (l vc a dc : Nat), Accepted true s.dev t h (setValue P.DRK_CTRL 0 (3 + 256 * 1)) lv sl → 1 ≤ lv → s.dev.drk.lines = [] → s.dev.stp.outOn → s.dev.rd P.DRK_STATE 0 = 6 → nth s.dev.drk.homed 0 = true → s.dev.movePlan 1 [s.dev.rdS P.DRK_REMAIN 0, s.dev.rdS P.DRK_REMAIN 1, s.dev.rdS P.DRK_REMAIN 2, s.dev.rdS P.DRK_REMAIN 3] = (l, vc, a, dc) → 0 < l → 
     Completes (.resume t h 1) s fun u =>
       Waits s.dev u h (setValue P.DRK_CTRL 0 (3 + 256 * 1)) (.done {}) 0 ∧
       u.rd P.DRK_STATE 0 = 4 ∧
       u.rd P.DRK_REMAIN 0 = 0 ∧
       (∃ y, u.drk = { s.dev.drk with lines := [y] } ∧ y.mask = 1 ∧ nth y.target 0 = s.dev.rdS P.DRK_POS 0 + s.dev.rdS P.DRK_REMAIN 0 ∧ y.len = l) ∧
       u.rest = { mailRest u s.dev t with drk := u.drk } ∧
       ItemsBut (mailItems ++ []) [(P.DRK_STATE, 0), (P.DRK_REMAIN, 0), (P.DRK_MOVES, 0)] u s.dev) ∧
  (∀ (s : State) (t : Nat) (h : HostCtx) (lv : Nat) (sl : Option Nat), Accepted true s.dev t h (setValue P.DRK_CTRL 0 (4 + 256 * 1)) lv sl → 1 ≤ lv → s.dev.drk.lines = [] → s.dev.rd P.DRK_OWNER = 0 → s.dev.stp.outOn → s.dev.rd P.DRK_STATE 0 = 1 → 
     Completes (.home t h 1) s fun u =>
       Waits s.dev u h (setValue P.DRK_CTRL 0 (4 + 256 * 1)) (.done {}) 0 ∧
       u.rd P.DRK_STATE 0 = 2 ∧
       (∃ y, u.drk = { s.dev.drk with lines := [y], homed := s.dev.drk.homed.set 0 false } ∧ y.mask = 1 ∧ y.home = 1 ∧ y.vc = max 1 (s.dev.rd P.DRK_HOME_V 0)) ∧
       u.rest = { mailRest u s.dev t with drk := u.drk } ∧
       ItemsBut (mailItems ++ []) [(P.DRK_STATE, 0)] u s.dev) ∧
  (∀ (s : State) (t : Nat) (h : HostCtx) (lv : Nat) (sl : Option Nat), Accepted true s.dev t h (setValue P.DRK_CTRL 0 (5 + 256 * 1)) lv sl → 1 ≤ lv → s.dev.drk.lines = [] → s.dev.drk.gantry = [] → s.dev.drk.failed = false → s.dev.drk.chatter = [] → s.dev.rd P.DRK_STATE 0 = 7 → nth s.dev.drk.homed 0 = false → 
     Completes (.axisClear t h 1) s fun u =>
       Waits s.dev u h (setValue P.DRK_CTRL 0 (5 + 256 * 1)) (.done {}) 0 ∧
       u.rd P.DRK_STATE 0 = 1 ∧
       u.rd P.DRK_FAULT 0 = 0 ∧
       u.rest = mailRest u s.dev t ∧
       ItemsBut (mailItems ++ []) [(P.DRK_STATE, 0), (P.DRK_FAULT, 0)] u s.dev) ∧
  (∀ (s : State) (t : Nat) (h : HostCtx) (lv : Nat) (sl : Option Nat) (c : Nat), Accepted true s.dev t h (setValue P.CAN_CTRL c 1) lv sl → 1 ≤ lv → c ≤ 2 → s.dev.rd P.CAN_STATE c = 3 → 
     Completes (.canStartRecovery t h c) s fun u =>
       Waits s.dev u h (setValue P.CAN_CTRL c 1) (.done {}) 0 ∧
       u.rd P.CAN_STATE c = 4 ∧
       u.rest = mailRest u s.dev t ∧
       ItemsBut (mailItems ++ []) [(P.CAN_STATE, c)] u s.dev) ∧
  (∀ (s : State) (t : Nat) (h : HostCtx) (lv : Nat) (sl : Option Nat) (c : Nat), Accepted true s.dev t h (setValue P.CAN_CTRL c 2) lv sl → 1 ≤ lv → c ≤ 2 → 
     Completes (.canAbortHostBuffers t h c) s fun u =>
       Waits s.dev u h (setValue P.CAN_CTRL c 2) (.done {}) 0 ∧
       u.can = { s.dev.can with bufs := s.dev.can.bufs.map fun b => if b.i / 64 = c ∧ b.txst = 1 ∧ (!s.dev.bufFirmware b.i) then { b with txst := 4 } else b } ∧
       u.rest = { mailRest u s.dev t with can := u.can } ∧
       ItemsBut (mailItems ++ []) [] u s.dev) ∧
  (∀ (s : State) (t : Nat) (h : HostCtx) (lv : Nat) (sl : Option Nat) (b : Nat) (x : CanBuf), Accepted true s.dev t h (setValue P.CAN_TX_ABORT b 1) lv sl → 1 ≤ lv → b ≤ 191 → s.dev.bufFirmware b = false → s.dev.canBuf b = x → x.txst = 1 → 
     Completes (.txAbort t h b) s fun u =>
       Waits s.dev u h (setValue P.CAN_TX_ABORT b 1) (.done {}) 0 ∧
       u.can = { s.dev.can with bufs := insertBy (fun x y => decide (x.i < y.i)) { x with txst := 4 } (s.dev.can.bufs.filter (·.i != x.i)) } ∧
       u.rest = { mailRest u s.dev t with can := u.can } ∧
       ItemsBut (mailItems ++ []) [] u s.dev) ∧
  (∀ (s : State) (t : Nat) (h : HostCtx) (lv : Nat) (sl : Option Nat) (b : Nat) (r : Bytes), Accepted true s.dev t h (setOne P.CAN_BUF b r) lv sl → 1 ≤ lv → b ≤ 191 → r.length = 88 → s.dev.bufFirmware b = false → fld (s.dev.bufCfg b) 0 1 = 2 → bitOf (fld (s.dev.bufCfg b) 1 1) 1 = false → fld r 1 1 ≤ 8 → fld r 2 1 = fld r 1 1 → (s.dev.canBuf b).txst ≠ 2 → 
     Completes (.canBufWrite t h b r) s fun u =>
       Waits s.dev u h (setOne P.CAN_BUF b r) (.done {}) 0 ∧
       (u.canBuf b).txst = 1 ∧
       (u.canBuf b).f.id = fld r 4 4 % 2 ^ 29 ∧
       (u.canBuf b).f.data = cut r 24 (fld r 2 1) ∧
       u.rest = { mailRest u s.dev t with can := u.can } ∧
       ItemsBut (mailItems ++ []) [] u s.dev) ∧
  (∀ (s : State) (t : Nat) (h : HostCtx) (lv : Nat) (sl : Option Nat) (b : Nat), Accepted true s.dev t h (getBlockBytes P.CAN_BUF b 0 0) lv sl → b ≤ 191 → 
     Completes (.canBufRead t h b 0 0) s fun u =>
       Answered u h (getBlockBytes P.CAN_BUF b 0 0) ({ body := le 2 P.CAN_BUF ++ le 2 b ++ le 4 0 ++ le 2 ((s.dev.canBuf b).record (bit (s.dev.canBuf b).newdat + 4 * bit (s.dev.canBuf b).lost)).length ++ le 4 ((s.dev.canBuf b).record (bit (s.dev.canBuf b).newdat + 4 * bit (s.dev.canBuf b).lost)).length ++ (s.dev.canBuf b).record (bit (s.dev.canBuf b).newdat + 4 * bit (s.dev.canBuf b).lost) }) ∧
       u.can = { s.dev.can with bufs := insertBy (fun x y => decide (x.i < y.i)) { s.dev.canBuf b with newdat := false, lost := false } (s.dev.can.bufs.filter (·.i != (s.dev.canBuf b).i)) } ∧
       u.rest = { mailRest u s.dev t with can := u.can, host := { (mailRest u s.dev t).host with fixed := u.host.fixed } } ∧
       ItemsBut (mailItems ++ []) [] u s.dev)

/-- R266, R267, R274, R290, R415, R469, R477 to R479: a first air key waits for its boundary and a rollover for its cycle; the pair key is stored; a
handover and a give-up begin giving up control and a restart leaves SILENT; counters are cleared; Dormant, provisioning, level keys, the trial and its
confirmation. -/
def Obligations.KeysControlAndPower : Prop :=
  (∀ (s : State) (t : Nat) (h : HostCtx) (lv : Nat) (sl : Option Nat) (n : Nat) (key : Bytes), Accepted true s.dev t h (setOne P.AIR_KEY n key) lv sl → 3 ≤ lv → key.length = 16 → keyInstOk n → n ≤ 127 → (s.dev.airKey n).cur = none → (s.dev.airKey n).roll = none → (s.dev.airKey n).inst = n → 
     Completes (.airKeyWrite t h n key) s fun u =>
       Waits s.dev u h (setOne P.AIR_KEY n key) (.done {}) 0 ∧
       u.airKey n = { s.dev.airKey n with first := some key } ∧
       u.rest = { mailRest u s.dev t with air := u.air } ∧
       ItemsBut (mailItems ++ []) [] u s.dev) ∧
  (∀ (s : State) (t : Nat) (h : HostCtx) (lv : Nat) (sl : Option Nat) (n c : Nat) (key : Bytes), Accepted true s.dev t h (setValue P.AIR_ROLL n c) lv sl → 3 ≤ lv → 1 ≤ n → n ≤ 96 → (s.dev.airKey n).next = some key → (s.dev.airKey n).inst = n → later c (u32 (cycleOf (s.dev.commitAt (s.dev.admitCycle (max s.dev.now t) (max h.admitAt (max s.dev.now t))).1) + 200)) → c < 2 ^ 32 → 
     Completes (.airRollWrite t h n c) s fun u =>
       Waits s.dev u h (setValue P.AIR_ROLL n c) (.done {}) 0 ∧
       u.airKey n = { s.dev.airKey n with roll := some c } ∧
       u.rd P.AIR_ROLL n = c ∧
       u.rest = { mailRest u s.dev t with air := u.air } ∧
       ItemsBut (mailItems ++ []) [(P.AIR_ROLL, n)] u s.dev) ∧
  (∀ (s : State) (t : Nat) (h : HostCtx) (lv : Nat) (sl : Option Nat) (key : Bytes), Accepted false s.dev t h (setOne P.DPX_PAIR_KEY 0 key) lv sl → 3 ≤ lv → key.length = 16 → s.dev.rd P.DPX_STATE = 0 → s.dev.cyc.origin = none → 
     Completes (.pairKeyWrite t h key) s fun u =>
       Answered u h (setOne P.DPX_PAIR_KEY 0 key) ({}) ∧
       u.peer = { s.dev.peer with key := some key } ∧
       u.rest = { mailRest u s.dev t with peer := u.peer } ∧
       ItemsBut (mailItems ++ []) [] u s.dev) ∧
  (∀ (s : State) (t : Nat) (h : HostCtx) (lv : Nat) (sl : Option Nat), Accepted true s.dev t h (setValue P.DPX_CTRL 0 1) lv sl → 3 ≤ lv → s.dev.rd P.DPX_PEER_STATE = 2 → s.dev.peer.yielding = false → 
     Completes (.plannedHandover t h) s fun u =>
       Waits s.dev u h (setValue P.DPX_CTRL 0 1) (.done {}) 0 ∧
       u.rd P.DPX_GIVEUP_CAUSE = 8 ∧
       u.peer.yielding = true ∧
       u.rest = { mailRest u s.dev t with peer := u.peer } ∧
       ItemsBut (mailItems ++ []) [(P.DPX_GIVEUP_CAUSE, 0)] u s.dev) ∧
  (∀ (s : State) (t : Nat) (h : HostCtx) (lv : Nat) (sl : Option Nat), Accepted true s.dev t h (setValue P.DPX_CTRL 0 2) lv sl → 3 ≤ lv → s.dev.peer.yielding = false → 
     Completes (.dpxGiveUp t h) s fun u =>
       Waits s.dev u h (setValue P.DPX_CTRL 0 2) (.done {}) 0 ∧
       u.rd P.DPX_GIVEUP_CAUSE = 7 ∧
       u.peer.yielding = true ∧
       u.rest = { mailRest u s.dev t with peer := u.peer } ∧
       ItemsBut (mailItems ++ []) [(P.DPX_GIVEUP_CAUSE, 0)] u s.dev) ∧
  (∀ (s : State) (t : Nat) (h : HostCtx) (lv : Nat) (sl : Option Nat), Accepted false s.dev t h (setValue P.DPX_CTRL 0 3) lv sl → 3 ≤ lv → s.dev.rd P.DPX_STATE = 4 → s.dev.pwr.mode = 0 → 
     Completes (.dpxRestart t h) s fun u =>
       Answered u h (setValue P.DPX_CTRL 0 3) ({}) ∧
       u.pwr.mode = 1 ∧
       u.pwr.cause = 8) ∧
  (∀ (s : State) (t : Nat) (h : HostCtx) (lv : Nat) (sl : Option Nat) (n : Nat), Accepted true s.dev t h (setValue P.TLG_CLEAR 0 n) lv sl → 3 ≤ lv → n < 0xFFFF → 
     Completes (.tlgClear t h n) s fun u =>
       Waits s.dev u h (setValue P.TLG_CLEAR 0 n) (.done {}) 0 ∧
       u.tlg.ctrs = s.dev.tlg.ctrs.filter (·.1 != n)) ∧
  (∀ (s : State) (t : Nat) (h : HostCtx) (lv : Nat) (sl : Option Nat), Accepted true s.dev t h (setValue P.PWR_DORMANT 0 1) lv sl → 3 ≤ lv → s.dev.cyc.adm = [] → s.dev.com.stop.latched.all → s.dev.rd P.JOB_STATE = 2 → s.dev.ctrls = [] → s.dev.com.job.load = none → s.dev.rd P.DPX_PEER_STATE ≠ 2 → 2000 ≤ s.dev.rd P.PWR_VBAT_MV → s.dev.rd P.PWR_WAKE_EN ≠ 0 → 
     Completes (.dormantRequest t h) s fun u =>
       Waits s.dev u h (setValue P.PWR_DORMANT 0 1) (.done {}) 4 ∧
       u.rest = mailRest u s.dev t ∧
       ItemsBut (mailItems ++ []) [] u s.dev) ∧
  (∀ (s : State) (t : Nat) (h : HostCtx) (lv : Nat) (sl : Option Nat), Accepted true s.dev t h (setValue P.SEC_PROV_LOCK 0 1) lv sl → lv = 3 → s.dev.rd P.SEC_PROV_STATE = 0 → 
     Completes (.provLock t h) s fun u =>
       Waits s.dev u h (setValue P.SEC_PROV_LOCK 0 1) (.done {}) 0 ∧
       u.rd P.SEC_PROV_STATE = 1 ∧
       u.rest = mailRest u s.dev t ∧
       ItemsBut (mailItems ++ []) [(P.SEC_PROV_STATE, 0)] u s.dev) ∧
  (∀ (s : State) (t : Nat) (h : HostCtx) (lv : Nat) (sl : Option Nat) (level i : Nat) (salt : Bytes), Accepted true s.dev t h (setOne P.SEC_REKEY 0 (le 1 level ++ salt)) lv sl → 3 ≤ lv → salt.length = 16 → level ≤ 3 → s.dev.rd P.SEC_PROV_STATE = 1 → sl = some i → 
     Completes (.rekey t h level salt) s fun u =>
       Waits s.dev u h (setOne P.SEC_REKEY 0 (le 1 level ++ salt)) (.done {}) 0 ∧
       (∃ k, u.ctrls = s.dev.ctrls ++ [(k, P.SEC_REKEY, 0, le 1 i ++ (le 1 level ++ salt))]) ∧
       u.rest = { mailRest u s.dev t with ctrls := u.ctrls } ∧
       ItemsBut (mailItems ++ []) [] u s.dev) ∧
  (∀ (s : State) (t : Nat) (h : HostCtx) (lv : Nat) (sl : Option Nat), Accepted true s.dev t h (getBlockBytes P.SEC_KEY_EXPORT 0 0 0) lv sl → s.dev.rd P.SEC_PROV_STATE = 1 → s.dev.pwr.wrap = none → 
     Completes (.keyExportRead t h 0 0) s fun u =>
       Answered u h (getBlockBytes P.SEC_KEY_EXPORT 0 0 0) ({ body := le 2 P.SEC_KEY_EXPORT ++ le 2 0 ++ le 4 0 ++ le 2 120 ++ le 4 120 ++ zeros 120 }) ∧
       u.rest = { mailRest u s.dev t with host := { (mailRest u s.dev t).host with fixed := u.host.fixed } } ∧
       ItemsBut (mailItems ++ []) [] u s.dev) ∧
  (∀ (s : State) (t : Nat) (h : HostCtx) (lv : Nat) (sl : Option Nat), Accepted true s.dev t h (setValue P.SEC_ACTIVATE 0 1) lv sl → 3 ≤ lv → s.dev.cyc.adm = [] → s.dev.com.stop.latched.all → s.dev.slotValid (1 - s.dev.pwr.active) → 
     Completes (.activate t h) s fun u =>
       Waits s.dev u h (setValue P.SEC_ACTIVATE 0 1) (.done {}) 3 ∧
       u.pwr = { s.dev.pwr with pending := 1 - s.dev.pwr.active, tries := 3 } ∧
       u.rd P.SEC_TRIAL = 3 ∧
       u.rest = { mailRest u s.dev t with pwr := u.pwr } ∧
       ItemsBut (mailItems ++ []) [(P.SEC_TRIAL, 0)] u s.dev) ∧
  (∀ (s : State) (t : Nat) (h : HostCtx) (lv : Nat) (sl : Option Nat), Accepted true s.dev t h (setValue P.SEC_CONFIRM 0 1) lv sl → 3 ≤ lv → s.dev.pwr.trial → 
     Completes (.confirm t h) s fun u =>
       Waits s.dev u h (setValue P.SEC_CONFIRM 0 1) (.done {}) 0 ∧
       u.pwr = { s.dev.pwr with active := s.dev.pwr.slot, pending := 0xFF, tries := 0, trial := false } ∧
       u.rd P.SEC_TRIAL = 0 ∧
       u.rest = { mailRest u s.dev t with pwr := u.pwr } ∧
       ItemsBut (mailItems ++ []) [(P.SEC_TRIAL, 0), (P.SEC_ARB, 0)] u s.dev)

/-- R367 to R377: what becomes of a mail command, whichever it is, that the Host Port does not hear, that comes too early, is too long, finds its queue
full, repeats another, is malformed, or carries a trailer that no session signs: nothing of its own effect happens, and it is answered or counted as the
rule says. -/
def Obligations.FramesTurnedAway : Prop :=
  (∀ (s : State) (t : Nat) (h : HostCtx) (p : Bytes) (c : Instr), mailOf c = some (t, h, p) → s.dev.hostDown = true ∨ 1 < h.ep.tr ∨ (h.ep.tr = 1 ∧ s.dev.up = true ∧ s.dev.rd P.HST_SERIAL_EN = 0) →
     Completes (c) s fun u => u = s.dev.at t) ∧
  (∀ (s : State) (t : Nat) (h : HostCtx) (p : Bytes) (c : Instr), mailOf c = some (t, h, p) → s.dev.up = false → s.dev.pwr.mode ≠ 3 → mailLength h p ≤ transportLimit h.ep.tr →
     Completes (c) s fun u => u = s.dev.at t) ∧
  (∀ (s : State) (t : Nat) (h : HostCtx) (p : Bytes) (c : Instr), mailOf c = some (t, h, p) → s.dev.hostDown = false → h.ep.tr ≤ 1 → (h.ep.tr = 1 → s.dev.rd P.HST_SERIAL_EN ≠ 0) → transportLimit h.ep.tr < mailLength h p →
     Completes (c) s fun u => u = (s.dev.at t).inc P.HST_BAD_FRAMES h.ep.tr) ∧
  (∀ (s : State) (t : Nat) (h : HostCtx) (p : Bytes) (c : Instr), mailOf c = some (t, h, p) → Heard s.dev h p → isStop h.mbx p = false → s.dev.commits = true → s.dev.tooEarly (max s.dev.now t) = true →
     Completes (c) s fun u =>
       u.rd P.CYC_EARLY_DROP = bumped P.CYC_EARLY_DROP (s.dev.rd P.CYC_EARLY_DROP) ∧ u.rest = { s.dev.rest with now := max s.dev.now t } ∧ ItemsBut [] [(P.CYC_EARLY_DROP, 0)] u s.dev) ∧
  (∀ (s : State) (t : Nat) (h : HostCtx) (p : Bytes) (c : Instr), mailOf c = some (t, h, p) → Heard s.dev h p → isStop h.mbx p = false → (s.dev.commits = true → s.dev.tooEarly (max s.dev.now t) = false) → 1 ≤ h.mbx → h.mbx ≤ 7 → (s.dev.at t).repeatOf h (crc32c p) = none → 16 ≤ (s.dev.host.queue.filter fun q => q.mbx == h.mbx).length →
     Completes (c) s fun u =>
       u.rd P.HST_BUSY = bumped P.HST_BUSY (s.dev.rd P.HST_BUSY) ∧ u.host.queue = s.dev.host.queue ∧ u.host.dup = s.dev.host.dup ∧ u.rest = mailRest u s.dev t ∧ ItemsBut (mailItems ++ [P.HST_BUSY]) [] u s.dev) ∧
  (∀ (s : State) (t : Nat) (h : HostCtx) (p : Bytes) (c : Instr) (x : DupRec), mailOf c = some (t, h, p) → Heard s.dev h p → isStop h.mbx p = false → (s.dev.commits = true → s.dev.tooEarly (max s.dev.now t) = false) → 1 ≤ h.mbx → h.mbx ≤ 7 → (s.dev.at t).repeatOf h (crc32c p) = some x →
     Completes (c) s fun u =>
       u.rd P.HST_DUP = bumped P.HST_DUP (s.dev.rd P.HST_DUP) ∧ u.host.queue = s.dev.host.queue ∧ u.host.dup = s.dev.host.dup ∧ u.rest = mailRest u s.dev t ∧ ItemsBut (mailItems ++ [P.HST_DUP]) [] u s.dev) ∧
  (∀ (s : State) (t : Nat) (h : HostCtx) (p : Bytes) (c : Instr), mailOf c = some (t, h, p) → Heard s.dev h p → isStop h.mbx p = false → (s.dev.commits = true → s.dev.tooEarly (max s.dev.now t) = false) → 1 ≤ h.mbx → h.mbx ≤ 7 → s.dev.host.queue = [] → (s.dev.at t).repeatOf h (crc32c p) = none → s.dev.commits = true → s.dev.cyc.next ≤ (s.dev.admitCycle (max s.dev.now t) (max h.admitAt (max s.dev.now t))).1 → frameOk h.mbx (bit h.trailer.isSome) p = false → isRead (fld p 0 1) = false →
     Completes (c) s fun u => Waits s.dev u h p (.done { status := 6 }) 0 ∧ u.rest = mailRest u s.dev t ∧ ItemsBut (mailItems ++ []) [] u s.dev) ∧
  (∀ (s : State) (t : Nat) (h : HostCtx) (p : Bytes) (c : Instr), mailOf c = some (t, h, p) → Heard s.dev h p → isStop h.mbx p = false → (s.dev.commits = true → s.dev.tooEarly (max s.dev.now t) = false) → 1 ≤ h.mbx → h.mbx ≤ 7 → s.dev.host.queue = [] → (s.dev.at t).repeatOf h (crc32c p) = none → s.dev.commits = true → s.dev.cyc.next ≤ (s.dev.admitCycle (max s.dev.now t) (max h.admitAt (max s.dev.now t))).1 → frameOk h.mbx (bit h.trailer.isSome) p = true → isRead (fld p 0 1) = false → h.trailer.isSome = true → s.dev.sessionOf h.ep (max s.dev.now t) = none →
     Completes (c) s fun u => Waits s.dev u h p (.done { status := 3 }) 0 ∧ u.rest = mailRest u s.dev t ∧ ItemsBut (mailItems ++ []) [] u s.dev)

/-- R371, R379, R449: the write of one item, in whichever command it comes, is refused with the status of its first failing check, and nothing is written:
UNKNOWN for an item that no table has, DENIED for one that is read only or whose level the session lacks, RANGE for a value of another length; LOCKED for a
configuration item of the receiver while it runs. -/
def Obligations.WritesRefused : Prop :=
  (∀ (s : State) (t : Nat) (h : HostCtx) (lv : Nat) (sl : Option Nat) (c : Instr) (id i : Nat) (b : Bytes), mailOf c = some (t, h, setOne id i b) → Accepted true s.dev t h (setOne id i b) lv sl → itemRow id i = none → id < 65536 → i < 65536 → b.length < 65536 →
     Completes (c) s fun u => Waits s.dev u h (setOne id i b) (.done { status := 2, body := le 2 id ++ le 2 i ++ le 1 2 ++ le 1 0 }) 0 ∧ u.rest = mailRest u s.dev t ∧ ItemsBut (mailItems ++ []) [] u s.dev) ∧
  (∀ (s : State) (t : Nat) (h : HostCtx) (lv : Nat) (sl : Option Nat) (c : Instr) (id i : Nat) (b : Bytes) (r : Param), mailOf c = some (t, h, setOne id i b) → Accepted true s.dev t h (setOne id i b) lv sl → itemRow id i = some r → r.id ≠ P.SEC_PROV_LOCK → r.acc = .ro ∨ lv < r.level →
     id < 65536 → i < 65536 → b.length < 65536 →
     Completes (c) s fun u => Waits s.dev u h (setOne id i b) (.done { status := 3, body := le 2 id ++ le 2 i ++ le 1 3 ++ le 1 0 }) 0 ∧ u.rest = mailRest u s.dev t ∧ ItemsBut (mailItems ++ []) [] u s.dev) ∧
  (∀ (s : State) (t : Nat) (h : HostCtx) (lv : Nat) (sl : Option Nat) (c : Instr) (id i : Nat) (b : Bytes) (r : Param), mailOf c = some (t, h, setOne id i b) → Accepted true s.dev t h (setOne id i b) lv sl → itemRow id i = some r → r.id ≠ P.SEC_PROV_LOCK → r.acc ≠ .ro → r.level ≤ lv → lenOk r b = false →
     id < 65536 → i < 65536 → b.length < 65536 →
     Completes (c) s fun u => Waits s.dev u h (setOne id i b) (.done { status := 4, body := le 2 id ++ le 2 i ++ le 1 4 ++ le 1 0 }) 0 ∧ u.rest = mailRest u s.dev t ∧ ItemsBut (mailItems ++ []) [] u s.dev) ∧
  (∀ (s : State) (t : Nat) (h : HostCtx) (lv : Nat) (sl : Option Nat) (c : Instr) (id i : Nat) (b : Bytes) (r : Param), mailOf c = some (t, h, setOne id i b) → Accepted true s.dev t h (setOne id i b) lv sl → itemRow id i = some r → r.id ≠ P.SEC_PROV_LOCK → r.acc = .rwi → r.level ≤ lv → lenOk r b = true → id / 256 = 0x10 → s.dev.rd P.GNS_RUN ≠ 0 →
     id < 65536 → i < 65536 → b.length < 65536 →
     Completes (c) s fun u => Waits s.dev u h (setOne id i b) (.done { status := 5, body := le 2 id ++ le 2 i ++ le 1 5 ++ le 1 0 }) 0 ∧ u.rest = mailRest u s.dev t ∧ ItemsBut (mailItems ++ []) [] u s.dev)
end

