-- ==== Sys2Proof/Laws/Regs.lean ====
section
/-!
SUPPORT. The register file: a read after a write, what a write leaves, and the canonical form that every operation on it keeps.
-/
namespace Sys2Proof.Machine
open Sys2Proof

/-- Keys of different items never meet. -/
theorem regKey_ne {a b : Nat} (h : a ≠ b) (i j : Nat) : regKey a i ≠ regKey b j := by unfold regKey; omega

/-- Keys of one item meet for equal instances only. -/
theorem regKey_inj {a i j : Nat} (hi : i < 65536) (hj : j < 65536) : regKey a i = regKey a j ↔ i = j := by unfold regKey; omega

namespace Regs

theorem find_insert (k v : Nat) (r : RegFile) : find k (insert k v r) = some v := by
  induction r with
  | nil => simp [insert, find]
  | cons e rs ih =>
    obtain ⟨j, w⟩ := e
    unfold insert
    split
    · simp [find]
    · split
      · simp [find]
      · rename_i h1 h2
        rw [find, if_neg (fun h => h2 h.symm)]
        exact ih

theorem find_insert_ne {k k' : Nat} (h : k ≠ k') (v : Nat) (r : RegFile) : find k' (insert k v r) = find k' r := by
  induction r with
  | nil => simp [insert, find, h]
  | cons e rs ih =>
    obtain ⟨j, w⟩ := e
    unfold insert
    split
    · simp [find, h]
    · split
      · rename_i h1 h2
        subst h2
        simp [find, h]
      · simp [find, ih]

theorem find_erase (k : Nat) (r : RegFile) : find k (erase k r) = none := by
  induction r with
  | nil => rfl
  | cons e rs ih =>
    obtain ⟨j, w⟩ := e
    unfold erase
    split
    · exact ih
    · rename_i h
      rw [find, if_neg h]
      exact ih

theorem find_erase_ne {k k' : Nat} (h : k ≠ k') (r : RegFile) : find k' (erase k r) = find k' r := by
  induction r with
  | nil => rfl
  | cons e rs ih =>
    obtain ⟨j, w⟩ := e
    unfold erase
    split
    · rename_i hj
      subst hj
      rw [find, if_neg h]
      exact ih
    · simp [find, ih]

/-- A read after a write gives the value written. -/
@[simp] theorem get_put (r : RegFile) (k v : Nat) : get (put r k v) k = v := by
  by_cases h : v = resetVal k
  · simp [put, get, find_erase, h]
  · simp [put, get, find_insert, h]

/-- A write leaves every other key's value. -/
theorem get_put_ne (r : RegFile) {k k' : Nat} (h : k ≠ k') (v : Nat) : get (put r k v) k' = get r k' := by
  by_cases hv : v = resetVal k
  · simp [put, get, find_erase_ne h, hv]
  · simp [put, get, find_insert_ne h, hv]

theorem wfFrom_mono {r : RegFile} : ∀ {a b : Nat}, a ≤ b → wfFrom b r = true → wfFrom a r = true := by
  intro a b hab h
  cases r with
  | nil => rfl
  | cons e rs =>
    obtain ⟨k, v⟩ := e
    simp only [wfFrom, Bool.and_eq_true, decide_eq_true_eq] at h ⊢
    exact ⟨⟨by omega, h.1.2⟩, h.2⟩

theorem wfFrom_insert {k v : Nat} (hv : v ≠ resetVal k) : ∀ {r : RegFile} {b : Nat}, b ≤ k → wfFrom b r = true → wfFrom b (insert k v r) = true := by
  intro r
  induction r with
  | nil => intro b hb _; simp [insert, wfFrom, hb, hv]
  | cons e rs ih =>
    obtain ⟨j, w⟩ := e
    intro b hb h
    simp only [wfFrom, Bool.and_eq_true, decide_eq_true_eq, bne_iff_ne] at h
    unfold insert
    split
    · rename_i hk
      simp only [wfFrom, Bool.and_eq_true, decide_eq_true_eq, bne_iff_ne]
      exact ⟨⟨hb, hv⟩, ⟨by omega, h.1.2⟩, h.2⟩
    · split
      · rename_i h1 h2
        subst h2
        simp only [wfFrom, Bool.and_eq_true, decide_eq_true_eq, bne_iff_ne]
        exact ⟨⟨hb, hv⟩, h.2⟩
      · rename_i h1 h2
        simp only [wfFrom, Bool.and_eq_true, decide_eq_true_eq, bne_iff_ne]
        exact ⟨⟨h.1.1, h.1.2⟩, ih (by omega) h.2⟩

theorem wfFrom_erase {k : Nat} : ∀ {r : RegFile} {b : Nat}, wfFrom b r = true → wfFrom b (erase k r) = true := by
  intro r
  induction r with
  | nil => intro b _; rfl
  | cons e rs ih =>
    obtain ⟨j, w⟩ := e
    intro b h
    simp only [wfFrom, Bool.and_eq_true, decide_eq_true_eq, bne_iff_ne] at h
    unfold erase
    split
    · exact ih (wfFrom_mono (by omega) h.2)
    · simp only [wfFrom, Bool.and_eq_true, decide_eq_true_eq, bne_iff_ne]
      exact ⟨⟨h.1.1, h.1.2⟩, ih h.2⟩

theorem wfFrom_filter (p : Nat × Nat → Bool) : ∀ {r : RegFile} {b : Nat}, wfFrom b r = true → wfFrom b (r.filter p) = true := by
  intro r
  induction r with
  | nil => intro b _; rfl
  | cons e rs ih =>
    obtain ⟨j, w⟩ := e
    intro b h
    simp only [wfFrom, Bool.and_eq_true, decide_eq_true_eq, bne_iff_ne] at h
    rw [List.filter_cons]
    split
    · simp only [wfFrom, Bool.and_eq_true, decide_eq_true_eq, bne_iff_ne]
      exact ⟨⟨h.1.1, h.1.2⟩, ih h.2⟩
    · exact ih (wfFrom_mono (by omega) h.2)

/-- A write keeps the canonical form. -/
theorem wf_put {r : RegFile} (k v : Nat) (h : wf r = true) : wf (put r k v) = true := by
  unfold wf put at *
  split
  · exact wfFrom_erase h
  · rename_i hv
    exact wfFrom_insert hv (Nat.zero_le k) h

/-- Leaving out entries keeps the canonical form. -/
theorem wf_filter {r : RegFile} (p : Nat × Nat → Bool) (h : wf r = true) : wf (r.filter p) = true := wfFrom_filter p h

/-- Writing a list of values keeps the canonical form. -/
theorem wf_foldl_put {α : Type} (key val : α → Nat) (l : List α) : ∀ {r : RegFile}, wf r = true →
    wf (l.foldl (fun r e => put r (key e) (val e)) r) = true := by
  induction l with
  | nil => intro r h; exact h
  | cons e l ih => intro r h; exact ih (wf_put _ _ h)

end Regs

/-! ### Items -/

/-- An item read after it was written. -/
@[simp] theorem rd_wr (d : Dev) (id i v : Nat) : (d.wr id i v).rd id i = v := by simp [Dev.rd, Dev.wr]

/-- A write leaves every other item. -/
theorem rd_wr_ne (d : Dev) {a b : Nat} (h : a ≠ b) (i j v : Nat) : (d.wr a i v).rd b j = d.rd b j := by
  simp [Dev.rd, Dev.wr, Regs.get_put_ne _ (regKey_ne h i j)]

/-- A write leaves the item's other instances. -/
theorem rd_wr_inst (d : Dev) (a : Nat) {i j : Nat} (hi : i < 65536) (hj : j < 65536) (h : i ≠ j) (v : Nat) :
    (d.wr a i v).rd a j = d.rd a j := by
  simp [Dev.rd, Dev.wr, Regs.get_put_ne _ (fun e => h ((regKey_inj hi hj).1 e))]

/-- What an item reads after any write. -/
theorem rd_wr_eq (d : Dev) (a b i j v : Nat) :
    (d.wr a i v).rd b j = if regKey a i = regKey b j then v else d.rd b j := by
  split
  · rename_i h
    simp [Dev.rd, Dev.wr, ← h]
  · rename_i h
    simp [Dev.rd, Dev.wr, Regs.get_put_ne _ h]

end Sys2Proof.Machine
end

