-- ==== Sys2Proof/Laws/State.lean ====
section
/-!
SUPPORT. What the plainest updates of the device leave: one lemma for each update, with an equation for every field it does not touch.
-/
namespace Sys2Proof.Machine
open Sys2Proof

/-- An item written changes the register file alone. -/
@[simp] theorem wr_fields (d : Dev) (id i v : Nat) :
    (d.wr id i v).now = d.now ∧ (d.wr id i v).snap = d.snap ∧ (d.wr id i v).committedOnce = d.committedOnce ∧
    (d.wr id i v).staged = d.staged ∧ (d.wr id i v).ctrls = d.ctrls ∧ (d.wr id i v).out = d.out ∧ (d.wr id i v).freeIx = d.freeIx ∧
    (d.wr id i v).tim = d.tim ∧ (d.wr id i v).cyc = d.cyc ∧ (d.wr id i v).host = d.host ∧ (d.wr id i v).chutes = d.chutes ∧
    (d.wr id i v).rcd = d.rcd ∧ (d.wr id i v).stp = d.stp ∧ (d.wr id i v).air = d.air ∧ (d.wr id i v).gns = d.gns ∧
    (d.wr id i v).chiselOut = d.chiselOut ∧ (d.wr id i v).ring = d.ring ∧ (d.wr id i v).can = d.can ∧ (d.wr id i v).mtr = d.mtr ∧
    (d.wr id i v).drk = d.drk ∧ (d.wr id i v).dsp = d.dsp ∧ (d.wr id i v).tlg = d.tlg ∧ (d.wr id i v).pwr = d.pwr ∧ (d.wr id i v).peer = d.peer ∧
    (d.wr id i v).com = d.com := by
  exact ⟨rfl, rfl, rfl, rfl, rfl, rfl, rfl, rfl, rfl, rfl, rfl, rfl, rfl, rfl, rfl, rfl, rfl, rfl, rfl, rfl, rfl, rfl, rfl, rfl, rfl⟩

/-- A write sets no sticky flag. -/
theorem wr_sticky (d : Dev) (id i v : Nat) : (d.wr id i v).sticky = d.sticky := rfl

/-- An instant changes hub time alone. -/
@[simp] theorem at_fields (d : Dev) (t : Nat) :
    (d.at t).regs = d.regs ∧ (d.at t).snap = d.snap ∧ (d.at t).committedOnce = d.committedOnce ∧ (d.at t).sticky = d.sticky ∧
    (d.at t).staged = d.staged ∧ (d.at t).ctrls = d.ctrls ∧ (d.at t).out = d.out ∧ (d.at t).freeIx = d.freeIx ∧ (d.at t).tim = d.tim ∧
    (d.at t).cyc = d.cyc ∧ (d.at t).host = d.host ∧ (d.at t).chutes = d.chutes ∧ (d.at t).rcd = d.rcd ∧ (d.at t).stp = d.stp ∧ (d.at t).air = d.air ∧
    (d.at t).gns = d.gns ∧ (d.at t).chiselOut = d.chiselOut ∧ (d.at t).ring = d.ring ∧ (d.at t).can = d.can ∧ (d.at t).mtr = d.mtr ∧
    (d.at t).drk = d.drk ∧ (d.at t).dsp = d.dsp ∧ (d.at t).tlg = d.tlg ∧ (d.at t).pwr = d.pwr ∧ (d.at t).peer = d.peer ∧ (d.at t).com = d.com := by
  exact ⟨rfl, rfl, rfl, rfl, rfl, rfl, rfl, rfl, rfl, rfl, rfl, rfl, rfl, rfl, rfl, rfl, rfl, rfl, rfl, rfl, rfl, rfl, rfl, rfl, rfl, rfl⟩


end Sys2Proof.Machine
end

