-- ==== Sys2Proof/Laws/Reports.lean ====
section
/-!
SUPPORT. What a report does and does not touch: each operation that counts, sends, records or traces leaves the device the same in everything else
(`Same`), and what follows from that for the fields one reads.
-/
namespace Sys2Proof
open Sys2Proof.Machine

/-! ### Agreement -/

theorem Same.refl (d : Dev) : Same d d := ⟨rfl, fun _ _ _ => ⟨rfl, rfl⟩⟩

theorem Same.symm {a b : Dev} (h : Same a b) : Same b a := ⟨h.1.symm, fun id i hr => ⟨(h.2 id i hr).1.symm, (h.2 id i hr).2.symm⟩⟩

theorem Same.trans {a b c : Dev} (h : Same a b) (k : Same b c) : Same a c :=
  ⟨h.1.trans k.1, fun id i hr => ⟨(h.2 id i hr).1.trans (k.2 id i hr).1, (h.2 id i hr).2.trans (k.2 id i hr).2⟩⟩

/-- Where nothing but report fields differ and the register files and sticky flags are equal. -/
theorem Same.of_rest {a b : Dev} (h : a.rest = b.rest) (hr : a.regs = b.regs) (hs : a.sticky = b.sticky) : Same a b :=
  ⟨h, fun _ _ _ => by simp [Dev.rd, Dev.isSticky, hr, hs]⟩

/-- A change of fields that agreement does not cover keeps it. -/
theorem Same.ite {a b c : Dev} {p : Prop} [Decidable p] (h : Same a c) (k : Same b c) : Same (if p then a else b) c := by
  split
  · exact h
  · exact k

theorem Same.foldl {α : Type} (f : Dev → α → Dev) (hf : ∀ d a, Same (f d a) d) (l : List α) : ∀ d, Same (l.foldl f d) d := by
  induction l with
  | nil => intro d; exact Same.refl d
  | cons a l ih => intro d; exact (ih (f d a)).trans (hf d a)

/-! ### Fields of a device in agreement -/

/-- What agreement gives for the fields that meanings read. -/
abbrev Kept (a b : Dev) : Prop :=
  a.now = b.now ∧ a.snap = b.snap ∧ a.committedOnce = b.committedOnce ∧ a.staged = b.staged ∧ a.ctrls = b.ctrls ∧ a.freeIx = b.freeIx ∧
  a.tim = b.tim ∧ a.chutes = b.chutes ∧ a.stp = b.stp ∧ a.air = b.air ∧ a.gns = b.gns ∧ a.chiselOut = b.chiselOut ∧ a.ring = b.ring ∧
  a.can = b.can ∧ a.mtr = b.mtr ∧ a.drk = b.drk ∧ a.dsp = b.dsp ∧ a.pwr = b.pwr ∧ a.peer = b.peer ∧ a.com = b.com ∧
  a.rest = b.rest ∧ quietCyc a.cyc = quietCyc b.cyc ∧ quietHost a.host = quietHost b.host ∧ quietRcd a.rcd = quietRcd b.rcd ∧
  quietTlg a.tlg = quietTlg b.tlg ∧
  a.cyc.origin = b.cyc.origin ∧ a.cyc.next = b.cyc.next ∧ a.cyc.floor = b.cyc.floor ∧ a.cyc.adm = b.cyc.adm ∧ a.cyc.seqs = b.cyc.seqs ∧
  a.cyc.spilled = b.cyc.spilled ∧ a.cyc.inCommit = b.cyc.inCommit ∧ a.cyc.defer = b.cyc.defer ∧ a.cyc.journal = b.cyc.journal ∧
  a.cyc.feed = b.cyc.feed ∧ a.cyc.skipped = b.cyc.skipped ∧ a.cyc.overrun = b.cyc.overrun ∧ a.cyc.missed = b.cyc.missed ∧
  a.host.queue = b.host.queue ∧ a.host.dup = b.host.dup ∧ a.host.fails = b.host.fails ∧ a.host.fixed = b.host.fixed ∧
  a.host.loads = b.host.loads ∧ a.host.rxFill = b.host.rxFill ∧ a.host.discard = b.host.discard ∧ a.host.ctsStop = b.host.ctsStop ∧
  a.host.rtsOff = b.host.rtsOff ∧ a.rcd.nvNext = b.rcd.nvNext ∧ a.rcd.fullMark = b.rcd.fullMark ∧ a.rcd.clears = b.rcd.clears ∧
  a.rcd.pfail = b.rcd.pfail ∧ a.tlg.ctrs = b.tlg.ctrs ∧ a.tlg.stuck = b.tlg.stuck ∧ a.tlg.snaps = b.tlg.snaps ∧
  a.rcd.lwWrote = b.rcd.lwWrote ∧ a.cyc.flagCold = b.cyc.flagCold ∧ a.cyc.flagStep = b.cyc.flagStep ∧ a.cyc.flagTake = b.cyc.flagTake ∧
  a.cyc.lastCommitAt = b.cyc.lastCommitAt ∧ a.cyc.changedCov = b.cyc.changedCov ∧ a.cyc.covBase = b.cyc.covBase

theorem kept_of_rest {a b : Dev} (h : a.rest = b.rest) : Kept a b := by
  have f {α : Type} (g : Dev → α) : g a.rest = g b.rest := congrArg g h
  exact ⟨f (·.now), f (·.snap), f (·.committedOnce), f (·.staged), f (·.ctrls), f (·.freeIx), f (·.tim), f (·.chutes), f (·.stp), f (·.air),
    f (·.gns), f (·.chiselOut), f (·.ring), f (·.can), f (·.mtr), f (·.drk), f (·.dsp), f (·.pwr), f (·.peer), f (·.com), h, f (·.cyc), f (·.host),
    f (·.rcd), f (·.tlg), f (·.cyc.origin), f (·.cyc.next), f (·.cyc.floor), f (·.cyc.adm), f (·.cyc.seqs), f (·.cyc.spilled), f (·.cyc.inCommit),
    f (·.cyc.defer), f (·.cyc.journal), f (·.cyc.feed), f (·.cyc.skipped), f (·.cyc.overrun), f (·.cyc.missed), f (·.host.queue), f (·.host.dup),
    f (·.host.fails), f (·.host.fixed), f (·.host.loads), f (·.host.rxFill), f (·.host.discard), f (·.host.ctsStop), f (·.host.rtsOff),
    f (·.rcd.nvNext), f (·.rcd.fullMark), f (·.rcd.clears), f (·.rcd.pfail), f (·.tlg.ctrs), f (·.tlg.stuck), f (·.tlg.snaps), f (·.rcd.lwWrote),
    f (·.cyc.flagCold), f (·.cyc.flagStep), f (·.cyc.flagTake), f (·.cyc.lastCommitAt), f (·.cyc.changedCov), f (·.cyc.covBase)⟩

theorem Same.kept {a b : Dev} (h : Same a b) : Kept a b := kept_of_rest h.1

/-- Items in agreement, beside those of reports. -/
abbrev Reads (a b : Dev) : Prop := ∀ id i, reportItem id = false → a.rd id i = b.rd id i ∧ a.isSticky id i = b.isSticky id i ∧ a.cf id i = b.cf id i

theorem Same.reads {a b : Dev} (h : Same a b) : Reads a b := by
  intro id i hr
  refine ⟨(h.2 id i hr).1, (h.2 id i hr).2, ?_⟩
  simp only [Dev.cf, h.kept.2.2.2.1, (h.2 id i hr).1]

/-! ### Counters of reports -/

theorem report_ne {a b : Nat} (ha : reportItem a = true) (hb : reportItem b = false) : a ≠ b := by
  intro h; rw [h, hb] at ha; exact Bool.noConfusion ha

theorem wr_same (d : Dev) {id : Nat} (h : reportItem id = true) (i v : Nat) : Same (d.wr id i v) d :=
  ⟨rfl, fun _ _ hr => ⟨rd_wr_ne d (report_ne h hr) _ _ _, rfl⟩⟩

theorem sticky_same (d : Dev) {id : Nat} (h : reportItem id = true) (i : Nat) : Same { d with sticky := regKey id i :: d.sticky } d := by
  refine ⟨rfl, fun a j hr => ⟨rfl, ?_⟩⟩
  have : regKey a j ≠ regKey id i := regKey_ne (report_ne h hr).symm j i
  simp [Dev.isSticky, this]

theorem incAt_same (d : Dev) {id : Nat} (h : reportItem id = true) (i w : Nat) (c : Cnt) : Same (d.incAt id i w c) d := by
  unfold Dev.incAt
  cases c <;> simp only [] <;> (repeat' split) <;> first | exact wr_same d h _ _ | exact Same.refl d | exact sticky_same d h i

theorem inc_same (d : Dev) {id : Nat} (h : reportItem id = true) (i : Nat) : Same (d.inc id i) d := by
  unfold Dev.inc
  split
  · exact incAt_same d h _ _ _
  · exact Same.refl d

theorem addW_same (d : Dev) {id : Nat} (h : reportItem id = true) (i n : Nat) : Same (d.addW id i n) d := by
  unfold Dev.addW
  split
  · exact wr_same d h _ _
  · exact Same.refl d

/-! ### What leaves the device -/

theorem emit_same (d : Dev) (o : Output) : Same (d.emit o) d := by
  unfold Dev.emit
  repeat' split
  all_goals first | exact Same.refl d | exact Same.of_rest rfl rfl rfl

theorem putMail_same (d : Dev) (ep : Ep) (o : Output) : Same (d.putMail ep o) d := by
  unfold Dev.putMail
  split
  · exact Same.of_rest rfl rfl rfl
  · exact emit_same d o

/-- A slot's frame counter is no part of agreement. -/
theorem devCnt_same (d : Dev) {i n : Nat} {x : Session} (h : d.host.slots[i]? = some (some x)) :
    Same { d with host := { d.host with slots := d.host.slots.set i (some { x with devCnt := n }) } } d := by
  refine Same.of_rest ?_ rfl rfl
  have hs : (d.host.slots.set i (some { x with devCnt := n })).map quietSlot = d.host.slots.map quietSlot := by
    apply List.ext_getElem?
    intro j
    by_cases hj : i = j
    · subst hj
      obtain ⟨hl, hx⟩ := List.getElem?_eq_some_iff.1 h
      simp [hl, hx, quietSlot]
    · simp [List.getElem?_map, hj]
  simp only [Dev.rest, quietHost, hs]

/-- A mark of a lost frame is no part of agreement. -/
theorem lost_same (d : Dev) (i : Nat) (f : Sub → Nat) :
    Same { d with host := { d.host with subs := upd d.host.subs i fun u => { u with lost := f u } } } d := by
  refine Same.of_rest ?_ rfl rfl
  have hs : (upd d.host.subs i fun u => { u with lost := f u }).map quietSub = d.host.subs.map quietSub := by
    apply List.ext_getElem?
    intro j
    simp only [upd, List.getElem?_map, List.getElem?_modify]
    by_cases hj : i = j
    · subst hj; cases d.host.subs[i]? <;> simp [quietSub]
    · cases d.host.subs[j]? <;> simp [hj]
  simp only [Dev.rest, quietHost, hs]

theorem mapFrom_get {α β : Type} (f : Nat → α → β) : ∀ (l : List α) (n i : Nat), (mapFrom f n l)[i]? = (l[i]?).map (f (n + i)) := by
  intro l
  induction l with
  | nil => intro n i; simp [mapFrom]
  | cons a l ih =>
    intro n i
    cases i with
    | zero => simp [mapFrom]
    | succ i =>
      simp only [mapFrom, List.getElem?_cons_succ, ih]
      congr 2; omega

/-- A slot found for an endpoint stands at its index. -/
theorem slotOf_spec {ep : Ep} {l : List (Option Session)} {i : Nat} {x : Session} (h : slotOf ep l = some (i, x)) : l[i]? = some (some x) ∧ x.ep = ep := by
  unfold slotOf at h
  obtain ⟨a, ha, hf⟩ := List.exists_of_findSome?_eq_some h
  obtain ⟨k, hk⟩ := List.mem_iff_getElem?.1 ha
  rw [mapFrom_get] at hk
  cases hl : l[k]? with
  | none => simp [hl] at hk
  | some o =>
    simp only [hl, Option.map_some, Option.some.injEq] at hk
    subst hk
    simp only [Nat.zero_add] at hf
    cases o with
    | none => simp at hf
    | some s =>
      simp only at hf
      split at hf
      · rename_i he
        simp only [Option.some.injEq, Prod.mk.injEq] at hf
        obtain ⟨rfl, rfl⟩ := hf
        exact ⟨hl, he⟩
      · simp at hf

theorem sendFrame_same (d : Dev) (kind : Nat) (ep : Ep) (tag mbx flags : Nat) (p : Bytes) (tr : Bool) :
    Same (d.sendFrame kind ep tag mbx flags p tr) d := by
  unfold Dev.sendFrame
  split
  · exact Same.refl d
  · have h1 : Same (d.inc P.HST_TX_FRAMES ep.tr) d := inc_same d (by decide) _
    simp only []
    split
    · rename_i i s hs
      split
      · exact (putMail_same _ _ _).trans ((devCnt_same _ (slotOf_spec hs).1).trans h1)
      · exact (putMail_same _ _ _).trans h1
    · exact (putMail_same _ _ _).trans h1

theorem sendParts_same (ep : Ep) (tag mbx : Nat) (head : Bytes) (tr : Bool) (ps : List Bytes) :
    ∀ d : Dev, Same (d.sendParts ep tag mbx head tr ps) d := by
  induction ps with
  | nil => intro d; exact Same.refl d
  | cons p ps ih =>
    intro d
    cases ps with
    | nil => exact sendFrame_same _ _ _ _ _ _ _ _
    | cons q qs => exact (ih _).trans (sendFrame_same _ _ _ _ _ _ _ _)

theorem sendReply_same (d : Dev) (ep : Ep) (tag mbx op : Nat) (r : Reply) (tr : Bool) : Same (d.sendReply ep tag mbx op r tr) d := by
  unfold Dev.sendReply
  exact sendParts_same _ _ _ _ _ _ d

theorem stream_same (d : Dev) (kind : Nat) (item : Bytes) : Same (d.stream kind item) d := by
  unfold Dev.stream
  refine (Same.foldl _ ?_ _ _).trans ((emit_same _ _).trans (Same.of_rest rfl rfl rfl))
  intro d i
  simp only []
  split
  · split
    · exact (sendFrame_same _ _ _ _ _ _ _ _).trans (lost_same d i _)
    · exact (inc_same _ (id := P.HST_STREAM_DROP) (by decide) _).trans (lost_same d i _)
  · exact Same.refl d

/-! ### Records and notices -/

theorem quiet_onNewest (g : Recorder) (c : Bool) (f : Rec → Rec) : quietRcd (g.onNewest c f) = quietRcd g := by
  unfold Recorder.onNewest
  repeat' split
  all_goals rfl

theorem quiet_enter (g : Recorder) (x : Rec) : quietRcd (g.enter x) = quietRcd g :=
  Eq.trans (b := quietRcd (g.onNewest x.safety fun y => { y with isOpen := false })) rfl (quiet_onNewest _ _ _)

theorem rcd_same (d : Dev) {x : Recorder} (h : quietRcd x = quietRcd d.rcd) : Same { d with rcd := x } d := by
  refine Same.of_rest ?_ rfl rfl
  simp only [Dev.rest, h]

theorem record_same (d : Dev) (r : Rec) : Same (d.record r) d := by
  unfold Dev.record
  split
  · exact Same.refl d
  · split
    · exact (inc_same _ (id := P.LOG_COALESCED) (by decide) _).trans (rcd_same d (quiet_onNewest _ _ _))
    · split
      · exact inc_same d (id := P.LOG_BUF_DROPS) (by decide) _
      · have h := inc_same d (id := P.LOG_NEXT) (by decide) (bit r.safety)
        exact (rcd_same _ (by rw [quiet_enter]; exact (congrArg Dev.rcd h.1).symm)).trans h

theorem log_same (d : Dev) (code tile : Nat) (body : Bytes) : Same (d.log code tile body) d := by
  unfold Dev.log
  simp only []
  split
  · exact (record_same _ _).trans (Same.of_rest rfl rfl rfl)
  · exact record_same _ _

theorem noticeOut_same (d : Dev) (code : Nat) (body : Bytes) : Same (d.noticeOut code body) d := by
  unfold Dev.noticeOut
  refine (Same.foldl _ ?_ _ _).trans ((Same.of_rest (b := d.inc P.HST_NOTICE_SEQ) rfl rfl rfl).trans (inc_same d (by decide) _))
  intro d i
  simp only []
  split
  · exact (sendFrame_same _ _ _ _ _ _ _ _).trans (lost_same d i _)
  · exact Same.refl d

theorem noticeNow_same (d : Dev) (code tile : Nat) (body : Bytes) (a : Option Nat) : Same (d.noticeNow code tile body a) d := by
  unfold Dev.noticeNow
  simp only []
  split <;> exact (noticeOut_same _ _ _).trans (log_same _ _ _ _)

theorem noticeAt_same (d : Dev) (code tile : Nat) (body : Bytes) (a : Option Nat) : Same (d.noticeAt code tile body a) d := by
  unfold Dev.noticeAt
  split
  · exact Same.of_rest rfl rfl rfl
  · exact noticeNow_same _ _ _ _ _

theorem notice_same (d : Dev) (code : Nat) (body : Bytes) : Same (d.notice code body) d := noticeAt_same _ _ _ _ _

theorem noticeT_same (d : Dev) (code : Nat) (body : Bytes) : Same (d.noticeT code body) d := noticeAt_same _ _ _ _ _

theorem faultLast_same (d : Dev) (code loc : Nat) : Same (d.faultLast code loc) d := wr_same d (by decide) _ _

theorem fault_same (d : Dev) (code loc : Nat) (body : Bytes) : Same (d.fault code loc body) d :=
  (noticeAt_same _ _ _ _ _).trans (faultLast_same _ _ _)

theorem faultLog_same (d : Dev) (eng loc : Nat) (body : Bytes) : Same (d.faultLog eng loc body) d := by
  unfold Dev.faultLog
  exact (record_same _ _).trans (faultLast_same _ _ _)

/-! ### Trace -/

theorem tlg_same (d : Dev) {x : TlgSt} (h : quietTlg x = quietTlg d.tlg) : Same { d with tlg := x } d := by
  refine Same.of_rest ?_ rfl rfl
  simp only [Dev.rest, h]

theorem traceOut_same (d : Dev) (src kind : Nat) (body : Bytes) : Same (d.traceOut src kind body) d := by
  unfold Dev.traceOut
  refine (stream_same _ _ _).trans ((emit_same _ _).trans ((addW_same _ (id := P.TLG_RECORDS) (by decide) _ _).trans (Same.of_rest rfl rfl rfl)))

theorem traceSync_same (d : Dev) : Same d.traceSync d := by
  unfold Dev.traceSync
  exact (traceOut_same _ _ _ _).trans (Same.of_rest rfl rfl rfl)

theorem traceLost_same (d : Dev) : Same d.traceLost d := by
  have h (k : Nat) (b : Bytes) : Same ({ d with tlg := { d.tlg with lost := 0 } }.traceOut 0 k b) d :=
    (traceOut_same _ _ _ _).trans (tlg_same d rfl)
  unfold Dev.traceLost
  simp only []
  split
  · exact Same.refl d
  · split
    · split
      · exact h _ _
      · exact (noticeT_same _ _ _).trans ((tlg_same _ rfl).trans (h _ _))
    · exact (noticeT_same _ _ _).trans ((tlg_same _ rfl).trans (h _ _))

theorem trace_same (d : Dev) (src kind : Nat) (body : Bytes) : Same (d.trace src kind body) d := by
  unfold Dev.trace
  split
  · exact Same.refl d
  · split
    · exact (inc_same _ (id := P.TLG_DROPPED) (by decide) _).trans (Same.of_rest rfl rfl rfl)
    · refine (traceOut_same _ _ _ _).trans ((traceLost_same _).trans ?_)
      unfold Dev.when
      split
      · exact traceSync_same d
      · exact Same.refl d

/-- An instant changes hub time alone. -/
@[simp] theorem rest_at (d : Dev) (t : Nat) : (d.at t).rest = { d.rest with now := max d.now t } := rfl

/-! ### Reading through a record update -/

/-- The value in force, from the staged writes and the register file. -/
def cfIn (st : List Staged) (r : RegFile) (id i : Nat) : Nat :=
  match st.find? (fun s => s.key == regKey id i) with
  | some s => s.old
  | none => Regs.get r (regKey id i)

/-- A sticky flag, from the flags set. -/
def stickyIn (st : List Nat) (id i : Nat) : Bool := st.contains (regKey id i)

section
variable (f0 : Nat) (f1 : RegFile) (f2 : RegFile) (f3 : Bool) (f4 : List Nat) (f5 : List Staged) (f6 : List (Nat × Nat × Nat × Bytes)) (f7 : List
  Output) (f8 : Nat) (f9 : Tim) (f10 : Cyc) (f11 : HostSt) (f12 : List Chute) (f13 : Recorder) (f14 : Stop) (f15 : Air) (f16 : Gns) (f17 :
  List Nat) (f18 : RingSt) (f19 : CanSt) (f20 : MtrSt) (f21 : DrkSt) (f22 : DspSt) (f23 : TlgSt) (f24 : Pwr) (f25 : Peer) (f26 : Com)

@[simp] theorem rd_mk (id i : Nat) : Dev.rd (Dev.mk f0 f1 f2 f3 f4 f5 f6 f7 f8 f9 f10 f11 f12 f13 f14 f15 f16 f17 f18 f19 f20 f21 f22 f23 f24 f25 f26) id i =
    Regs.get f1 (regKey id i) := rfl

@[simp] theorem sticky_mk (id i : Nat) : Dev.isSticky (Dev.mk f0 f1 f2 f3 f4 f5 f6 f7 f8 f9 f10 f11 f12 f13 f14 f15 f16 f17 f18 f19 f20 f21 f22 f23 f24 f25 f26) id i =
    stickyIn f4 id i := rfl

@[simp] theorem cf_mk (id i : Nat) : Dev.cf (Dev.mk f0 f1 f2 f3 f4 f5 f6 f7 f8 f9 f10 f11 f12 f13 f14 f15 f16 f17 f18 f19 f20 f21 f22 f23 f24 f25 f26) id i = cfIn f5 f1 id i := rfl

@[simp] theorem rest_mk : Dev.rest (Dev.mk f0 f1 f2 f3 f4 f5 f6 f7 f8 f9 f10 f11 f12 f13 f14 f15 f16 f17 f18 f19 f20 f21 f22 f23 f24 f25 f26) =
    { Dev.mk f0 f1 f2 f3 f4 f5 f6 f7 f8 f9 f10 f11 f12 f13 f14 f15 f16 f17 f18 f19 f20 f21 f22 f23 f24 f25 f26 with
        regs := [], sticky := [], out := [], cyc := quietCyc f10, host := quietHost f11, rcd := quietRcd f13, tlg := quietTlg f23 } := rfl

/-- The items read as before where neither the register file nor the sticky flags change. -/
@[simp] theorem itemsBut_mk (ids : List Nat) (ks : List (Nat × Nat)) (d e : Dev) : ItemsBut ids ks
    (Dev.mk f0 d.regs f2 f3 d.sticky f5 f6 f7 f8 f9 f10 f11 f12 f13 f14 f15 f16 f17 f18 f19 f20 f21 f22 f23 f24 f25 f26) e ↔
    ItemsBut ids ks d e := Iff.rfl

end

@[simp] theorem get_regs (d : Dev) (id i : Nat) : Regs.get d.regs (regKey id i) = d.rd id i := rfl

@[simp] theorem stickyIn_self (d : Dev) (id i : Nat) : stickyIn d.sticky id i = d.isSticky id i := rfl

@[simp] theorem cfIn_self (d : Dev) (id i : Nat) : cfIn d.staged d.regs id i = d.cf id i := rfl

theorem cf_wr_ne (d : Dev) {a b : Nat} (h : a ≠ b) (i j v : Nat) : (d.wr a i v).cf b j = d.cf b j := by
  simp only [Dev.cf, (wr_fields d a i v).2.2.2.1, rd_wr_ne d h]

@[simp] theorem sticky_wr (d : Dev) (a i v id j : Nat) : (d.wr a i v).isSticky id j = d.isSticky id j := rfl

@[simp] theorem rest_wr (d : Dev) (a i v : Nat) : (d.wr a i v).rest = d.rest := rfl

@[simp] theorem rd_at (d : Dev) (t id i : Nat) : (d.at t).rd id i = d.rd id i := rfl

@[simp] theorem cf_at (d : Dev) (t id i : Nat) : (d.at t).cf id i = d.cf id i := rfl

@[simp] theorem sticky_at (d : Dev) (t id i : Nat) : (d.at t).isSticky id i = d.isSticky id i := rfl

@[simp] theorem now_at (d : Dev) (t : Nat) : (d.at t).now = max d.now t := rfl

/-- What the rest of a device holds. -/
@[simp] theorem rest_fields (d : Dev) :
    d.rest.now = d.now ∧ d.rest.regs = [] ∧ d.rest.snap = d.snap ∧ d.rest.committedOnce = d.committedOnce ∧ d.rest.sticky = [] ∧
    d.rest.staged = d.staged ∧ d.rest.ctrls = d.ctrls ∧ d.rest.out = [] ∧ d.rest.freeIx = d.freeIx ∧ d.rest.tim = d.tim ∧ d.rest.cyc =
    quietCyc d.cyc ∧ d.rest.host = quietHost d.host ∧ d.rest.chutes = d.chutes ∧ d.rest.rcd = quietRcd d.rcd ∧ d.rest.stp = d.stp ∧
    d.rest.air = d.air ∧ d.rest.gns = d.gns ∧ d.rest.chiselOut = d.chiselOut ∧ d.rest.ring = d.ring ∧ d.rest.can = d.can ∧ d.rest.mtr
    = d.mtr ∧ d.rest.drk = d.drk ∧ d.rest.dsp = d.dsp ∧ d.rest.tlg = quietTlg d.tlg ∧ d.rest.pwr = d.pwr ∧ d.rest.peer = d.peer ∧
    d.rest.com = d.com := by
  repeat' constructor

/-! ### Frames of items -/

@[simp] theorem itemsBut_self (ids : List Nat) (ks : List (Nat × Nat)) (d : Dev) : ItemsBut ids ks d d := fun _ _ _ _ _ => ⟨rfl, rfl⟩

@[simp] theorem itemsBut_at (ids : List Nat) (ks : List (Nat × Nat)) (d e : Dev) (t : Nat) : ItemsBut ids ks (d.at t) e ↔ ItemsBut ids ks d e := Iff.rfl

theorem itemsBut_congr {ids : List Nat} {ks : List (Nat × Nat)} {a b : Dev} (h : ItemsBut ids ks a b) (e : Dev) :
    ItemsBut ids ks a e ↔ ItemsBut ids ks b e := by
  constructor
  · intro k id i hr hn hk
    exact ⟨(h id i hr hn hk).1.symm.trans (k id i hr hn hk).1, (h id i hr hn hk).2.symm.trans (k id i hr hn hk).2⟩
  · intro k id i hr hn hk
    exact ⟨(h id i hr hn hk).1.trans (k id i hr hn hk).1, (h id i hr hn hk).2.trans (k id i hr hn hk).2⟩

theorem Same.itemsBut {a b : Dev} (h : Same a b) (ids : List Nat) (ks : List (Nat × Nat)) (e : Dev) : ItemsBut ids ks a e ↔ ItemsBut ids ks b e :=
  itemsBut_congr (fun id i hr _ _ => h.2 id i hr) e

theorem ItemsBut.trans {ids : List Nat} {ks : List (Nat × Nat)} {a b c : Dev} (h : ItemsBut ids ks a b) (g : ItemsBut ids ks b c) : ItemsBut ids ks a c :=
  (itemsBut_congr h c).mpr g

/-- What touches less touches no more. -/
theorem ItemsBut.mono {ids ids' : List Nat} {ks ks' : List (Nat × Nat)} {a b : Dev} (h : ItemsBut ids ks a b) (hi : ∀ x ∈ ids, x ∈ ids')
    (hk : ∀ k ∈ ks, k.1 ∈ ids' ∨ k ∈ ks') : ItemsBut ids' ks' a b := by
  intro id i hr hn hh
  refine h id i hr (fun m => hn (hi _ m)) (fun k m => ?_)
  rcases hk k m with q | q
  · exact regKey_ne (fun e => hn (by rw [← e]; exact q)) _ _
  · exact hh k q

/-- Only the key written is read differently. -/
theorem itemsBut_key {ids : List Nat} {ks : List (Nat × Nat)} {id i : Nat} (h : id ∈ ids ∨ (id, i) ∈ ks) {a b : Dev}
    (k : ∀ x j, regKey id i ≠ regKey x j → a.rd x j = b.rd x j ∧ a.isSticky x j = b.isSticky x j) (e : Dev) :
    ItemsBut ids ks a e ↔ ItemsBut ids ks b e :=
  itemsBut_congr (fun x j _ hn hk => k x j (h.elim (fun m => regKey_ne (fun hh => hn (hh ▸ m)) _ _) (fun m => hk (id, i) m))) e

/-- A write of a named item. -/
theorem itemsBut_wr {ids : List Nat} {ks : List (Nat × Nat)} {id i : Nat} (h : id ∈ ids ∨ (id, i) ∈ ks) (d e : Dev) (v : Nat) :
    ItemsBut ids ks (d.wr id i v) e ↔ ItemsBut ids ks d e :=
  itemsBut_key h (fun _ _ hk => ⟨(rd_wr_eq d _ _ _ _ v).trans (if_neg hk), rfl⟩) e

/-! ### Counters -/

theorem wr_spec (d : Dev) (id i v : Nat) :
    (d.wr id i v).rest = d.rest ∧ ∀ a j, regKey id i ≠ regKey a j → (d.wr id i v).rd a j = d.rd a j ∧ (d.wr id i v).isSticky a j = d.isSticky a j :=
  ⟨rfl, fun a j h => ⟨(rd_wr_eq d id a i j v).trans (if_neg h), rfl⟩⟩

theorem mark_spec (d : Dev) (id i : Nat) :
    Dev.rest { d with sticky := regKey id i :: d.sticky } = d.rest ∧ ∀ a j, regKey id i ≠ regKey a j →
      Dev.rd { d with sticky := regKey id i :: d.sticky } a j = d.rd a j ∧
        Dev.isSticky { d with sticky := regKey id i :: d.sticky } a j = d.isSticky a j :=
  ⟨rfl, fun a j h => ⟨rfl, by simp [Dev.isSticky, Ne.symm h]⟩⟩

theorem incAt_spec (d : Dev) (id i w : Nat) (c : Cnt) :
    (d.incAt id i w c).rest = d.rest ∧ ∀ a j, regKey id i ≠ regKey a j →
      (d.incAt id i w c).rd a j = d.rd a j ∧ (d.incAt id i w c).isSticky a j = d.isSticky a j := by
  unfold Dev.incAt
  cases c <;> simp only []
  case stick =>
    split
    · exact wr_spec _ _ _ _
    · split
      · exact ⟨rfl, fun _ _ _ => ⟨rfl, rfl⟩⟩
      · exact mark_spec _ _ _
  all_goals exact wr_spec _ _ _ _

/-- A counter advanced changes the counter alone. -/
theorem inc_spec (d : Dev) (id i : Nat) :
    (d.inc id i).rest = d.rest ∧ ∀ a j, regKey id i ≠ regKey a j → (d.inc id i).rd a j = d.rd a j ∧ (d.inc id i).isSticky a j = d.isSticky a j := by
  unfold Dev.inc
  split
  · exact incAt_spec _ _ _ _ _
  · exact ⟨rfl, fun _ _ _ => ⟨rfl, rfl⟩⟩

@[simp] theorem inc_kept (d : Dev) (id i : Nat) : Kept (d.inc id i) d := kept_of_rest (inc_spec d id i).1

/-- The counter's own value. -/
theorem incAt_self (d : Dev) (id i w : Nat) (c : Cnt) :
    (d.incAt id i w c).rd id i =
      if c = .stick then (if d.rd id i + 1 < 256 ^ w then d.rd id i + 1 else d.rd id i) else (d.rd id i + 1) % 256 ^ w := by
  by_cases hc : c = .stick
  · subst hc
    unfold Dev.incAt
    simp only [if_true]
    by_cases hv : d.rd id i + 1 < 256 ^ w
    · rw [if_pos hv, if_pos hv, rd_wr]
    · rw [if_neg hv, if_neg hv]
      by_cases hs : d.isSticky id i = true
      · rw [if_pos hs]
      · rw [if_neg hs]; rfl
  · rw [if_neg hc]
    cases c
    case stick => exact absurd rfl hc
    all_goals exact rd_wr _ _ _ _

theorem rd_inc_self (d : Dev) (id i : Nat) : (d.inc id i).rd id i = bumped id (d.rd id i) := by
  cases hp : paramOf id with
  | none => simp only [Dev.inc, bumped, hp]
  | some p =>
    have h1 : d.inc id i = d.incAt id i p.ty.width p.cnt := by simp only [Dev.inc, hp]
    have h2 : bumped id (d.rd id i) =
        if p.cnt = .stick then (if d.rd id i + 1 < 256 ^ p.ty.width then d.rd id i + 1 else d.rd id i) else (d.rd id i + 1) % 256 ^ p.ty.width := by
      simp only [bumped, hp]
      cases p.cnt <;> rfl
    rw [h1, h2, incAt_self]

theorem inc_out (d : Dev) (id i : Nat) : (d.inc id i).out = d.out := by
  unfold Dev.inc Dev.incAt
  simp only []
  repeat' split
  all_goals rfl

/-- Advancing a counter touches the register file and the sticky flags alone. -/
@[simp] theorem inc_exact (d : Dev) (id i : Nat) : (d.inc id i).cyc = d.cyc ∧ (d.inc id i).host = d.host ∧ (d.inc id i).rcd = d.rcd ∧
    (d.inc id i).tlg = d.tlg ∧ (d.inc id i).out = d.out := by
  unfold Dev.inc Dev.incAt
  simp only []
  repeat' split
  all_goals exact ⟨rfl, rfl, rfl, rfl, rfl⟩

theorem rd_inc (d : Dev) {a b i j : Nat} (h : regKey a i ≠ regKey b j) : (d.inc a i).rd b j = d.rd b j := ((inc_spec d a i).2 b j h).1

theorem sticky_inc (d : Dev) {a b i j : Nat} (h : regKey a i ≠ regKey b j) : (d.inc a i).isSticky b j = d.isSticky b j := ((inc_spec d a i).2 b j h).2

theorem rd_inc_ne (d : Dev) {a b : Nat} (h : a ≠ b) (i j : Nat) : (d.inc a i).rd b j = d.rd b j := ((inc_spec d a i).2 b j (regKey_ne h i j)).1

theorem cf_inc_ne (d : Dev) {a b : Nat} (h : a ≠ b) (i j : Nat) : (d.inc a i).cf b j = d.cf b j := by
  simp only [Dev.cf, (inc_kept d a i).2.2.2.1, rd_inc_ne d h]

theorem itemsBut_inc {ids : List Nat} {ks : List (Nat × Nat)} {id i : Nat} (h : id ∈ ids ∨ (id, i) ∈ ks) (d e : Dev) :
    ItemsBut ids ks (d.inc id i) e ↔ ItemsBut ids ks d e :=
  itemsBut_key h (inc_spec d id i).2 e

theorem itemsBut_addW {ids : List Nat} {ks : List (Nat × Nat)} {id i : Nat} (h : id ∈ ids ∨ (id, i) ∈ ks) (d e : Dev) (n : Nat) :
    ItemsBut ids ks (d.addW id i n) e ↔ ItemsBut ids ks d e := by
  unfold Dev.addW
  split
  · exact itemsBut_wr h _ _ _
  · exact Iff.rfl

theorem itemsBut_maxTo {ids : List Nat} {ks : List (Nat × Nat)} {id i : Nat} (h : id ∈ ids ∨ (id, i) ∈ ks) (d e : Dev) (n : Nat) :
    ItemsBut ids ks (d.maxTo id i n) e ↔ ItemsBut ids ks d e := by
  unfold Dev.maxTo
  split
  · exact itemsBut_wr h _ _ _
  · exact Iff.rfl

theorem itemsBut_wrS {ids : List Nat} {ks : List (Nat × Nat)} {id i : Nat} (h : id ∈ ids ∨ (id, i) ∈ ks) (d e : Dev) (z : Int) :
    ItemsBut ids ks (d.wrS id i z) e ↔ ItemsBut ids ks d e := by
  unfold Dev.wrS
  split
  · exact itemsBut_wr h _ _ _
  · exact Iff.rfl

@[simp] theorem wrS_exact (d : Dev) (id i : Nat) (z : Int) : (d.wrS id i z).cyc = d.cyc ∧ (d.wrS id i z).host = d.host ∧ (d.wrS id i z).rcd = d.rcd ∧
    (d.wrS id i z).tlg = d.tlg ∧ (d.wrS id i z).out = d.out := by
  unfold Dev.wrS
  split <;> exact ⟨rfl, rfl, rfl, rfl, rfl⟩

@[simp] theorem wrS_kept (d : Dev) (id i : Nat) (z : Int) : Kept (d.wrS id i z) d := by
  unfold Dev.wrS
  split <;> exact kept_of_rest rfl

@[simp] theorem addW_exact (d : Dev) (id i : Nat) (n : Nat) : (d.addW id i n).cyc = d.cyc ∧ (d.addW id i n).host = d.host ∧ (d.addW id i n).rcd = d.rcd ∧
    (d.addW id i n).tlg = d.tlg ∧ (d.addW id i n).out = d.out := by
  unfold Dev.addW
  split <;> exact ⟨rfl, rfl, rfl, rfl, rfl⟩

@[simp] theorem addW_kept (d : Dev) (id i n : Nat) : Kept (d.addW id i n) d := by
  unfold Dev.addW
  split <;> exact kept_of_rest rfl

@[simp] theorem maxTo_exact (d : Dev) (id i : Nat) (n : Nat) : (d.maxTo id i n).cyc = d.cyc ∧ (d.maxTo id i n).host = d.host ∧ (d.maxTo id i n).rcd = d.rcd ∧
    (d.maxTo id i n).tlg = d.tlg ∧ (d.maxTo id i n).out = d.out := by
  unfold Dev.maxTo
  split <;> exact ⟨rfl, rfl, rfl, rfl, rfl⟩

@[simp] theorem maxTo_kept (d : Dev) (id i n : Nat) : Kept (d.maxTo id i n) d := by
  unfold Dev.maxTo
  split <;> exact kept_of_rest rfl

theorem rd_wrS_ne (d : Dev) {a b : Nat} (h : a ≠ b) (i j : Nat) (z : Int) : (d.wrS a i z).rd b j = d.rd b j := by
  unfold Dev.wrS
  split
  · exact rd_wr_ne d h _ _ _
  · rfl

theorem rd_maxTo_ne (d : Dev) {a b : Nat} (h : a ≠ b) (i j n : Nat) : (d.maxTo a i n).rd b j = d.rd b j := by
  unfold Dev.maxTo
  split
  · exact rd_wr_ne d h _ _ _
  · rfl

theorem rd_addW_ne (d : Dev) {a b : Nat} (h : a ≠ b) (i j n : Nat) : (d.addW a i n).rd b j = d.rd b j := by
  unfold Dev.addW
  split
  · exact rd_wr_ne d h _ _ _
  · rfl

theorem cf_wrS_ne (d : Dev) {a b : Nat} (h : a ≠ b) (i j : Nat) (z : Int) : (d.wrS a i z).cf b j = d.cf b j := by
  simp only [Dev.cf, (wrS_kept d a i z).2.2.2.1, rd_wrS_ne d h]

theorem cfIn_wr_ne (st : List Staged) (d : Dev) {a b : Nat} (h : a ≠ b) (i j v : Nat) : cfIn st (d.wr a i v).regs b j = cfIn st d.regs b j := by
  have := rd_wr_ne d h i j v
  simp only [Dev.rd] at this
  simp only [cfIn, this]

theorem cfIn_inc_ne (st : List Staged) (d : Dev) {a b : Nat} (h : a ≠ b) (i j : Nat) : cfIn st (d.inc a i).regs b j = cfIn st d.regs b j := by
  have := rd_inc_ne d h i j
  simp only [Dev.rd] at this
  simp only [cfIn, this]

theorem cfIn_wrS_ne (st : List Staged) (d : Dev) {a b : Nat} (h : a ≠ b) (i j : Nat) (z : Int) : cfIn st (d.wrS a i z).regs b j = cfIn st d.regs b j := by
  have := rd_wrS_ne d h i j z
  simp only [Dev.rd] at this
  simp only [cfIn, this]

theorem itemsBut_incR {ids : List Nat} {ks : List (Nat × Nat)} {id : Nat} (h : reportItem id = true) (d e : Dev) (i : Nat) :
    ItemsBut ids ks (d.inc id i) e ↔ ItemsBut ids ks d e := (inc_same d h i).itemsBut ids ks e

/-! ### What each report keeps -/

@[simp] theorem emit_kept (d : Dev) (o : Output) : Kept (d.emit o) d := (emit_same d o).kept

theorem emit_reads (d : Dev) (o : Output) : Reads (d.emit o) d := (emit_same d o).reads

@[simp] theorem itemsBut_emit (ids : List Nat) (ks : List (Nat × Nat)) (d e : Dev) (o : Output) :
    ItemsBut ids ks (d.emit o) e ↔ ItemsBut ids ks d e := (emit_same d o).itemsBut ids ks e

@[simp] theorem putMail_kept (d : Dev) (ep : Ep) (o : Output) : Kept (d.putMail ep o) d := (putMail_same d ep o).kept

theorem putMail_reads (d : Dev) (ep : Ep) (o : Output) : Reads (d.putMail ep o) d := (putMail_same d ep o).reads

@[simp] theorem itemsBut_putMail (ids : List Nat) (ks : List (Nat × Nat)) (d e : Dev) (ep : Ep) (o : Output) :
    ItemsBut ids ks (d.putMail ep o) e ↔ ItemsBut ids ks d e := (putMail_same d ep o).itemsBut ids ks e

@[simp] theorem sendFrame_kept (d : Dev) (kind : Nat) (ep : Ep) (tag mbx flags : Nat) (p : Bytes) (tr : Bool) : Kept (d.sendFrame kind ep tag mbx flags p tr) d := (sendFrame_same d kind ep tag mbx flags p tr).kept

theorem sendFrame_reads (d : Dev) (kind : Nat) (ep : Ep) (tag mbx flags : Nat) (p : Bytes) (tr : Bool) : Reads (d.sendFrame kind ep tag mbx flags p tr) d := (sendFrame_same d kind ep tag mbx flags p tr).reads

@[simp] theorem itemsBut_sendFrame (ids : List Nat) (ks : List (Nat × Nat)) (d e : Dev) (kind : Nat) (ep : Ep) (tag mbx flags : Nat) (p : Bytes) (tr : Bool) :
    ItemsBut ids ks (d.sendFrame kind ep tag mbx flags p tr) e ↔ ItemsBut ids ks d e := (sendFrame_same d kind ep tag mbx flags p tr).itemsBut ids ks e

@[simp] theorem sendReply_kept (d : Dev) (ep : Ep) (tag mbx op : Nat) (r : Reply) (tr : Bool) : Kept (d.sendReply ep tag mbx op r tr) d := (sendReply_same d ep tag mbx op r tr).kept

theorem sendReply_reads (d : Dev) (ep : Ep) (tag mbx op : Nat) (r : Reply) (tr : Bool) : Reads (d.sendReply ep tag mbx op r tr) d := (sendReply_same d ep tag mbx op r tr).reads

@[simp] theorem itemsBut_sendReply (ids : List Nat) (ks : List (Nat × Nat)) (d e : Dev) (ep : Ep) (tag mbx op : Nat) (r : Reply) (tr : Bool) :
    ItemsBut ids ks (d.sendReply ep tag mbx op r tr) e ↔ ItemsBut ids ks d e := (sendReply_same d ep tag mbx op r tr).itemsBut ids ks e

@[simp] theorem stream_kept (d : Dev) (kind : Nat) (item : Bytes) : Kept (d.stream kind item) d := (stream_same d kind item).kept

theorem stream_reads (d : Dev) (kind : Nat) (item : Bytes) : Reads (d.stream kind item) d := (stream_same d kind item).reads

@[simp] theorem itemsBut_stream (ids : List Nat) (ks : List (Nat × Nat)) (d e : Dev) (kind : Nat) (item : Bytes) :
    ItemsBut ids ks (d.stream kind item) e ↔ ItemsBut ids ks d e := (stream_same d kind item).itemsBut ids ks e

@[simp] theorem record_kept (d : Dev) (r : Rec) : Kept (d.record r) d := (record_same d r).kept

theorem record_reads (d : Dev) (r : Rec) : Reads (d.record r) d := (record_same d r).reads

@[simp] theorem itemsBut_record (ids : List Nat) (ks : List (Nat × Nat)) (d e : Dev) (r : Rec) :
    ItemsBut ids ks (d.record r) e ↔ ItemsBut ids ks d e := (record_same d r).itemsBut ids ks e

@[simp] theorem log_kept (d : Dev) (code tile : Nat) (body : Bytes) : Kept (d.log code tile body) d := (log_same d code tile body).kept

theorem log_reads (d : Dev) (code tile : Nat) (body : Bytes) : Reads (d.log code tile body) d := (log_same d code tile body).reads

@[simp] theorem itemsBut_log (ids : List Nat) (ks : List (Nat × Nat)) (d e : Dev) (code tile : Nat) (body : Bytes) :
    ItemsBut ids ks (d.log code tile body) e ↔ ItemsBut ids ks d e := (log_same d code tile body).itemsBut ids ks e

@[simp] theorem noticeAt_kept (d : Dev) (code tile : Nat) (body : Bytes) (a : Option Nat) : Kept (d.noticeAt code tile body a) d := (noticeAt_same d code tile body a).kept

theorem noticeAt_reads (d : Dev) (code tile : Nat) (body : Bytes) (a : Option Nat) : Reads (d.noticeAt code tile body a) d := (noticeAt_same d code tile body a).reads

@[simp] theorem itemsBut_noticeAt (ids : List Nat) (ks : List (Nat × Nat)) (d e : Dev) (code tile : Nat) (body : Bytes) (a : Option Nat) :
    ItemsBut ids ks (d.noticeAt code tile body a) e ↔ ItemsBut ids ks d e := (noticeAt_same d code tile body a).itemsBut ids ks e

@[simp] theorem notice_kept (d : Dev) (code : Nat) (body : Bytes) : Kept (d.notice code body) d := (notice_same d code body).kept

theorem notice_reads (d : Dev) (code : Nat) (body : Bytes) : Reads (d.notice code body) d := (notice_same d code body).reads

@[simp] theorem itemsBut_notice (ids : List Nat) (ks : List (Nat × Nat)) (d e : Dev) (code : Nat) (body : Bytes) :
    ItemsBut ids ks (d.notice code body) e ↔ ItemsBut ids ks d e := (notice_same d code body).itemsBut ids ks e

@[simp] theorem noticeT_kept (d : Dev) (code : Nat) (body : Bytes) : Kept (d.noticeT code body) d := (noticeT_same d code body).kept

theorem noticeT_reads (d : Dev) (code : Nat) (body : Bytes) : Reads (d.noticeT code body) d := (noticeT_same d code body).reads

@[simp] theorem itemsBut_noticeT (ids : List Nat) (ks : List (Nat × Nat)) (d e : Dev) (code : Nat) (body : Bytes) :
    ItemsBut ids ks (d.noticeT code body) e ↔ ItemsBut ids ks d e := (noticeT_same d code body).itemsBut ids ks e

@[simp] theorem faultLast_kept (d : Dev) (code loc : Nat) : Kept (d.faultLast code loc) d := (faultLast_same d code loc).kept

theorem faultLast_reads (d : Dev) (code loc : Nat) : Reads (d.faultLast code loc) d := (faultLast_same d code loc).reads

@[simp] theorem itemsBut_faultLast (ids : List Nat) (ks : List (Nat × Nat)) (d e : Dev) (code loc : Nat) :
    ItemsBut ids ks (d.faultLast code loc) e ↔ ItemsBut ids ks d e := (faultLast_same d code loc).itemsBut ids ks e

@[simp] theorem fault_kept (d : Dev) (code loc : Nat) (body : Bytes) : Kept (d.fault code loc body) d := (fault_same d code loc body).kept

theorem fault_reads (d : Dev) (code loc : Nat) (body : Bytes) : Reads (d.fault code loc body) d := (fault_same d code loc body).reads

@[simp] theorem itemsBut_fault (ids : List Nat) (ks : List (Nat × Nat)) (d e : Dev) (code loc : Nat) (body : Bytes) :
    ItemsBut ids ks (d.fault code loc body) e ↔ ItemsBut ids ks d e := (fault_same d code loc body).itemsBut ids ks e

@[simp] theorem faultLog_kept (d : Dev) (eng loc : Nat) (body : Bytes) : Kept (d.faultLog eng loc body) d := (faultLog_same d eng loc body).kept

theorem faultLog_reads (d : Dev) (eng loc : Nat) (body : Bytes) : Reads (d.faultLog eng loc body) d := (faultLog_same d eng loc body).reads

@[simp] theorem itemsBut_faultLog (ids : List Nat) (ks : List (Nat × Nat)) (d e : Dev) (eng loc : Nat) (body : Bytes) :
    ItemsBut ids ks (d.faultLog eng loc body) e ↔ ItemsBut ids ks d e := (faultLog_same d eng loc body).itemsBut ids ks e

@[simp] theorem trace_kept (d : Dev) (src kind : Nat) (body : Bytes) : Kept (d.trace src kind body) d := (trace_same d src kind body).kept

theorem trace_reads (d : Dev) (src kind : Nat) (body : Bytes) : Reads (d.trace src kind body) d := (trace_same d src kind body).reads

@[simp] theorem itemsBut_trace (ids : List Nat) (ks : List (Nat × Nat)) (d e : Dev) (src kind : Nat) (body : Bytes) :
    ItemsBut ids ks (d.trace src kind body) e ↔ ItemsBut ids ks d e := (trace_same d src kind body).itemsBut ids ks e

end Sys2Proof
end

