-- ==== Sys2Proof/Laws/Ops.lean ====
section
/-!
SUPPORT. What the shared operations of the engines do: for each the fields it leaves and the items it touches.
-/
set_option linter.unusedSimpArgs false
set_option linter.unusedVariables false

namespace Sys2Proof
open Sys2Proof.Machine

/-- Fields of a part that agree where its quiet form does. -/
abbrev KeptCyc (a b : Cyc) : Prop :=
  quietCyc a = quietCyc b ∧ a.origin = b.origin ∧ a.next = b.next ∧ a.floor = b.floor ∧ a.adm = b.adm ∧ a.seqs = b.seqs ∧
  a.spilled = b.spilled ∧ a.inCommit = b.inCommit ∧ a.defer = b.defer ∧ a.journal = b.journal ∧ a.feed = b.feed ∧ a.skipped = b.skipped ∧
  a.overrun = b.overrun ∧ a.missed = b.missed ∧ a.flagCold = b.flagCold ∧ a.flagStep = b.flagStep ∧ a.flagTake = b.flagTake ∧
  a.lastCommitAt = b.lastCommitAt ∧ a.changedCov = b.changedCov ∧ a.covBase = b.covBase

theorem KeptCyc.of {a b : Cyc} (h : quietCyc a = quietCyc b) : KeptCyc a b := by
  have f {α : Type} (g : Cyc → α) : g (quietCyc a) = g (quietCyc b) := congrArg g h
  exact ⟨h, f (·.origin), f (·.next), f (·.floor), f (·.adm), f (·.seqs), f (·.spilled), f (·.inCommit), f (·.defer), f (·.journal), f (·.feed),
    f (·.skipped), f (·.overrun), f (·.missed), f (·.flagCold), f (·.flagStep), f (·.flagTake), f (·.lastCommitAt), f (·.changedCov),
    f (·.covBase)⟩

/-- Fields of a part that agree where its quiet form does. -/
abbrev KeptHost (a b : HostSt) : Prop :=
  quietHost a = quietHost b ∧ a.queue = b.queue ∧ a.dup = b.dup ∧ a.fails = b.fails ∧ a.fixed = b.fixed ∧ a.loads = b.loads ∧
  a.rxFill = b.rxFill ∧ a.discard = b.discard ∧ a.ctsStop = b.ctsStop ∧ a.rtsOff = b.rtsOff

theorem KeptHost.of {a b : HostSt} (h : quietHost a = quietHost b) : KeptHost a b := by
  have f {α : Type} (g : HostSt → α) : g (quietHost a) = g (quietHost b) := congrArg g h
  exact ⟨h, f (·.queue), f (·.dup), f (·.fails), f (·.fixed), f (·.loads), f (·.rxFill), f (·.discard), f (·.ctsStop), f (·.rtsOff)⟩

/-- Fields of a part that agree where its quiet form does. -/
abbrev KeptRcd (a b : Recorder) : Prop :=
  quietRcd a = quietRcd b ∧ a.nvNext = b.nvNext ∧ a.fullMark = b.fullMark ∧ a.clears = b.clears ∧ a.pfail = b.pfail ∧ a.lwWrote = b.lwWrote

theorem KeptRcd.of {a b : Recorder} (h : quietRcd a = quietRcd b) : KeptRcd a b := by
  have f {α : Type} (g : Recorder → α) : g (quietRcd a) = g (quietRcd b) := congrArg g h
  exact ⟨h, f (·.nvNext), f (·.fullMark), f (·.clears), f (·.pfail), f (·.lwWrote)⟩

/-- Fields of a part that agree where its quiet form does. -/
abbrev KeptTlg (a b : TlgSt) : Prop :=
  quietTlg a = quietTlg b ∧ a.ctrs = b.ctrs ∧ a.stuck = b.stuck ∧ a.snaps = b.snaps

theorem KeptTlg.of {a b : TlgSt} (h : quietTlg a = quietTlg b) : KeptTlg a b := by
  have f {α : Type} (g : TlgSt → α) : g (quietTlg a) = g (quietTlg b) := congrArg g h
  exact ⟨h, f (·.ctrs), f (·.stuck), f (·.snaps)⟩

/-- Devices with equal fields are equal. -/
theorem dev_ext {a b : Dev} (h0 : a.now = b.now) (h1 : a.regs = b.regs) (h2 : a.snap = b.snap) (h3 : a.committedOnce = b.committedOnce) (h4 : a.sticky = b.sticky)
    (h5 : a.staged = b.staged) (h6 : a.ctrls = b.ctrls) (h7 : a.out = b.out) (h8 : a.freeIx = b.freeIx) (h9 : a.tim = b.tim)
    (h10 : a.cyc = b.cyc) (h11 : a.host = b.host) (h12 : a.chutes = b.chutes) (h13 : a.rcd = b.rcd) (h14 : a.stp = b.stp) (h15 : a.air = b.air)
    (h16 : a.gns = b.gns) (h17 : a.chiselOut = b.chiselOut) (h18 : a.ring = b.ring) (h19 : a.can = b.can) (h20 : a.mtr = b.mtr)
    (h21 : a.drk = b.drk) (h22 : a.dsp = b.dsp) (h23 : a.tlg = b.tlg) (h24 : a.pwr = b.pwr) (h25 : a.peer = b.peer) (h26 : a.com = b.com) : a = b := by
  cases a; cases b; simp_all

@[simp] theorem quietCyc_fields (c : Cyc) :
    (quietCyc c).origin = c.origin ∧ (quietCyc c).next = c.next ∧ (quietCyc c).floor = c.floor ∧ (quietCyc c).adm = c.adm ∧
    (quietCyc c).seqs = c.seqs ∧ (quietCyc c).spilled = c.spilled ∧ (quietCyc c).inCommit = c.inCommit ∧ (quietCyc c).defer = c.defer ∧
    (quietCyc c).journal = c.journal ∧ (quietCyc c).feed = c.feed ∧ (quietCyc c).skipped = c.skipped ∧ (quietCyc c).overrun = c.overrun ∧
    (quietCyc c).missed = c.missed ∧ (quietCyc c).flagCold = c.flagCold ∧ (quietCyc c).flagStep = c.flagStep ∧
    (quietCyc c).flagTake = c.flagTake ∧ (quietCyc c).lastCommitAt = c.lastCommitAt ∧ (quietCyc c).changedCov = c.changedCov ∧
    (quietCyc c).covBase = c.covBase ∧ (quietCyc c).log = [] ∧ (quietCyc c).said = [] :=
  ⟨rfl, rfl, rfl, rfl, rfl, rfl, rfl, rfl, rfl, rfl, rfl, rfl, rfl, rfl, rfl, rfl, rfl, rfl, rfl, rfl, rfl⟩

@[simp] theorem quietHost_fields (c : HostSt) :
    (quietHost c).queue = c.queue ∧ (quietHost c).dup = c.dup ∧ (quietHost c).fails = c.fails ∧ (quietHost c).fixed = c.fixed ∧
    (quietHost c).loads = c.loads ∧ (quietHost c).rxFill = c.rxFill ∧ (quietHost c).discard = c.discard ∧ (quietHost c).ctsStop = c.ctsStop ∧
    (quietHost c).rtsOff = c.rtsOff ∧ (quietHost c).ring = [] ∧ (quietHost c).sseq = [] ∧ (quietHost c).txHeld = [] :=
  ⟨rfl, rfl, rfl, rfl, rfl, rfl, rfl, rfl, rfl, rfl, rfl, rfl⟩

@[simp] theorem quietRcd_fields (c : Recorder) :
    (quietRcd c).nvNext = c.nvNext ∧ (quietRcd c).fullMark = c.fullMark ∧ (quietRcd c).clears = c.clears ∧ (quietRcd c).pfail = c.pfail ∧
    (quietRcd c).lwWrote = c.lwWrote ∧ (quietRcd c).buf = [] ∧ (quietRcd c).regions = [] ∧ (quietRcd c).lw = [] ∧ (quietRcd c).image = none ∧
    (quietRcd c).imageTail = 0 :=
  ⟨rfl, rfl, rfl, rfl, rfl, rfl, rfl, rfl, rfl, rfl⟩

@[simp] theorem quietTlg_fields (c : TlgSt) :
    (quietTlg c).ctrs = c.ctrs ∧ (quietTlg c).stuck = c.stuck ∧ (quietTlg c).snaps = c.snaps ∧ (quietTlg c).seq = 0 ∧ (quietTlg c).busy = 0 ∧
    (quietTlg c).syncSec = none ∧ (quietTlg c).lost = 0 ∧ (quietTlg c).noticed = none :=
  ⟨rfl, rfl, rfl, rfl, rfl, rfl, rfl, rfl⟩

/-- What every pass of a walk keeps is kept by the walk. -/
theorem foldl_keeps {α β : Type} (g : Dev → β) (f : Dev → α → Dev) (h : ∀ d a, g (f d a) = g d) (l : List α) : ∀ d, g (l.foldl f d) = g d := by
  induction l with
  | nil => intro d; rfl
  | cons a l ih => intro d; exact (ih _).trans (h d a)

/-- Items that every pass of a walk leaves are left by the walk. -/
theorem fold_items {α : Type} {ids : List Nat} {ks : List (Nat × Nat)} (f : Dev → α → Dev) (h : ∀ d a, ItemsBut ids ks (f d a) d) (l : List α) :
    ∀ d, ItemsBut ids ks (l.foldl f d) d := by
  induction l with
  | nil => intro d; exact itemsBut_self _ _ _
  | cons a l ih => intro d; exact (ih _).trans (h d a)

/-! ### Hub time -/

/-- The degraded flag judged again touches the flag and the cause noted. -/
theorem judge_spec (d : Dev)  : (d.judgeDegraded).rest = { d.rest with tim := { d.tim with degCause := (d.judgeDegraded).tim.degCause } } ∧
    ItemsBut [] [(P.TIM_DEGRADED, 0)] (d.judgeDegraded) d := by
  unfold Dev.judgeDegraded
  try simp only []
  repeat' split
  all_goals
    exact ⟨by first | (simp [itemsBut_self]; done) | (simp [itemsBut_self]; repeat' (first | rfl | apply And.intro)) | rfl, by simp [itemsBut_wr, itemsBut_inc, itemsBut_addW, itemsBut_maxTo, itemsBut_wrS]⟩

theorem judge_rest' (d : Dev)  : (d.judgeDegraded).rest = { d.rest with tim := { d.tim with degCause := (d.judgeDegraded).tim.degCause } } := (judge_spec d ).1

@[simp] theorem judge_fields (d : Dev)  :
    (d.judgeDegraded).now = d.now ∧ (d.judgeDegraded).snap = d.snap ∧ (d.judgeDegraded).committedOnce = d.committedOnce ∧
    (d.judgeDegraded).staged = d.staged ∧ (d.judgeDegraded).ctrls = d.ctrls ∧ (d.judgeDegraded).freeIx = d.freeIx ∧
    (d.judgeDegraded).tim.frac = d.tim.frac ∧ (d.judgeDegraded).tim.freq = d.tim.freq ∧ (d.judgeDegraded).tim.slew = d.tim.slew ∧
    (d.judgeDegraded).tim.remain = d.tim.remain ∧ (d.judgeDegraded).tim.holdRemain = d.tim.holdRemain ∧ (d.judgeDegraded).tim.u0 = d.tim.u0 ∧
    (d.judgeDegraded).tim.lastMeas = d.tim.lastMeas ∧ (d.judgeDegraded).tim.qualified = d.tim.qualified ∧
    (d.judgeDegraded).tim.barred = d.tim.barred ∧ (d.judgeDegraded).tim.countFrom = d.tim.countFrom ∧
    (d.judgeDegraded).tim.stepAt = d.tim.stepAt ∧ (d.judgeDegraded).tim.tpMode = d.tim.tpMode ∧ (d.judgeDegraded).tim.tpPend = d.tim.tpPend ∧
    (d.judgeDegraded).tim.tpDone = d.tim.tpDone ∧ (d.judgeDegraded).tim.tpSuppress = d.tim.tpSuppress ∧
    (d.judgeDegraded).tim.evtLast = d.tim.evtLast ∧ (d.judgeDegraded).tim.evtLost = d.tim.evtLost ∧
    (d.judgeDegraded).tim.untrusted = d.tim.untrusted ∧ (d.judgeDegraded).tim.setAt = d.tim.setAt ∧ (d.judgeDegraded).chutes = d.chutes ∧
    (d.judgeDegraded).stp = d.stp ∧ (d.judgeDegraded).air = d.air ∧ (d.judgeDegraded).gns = d.gns ∧ (d.judgeDegraded).chiselOut = d.chiselOut ∧
    (d.judgeDegraded).ring = d.ring ∧ (d.judgeDegraded).can = d.can ∧ (d.judgeDegraded).mtr = d.mtr ∧ (d.judgeDegraded).drk = d.drk ∧
    (d.judgeDegraded).dsp = d.dsp ∧ (d.judgeDegraded).pwr = d.pwr ∧ (d.judgeDegraded).peer = d.peer ∧ (d.judgeDegraded).com = d.com ∧
    KeptCyc (d.judgeDegraded).cyc d.cyc ∧ KeptHost (d.judgeDegraded).host d.host ∧ KeptRcd (d.judgeDegraded).rcd d.rcd ∧
    KeptTlg (d.judgeDegraded).tlg d.tlg := by
  have h := (judge_spec d ).1
  generalize d.judgeDegraded = x at h ⊢
  have f {α : Type} (g : Dev → α) : g x.rest = g ({ d.rest with tim := { d.tim with degCause := (x).tim.degCause } }) := congrArg g h
  exact ⟨f (·.now), f (·.snap), f (·.committedOnce), f (·.staged), f (·.ctrls), f (·.freeIx), f (·.tim.frac), f (·.tim.freq), f (·.tim.slew),
    f (·.tim.remain), f (·.tim.holdRemain), f (·.tim.u0), f (·.tim.lastMeas), f (·.tim.qualified), f (·.tim.barred), f (·.tim.countFrom),
    f (·.tim.stepAt), f (·.tim.tpMode), f (·.tim.tpPend), f (·.tim.tpDone), f (·.tim.tpSuppress), f (·.tim.evtLast), f (·.tim.evtLost),
    f (·.tim.untrusted), f (·.tim.setAt), f (·.chutes), f (·.stp), f (·.air), f (·.gns), f (·.chiselOut), f (·.ring), f (·.can), f (·.mtr),
    f (·.drk), f (·.dsp), f (·.pwr), f (·.peer), f (·.com), KeptCyc.of (f (·.cyc)), KeptHost.of (f (·.host)), KeptRcd.of (f (·.rcd)),
    KeptTlg.of (f (·.tlg))⟩

@[simp] theorem judge_rest (d : Dev)  : (d.judgeDegraded).rest =
    { d.rest with tim := (d.judgeDegraded).tim } := by
  have h := (judge_spec d ).1
  generalize d.judgeDegraded = x at h ⊢
  have f {α : Type} (g : Dev → α) : g x.rest = g ({ d.rest with tim := { d.tim with degCause := (x).tim.degCause } }) := congrArg g h
  exact dev_ext (f (·.now)) rfl (f (·.snap)) (f (·.committedOnce)) rfl (f (·.staged)) (f (·.ctrls)) rfl (f (·.freeIx)) rfl (f (·.cyc)) (f (·.host))
    (f (·.chutes)) (f (·.rcd)) (f (·.stp)) (f (·.air)) (f (·.gns)) (f (·.chiselOut)) (f (·.ring)) (f (·.can)) (f (·.mtr)) (f (·.drk))
    (f (·.dsp)) (f (·.tlg)) (f (·.pwr)) (f (·.peer)) (f (·.com))

theorem judge_reads (d : Dev)  : ∀ id jq, reportItem id = false → id ≠ P.TIM_DEGRADED →
    (d.judgeDegraded).rd id jq = d.rd id jq ∧ (d.judgeDegraded).isSticky id jq = d.isSticky id jq ∧ (d.judgeDegraded).cf id jq = d.cf id jq := by
  intro id jq hr h0
  have h := (judge_spec d ).2 id jq hr (by simp) (by simp [regKey_ne, h0, Ne.symm h0])
  have e : (d.judgeDegraded).staged = d.staged := by simp
  refine ⟨h.1, h.2, ?_⟩
  simp only [Dev.cf, e, h.1]

theorem judge_at (d : Dev)  : ∀ id jq, reportItem id = false  → regKey P.TIM_DEGRADED 0 ≠ regKey id jq →
    (d.judgeDegraded).rd id jq = d.rd id jq ∧ (d.judgeDegraded).isSticky id jq = d.isSticky id jq ∧ (d.judgeDegraded).cf id jq = d.cf id jq := by
  intro id jq hr h0
  have h := (judge_spec d ).2 id jq hr (by simp) (by simp [h0])
  have e : (d.judgeDegraded).staged = d.staged := by simp
  refine ⟨h.1, h.2, ?_⟩
  simp only [Dev.cf, e, h.1]

theorem itemsBut_judge {ids : List Nat} {ks : List (Nat × Nat)} (d e : Dev)  (m0 : P.TIM_DEGRADED ∈ ids ∨ (P.TIM_DEGRADED, 0) ∈ ks) :
    ItemsBut ids ks (d.judgeDegraded) e ↔ ItemsBut ids ks d e :=
  itemsBut_congr ((judge_spec d ).2.mono (by simp) (by simp [m0])) e

/-- A change of the time state touches the state and the degraded flag. -/
theorem timeState_spec (d : Dev) (n : Nat) : (d.timeState n).rest = { d.rest with tim := { d.tim with degCause := (d.timeState n).tim.degCause } } ∧
    ItemsBut [] [(P.TIM_STATE, 0), (P.TIM_DEGRADED, 0)] (d.timeState n) d := by
  unfold Dev.timeState
  try simp only []
  repeat' split
  all_goals
    exact ⟨by first | (simp [itemsBut_self, -judge_rest, judge_rest']; done) | (simp [itemsBut_self, -judge_rest, judge_rest']; repeat' (first | rfl | apply And.intro)) | rfl, by simp [itemsBut_wr, itemsBut_inc, itemsBut_addW, itemsBut_maxTo, itemsBut_wrS, itemsBut_judge]⟩

theorem timeState_rest' (d : Dev) (n : Nat) : (d.timeState n).rest = { d.rest with tim := { d.tim with degCause := (d.timeState n).tim.degCause } } := (timeState_spec d n).1

@[simp] theorem timeState_fields (d : Dev) (n : Nat) :
    (d.timeState n).now = d.now ∧ (d.timeState n).snap = d.snap ∧ (d.timeState n).committedOnce = d.committedOnce ∧
    (d.timeState n).staged = d.staged ∧ (d.timeState n).ctrls = d.ctrls ∧ (d.timeState n).freeIx = d.freeIx ∧
    (d.timeState n).tim.frac = d.tim.frac ∧ (d.timeState n).tim.freq = d.tim.freq ∧ (d.timeState n).tim.slew = d.tim.slew ∧
    (d.timeState n).tim.remain = d.tim.remain ∧ (d.timeState n).tim.holdRemain = d.tim.holdRemain ∧ (d.timeState n).tim.u0 = d.tim.u0 ∧
    (d.timeState n).tim.lastMeas = d.tim.lastMeas ∧ (d.timeState n).tim.qualified = d.tim.qualified ∧
    (d.timeState n).tim.barred = d.tim.barred ∧ (d.timeState n).tim.countFrom = d.tim.countFrom ∧ (d.timeState n).tim.stepAt = d.tim.stepAt ∧
    (d.timeState n).tim.tpMode = d.tim.tpMode ∧ (d.timeState n).tim.tpPend = d.tim.tpPend ∧ (d.timeState n).tim.tpDone = d.tim.tpDone ∧
    (d.timeState n).tim.tpSuppress = d.tim.tpSuppress ∧ (d.timeState n).tim.evtLast = d.tim.evtLast ∧
    (d.timeState n).tim.evtLost = d.tim.evtLost ∧ (d.timeState n).tim.untrusted = d.tim.untrusted ∧ (d.timeState n).tim.setAt = d.tim.setAt ∧
    (d.timeState n).chutes = d.chutes ∧ (d.timeState n).stp = d.stp ∧ (d.timeState n).air = d.air ∧ (d.timeState n).gns = d.gns ∧
    (d.timeState n).chiselOut = d.chiselOut ∧ (d.timeState n).ring = d.ring ∧ (d.timeState n).can = d.can ∧ (d.timeState n).mtr = d.mtr ∧
    (d.timeState n).drk = d.drk ∧ (d.timeState n).dsp = d.dsp ∧ (d.timeState n).pwr = d.pwr ∧ (d.timeState n).peer = d.peer ∧
    (d.timeState n).com = d.com ∧ KeptCyc (d.timeState n).cyc d.cyc ∧ KeptHost (d.timeState n).host d.host ∧ KeptRcd (d.timeState n).rcd d.rcd ∧
    KeptTlg (d.timeState n).tlg d.tlg := by
  have h := (timeState_spec d n).1
  generalize d.timeState n = x at h ⊢
  have f {α : Type} (g : Dev → α) : g x.rest = g ({ d.rest with tim := { d.tim with degCause := (x).tim.degCause } }) := congrArg g h
  exact ⟨f (·.now), f (·.snap), f (·.committedOnce), f (·.staged), f (·.ctrls), f (·.freeIx), f (·.tim.frac), f (·.tim.freq), f (·.tim.slew),
    f (·.tim.remain), f (·.tim.holdRemain), f (·.tim.u0), f (·.tim.lastMeas), f (·.tim.qualified), f (·.tim.barred), f (·.tim.countFrom),
    f (·.tim.stepAt), f (·.tim.tpMode), f (·.tim.tpPend), f (·.tim.tpDone), f (·.tim.tpSuppress), f (·.tim.evtLast), f (·.tim.evtLost),
    f (·.tim.untrusted), f (·.tim.setAt), f (·.chutes), f (·.stp), f (·.air), f (·.gns), f (·.chiselOut), f (·.ring), f (·.can), f (·.mtr),
    f (·.drk), f (·.dsp), f (·.pwr), f (·.peer), f (·.com), KeptCyc.of (f (·.cyc)), KeptHost.of (f (·.host)), KeptRcd.of (f (·.rcd)),
    KeptTlg.of (f (·.tlg))⟩

@[simp] theorem timeState_rest (d : Dev) (n : Nat) : (d.timeState n).rest =
    { d.rest with tim := (d.timeState n).tim } := by
  have h := (timeState_spec d n).1
  generalize d.timeState n = x at h ⊢
  have f {α : Type} (g : Dev → α) : g x.rest = g ({ d.rest with tim := { d.tim with degCause := (x).tim.degCause } }) := congrArg g h
  exact dev_ext (f (·.now)) rfl (f (·.snap)) (f (·.committedOnce)) rfl (f (·.staged)) (f (·.ctrls)) rfl (f (·.freeIx)) rfl (f (·.cyc)) (f (·.host))
    (f (·.chutes)) (f (·.rcd)) (f (·.stp)) (f (·.air)) (f (·.gns)) (f (·.chiselOut)) (f (·.ring)) (f (·.can)) (f (·.mtr)) (f (·.drk))
    (f (·.dsp)) (f (·.tlg)) (f (·.pwr)) (f (·.peer)) (f (·.com))

theorem timeState_reads (d : Dev) (n : Nat) : ∀ id jq, reportItem id = false → id ≠ P.TIM_STATE → id ≠ P.TIM_DEGRADED →
    (d.timeState n).rd id jq = d.rd id jq ∧ (d.timeState n).isSticky id jq = d.isSticky id jq ∧ (d.timeState n).cf id jq = d.cf id jq := by
  intro id jq hr h0 h1
  have h := (timeState_spec d n).2 id jq hr (by simp) (by simp [regKey_ne, h0, Ne.symm h0, h1, Ne.symm h1])
  have e : (d.timeState n).staged = d.staged := by simp
  refine ⟨h.1, h.2, ?_⟩
  simp only [Dev.cf, e, h.1]

theorem timeState_at (d : Dev) (n : Nat) : ∀ id jq, reportItem id = false  → regKey P.TIM_STATE 0 ≠ regKey id jq → regKey P.TIM_DEGRADED 0 ≠ regKey id jq →
    (d.timeState n).rd id jq = d.rd id jq ∧ (d.timeState n).isSticky id jq = d.isSticky id jq ∧ (d.timeState n).cf id jq = d.cf id jq := by
  intro id jq hr h0 h1
  have h := (timeState_spec d n).2 id jq hr (by simp) (by simp [h0, h1])
  have e : (d.timeState n).staged = d.staged := by simp
  refine ⟨h.1, h.2, ?_⟩
  simp only [Dev.cf, e, h.1]

theorem itemsBut_timeState {ids : List Nat} {ks : List (Nat × Nat)} (d e : Dev) (n : Nat) (m0 : P.TIM_STATE ∈ ids ∨ (P.TIM_STATE, 0) ∈ ks) (m1 : P.TIM_DEGRADED ∈ ids ∨ (P.TIM_DEGRADED, 0) ∈ ks) :
    ItemsBut ids ks (d.timeState n) e ↔ ItemsBut ids ks d e :=
  itemsBut_congr ((timeState_spec d n).2.mono (by simp) (by simp [m0, m1])) e

/-! ### Inputs -/

/-- A source sequence taken. -/
theorem takeSeq_spec (d : Dev) (cls idx : Nat) : ((d.takeSeq cls idx).2).rest = { d.rest with cyc := { quietCyc d.cyc with seqs := ((d.takeSeq cls idx).2).cyc.seqs } } ∧
    ItemsBut [] [] ((d.takeSeq cls idx).2) d := by
  exact ⟨rfl, fun _ _ _ _ _ => ⟨rfl, rfl⟩⟩

theorem takeSeq_rest' (d : Dev) (cls idx : Nat) : ((d.takeSeq cls idx).2).rest = { d.rest with cyc := { quietCyc d.cyc with seqs := ((d.takeSeq cls idx).2).cyc.seqs } } := (takeSeq_spec d cls idx).1

@[simp] theorem takeSeq_fields (d : Dev) (cls idx : Nat) :
    ((d.takeSeq cls idx).2).now = d.now ∧ ((d.takeSeq cls idx).2).snap = d.snap ∧ ((d.takeSeq cls idx).2).committedOnce = d.committedOnce ∧
    ((d.takeSeq cls idx).2).staged = d.staged ∧ ((d.takeSeq cls idx).2).ctrls = d.ctrls ∧ ((d.takeSeq cls idx).2).freeIx = d.freeIx ∧
    ((d.takeSeq cls idx).2).tim = d.tim ∧ ((d.takeSeq cls idx).2).chutes = d.chutes ∧ ((d.takeSeq cls idx).2).stp = d.stp ∧
    ((d.takeSeq cls idx).2).air = d.air ∧ ((d.takeSeq cls idx).2).gns = d.gns ∧ ((d.takeSeq cls idx).2).chiselOut = d.chiselOut ∧
    ((d.takeSeq cls idx).2).ring = d.ring ∧ ((d.takeSeq cls idx).2).can = d.can ∧ ((d.takeSeq cls idx).2).mtr = d.mtr ∧
    ((d.takeSeq cls idx).2).drk = d.drk ∧ ((d.takeSeq cls idx).2).dsp = d.dsp ∧ ((d.takeSeq cls idx).2).pwr = d.pwr ∧
    ((d.takeSeq cls idx).2).peer = d.peer ∧ ((d.takeSeq cls idx).2).com = d.com ∧ ((d.takeSeq cls idx).2).cyc.origin = d.cyc.origin ∧
    ((d.takeSeq cls idx).2).cyc.next = d.cyc.next ∧ ((d.takeSeq cls idx).2).cyc.floor = d.cyc.floor ∧
    ((d.takeSeq cls idx).2).cyc.adm = d.cyc.adm ∧ ((d.takeSeq cls idx).2).cyc.spilled = d.cyc.spilled ∧
    ((d.takeSeq cls idx).2).cyc.inCommit = d.cyc.inCommit ∧ ((d.takeSeq cls idx).2).cyc.defer = d.cyc.defer ∧
    ((d.takeSeq cls idx).2).cyc.journal = d.cyc.journal ∧ ((d.takeSeq cls idx).2).cyc.feed = d.cyc.feed ∧
    ((d.takeSeq cls idx).2).cyc.skipped = d.cyc.skipped ∧ ((d.takeSeq cls idx).2).cyc.overrun = d.cyc.overrun ∧
    ((d.takeSeq cls idx).2).cyc.missed = d.cyc.missed ∧ ((d.takeSeq cls idx).2).cyc.flagCold = d.cyc.flagCold ∧
    ((d.takeSeq cls idx).2).cyc.flagStep = d.cyc.flagStep ∧ ((d.takeSeq cls idx).2).cyc.flagTake = d.cyc.flagTake ∧
    ((d.takeSeq cls idx).2).cyc.lastCommitAt = d.cyc.lastCommitAt ∧ ((d.takeSeq cls idx).2).cyc.changedCov = d.cyc.changedCov ∧
    ((d.takeSeq cls idx).2).cyc.covBase = d.cyc.covBase ∧ KeptHost ((d.takeSeq cls idx).2).host d.host ∧
    KeptRcd ((d.takeSeq cls idx).2).rcd d.rcd ∧ KeptTlg ((d.takeSeq cls idx).2).tlg d.tlg := by
  have h := (takeSeq_spec d cls idx).1
  generalize (d.takeSeq cls idx).2 = x at h ⊢
  have f {α : Type} (g : Dev → α) : g x.rest = g ({ d.rest with cyc := { quietCyc d.cyc with seqs := (x).cyc.seqs } }) := congrArg g h
  exact ⟨f (·.now), f (·.snap), f (·.committedOnce), f (·.staged), f (·.ctrls), f (·.freeIx), f (·.tim), f (·.chutes), f (·.stp), f (·.air),
    f (·.gns), f (·.chiselOut), f (·.ring), f (·.can), f (·.mtr), f (·.drk), f (·.dsp), f (·.pwr), f (·.peer), f (·.com), f (·.cyc.origin),
    f (·.cyc.next), f (·.cyc.floor), f (·.cyc.adm), f (·.cyc.spilled), f (·.cyc.inCommit), f (·.cyc.defer), f (·.cyc.journal), f (·.cyc.feed),
    f (·.cyc.skipped), f (·.cyc.overrun), f (·.cyc.missed), f (·.cyc.flagCold), f (·.cyc.flagStep), f (·.cyc.flagTake), f (·.cyc.lastCommitAt),
    f (·.cyc.changedCov), f (·.cyc.covBase), KeptHost.of (f (·.host)), KeptRcd.of (f (·.rcd)), KeptTlg.of (f (·.tlg))⟩

@[simp] theorem takeSeq_rest (d : Dev) (cls idx : Nat) : ((d.takeSeq cls idx).2).rest =
    { d.rest with cyc := quietCyc ((d.takeSeq cls idx).2).cyc } := by
  have h := (takeSeq_spec d cls idx).1
  generalize (d.takeSeq cls idx).2 = x at h ⊢
  have f {α : Type} (g : Dev → α) : g x.rest = g ({ d.rest with cyc := { quietCyc d.cyc with seqs := (x).cyc.seqs } }) := congrArg g h
  exact dev_ext (f (·.now)) rfl (f (·.snap)) (f (·.committedOnce)) rfl (f (·.staged)) (f (·.ctrls)) rfl (f (·.freeIx)) (f (·.tim)) rfl (f (·.host))
    (f (·.chutes)) (f (·.rcd)) (f (·.stp)) (f (·.air)) (f (·.gns)) (f (·.chiselOut)) (f (·.ring)) (f (·.can)) (f (·.mtr)) (f (·.drk))
    (f (·.dsp)) (f (·.tlg)) (f (·.pwr)) (f (·.peer)) (f (·.com))

theorem takeSeq_reads (d : Dev) (cls idx : Nat) : ∀ id jq, reportItem id = false  →
    ((d.takeSeq cls idx).2).rd id jq = d.rd id jq ∧ ((d.takeSeq cls idx).2).isSticky id jq = d.isSticky id jq ∧ ((d.takeSeq cls idx).2).cf id jq = d.cf id jq := by
  intro id jq hr 
  have h := (takeSeq_spec d cls idx).2 id jq hr (by simp) (by simp)
  have e : ((d.takeSeq cls idx).2).staged = d.staged := by simp
  refine ⟨h.1, h.2, ?_⟩
  simp only [Dev.cf, e, h.1]

theorem itemsBut_takeSeq {ids : List Nat} {ks : List (Nat × Nat)} (d e : Dev) (cls idx : Nat)  :
    ItemsBut ids ks ((d.takeSeq cls idx).2) e ↔ ItemsBut ids ks d e :=
  itemsBut_congr ((takeSeq_spec d cls idx).2.mono (by simp) (by simp)) e

/-- The counters of admission. -/
theorem countIn_spec (d : Dev) (a b : Bool) : (d.countIn a b).rest = d.rest ∧
    ItemsBut [] [(P.CYC_ADMITTED, 0), (P.CYC_LATE, 0), (P.CYC_LATE_SPILL, 0)] (d.countIn a b) d := by
  unfold Dev.countIn Dev.when
  try simp only []
  repeat' split
  all_goals
    exact ⟨by first | (simp [itemsBut_self, -judge_rest, judge_rest', -timeState_rest, timeState_rest', -takeSeq_rest, takeSeq_rest']; done) | (simp [itemsBut_self, -judge_rest, judge_rest', -timeState_rest, timeState_rest', -takeSeq_rest, takeSeq_rest']; repeat' (first | rfl | apply And.intro)) | rfl, by simp [itemsBut_wr, itemsBut_inc, itemsBut_addW, itemsBut_maxTo, itemsBut_wrS, itemsBut_judge, itemsBut_timeState, itemsBut_takeSeq]⟩

@[simp] theorem countIn_fields (d : Dev) (a b : Bool) :
    (d.countIn a b).now = d.now ∧ (d.countIn a b).snap = d.snap ∧ (d.countIn a b).committedOnce = d.committedOnce ∧
    (d.countIn a b).staged = d.staged ∧ (d.countIn a b).ctrls = d.ctrls ∧ (d.countIn a b).freeIx = d.freeIx ∧ (d.countIn a b).tim = d.tim ∧
    (d.countIn a b).chutes = d.chutes ∧ (d.countIn a b).stp = d.stp ∧ (d.countIn a b).air = d.air ∧ (d.countIn a b).gns = d.gns ∧
    (d.countIn a b).chiselOut = d.chiselOut ∧ (d.countIn a b).ring = d.ring ∧ (d.countIn a b).can = d.can ∧ (d.countIn a b).mtr = d.mtr ∧
    (d.countIn a b).drk = d.drk ∧ (d.countIn a b).dsp = d.dsp ∧ (d.countIn a b).pwr = d.pwr ∧ (d.countIn a b).peer = d.peer ∧
    (d.countIn a b).com = d.com ∧ KeptCyc (d.countIn a b).cyc d.cyc ∧ KeptHost (d.countIn a b).host d.host ∧ KeptRcd (d.countIn a b).rcd d.rcd ∧
    KeptTlg (d.countIn a b).tlg d.tlg := by
  have h := (countIn_spec d a b).1
  generalize d.countIn a b = x at h ⊢
  have f {α : Type} (g : Dev → α) : g x.rest = g (d.rest) := congrArg g h
  exact ⟨f (·.now), f (·.snap), f (·.committedOnce), f (·.staged), f (·.ctrls), f (·.freeIx), f (·.tim), f (·.chutes), f (·.stp), f (·.air),
    f (·.gns), f (·.chiselOut), f (·.ring), f (·.can), f (·.mtr), f (·.drk), f (·.dsp), f (·.pwr), f (·.peer), f (·.com),
    KeptCyc.of (f (·.cyc)), KeptHost.of (f (·.host)), KeptRcd.of (f (·.rcd)), KeptTlg.of (f (·.tlg))⟩

@[simp] theorem countIn_rest (d : Dev) (a b : Bool) : (d.countIn a b).rest =
    d.rest := by
  have h := (countIn_spec d a b).1
  generalize d.countIn a b = x at h ⊢
  have f {α : Type} (g : Dev → α) : g x.rest = g (d.rest) := congrArg g h
  exact dev_ext (f (·.now)) rfl (f (·.snap)) (f (·.committedOnce)) rfl (f (·.staged)) (f (·.ctrls)) rfl (f (·.freeIx)) (f (·.tim)) (f (·.cyc)) (f (·.host))
    (f (·.chutes)) (f (·.rcd)) (f (·.stp)) (f (·.air)) (f (·.gns)) (f (·.chiselOut)) (f (·.ring)) (f (·.can)) (f (·.mtr)) (f (·.drk))
    (f (·.dsp)) (f (·.tlg)) (f (·.pwr)) (f (·.peer)) (f (·.com))

theorem countIn_reads (d : Dev) (a b : Bool) : ∀ id jq, reportItem id = false → id ≠ P.CYC_ADMITTED → id ≠ P.CYC_LATE → id ≠ P.CYC_LATE_SPILL →
    (d.countIn a b).rd id jq = d.rd id jq ∧ (d.countIn a b).isSticky id jq = d.isSticky id jq ∧ (d.countIn a b).cf id jq = d.cf id jq := by
  intro id jq hr h0 h1 h2
  have h := (countIn_spec d a b).2 id jq hr (by simp) (by simp [regKey_ne, h0, Ne.symm h0, h1, Ne.symm h1, h2, Ne.symm h2])
  have e : (d.countIn a b).staged = d.staged := by simp
  refine ⟨h.1, h.2, ?_⟩
  simp only [Dev.cf, e, h.1]

theorem countIn_at (d : Dev) (a b : Bool) : ∀ id jq, reportItem id = false  → regKey P.CYC_ADMITTED 0 ≠ regKey id jq → regKey P.CYC_LATE 0 ≠ regKey id jq → regKey P.CYC_LATE_SPILL 0 ≠ regKey id jq →
    (d.countIn a b).rd id jq = d.rd id jq ∧ (d.countIn a b).isSticky id jq = d.isSticky id jq ∧ (d.countIn a b).cf id jq = d.cf id jq := by
  intro id jq hr h0 h1 h2
  have h := (countIn_spec d a b).2 id jq hr (by simp) (by simp [h0, h1, h2])
  have e : (d.countIn a b).staged = d.staged := by simp
  refine ⟨h.1, h.2, ?_⟩
  simp only [Dev.cf, e, h.1]

theorem itemsBut_countIn {ids : List Nat} {ks : List (Nat × Nat)} (d e : Dev) (a b : Bool) (m0 : P.CYC_ADMITTED ∈ ids ∨ (P.CYC_ADMITTED, 0) ∈ ks) (m1 : P.CYC_LATE ∈ ids ∨ (P.CYC_LATE, 0) ∈ ks) (m2 : P.CYC_LATE_SPILL ∈ ids ∨ (P.CYC_LATE_SPILL, 0) ∈ ks) :
    ItemsBut ids ks (d.countIn a b) e ↔ ItemsBut ids ks d e :=
  itemsBut_congr ((countIn_spec d a b).2.mono (by simp) (by simp [m0, m1, m2])) e

/-- An input held for its cycle. -/
theorem hold_spec (d : Dev) (m : Nat) (x : Input) (full : List Nat) : (d.hold m x full).rest = { d.rest with cyc := { quietCyc d.cyc with adm := (d.hold m x full).cyc.adm, spilled := (d.hold m x full).cyc.spilled } } ∧
    ItemsBut [] [] (d.hold m x full) d := by
  exact ⟨rfl, fun _ _ _ _ _ => ⟨rfl, rfl⟩⟩

theorem hold_rest' (d : Dev) (m : Nat) (x : Input) (full : List Nat) : (d.hold m x full).rest = { d.rest with cyc := { quietCyc d.cyc with adm := (d.hold m x full).cyc.adm, spilled := (d.hold m x full).cyc.spilled } } := (hold_spec d m x full).1

@[simp] theorem hold_fields (d : Dev) (m : Nat) (x : Input) (full : List Nat) :
    (d.hold m x full).now = d.now ∧ (d.hold m x full).snap = d.snap ∧ (d.hold m x full).committedOnce = d.committedOnce ∧
    (d.hold m x full).staged = d.staged ∧ (d.hold m x full).ctrls = d.ctrls ∧ (d.hold m x full).freeIx = d.freeIx ∧
    (d.hold m x full).tim = d.tim ∧ (d.hold m x full).chutes = d.chutes ∧ (d.hold m x full).stp = d.stp ∧ (d.hold m x full).air = d.air ∧
    (d.hold m x full).gns = d.gns ∧ (d.hold m x full).chiselOut = d.chiselOut ∧ (d.hold m x full).ring = d.ring ∧
    (d.hold m x full).can = d.can ∧ (d.hold m x full).mtr = d.mtr ∧ (d.hold m x full).drk = d.drk ∧ (d.hold m x full).dsp = d.dsp ∧
    (d.hold m x full).pwr = d.pwr ∧ (d.hold m x full).peer = d.peer ∧ (d.hold m x full).com = d.com ∧
    (d.hold m x full).cyc.origin = d.cyc.origin ∧ (d.hold m x full).cyc.next = d.cyc.next ∧ (d.hold m x full).cyc.floor = d.cyc.floor ∧
    (d.hold m x full).cyc.seqs = d.cyc.seqs ∧ (d.hold m x full).cyc.inCommit = d.cyc.inCommit ∧ (d.hold m x full).cyc.defer = d.cyc.defer ∧
    (d.hold m x full).cyc.journal = d.cyc.journal ∧ (d.hold m x full).cyc.feed = d.cyc.feed ∧ (d.hold m x full).cyc.skipped = d.cyc.skipped ∧
    (d.hold m x full).cyc.overrun = d.cyc.overrun ∧ (d.hold m x full).cyc.missed = d.cyc.missed ∧
    (d.hold m x full).cyc.flagCold = d.cyc.flagCold ∧ (d.hold m x full).cyc.flagStep = d.cyc.flagStep ∧
    (d.hold m x full).cyc.flagTake = d.cyc.flagTake ∧ (d.hold m x full).cyc.lastCommitAt = d.cyc.lastCommitAt ∧
    (d.hold m x full).cyc.changedCov = d.cyc.changedCov ∧ (d.hold m x full).cyc.covBase = d.cyc.covBase ∧
    KeptHost (d.hold m x full).host d.host ∧ KeptRcd (d.hold m x full).rcd d.rcd ∧ KeptTlg (d.hold m x full).tlg d.tlg := by
  have h := (hold_spec d m x full).1
  generalize d.hold m x full = x at h ⊢
  have f {α : Type} (g : Dev → α) : g x.rest = g ({ d.rest with cyc := { quietCyc d.cyc with adm := (x).cyc.adm, spilled := (x).cyc.spilled } }) := congrArg g h
  exact ⟨f (·.now), f (·.snap), f (·.committedOnce), f (·.staged), f (·.ctrls), f (·.freeIx), f (·.tim), f (·.chutes), f (·.stp), f (·.air),
    f (·.gns), f (·.chiselOut), f (·.ring), f (·.can), f (·.mtr), f (·.drk), f (·.dsp), f (·.pwr), f (·.peer), f (·.com), f (·.cyc.origin),
    f (·.cyc.next), f (·.cyc.floor), f (·.cyc.seqs), f (·.cyc.inCommit), f (·.cyc.defer), f (·.cyc.journal), f (·.cyc.feed), f (·.cyc.skipped),
    f (·.cyc.overrun), f (·.cyc.missed), f (·.cyc.flagCold), f (·.cyc.flagStep), f (·.cyc.flagTake), f (·.cyc.lastCommitAt),
    f (·.cyc.changedCov), f (·.cyc.covBase), KeptHost.of (f (·.host)), KeptRcd.of (f (·.rcd)), KeptTlg.of (f (·.tlg))⟩

@[simp] theorem hold_rest (d : Dev) (m : Nat) (x : Input) (full : List Nat) : (d.hold m x full).rest =
    { d.rest with cyc := quietCyc (d.hold m x full).cyc } := by
  have h := (hold_spec d m x full).1
  generalize d.hold m x full = x at h ⊢
  have f {α : Type} (g : Dev → α) : g x.rest = g ({ d.rest with cyc := { quietCyc d.cyc with adm := (x).cyc.adm, spilled := (x).cyc.spilled } }) := congrArg g h
  exact dev_ext (f (·.now)) rfl (f (·.snap)) (f (·.committedOnce)) rfl (f (·.staged)) (f (·.ctrls)) rfl (f (·.freeIx)) (f (·.tim)) rfl (f (·.host))
    (f (·.chutes)) (f (·.rcd)) (f (·.stp)) (f (·.air)) (f (·.gns)) (f (·.chiselOut)) (f (·.ring)) (f (·.can)) (f (·.mtr)) (f (·.drk))
    (f (·.dsp)) (f (·.tlg)) (f (·.pwr)) (f (·.peer)) (f (·.com))

theorem hold_reads (d : Dev) (m : Nat) (x : Input) (full : List Nat) : ∀ id jq, reportItem id = false  →
    (d.hold m x full).rd id jq = d.rd id jq ∧ (d.hold m x full).isSticky id jq = d.isSticky id jq ∧ (d.hold m x full).cf id jq = d.cf id jq := by
  intro id jq hr 
  have h := (hold_spec d m x full).2 id jq hr (by simp) (by simp)
  have e : (d.hold m x full).staged = d.staged := by simp
  refine ⟨h.1, h.2, ?_⟩
  simp only [Dev.cf, e, h.1]

theorem itemsBut_hold {ids : List Nat} {ks : List (Nat × Nat)} (d e : Dev) (m : Nat) (x : Input) (full : List Nat)  :
    ItemsBut ids ks (d.hold m x full) e ↔ ItemsBut ids ks d e :=
  itemsBut_congr ((hold_spec d m x full).2.mono (by simp) (by simp)) e

/-- An input admitted, or dropped and counted, touches what waits for its cycle and the counters of admission. -/
theorem admit_spec (d : Dev) (x : Input) (a : Nat) : (d.admitInput x a).rest = { d.rest with cyc := { quietCyc d.cyc with adm := (d.admitInput x a).cyc.adm, seqs := (d.admitInput x a).cyc.seqs, spilled := (d.admitInput x a).cyc.spilled } } ∧
    ItemsBut [] [(P.CYC_EARLY_DROP, 0), (P.CYC_ADMITTED, 0), (P.CYC_LATE, 0), (P.CYC_LATE_SPILL, 0)] (d.admitInput x a) d := by
  unfold Dev.admitInput
  generalize d.admitCycle x.stamp a = w
  obtain ⟨m, late, full⟩ := w
  generalize hy : ({ x with admitAt := a, late := late } : Input) = y
  simp only [hy]
  unfold Dev.when
  repeat' split
  all_goals
    exact ⟨by first | (simp [itemsBut_self, -judge_rest, judge_rest', -timeState_rest, timeState_rest', -takeSeq_rest, takeSeq_rest', -hold_rest, hold_rest']; done) | (simp [itemsBut_self, -judge_rest, judge_rest', -timeState_rest, timeState_rest', -takeSeq_rest, takeSeq_rest', -hold_rest, hold_rest']; repeat' (first | rfl | apply And.intro)) | rfl, by simp [itemsBut_wr, itemsBut_inc, itemsBut_addW, itemsBut_maxTo, itemsBut_wrS, itemsBut_judge, itemsBut_timeState, itemsBut_takeSeq, itemsBut_countIn, itemsBut_hold]⟩

theorem admit_rest' (d : Dev) (x : Input) (a : Nat) : (d.admitInput x a).rest = { d.rest with cyc := { quietCyc d.cyc with adm := (d.admitInput x a).cyc.adm, seqs := (d.admitInput x a).cyc.seqs, spilled := (d.admitInput x a).cyc.spilled } } := (admit_spec d x a).1

@[simp] theorem admit_fields (d : Dev) (x : Input) (a : Nat) :
    (d.admitInput x a).now = d.now ∧ (d.admitInput x a).snap = d.snap ∧ (d.admitInput x a).committedOnce = d.committedOnce ∧
    (d.admitInput x a).staged = d.staged ∧ (d.admitInput x a).ctrls = d.ctrls ∧ (d.admitInput x a).freeIx = d.freeIx ∧
    (d.admitInput x a).tim = d.tim ∧ (d.admitInput x a).chutes = d.chutes ∧ (d.admitInput x a).stp = d.stp ∧ (d.admitInput x a).air = d.air ∧
    (d.admitInput x a).gns = d.gns ∧ (d.admitInput x a).chiselOut = d.chiselOut ∧ (d.admitInput x a).ring = d.ring ∧
    (d.admitInput x a).can = d.can ∧ (d.admitInput x a).mtr = d.mtr ∧ (d.admitInput x a).drk = d.drk ∧ (d.admitInput x a).dsp = d.dsp ∧
    (d.admitInput x a).pwr = d.pwr ∧ (d.admitInput x a).peer = d.peer ∧ (d.admitInput x a).com = d.com ∧
    (d.admitInput x a).cyc.origin = d.cyc.origin ∧ (d.admitInput x a).cyc.next = d.cyc.next ∧ (d.admitInput x a).cyc.floor = d.cyc.floor ∧
    (d.admitInput x a).cyc.inCommit = d.cyc.inCommit ∧ (d.admitInput x a).cyc.defer = d.cyc.defer ∧
    (d.admitInput x a).cyc.journal = d.cyc.journal ∧ (d.admitInput x a).cyc.feed = d.cyc.feed ∧ (d.admitInput x a).cyc.skipped = d.cyc.skipped ∧
    (d.admitInput x a).cyc.overrun = d.cyc.overrun ∧ (d.admitInput x a).cyc.missed = d.cyc.missed ∧
    (d.admitInput x a).cyc.flagCold = d.cyc.flagCold ∧ (d.admitInput x a).cyc.flagStep = d.cyc.flagStep ∧
    (d.admitInput x a).cyc.flagTake = d.cyc.flagTake ∧ (d.admitInput x a).cyc.lastCommitAt = d.cyc.lastCommitAt ∧
    (d.admitInput x a).cyc.changedCov = d.cyc.changedCov ∧ (d.admitInput x a).cyc.covBase = d.cyc.covBase ∧
    KeptHost (d.admitInput x a).host d.host ∧ KeptRcd (d.admitInput x a).rcd d.rcd ∧ KeptTlg (d.admitInput x a).tlg d.tlg := by
  have h := (admit_spec d x a).1
  generalize d.admitInput x a = x at h ⊢
  have f {α : Type} (g : Dev → α) : g x.rest = g ({ d.rest with cyc := { quietCyc d.cyc with adm := (x).cyc.adm, seqs := (x).cyc.seqs, spilled := (x).cyc.spilled } }) := congrArg g h
  exact ⟨f (·.now), f (·.snap), f (·.committedOnce), f (·.staged), f (·.ctrls), f (·.freeIx), f (·.tim), f (·.chutes), f (·.stp), f (·.air),
    f (·.gns), f (·.chiselOut), f (·.ring), f (·.can), f (·.mtr), f (·.drk), f (·.dsp), f (·.pwr), f (·.peer), f (·.com), f (·.cyc.origin),
    f (·.cyc.next), f (·.cyc.floor), f (·.cyc.inCommit), f (·.cyc.defer), f (·.cyc.journal), f (·.cyc.feed), f (·.cyc.skipped),
    f (·.cyc.overrun), f (·.cyc.missed), f (·.cyc.flagCold), f (·.cyc.flagStep), f (·.cyc.flagTake), f (·.cyc.lastCommitAt),
    f (·.cyc.changedCov), f (·.cyc.covBase), KeptHost.of (f (·.host)), KeptRcd.of (f (·.rcd)), KeptTlg.of (f (·.tlg))⟩

@[simp] theorem admit_rest (d : Dev) (x : Input) (a : Nat) : (d.admitInput x a).rest =
    { d.rest with cyc := quietCyc (d.admitInput x a).cyc } := by
  have h := (admit_spec d x a).1
  generalize d.admitInput x a = x at h ⊢
  have f {α : Type} (g : Dev → α) : g x.rest = g ({ d.rest with cyc := { quietCyc d.cyc with adm := (x).cyc.adm, seqs := (x).cyc.seqs, spilled := (x).cyc.spilled } }) := congrArg g h
  exact dev_ext (f (·.now)) rfl (f (·.snap)) (f (·.committedOnce)) rfl (f (·.staged)) (f (·.ctrls)) rfl (f (·.freeIx)) (f (·.tim)) rfl (f (·.host))
    (f (·.chutes)) (f (·.rcd)) (f (·.stp)) (f (·.air)) (f (·.gns)) (f (·.chiselOut)) (f (·.ring)) (f (·.can)) (f (·.mtr)) (f (·.drk))
    (f (·.dsp)) (f (·.tlg)) (f (·.pwr)) (f (·.peer)) (f (·.com))

theorem admit_reads (d : Dev) (x : Input) (a : Nat) : ∀ id jq, reportItem id = false → id ≠ P.CYC_EARLY_DROP → id ≠ P.CYC_ADMITTED → id ≠ P.CYC_LATE → id ≠ P.CYC_LATE_SPILL →
    (d.admitInput x a).rd id jq = d.rd id jq ∧ (d.admitInput x a).isSticky id jq = d.isSticky id jq ∧ (d.admitInput x a).cf id jq = d.cf id jq := by
  intro id jq hr h0 h1 h2 h3
  have h := (admit_spec d x a).2 id jq hr (by simp) (by simp [regKey_ne, h0, Ne.symm h0, h1, Ne.symm h1, h2, Ne.symm h2, h3, Ne.symm h3])
  have e : (d.admitInput x a).staged = d.staged := by simp
  refine ⟨h.1, h.2, ?_⟩
  simp only [Dev.cf, e, h.1]

theorem admit_at (d : Dev) (x : Input) (a : Nat) : ∀ id jq, reportItem id = false  → regKey P.CYC_EARLY_DROP 0 ≠ regKey id jq → regKey P.CYC_ADMITTED 0 ≠ regKey id jq → regKey P.CYC_LATE 0 ≠ regKey id jq → regKey P.CYC_LATE_SPILL 0 ≠ regKey id jq →
    (d.admitInput x a).rd id jq = d.rd id jq ∧ (d.admitInput x a).isSticky id jq = d.isSticky id jq ∧ (d.admitInput x a).cf id jq = d.cf id jq := by
  intro id jq hr h0 h1 h2 h3
  have h := (admit_spec d x a).2 id jq hr (by simp) (by simp [h0, h1, h2, h3])
  have e : (d.admitInput x a).staged = d.staged := by simp
  refine ⟨h.1, h.2, ?_⟩
  simp only [Dev.cf, e, h.1]

theorem itemsBut_admit {ids : List Nat} {ks : List (Nat × Nat)} (d e : Dev) (x : Input) (a : Nat) (m0 : P.CYC_EARLY_DROP ∈ ids ∨ (P.CYC_EARLY_DROP, 0) ∈ ks) (m1 : P.CYC_ADMITTED ∈ ids ∨ (P.CYC_ADMITTED, 0) ∈ ks) (m2 : P.CYC_LATE ∈ ids ∨ (P.CYC_LATE, 0) ∈ ks) (m3 : P.CYC_LATE_SPILL ∈ ids ∨ (P.CYC_LATE_SPILL, 0) ∈ ks) :
    ItemsBut ids ks (d.admitInput x a) e ↔ ItemsBut ids ks d e :=
  itemsBut_congr ((admit_spec d x a).2.mono (by simp) (by simp [m0, m1, m2, m3])) e

/-- A new input, admitted at once. -/
theorem input_spec (d : Dev) (stamp cls idx : Nat) (p : Bytes) : (d.input stamp cls idx p).rest = { d.rest with cyc := { quietCyc d.cyc with adm := (d.input stamp cls idx p).cyc.adm, seqs := (d.input stamp cls idx p).cyc.seqs, spilled := (d.input stamp cls idx p).cyc.spilled } } ∧
    ItemsBut [] [(P.CYC_EARLY_DROP, 0), (P.CYC_ADMITTED, 0), (P.CYC_LATE, 0), (P.CYC_LATE_SPILL, 0)] (d.input stamp cls idx p) d := by
  unfold Dev.input
  try simp only []
  repeat' split
  all_goals
    exact ⟨by first | (simp [itemsBut_self, -judge_rest, judge_rest', -timeState_rest, timeState_rest', -takeSeq_rest, takeSeq_rest', -hold_rest, hold_rest', -admit_rest, admit_rest']; done) | (simp [itemsBut_self, -judge_rest, judge_rest', -timeState_rest, timeState_rest', -takeSeq_rest, takeSeq_rest', -hold_rest, hold_rest', -admit_rest, admit_rest']; repeat' (first | rfl | apply And.intro)) | rfl, by simp [itemsBut_wr, itemsBut_inc, itemsBut_addW, itemsBut_maxTo, itemsBut_wrS, itemsBut_judge, itemsBut_timeState, itemsBut_takeSeq, itemsBut_countIn, itemsBut_hold, itemsBut_admit]⟩

theorem input_rest' (d : Dev) (stamp cls idx : Nat) (p : Bytes) : (d.input stamp cls idx p).rest = { d.rest with cyc := { quietCyc d.cyc with adm := (d.input stamp cls idx p).cyc.adm, seqs := (d.input stamp cls idx p).cyc.seqs, spilled := (d.input stamp cls idx p).cyc.spilled } } := (input_spec d stamp cls idx p).1

@[simp] theorem input_fields (d : Dev) (stamp cls idx : Nat) (p : Bytes) :
    (d.input stamp cls idx p).now = d.now ∧ (d.input stamp cls idx p).snap = d.snap ∧
    (d.input stamp cls idx p).committedOnce = d.committedOnce ∧ (d.input stamp cls idx p).staged = d.staged ∧
    (d.input stamp cls idx p).ctrls = d.ctrls ∧ (d.input stamp cls idx p).freeIx = d.freeIx ∧ (d.input stamp cls idx p).tim = d.tim ∧
    (d.input stamp cls idx p).chutes = d.chutes ∧ (d.input stamp cls idx p).stp = d.stp ∧ (d.input stamp cls idx p).air = d.air ∧
    (d.input stamp cls idx p).gns = d.gns ∧ (d.input stamp cls idx p).chiselOut = d.chiselOut ∧ (d.input stamp cls idx p).ring = d.ring ∧
    (d.input stamp cls idx p).can = d.can ∧ (d.input stamp cls idx p).mtr = d.mtr ∧ (d.input stamp cls idx p).drk = d.drk ∧
    (d.input stamp cls idx p).dsp = d.dsp ∧ (d.input stamp cls idx p).pwr = d.pwr ∧ (d.input stamp cls idx p).peer = d.peer ∧
    (d.input stamp cls idx p).com = d.com ∧ (d.input stamp cls idx p).cyc.origin = d.cyc.origin ∧
    (d.input stamp cls idx p).cyc.next = d.cyc.next ∧ (d.input stamp cls idx p).cyc.floor = d.cyc.floor ∧
    (d.input stamp cls idx p).cyc.inCommit = d.cyc.inCommit ∧ (d.input stamp cls idx p).cyc.defer = d.cyc.defer ∧
    (d.input stamp cls idx p).cyc.journal = d.cyc.journal ∧ (d.input stamp cls idx p).cyc.feed = d.cyc.feed ∧
    (d.input stamp cls idx p).cyc.skipped = d.cyc.skipped ∧ (d.input stamp cls idx p).cyc.overrun = d.cyc.overrun ∧
    (d.input stamp cls idx p).cyc.missed = d.cyc.missed ∧ (d.input stamp cls idx p).cyc.flagCold = d.cyc.flagCold ∧
    (d.input stamp cls idx p).cyc.flagStep = d.cyc.flagStep ∧ (d.input stamp cls idx p).cyc.flagTake = d.cyc.flagTake ∧
    (d.input stamp cls idx p).cyc.lastCommitAt = d.cyc.lastCommitAt ∧ (d.input stamp cls idx p).cyc.changedCov = d.cyc.changedCov ∧
    (d.input stamp cls idx p).cyc.covBase = d.cyc.covBase ∧ KeptHost (d.input stamp cls idx p).host d.host ∧
    KeptRcd (d.input stamp cls idx p).rcd d.rcd ∧ KeptTlg (d.input stamp cls idx p).tlg d.tlg := by
  have h := (input_spec d stamp cls idx p).1
  generalize d.input stamp cls idx p = x at h ⊢
  have f {α : Type} (g : Dev → α) : g x.rest = g ({ d.rest with cyc := { quietCyc d.cyc with adm := (x).cyc.adm, seqs := (x).cyc.seqs, spilled := (x).cyc.spilled } }) := congrArg g h
  exact ⟨f (·.now), f (·.snap), f (·.committedOnce), f (·.staged), f (·.ctrls), f (·.freeIx), f (·.tim), f (·.chutes), f (·.stp), f (·.air),
    f (·.gns), f (·.chiselOut), f (·.ring), f (·.can), f (·.mtr), f (·.drk), f (·.dsp), f (·.pwr), f (·.peer), f (·.com), f (·.cyc.origin),
    f (·.cyc.next), f (·.cyc.floor), f (·.cyc.inCommit), f (·.cyc.defer), f (·.cyc.journal), f (·.cyc.feed), f (·.cyc.skipped),
    f (·.cyc.overrun), f (·.cyc.missed), f (·.cyc.flagCold), f (·.cyc.flagStep), f (·.cyc.flagTake), f (·.cyc.lastCommitAt),
    f (·.cyc.changedCov), f (·.cyc.covBase), KeptHost.of (f (·.host)), KeptRcd.of (f (·.rcd)), KeptTlg.of (f (·.tlg))⟩

@[simp] theorem input_rest (d : Dev) (stamp cls idx : Nat) (p : Bytes) : (d.input stamp cls idx p).rest =
    { d.rest with cyc := quietCyc (d.input stamp cls idx p).cyc } := by
  have h := (input_spec d stamp cls idx p).1
  generalize d.input stamp cls idx p = x at h ⊢
  have f {α : Type} (g : Dev → α) : g x.rest = g ({ d.rest with cyc := { quietCyc d.cyc with adm := (x).cyc.adm, seqs := (x).cyc.seqs, spilled := (x).cyc.spilled } }) := congrArg g h
  exact dev_ext (f (·.now)) rfl (f (·.snap)) (f (·.committedOnce)) rfl (f (·.staged)) (f (·.ctrls)) rfl (f (·.freeIx)) (f (·.tim)) rfl (f (·.host))
    (f (·.chutes)) (f (·.rcd)) (f (·.stp)) (f (·.air)) (f (·.gns)) (f (·.chiselOut)) (f (·.ring)) (f (·.can)) (f (·.mtr)) (f (·.drk))
    (f (·.dsp)) (f (·.tlg)) (f (·.pwr)) (f (·.peer)) (f (·.com))

theorem input_reads (d : Dev) (stamp cls idx : Nat) (p : Bytes) : ∀ id jq, reportItem id = false → id ≠ P.CYC_EARLY_DROP → id ≠ P.CYC_ADMITTED → id ≠ P.CYC_LATE → id ≠ P.CYC_LATE_SPILL →
    (d.input stamp cls idx p).rd id jq = d.rd id jq ∧ (d.input stamp cls idx p).isSticky id jq = d.isSticky id jq ∧ (d.input stamp cls idx p).cf id jq = d.cf id jq := by
  intro id jq hr h0 h1 h2 h3
  have h := (input_spec d stamp cls idx p).2 id jq hr (by simp) (by simp [regKey_ne, h0, Ne.symm h0, h1, Ne.symm h1, h2, Ne.symm h2, h3, Ne.symm h3])
  have e : (d.input stamp cls idx p).staged = d.staged := by simp
  refine ⟨h.1, h.2, ?_⟩
  simp only [Dev.cf, e, h.1]

theorem input_at (d : Dev) (stamp cls idx : Nat) (p : Bytes) : ∀ id jq, reportItem id = false  → regKey P.CYC_EARLY_DROP 0 ≠ regKey id jq → regKey P.CYC_ADMITTED 0 ≠ regKey id jq → regKey P.CYC_LATE 0 ≠ regKey id jq → regKey P.CYC_LATE_SPILL 0 ≠ regKey id jq →
    (d.input stamp cls idx p).rd id jq = d.rd id jq ∧ (d.input stamp cls idx p).isSticky id jq = d.isSticky id jq ∧ (d.input stamp cls idx p).cf id jq = d.cf id jq := by
  intro id jq hr h0 h1 h2 h3
  have h := (input_spec d stamp cls idx p).2 id jq hr (by simp) (by simp [h0, h1, h2, h3])
  have e : (d.input stamp cls idx p).staged = d.staged := by simp
  refine ⟨h.1, h.2, ?_⟩
  simp only [Dev.cf, e, h.1]

theorem itemsBut_input {ids : List Nat} {ks : List (Nat × Nat)} (d e : Dev) (stamp cls idx : Nat) (p : Bytes) (m0 : P.CYC_EARLY_DROP ∈ ids ∨ (P.CYC_EARLY_DROP, 0) ∈ ks) (m1 : P.CYC_ADMITTED ∈ ids ∨ (P.CYC_ADMITTED, 0) ∈ ks) (m2 : P.CYC_LATE ∈ ids ∨ (P.CYC_LATE, 0) ∈ ks) (m3 : P.CYC_LATE_SPILL ∈ ids ∨ (P.CYC_LATE_SPILL, 0) ∈ ks) :
    ItemsBut ids ks (d.input stamp cls idx p) e ↔ ItemsBut ids ks d e :=
  itemsBut_congr ((input_spec d stamp cls idx p).2.mono (by simp) (by simp [m0, m1, m2, m3])) e

/-- A new input that waits in its producer. -/
theorem offer_spec (d : Dev) (chute stamp cls idx : Nat) (p : Bytes) : (d.offer chute stamp cls idx p).rest = { d.rest with chutes := (d.offer chute stamp cls idx p).chutes, cyc := { quietCyc d.cyc with seqs := (d.offer chute stamp cls idx p).cyc.seqs } } ∧
    ItemsBut [] [] (d.offer chute stamp cls idx p) d := by
  exact ⟨rfl, fun _ _ _ _ _ => ⟨rfl, rfl⟩⟩

theorem offer_rest' (d : Dev) (chute stamp cls idx : Nat) (p : Bytes) : (d.offer chute stamp cls idx p).rest = { d.rest with chutes := (d.offer chute stamp cls idx p).chutes, cyc := { quietCyc d.cyc with seqs := (d.offer chute stamp cls idx p).cyc.seqs } } := (offer_spec d chute stamp cls idx p).1

@[simp] theorem offer_fields (d : Dev) (chute stamp cls idx : Nat) (p : Bytes) :
    (d.offer chute stamp cls idx p).now = d.now ∧ (d.offer chute stamp cls idx p).snap = d.snap ∧
    (d.offer chute stamp cls idx p).committedOnce = d.committedOnce ∧ (d.offer chute stamp cls idx p).staged = d.staged ∧
    (d.offer chute stamp cls idx p).ctrls = d.ctrls ∧ (d.offer chute stamp cls idx p).freeIx = d.freeIx ∧
    (d.offer chute stamp cls idx p).tim = d.tim ∧ (d.offer chute stamp cls idx p).stp = d.stp ∧ (d.offer chute stamp cls idx p).air = d.air ∧
    (d.offer chute stamp cls idx p).gns = d.gns ∧ (d.offer chute stamp cls idx p).chiselOut = d.chiselOut ∧
    (d.offer chute stamp cls idx p).ring = d.ring ∧ (d.offer chute stamp cls idx p).can = d.can ∧ (d.offer chute stamp cls idx p).mtr = d.mtr ∧
    (d.offer chute stamp cls idx p).drk = d.drk ∧ (d.offer chute stamp cls idx p).dsp = d.dsp ∧ (d.offer chute stamp cls idx p).pwr = d.pwr ∧
    (d.offer chute stamp cls idx p).peer = d.peer ∧ (d.offer chute stamp cls idx p).com = d.com ∧
    (d.offer chute stamp cls idx p).cyc.origin = d.cyc.origin ∧ (d.offer chute stamp cls idx p).cyc.next = d.cyc.next ∧
    (d.offer chute stamp cls idx p).cyc.floor = d.cyc.floor ∧ (d.offer chute stamp cls idx p).cyc.adm = d.cyc.adm ∧
    (d.offer chute stamp cls idx p).cyc.spilled = d.cyc.spilled ∧ (d.offer chute stamp cls idx p).cyc.inCommit = d.cyc.inCommit ∧
    (d.offer chute stamp cls idx p).cyc.defer = d.cyc.defer ∧ (d.offer chute stamp cls idx p).cyc.journal = d.cyc.journal ∧
    (d.offer chute stamp cls idx p).cyc.feed = d.cyc.feed ∧ (d.offer chute stamp cls idx p).cyc.skipped = d.cyc.skipped ∧
    (d.offer chute stamp cls idx p).cyc.overrun = d.cyc.overrun ∧ (d.offer chute stamp cls idx p).cyc.missed = d.cyc.missed ∧
    (d.offer chute stamp cls idx p).cyc.flagCold = d.cyc.flagCold ∧ (d.offer chute stamp cls idx p).cyc.flagStep = d.cyc.flagStep ∧
    (d.offer chute stamp cls idx p).cyc.flagTake = d.cyc.flagTake ∧ (d.offer chute stamp cls idx p).cyc.lastCommitAt = d.cyc.lastCommitAt ∧
    (d.offer chute stamp cls idx p).cyc.changedCov = d.cyc.changedCov ∧ (d.offer chute stamp cls idx p).cyc.covBase = d.cyc.covBase ∧
    KeptHost (d.offer chute stamp cls idx p).host d.host ∧ KeptRcd (d.offer chute stamp cls idx p).rcd d.rcd ∧
    KeptTlg (d.offer chute stamp cls idx p).tlg d.tlg := by
  have h := (offer_spec d chute stamp cls idx p).1
  generalize d.offer chute stamp cls idx p = x at h ⊢
  have f {α : Type} (g : Dev → α) : g x.rest = g ({ d.rest with chutes := (x).chutes, cyc := { quietCyc d.cyc with seqs := (x).cyc.seqs } }) := congrArg g h
  exact ⟨f (·.now), f (·.snap), f (·.committedOnce), f (·.staged), f (·.ctrls), f (·.freeIx), f (·.tim), f (·.stp), f (·.air), f (·.gns),
    f (·.chiselOut), f (·.ring), f (·.can), f (·.mtr), f (·.drk), f (·.dsp), f (·.pwr), f (·.peer), f (·.com), f (·.cyc.origin), f (·.cyc.next),
    f (·.cyc.floor), f (·.cyc.adm), f (·.cyc.spilled), f (·.cyc.inCommit), f (·.cyc.defer), f (·.cyc.journal), f (·.cyc.feed),
    f (·.cyc.skipped), f (·.cyc.overrun), f (·.cyc.missed), f (·.cyc.flagCold), f (·.cyc.flagStep), f (·.cyc.flagTake), f (·.cyc.lastCommitAt),
    f (·.cyc.changedCov), f (·.cyc.covBase), KeptHost.of (f (·.host)), KeptRcd.of (f (·.rcd)), KeptTlg.of (f (·.tlg))⟩

@[simp] theorem offer_rest (d : Dev) (chute stamp cls idx : Nat) (p : Bytes) : (d.offer chute stamp cls idx p).rest =
    { d.rest with chutes := (d.offer chute stamp cls idx p).chutes, cyc := quietCyc (d.offer chute stamp cls idx p).cyc } := by
  have h := (offer_spec d chute stamp cls idx p).1
  generalize d.offer chute stamp cls idx p = x at h ⊢
  have f {α : Type} (g : Dev → α) : g x.rest = g ({ d.rest with chutes := (x).chutes, cyc := { quietCyc d.cyc with seqs := (x).cyc.seqs } }) := congrArg g h
  exact dev_ext (f (·.now)) rfl (f (·.snap)) (f (·.committedOnce)) rfl (f (·.staged)) (f (·.ctrls)) rfl (f (·.freeIx)) (f (·.tim)) rfl (f (·.host)) rfl
    (f (·.rcd)) (f (·.stp)) (f (·.air)) (f (·.gns)) (f (·.chiselOut)) (f (·.ring)) (f (·.can)) (f (·.mtr)) (f (·.drk)) (f (·.dsp)) (f (·.tlg))
    (f (·.pwr)) (f (·.peer)) (f (·.com))

theorem offer_reads (d : Dev) (chute stamp cls idx : Nat) (p : Bytes) : ∀ id jq, reportItem id = false  →
    (d.offer chute stamp cls idx p).rd id jq = d.rd id jq ∧ (d.offer chute stamp cls idx p).isSticky id jq = d.isSticky id jq ∧ (d.offer chute stamp cls idx p).cf id jq = d.cf id jq := by
  intro id jq hr 
  have h := (offer_spec d chute stamp cls idx p).2 id jq hr (by simp) (by simp)
  have e : (d.offer chute stamp cls idx p).staged = d.staged := by simp
  refine ⟨h.1, h.2, ?_⟩
  simp only [Dev.cf, e, h.1]

theorem itemsBut_offer {ids : List Nat} {ks : List (Nat × Nat)} (d e : Dev) (chute stamp cls idx : Nat) (p : Bytes)  :
    ItemsBut ids ks (d.offer chute stamp cls idx p) e ↔ ItemsBut ids ks d e :=
  itemsBut_congr ((offer_spec d chute stamp cls idx p).2.mono (by simp) (by simp)) e

/-! ### Stop sources, giving up control -/

/-- The notice of a stop event. -/
theorem stopNotice_spec (d : Dev) (src : Nat) (s : Scope) (stamp : Nat) : (d.stopNotice src s stamp).rest = { d.rest with stp := { d.stp with lastEv := (d.stopNotice src s stamp).stp.lastEv } } ∧
    ItemsBut [] [] (d.stopNotice src s stamp) d := by
  unfold Dev.stopNotice
  try simp only []
  repeat' split
  all_goals
    exact ⟨by first | (simp [itemsBut_self, -judge_rest, judge_rest', -timeState_rest, timeState_rest', -takeSeq_rest, takeSeq_rest', -hold_rest, hold_rest', -admit_rest, admit_rest', -input_rest, input_rest', -offer_rest, offer_rest']; done) | (simp [itemsBut_self, -judge_rest, judge_rest', -timeState_rest, timeState_rest', -takeSeq_rest, takeSeq_rest', -hold_rest, hold_rest', -admit_rest, admit_rest', -input_rest, input_rest', -offer_rest, offer_rest']; repeat' (first | rfl | apply And.intro)) | rfl, by simp [itemsBut_wr, itemsBut_inc, itemsBut_addW, itemsBut_maxTo, itemsBut_wrS, itemsBut_judge, itemsBut_timeState, itemsBut_takeSeq, itemsBut_countIn, itemsBut_hold, itemsBut_admit, itemsBut_input, itemsBut_offer]⟩

theorem stopNotice_rest' (d : Dev) (src : Nat) (s : Scope) (stamp : Nat) : (d.stopNotice src s stamp).rest = { d.rest with stp := { d.stp with lastEv := (d.stopNotice src s stamp).stp.lastEv } } := (stopNotice_spec d src s stamp).1

@[simp] theorem stopNotice_fields (d : Dev) (src : Nat) (s : Scope) (stamp : Nat) :
    (d.stopNotice src s stamp).now = d.now ∧ (d.stopNotice src s stamp).snap = d.snap ∧
    (d.stopNotice src s stamp).committedOnce = d.committedOnce ∧ (d.stopNotice src s stamp).staged = d.staged ∧
    (d.stopNotice src s stamp).ctrls = d.ctrls ∧ (d.stopNotice src s stamp).freeIx = d.freeIx ∧ (d.stopNotice src s stamp).tim = d.tim ∧
    (d.stopNotice src s stamp).chutes = d.chutes ∧ (d.stopNotice src s stamp).stp.lanes = d.stp.lanes ∧
    (d.stopNotice src s stamp).stp.diff = d.stp.diff ∧ (d.stopNotice src s stamp).stp.allDiff = d.stp.allDiff ∧
    (d.stopNotice src s stamp).stp.permits = d.stp.permits ∧ (d.stopNotice src s stamp).stp.out = d.stp.out ∧
    (d.stopNotice src s stamp).stp.level = d.stp.level ∧ (d.stopNotice src s stamp).stp.pulsePass = d.stp.pulsePass ∧
    (d.stopNotice src s stamp).stp.sawOpen = d.stp.sawOpen ∧ (d.stopNotice src s stamp).stp.sawClosed = d.stp.sawClosed ∧
    (d.stopNotice src s stamp).stp.circuit = d.stp.circuit ∧ (d.stopNotice src s stamp).stp.diffSince = d.stp.diffSince ∧
    (d.stopNotice src s stamp).stp.outFault = d.stp.outFault ∧ (d.stopNotice src s stamp).stp.outOn = d.stp.outOn ∧
    (d.stopNotice src s stamp).stp.fbSince = d.stp.fbSince ∧ (d.stopNotice src s stamp).stp.verdict = d.stp.verdict ∧
    (d.stopNotice src s stamp).stp.ownFail = d.stp.ownFail ∧ (d.stopNotice src s stamp).stp.withheldBy = d.stp.withheldBy ∧
    (d.stopNotice src s stamp).stp.series = d.stp.series ∧ (d.stopNotice src s stamp).stp.unentered = d.stp.unentered ∧
    (d.stopNotice src s stamp).stp.pendingFence = d.stp.pendingFence ∧ (d.stopNotice src s stamp).stp.lastRecord = d.stp.lastRecord ∧
    (d.stopNotice src s stamp).stp.testsDone = d.stp.testsDone ∧ (d.stopNotice src s stamp).stp.canSilent = d.stp.canSilent ∧
    (d.stopNotice src s stamp).stp.remoteSilent = d.stp.remoteSilent ∧ (d.stopNotice src s stamp).stp.kept = d.stp.kept ∧
    (d.stopNotice src s stamp).stp.mail = d.stp.mail ∧ (d.stopNotice src s stamp).stp.remoteLast = d.stp.remoteLast ∧
    (d.stopNotice src s stamp).stp.canLast = d.stp.canLast ∧ (d.stopNotice src s stamp).stp.unheard = d.stp.unheard ∧
    (d.stopNotice src s stamp).stp.firstBeacon = d.stp.firstBeacon ∧ (d.stopNotice src s stamp).stp.bcnCycle = d.stp.bcnCycle ∧
    (d.stopNotice src s stamp).air = d.air ∧ (d.stopNotice src s stamp).gns = d.gns ∧ (d.stopNotice src s stamp).chiselOut = d.chiselOut ∧
    (d.stopNotice src s stamp).ring = d.ring ∧ (d.stopNotice src s stamp).can = d.can ∧ (d.stopNotice src s stamp).mtr = d.mtr ∧
    (d.stopNotice src s stamp).drk = d.drk ∧ (d.stopNotice src s stamp).dsp = d.dsp ∧ (d.stopNotice src s stamp).pwr = d.pwr ∧
    (d.stopNotice src s stamp).peer = d.peer ∧ (d.stopNotice src s stamp).com = d.com ∧ KeptCyc (d.stopNotice src s stamp).cyc d.cyc ∧
    KeptHost (d.stopNotice src s stamp).host d.host ∧ KeptRcd (d.stopNotice src s stamp).rcd d.rcd ∧
    KeptTlg (d.stopNotice src s stamp).tlg d.tlg := by
  have h := (stopNotice_spec d src s stamp).1
  generalize d.stopNotice src s stamp = x at h ⊢
  have f {α : Type} (g : Dev → α) : g x.rest = g ({ d.rest with stp := { d.stp with lastEv := (x).stp.lastEv } }) := congrArg g h
  exact ⟨f (·.now), f (·.snap), f (·.committedOnce), f (·.staged), f (·.ctrls), f (·.freeIx), f (·.tim), f (·.chutes), f (·.stp.lanes),
    f (·.stp.diff), f (·.stp.allDiff), f (·.stp.permits), f (·.stp.out), f (·.stp.level), f (·.stp.pulsePass), f (·.stp.sawOpen),
    f (·.stp.sawClosed), f (·.stp.circuit), f (·.stp.diffSince), f (·.stp.outFault), f (·.stp.outOn), f (·.stp.fbSince), f (·.stp.verdict),
    f (·.stp.ownFail), f (·.stp.withheldBy), f (·.stp.series), f (·.stp.unentered), f (·.stp.pendingFence), f (·.stp.lastRecord),
    f (·.stp.testsDone), f (·.stp.canSilent), f (·.stp.remoteSilent), f (·.stp.kept), f (·.stp.mail), f (·.stp.remoteLast), f (·.stp.canLast),
    f (·.stp.unheard), f (·.stp.firstBeacon), f (·.stp.bcnCycle), f (·.air), f (·.gns), f (·.chiselOut), f (·.ring), f (·.can), f (·.mtr),
    f (·.drk), f (·.dsp), f (·.pwr), f (·.peer), f (·.com), KeptCyc.of (f (·.cyc)), KeptHost.of (f (·.host)), KeptRcd.of (f (·.rcd)),
    KeptTlg.of (f (·.tlg))⟩

@[simp] theorem stopNotice_rest (d : Dev) (src : Nat) (s : Scope) (stamp : Nat) : (d.stopNotice src s stamp).rest =
    { d.rest with stp := (d.stopNotice src s stamp).stp } := by
  have h := (stopNotice_spec d src s stamp).1
  generalize d.stopNotice src s stamp = x at h ⊢
  have f {α : Type} (g : Dev → α) : g x.rest = g ({ d.rest with stp := { d.stp with lastEv := (x).stp.lastEv } }) := congrArg g h
  exact dev_ext (f (·.now)) rfl (f (·.snap)) (f (·.committedOnce)) rfl (f (·.staged)) (f (·.ctrls)) rfl (f (·.freeIx)) (f (·.tim)) (f (·.cyc)) (f (·.host))
    (f (·.chutes)) (f (·.rcd)) rfl (f (·.air)) (f (·.gns)) (f (·.chiselOut)) (f (·.ring)) (f (·.can)) (f (·.mtr)) (f (·.drk)) (f (·.dsp))
    (f (·.tlg)) (f (·.pwr)) (f (·.peer)) (f (·.com))

theorem stopNotice_reads (d : Dev) (src : Nat) (s : Scope) (stamp : Nat) : ∀ id jq, reportItem id = false  →
    (d.stopNotice src s stamp).rd id jq = d.rd id jq ∧ (d.stopNotice src s stamp).isSticky id jq = d.isSticky id jq ∧ (d.stopNotice src s stamp).cf id jq = d.cf id jq := by
  intro id jq hr 
  have h := (stopNotice_spec d src s stamp).2 id jq hr (by simp) (by simp)
  have e : (d.stopNotice src s stamp).staged = d.staged := by simp
  refine ⟨h.1, h.2, ?_⟩
  simp only [Dev.cf, e, h.1]

theorem itemsBut_stopNotice {ids : List Nat} {ks : List (Nat × Nat)} (d e : Dev) (src : Nat) (s : Scope) (stamp : Nat)  :
    ItemsBut ids ks (d.stopNotice src s stamp) e ↔ ItemsBut ids ks d e :=
  itemsBut_congr ((stopNotice_spec d src s stamp).2.mono (by simp) (by simp)) e

/-- A stop source event reaches the lanes at once. -/
theorem stopEvent_spec (d : Dev) (src : Nat) (s : Scope) (k : EvKey) (en : Bool) : (d.stopEvent src s k en).rest = { d.rest with stp := { d.stp with lastEv := (d.stopEvent src s k en).stp.lastEv, lanes := (d.stopEvent src s k en).stp.lanes, unentered := (d.stopEvent src s k en).stp.unentered } } ∧
    ItemsBut [] [] (d.stopEvent src s k en) d := by
  unfold Dev.stopEvent
  try simp only []
  repeat' split
  all_goals
    exact ⟨by first | (simp [itemsBut_self, -judge_rest, judge_rest', -timeState_rest, timeState_rest', -takeSeq_rest, takeSeq_rest', -hold_rest, hold_rest', -admit_rest, admit_rest', -input_rest, input_rest', -offer_rest, offer_rest', -stopNotice_rest, stopNotice_rest']; done) | (simp [itemsBut_self, -judge_rest, judge_rest', -timeState_rest, timeState_rest', -takeSeq_rest, takeSeq_rest', -hold_rest, hold_rest', -admit_rest, admit_rest', -input_rest, input_rest', -offer_rest, offer_rest', -stopNotice_rest, stopNotice_rest']; repeat' (first | rfl | apply And.intro)) | rfl, by simp [itemsBut_wr, itemsBut_inc, itemsBut_addW, itemsBut_maxTo, itemsBut_wrS, itemsBut_judge, itemsBut_timeState, itemsBut_takeSeq, itemsBut_countIn, itemsBut_hold, itemsBut_admit, itemsBut_input, itemsBut_offer, itemsBut_stopNotice]⟩

theorem stopEvent_rest' (d : Dev) (src : Nat) (s : Scope) (k : EvKey) (en : Bool) : (d.stopEvent src s k en).rest = { d.rest with stp := { d.stp with lastEv := (d.stopEvent src s k en).stp.lastEv, lanes := (d.stopEvent src s k en).stp.lanes, unentered := (d.stopEvent src s k en).stp.unentered } } := (stopEvent_spec d src s k en).1

@[simp] theorem stopEvent_fields (d : Dev) (src : Nat) (s : Scope) (k : EvKey) (en : Bool) :
    (d.stopEvent src s k en).now = d.now ∧ (d.stopEvent src s k en).snap = d.snap ∧ (d.stopEvent src s k en).committedOnce = d.committedOnce ∧
    (d.stopEvent src s k en).staged = d.staged ∧ (d.stopEvent src s k en).ctrls = d.ctrls ∧ (d.stopEvent src s k en).freeIx = d.freeIx ∧
    (d.stopEvent src s k en).tim = d.tim ∧ (d.stopEvent src s k en).chutes = d.chutes ∧ (d.stopEvent src s k en).stp.diff = d.stp.diff ∧
    (d.stopEvent src s k en).stp.allDiff = d.stp.allDiff ∧ (d.stopEvent src s k en).stp.permits = d.stp.permits ∧
    (d.stopEvent src s k en).stp.out = d.stp.out ∧ (d.stopEvent src s k en).stp.level = d.stp.level ∧
    (d.stopEvent src s k en).stp.pulsePass = d.stp.pulsePass ∧ (d.stopEvent src s k en).stp.sawOpen = d.stp.sawOpen ∧
    (d.stopEvent src s k en).stp.sawClosed = d.stp.sawClosed ∧ (d.stopEvent src s k en).stp.circuit = d.stp.circuit ∧
    (d.stopEvent src s k en).stp.diffSince = d.stp.diffSince ∧ (d.stopEvent src s k en).stp.outFault = d.stp.outFault ∧
    (d.stopEvent src s k en).stp.outOn = d.stp.outOn ∧ (d.stopEvent src s k en).stp.fbSince = d.stp.fbSince ∧
    (d.stopEvent src s k en).stp.verdict = d.stp.verdict ∧ (d.stopEvent src s k en).stp.ownFail = d.stp.ownFail ∧
    (d.stopEvent src s k en).stp.withheldBy = d.stp.withheldBy ∧ (d.stopEvent src s k en).stp.series = d.stp.series ∧
    (d.stopEvent src s k en).stp.pendingFence = d.stp.pendingFence ∧ (d.stopEvent src s k en).stp.lastRecord = d.stp.lastRecord ∧
    (d.stopEvent src s k en).stp.testsDone = d.stp.testsDone ∧ (d.stopEvent src s k en).stp.canSilent = d.stp.canSilent ∧
    (d.stopEvent src s k en).stp.remoteSilent = d.stp.remoteSilent ∧ (d.stopEvent src s k en).stp.kept = d.stp.kept ∧
    (d.stopEvent src s k en).stp.mail = d.stp.mail ∧ (d.stopEvent src s k en).stp.remoteLast = d.stp.remoteLast ∧
    (d.stopEvent src s k en).stp.canLast = d.stp.canLast ∧ (d.stopEvent src s k en).stp.unheard = d.stp.unheard ∧
    (d.stopEvent src s k en).stp.firstBeacon = d.stp.firstBeacon ∧ (d.stopEvent src s k en).stp.bcnCycle = d.stp.bcnCycle ∧
    (d.stopEvent src s k en).air = d.air ∧ (d.stopEvent src s k en).gns = d.gns ∧ (d.stopEvent src s k en).chiselOut = d.chiselOut ∧
    (d.stopEvent src s k en).ring = d.ring ∧ (d.stopEvent src s k en).can = d.can ∧ (d.stopEvent src s k en).mtr = d.mtr ∧
    (d.stopEvent src s k en).drk = d.drk ∧ (d.stopEvent src s k en).dsp = d.dsp ∧ (d.stopEvent src s k en).pwr = d.pwr ∧
    (d.stopEvent src s k en).peer = d.peer ∧ (d.stopEvent src s k en).com = d.com ∧ KeptCyc (d.stopEvent src s k en).cyc d.cyc ∧
    KeptHost (d.stopEvent src s k en).host d.host ∧ KeptRcd (d.stopEvent src s k en).rcd d.rcd ∧ KeptTlg (d.stopEvent src s k en).tlg d.tlg := by
  have h := (stopEvent_spec d src s k en).1
  generalize d.stopEvent src s k en = x at h ⊢
  have f {α : Type} (g : Dev → α) : g x.rest = g ({ d.rest with stp := { d.stp with lastEv := (x).stp.lastEv, lanes := (x).stp.lanes, unentered := (x).stp.unentered } }) := congrArg g h
  exact ⟨f (·.now), f (·.snap), f (·.committedOnce), f (·.staged), f (·.ctrls), f (·.freeIx), f (·.tim), f (·.chutes), f (·.stp.diff),
    f (·.stp.allDiff), f (·.stp.permits), f (·.stp.out), f (·.stp.level), f (·.stp.pulsePass), f (·.stp.sawOpen), f (·.stp.sawClosed),
    f (·.stp.circuit), f (·.stp.diffSince), f (·.stp.outFault), f (·.stp.outOn), f (·.stp.fbSince), f (·.stp.verdict), f (·.stp.ownFail),
    f (·.stp.withheldBy), f (·.stp.series), f (·.stp.pendingFence), f (·.stp.lastRecord), f (·.stp.testsDone), f (·.stp.canSilent),
    f (·.stp.remoteSilent), f (·.stp.kept), f (·.stp.mail), f (·.stp.remoteLast), f (·.stp.canLast), f (·.stp.unheard), f (·.stp.firstBeacon),
    f (·.stp.bcnCycle), f (·.air), f (·.gns), f (·.chiselOut), f (·.ring), f (·.can), f (·.mtr), f (·.drk), f (·.dsp), f (·.pwr), f (·.peer),
    f (·.com), KeptCyc.of (f (·.cyc)), KeptHost.of (f (·.host)), KeptRcd.of (f (·.rcd)), KeptTlg.of (f (·.tlg))⟩

@[simp] theorem stopEvent_rest (d : Dev) (src : Nat) (s : Scope) (k : EvKey) (en : Bool) : (d.stopEvent src s k en).rest =
    { d.rest with stp := (d.stopEvent src s k en).stp } := by
  have h := (stopEvent_spec d src s k en).1
  generalize d.stopEvent src s k en = x at h ⊢
  have f {α : Type} (g : Dev → α) : g x.rest = g ({ d.rest with stp := { d.stp with lastEv := (x).stp.lastEv, lanes := (x).stp.lanes, unentered := (x).stp.unentered } }) := congrArg g h
  exact dev_ext (f (·.now)) rfl (f (·.snap)) (f (·.committedOnce)) rfl (f (·.staged)) (f (·.ctrls)) rfl (f (·.freeIx)) (f (·.tim)) (f (·.cyc)) (f (·.host))
    (f (·.chutes)) (f (·.rcd)) rfl (f (·.air)) (f (·.gns)) (f (·.chiselOut)) (f (·.ring)) (f (·.can)) (f (·.mtr)) (f (·.drk)) (f (·.dsp))
    (f (·.tlg)) (f (·.pwr)) (f (·.peer)) (f (·.com))

theorem stopEvent_reads (d : Dev) (src : Nat) (s : Scope) (k : EvKey) (en : Bool) : ∀ id jq, reportItem id = false  →
    (d.stopEvent src s k en).rd id jq = d.rd id jq ∧ (d.stopEvent src s k en).isSticky id jq = d.isSticky id jq ∧ (d.stopEvent src s k en).cf id jq = d.cf id jq := by
  intro id jq hr 
  have h := (stopEvent_spec d src s k en).2 id jq hr (by simp) (by simp)
  have e : (d.stopEvent src s k en).staged = d.staged := by simp
  refine ⟨h.1, h.2, ?_⟩
  simp only [Dev.cf, e, h.1]

theorem itemsBut_stopEvent {ids : List Nat} {ks : List (Nat × Nat)} (d e : Dev) (src : Nat) (s : Scope) (k : EvKey) (en : Bool)  :
    ItemsBut ids ks (d.stopEvent src s k en) e ↔ ItemsBut ids ks d e :=
  itemsBut_congr ((stopEvent_spec d src s k en).2.mono (by simp) (by simp)) e

/-- Control given up touches the Peer engine and the cause shown. -/
theorem giveUp_spec (d : Dev) (cause : Nat) : (d.giveUp cause).rest = { d.rest with peer := { d.peer with seatDriven := (d.giveUp cause).peer.seatDriven, yielding := (d.giveUp cause).peer.yielding, boundary := (d.giveUp cause).peer.boundary, takeGot := (d.giveUp cause).peer.takeGot } } ∧
    ItemsBut [] [(P.DPX_GIVEUP_CAUSE, 0)] (d.giveUp cause) d := by
  unfold Dev.giveUp Dev.when
  try simp only []
  repeat' split
  all_goals
    exact ⟨by first | (simp [itemsBut_self, -judge_rest, judge_rest', -timeState_rest, timeState_rest', -takeSeq_rest, takeSeq_rest', -hold_rest, hold_rest', -admit_rest, admit_rest', -input_rest, input_rest', -offer_rest, offer_rest', -stopNotice_rest, stopNotice_rest', -stopEvent_rest, stopEvent_rest']; done) | (simp [itemsBut_self, -judge_rest, judge_rest', -timeState_rest, timeState_rest', -takeSeq_rest, takeSeq_rest', -hold_rest, hold_rest', -admit_rest, admit_rest', -input_rest, input_rest', -offer_rest, offer_rest', -stopNotice_rest, stopNotice_rest', -stopEvent_rest, stopEvent_rest']; repeat' (first | rfl | apply And.intro)) | rfl, by simp [itemsBut_wr, itemsBut_inc, itemsBut_addW, itemsBut_maxTo, itemsBut_wrS, itemsBut_judge, itemsBut_timeState, itemsBut_takeSeq, itemsBut_countIn, itemsBut_hold, itemsBut_admit, itemsBut_input, itemsBut_offer, itemsBut_stopNotice, itemsBut_stopEvent]⟩

theorem giveUp_rest' (d : Dev) (cause : Nat) : (d.giveUp cause).rest = { d.rest with peer := { d.peer with seatDriven := (d.giveUp cause).peer.seatDriven, yielding := (d.giveUp cause).peer.yielding, boundary := (d.giveUp cause).peer.boundary, takeGot := (d.giveUp cause).peer.takeGot } } := (giveUp_spec d cause).1

@[simp] theorem giveUp_fields (d : Dev) (cause : Nat) :
    (d.giveUp cause).now = d.now ∧ (d.giveUp cause).snap = d.snap ∧ (d.giveUp cause).committedOnce = d.committedOnce ∧
    (d.giveUp cause).staged = d.staged ∧ (d.giveUp cause).ctrls = d.ctrls ∧ (d.giveUp cause).freeIx = d.freeIx ∧ (d.giveUp cause).tim = d.tim ∧
    (d.giveUp cause).chutes = d.chutes ∧ (d.giveUp cause).stp = d.stp ∧ (d.giveUp cause).air = d.air ∧ (d.giveUp cause).gns = d.gns ∧
    (d.giveUp cause).chiselOut = d.chiselOut ∧ (d.giveUp cause).ring = d.ring ∧ (d.giveUp cause).can = d.can ∧ (d.giveUp cause).mtr = d.mtr ∧
    (d.giveUp cause).drk = d.drk ∧ (d.giveUp cause).dsp = d.dsp ∧ (d.giveUp cause).pwr = d.pwr ∧
    (d.giveUp cause).peer.seatHigh = d.peer.seatHigh ∧ (d.giveUp cause).peer.giveB = d.peer.giveB ∧
    (d.giveUp cause).peer.takeSent = d.peer.takeSent ∧ (d.giveUp cause).peer.hbSeq = d.peer.hbSeq ∧
    (d.giveUp cause).peer.hbLastSeq = d.peer.hbLastSeq ∧ (d.giveUp cause).peer.hbLastAt = d.peer.hbLastAt ∧
    (d.giveUp cause).peer.restored = d.peer.restored ∧ (d.giveUp cause).peer.trained = d.peer.trained ∧ (d.giveUp cause).peer.key = d.peer.key ∧
    (d.giveUp cause).peer.peerTenure = d.peer.peerTenure ∧ (d.giveUp cause).peer.peerMode = d.peer.peerMode ∧
    (d.giveUp cause).peer.peerCycle = d.peer.peerCycle ∧ (d.giveUp cause).peer.peerOffset = d.peer.peerOffset ∧
    (d.giveUp cause).peer.digestSkip = d.peer.digestSkip ∧ (d.giveUp cause).peer.lastCopy = d.peer.lastCopy ∧
    (d.giveUp cause).peer.waitCheckpoint = d.peer.waitCheckpoint ∧ (d.giveUp cause).peer.matchRun = d.peer.matchRun ∧
    (d.giveUp cause).peer.mismatchRun = d.peer.mismatchRun ∧ (d.giveUp cause).peer.holdFrom = d.peer.holdFrom ∧
    (d.giveUp cause).peer.holdMismatch = d.peer.holdMismatch ∧ (d.giveUp cause).peer.claim = d.peer.claim ∧
    (d.giveUp cause).peer.refused = d.peer.refused ∧ (d.giveUp cause).peer.silentAt = d.peer.silentAt ∧
    (d.giveUp cause).peer.restarts = d.peer.restarts ∧ (d.giveUp cause).peer.beaconCycles = d.peer.beaconCycles ∧
    (d.giveUp cause).peer.foreign = d.peer.foreign ∧ (d.giveUp cause).peer.fwd = d.peer.fwd ∧
    (d.giveUp cause).peer.lossLatch = d.peer.lossLatch ∧ (d.giveUp cause).peer.lastState = d.peer.lastState ∧ (d.giveUp cause).com = d.com ∧
    KeptCyc (d.giveUp cause).cyc d.cyc ∧ KeptHost (d.giveUp cause).host d.host ∧ KeptRcd (d.giveUp cause).rcd d.rcd ∧
    KeptTlg (d.giveUp cause).tlg d.tlg := by
  have h := (giveUp_spec d cause).1
  generalize d.giveUp cause = x at h ⊢
  have f {α : Type} (g : Dev → α) : g x.rest = g ({ d.rest with peer := { d.peer with seatDriven := (x).peer.seatDriven, yielding := (x).peer.yielding, boundary := (x).peer.boundary, takeGot := (x).peer.takeGot } }) := congrArg g h
  exact ⟨f (·.now), f (·.snap), f (·.committedOnce), f (·.staged), f (·.ctrls), f (·.freeIx), f (·.tim), f (·.chutes), f (·.stp), f (·.air),
    f (·.gns), f (·.chiselOut), f (·.ring), f (·.can), f (·.mtr), f (·.drk), f (·.dsp), f (·.pwr), f (·.peer.seatHigh), f (·.peer.giveB),
    f (·.peer.takeSent), f (·.peer.hbSeq), f (·.peer.hbLastSeq), f (·.peer.hbLastAt), f (·.peer.restored), f (·.peer.trained), f (·.peer.key),
    f (·.peer.peerTenure), f (·.peer.peerMode), f (·.peer.peerCycle), f (·.peer.peerOffset), f (·.peer.digestSkip), f (·.peer.lastCopy),
    f (·.peer.waitCheckpoint), f (·.peer.matchRun), f (·.peer.mismatchRun), f (·.peer.holdFrom), f (·.peer.holdMismatch), f (·.peer.claim),
    f (·.peer.refused), f (·.peer.silentAt), f (·.peer.restarts), f (·.peer.beaconCycles), f (·.peer.foreign), f (·.peer.fwd),
    f (·.peer.lossLatch), f (·.peer.lastState), f (·.com), KeptCyc.of (f (·.cyc)), KeptHost.of (f (·.host)), KeptRcd.of (f (·.rcd)),
    KeptTlg.of (f (·.tlg))⟩

@[simp] theorem giveUp_rest (d : Dev) (cause : Nat) : (d.giveUp cause).rest =
    { d.rest with peer := (d.giveUp cause).peer } := by
  have h := (giveUp_spec d cause).1
  generalize d.giveUp cause = x at h ⊢
  have f {α : Type} (g : Dev → α) : g x.rest = g ({ d.rest with peer := { d.peer with seatDriven := (x).peer.seatDriven, yielding := (x).peer.yielding, boundary := (x).peer.boundary, takeGot := (x).peer.takeGot } }) := congrArg g h
  exact dev_ext (f (·.now)) rfl (f (·.snap)) (f (·.committedOnce)) rfl (f (·.staged)) (f (·.ctrls)) rfl (f (·.freeIx)) (f (·.tim)) (f (·.cyc)) (f (·.host))
    (f (·.chutes)) (f (·.rcd)) (f (·.stp)) (f (·.air)) (f (·.gns)) (f (·.chiselOut)) (f (·.ring)) (f (·.can)) (f (·.mtr)) (f (·.drk))
    (f (·.dsp)) (f (·.tlg)) (f (·.pwr)) rfl (f (·.com))

theorem giveUp_reads (d : Dev) (cause : Nat) : ∀ id jq, reportItem id = false → id ≠ P.DPX_GIVEUP_CAUSE →
    (d.giveUp cause).rd id jq = d.rd id jq ∧ (d.giveUp cause).isSticky id jq = d.isSticky id jq ∧ (d.giveUp cause).cf id jq = d.cf id jq := by
  intro id jq hr h0
  have h := (giveUp_spec d cause).2 id jq hr (by simp) (by simp [regKey_ne, h0, Ne.symm h0])
  have e : (d.giveUp cause).staged = d.staged := by simp
  refine ⟨h.1, h.2, ?_⟩
  simp only [Dev.cf, e, h.1]

theorem giveUp_at (d : Dev) (cause : Nat) : ∀ id jq, reportItem id = false  → regKey P.DPX_GIVEUP_CAUSE 0 ≠ regKey id jq →
    (d.giveUp cause).rd id jq = d.rd id jq ∧ (d.giveUp cause).isSticky id jq = d.isSticky id jq ∧ (d.giveUp cause).cf id jq = d.cf id jq := by
  intro id jq hr h0
  have h := (giveUp_spec d cause).2 id jq hr (by simp) (by simp [h0])
  have e : (d.giveUp cause).staged = d.staged := by simp
  refine ⟨h.1, h.2, ?_⟩
  simp only [Dev.cf, e, h.1]

theorem itemsBut_giveUp {ids : List Nat} {ks : List (Nat × Nat)} (d e : Dev) (cause : Nat) (m0 : P.DPX_GIVEUP_CAUSE ∈ ids ∨ (P.DPX_GIVEUP_CAUSE, 0) ∈ ks) :
    ItemsBut ids ks (d.giveUp cause) e ↔ ItemsBut ids ks d e :=
  itemsBut_congr ((giveUp_spec d cause).2.mono (by simp) (by simp [m0])) e

/-- An ACTIVE unit that has not given up gives up. -/
theorem giveUp_gives (d : Dev) (cause : Nat) (h : d.active = true) (k : d.peer.yielding = false) : (d.giveUp cause).rd P.DPX_GIVEUP_CAUSE = cause ∧
    (d.giveUp cause).peer.yielding = true ∧ (d.giveUp cause).peer.seatDriven = false := by
  unfold Dev.giveUp Dev.when
  simp only [h, k, Bool.not_true, Bool.or_self, Bool.false_eq_true, if_false]
  split <;> simp (disch := decide) [emit_reads]

/-- A Package-level verdict touches the lanes, one input and the Peer engine. -/
theorem verdict_spec (d : Dev)  : (d.packageVerdict).rest = { d.rest with stp := { d.stp with lastEv := (d.packageVerdict).stp.lastEv, lanes := (d.packageVerdict).stp.lanes, unentered := (d.packageVerdict).stp.unentered, verdict := (d.packageVerdict).stp.verdict }, peer := { d.peer with seatDriven := (d.packageVerdict).peer.seatDriven, yielding := (d.packageVerdict).peer.yielding, boundary := (d.packageVerdict).peer.boundary, takeGot := (d.packageVerdict).peer.takeGot }, cyc := { quietCyc d.cyc with adm := (d.packageVerdict).cyc.adm, seqs := (d.packageVerdict).cyc.seqs, spilled := (d.packageVerdict).cyc.spilled } } ∧
    ItemsBut [] [(P.CYC_EARLY_DROP, 0), (P.CYC_ADMITTED, 0), (P.CYC_LATE, 0), (P.CYC_LATE_SPILL, 0), (P.DPX_GIVEUP_CAUSE, 0)] (d.packageVerdict) d := by
  unfold Dev.packageVerdict
  try simp only []
  repeat' split
  all_goals
    exact ⟨by first | (simp [itemsBut_self, -judge_rest, judge_rest', -timeState_rest, timeState_rest', -takeSeq_rest, takeSeq_rest', -hold_rest, hold_rest', -admit_rest, admit_rest', -input_rest, input_rest', -offer_rest, offer_rest', -stopNotice_rest, stopNotice_rest', -stopEvent_rest, stopEvent_rest', -giveUp_rest, giveUp_rest']; done) | (simp [itemsBut_self, -judge_rest, judge_rest', -timeState_rest, timeState_rest', -takeSeq_rest, takeSeq_rest', -hold_rest, hold_rest', -admit_rest, admit_rest', -input_rest, input_rest', -offer_rest, offer_rest', -stopNotice_rest, stopNotice_rest', -stopEvent_rest, stopEvent_rest', -giveUp_rest, giveUp_rest']; repeat' (first | rfl | apply And.intro)) | rfl, by simp [itemsBut_wr, itemsBut_inc, itemsBut_addW, itemsBut_maxTo, itemsBut_wrS, itemsBut_judge, itemsBut_timeState, itemsBut_takeSeq, itemsBut_countIn, itemsBut_hold, itemsBut_admit, itemsBut_input, itemsBut_offer, itemsBut_stopNotice, itemsBut_stopEvent, itemsBut_giveUp]⟩

theorem verdict_rest' (d : Dev)  : (d.packageVerdict).rest = { d.rest with stp := { d.stp with lastEv := (d.packageVerdict).stp.lastEv, lanes := (d.packageVerdict).stp.lanes, unentered := (d.packageVerdict).stp.unentered, verdict := (d.packageVerdict).stp.verdict }, peer := { d.peer with seatDriven := (d.packageVerdict).peer.seatDriven, yielding := (d.packageVerdict).peer.yielding, boundary := (d.packageVerdict).peer.boundary, takeGot := (d.packageVerdict).peer.takeGot }, cyc := { quietCyc d.cyc with adm := (d.packageVerdict).cyc.adm, seqs := (d.packageVerdict).cyc.seqs, spilled := (d.packageVerdict).cyc.spilled } } := (verdict_spec d ).1

@[simp] theorem verdict_fields (d : Dev)  :
    (d.packageVerdict).now = d.now ∧ (d.packageVerdict).snap = d.snap ∧ (d.packageVerdict).committedOnce = d.committedOnce ∧
    (d.packageVerdict).staged = d.staged ∧ (d.packageVerdict).ctrls = d.ctrls ∧ (d.packageVerdict).freeIx = d.freeIx ∧
    (d.packageVerdict).tim = d.tim ∧ (d.packageVerdict).chutes = d.chutes ∧ (d.packageVerdict).stp.diff = d.stp.diff ∧
    (d.packageVerdict).stp.allDiff = d.stp.allDiff ∧ (d.packageVerdict).stp.permits = d.stp.permits ∧ (d.packageVerdict).stp.out = d.stp.out ∧
    (d.packageVerdict).stp.level = d.stp.level ∧ (d.packageVerdict).stp.pulsePass = d.stp.pulsePass ∧
    (d.packageVerdict).stp.sawOpen = d.stp.sawOpen ∧ (d.packageVerdict).stp.sawClosed = d.stp.sawClosed ∧
    (d.packageVerdict).stp.circuit = d.stp.circuit ∧ (d.packageVerdict).stp.diffSince = d.stp.diffSince ∧
    (d.packageVerdict).stp.outFault = d.stp.outFault ∧ (d.packageVerdict).stp.outOn = d.stp.outOn ∧
    (d.packageVerdict).stp.fbSince = d.stp.fbSince ∧ (d.packageVerdict).stp.ownFail = d.stp.ownFail ∧
    (d.packageVerdict).stp.withheldBy = d.stp.withheldBy ∧ (d.packageVerdict).stp.series = d.stp.series ∧
    (d.packageVerdict).stp.pendingFence = d.stp.pendingFence ∧ (d.packageVerdict).stp.lastRecord = d.stp.lastRecord ∧
    (d.packageVerdict).stp.testsDone = d.stp.testsDone ∧ (d.packageVerdict).stp.canSilent = d.stp.canSilent ∧
    (d.packageVerdict).stp.remoteSilent = d.stp.remoteSilent ∧ (d.packageVerdict).stp.kept = d.stp.kept ∧
    (d.packageVerdict).stp.mail = d.stp.mail ∧ (d.packageVerdict).stp.remoteLast = d.stp.remoteLast ∧
    (d.packageVerdict).stp.canLast = d.stp.canLast ∧ (d.packageVerdict).stp.unheard = d.stp.unheard ∧
    (d.packageVerdict).stp.firstBeacon = d.stp.firstBeacon ∧ (d.packageVerdict).stp.bcnCycle = d.stp.bcnCycle ∧ (d.packageVerdict).air = d.air ∧
    (d.packageVerdict).gns = d.gns ∧ (d.packageVerdict).chiselOut = d.chiselOut ∧ (d.packageVerdict).ring = d.ring ∧
    (d.packageVerdict).can = d.can ∧ (d.packageVerdict).mtr = d.mtr ∧ (d.packageVerdict).drk = d.drk ∧ (d.packageVerdict).dsp = d.dsp ∧
    (d.packageVerdict).pwr = d.pwr ∧ (d.packageVerdict).peer.seatHigh = d.peer.seatHigh ∧ (d.packageVerdict).peer.giveB = d.peer.giveB ∧
    (d.packageVerdict).peer.takeSent = d.peer.takeSent ∧ (d.packageVerdict).peer.hbSeq = d.peer.hbSeq ∧
    (d.packageVerdict).peer.hbLastSeq = d.peer.hbLastSeq ∧ (d.packageVerdict).peer.hbLastAt = d.peer.hbLastAt ∧
    (d.packageVerdict).peer.restored = d.peer.restored ∧ (d.packageVerdict).peer.trained = d.peer.trained ∧
    (d.packageVerdict).peer.key = d.peer.key ∧ (d.packageVerdict).peer.peerTenure = d.peer.peerTenure ∧
    (d.packageVerdict).peer.peerMode = d.peer.peerMode ∧ (d.packageVerdict).peer.peerCycle = d.peer.peerCycle ∧
    (d.packageVerdict).peer.peerOffset = d.peer.peerOffset ∧ (d.packageVerdict).peer.digestSkip = d.peer.digestSkip ∧
    (d.packageVerdict).peer.lastCopy = d.peer.lastCopy ∧ (d.packageVerdict).peer.waitCheckpoint = d.peer.waitCheckpoint ∧
    (d.packageVerdict).peer.matchRun = d.peer.matchRun ∧ (d.packageVerdict).peer.mismatchRun = d.peer.mismatchRun ∧
    (d.packageVerdict).peer.holdFrom = d.peer.holdFrom ∧ (d.packageVerdict).peer.holdMismatch = d.peer.holdMismatch ∧
    (d.packageVerdict).peer.claim = d.peer.claim ∧ (d.packageVerdict).peer.refused = d.peer.refused ∧
    (d.packageVerdict).peer.silentAt = d.peer.silentAt ∧ (d.packageVerdict).peer.restarts = d.peer.restarts ∧
    (d.packageVerdict).peer.beaconCycles = d.peer.beaconCycles ∧ (d.packageVerdict).peer.foreign = d.peer.foreign ∧
    (d.packageVerdict).peer.fwd = d.peer.fwd ∧ (d.packageVerdict).peer.lossLatch = d.peer.lossLatch ∧
    (d.packageVerdict).peer.lastState = d.peer.lastState ∧ (d.packageVerdict).com = d.com ∧ (d.packageVerdict).cyc.origin = d.cyc.origin ∧
    (d.packageVerdict).cyc.next = d.cyc.next ∧ (d.packageVerdict).cyc.floor = d.cyc.floor ∧ (d.packageVerdict).cyc.inCommit = d.cyc.inCommit ∧
    (d.packageVerdict).cyc.defer = d.cyc.defer ∧ (d.packageVerdict).cyc.journal = d.cyc.journal ∧ (d.packageVerdict).cyc.feed = d.cyc.feed ∧
    (d.packageVerdict).cyc.skipped = d.cyc.skipped ∧ (d.packageVerdict).cyc.overrun = d.cyc.overrun ∧
    (d.packageVerdict).cyc.missed = d.cyc.missed ∧ (d.packageVerdict).cyc.flagCold = d.cyc.flagCold ∧
    (d.packageVerdict).cyc.flagStep = d.cyc.flagStep ∧ (d.packageVerdict).cyc.flagTake = d.cyc.flagTake ∧
    (d.packageVerdict).cyc.lastCommitAt = d.cyc.lastCommitAt ∧ (d.packageVerdict).cyc.changedCov = d.cyc.changedCov ∧
    (d.packageVerdict).cyc.covBase = d.cyc.covBase ∧ KeptHost (d.packageVerdict).host d.host ∧ KeptRcd (d.packageVerdict).rcd d.rcd ∧
    KeptTlg (d.packageVerdict).tlg d.tlg := by
  have h := (verdict_spec d ).1
  generalize d.packageVerdict = x at h ⊢
  have f {α : Type} (g : Dev → α) : g x.rest = g ({ d.rest with stp := { d.stp with lastEv := (x).stp.lastEv, lanes := (x).stp.lanes, unentered := (x).stp.unentered, verdict := (x).stp.verdict }, peer := { d.peer with seatDriven := (x).peer.seatDriven, yielding := (x).peer.yielding, boundary := (x).peer.boundary, takeGot := (x).peer.takeGot }, cyc := { quietCyc d.cyc with adm := (x).cyc.adm, seqs := (x).cyc.seqs, spilled := (x).cyc.spilled } }) := congrArg g h
  exact ⟨f (·.now), f (·.snap), f (·.committedOnce), f (·.staged), f (·.ctrls), f (·.freeIx), f (·.tim), f (·.chutes), f (·.stp.diff),
    f (·.stp.allDiff), f (·.stp.permits), f (·.stp.out), f (·.stp.level), f (·.stp.pulsePass), f (·.stp.sawOpen), f (·.stp.sawClosed),
    f (·.stp.circuit), f (·.stp.diffSince), f (·.stp.outFault), f (·.stp.outOn), f (·.stp.fbSince), f (·.stp.ownFail), f (·.stp.withheldBy),
    f (·.stp.series), f (·.stp.pendingFence), f (·.stp.lastRecord), f (·.stp.testsDone), f (·.stp.canSilent), f (·.stp.remoteSilent),
    f (·.stp.kept), f (·.stp.mail), f (·.stp.remoteLast), f (·.stp.canLast), f (·.stp.unheard), f (·.stp.firstBeacon), f (·.stp.bcnCycle),
    f (·.air), f (·.gns), f (·.chiselOut), f (·.ring), f (·.can), f (·.mtr), f (·.drk), f (·.dsp), f (·.pwr), f (·.peer.seatHigh),
    f (·.peer.giveB), f (·.peer.takeSent), f (·.peer.hbSeq), f (·.peer.hbLastSeq), f (·.peer.hbLastAt), f (·.peer.restored), f (·.peer.trained),
    f (·.peer.key), f (·.peer.peerTenure), f (·.peer.peerMode), f (·.peer.peerCycle), f (·.peer.peerOffset), f (·.peer.digestSkip),
    f (·.peer.lastCopy), f (·.peer.waitCheckpoint), f (·.peer.matchRun), f (·.peer.mismatchRun), f (·.peer.holdFrom), f (·.peer.holdMismatch),
    f (·.peer.claim), f (·.peer.refused), f (·.peer.silentAt), f (·.peer.restarts), f (·.peer.beaconCycles), f (·.peer.foreign), f (·.peer.fwd),
    f (·.peer.lossLatch), f (·.peer.lastState), f (·.com), f (·.cyc.origin), f (·.cyc.next), f (·.cyc.floor), f (·.cyc.inCommit),
    f (·.cyc.defer), f (·.cyc.journal), f (·.cyc.feed), f (·.cyc.skipped), f (·.cyc.overrun), f (·.cyc.missed), f (·.cyc.flagCold),
    f (·.cyc.flagStep), f (·.cyc.flagTake), f (·.cyc.lastCommitAt), f (·.cyc.changedCov), f (·.cyc.covBase), KeptHost.of (f (·.host)),
    KeptRcd.of (f (·.rcd)), KeptTlg.of (f (·.tlg))⟩

@[simp] theorem verdict_rest (d : Dev)  : (d.packageVerdict).rest =
    { d.rest with stp := (d.packageVerdict).stp, peer := (d.packageVerdict).peer, cyc := quietCyc (d.packageVerdict).cyc } := by
  have h := (verdict_spec d ).1
  generalize d.packageVerdict = x at h ⊢
  have f {α : Type} (g : Dev → α) : g x.rest = g ({ d.rest with stp := { d.stp with lastEv := (x).stp.lastEv, lanes := (x).stp.lanes, unentered := (x).stp.unentered, verdict := (x).stp.verdict }, peer := { d.peer with seatDriven := (x).peer.seatDriven, yielding := (x).peer.yielding, boundary := (x).peer.boundary, takeGot := (x).peer.takeGot }, cyc := { quietCyc d.cyc with adm := (x).cyc.adm, seqs := (x).cyc.seqs, spilled := (x).cyc.spilled } }) := congrArg g h
  exact dev_ext (f (·.now)) rfl (f (·.snap)) (f (·.committedOnce)) rfl (f (·.staged)) (f (·.ctrls)) rfl (f (·.freeIx)) (f (·.tim)) rfl (f (·.host))
    (f (·.chutes)) (f (·.rcd)) rfl (f (·.air)) (f (·.gns)) (f (·.chiselOut)) (f (·.ring)) (f (·.can)) (f (·.mtr)) (f (·.drk)) (f (·.dsp))
    (f (·.tlg)) (f (·.pwr)) rfl (f (·.com))

theorem verdict_reads (d : Dev)  : ∀ id jq, reportItem id = false → id ≠ P.CYC_EARLY_DROP → id ≠ P.CYC_ADMITTED → id ≠ P.CYC_LATE → id ≠ P.CYC_LATE_SPILL → id ≠ P.DPX_GIVEUP_CAUSE →
    (d.packageVerdict).rd id jq = d.rd id jq ∧ (d.packageVerdict).isSticky id jq = d.isSticky id jq ∧ (d.packageVerdict).cf id jq = d.cf id jq := by
  intro id jq hr h0 h1 h2 h3 h4
  have h := (verdict_spec d ).2 id jq hr (by simp) (by simp [regKey_ne, h0, Ne.symm h0, h1, Ne.symm h1, h2, Ne.symm h2, h3, Ne.symm h3, h4, Ne.symm h4])
  have e : (d.packageVerdict).staged = d.staged := by simp
  refine ⟨h.1, h.2, ?_⟩
  simp only [Dev.cf, e, h.1]

theorem verdict_at (d : Dev)  : ∀ id jq, reportItem id = false  → regKey P.CYC_EARLY_DROP 0 ≠ regKey id jq → regKey P.CYC_ADMITTED 0 ≠ regKey id jq → regKey P.CYC_LATE 0 ≠ regKey id jq → regKey P.CYC_LATE_SPILL 0 ≠ regKey id jq → regKey P.DPX_GIVEUP_CAUSE 0 ≠ regKey id jq →
    (d.packageVerdict).rd id jq = d.rd id jq ∧ (d.packageVerdict).isSticky id jq = d.isSticky id jq ∧ (d.packageVerdict).cf id jq = d.cf id jq := by
  intro id jq hr h0 h1 h2 h3 h4
  have h := (verdict_spec d ).2 id jq hr (by simp) (by simp [h0, h1, h2, h3, h4])
  have e : (d.packageVerdict).staged = d.staged := by simp
  refine ⟨h.1, h.2, ?_⟩
  simp only [Dev.cf, e, h.1]

theorem itemsBut_verdict {ids : List Nat} {ks : List (Nat × Nat)} (d e : Dev)  (m0 : P.CYC_EARLY_DROP ∈ ids ∨ (P.CYC_EARLY_DROP, 0) ∈ ks) (m1 : P.CYC_ADMITTED ∈ ids ∨ (P.CYC_ADMITTED, 0) ∈ ks) (m2 : P.CYC_LATE ∈ ids ∨ (P.CYC_LATE, 0) ∈ ks) (m3 : P.CYC_LATE_SPILL ∈ ids ∨ (P.CYC_LATE_SPILL, 0) ∈ ks) (m4 : P.DPX_GIVEUP_CAUSE ∈ ids ∨ (P.DPX_GIVEUP_CAUSE, 0) ∈ ks) :
    ItemsBut ids ks (d.packageVerdict) e ↔ ItemsBut ids ks d e :=
  itemsBut_congr ((verdict_spec d ).2.mono (by simp) (by simp [m0, m1, m2, m3, m4])) e

/-- A Package-level verdict stands. -/
@[simp] theorem verdict_stands (d : Dev) : d.packageVerdict.stp.verdict = true := by
  unfold Dev.packageVerdict
  simp

/-- An Engine-level fault that ends control. -/
theorem engineFault_spec (d : Dev) (code eng : Nat) (body : Bytes) : (d.engineFault code eng body).rest = { d.rest with peer := { d.peer with seatDriven := (d.engineFault code eng body).peer.seatDriven, yielding := (d.engineFault code eng body).peer.yielding, boundary := (d.engineFault code eng body).peer.boundary, takeGot := (d.engineFault code eng body).peer.takeGot } } ∧
    ItemsBut [] [(P.DPX_GIVEUP_CAUSE, 0)] (d.engineFault code eng body) d := by
  unfold Dev.engineFault
  try simp only []
  repeat' split
  all_goals
    exact ⟨by first | (simp [itemsBut_self, -judge_rest, judge_rest', -timeState_rest, timeState_rest', -takeSeq_rest, takeSeq_rest', -hold_rest, hold_rest', -admit_rest, admit_rest', -input_rest, input_rest', -offer_rest, offer_rest', -stopNotice_rest, stopNotice_rest', -stopEvent_rest, stopEvent_rest', -giveUp_rest, giveUp_rest', -verdict_rest, verdict_rest']; done) | (simp [itemsBut_self, -judge_rest, judge_rest', -timeState_rest, timeState_rest', -takeSeq_rest, takeSeq_rest', -hold_rest, hold_rest', -admit_rest, admit_rest', -input_rest, input_rest', -offer_rest, offer_rest', -stopNotice_rest, stopNotice_rest', -stopEvent_rest, stopEvent_rest', -giveUp_rest, giveUp_rest', -verdict_rest, verdict_rest']; repeat' (first | rfl | apply And.intro)) | rfl, by simp [itemsBut_wr, itemsBut_inc, itemsBut_addW, itemsBut_maxTo, itemsBut_wrS, itemsBut_judge, itemsBut_timeState, itemsBut_takeSeq, itemsBut_countIn, itemsBut_hold, itemsBut_admit, itemsBut_input, itemsBut_offer, itemsBut_stopNotice, itemsBut_stopEvent, itemsBut_giveUp, itemsBut_verdict]⟩

theorem engineFault_rest' (d : Dev) (code eng : Nat) (body : Bytes) : (d.engineFault code eng body).rest = { d.rest with peer := { d.peer with seatDriven := (d.engineFault code eng body).peer.seatDriven, yielding := (d.engineFault code eng body).peer.yielding, boundary := (d.engineFault code eng body).peer.boundary, takeGot := (d.engineFault code eng body).peer.takeGot } } := (engineFault_spec d code eng body).1

@[simp] theorem engineFault_fields (d : Dev) (code eng : Nat) (body : Bytes) :
    (d.engineFault code eng body).now = d.now ∧ (d.engineFault code eng body).snap = d.snap ∧
    (d.engineFault code eng body).committedOnce = d.committedOnce ∧ (d.engineFault code eng body).staged = d.staged ∧
    (d.engineFault code eng body).ctrls = d.ctrls ∧ (d.engineFault code eng body).freeIx = d.freeIx ∧
    (d.engineFault code eng body).tim = d.tim ∧ (d.engineFault code eng body).chutes = d.chutes ∧ (d.engineFault code eng body).stp = d.stp ∧
    (d.engineFault code eng body).air = d.air ∧ (d.engineFault code eng body).gns = d.gns ∧
    (d.engineFault code eng body).chiselOut = d.chiselOut ∧ (d.engineFault code eng body).ring = d.ring ∧
    (d.engineFault code eng body).can = d.can ∧ (d.engineFault code eng body).mtr = d.mtr ∧ (d.engineFault code eng body).drk = d.drk ∧
    (d.engineFault code eng body).dsp = d.dsp ∧ (d.engineFault code eng body).pwr = d.pwr ∧
    (d.engineFault code eng body).peer.seatHigh = d.peer.seatHigh ∧ (d.engineFault code eng body).peer.giveB = d.peer.giveB ∧
    (d.engineFault code eng body).peer.takeSent = d.peer.takeSent ∧ (d.engineFault code eng body).peer.hbSeq = d.peer.hbSeq ∧
    (d.engineFault code eng body).peer.hbLastSeq = d.peer.hbLastSeq ∧ (d.engineFault code eng body).peer.hbLastAt = d.peer.hbLastAt ∧
    (d.engineFault code eng body).peer.restored = d.peer.restored ∧ (d.engineFault code eng body).peer.trained = d.peer.trained ∧
    (d.engineFault code eng body).peer.key = d.peer.key ∧ (d.engineFault code eng body).peer.peerTenure = d.peer.peerTenure ∧
    (d.engineFault code eng body).peer.peerMode = d.peer.peerMode ∧ (d.engineFault code eng body).peer.peerCycle = d.peer.peerCycle ∧
    (d.engineFault code eng body).peer.peerOffset = d.peer.peerOffset ∧ (d.engineFault code eng body).peer.digestSkip = d.peer.digestSkip ∧
    (d.engineFault code eng body).peer.lastCopy = d.peer.lastCopy ∧ (d.engineFault code eng body).peer.waitCheckpoint = d.peer.waitCheckpoint ∧
    (d.engineFault code eng body).peer.matchRun = d.peer.matchRun ∧ (d.engineFault code eng body).peer.mismatchRun = d.peer.mismatchRun ∧
    (d.engineFault code eng body).peer.holdFrom = d.peer.holdFrom ∧ (d.engineFault code eng body).peer.holdMismatch = d.peer.holdMismatch ∧
    (d.engineFault code eng body).peer.claim = d.peer.claim ∧ (d.engineFault code eng body).peer.refused = d.peer.refused ∧
    (d.engineFault code eng body).peer.silentAt = d.peer.silentAt ∧ (d.engineFault code eng body).peer.restarts = d.peer.restarts ∧
    (d.engineFault code eng body).peer.beaconCycles = d.peer.beaconCycles ∧ (d.engineFault code eng body).peer.foreign = d.peer.foreign ∧
    (d.engineFault code eng body).peer.fwd = d.peer.fwd ∧ (d.engineFault code eng body).peer.lossLatch = d.peer.lossLatch ∧
    (d.engineFault code eng body).peer.lastState = d.peer.lastState ∧ (d.engineFault code eng body).com = d.com ∧
    KeptCyc (d.engineFault code eng body).cyc d.cyc ∧ KeptHost (d.engineFault code eng body).host d.host ∧
    KeptRcd (d.engineFault code eng body).rcd d.rcd ∧ KeptTlg (d.engineFault code eng body).tlg d.tlg := by
  have h := (engineFault_spec d code eng body).1
  generalize d.engineFault code eng body = x at h ⊢
  have f {α : Type} (g : Dev → α) : g x.rest = g ({ d.rest with peer := { d.peer with seatDriven := (x).peer.seatDriven, yielding := (x).peer.yielding, boundary := (x).peer.boundary, takeGot := (x).peer.takeGot } }) := congrArg g h
  exact ⟨f (·.now), f (·.snap), f (·.committedOnce), f (·.staged), f (·.ctrls), f (·.freeIx), f (·.tim), f (·.chutes), f (·.stp), f (·.air),
    f (·.gns), f (·.chiselOut), f (·.ring), f (·.can), f (·.mtr), f (·.drk), f (·.dsp), f (·.pwr), f (·.peer.seatHigh), f (·.peer.giveB),
    f (·.peer.takeSent), f (·.peer.hbSeq), f (·.peer.hbLastSeq), f (·.peer.hbLastAt), f (·.peer.restored), f (·.peer.trained), f (·.peer.key),
    f (·.peer.peerTenure), f (·.peer.peerMode), f (·.peer.peerCycle), f (·.peer.peerOffset), f (·.peer.digestSkip), f (·.peer.lastCopy),
    f (·.peer.waitCheckpoint), f (·.peer.matchRun), f (·.peer.mismatchRun), f (·.peer.holdFrom), f (·.peer.holdMismatch), f (·.peer.claim),
    f (·.peer.refused), f (·.peer.silentAt), f (·.peer.restarts), f (·.peer.beaconCycles), f (·.peer.foreign), f (·.peer.fwd),
    f (·.peer.lossLatch), f (·.peer.lastState), f (·.com), KeptCyc.of (f (·.cyc)), KeptHost.of (f (·.host)), KeptRcd.of (f (·.rcd)),
    KeptTlg.of (f (·.tlg))⟩

@[simp] theorem engineFault_rest (d : Dev) (code eng : Nat) (body : Bytes) : (d.engineFault code eng body).rest =
    { d.rest with peer := (d.engineFault code eng body).peer } := by
  have h := (engineFault_spec d code eng body).1
  generalize d.engineFault code eng body = x at h ⊢
  have f {α : Type} (g : Dev → α) : g x.rest = g ({ d.rest with peer := { d.peer with seatDriven := (x).peer.seatDriven, yielding := (x).peer.yielding, boundary := (x).peer.boundary, takeGot := (x).peer.takeGot } }) := congrArg g h
  exact dev_ext (f (·.now)) rfl (f (·.snap)) (f (·.committedOnce)) rfl (f (·.staged)) (f (·.ctrls)) rfl (f (·.freeIx)) (f (·.tim)) (f (·.cyc)) (f (·.host))
    (f (·.chutes)) (f (·.rcd)) (f (·.stp)) (f (·.air)) (f (·.gns)) (f (·.chiselOut)) (f (·.ring)) (f (·.can)) (f (·.mtr)) (f (·.drk))
    (f (·.dsp)) (f (·.tlg)) (f (·.pwr)) rfl (f (·.com))

theorem engineFault_reads (d : Dev) (code eng : Nat) (body : Bytes) : ∀ id jq, reportItem id = false → id ≠ P.DPX_GIVEUP_CAUSE →
    (d.engineFault code eng body).rd id jq = d.rd id jq ∧ (d.engineFault code eng body).isSticky id jq = d.isSticky id jq ∧ (d.engineFault code eng body).cf id jq = d.cf id jq := by
  intro id jq hr h0
  have h := (engineFault_spec d code eng body).2 id jq hr (by simp) (by simp [regKey_ne, h0, Ne.symm h0])
  have e : (d.engineFault code eng body).staged = d.staged := by simp
  refine ⟨h.1, h.2, ?_⟩
  simp only [Dev.cf, e, h.1]

theorem engineFault_at (d : Dev) (code eng : Nat) (body : Bytes) : ∀ id jq, reportItem id = false  → regKey P.DPX_GIVEUP_CAUSE 0 ≠ regKey id jq →
    (d.engineFault code eng body).rd id jq = d.rd id jq ∧ (d.engineFault code eng body).isSticky id jq = d.isSticky id jq ∧ (d.engineFault code eng body).cf id jq = d.cf id jq := by
  intro id jq hr h0
  have h := (engineFault_spec d code eng body).2 id jq hr (by simp) (by simp [h0])
  have e : (d.engineFault code eng body).staged = d.staged := by simp
  refine ⟨h.1, h.2, ?_⟩
  simp only [Dev.cf, e, h.1]

theorem itemsBut_engineFault {ids : List Nat} {ks : List (Nat × Nat)} (d e : Dev) (code eng : Nat) (body : Bytes) (m0 : P.DPX_GIVEUP_CAUSE ∈ ids ∨ (P.DPX_GIVEUP_CAUSE, 0) ∈ ks) :
    ItemsBut ids ks (d.engineFault code eng body) e ↔ ItemsBut ids ks d e :=
  itemsBut_congr ((engineFault_spec d code eng body).2.mono (by simp) (by simp [m0])) e

/-! ### Counters of the Telegraph -/

/-- A stream item leaves the trace port's own state. -/
@[simp] theorem emit_tlg (d : Dev) (o : Output) : (d.emit o).tlg = d.tlg := by
  unfold Dev.emit
  repeat' split
  all_goals rfl

@[simp] theorem sendFrame_tlg (d : Dev) (kind : Nat) (ep : Ep) (tag mbx flags : Nat) (p : Bytes) (tr : Bool) :
    (d.sendFrame kind ep tag mbx flags p tr).tlg = d.tlg := by
  unfold Dev.sendFrame Dev.putMail
  simp only []
  repeat' split
  all_goals simp

@[simp] theorem stream_tlg (d : Dev) (kind : Nat) (item : Bytes) : (d.stream kind item).tlg = d.tlg := by
  unfold Dev.stream
  simp only []
  refine (foldl_keeps (·.tlg) _ (fun x a => ?_) _ _).trans (by simp)
  repeat' split
  all_goals simp

@[simp] theorem traceOut_tlg (d : Dev) (src kind : Nat) (body : Bytes) :
    (d.traceOut src kind body).tlg = { d.tlg with seq := (d.tlg.seq + 1) % 65536, busy := max d.tlg.busy d.now + 64 } := by
  unfold Dev.traceOut
  simp

/-- An observation counter advanced. -/
theorem ctr_spec (d : Dev) (i n : Nat) : (d.ctr i n).rest = { d.rest with tlg := { quietTlg d.tlg with ctrs := (d.ctr i n).tlg.ctrs, stuck := (d.ctr i n).tlg.stuck } } ∧
    ItemsBut [] [] (d.ctr i n) d := by
  exact ⟨rfl, fun _ _ _ _ _ => ⟨rfl, rfl⟩⟩

theorem ctr_rest' (d : Dev) (i n : Nat) : (d.ctr i n).rest = { d.rest with tlg := { quietTlg d.tlg with ctrs := (d.ctr i n).tlg.ctrs, stuck := (d.ctr i n).tlg.stuck } } := (ctr_spec d i n).1

@[simp] theorem ctr_fields (d : Dev) (i n : Nat) :
    (d.ctr i n).now = d.now ∧ (d.ctr i n).snap = d.snap ∧ (d.ctr i n).committedOnce = d.committedOnce ∧ (d.ctr i n).staged = d.staged ∧
    (d.ctr i n).ctrls = d.ctrls ∧ (d.ctr i n).freeIx = d.freeIx ∧ (d.ctr i n).tim = d.tim ∧ (d.ctr i n).chutes = d.chutes ∧
    (d.ctr i n).stp = d.stp ∧ (d.ctr i n).air = d.air ∧ (d.ctr i n).gns = d.gns ∧ (d.ctr i n).chiselOut = d.chiselOut ∧
    (d.ctr i n).ring = d.ring ∧ (d.ctr i n).can = d.can ∧ (d.ctr i n).mtr = d.mtr ∧ (d.ctr i n).drk = d.drk ∧ (d.ctr i n).dsp = d.dsp ∧
    (d.ctr i n).pwr = d.pwr ∧ (d.ctr i n).peer = d.peer ∧ (d.ctr i n).com = d.com ∧ KeptCyc (d.ctr i n).cyc d.cyc ∧
    KeptHost (d.ctr i n).host d.host ∧ KeptRcd (d.ctr i n).rcd d.rcd ∧ (d.ctr i n).tlg.snaps = d.tlg.snaps := by
  have h := (ctr_spec d i n).1
  generalize d.ctr i n = x at h ⊢
  have f {α : Type} (g : Dev → α) : g x.rest = g ({ d.rest with tlg := { quietTlg d.tlg with ctrs := (x).tlg.ctrs, stuck := (x).tlg.stuck } }) := congrArg g h
  exact ⟨f (·.now), f (·.snap), f (·.committedOnce), f (·.staged), f (·.ctrls), f (·.freeIx), f (·.tim), f (·.chutes), f (·.stp), f (·.air),
    f (·.gns), f (·.chiselOut), f (·.ring), f (·.can), f (·.mtr), f (·.drk), f (·.dsp), f (·.pwr), f (·.peer), f (·.com),
    KeptCyc.of (f (·.cyc)), KeptHost.of (f (·.host)), KeptRcd.of (f (·.rcd)), f (·.tlg.snaps)⟩

@[simp] theorem ctr_rest (d : Dev) (i n : Nat) : (d.ctr i n).rest =
    { d.rest with tlg := quietTlg (d.ctr i n).tlg } := by
  have h := (ctr_spec d i n).1
  generalize d.ctr i n = x at h ⊢
  have f {α : Type} (g : Dev → α) : g x.rest = g ({ d.rest with tlg := { quietTlg d.tlg with ctrs := (x).tlg.ctrs, stuck := (x).tlg.stuck } }) := congrArg g h
  exact dev_ext (f (·.now)) rfl (f (·.snap)) (f (·.committedOnce)) rfl (f (·.staged)) (f (·.ctrls)) rfl (f (·.freeIx)) (f (·.tim)) (f (·.cyc)) (f (·.host))
    (f (·.chutes)) (f (·.rcd)) (f (·.stp)) (f (·.air)) (f (·.gns)) (f (·.chiselOut)) (f (·.ring)) (f (·.can)) (f (·.mtr)) (f (·.drk))
    (f (·.dsp)) rfl (f (·.pwr)) (f (·.peer)) (f (·.com))

theorem ctr_reads (d : Dev) (i n : Nat) : ∀ id jq, reportItem id = false  →
    (d.ctr i n).rd id jq = d.rd id jq ∧ (d.ctr i n).isSticky id jq = d.isSticky id jq ∧ (d.ctr i n).cf id jq = d.cf id jq := by
  intro id jq hr 
  have h := (ctr_spec d i n).2 id jq hr (by simp) (by simp)
  have e : (d.ctr i n).staged = d.staged := by simp
  refine ⟨h.1, h.2, ?_⟩
  simp only [Dev.cf, e, h.1]

theorem itemsBut_ctr {ids : List Nat} {ks : List (Nat × Nat)} (d e : Dev) (i n : Nat)  :
    ItemsBut ids ks (d.ctr i n) e ↔ ItemsBut ids ks d e :=
  itemsBut_congr ((ctr_spec d i n).2.mono (by simp) (by simp)) e

/-- A trace record of the Dispatcher. -/
theorem dspTrace_spec (d : Dev) (kind : Nat) (x : DTask) (core arg : Nat) : (d.dspTrace kind x core arg).rest = d.rest ∧
    ItemsBut [] [] (d.dspTrace kind x core arg) d := by
  unfold Dev.dspTrace
  repeat' split
  all_goals
    exact ⟨by first | (simp [itemsBut_self, -judge_rest, judge_rest', -timeState_rest, timeState_rest', -takeSeq_rest, takeSeq_rest', -hold_rest, hold_rest', -admit_rest, admit_rest', -input_rest, input_rest', -offer_rest, offer_rest', -stopNotice_rest, stopNotice_rest', -stopEvent_rest, stopEvent_rest', -giveUp_rest, giveUp_rest', -verdict_rest, verdict_rest', -engineFault_rest, engineFault_rest', -ctr_rest, ctr_rest']; done) | (simp [itemsBut_self, -judge_rest, judge_rest', -timeState_rest, timeState_rest', -takeSeq_rest, takeSeq_rest', -hold_rest, hold_rest', -admit_rest, admit_rest', -input_rest, input_rest', -offer_rest, offer_rest', -stopNotice_rest, stopNotice_rest', -stopEvent_rest, stopEvent_rest', -giveUp_rest, giveUp_rest', -verdict_rest, verdict_rest', -engineFault_rest, engineFault_rest', -ctr_rest, ctr_rest']; repeat' (first | rfl | apply And.intro)) | rfl, by simp [itemsBut_wr, itemsBut_inc, itemsBut_addW, itemsBut_maxTo, itemsBut_wrS, itemsBut_judge, itemsBut_timeState, itemsBut_takeSeq, itemsBut_countIn, itemsBut_hold, itemsBut_admit, itemsBut_input, itemsBut_offer, itemsBut_stopNotice, itemsBut_stopEvent, itemsBut_giveUp, itemsBut_verdict, itemsBut_engineFault, itemsBut_ctr]⟩

@[simp] theorem dspTrace_fields (d : Dev) (kind : Nat) (x : DTask) (core arg : Nat) :
    (d.dspTrace kind x core arg).now = d.now ∧ (d.dspTrace kind x core arg).snap = d.snap ∧
    (d.dspTrace kind x core arg).committedOnce = d.committedOnce ∧ (d.dspTrace kind x core arg).staged = d.staged ∧
    (d.dspTrace kind x core arg).ctrls = d.ctrls ∧ (d.dspTrace kind x core arg).freeIx = d.freeIx ∧ (d.dspTrace kind x core arg).tim = d.tim ∧
    (d.dspTrace kind x core arg).chutes = d.chutes ∧ (d.dspTrace kind x core arg).stp = d.stp ∧ (d.dspTrace kind x core arg).air = d.air ∧
    (d.dspTrace kind x core arg).gns = d.gns ∧ (d.dspTrace kind x core arg).chiselOut = d.chiselOut ∧
    (d.dspTrace kind x core arg).ring = d.ring ∧ (d.dspTrace kind x core arg).can = d.can ∧ (d.dspTrace kind x core arg).mtr = d.mtr ∧
    (d.dspTrace kind x core arg).drk = d.drk ∧ (d.dspTrace kind x core arg).dsp = d.dsp ∧ (d.dspTrace kind x core arg).pwr = d.pwr ∧
    (d.dspTrace kind x core arg).peer = d.peer ∧ (d.dspTrace kind x core arg).com = d.com ∧ KeptCyc (d.dspTrace kind x core arg).cyc d.cyc ∧
    KeptHost (d.dspTrace kind x core arg).host d.host ∧ KeptRcd (d.dspTrace kind x core arg).rcd d.rcd ∧
    KeptTlg (d.dspTrace kind x core arg).tlg d.tlg := by
  have h := (dspTrace_spec d kind x core arg).1
  generalize d.dspTrace kind x core arg = x at h ⊢
  have f {α : Type} (g : Dev → α) : g x.rest = g (d.rest) := congrArg g h
  exact ⟨f (·.now), f (·.snap), f (·.committedOnce), f (·.staged), f (·.ctrls), f (·.freeIx), f (·.tim), f (·.chutes), f (·.stp), f (·.air),
    f (·.gns), f (·.chiselOut), f (·.ring), f (·.can), f (·.mtr), f (·.drk), f (·.dsp), f (·.pwr), f (·.peer), f (·.com),
    KeptCyc.of (f (·.cyc)), KeptHost.of (f (·.host)), KeptRcd.of (f (·.rcd)), KeptTlg.of (f (·.tlg))⟩

@[simp] theorem dspTrace_rest (d : Dev) (kind : Nat) (x : DTask) (core arg : Nat) : (d.dspTrace kind x core arg).rest =
    d.rest := by
  have h := (dspTrace_spec d kind x core arg).1
  generalize d.dspTrace kind x core arg = x at h ⊢
  have f {α : Type} (g : Dev → α) : g x.rest = g (d.rest) := congrArg g h
  exact dev_ext (f (·.now)) rfl (f (·.snap)) (f (·.committedOnce)) rfl (f (·.staged)) (f (·.ctrls)) rfl (f (·.freeIx)) (f (·.tim)) (f (·.cyc)) (f (·.host))
    (f (·.chutes)) (f (·.rcd)) (f (·.stp)) (f (·.air)) (f (·.gns)) (f (·.chiselOut)) (f (·.ring)) (f (·.can)) (f (·.mtr)) (f (·.drk))
    (f (·.dsp)) (f (·.tlg)) (f (·.pwr)) (f (·.peer)) (f (·.com))

theorem dspTrace_reads (d : Dev) (kind : Nat) (x : DTask) (core arg : Nat) : ∀ id jq, reportItem id = false  →
    (d.dspTrace kind x core arg).rd id jq = d.rd id jq ∧ (d.dspTrace kind x core arg).isSticky id jq = d.isSticky id jq ∧ (d.dspTrace kind x core arg).cf id jq = d.cf id jq := by
  intro id jq hr 
  have h := (dspTrace_spec d kind x core arg).2 id jq hr (by simp) (by simp)
  have e : (d.dspTrace kind x core arg).staged = d.staged := by simp
  refine ⟨h.1, h.2, ?_⟩
  simp only [Dev.cf, e, h.1]

theorem itemsBut_dspTrace {ids : List Nat} {ks : List (Nat × Nat)} (d e : Dev) (kind : Nat) (x : DTask) (core arg : Nat)  :
    ItemsBut ids ks (d.dspTrace kind x core arg) e ↔ ItemsBut ids ks d e :=
  itemsBut_congr ((dspTrace_spec d kind x core arg).2.mono (by simp) (by simp)) e

/-! ### Reset -/

/-- The by-pass moved. -/
theorem bypass_spec (d : Dev) (new cause : Nat) : (d.bypass new cause).rest = d.rest ∧
    ItemsBut [] [(P.RNG_BYPASS_STATE, 0)] (d.bypass new cause) d := by
  unfold Dev.bypass
  try simp only []
  repeat' split
  all_goals
    exact ⟨by first | (simp [itemsBut_self, -judge_rest, judge_rest', -timeState_rest, timeState_rest', -takeSeq_rest, takeSeq_rest', -hold_rest, hold_rest', -admit_rest, admit_rest', -input_rest, input_rest', -offer_rest, offer_rest', -stopNotice_rest, stopNotice_rest', -stopEvent_rest, stopEvent_rest', -giveUp_rest, giveUp_rest', -verdict_rest, verdict_rest', -engineFault_rest, engineFault_rest', -ctr_rest, ctr_rest']; done) | (simp [itemsBut_self, -judge_rest, judge_rest', -timeState_rest, timeState_rest', -takeSeq_rest, takeSeq_rest', -hold_rest, hold_rest', -admit_rest, admit_rest', -input_rest, input_rest', -offer_rest, offer_rest', -stopNotice_rest, stopNotice_rest', -stopEvent_rest, stopEvent_rest', -giveUp_rest, giveUp_rest', -verdict_rest, verdict_rest', -engineFault_rest, engineFault_rest', -ctr_rest, ctr_rest']; repeat' (first | rfl | apply And.intro)) | rfl, by simp [itemsBut_wr, itemsBut_inc, itemsBut_addW, itemsBut_maxTo, itemsBut_wrS, itemsBut_judge, itemsBut_timeState, itemsBut_takeSeq, itemsBut_countIn, itemsBut_hold, itemsBut_admit, itemsBut_input, itemsBut_offer, itemsBut_stopNotice, itemsBut_stopEvent, itemsBut_giveUp, itemsBut_verdict, itemsBut_engineFault, itemsBut_ctr, itemsBut_dspTrace]⟩

@[simp] theorem bypass_fields (d : Dev) (new cause : Nat) :
    (d.bypass new cause).now = d.now ∧ (d.bypass new cause).snap = d.snap ∧ (d.bypass new cause).committedOnce = d.committedOnce ∧
    (d.bypass new cause).staged = d.staged ∧ (d.bypass new cause).ctrls = d.ctrls ∧ (d.bypass new cause).freeIx = d.freeIx ∧
    (d.bypass new cause).tim = d.tim ∧ (d.bypass new cause).chutes = d.chutes ∧ (d.bypass new cause).stp = d.stp ∧
    (d.bypass new cause).air = d.air ∧ (d.bypass new cause).gns = d.gns ∧ (d.bypass new cause).chiselOut = d.chiselOut ∧
    (d.bypass new cause).ring = d.ring ∧ (d.bypass new cause).can = d.can ∧ (d.bypass new cause).mtr = d.mtr ∧
    (d.bypass new cause).drk = d.drk ∧ (d.bypass new cause).dsp = d.dsp ∧ (d.bypass new cause).pwr = d.pwr ∧
    (d.bypass new cause).peer = d.peer ∧ (d.bypass new cause).com = d.com ∧ KeptCyc (d.bypass new cause).cyc d.cyc ∧
    KeptHost (d.bypass new cause).host d.host ∧ KeptRcd (d.bypass new cause).rcd d.rcd ∧ KeptTlg (d.bypass new cause).tlg d.tlg := by
  have h := (bypass_spec d new cause).1
  generalize d.bypass new cause = x at h ⊢
  have f {α : Type} (g : Dev → α) : g x.rest = g (d.rest) := congrArg g h
  exact ⟨f (·.now), f (·.snap), f (·.committedOnce), f (·.staged), f (·.ctrls), f (·.freeIx), f (·.tim), f (·.chutes), f (·.stp), f (·.air),
    f (·.gns), f (·.chiselOut), f (·.ring), f (·.can), f (·.mtr), f (·.drk), f (·.dsp), f (·.pwr), f (·.peer), f (·.com),
    KeptCyc.of (f (·.cyc)), KeptHost.of (f (·.host)), KeptRcd.of (f (·.rcd)), KeptTlg.of (f (·.tlg))⟩

@[simp] theorem bypass_rest (d : Dev) (new cause : Nat) : (d.bypass new cause).rest =
    d.rest := by
  have h := (bypass_spec d new cause).1
  generalize d.bypass new cause = x at h ⊢
  have f {α : Type} (g : Dev → α) : g x.rest = g (d.rest) := congrArg g h
  exact dev_ext (f (·.now)) rfl (f (·.snap)) (f (·.committedOnce)) rfl (f (·.staged)) (f (·.ctrls)) rfl (f (·.freeIx)) (f (·.tim)) (f (·.cyc)) (f (·.host))
    (f (·.chutes)) (f (·.rcd)) (f (·.stp)) (f (·.air)) (f (·.gns)) (f (·.chiselOut)) (f (·.ring)) (f (·.can)) (f (·.mtr)) (f (·.drk))
    (f (·.dsp)) (f (·.tlg)) (f (·.pwr)) (f (·.peer)) (f (·.com))

theorem bypass_reads (d : Dev) (new cause : Nat) : ∀ id jq, reportItem id = false → id ≠ P.RNG_BYPASS_STATE →
    (d.bypass new cause).rd id jq = d.rd id jq ∧ (d.bypass new cause).isSticky id jq = d.isSticky id jq ∧ (d.bypass new cause).cf id jq = d.cf id jq := by
  intro id jq hr h0
  have h := (bypass_spec d new cause).2 id jq hr (by simp) (by simp [regKey_ne, h0, Ne.symm h0])
  have e : (d.bypass new cause).staged = d.staged := by simp
  refine ⟨h.1, h.2, ?_⟩
  simp only [Dev.cf, e, h.1]

theorem bypass_at (d : Dev) (new cause : Nat) : ∀ id jq, reportItem id = false  → regKey P.RNG_BYPASS_STATE 0 ≠ regKey id jq →
    (d.bypass new cause).rd id jq = d.rd id jq ∧ (d.bypass new cause).isSticky id jq = d.isSticky id jq ∧ (d.bypass new cause).cf id jq = d.cf id jq := by
  intro id jq hr h0
  have h := (bypass_spec d new cause).2 id jq hr (by simp) (by simp [h0])
  have e : (d.bypass new cause).staged = d.staged := by simp
  refine ⟨h.1, h.2, ?_⟩
  simp only [Dev.cf, e, h.1]

theorem itemsBut_bypass {ids : List Nat} {ks : List (Nat × Nat)} (d e : Dev) (new cause : Nat) (m0 : P.RNG_BYPASS_STATE ∈ ids ∨ (P.RNG_BYPASS_STATE, 0) ∈ ks) :
    ItemsBut ids ks (d.bypass new cause) e ↔ ItemsBut ids ks d e :=
  itemsBut_congr ((bypass_spec d new cause).2.mono (by simp) (by simp [m0])) e

/-- A hardware release of the by-pass. -/
theorem bypassHw_spec (d : Dev)  : (d.bypassHw).rest = d.rest ∧
    ItemsBut [] [(P.RNG_BYPASS_STATE, 0)] (d.bypassHw) d := by
  exact bypass_spec d 0 4

@[simp] theorem bypassHw_fields (d : Dev)  :
    (d.bypassHw).now = d.now ∧ (d.bypassHw).snap = d.snap ∧ (d.bypassHw).committedOnce = d.committedOnce ∧ (d.bypassHw).staged = d.staged ∧
    (d.bypassHw).ctrls = d.ctrls ∧ (d.bypassHw).freeIx = d.freeIx ∧ (d.bypassHw).tim = d.tim ∧ (d.bypassHw).chutes = d.chutes ∧
    (d.bypassHw).stp = d.stp ∧ (d.bypassHw).air = d.air ∧ (d.bypassHw).gns = d.gns ∧ (d.bypassHw).chiselOut = d.chiselOut ∧
    (d.bypassHw).ring = d.ring ∧ (d.bypassHw).can = d.can ∧ (d.bypassHw).mtr = d.mtr ∧ (d.bypassHw).drk = d.drk ∧ (d.bypassHw).dsp = d.dsp ∧
    (d.bypassHw).pwr = d.pwr ∧ (d.bypassHw).peer = d.peer ∧ (d.bypassHw).com = d.com ∧ KeptCyc (d.bypassHw).cyc d.cyc ∧
    KeptHost (d.bypassHw).host d.host ∧ KeptRcd (d.bypassHw).rcd d.rcd ∧ KeptTlg (d.bypassHw).tlg d.tlg := by
  have h := (bypassHw_spec d ).1
  generalize d.bypassHw = x at h ⊢
  have f {α : Type} (g : Dev → α) : g x.rest = g (d.rest) := congrArg g h
  exact ⟨f (·.now), f (·.snap), f (·.committedOnce), f (·.staged), f (·.ctrls), f (·.freeIx), f (·.tim), f (·.chutes), f (·.stp), f (·.air),
    f (·.gns), f (·.chiselOut), f (·.ring), f (·.can), f (·.mtr), f (·.drk), f (·.dsp), f (·.pwr), f (·.peer), f (·.com),
    KeptCyc.of (f (·.cyc)), KeptHost.of (f (·.host)), KeptRcd.of (f (·.rcd)), KeptTlg.of (f (·.tlg))⟩

@[simp] theorem bypassHw_rest (d : Dev)  : (d.bypassHw).rest =
    d.rest := by
  have h := (bypassHw_spec d ).1
  generalize d.bypassHw = x at h ⊢
  have f {α : Type} (g : Dev → α) : g x.rest = g (d.rest) := congrArg g h
  exact dev_ext (f (·.now)) rfl (f (·.snap)) (f (·.committedOnce)) rfl (f (·.staged)) (f (·.ctrls)) rfl (f (·.freeIx)) (f (·.tim)) (f (·.cyc)) (f (·.host))
    (f (·.chutes)) (f (·.rcd)) (f (·.stp)) (f (·.air)) (f (·.gns)) (f (·.chiselOut)) (f (·.ring)) (f (·.can)) (f (·.mtr)) (f (·.drk))
    (f (·.dsp)) (f (·.tlg)) (f (·.pwr)) (f (·.peer)) (f (·.com))

theorem bypassHw_reads (d : Dev)  : ∀ id jq, reportItem id = false → id ≠ P.RNG_BYPASS_STATE →
    (d.bypassHw).rd id jq = d.rd id jq ∧ (d.bypassHw).isSticky id jq = d.isSticky id jq ∧ (d.bypassHw).cf id jq = d.cf id jq := by
  intro id jq hr h0
  have h := (bypassHw_spec d ).2 id jq hr (by simp) (by simp [regKey_ne, h0, Ne.symm h0])
  have e : (d.bypassHw).staged = d.staged := by simp
  refine ⟨h.1, h.2, ?_⟩
  simp only [Dev.cf, e, h.1]

theorem bypassHw_at (d : Dev)  : ∀ id jq, reportItem id = false  → regKey P.RNG_BYPASS_STATE 0 ≠ regKey id jq →
    (d.bypassHw).rd id jq = d.rd id jq ∧ (d.bypassHw).isSticky id jq = d.isSticky id jq ∧ (d.bypassHw).cf id jq = d.cf id jq := by
  intro id jq hr h0
  have h := (bypassHw_spec d ).2 id jq hr (by simp) (by simp [h0])
  have e : (d.bypassHw).staged = d.staged := by simp
  refine ⟨h.1, h.2, ?_⟩
  simp only [Dev.cf, e, h.1]

theorem itemsBut_bypassHw {ids : List Nat} {ks : List (Nat × Nat)} (d e : Dev)  (m0 : P.RNG_BYPASS_STATE ∈ ids ∨ (P.RNG_BYPASS_STATE, 0) ∈ ks) :
    ItemsBut ids ks (d.bypassHw) e ↔ ItemsBut ids ks d e :=
  itemsBut_congr ((bypassHw_spec d ).2.mono (by simp) (by simp [m0])) e

/-- A reset that starts. -/
theorem beginReset_spec (d : Dev) (cause : Nat) : (d.beginReset cause).rest = { d.rest with pwr := { d.pwr with mode := (d.beginReset cause).pwr.mode, cause := (d.beginReset cause).pwr.cause, due := (d.beginReset cause).pwr.due, rtcReset := (d.beginReset cause).pwr.rtcReset }, stp := { d.stp with outOn := (d.beginReset cause).stp.outOn, series := (d.beginReset cause).stp.series }, peer := { d.peer with seatDriven := (d.beginReset cause).peer.seatDriven } } ∧
    ItemsBut [] [(P.RNG_BYPASS_STATE, 0)] (d.beginReset cause) d := by
  unfold Dev.beginReset Dev.when Dev.power
  try simp only []
  repeat' split
  all_goals
    exact ⟨by first | (simp [itemsBut_self, -judge_rest, judge_rest', -timeState_rest, timeState_rest', -takeSeq_rest, takeSeq_rest', -hold_rest, hold_rest', -admit_rest, admit_rest', -input_rest, input_rest', -offer_rest, offer_rest', -stopNotice_rest, stopNotice_rest', -stopEvent_rest, stopEvent_rest', -giveUp_rest, giveUp_rest', -verdict_rest, verdict_rest', -engineFault_rest, engineFault_rest', -ctr_rest, ctr_rest']; done) | (simp [itemsBut_self, -judge_rest, judge_rest', -timeState_rest, timeState_rest', -takeSeq_rest, takeSeq_rest', -hold_rest, hold_rest', -admit_rest, admit_rest', -input_rest, input_rest', -offer_rest, offer_rest', -stopNotice_rest, stopNotice_rest', -stopEvent_rest, stopEvent_rest', -giveUp_rest, giveUp_rest', -verdict_rest, verdict_rest', -engineFault_rest, engineFault_rest', -ctr_rest, ctr_rest']; repeat' (first | rfl | apply And.intro)) | rfl, by simp [itemsBut_wr, itemsBut_inc, itemsBut_addW, itemsBut_maxTo, itemsBut_wrS, itemsBut_judge, itemsBut_timeState, itemsBut_takeSeq, itemsBut_countIn, itemsBut_hold, itemsBut_admit, itemsBut_input, itemsBut_offer, itemsBut_stopNotice, itemsBut_stopEvent, itemsBut_giveUp, itemsBut_verdict, itemsBut_engineFault, itemsBut_ctr, itemsBut_dspTrace, itemsBut_bypass, itemsBut_bypassHw]⟩

theorem beginReset_rest' (d : Dev) (cause : Nat) : (d.beginReset cause).rest = { d.rest with pwr := { d.pwr with mode := (d.beginReset cause).pwr.mode, cause := (d.beginReset cause).pwr.cause, due := (d.beginReset cause).pwr.due, rtcReset := (d.beginReset cause).pwr.rtcReset }, stp := { d.stp with outOn := (d.beginReset cause).stp.outOn, series := (d.beginReset cause).stp.series }, peer := { d.peer with seatDriven := (d.beginReset cause).peer.seatDriven } } := (beginReset_spec d cause).1

@[simp] theorem beginReset_fields (d : Dev) (cause : Nat) :
    (d.beginReset cause).now = d.now ∧ (d.beginReset cause).snap = d.snap ∧ (d.beginReset cause).committedOnce = d.committedOnce ∧
    (d.beginReset cause).staged = d.staged ∧ (d.beginReset cause).ctrls = d.ctrls ∧ (d.beginReset cause).freeIx = d.freeIx ∧
    (d.beginReset cause).tim = d.tim ∧ (d.beginReset cause).chutes = d.chutes ∧ (d.beginReset cause).stp.lanes = d.stp.lanes ∧
    (d.beginReset cause).stp.diff = d.stp.diff ∧ (d.beginReset cause).stp.allDiff = d.stp.allDiff ∧
    (d.beginReset cause).stp.permits = d.stp.permits ∧ (d.beginReset cause).stp.out = d.stp.out ∧ (d.beginReset cause).stp.level = d.stp.level ∧
    (d.beginReset cause).stp.pulsePass = d.stp.pulsePass ∧ (d.beginReset cause).stp.sawOpen = d.stp.sawOpen ∧
    (d.beginReset cause).stp.sawClosed = d.stp.sawClosed ∧ (d.beginReset cause).stp.circuit = d.stp.circuit ∧
    (d.beginReset cause).stp.diffSince = d.stp.diffSince ∧ (d.beginReset cause).stp.outFault = d.stp.outFault ∧
    (d.beginReset cause).stp.fbSince = d.stp.fbSince ∧ (d.beginReset cause).stp.verdict = d.stp.verdict ∧
    (d.beginReset cause).stp.ownFail = d.stp.ownFail ∧ (d.beginReset cause).stp.withheldBy = d.stp.withheldBy ∧
    (d.beginReset cause).stp.unentered = d.stp.unentered ∧ (d.beginReset cause).stp.pendingFence = d.stp.pendingFence ∧
    (d.beginReset cause).stp.lastRecord = d.stp.lastRecord ∧ (d.beginReset cause).stp.lastEv = d.stp.lastEv ∧
    (d.beginReset cause).stp.testsDone = d.stp.testsDone ∧ (d.beginReset cause).stp.canSilent = d.stp.canSilent ∧
    (d.beginReset cause).stp.remoteSilent = d.stp.remoteSilent ∧ (d.beginReset cause).stp.kept = d.stp.kept ∧
    (d.beginReset cause).stp.mail = d.stp.mail ∧ (d.beginReset cause).stp.remoteLast = d.stp.remoteLast ∧
    (d.beginReset cause).stp.canLast = d.stp.canLast ∧ (d.beginReset cause).stp.unheard = d.stp.unheard ∧
    (d.beginReset cause).stp.firstBeacon = d.stp.firstBeacon ∧ (d.beginReset cause).stp.bcnCycle = d.stp.bcnCycle ∧
    (d.beginReset cause).air = d.air ∧ (d.beginReset cause).gns = d.gns ∧ (d.beginReset cause).chiselOut = d.chiselOut ∧
    (d.beginReset cause).ring = d.ring ∧ (d.beginReset cause).can = d.can ∧ (d.beginReset cause).mtr = d.mtr ∧
    (d.beginReset cause).drk = d.drk ∧ (d.beginReset cause).dsp = d.dsp ∧ (d.beginReset cause).pwr.started = d.pwr.started ∧
    (d.beginReset cause).pwr.hot = d.pwr.hot ∧ (d.beginReset cause).pwr.pinLow = d.pwr.pinLow ∧ (d.beginReset cause).pwr.pfail = d.pwr.pfail ∧
    (d.beginReset cause).pwr.active = d.pwr.active ∧ (d.beginReset cause).pwr.pending = d.pwr.pending ∧
    (d.beginReset cause).pwr.tries = d.pwr.tries ∧ (d.beginReset cause).pwr.slot = d.pwr.slot ∧ (d.beginReset cause).pwr.trial = d.pwr.trial ∧
    (d.beginReset cause).pwr.fallback = d.pwr.fallback ∧ (d.beginReset cause).pwr.readyAt = d.pwr.readyAt ∧
    (d.beginReset cause).pwr.slots = d.pwr.slots ∧ (d.beginReset cause).pwr.salts = d.pwr.salts ∧ (d.beginReset cause).pwr.wrap = d.pwr.wrap ∧
    (d.beginReset cause).pwr.hist = d.pwr.hist ∧ (d.beginReset cause).pwr.rtcOfs = d.pwr.rtcOfs ∧ (d.beginReset cause).pwr.rtcAt = d.pwr.rtcAt ∧
    (d.beginReset cause).pwr.rtcOk = d.pwr.rtcOk ∧ (d.beginReset cause).peer.seatHigh = d.peer.seatHigh ∧
    (d.beginReset cause).peer.yielding = d.peer.yielding ∧ (d.beginReset cause).peer.boundary = d.peer.boundary ∧
    (d.beginReset cause).peer.takeGot = d.peer.takeGot ∧ (d.beginReset cause).peer.giveB = d.peer.giveB ∧
    (d.beginReset cause).peer.takeSent = d.peer.takeSent ∧ (d.beginReset cause).peer.hbSeq = d.peer.hbSeq ∧
    (d.beginReset cause).peer.hbLastSeq = d.peer.hbLastSeq ∧ (d.beginReset cause).peer.hbLastAt = d.peer.hbLastAt ∧
    (d.beginReset cause).peer.restored = d.peer.restored ∧ (d.beginReset cause).peer.trained = d.peer.trained ∧
    (d.beginReset cause).peer.key = d.peer.key ∧ (d.beginReset cause).peer.peerTenure = d.peer.peerTenure ∧
    (d.beginReset cause).peer.peerMode = d.peer.peerMode ∧ (d.beginReset cause).peer.peerCycle = d.peer.peerCycle ∧
    (d.beginReset cause).peer.peerOffset = d.peer.peerOffset ∧ (d.beginReset cause).peer.digestSkip = d.peer.digestSkip ∧
    (d.beginReset cause).peer.lastCopy = d.peer.lastCopy ∧ (d.beginReset cause).peer.waitCheckpoint = d.peer.waitCheckpoint ∧
    (d.beginReset cause).peer.matchRun = d.peer.matchRun ∧ (d.beginReset cause).peer.mismatchRun = d.peer.mismatchRun ∧
    (d.beginReset cause).peer.holdFrom = d.peer.holdFrom ∧ (d.beginReset cause).peer.holdMismatch = d.peer.holdMismatch ∧
    (d.beginReset cause).peer.claim = d.peer.claim ∧ (d.beginReset cause).peer.refused = d.peer.refused ∧
    (d.beginReset cause).peer.silentAt = d.peer.silentAt ∧ (d.beginReset cause).peer.restarts = d.peer.restarts ∧
    (d.beginReset cause).peer.beaconCycles = d.peer.beaconCycles ∧ (d.beginReset cause).peer.foreign = d.peer.foreign ∧
    (d.beginReset cause).peer.fwd = d.peer.fwd ∧ (d.beginReset cause).peer.lossLatch = d.peer.lossLatch ∧
    (d.beginReset cause).peer.lastState = d.peer.lastState ∧ (d.beginReset cause).com = d.com ∧ KeptCyc (d.beginReset cause).cyc d.cyc ∧
    KeptHost (d.beginReset cause).host d.host ∧ KeptRcd (d.beginReset cause).rcd d.rcd ∧ KeptTlg (d.beginReset cause).tlg d.tlg := by
  have h := (beginReset_spec d cause).1
  generalize d.beginReset cause = x at h ⊢
  have f {α : Type} (g : Dev → α) : g x.rest = g ({ d.rest with pwr := { d.pwr with mode := (x).pwr.mode, cause := (x).pwr.cause, due := (x).pwr.due, rtcReset := (x).pwr.rtcReset }, stp := { d.stp with outOn := (x).stp.outOn, series := (x).stp.series }, peer := { d.peer with seatDriven := (x).peer.seatDriven } }) := congrArg g h
  exact ⟨f (·.now), f (·.snap), f (·.committedOnce), f (·.staged), f (·.ctrls), f (·.freeIx), f (·.tim), f (·.chutes), f (·.stp.lanes),
    f (·.stp.diff), f (·.stp.allDiff), f (·.stp.permits), f (·.stp.out), f (·.stp.level), f (·.stp.pulsePass), f (·.stp.sawOpen),
    f (·.stp.sawClosed), f (·.stp.circuit), f (·.stp.diffSince), f (·.stp.outFault), f (·.stp.fbSince), f (·.stp.verdict), f (·.stp.ownFail),
    f (·.stp.withheldBy), f (·.stp.unentered), f (·.stp.pendingFence), f (·.stp.lastRecord), f (·.stp.lastEv), f (·.stp.testsDone),
    f (·.stp.canSilent), f (·.stp.remoteSilent), f (·.stp.kept), f (·.stp.mail), f (·.stp.remoteLast), f (·.stp.canLast), f (·.stp.unheard),
    f (·.stp.firstBeacon), f (·.stp.bcnCycle), f (·.air), f (·.gns), f (·.chiselOut), f (·.ring), f (·.can), f (·.mtr), f (·.drk), f (·.dsp),
    f (·.pwr.started), f (·.pwr.hot), f (·.pwr.pinLow), f (·.pwr.pfail), f (·.pwr.active), f (·.pwr.pending), f (·.pwr.tries), f (·.pwr.slot),
    f (·.pwr.trial), f (·.pwr.fallback), f (·.pwr.readyAt), f (·.pwr.slots), f (·.pwr.salts), f (·.pwr.wrap), f (·.pwr.hist), f (·.pwr.rtcOfs),
    f (·.pwr.rtcAt), f (·.pwr.rtcOk), f (·.peer.seatHigh), f (·.peer.yielding), f (·.peer.boundary), f (·.peer.takeGot), f (·.peer.giveB),
    f (·.peer.takeSent), f (·.peer.hbSeq), f (·.peer.hbLastSeq), f (·.peer.hbLastAt), f (·.peer.restored), f (·.peer.trained), f (·.peer.key),
    f (·.peer.peerTenure), f (·.peer.peerMode), f (·.peer.peerCycle), f (·.peer.peerOffset), f (·.peer.digestSkip), f (·.peer.lastCopy),
    f (·.peer.waitCheckpoint), f (·.peer.matchRun), f (·.peer.mismatchRun), f (·.peer.holdFrom), f (·.peer.holdMismatch), f (·.peer.claim),
    f (·.peer.refused), f (·.peer.silentAt), f (·.peer.restarts), f (·.peer.beaconCycles), f (·.peer.foreign), f (·.peer.fwd),
    f (·.peer.lossLatch), f (·.peer.lastState), f (·.com), KeptCyc.of (f (·.cyc)), KeptHost.of (f (·.host)), KeptRcd.of (f (·.rcd)),
    KeptTlg.of (f (·.tlg))⟩

@[simp] theorem beginReset_rest (d : Dev) (cause : Nat) : (d.beginReset cause).rest =
    { d.rest with pwr := (d.beginReset cause).pwr, stp := (d.beginReset cause).stp, peer := (d.beginReset cause).peer } := by
  have h := (beginReset_spec d cause).1
  generalize d.beginReset cause = x at h ⊢
  have f {α : Type} (g : Dev → α) : g x.rest = g ({ d.rest with pwr := { d.pwr with mode := (x).pwr.mode, cause := (x).pwr.cause, due := (x).pwr.due, rtcReset := (x).pwr.rtcReset }, stp := { d.stp with outOn := (x).stp.outOn, series := (x).stp.series }, peer := { d.peer with seatDriven := (x).peer.seatDriven } }) := congrArg g h
  exact dev_ext (f (·.now)) rfl (f (·.snap)) (f (·.committedOnce)) rfl (f (·.staged)) (f (·.ctrls)) rfl (f (·.freeIx)) (f (·.tim)) (f (·.cyc)) (f (·.host))
    (f (·.chutes)) (f (·.rcd)) rfl (f (·.air)) (f (·.gns)) (f (·.chiselOut)) (f (·.ring)) (f (·.can)) (f (·.mtr)) (f (·.drk)) (f (·.dsp))
    (f (·.tlg)) rfl rfl (f (·.com))

theorem beginReset_reads (d : Dev) (cause : Nat) : ∀ id jq, reportItem id = false → id ≠ P.RNG_BYPASS_STATE →
    (d.beginReset cause).rd id jq = d.rd id jq ∧ (d.beginReset cause).isSticky id jq = d.isSticky id jq ∧ (d.beginReset cause).cf id jq = d.cf id jq := by
  intro id jq hr h0
  have h := (beginReset_spec d cause).2 id jq hr (by simp) (by simp [regKey_ne, h0, Ne.symm h0])
  have e : (d.beginReset cause).staged = d.staged := by simp
  refine ⟨h.1, h.2, ?_⟩
  simp only [Dev.cf, e, h.1]

theorem beginReset_at (d : Dev) (cause : Nat) : ∀ id jq, reportItem id = false  → regKey P.RNG_BYPASS_STATE 0 ≠ regKey id jq →
    (d.beginReset cause).rd id jq = d.rd id jq ∧ (d.beginReset cause).isSticky id jq = d.isSticky id jq ∧ (d.beginReset cause).cf id jq = d.cf id jq := by
  intro id jq hr h0
  have h := (beginReset_spec d cause).2 id jq hr (by simp) (by simp [h0])
  have e : (d.beginReset cause).staged = d.staged := by simp
  refine ⟨h.1, h.2, ?_⟩
  simp only [Dev.cf, e, h.1]

theorem itemsBut_beginReset {ids : List Nat} {ks : List (Nat × Nat)} (d e : Dev) (cause : Nat) (m0 : P.RNG_BYPASS_STATE ∈ ids ∨ (P.RNG_BYPASS_STATE, 0) ∈ ks) :
    ItemsBut ids ks (d.beginReset cause) e ↔ ItemsBut ids ks d e :=
  itemsBut_congr ((beginReset_spec d cause).2.mono (by simp) (by simp [m0])) e

/-- What a reset that starts leaves. -/
theorem beginReset_reset (d : Dev) (cause : Nat) (h : d.pwr.mode ≠ 1) : (d.beginReset cause).pwr.mode = 1 ∧ (d.beginReset cause).pwr.cause = cause ∧
    (d.beginReset cause).pwr.due = none ∧ (d.beginReset cause).stp.outOn = false ∧ (d.beginReset cause).peer.seatDriven = false := by
  unfold Dev.beginReset Dev.when Dev.power
  simp only [if_neg h]
  repeat' split
  all_goals simp

/-! ### Supplies -/

/-- A metering flush touches what MRAM holds of the bays. -/
theorem mtrFlush_spec (d : Dev) (k : Nat) : (d.mtrFlush k).rest = { d.rest with mtr := (d.mtrFlush k).mtr } ∧
    ItemsBut [] [] (d.mtrFlush k) d := by
  unfold Dev.mtrFlush
  try simp only []
  repeat' split
  all_goals
    exact ⟨by first | (simp [itemsBut_self, -judge_rest, judge_rest', -timeState_rest, timeState_rest', -takeSeq_rest, takeSeq_rest', -hold_rest, hold_rest', -admit_rest, admit_rest', -input_rest, input_rest', -offer_rest, offer_rest', -stopNotice_rest, stopNotice_rest', -stopEvent_rest, stopEvent_rest', -giveUp_rest, giveUp_rest', -verdict_rest, verdict_rest', -engineFault_rest, engineFault_rest', -ctr_rest, ctr_rest', -beginReset_rest, beginReset_rest']; done) | (simp [itemsBut_self, -judge_rest, judge_rest', -timeState_rest, timeState_rest', -takeSeq_rest, takeSeq_rest', -hold_rest, hold_rest', -admit_rest, admit_rest', -input_rest, input_rest', -offer_rest, offer_rest', -stopNotice_rest, stopNotice_rest', -stopEvent_rest, stopEvent_rest', -giveUp_rest, giveUp_rest', -verdict_rest, verdict_rest', -engineFault_rest, engineFault_rest', -ctr_rest, ctr_rest', -beginReset_rest, beginReset_rest']; repeat' (first | rfl | apply And.intro)) | rfl, by simp [itemsBut_wr, itemsBut_inc, itemsBut_addW, itemsBut_maxTo, itemsBut_wrS, itemsBut_judge, itemsBut_timeState, itemsBut_takeSeq, itemsBut_countIn, itemsBut_hold, itemsBut_admit, itemsBut_input, itemsBut_offer, itemsBut_stopNotice, itemsBut_stopEvent, itemsBut_giveUp, itemsBut_verdict, itemsBut_engineFault, itemsBut_ctr, itemsBut_dspTrace, itemsBut_bypass, itemsBut_bypassHw, itemsBut_beginReset]⟩

@[simp] theorem mtrFlush_fields (d : Dev) (k : Nat) :
    (d.mtrFlush k).now = d.now ∧ (d.mtrFlush k).snap = d.snap ∧ (d.mtrFlush k).committedOnce = d.committedOnce ∧
    (d.mtrFlush k).staged = d.staged ∧ (d.mtrFlush k).ctrls = d.ctrls ∧ (d.mtrFlush k).freeIx = d.freeIx ∧ (d.mtrFlush k).tim = d.tim ∧
    (d.mtrFlush k).chutes = d.chutes ∧ (d.mtrFlush k).stp = d.stp ∧ (d.mtrFlush k).air = d.air ∧ (d.mtrFlush k).gns = d.gns ∧
    (d.mtrFlush k).chiselOut = d.chiselOut ∧ (d.mtrFlush k).ring = d.ring ∧ (d.mtrFlush k).can = d.can ∧ (d.mtrFlush k).drk = d.drk ∧
    (d.mtrFlush k).dsp = d.dsp ∧ (d.mtrFlush k).pwr = d.pwr ∧ (d.mtrFlush k).peer = d.peer ∧ (d.mtrFlush k).com = d.com ∧
    KeptCyc (d.mtrFlush k).cyc d.cyc ∧ KeptHost (d.mtrFlush k).host d.host ∧ KeptRcd (d.mtrFlush k).rcd d.rcd ∧ KeptTlg (d.mtrFlush k).tlg d.tlg := by
  have h := (mtrFlush_spec d k).1
  generalize d.mtrFlush k = x at h ⊢
  have f {α : Type} (g : Dev → α) : g x.rest = g ({ d.rest with mtr := (x).mtr }) := congrArg g h
  exact ⟨f (·.now), f (·.snap), f (·.committedOnce), f (·.staged), f (·.ctrls), f (·.freeIx), f (·.tim), f (·.chutes), f (·.stp), f (·.air),
    f (·.gns), f (·.chiselOut), f (·.ring), f (·.can), f (·.drk), f (·.dsp), f (·.pwr), f (·.peer), f (·.com), KeptCyc.of (f (·.cyc)),
    KeptHost.of (f (·.host)), KeptRcd.of (f (·.rcd)), KeptTlg.of (f (·.tlg))⟩

@[simp] theorem mtrFlush_rest (d : Dev) (k : Nat) : (d.mtrFlush k).rest =
    { d.rest with mtr := (d.mtrFlush k).mtr } := by
  have h := (mtrFlush_spec d k).1
  generalize d.mtrFlush k = x at h ⊢
  have f {α : Type} (g : Dev → α) : g x.rest = g ({ d.rest with mtr := (x).mtr }) := congrArg g h
  exact dev_ext (f (·.now)) rfl (f (·.snap)) (f (·.committedOnce)) rfl (f (·.staged)) (f (·.ctrls)) rfl (f (·.freeIx)) (f (·.tim)) (f (·.cyc)) (f (·.host))
    (f (·.chutes)) (f (·.rcd)) (f (·.stp)) (f (·.air)) (f (·.gns)) (f (·.chiselOut)) (f (·.ring)) (f (·.can)) rfl (f (·.drk)) (f (·.dsp))
    (f (·.tlg)) (f (·.pwr)) (f (·.peer)) (f (·.com))

theorem mtrFlush_reads (d : Dev) (k : Nat) : ∀ id jq, reportItem id = false  →
    (d.mtrFlush k).rd id jq = d.rd id jq ∧ (d.mtrFlush k).isSticky id jq = d.isSticky id jq ∧ (d.mtrFlush k).cf id jq = d.cf id jq := by
  intro id jq hr 
  have h := (mtrFlush_spec d k).2 id jq hr (by simp) (by simp)
  have e : (d.mtrFlush k).staged = d.staged := by simp
  refine ⟨h.1, h.2, ?_⟩
  simp only [Dev.cf, e, h.1]

theorem itemsBut_mtrFlush {ids : List Nat} {ks : List (Nat × Nat)} (d e : Dev) (k : Nat)  :
    ItemsBut ids ks (d.mtrFlush k) e ↔ ItemsBut ids ks d e :=
  itemsBut_congr ((mtrFlush_spec d k).2.mono (by simp) (by simp)) e

/-- The Recorder goes on after a power failure. -/
theorem imageKeep_spec (d : Dev)  : (d.imageKeep).rest = { d.rest with rcd := { quietRcd d.rcd with pfail := (d.imageKeep).rcd.pfail } } ∧
    ItemsBut [] [] (d.imageKeep) d := by
  exact ⟨rfl, fun _ _ _ _ _ => ⟨rfl, rfl⟩⟩

theorem imageKeep_rest' (d : Dev)  : (d.imageKeep).rest = { d.rest with rcd := { quietRcd d.rcd with pfail := (d.imageKeep).rcd.pfail } } := (imageKeep_spec d ).1

@[simp] theorem imageKeep_fields (d : Dev)  :
    (d.imageKeep).now = d.now ∧ (d.imageKeep).snap = d.snap ∧ (d.imageKeep).committedOnce = d.committedOnce ∧ (d.imageKeep).staged = d.staged ∧
    (d.imageKeep).ctrls = d.ctrls ∧ (d.imageKeep).freeIx = d.freeIx ∧ (d.imageKeep).tim = d.tim ∧ (d.imageKeep).chutes = d.chutes ∧
    (d.imageKeep).stp = d.stp ∧ (d.imageKeep).air = d.air ∧ (d.imageKeep).gns = d.gns ∧ (d.imageKeep).chiselOut = d.chiselOut ∧
    (d.imageKeep).ring = d.ring ∧ (d.imageKeep).can = d.can ∧ (d.imageKeep).mtr = d.mtr ∧ (d.imageKeep).drk = d.drk ∧
    (d.imageKeep).dsp = d.dsp ∧ (d.imageKeep).pwr = d.pwr ∧ (d.imageKeep).peer = d.peer ∧ (d.imageKeep).com = d.com ∧
    KeptCyc (d.imageKeep).cyc d.cyc ∧ KeptHost (d.imageKeep).host d.host ∧ (d.imageKeep).rcd.nvNext = d.rcd.nvNext ∧
    (d.imageKeep).rcd.fullMark = d.rcd.fullMark ∧ (d.imageKeep).rcd.clears = d.rcd.clears ∧ (d.imageKeep).rcd.lwWrote = d.rcd.lwWrote ∧
    KeptTlg (d.imageKeep).tlg d.tlg := by
  have h := (imageKeep_spec d ).1
  generalize d.imageKeep = x at h ⊢
  have f {α : Type} (g : Dev → α) : g x.rest = g ({ d.rest with rcd := { quietRcd d.rcd with pfail := (x).rcd.pfail } }) := congrArg g h
  exact ⟨f (·.now), f (·.snap), f (·.committedOnce), f (·.staged), f (·.ctrls), f (·.freeIx), f (·.tim), f (·.chutes), f (·.stp), f (·.air),
    f (·.gns), f (·.chiselOut), f (·.ring), f (·.can), f (·.mtr), f (·.drk), f (·.dsp), f (·.pwr), f (·.peer), f (·.com),
    KeptCyc.of (f (·.cyc)), KeptHost.of (f (·.host)), f (·.rcd.nvNext), f (·.rcd.fullMark), f (·.rcd.clears), f (·.rcd.lwWrote),
    KeptTlg.of (f (·.tlg))⟩

@[simp] theorem imageKeep_rest (d : Dev)  : (d.imageKeep).rest =
    { d.rest with rcd := quietRcd (d.imageKeep).rcd } := by
  have h := (imageKeep_spec d ).1
  generalize d.imageKeep = x at h ⊢
  have f {α : Type} (g : Dev → α) : g x.rest = g ({ d.rest with rcd := { quietRcd d.rcd with pfail := (x).rcd.pfail } }) := congrArg g h
  exact dev_ext (f (·.now)) rfl (f (·.snap)) (f (·.committedOnce)) rfl (f (·.staged)) (f (·.ctrls)) rfl (f (·.freeIx)) (f (·.tim)) (f (·.cyc)) (f (·.host))
    (f (·.chutes)) rfl (f (·.stp)) (f (·.air)) (f (·.gns)) (f (·.chiselOut)) (f (·.ring)) (f (·.can)) (f (·.mtr)) (f (·.drk)) (f (·.dsp))
    (f (·.tlg)) (f (·.pwr)) (f (·.peer)) (f (·.com))

theorem imageKeep_reads (d : Dev)  : ∀ id jq, reportItem id = false  →
    (d.imageKeep).rd id jq = d.rd id jq ∧ (d.imageKeep).isSticky id jq = d.isSticky id jq ∧ (d.imageKeep).cf id jq = d.cf id jq := by
  intro id jq hr 
  have h := (imageKeep_spec d ).2 id jq hr (by simp) (by simp)
  have e : (d.imageKeep).staged = d.staged := by simp
  refine ⟨h.1, h.2, ?_⟩
  simp only [Dev.cf, e, h.1]

theorem itemsBut_imageKeep {ids : List Nat} {ks : List (Nat × Nat)} (d e : Dev)   :
    ItemsBut ids ks (d.imageKeep) e ↔ ItemsBut ids ks d e :=
  itemsBut_congr ((imageKeep_spec d ).2.mono (by simp) (by simp)) e

/-- The Recorder copies what it holds in DRAM. -/
theorem imageCopy_spec (d : Dev)  : (d.imageCopy).rest = { d.rest with rcd := { quietRcd d.rcd with pfail := (d.imageCopy).rcd.pfail } } ∧
    ItemsBut [] [] (d.imageCopy) d := by
  exact ⟨rfl, fun _ _ _ _ _ => ⟨rfl, rfl⟩⟩

theorem imageCopy_rest' (d : Dev)  : (d.imageCopy).rest = { d.rest with rcd := { quietRcd d.rcd with pfail := (d.imageCopy).rcd.pfail } } := (imageCopy_spec d ).1

@[simp] theorem imageCopy_fields (d : Dev)  :
    (d.imageCopy).now = d.now ∧ (d.imageCopy).snap = d.snap ∧ (d.imageCopy).committedOnce = d.committedOnce ∧ (d.imageCopy).staged = d.staged ∧
    (d.imageCopy).ctrls = d.ctrls ∧ (d.imageCopy).freeIx = d.freeIx ∧ (d.imageCopy).tim = d.tim ∧ (d.imageCopy).chutes = d.chutes ∧
    (d.imageCopy).stp = d.stp ∧ (d.imageCopy).air = d.air ∧ (d.imageCopy).gns = d.gns ∧ (d.imageCopy).chiselOut = d.chiselOut ∧
    (d.imageCopy).ring = d.ring ∧ (d.imageCopy).can = d.can ∧ (d.imageCopy).mtr = d.mtr ∧ (d.imageCopy).drk = d.drk ∧
    (d.imageCopy).dsp = d.dsp ∧ (d.imageCopy).pwr = d.pwr ∧ (d.imageCopy).peer = d.peer ∧ (d.imageCopy).com = d.com ∧
    KeptCyc (d.imageCopy).cyc d.cyc ∧ KeptHost (d.imageCopy).host d.host ∧ (d.imageCopy).rcd.nvNext = d.rcd.nvNext ∧
    (d.imageCopy).rcd.fullMark = d.rcd.fullMark ∧ (d.imageCopy).rcd.clears = d.rcd.clears ∧ (d.imageCopy).rcd.lwWrote = d.rcd.lwWrote ∧
    KeptTlg (d.imageCopy).tlg d.tlg := by
  have h := (imageCopy_spec d ).1
  generalize d.imageCopy = x at h ⊢
  have f {α : Type} (g : Dev → α) : g x.rest = g ({ d.rest with rcd := { quietRcd d.rcd with pfail := (x).rcd.pfail } }) := congrArg g h
  exact ⟨f (·.now), f (·.snap), f (·.committedOnce), f (·.staged), f (·.ctrls), f (·.freeIx), f (·.tim), f (·.chutes), f (·.stp), f (·.air),
    f (·.gns), f (·.chiselOut), f (·.ring), f (·.can), f (·.mtr), f (·.drk), f (·.dsp), f (·.pwr), f (·.peer), f (·.com),
    KeptCyc.of (f (·.cyc)), KeptHost.of (f (·.host)), f (·.rcd.nvNext), f (·.rcd.fullMark), f (·.rcd.clears), f (·.rcd.lwWrote),
    KeptTlg.of (f (·.tlg))⟩

@[simp] theorem imageCopy_rest (d : Dev)  : (d.imageCopy).rest =
    { d.rest with rcd := quietRcd (d.imageCopy).rcd } := by
  have h := (imageCopy_spec d ).1
  generalize d.imageCopy = x at h ⊢
  have f {α : Type} (g : Dev → α) : g x.rest = g ({ d.rest with rcd := { quietRcd d.rcd with pfail := (x).rcd.pfail } }) := congrArg g h
  exact dev_ext (f (·.now)) rfl (f (·.snap)) (f (·.committedOnce)) rfl (f (·.staged)) (f (·.ctrls)) rfl (f (·.freeIx)) (f (·.tim)) (f (·.cyc)) (f (·.host))
    (f (·.chutes)) rfl (f (·.stp)) (f (·.air)) (f (·.gns)) (f (·.chiselOut)) (f (·.ring)) (f (·.can)) (f (·.mtr)) (f (·.drk)) (f (·.dsp))
    (f (·.tlg)) (f (·.pwr)) (f (·.peer)) (f (·.com))

theorem imageCopy_reads (d : Dev)  : ∀ id jq, reportItem id = false  →
    (d.imageCopy).rd id jq = d.rd id jq ∧ (d.imageCopy).isSticky id jq = d.isSticky id jq ∧ (d.imageCopy).cf id jq = d.cf id jq := by
  intro id jq hr 
  have h := (imageCopy_spec d ).2 id jq hr (by simp) (by simp)
  have e : (d.imageCopy).staged = d.staged := by simp
  refine ⟨h.1, h.2, ?_⟩
  simp only [Dev.cf, e, h.1]

theorem itemsBut_imageCopy {ids : List Nat} {ks : List (Nat × Nat)} (d e : Dev)   :
    ItemsBut ids ks (d.imageCopy) e ↔ ItemsBut ids ks d e :=
  itemsBut_congr ((imageCopy_spec d ).2.mono (by simp) (by simp)) e

/-! ### Cold start -/

@[simp] theorem slateCold_keeps (d : Dev) : d.slateCold.pwr = d.pwr ∧ d.slateCold.cyc = d.cyc ∧ d.slateCold.peer = d.peer ∧ d.slateCold.rcd = d.rcd ∧
    d.slateCold.gns = d.gns ∧ d.slateCold.now = d.now := by
  unfold Dev.slateCold Dev.showUsed
  simp

@[simp] theorem mtrCold_keeps (d : Dev) : d.mtrCold.pwr = d.pwr ∧ d.mtrCold.cyc = d.cyc ∧ d.mtrCold.peer = d.peer ∧ d.mtrCold.rcd = d.rcd ∧
    d.mtrCold.gns = d.gns ∧ d.mtrCold.now = d.now := by
  unfold Dev.mtrCold
  have h {β : Type} (g : Dev → β) (hg : ∀ d b, g (d.wr P.MTR_GATE b 0) = g d) (l : List Nat) := foldl_keeps g (fun d b => d.wr P.MTR_GATE b 0) hg l
  exact ⟨h (·.pwr) (fun _ _ => rfl) _ _, h (·.cyc) (fun _ _ => rfl) _ _, h (·.peer) (fun _ _ => rfl) _ _, h (·.rcd) (fun _ _ => rfl) _ _,
    h (·.gns) (fun _ _ => rfl) _ _, h (·.now) (fun _ _ => rfl) _ _⟩

@[simp] theorem drkCold_keeps (d : Dev) : d.drkCold.pwr = d.pwr ∧ d.drkCold.cyc = d.cyc ∧ d.drkCold.peer = d.peer ∧ d.drkCold.rcd = d.rcd ∧
    d.drkCold.gns = d.gns ∧ d.drkCold.now = d.now := by
  unfold Dev.drkCold
  have h {β : Type} (g : Dev → β) (hg : ∀ d id i v, g (d.wr id i v) = g d) (l : List Nat) := foldl_keeps g (fun d ax =>
    ((((d.wr P.DRK_STATE ax (if d.rd P.DRK_EN ax = 1 then 1 else 0)).wrS P.DRK_POS ax 0).wr P.DRK_REMAIN ax 0).wr P.DRK_FAULT ax 0)) (by
      intro d a
      simp only [hg]
      unfold Dev.wrS
      split <;> simp only [hg]) l
  exact ⟨(h (·.pwr) (fun _ _ _ _ => rfl) _ _).trans rfl, (h (·.cyc) (fun _ _ _ _ => rfl) _ _).trans rfl, (h (·.peer) (fun _ _ _ _ => rfl) _ _).trans rfl,
    (h (·.rcd) (fun _ _ _ _ => rfl) _ _).trans rfl, (h (·.gns) (fun _ _ _ _ => rfl) _ _).trans rfl, (h (·.now) (fun _ _ _ _ => rfl) _ _).trans rfl⟩

@[simp] theorem canCold_keeps (d : Dev) : d.canCold.pwr = d.pwr ∧ d.canCold.cyc = d.cyc ∧ d.canCold.peer = d.peer ∧ d.canCold.rcd = d.rcd ∧
    d.canCold.gns = d.gns ∧ d.canCold.now = d.now := by
  unfold Dev.canCold
  simp

@[simp] theorem ringCold_keeps (d : Dev) : d.ringCold.pwr = d.pwr ∧ d.ringCold.peer = d.peer ∧ KeptRcd d.ringCold.rcd d.rcd ∧ d.ringCold.gns = d.gns ∧
    d.ringCold.now = d.now ∧ KeptCyc d.ringCold.cyc d.cyc := by
  unfold Dev.ringCold
  simp [KeptRcd, KeptCyc]

@[simp] theorem airCold_keeps (d : Dev) : d.airCold.pwr = d.pwr ∧ d.airCold.cyc = d.cyc ∧ d.airCold.peer = d.peer ∧ d.airCold.rcd = d.rcd ∧
    d.airCold.gns = d.gns ∧ d.airCold.now = d.now := by
  unfold Dev.airCold
  have h {β : Type} (g : Dev → β) (hg : ∀ d id i v, g (d.wr id i v) = g d) (l : List AirKey) :=
    foldl_keeps g (fun d k => if k.cur.isSome && k.inst ≤ 96 then d.wr P.AIR_FCNT k.inst (min k.mark fcntStick) else d) (by
      intro d a; split
      · exact hg _ _ _ _
      · rfl) l
  exact ⟨h (·.pwr) (fun _ _ _ _ => rfl) _ _, h (·.cyc) (fun _ _ _ _ => rfl) _ _, h (·.peer) (fun _ _ _ _ => rfl) _ _, h (·.rcd) (fun _ _ _ _ => rfl) _ _,
    h (·.gns) (fun _ _ _ _ => rfl) _ _, h (·.now) (fun _ _ _ _ => rfl) _ _⟩

@[simp] theorem dspCold_keeps (d : Dev) : d.dspCold.pwr = d.pwr ∧ d.dspCold.cyc = d.cyc ∧ d.dspCold.peer = d.peer ∧ d.dspCold.rcd = d.rcd ∧
    d.dspCold.gns = d.gns ∧ d.dspCold.now = d.now := ⟨rfl, rfl, rfl, rfl, rfl, rfl⟩

@[simp] theorem recordCause_keeps (d : Dev) : d.recordCause.pwr.mode = d.pwr.mode ∧ d.recordCause.pwr.started = d.pwr.started ∧
    d.recordCause.pwr.hist.head? = some (d.pwr.cause, d.pwr.slot, d.pwr.rtcReset) ∧ d.recordCause.cyc.origin = d.cyc.origin := by
  unfold Dev.recordCause Dev.power
  simp only []
  split <;> simp

@[simp] theorem placeRec_keeps (d : Dev) (x : Rec) : (d.placeRec x).pwr = d.pwr ∧ (d.placeRec x).peer = d.peer ∧ (d.placeRec x).cyc.origin = d.cyc.origin ∧
    (d.placeRec x).now = d.now := by
  unfold Dev.placeRec Dev.region Dev.recorder Dev.lastWords Dev.showRegion
  simp only []
  repeat' split
  all_goals first | (simp [Dev.region, Dev.recorder, Dev.when, Dev.noticeT]; done) | (simp [Dev.region, Dev.recorder, Dev.when] ; split <;> simp)

@[simp] theorem logCold_keeps (d : Dev) (torn : Bool) : (d.logCold torn).pwr = d.pwr ∧ (d.logCold torn).peer = d.peer ∧
    (d.logCold torn).cyc.origin = d.cyc.origin ∧ (d.logCold torn).now = d.now := by
  have h {β : Type} (g : Dev → β) (hg : ∀ d x, g (Dev.placeRec d x) = g d) (l : List Rec) := foldl_keeps g (fun d x => d.placeRec ({ x with flags := x.flags ||| 4 } : Rec).flushed.closed)
    (fun d x => hg d _) l
  unfold Dev.logCold
  simp only [h (·.pwr) (fun d x => (placeRec_keeps d x).1), h (·.peer) (fun d x => (placeRec_keeps d x).2.1), h (·.cyc.origin) (fun d x => (placeRec_keeps d x).2.2.1),
    h (·.now) (fun d x => (placeRec_keeps d x).2.2.2), notice_kept]
  simp [Dev.showRegion, Dev.when]
  split <;> simp
/-! ### GNSS -/

/-- A change of an antenna's state. -/
theorem antState_spec (d : Dev) (i s ma : Nat) : (d.antState i s ma).rest = { d.rest with gns := (d.antState i s ma).gns } ∧
    ItemsBut [] [(P.GNS_ANT_STATE, i)] (d.antState i s ma) d := by
  unfold Dev.antState
  try simp only []
  repeat' split
  all_goals
    exact ⟨by first | (simp [itemsBut_self, -judge_rest, judge_rest', -timeState_rest, timeState_rest', -takeSeq_rest, takeSeq_rest', -hold_rest, hold_rest', -admit_rest, admit_rest', -input_rest, input_rest', -offer_rest, offer_rest', -stopNotice_rest, stopNotice_rest', -stopEvent_rest, stopEvent_rest', -giveUp_rest, giveUp_rest', -verdict_rest, verdict_rest', -engineFault_rest, engineFault_rest', -ctr_rest, ctr_rest', -beginReset_rest, beginReset_rest', -imageKeep_rest, imageKeep_rest', -imageCopy_rest, imageCopy_rest']; done) | (simp [itemsBut_self, -judge_rest, judge_rest', -timeState_rest, timeState_rest', -takeSeq_rest, takeSeq_rest', -hold_rest, hold_rest', -admit_rest, admit_rest', -input_rest, input_rest', -offer_rest, offer_rest', -stopNotice_rest, stopNotice_rest', -stopEvent_rest, stopEvent_rest', -giveUp_rest, giveUp_rest', -verdict_rest, verdict_rest', -engineFault_rest, engineFault_rest', -ctr_rest, ctr_rest', -beginReset_rest, beginReset_rest', -imageKeep_rest, imageKeep_rest', -imageCopy_rest, imageCopy_rest']; repeat' (first | rfl | apply And.intro)) | rfl, by simp [itemsBut_wr, itemsBut_inc, itemsBut_addW, itemsBut_maxTo, itemsBut_wrS, itemsBut_judge, itemsBut_timeState, itemsBut_takeSeq, itemsBut_countIn, itemsBut_hold, itemsBut_admit, itemsBut_input, itemsBut_offer, itemsBut_stopNotice, itemsBut_stopEvent, itemsBut_giveUp, itemsBut_verdict, itemsBut_engineFault, itemsBut_ctr, itemsBut_dspTrace, itemsBut_bypass, itemsBut_bypassHw, itemsBut_beginReset, itemsBut_mtrFlush, itemsBut_imageKeep, itemsBut_imageCopy]⟩

@[simp] theorem antState_fields (d : Dev) (i s ma : Nat) :
    (d.antState i s ma).now = d.now ∧ (d.antState i s ma).snap = d.snap ∧ (d.antState i s ma).committedOnce = d.committedOnce ∧
    (d.antState i s ma).staged = d.staged ∧ (d.antState i s ma).ctrls = d.ctrls ∧ (d.antState i s ma).freeIx = d.freeIx ∧
    (d.antState i s ma).tim = d.tim ∧ (d.antState i s ma).chutes = d.chutes ∧ (d.antState i s ma).stp = d.stp ∧
    (d.antState i s ma).air = d.air ∧ (d.antState i s ma).chiselOut = d.chiselOut ∧ (d.antState i s ma).ring = d.ring ∧
    (d.antState i s ma).can = d.can ∧ (d.antState i s ma).mtr = d.mtr ∧ (d.antState i s ma).drk = d.drk ∧ (d.antState i s ma).dsp = d.dsp ∧
    (d.antState i s ma).pwr = d.pwr ∧ (d.antState i s ma).peer = d.peer ∧ (d.antState i s ma).com = d.com ∧
    KeptCyc (d.antState i s ma).cyc d.cyc ∧ KeptHost (d.antState i s ma).host d.host ∧ KeptRcd (d.antState i s ma).rcd d.rcd ∧
    KeptTlg (d.antState i s ma).tlg d.tlg := by
  have h := (antState_spec d i s ma).1
  generalize d.antState i s ma = x at h ⊢
  have f {α : Type} (g : Dev → α) : g x.rest = g ({ d.rest with gns := (x).gns }) := congrArg g h
  exact ⟨f (·.now), f (·.snap), f (·.committedOnce), f (·.staged), f (·.ctrls), f (·.freeIx), f (·.tim), f (·.chutes), f (·.stp), f (·.air),
    f (·.chiselOut), f (·.ring), f (·.can), f (·.mtr), f (·.drk), f (·.dsp), f (·.pwr), f (·.peer), f (·.com), KeptCyc.of (f (·.cyc)),
    KeptHost.of (f (·.host)), KeptRcd.of (f (·.rcd)), KeptTlg.of (f (·.tlg))⟩

@[simp] theorem antState_rest (d : Dev) (i s ma : Nat) : (d.antState i s ma).rest =
    { d.rest with gns := (d.antState i s ma).gns } := by
  have h := (antState_spec d i s ma).1
  generalize d.antState i s ma = x at h ⊢
  have f {α : Type} (g : Dev → α) : g x.rest = g ({ d.rest with gns := (x).gns }) := congrArg g h
  exact dev_ext (f (·.now)) rfl (f (·.snap)) (f (·.committedOnce)) rfl (f (·.staged)) (f (·.ctrls)) rfl (f (·.freeIx)) (f (·.tim)) (f (·.cyc)) (f (·.host))
    (f (·.chutes)) (f (·.rcd)) (f (·.stp)) (f (·.air)) rfl (f (·.chiselOut)) (f (·.ring)) (f (·.can)) (f (·.mtr)) (f (·.drk)) (f (·.dsp))
    (f (·.tlg)) (f (·.pwr)) (f (·.peer)) (f (·.com))

theorem antState_reads (d : Dev) (i s ma : Nat) : ∀ id jq, reportItem id = false → id ≠ P.GNS_ANT_STATE →
    (d.antState i s ma).rd id jq = d.rd id jq ∧ (d.antState i s ma).isSticky id jq = d.isSticky id jq ∧ (d.antState i s ma).cf id jq = d.cf id jq := by
  intro id jq hr h0
  have h := (antState_spec d i s ma).2 id jq hr (by simp) (by simp [regKey_ne, h0, Ne.symm h0])
  have e : (d.antState i s ma).staged = d.staged := by simp
  refine ⟨h.1, h.2, ?_⟩
  simp only [Dev.cf, e, h.1]

theorem antState_at (d : Dev) (i s ma : Nat) : ∀ id jq, reportItem id = false  → regKey P.GNS_ANT_STATE i ≠ regKey id jq →
    (d.antState i s ma).rd id jq = d.rd id jq ∧ (d.antState i s ma).isSticky id jq = d.isSticky id jq ∧ (d.antState i s ma).cf id jq = d.cf id jq := by
  intro id jq hr h0
  have h := (antState_spec d i s ma).2 id jq hr (by simp) (by simp [h0])
  have e : (d.antState i s ma).staged = d.staged := by simp
  refine ⟨h.1, h.2, ?_⟩
  simp only [Dev.cf, e, h.1]

theorem itemsBut_antState {ids : List Nat} {ks : List (Nat × Nat)} (d e : Dev) (i s ma : Nat) (m0 : P.GNS_ANT_STATE ∈ ids ∨ (P.GNS_ANT_STATE, i) ∈ ks) :
    ItemsBut ids ks (d.antState i s ma) e ↔ ItemsBut ids ks d e :=
  itemsBut_congr ((antState_spec d i s ma).2.mono (by simp) (by simp [m0])) e

/-- A bias reading judged. -/
theorem judgeBias_spec (d : Dev) (i ma : Nat) : (d.judgeBias i ma).rest = { d.rest with gns := (d.judgeBias i ma).gns } ∧
    ItemsBut [] [(P.GNS_ANT_STATE, i), (P.GNS_ANT_MA, i), (P.GNS_ANT_SHORTS, i)] (d.judgeBias i ma) d := by
  unfold Dev.judgeBias
  try simp only []
  repeat' split
  all_goals
    exact ⟨by first | (simp [itemsBut_self, -judge_rest, judge_rest', -timeState_rest, timeState_rest', -takeSeq_rest, takeSeq_rest', -hold_rest, hold_rest', -admit_rest, admit_rest', -input_rest, input_rest', -offer_rest, offer_rest', -stopNotice_rest, stopNotice_rest', -stopEvent_rest, stopEvent_rest', -giveUp_rest, giveUp_rest', -verdict_rest, verdict_rest', -engineFault_rest, engineFault_rest', -ctr_rest, ctr_rest', -beginReset_rest, beginReset_rest', -imageKeep_rest, imageKeep_rest', -imageCopy_rest, imageCopy_rest']; done) | (simp [itemsBut_self, -judge_rest, judge_rest', -timeState_rest, timeState_rest', -takeSeq_rest, takeSeq_rest', -hold_rest, hold_rest', -admit_rest, admit_rest', -input_rest, input_rest', -offer_rest, offer_rest', -stopNotice_rest, stopNotice_rest', -stopEvent_rest, stopEvent_rest', -giveUp_rest, giveUp_rest', -verdict_rest, verdict_rest', -engineFault_rest, engineFault_rest', -ctr_rest, ctr_rest', -beginReset_rest, beginReset_rest', -imageKeep_rest, imageKeep_rest', -imageCopy_rest, imageCopy_rest']; repeat' (first | rfl | apply And.intro)) | rfl, by simp [itemsBut_wr, itemsBut_inc, itemsBut_addW, itemsBut_maxTo, itemsBut_wrS, itemsBut_judge, itemsBut_timeState, itemsBut_takeSeq, itemsBut_countIn, itemsBut_hold, itemsBut_admit, itemsBut_input, itemsBut_offer, itemsBut_stopNotice, itemsBut_stopEvent, itemsBut_giveUp, itemsBut_verdict, itemsBut_engineFault, itemsBut_ctr, itemsBut_dspTrace, itemsBut_bypass, itemsBut_bypassHw, itemsBut_beginReset, itemsBut_mtrFlush, itemsBut_imageKeep, itemsBut_imageCopy, itemsBut_antState]⟩

@[simp] theorem judgeBias_fields (d : Dev) (i ma : Nat) :
    (d.judgeBias i ma).now = d.now ∧ (d.judgeBias i ma).snap = d.snap ∧ (d.judgeBias i ma).committedOnce = d.committedOnce ∧
    (d.judgeBias i ma).staged = d.staged ∧ (d.judgeBias i ma).ctrls = d.ctrls ∧ (d.judgeBias i ma).freeIx = d.freeIx ∧
    (d.judgeBias i ma).tim = d.tim ∧ (d.judgeBias i ma).chutes = d.chutes ∧ (d.judgeBias i ma).stp = d.stp ∧ (d.judgeBias i ma).air = d.air ∧
    (d.judgeBias i ma).chiselOut = d.chiselOut ∧ (d.judgeBias i ma).ring = d.ring ∧ (d.judgeBias i ma).can = d.can ∧
    (d.judgeBias i ma).mtr = d.mtr ∧ (d.judgeBias i ma).drk = d.drk ∧ (d.judgeBias i ma).dsp = d.dsp ∧ (d.judgeBias i ma).pwr = d.pwr ∧
    (d.judgeBias i ma).peer = d.peer ∧ (d.judgeBias i ma).com = d.com ∧ KeptCyc (d.judgeBias i ma).cyc d.cyc ∧
    KeptHost (d.judgeBias i ma).host d.host ∧ KeptRcd (d.judgeBias i ma).rcd d.rcd ∧ KeptTlg (d.judgeBias i ma).tlg d.tlg := by
  have h := (judgeBias_spec d i ma).1
  generalize d.judgeBias i ma = x at h ⊢
  have f {α : Type} (g : Dev → α) : g x.rest = g ({ d.rest with gns := (x).gns }) := congrArg g h
  exact ⟨f (·.now), f (·.snap), f (·.committedOnce), f (·.staged), f (·.ctrls), f (·.freeIx), f (·.tim), f (·.chutes), f (·.stp), f (·.air),
    f (·.chiselOut), f (·.ring), f (·.can), f (·.mtr), f (·.drk), f (·.dsp), f (·.pwr), f (·.peer), f (·.com), KeptCyc.of (f (·.cyc)),
    KeptHost.of (f (·.host)), KeptRcd.of (f (·.rcd)), KeptTlg.of (f (·.tlg))⟩

@[simp] theorem judgeBias_rest (d : Dev) (i ma : Nat) : (d.judgeBias i ma).rest =
    { d.rest with gns := (d.judgeBias i ma).gns } := by
  have h := (judgeBias_spec d i ma).1
  generalize d.judgeBias i ma = x at h ⊢
  have f {α : Type} (g : Dev → α) : g x.rest = g ({ d.rest with gns := (x).gns }) := congrArg g h
  exact dev_ext (f (·.now)) rfl (f (·.snap)) (f (·.committedOnce)) rfl (f (·.staged)) (f (·.ctrls)) rfl (f (·.freeIx)) (f (·.tim)) (f (·.cyc)) (f (·.host))
    (f (·.chutes)) (f (·.rcd)) (f (·.stp)) (f (·.air)) rfl (f (·.chiselOut)) (f (·.ring)) (f (·.can)) (f (·.mtr)) (f (·.drk)) (f (·.dsp))
    (f (·.tlg)) (f (·.pwr)) (f (·.peer)) (f (·.com))

theorem judgeBias_reads (d : Dev) (i ma : Nat) : ∀ id jq, reportItem id = false → id ≠ P.GNS_ANT_STATE → id ≠ P.GNS_ANT_MA → id ≠ P.GNS_ANT_SHORTS →
    (d.judgeBias i ma).rd id jq = d.rd id jq ∧ (d.judgeBias i ma).isSticky id jq = d.isSticky id jq ∧ (d.judgeBias i ma).cf id jq = d.cf id jq := by
  intro id jq hr h0 h1 h2
  have h := (judgeBias_spec d i ma).2 id jq hr (by simp) (by simp [regKey_ne, h0, Ne.symm h0, h1, Ne.symm h1, h2, Ne.symm h2])
  have e : (d.judgeBias i ma).staged = d.staged := by simp
  refine ⟨h.1, h.2, ?_⟩
  simp only [Dev.cf, e, h.1]

theorem judgeBias_at (d : Dev) (i ma : Nat) : ∀ id jq, reportItem id = false  → regKey P.GNS_ANT_STATE i ≠ regKey id jq → regKey P.GNS_ANT_MA i ≠ regKey id jq → regKey P.GNS_ANT_SHORTS i ≠ regKey id jq →
    (d.judgeBias i ma).rd id jq = d.rd id jq ∧ (d.judgeBias i ma).isSticky id jq = d.isSticky id jq ∧ (d.judgeBias i ma).cf id jq = d.cf id jq := by
  intro id jq hr h0 h1 h2
  have h := (judgeBias_spec d i ma).2 id jq hr (by simp) (by simp [h0, h1, h2])
  have e : (d.judgeBias i ma).staged = d.staged := by simp
  refine ⟨h.1, h.2, ?_⟩
  simp only [Dev.cf, e, h.1]

theorem itemsBut_judgeBias {ids : List Nat} {ks : List (Nat × Nat)} (d e : Dev) (i ma : Nat) (m0 : P.GNS_ANT_STATE ∈ ids ∨ (P.GNS_ANT_STATE, i) ∈ ks) (m1 : P.GNS_ANT_MA ∈ ids ∨ (P.GNS_ANT_MA, i) ∈ ks) (m2 : P.GNS_ANT_SHORTS ∈ ids ∨ (P.GNS_ANT_SHORTS, i) ∈ ks) :
    ItemsBut ids ks (d.judgeBias i ma) e ↔ ItemsBut ids ks d e :=
  itemsBut_congr ((judgeBias_spec d i ma).2.mono (by simp) (by simp [m0, m1, m2])) e

/-- A change of a chain's state. -/
theorem chainState_spec (d : Dev) (c s cause : Nat) : (d.chainState c s cause).rest = { d.rest with gns := (d.chainState c s cause).gns } ∧
    ItemsBut [] [(P.GNS_CHAIN_STATE, c)] (d.chainState c s cause) d := by
  unfold Dev.chainState
  try simp only []
  repeat' split
  all_goals
    exact ⟨by first | (simp [itemsBut_self, -judge_rest, judge_rest', -timeState_rest, timeState_rest', -takeSeq_rest, takeSeq_rest', -hold_rest, hold_rest', -admit_rest, admit_rest', -input_rest, input_rest', -offer_rest, offer_rest', -stopNotice_rest, stopNotice_rest', -stopEvent_rest, stopEvent_rest', -giveUp_rest, giveUp_rest', -verdict_rest, verdict_rest', -engineFault_rest, engineFault_rest', -ctr_rest, ctr_rest', -beginReset_rest, beginReset_rest', -imageKeep_rest, imageKeep_rest', -imageCopy_rest, imageCopy_rest']; done) | (simp [itemsBut_self, -judge_rest, judge_rest', -timeState_rest, timeState_rest', -takeSeq_rest, takeSeq_rest', -hold_rest, hold_rest', -admit_rest, admit_rest', -input_rest, input_rest', -offer_rest, offer_rest', -stopNotice_rest, stopNotice_rest', -stopEvent_rest, stopEvent_rest', -giveUp_rest, giveUp_rest', -verdict_rest, verdict_rest', -engineFault_rest, engineFault_rest', -ctr_rest, ctr_rest', -beginReset_rest, beginReset_rest', -imageKeep_rest, imageKeep_rest', -imageCopy_rest, imageCopy_rest']; repeat' (first | rfl | apply And.intro)) | rfl, by simp [itemsBut_wr, itemsBut_inc, itemsBut_addW, itemsBut_maxTo, itemsBut_wrS, itemsBut_judge, itemsBut_timeState, itemsBut_takeSeq, itemsBut_countIn, itemsBut_hold, itemsBut_admit, itemsBut_input, itemsBut_offer, itemsBut_stopNotice, itemsBut_stopEvent, itemsBut_giveUp, itemsBut_verdict, itemsBut_engineFault, itemsBut_ctr, itemsBut_dspTrace, itemsBut_bypass, itemsBut_bypassHw, itemsBut_beginReset, itemsBut_mtrFlush, itemsBut_imageKeep, itemsBut_imageCopy, itemsBut_antState, itemsBut_judgeBias]⟩

@[simp] theorem chainState_fields (d : Dev) (c s cause : Nat) :
    (d.chainState c s cause).now = d.now ∧ (d.chainState c s cause).snap = d.snap ∧ (d.chainState c s cause).committedOnce = d.committedOnce ∧
    (d.chainState c s cause).staged = d.staged ∧ (d.chainState c s cause).ctrls = d.ctrls ∧ (d.chainState c s cause).freeIx = d.freeIx ∧
    (d.chainState c s cause).tim = d.tim ∧ (d.chainState c s cause).chutes = d.chutes ∧ (d.chainState c s cause).stp = d.stp ∧
    (d.chainState c s cause).air = d.air ∧ (d.chainState c s cause).chiselOut = d.chiselOut ∧ (d.chainState c s cause).ring = d.ring ∧
    (d.chainState c s cause).can = d.can ∧ (d.chainState c s cause).mtr = d.mtr ∧ (d.chainState c s cause).drk = d.drk ∧
    (d.chainState c s cause).dsp = d.dsp ∧ (d.chainState c s cause).pwr = d.pwr ∧ (d.chainState c s cause).peer = d.peer ∧
    (d.chainState c s cause).com = d.com ∧ KeptCyc (d.chainState c s cause).cyc d.cyc ∧ KeptHost (d.chainState c s cause).host d.host ∧
    KeptRcd (d.chainState c s cause).rcd d.rcd ∧ KeptTlg (d.chainState c s cause).tlg d.tlg := by
  have h := (chainState_spec d c s cause).1
  generalize d.chainState c s cause = x at h ⊢
  have f {α : Type} (g : Dev → α) : g x.rest = g ({ d.rest with gns := (x).gns }) := congrArg g h
  exact ⟨f (·.now), f (·.snap), f (·.committedOnce), f (·.staged), f (·.ctrls), f (·.freeIx), f (·.tim), f (·.chutes), f (·.stp), f (·.air),
    f (·.chiselOut), f (·.ring), f (·.can), f (·.mtr), f (·.drk), f (·.dsp), f (·.pwr), f (·.peer), f (·.com), KeptCyc.of (f (·.cyc)),
    KeptHost.of (f (·.host)), KeptRcd.of (f (·.rcd)), KeptTlg.of (f (·.tlg))⟩

@[simp] theorem chainState_rest (d : Dev) (c s cause : Nat) : (d.chainState c s cause).rest =
    { d.rest with gns := (d.chainState c s cause).gns } := by
  have h := (chainState_spec d c s cause).1
  generalize d.chainState c s cause = x at h ⊢
  have f {α : Type} (g : Dev → α) : g x.rest = g ({ d.rest with gns := (x).gns }) := congrArg g h
  exact dev_ext (f (·.now)) rfl (f (·.snap)) (f (·.committedOnce)) rfl (f (·.staged)) (f (·.ctrls)) rfl (f (·.freeIx)) (f (·.tim)) (f (·.cyc)) (f (·.host))
    (f (·.chutes)) (f (·.rcd)) (f (·.stp)) (f (·.air)) rfl (f (·.chiselOut)) (f (·.ring)) (f (·.can)) (f (·.mtr)) (f (·.drk)) (f (·.dsp))
    (f (·.tlg)) (f (·.pwr)) (f (·.peer)) (f (·.com))

theorem chainState_reads (d : Dev) (c s cause : Nat) : ∀ id jq, reportItem id = false → id ≠ P.GNS_CHAIN_STATE →
    (d.chainState c s cause).rd id jq = d.rd id jq ∧ (d.chainState c s cause).isSticky id jq = d.isSticky id jq ∧ (d.chainState c s cause).cf id jq = d.cf id jq := by
  intro id jq hr h0
  have h := (chainState_spec d c s cause).2 id jq hr (by simp) (by simp [regKey_ne, h0, Ne.symm h0])
  have e : (d.chainState c s cause).staged = d.staged := by simp
  refine ⟨h.1, h.2, ?_⟩
  simp only [Dev.cf, e, h.1]

theorem chainState_at (d : Dev) (c s cause : Nat) : ∀ id jq, reportItem id = false  → regKey P.GNS_CHAIN_STATE c ≠ regKey id jq →
    (d.chainState c s cause).rd id jq = d.rd id jq ∧ (d.chainState c s cause).isSticky id jq = d.isSticky id jq ∧ (d.chainState c s cause).cf id jq = d.cf id jq := by
  intro id jq hr h0
  have h := (chainState_spec d c s cause).2 id jq hr (by simp) (by simp [h0])
  have e : (d.chainState c s cause).staged = d.staged := by simp
  refine ⟨h.1, h.2, ?_⟩
  simp only [Dev.cf, e, h.1]

theorem itemsBut_chainState {ids : List Nat} {ks : List (Nat × Nat)} (d e : Dev) (c s cause : Nat) (m0 : P.GNS_CHAIN_STATE ∈ ids ∨ (P.GNS_CHAIN_STATE, c) ∈ ks) :
    ItemsBut ids ks (d.chainState c s cause) e ↔ ItemsBut ids ks d e :=
  itemsBut_congr ((chainState_spec d c s cause).2.mono (by simp) (by simp [m0])) e

/-- A tile's load shown. -/
theorem showTile_spec (d : Dev) (tile : Nat) : (d.showTile tile).rest = d.rest ∧
    ItemsBut [] [(P.TRK_TILE_LOAD, tile), (P.TRK_TILE_CHANS, tile)] (d.showTile tile) d := by
  unfold Dev.showTile
  try simp only []
  repeat' split
  all_goals
    exact ⟨by first | (simp [itemsBut_self, -judge_rest, judge_rest', -timeState_rest, timeState_rest', -takeSeq_rest, takeSeq_rest', -hold_rest, hold_rest', -admit_rest, admit_rest', -input_rest, input_rest', -offer_rest, offer_rest', -stopNotice_rest, stopNotice_rest', -stopEvent_rest, stopEvent_rest', -giveUp_rest, giveUp_rest', -verdict_rest, verdict_rest', -engineFault_rest, engineFault_rest', -ctr_rest, ctr_rest', -beginReset_rest, beginReset_rest', -imageKeep_rest, imageKeep_rest', -imageCopy_rest, imageCopy_rest']; done) | (simp [itemsBut_self, -judge_rest, judge_rest', -timeState_rest, timeState_rest', -takeSeq_rest, takeSeq_rest', -hold_rest, hold_rest', -admit_rest, admit_rest', -input_rest, input_rest', -offer_rest, offer_rest', -stopNotice_rest, stopNotice_rest', -stopEvent_rest, stopEvent_rest', -giveUp_rest, giveUp_rest', -verdict_rest, verdict_rest', -engineFault_rest, engineFault_rest', -ctr_rest, ctr_rest', -beginReset_rest, beginReset_rest', -imageKeep_rest, imageKeep_rest', -imageCopy_rest, imageCopy_rest']; repeat' (first | rfl | apply And.intro)) | rfl, by simp [itemsBut_wr, itemsBut_inc, itemsBut_addW, itemsBut_maxTo, itemsBut_wrS, itemsBut_judge, itemsBut_timeState, itemsBut_takeSeq, itemsBut_countIn, itemsBut_hold, itemsBut_admit, itemsBut_input, itemsBut_offer, itemsBut_stopNotice, itemsBut_stopEvent, itemsBut_giveUp, itemsBut_verdict, itemsBut_engineFault, itemsBut_ctr, itemsBut_dspTrace, itemsBut_bypass, itemsBut_bypassHw, itemsBut_beginReset, itemsBut_mtrFlush, itemsBut_imageKeep, itemsBut_imageCopy, itemsBut_antState, itemsBut_judgeBias, itemsBut_chainState]⟩

@[simp] theorem showTile_fields (d : Dev) (tile : Nat) :
    (d.showTile tile).now = d.now ∧ (d.showTile tile).snap = d.snap ∧ (d.showTile tile).committedOnce = d.committedOnce ∧
    (d.showTile tile).staged = d.staged ∧ (d.showTile tile).ctrls = d.ctrls ∧ (d.showTile tile).freeIx = d.freeIx ∧
    (d.showTile tile).tim = d.tim ∧ (d.showTile tile).chutes = d.chutes ∧ (d.showTile tile).stp = d.stp ∧ (d.showTile tile).air = d.air ∧
    (d.showTile tile).gns = d.gns ∧ (d.showTile tile).chiselOut = d.chiselOut ∧ (d.showTile tile).ring = d.ring ∧
    (d.showTile tile).can = d.can ∧ (d.showTile tile).mtr = d.mtr ∧ (d.showTile tile).drk = d.drk ∧ (d.showTile tile).dsp = d.dsp ∧
    (d.showTile tile).pwr = d.pwr ∧ (d.showTile tile).peer = d.peer ∧ (d.showTile tile).com = d.com ∧ KeptCyc (d.showTile tile).cyc d.cyc ∧
    KeptHost (d.showTile tile).host d.host ∧ KeptRcd (d.showTile tile).rcd d.rcd ∧ KeptTlg (d.showTile tile).tlg d.tlg := by
  have h := (showTile_spec d tile).1
  generalize d.showTile tile = x at h ⊢
  have f {α : Type} (g : Dev → α) : g x.rest = g (d.rest) := congrArg g h
  exact ⟨f (·.now), f (·.snap), f (·.committedOnce), f (·.staged), f (·.ctrls), f (·.freeIx), f (·.tim), f (·.chutes), f (·.stp), f (·.air),
    f (·.gns), f (·.chiselOut), f (·.ring), f (·.can), f (·.mtr), f (·.drk), f (·.dsp), f (·.pwr), f (·.peer), f (·.com),
    KeptCyc.of (f (·.cyc)), KeptHost.of (f (·.host)), KeptRcd.of (f (·.rcd)), KeptTlg.of (f (·.tlg))⟩

@[simp] theorem showTile_rest (d : Dev) (tile : Nat) : (d.showTile tile).rest =
    d.rest := by
  have h := (showTile_spec d tile).1
  generalize d.showTile tile = x at h ⊢
  have f {α : Type} (g : Dev → α) : g x.rest = g (d.rest) := congrArg g h
  exact dev_ext (f (·.now)) rfl (f (·.snap)) (f (·.committedOnce)) rfl (f (·.staged)) (f (·.ctrls)) rfl (f (·.freeIx)) (f (·.tim)) (f (·.cyc)) (f (·.host))
    (f (·.chutes)) (f (·.rcd)) (f (·.stp)) (f (·.air)) (f (·.gns)) (f (·.chiselOut)) (f (·.ring)) (f (·.can)) (f (·.mtr)) (f (·.drk))
    (f (·.dsp)) (f (·.tlg)) (f (·.pwr)) (f (·.peer)) (f (·.com))

theorem showTile_reads (d : Dev) (tile : Nat) : ∀ id jq, reportItem id = false → id ≠ P.TRK_TILE_LOAD → id ≠ P.TRK_TILE_CHANS →
    (d.showTile tile).rd id jq = d.rd id jq ∧ (d.showTile tile).isSticky id jq = d.isSticky id jq ∧ (d.showTile tile).cf id jq = d.cf id jq := by
  intro id jq hr h0 h1
  have h := (showTile_spec d tile).2 id jq hr (by simp) (by simp [regKey_ne, h0, Ne.symm h0, h1, Ne.symm h1])
  have e : (d.showTile tile).staged = d.staged := by simp
  refine ⟨h.1, h.2, ?_⟩
  simp only [Dev.cf, e, h.1]

theorem showTile_at (d : Dev) (tile : Nat) : ∀ id jq, reportItem id = false  → regKey P.TRK_TILE_LOAD tile ≠ regKey id jq → regKey P.TRK_TILE_CHANS tile ≠ regKey id jq →
    (d.showTile tile).rd id jq = d.rd id jq ∧ (d.showTile tile).isSticky id jq = d.isSticky id jq ∧ (d.showTile tile).cf id jq = d.cf id jq := by
  intro id jq hr h0 h1
  have h := (showTile_spec d tile).2 id jq hr (by simp) (by simp [h0, h1])
  have e : (d.showTile tile).staged = d.staged := by simp
  refine ⟨h.1, h.2, ?_⟩
  simp only [Dev.cf, e, h.1]

theorem itemsBut_showTile {ids : List Nat} {ks : List (Nat × Nat)} (d e : Dev) (tile : Nat) (m0 : P.TRK_TILE_LOAD ∈ ids ∨ (P.TRK_TILE_LOAD, tile) ∈ ks) (m1 : P.TRK_TILE_CHANS ∈ ids ∨ (P.TRK_TILE_CHANS, tile) ∈ ks) :
    ItemsBut ids ks (d.showTile tile) e ↔ ItemsBut ids ks d e :=
  itemsBut_congr ((showTile_spec d tile).2.mono (by simp) (by simp [m0, m1])) e

/-- A channel's record replaced. -/
theorem putChan_spec (d : Dev) (x : Chan) : (d.putChan x).rest = { d.rest with gns := (d.putChan x).gns } ∧
    ItemsBut [] [(P.TRK_CHAN_STATE, x.c), (P.TRK_CHAN_SIG, x.c)] (d.putChan x) d := by
  unfold Dev.putChan
  try simp only []
  repeat' split
  all_goals
    exact ⟨by first | (simp [itemsBut_self, -judge_rest, judge_rest', -timeState_rest, timeState_rest', -takeSeq_rest, takeSeq_rest', -hold_rest, hold_rest', -admit_rest, admit_rest', -input_rest, input_rest', -offer_rest, offer_rest', -stopNotice_rest, stopNotice_rest', -stopEvent_rest, stopEvent_rest', -giveUp_rest, giveUp_rest', -verdict_rest, verdict_rest', -engineFault_rest, engineFault_rest', -ctr_rest, ctr_rest', -beginReset_rest, beginReset_rest', -imageKeep_rest, imageKeep_rest', -imageCopy_rest, imageCopy_rest']; done) | (simp [itemsBut_self, -judge_rest, judge_rest', -timeState_rest, timeState_rest', -takeSeq_rest, takeSeq_rest', -hold_rest, hold_rest', -admit_rest, admit_rest', -input_rest, input_rest', -offer_rest, offer_rest', -stopNotice_rest, stopNotice_rest', -stopEvent_rest, stopEvent_rest', -giveUp_rest, giveUp_rest', -verdict_rest, verdict_rest', -engineFault_rest, engineFault_rest', -ctr_rest, ctr_rest', -beginReset_rest, beginReset_rest', -imageKeep_rest, imageKeep_rest', -imageCopy_rest, imageCopy_rest']; repeat' (first | rfl | apply And.intro)) | rfl, by simp [itemsBut_wr, itemsBut_inc, itemsBut_addW, itemsBut_maxTo, itemsBut_wrS, itemsBut_judge, itemsBut_timeState, itemsBut_takeSeq, itemsBut_countIn, itemsBut_hold, itemsBut_admit, itemsBut_input, itemsBut_offer, itemsBut_stopNotice, itemsBut_stopEvent, itemsBut_giveUp, itemsBut_verdict, itemsBut_engineFault, itemsBut_ctr, itemsBut_dspTrace, itemsBut_bypass, itemsBut_bypassHw, itemsBut_beginReset, itemsBut_mtrFlush, itemsBut_imageKeep, itemsBut_imageCopy, itemsBut_antState, itemsBut_judgeBias, itemsBut_chainState, itemsBut_showTile]⟩

@[simp] theorem putChan_fields (d : Dev) (x : Chan) :
    (d.putChan x).now = d.now ∧ (d.putChan x).snap = d.snap ∧ (d.putChan x).committedOnce = d.committedOnce ∧ (d.putChan x).staged = d.staged ∧
    (d.putChan x).ctrls = d.ctrls ∧ (d.putChan x).freeIx = d.freeIx ∧ (d.putChan x).tim = d.tim ∧ (d.putChan x).chutes = d.chutes ∧
    (d.putChan x).stp = d.stp ∧ (d.putChan x).air = d.air ∧ (d.putChan x).chiselOut = d.chiselOut ∧ (d.putChan x).ring = d.ring ∧
    (d.putChan x).can = d.can ∧ (d.putChan x).mtr = d.mtr ∧ (d.putChan x).drk = d.drk ∧ (d.putChan x).dsp = d.dsp ∧ (d.putChan x).pwr = d.pwr ∧
    (d.putChan x).peer = d.peer ∧ (d.putChan x).com = d.com ∧ KeptCyc (d.putChan x).cyc d.cyc ∧ KeptHost (d.putChan x).host d.host ∧
    KeptRcd (d.putChan x).rcd d.rcd ∧ KeptTlg (d.putChan x).tlg d.tlg := by
  have h := (putChan_spec d x).1
  generalize d.putChan x = x at h ⊢
  have f {α : Type} (g : Dev → α) : g x.rest = g ({ d.rest with gns := (x).gns }) := congrArg g h
  exact ⟨f (·.now), f (·.snap), f (·.committedOnce), f (·.staged), f (·.ctrls), f (·.freeIx), f (·.tim), f (·.chutes), f (·.stp), f (·.air),
    f (·.chiselOut), f (·.ring), f (·.can), f (·.mtr), f (·.drk), f (·.dsp), f (·.pwr), f (·.peer), f (·.com), KeptCyc.of (f (·.cyc)),
    KeptHost.of (f (·.host)), KeptRcd.of (f (·.rcd)), KeptTlg.of (f (·.tlg))⟩

@[simp] theorem putChan_rest (d : Dev) (x : Chan) : (d.putChan x).rest =
    { d.rest with gns := (d.putChan x).gns } := by
  have h := (putChan_spec d x).1
  generalize d.putChan x = x at h ⊢
  have f {α : Type} (g : Dev → α) : g x.rest = g ({ d.rest with gns := (x).gns }) := congrArg g h
  exact dev_ext (f (·.now)) rfl (f (·.snap)) (f (·.committedOnce)) rfl (f (·.staged)) (f (·.ctrls)) rfl (f (·.freeIx)) (f (·.tim)) (f (·.cyc)) (f (·.host))
    (f (·.chutes)) (f (·.rcd)) (f (·.stp)) (f (·.air)) rfl (f (·.chiselOut)) (f (·.ring)) (f (·.can)) (f (·.mtr)) (f (·.drk)) (f (·.dsp))
    (f (·.tlg)) (f (·.pwr)) (f (·.peer)) (f (·.com))

theorem putChan_reads (d : Dev) (x : Chan) : ∀ id jq, reportItem id = false → id ≠ P.TRK_CHAN_STATE → id ≠ P.TRK_CHAN_SIG →
    (d.putChan x).rd id jq = d.rd id jq ∧ (d.putChan x).isSticky id jq = d.isSticky id jq ∧ (d.putChan x).cf id jq = d.cf id jq := by
  intro id jq hr h0 h1
  have h := (putChan_spec d x).2 id jq hr (by simp) (by simp [regKey_ne, h0, Ne.symm h0, h1, Ne.symm h1])
  have e : (d.putChan x).staged = d.staged := by simp
  refine ⟨h.1, h.2, ?_⟩
  simp only [Dev.cf, e, h.1]

theorem putChan_at (d : Dev) (x : Chan) : ∀ id jq, reportItem id = false  → regKey P.TRK_CHAN_STATE x.c ≠ regKey id jq → regKey P.TRK_CHAN_SIG x.c ≠ regKey id jq →
    (d.putChan x).rd id jq = d.rd id jq ∧ (d.putChan x).isSticky id jq = d.isSticky id jq ∧ (d.putChan x).cf id jq = d.cf id jq := by
  intro id jq hr h0 h1
  have h := (putChan_spec d x).2 id jq hr (by simp) (by simp [h0, h1])
  have e : (d.putChan x).staged = d.staged := by simp
  refine ⟨h.1, h.2, ?_⟩
  simp only [Dev.cf, e, h.1]

theorem itemsBut_putChan {ids : List Nat} {ks : List (Nat × Nat)} (d e : Dev) (x : Chan) (m0 : P.TRK_CHAN_STATE ∈ ids ∨ (P.TRK_CHAN_STATE, x.c) ∈ ks) (m1 : P.TRK_CHAN_SIG ∈ ids ∨ (P.TRK_CHAN_SIG, x.c) ∈ ks) :
    ItemsBut ids ks (d.putChan x) e ↔ ItemsBut ids ks d e :=
  itemsBut_congr ((putChan_spec d x).2.mono (by simp) (by simp [m0, m1])) e

/-- A channel becomes FREE. -/
theorem freeChan_spec (d : Dev) (c : Nat) : (d.freeChan c).rest = { d.rest with gns := (d.freeChan c).gns } ∧
    ItemsBut [] [(P.TRK_CHAN_STATE, c), (P.TRK_CHAN_SIG, c), (P.TRK_CHAN_CN0, c), (P.TRK_TILE_LOAD, c / 48), (P.TRK_TILE_CHANS, c / 48)] (d.freeChan c) d := by
  unfold Dev.freeChan
  try simp only []
  repeat' split
  all_goals
    exact ⟨by first | (simp [itemsBut_self, -judge_rest, judge_rest', -timeState_rest, timeState_rest', -takeSeq_rest, takeSeq_rest', -hold_rest, hold_rest', -admit_rest, admit_rest', -input_rest, input_rest', -offer_rest, offer_rest', -stopNotice_rest, stopNotice_rest', -stopEvent_rest, stopEvent_rest', -giveUp_rest, giveUp_rest', -verdict_rest, verdict_rest', -engineFault_rest, engineFault_rest', -ctr_rest, ctr_rest', -beginReset_rest, beginReset_rest', -imageKeep_rest, imageKeep_rest', -imageCopy_rest, imageCopy_rest']; done) | (simp [itemsBut_self, -judge_rest, judge_rest', -timeState_rest, timeState_rest', -takeSeq_rest, takeSeq_rest', -hold_rest, hold_rest', -admit_rest, admit_rest', -input_rest, input_rest', -offer_rest, offer_rest', -stopNotice_rest, stopNotice_rest', -stopEvent_rest, stopEvent_rest', -giveUp_rest, giveUp_rest', -verdict_rest, verdict_rest', -engineFault_rest, engineFault_rest', -ctr_rest, ctr_rest', -beginReset_rest, beginReset_rest', -imageKeep_rest, imageKeep_rest', -imageCopy_rest, imageCopy_rest']; repeat' (first | rfl | apply And.intro)) | rfl, by simp [itemsBut_wr, itemsBut_inc, itemsBut_addW, itemsBut_maxTo, itemsBut_wrS, itemsBut_judge, itemsBut_timeState, itemsBut_takeSeq, itemsBut_countIn, itemsBut_hold, itemsBut_admit, itemsBut_input, itemsBut_offer, itemsBut_stopNotice, itemsBut_stopEvent, itemsBut_giveUp, itemsBut_verdict, itemsBut_engineFault, itemsBut_ctr, itemsBut_dspTrace, itemsBut_bypass, itemsBut_bypassHw, itemsBut_beginReset, itemsBut_mtrFlush, itemsBut_imageKeep, itemsBut_imageCopy, itemsBut_antState, itemsBut_judgeBias, itemsBut_chainState, itemsBut_showTile, itemsBut_putChan]⟩

@[simp] theorem freeChan_fields (d : Dev) (c : Nat) :
    (d.freeChan c).now = d.now ∧ (d.freeChan c).snap = d.snap ∧ (d.freeChan c).committedOnce = d.committedOnce ∧
    (d.freeChan c).staged = d.staged ∧ (d.freeChan c).ctrls = d.ctrls ∧ (d.freeChan c).freeIx = d.freeIx ∧ (d.freeChan c).tim = d.tim ∧
    (d.freeChan c).chutes = d.chutes ∧ (d.freeChan c).stp = d.stp ∧ (d.freeChan c).air = d.air ∧ (d.freeChan c).chiselOut = d.chiselOut ∧
    (d.freeChan c).ring = d.ring ∧ (d.freeChan c).can = d.can ∧ (d.freeChan c).mtr = d.mtr ∧ (d.freeChan c).drk = d.drk ∧
    (d.freeChan c).dsp = d.dsp ∧ (d.freeChan c).pwr = d.pwr ∧ (d.freeChan c).peer = d.peer ∧ (d.freeChan c).com = d.com ∧
    KeptCyc (d.freeChan c).cyc d.cyc ∧ KeptHost (d.freeChan c).host d.host ∧ KeptRcd (d.freeChan c).rcd d.rcd ∧ KeptTlg (d.freeChan c).tlg d.tlg := by
  have h := (freeChan_spec d c).1
  generalize d.freeChan c = x at h ⊢
  have f {α : Type} (g : Dev → α) : g x.rest = g ({ d.rest with gns := (x).gns }) := congrArg g h
  exact ⟨f (·.now), f (·.snap), f (·.committedOnce), f (·.staged), f (·.ctrls), f (·.freeIx), f (·.tim), f (·.chutes), f (·.stp), f (·.air),
    f (·.chiselOut), f (·.ring), f (·.can), f (·.mtr), f (·.drk), f (·.dsp), f (·.pwr), f (·.peer), f (·.com), KeptCyc.of (f (·.cyc)),
    KeptHost.of (f (·.host)), KeptRcd.of (f (·.rcd)), KeptTlg.of (f (·.tlg))⟩

@[simp] theorem freeChan_rest (d : Dev) (c : Nat) : (d.freeChan c).rest =
    { d.rest with gns := (d.freeChan c).gns } := by
  have h := (freeChan_spec d c).1
  generalize d.freeChan c = x at h ⊢
  have f {α : Type} (g : Dev → α) : g x.rest = g ({ d.rest with gns := (x).gns }) := congrArg g h
  exact dev_ext (f (·.now)) rfl (f (·.snap)) (f (·.committedOnce)) rfl (f (·.staged)) (f (·.ctrls)) rfl (f (·.freeIx)) (f (·.tim)) (f (·.cyc)) (f (·.host))
    (f (·.chutes)) (f (·.rcd)) (f (·.stp)) (f (·.air)) rfl (f (·.chiselOut)) (f (·.ring)) (f (·.can)) (f (·.mtr)) (f (·.drk)) (f (·.dsp))
    (f (·.tlg)) (f (·.pwr)) (f (·.peer)) (f (·.com))

theorem freeChan_reads (d : Dev) (c : Nat) : ∀ id jq, reportItem id = false → id ≠ P.TRK_CHAN_STATE → id ≠ P.TRK_CHAN_SIG → id ≠ P.TRK_CHAN_CN0 → id ≠ P.TRK_TILE_LOAD → id ≠ P.TRK_TILE_CHANS →
    (d.freeChan c).rd id jq = d.rd id jq ∧ (d.freeChan c).isSticky id jq = d.isSticky id jq ∧ (d.freeChan c).cf id jq = d.cf id jq := by
  intro id jq hr h0 h1 h2 h3 h4
  have h := (freeChan_spec d c).2 id jq hr (by simp) (by simp [regKey_ne, h0, Ne.symm h0, h1, Ne.symm h1, h2, Ne.symm h2, h3, Ne.symm h3, h4, Ne.symm h4])
  have e : (d.freeChan c).staged = d.staged := by simp
  refine ⟨h.1, h.2, ?_⟩
  simp only [Dev.cf, e, h.1]

theorem freeChan_at (d : Dev) (c : Nat) : ∀ id jq, reportItem id = false  → regKey P.TRK_CHAN_STATE c ≠ regKey id jq → regKey P.TRK_CHAN_SIG c ≠ regKey id jq → regKey P.TRK_CHAN_CN0 c ≠ regKey id jq → regKey P.TRK_TILE_LOAD (c / 48) ≠ regKey id jq → regKey P.TRK_TILE_CHANS (c / 48) ≠ regKey id jq →
    (d.freeChan c).rd id jq = d.rd id jq ∧ (d.freeChan c).isSticky id jq = d.isSticky id jq ∧ (d.freeChan c).cf id jq = d.cf id jq := by
  intro id jq hr h0 h1 h2 h3 h4
  have h := (freeChan_spec d c).2 id jq hr (by simp) (by simp [h0, h1, h2, h3, h4])
  have e : (d.freeChan c).staged = d.staged := by simp
  refine ⟨h.1, h.2, ?_⟩
  simp only [Dev.cf, e, h.1]

theorem itemsBut_freeChan {ids : List Nat} {ks : List (Nat × Nat)} (d e : Dev) (c : Nat) (m0 : P.TRK_CHAN_STATE ∈ ids ∨ (P.TRK_CHAN_STATE, c) ∈ ks) (m1 : P.TRK_CHAN_SIG ∈ ids ∨ (P.TRK_CHAN_SIG, c) ∈ ks) (m2 : P.TRK_CHAN_CN0 ∈ ids ∨ (P.TRK_CHAN_CN0, c) ∈ ks) (m3 : P.TRK_TILE_LOAD ∈ ids ∨ (P.TRK_TILE_LOAD, c / 48) ∈ ks) (m4 : P.TRK_TILE_CHANS ∈ ids ∨ (P.TRK_TILE_CHANS, c / 48) ∈ ks) :
    ItemsBut ids ks (d.freeChan c) e ↔ ItemsBut ids ks d e :=
  itemsBut_congr ((freeChan_spec d c).2.mono (by simp) (by simp [m0, m1, m2, m3, m4])) e

/-- Channels become FREE. -/
theorem freeWhere_spec (d : Dev) (p : Chan → Bool) : (d.freeWhere p).rest = { d.rest with gns := (d.freeWhere p).gns } ∧
    ItemsBut [P.TRK_CHAN_STATE, P.TRK_CHAN_SIG, P.TRK_CHAN_CN0, P.TRK_TILE_LOAD, P.TRK_TILE_CHANS] [] (d.freeWhere p) d := by
  unfold Dev.freeWhere
  have s := fun (x : Dev) a => And.intro (freeChan_spec x (Chan.c a)).1 ((freeChan_spec x (Chan.c a)).2.mono (by simp) (by simp) : ItemsBut [P.TRK_CHAN_STATE, P.TRK_CHAN_SIG, P.TRK_CHAN_CN0, P.TRK_TILE_LOAD, P.TRK_TILE_CHANS] [] _ _)
  refine ⟨?_, fold_items _ (fun x a => (s x a).2) _ _⟩
  have h := foldl_keeps (fun x : Dev => ({ x.rest with gns := default } : Dev)) (fun x a => x.freeChan (Chan.c a)) (fun x a => by simp only [(s x a).1])
  exact congrArg (fun x : Dev => ({ x with gns := _ } : Dev)) (h _ _)

@[simp] theorem freeWhere_fields (d : Dev) (p : Chan → Bool) :
    (d.freeWhere p).now = d.now ∧ (d.freeWhere p).snap = d.snap ∧ (d.freeWhere p).committedOnce = d.committedOnce ∧
    (d.freeWhere p).staged = d.staged ∧ (d.freeWhere p).ctrls = d.ctrls ∧ (d.freeWhere p).freeIx = d.freeIx ∧ (d.freeWhere p).tim = d.tim ∧
    (d.freeWhere p).chutes = d.chutes ∧ (d.freeWhere p).stp = d.stp ∧ (d.freeWhere p).air = d.air ∧ (d.freeWhere p).chiselOut = d.chiselOut ∧
    (d.freeWhere p).ring = d.ring ∧ (d.freeWhere p).can = d.can ∧ (d.freeWhere p).mtr = d.mtr ∧ (d.freeWhere p).drk = d.drk ∧
    (d.freeWhere p).dsp = d.dsp ∧ (d.freeWhere p).pwr = d.pwr ∧ (d.freeWhere p).peer = d.peer ∧ (d.freeWhere p).com = d.com ∧
    KeptCyc (d.freeWhere p).cyc d.cyc ∧ KeptHost (d.freeWhere p).host d.host ∧ KeptRcd (d.freeWhere p).rcd d.rcd ∧
    KeptTlg (d.freeWhere p).tlg d.tlg := by
  have h := (freeWhere_spec d p).1
  generalize d.freeWhere p = x at h ⊢
  have f {α : Type} (g : Dev → α) : g x.rest = g ({ d.rest with gns := (x).gns }) := congrArg g h
  exact ⟨f (·.now), f (·.snap), f (·.committedOnce), f (·.staged), f (·.ctrls), f (·.freeIx), f (·.tim), f (·.chutes), f (·.stp), f (·.air),
    f (·.chiselOut), f (·.ring), f (·.can), f (·.mtr), f (·.drk), f (·.dsp), f (·.pwr), f (·.peer), f (·.com), KeptCyc.of (f (·.cyc)),
    KeptHost.of (f (·.host)), KeptRcd.of (f (·.rcd)), KeptTlg.of (f (·.tlg))⟩

@[simp] theorem freeWhere_rest (d : Dev) (p : Chan → Bool) : (d.freeWhere p).rest =
    { d.rest with gns := (d.freeWhere p).gns } := by
  have h := (freeWhere_spec d p).1
  generalize d.freeWhere p = x at h ⊢
  have f {α : Type} (g : Dev → α) : g x.rest = g ({ d.rest with gns := (x).gns }) := congrArg g h
  exact dev_ext (f (·.now)) rfl (f (·.snap)) (f (·.committedOnce)) rfl (f (·.staged)) (f (·.ctrls)) rfl (f (·.freeIx)) (f (·.tim)) (f (·.cyc)) (f (·.host))
    (f (·.chutes)) (f (·.rcd)) (f (·.stp)) (f (·.air)) rfl (f (·.chiselOut)) (f (·.ring)) (f (·.can)) (f (·.mtr)) (f (·.drk)) (f (·.dsp))
    (f (·.tlg)) (f (·.pwr)) (f (·.peer)) (f (·.com))

theorem freeWhere_reads (d : Dev) (p : Chan → Bool) : ∀ id jq, reportItem id = false → id ≠ P.TRK_CHAN_STATE → id ≠ P.TRK_CHAN_SIG → id ≠ P.TRK_CHAN_CN0 → id ≠ P.TRK_TILE_LOAD → id ≠ P.TRK_TILE_CHANS →
    (d.freeWhere p).rd id jq = d.rd id jq ∧ (d.freeWhere p).isSticky id jq = d.isSticky id jq ∧ (d.freeWhere p).cf id jq = d.cf id jq := by
  intro id jq hr h0 h1 h2 h3 h4
  have h := (freeWhere_spec d p).2 id jq hr (by simp [h0, Ne.symm h0, h1, Ne.symm h1, h2, Ne.symm h2, h3, Ne.symm h3, h4, Ne.symm h4]) (by simp)
  have e : (d.freeWhere p).staged = d.staged := by simp
  refine ⟨h.1, h.2, ?_⟩
  simp only [Dev.cf, e, h.1]

theorem itemsBut_freeWhere {ids : List Nat} {ks : List (Nat × Nat)} (d e : Dev) (p : Chan → Bool) (m0 : P.TRK_CHAN_STATE ∈ ids) (m1 : P.TRK_CHAN_SIG ∈ ids) (m2 : P.TRK_CHAN_CN0 ∈ ids) (m3 : P.TRK_TILE_LOAD ∈ ids) (m4 : P.TRK_TILE_CHANS ∈ ids) :
    ItemsBut ids ks (d.freeWhere p) e ↔ ItemsBut ids ks d e :=
  itemsBut_congr ((freeWhere_spec d p).2.mono (by simp [m0, m1, m2, m3, m4]) (by simp)) e

/-- Channels that are freed are gone, and no other channel comes. -/
theorem freeWhere_gone (d : Dev) (p : Chan → Bool) : ∀ x ∈ (d.freeWhere p).gns.chans, x ∈ d.gns.chans ∧ p x = false := by
  have e (d : Dev) (c : Nat) : (d.freeChan c).gns.chans = d.gns.chans.filter (·.c != c) := rfl
  have g (l : List Chan) : ∀ (d : Dev) (x : Chan), x ∈ (l.foldl (fun d x => d.freeChan x.c) d).gns.chans ↔ x ∈ d.gns.chans ∧ ∀ y ∈ l, x.c ≠ y.c := by
    induction l with
    | nil => intro d x; simp
    | cons a l ih => intro d x; simp only [List.foldl_cons, ih, e, List.mem_filter, List.mem_cons, forall_eq_or_imp]; simp [and_assoc]
  intro x hx
  have h := (g _ d x).1 hx
  refine ⟨h.1, ?_⟩
  cases hp : p x with
  | false => rfl
  | true => exact absurd rfl (h.2 x (List.mem_filter.2 ⟨h.1, hp⟩))

/-- A channel enabled, or refused. -/
theorem enableChan_spec (d : Dev) (c ant sig sat : Nat) : (d.enableChan c ant sig sat).rest = { d.rest with gns := (d.enableChan c ant sig sat).gns } ∧
    ItemsBut [P.TRK_CHAN_STATE, P.TRK_CHAN_SIG, P.TRK_CHAN_CN0, P.TRK_TILE_LOAD, P.TRK_TILE_CHANS] [(P.TRK_BUDGET_REFUSED, 0)] (d.enableChan c ant sig sat) d := by
  unfold Dev.enableChan
  try simp only []
  repeat' split
  all_goals
    exact ⟨by first | (simp [itemsBut_self, -judge_rest, judge_rest', -timeState_rest, timeState_rest', -takeSeq_rest, takeSeq_rest', -hold_rest, hold_rest', -admit_rest, admit_rest', -input_rest, input_rest', -offer_rest, offer_rest', -stopNotice_rest, stopNotice_rest', -stopEvent_rest, stopEvent_rest', -giveUp_rest, giveUp_rest', -verdict_rest, verdict_rest', -engineFault_rest, engineFault_rest', -ctr_rest, ctr_rest', -beginReset_rest, beginReset_rest', -imageKeep_rest, imageKeep_rest', -imageCopy_rest, imageCopy_rest']; done) | (simp [itemsBut_self, -judge_rest, judge_rest', -timeState_rest, timeState_rest', -takeSeq_rest, takeSeq_rest', -hold_rest, hold_rest', -admit_rest, admit_rest', -input_rest, input_rest', -offer_rest, offer_rest', -stopNotice_rest, stopNotice_rest', -stopEvent_rest, stopEvent_rest', -giveUp_rest, giveUp_rest', -verdict_rest, verdict_rest', -engineFault_rest, engineFault_rest', -ctr_rest, ctr_rest', -beginReset_rest, beginReset_rest', -imageKeep_rest, imageKeep_rest', -imageCopy_rest, imageCopy_rest']; repeat' (first | rfl | apply And.intro)) | rfl, by simp [itemsBut_wr, itemsBut_inc, itemsBut_addW, itemsBut_maxTo, itemsBut_wrS, itemsBut_judge, itemsBut_timeState, itemsBut_takeSeq, itemsBut_countIn, itemsBut_hold, itemsBut_admit, itemsBut_input, itemsBut_offer, itemsBut_stopNotice, itemsBut_stopEvent, itemsBut_giveUp, itemsBut_verdict, itemsBut_engineFault, itemsBut_ctr, itemsBut_dspTrace, itemsBut_bypass, itemsBut_bypassHw, itemsBut_beginReset, itemsBut_mtrFlush, itemsBut_imageKeep, itemsBut_imageCopy, itemsBut_antState, itemsBut_judgeBias, itemsBut_chainState, itemsBut_showTile, itemsBut_putChan, itemsBut_freeChan, itemsBut_freeWhere]⟩

@[simp] theorem enableChan_fields (d : Dev) (c ant sig sat : Nat) :
    (d.enableChan c ant sig sat).now = d.now ∧ (d.enableChan c ant sig sat).snap = d.snap ∧
    (d.enableChan c ant sig sat).committedOnce = d.committedOnce ∧ (d.enableChan c ant sig sat).staged = d.staged ∧
    (d.enableChan c ant sig sat).ctrls = d.ctrls ∧ (d.enableChan c ant sig sat).freeIx = d.freeIx ∧ (d.enableChan c ant sig sat).tim = d.tim ∧
    (d.enableChan c ant sig sat).chutes = d.chutes ∧ (d.enableChan c ant sig sat).stp = d.stp ∧ (d.enableChan c ant sig sat).air = d.air ∧
    (d.enableChan c ant sig sat).chiselOut = d.chiselOut ∧ (d.enableChan c ant sig sat).ring = d.ring ∧
    (d.enableChan c ant sig sat).can = d.can ∧ (d.enableChan c ant sig sat).mtr = d.mtr ∧ (d.enableChan c ant sig sat).drk = d.drk ∧
    (d.enableChan c ant sig sat).dsp = d.dsp ∧ (d.enableChan c ant sig sat).pwr = d.pwr ∧ (d.enableChan c ant sig sat).peer = d.peer ∧
    (d.enableChan c ant sig sat).com = d.com ∧ KeptCyc (d.enableChan c ant sig sat).cyc d.cyc ∧
    KeptHost (d.enableChan c ant sig sat).host d.host ∧ KeptRcd (d.enableChan c ant sig sat).rcd d.rcd ∧
    KeptTlg (d.enableChan c ant sig sat).tlg d.tlg := by
  have h := (enableChan_spec d c ant sig sat).1
  generalize d.enableChan c ant sig sat = x at h ⊢
  have f {α : Type} (g : Dev → α) : g x.rest = g ({ d.rest with gns := (x).gns }) := congrArg g h
  exact ⟨f (·.now), f (·.snap), f (·.committedOnce), f (·.staged), f (·.ctrls), f (·.freeIx), f (·.tim), f (·.chutes), f (·.stp), f (·.air),
    f (·.chiselOut), f (·.ring), f (·.can), f (·.mtr), f (·.drk), f (·.dsp), f (·.pwr), f (·.peer), f (·.com), KeptCyc.of (f (·.cyc)),
    KeptHost.of (f (·.host)), KeptRcd.of (f (·.rcd)), KeptTlg.of (f (·.tlg))⟩

@[simp] theorem enableChan_rest (d : Dev) (c ant sig sat : Nat) : (d.enableChan c ant sig sat).rest =
    { d.rest with gns := (d.enableChan c ant sig sat).gns } := by
  have h := (enableChan_spec d c ant sig sat).1
  generalize d.enableChan c ant sig sat = x at h ⊢
  have f {α : Type} (g : Dev → α) : g x.rest = g ({ d.rest with gns := (x).gns }) := congrArg g h
  exact dev_ext (f (·.now)) rfl (f (·.snap)) (f (·.committedOnce)) rfl (f (·.staged)) (f (·.ctrls)) rfl (f (·.freeIx)) (f (·.tim)) (f (·.cyc)) (f (·.host))
    (f (·.chutes)) (f (·.rcd)) (f (·.stp)) (f (·.air)) rfl (f (·.chiselOut)) (f (·.ring)) (f (·.can)) (f (·.mtr)) (f (·.drk)) (f (·.dsp))
    (f (·.tlg)) (f (·.pwr)) (f (·.peer)) (f (·.com))

theorem enableChan_reads (d : Dev) (c ant sig sat : Nat) : ∀ id jq, reportItem id = false → id ≠ P.TRK_CHAN_STATE → id ≠ P.TRK_CHAN_SIG → id ≠ P.TRK_CHAN_CN0 → id ≠ P.TRK_TILE_LOAD → id ≠ P.TRK_TILE_CHANS → id ≠ P.TRK_BUDGET_REFUSED →
    (d.enableChan c ant sig sat).rd id jq = d.rd id jq ∧ (d.enableChan c ant sig sat).isSticky id jq = d.isSticky id jq ∧ (d.enableChan c ant sig sat).cf id jq = d.cf id jq := by
  intro id jq hr h0 h1 h2 h3 h4 h5
  have h := (enableChan_spec d c ant sig sat).2 id jq hr (by simp [h0, Ne.symm h0, h1, Ne.symm h1, h2, Ne.symm h2, h3, Ne.symm h3, h4, Ne.symm h4, h5, Ne.symm h5]) (by simp [regKey_ne, h0, Ne.symm h0, h1, Ne.symm h1, h2, Ne.symm h2, h3, Ne.symm h3, h4, Ne.symm h4, h5, Ne.symm h5])
  have e : (d.enableChan c ant sig sat).staged = d.staged := by simp
  refine ⟨h.1, h.2, ?_⟩
  simp only [Dev.cf, e, h.1]

theorem enableChan_at (d : Dev) (c ant sig sat : Nat) : ∀ id jq, reportItem id = false → P.TRK_CHAN_STATE ≠ id → P.TRK_CHAN_SIG ≠ id → P.TRK_CHAN_CN0 ≠ id → P.TRK_TILE_LOAD ≠ id → P.TRK_TILE_CHANS ≠ id → regKey P.TRK_BUDGET_REFUSED 0 ≠ regKey id jq →
    (d.enableChan c ant sig sat).rd id jq = d.rd id jq ∧ (d.enableChan c ant sig sat).isSticky id jq = d.isSticky id jq ∧ (d.enableChan c ant sig sat).cf id jq = d.cf id jq := by
  intro id jq hr h0 h1 h2 h3 h4 h5
  have h := (enableChan_spec d c ant sig sat).2 id jq hr (by simp [Ne.symm h0, Ne.symm h1, Ne.symm h2, Ne.symm h3, Ne.symm h4]) (by simp [h5])
  have e : (d.enableChan c ant sig sat).staged = d.staged := by simp
  refine ⟨h.1, h.2, ?_⟩
  simp only [Dev.cf, e, h.1]

theorem itemsBut_enableChan {ids : List Nat} {ks : List (Nat × Nat)} (d e : Dev) (c ant sig sat : Nat) (m0 : P.TRK_CHAN_STATE ∈ ids) (m1 : P.TRK_CHAN_SIG ∈ ids) (m2 : P.TRK_CHAN_CN0 ∈ ids) (m3 : P.TRK_TILE_LOAD ∈ ids) (m4 : P.TRK_TILE_CHANS ∈ ids) (m5 : P.TRK_BUDGET_REFUSED ∈ ids ∨ (P.TRK_BUDGET_REFUSED, 0) ∈ ks) :
    ItemsBut ids ks (d.enableChan c ant sig sat) e ↔ ItemsBut ids ks d e :=
  itemsBut_congr ((enableChan_spec d c ant sig sat).2.mono (by simp [m0, m1, m2, m3, m4]) (by simp [m5])) e

/-- A signal assigned to a channel. -/
theorem place_spec (d : Dev) (ant sig sat : Nat) : (d.place ant sig sat).rest = { d.rest with gns := (d.place ant sig sat).gns } ∧
    ItemsBut [P.TRK_CHAN_STATE, P.TRK_CHAN_SIG, P.TRK_CHAN_CN0, P.TRK_TILE_LOAD, P.TRK_TILE_CHANS] [(P.TRK_BUDGET_REFUSED, 0)] (d.place ant sig sat) d := by
  unfold Dev.place
  try simp only []
  repeat' split
  all_goals
    exact ⟨by first | (simp [itemsBut_self, -judge_rest, judge_rest', -timeState_rest, timeState_rest', -takeSeq_rest, takeSeq_rest', -hold_rest, hold_rest', -admit_rest, admit_rest', -input_rest, input_rest', -offer_rest, offer_rest', -stopNotice_rest, stopNotice_rest', -stopEvent_rest, stopEvent_rest', -giveUp_rest, giveUp_rest', -verdict_rest, verdict_rest', -engineFault_rest, engineFault_rest', -ctr_rest, ctr_rest', -beginReset_rest, beginReset_rest', -imageKeep_rest, imageKeep_rest', -imageCopy_rest, imageCopy_rest']; done) | (simp [itemsBut_self, -judge_rest, judge_rest', -timeState_rest, timeState_rest', -takeSeq_rest, takeSeq_rest', -hold_rest, hold_rest', -admit_rest, admit_rest', -input_rest, input_rest', -offer_rest, offer_rest', -stopNotice_rest, stopNotice_rest', -stopEvent_rest, stopEvent_rest', -giveUp_rest, giveUp_rest', -verdict_rest, verdict_rest', -engineFault_rest, engineFault_rest', -ctr_rest, ctr_rest', -beginReset_rest, beginReset_rest', -imageKeep_rest, imageKeep_rest', -imageCopy_rest, imageCopy_rest']; repeat' (first | rfl | apply And.intro)) | rfl, by simp [itemsBut_wr, itemsBut_inc, itemsBut_addW, itemsBut_maxTo, itemsBut_wrS, itemsBut_judge, itemsBut_timeState, itemsBut_takeSeq, itemsBut_countIn, itemsBut_hold, itemsBut_admit, itemsBut_input, itemsBut_offer, itemsBut_stopNotice, itemsBut_stopEvent, itemsBut_giveUp, itemsBut_verdict, itemsBut_engineFault, itemsBut_ctr, itemsBut_dspTrace, itemsBut_bypass, itemsBut_bypassHw, itemsBut_beginReset, itemsBut_mtrFlush, itemsBut_imageKeep, itemsBut_imageCopy, itemsBut_antState, itemsBut_judgeBias, itemsBut_chainState, itemsBut_showTile, itemsBut_putChan, itemsBut_freeChan, itemsBut_freeWhere, itemsBut_enableChan]⟩

@[simp] theorem place_fields (d : Dev) (ant sig sat : Nat) :
    (d.place ant sig sat).now = d.now ∧ (d.place ant sig sat).snap = d.snap ∧ (d.place ant sig sat).committedOnce = d.committedOnce ∧
    (d.place ant sig sat).staged = d.staged ∧ (d.place ant sig sat).ctrls = d.ctrls ∧ (d.place ant sig sat).freeIx = d.freeIx ∧
    (d.place ant sig sat).tim = d.tim ∧ (d.place ant sig sat).chutes = d.chutes ∧ (d.place ant sig sat).stp = d.stp ∧
    (d.place ant sig sat).air = d.air ∧ (d.place ant sig sat).chiselOut = d.chiselOut ∧ (d.place ant sig sat).ring = d.ring ∧
    (d.place ant sig sat).can = d.can ∧ (d.place ant sig sat).mtr = d.mtr ∧ (d.place ant sig sat).drk = d.drk ∧
    (d.place ant sig sat).dsp = d.dsp ∧ (d.place ant sig sat).pwr = d.pwr ∧ (d.place ant sig sat).peer = d.peer ∧
    (d.place ant sig sat).com = d.com ∧ KeptCyc (d.place ant sig sat).cyc d.cyc ∧ KeptHost (d.place ant sig sat).host d.host ∧
    KeptRcd (d.place ant sig sat).rcd d.rcd ∧ KeptTlg (d.place ant sig sat).tlg d.tlg := by
  have h := (place_spec d ant sig sat).1
  generalize d.place ant sig sat = x at h ⊢
  have f {α : Type} (g : Dev → α) : g x.rest = g ({ d.rest with gns := (x).gns }) := congrArg g h
  exact ⟨f (·.now), f (·.snap), f (·.committedOnce), f (·.staged), f (·.ctrls), f (·.freeIx), f (·.tim), f (·.chutes), f (·.stp), f (·.air),
    f (·.chiselOut), f (·.ring), f (·.can), f (·.mtr), f (·.drk), f (·.dsp), f (·.pwr), f (·.peer), f (·.com), KeptCyc.of (f (·.cyc)),
    KeptHost.of (f (·.host)), KeptRcd.of (f (·.rcd)), KeptTlg.of (f (·.tlg))⟩

@[simp] theorem place_rest (d : Dev) (ant sig sat : Nat) : (d.place ant sig sat).rest =
    { d.rest with gns := (d.place ant sig sat).gns } := by
  have h := (place_spec d ant sig sat).1
  generalize d.place ant sig sat = x at h ⊢
  have f {α : Type} (g : Dev → α) : g x.rest = g ({ d.rest with gns := (x).gns }) := congrArg g h
  exact dev_ext (f (·.now)) rfl (f (·.snap)) (f (·.committedOnce)) rfl (f (·.staged)) (f (·.ctrls)) rfl (f (·.freeIx)) (f (·.tim)) (f (·.cyc)) (f (·.host))
    (f (·.chutes)) (f (·.rcd)) (f (·.stp)) (f (·.air)) rfl (f (·.chiselOut)) (f (·.ring)) (f (·.can)) (f (·.mtr)) (f (·.drk)) (f (·.dsp))
    (f (·.tlg)) (f (·.pwr)) (f (·.peer)) (f (·.com))

theorem place_reads (d : Dev) (ant sig sat : Nat) : ∀ id jq, reportItem id = false → id ≠ P.TRK_CHAN_STATE → id ≠ P.TRK_CHAN_SIG → id ≠ P.TRK_CHAN_CN0 → id ≠ P.TRK_TILE_LOAD → id ≠ P.TRK_TILE_CHANS → id ≠ P.TRK_BUDGET_REFUSED →
    (d.place ant sig sat).rd id jq = d.rd id jq ∧ (d.place ant sig sat).isSticky id jq = d.isSticky id jq ∧ (d.place ant sig sat).cf id jq = d.cf id jq := by
  intro id jq hr h0 h1 h2 h3 h4 h5
  have h := (place_spec d ant sig sat).2 id jq hr (by simp [h0, Ne.symm h0, h1, Ne.symm h1, h2, Ne.symm h2, h3, Ne.symm h3, h4, Ne.symm h4, h5, Ne.symm h5]) (by simp [regKey_ne, h0, Ne.symm h0, h1, Ne.symm h1, h2, Ne.symm h2, h3, Ne.symm h3, h4, Ne.symm h4, h5, Ne.symm h5])
  have e : (d.place ant sig sat).staged = d.staged := by simp
  refine ⟨h.1, h.2, ?_⟩
  simp only [Dev.cf, e, h.1]

theorem place_at (d : Dev) (ant sig sat : Nat) : ∀ id jq, reportItem id = false → P.TRK_CHAN_STATE ≠ id → P.TRK_CHAN_SIG ≠ id → P.TRK_CHAN_CN0 ≠ id → P.TRK_TILE_LOAD ≠ id → P.TRK_TILE_CHANS ≠ id → regKey P.TRK_BUDGET_REFUSED 0 ≠ regKey id jq →
    (d.place ant sig sat).rd id jq = d.rd id jq ∧ (d.place ant sig sat).isSticky id jq = d.isSticky id jq ∧ (d.place ant sig sat).cf id jq = d.cf id jq := by
  intro id jq hr h0 h1 h2 h3 h4 h5
  have h := (place_spec d ant sig sat).2 id jq hr (by simp [Ne.symm h0, Ne.symm h1, Ne.symm h2, Ne.symm h3, Ne.symm h4]) (by simp [h5])
  have e : (d.place ant sig sat).staged = d.staged := by simp
  refine ⟨h.1, h.2, ?_⟩
  simp only [Dev.cf, e, h.1]

theorem itemsBut_place {ids : List Nat} {ks : List (Nat × Nat)} (d e : Dev) (ant sig sat : Nat) (m0 : P.TRK_CHAN_STATE ∈ ids) (m1 : P.TRK_CHAN_SIG ∈ ids) (m2 : P.TRK_CHAN_CN0 ∈ ids) (m3 : P.TRK_TILE_LOAD ∈ ids) (m4 : P.TRK_TILE_CHANS ∈ ids) (m5 : P.TRK_BUDGET_REFUSED ∈ ids ∨ (P.TRK_BUDGET_REFUSED, 0) ∈ ks) :
    ItemsBut ids ks (d.place ant sig sat) e ↔ ItemsBut ids ks d e :=
  itemsBut_congr ((place_spec d ant sig sat).2.mono (by simp [m0, m1, m2, m3, m4]) (by simp [m5])) e

/-- Signals assigned to channels. -/
theorem placeAll_spec (d : Dev) (l : List (Nat × Nat × Nat)) : (d.placeAll l).rest = { d.rest with gns := (d.placeAll l).gns } ∧
    ItemsBut [P.TRK_CHAN_STATE, P.TRK_CHAN_SIG, P.TRK_CHAN_CN0, P.TRK_TILE_LOAD, P.TRK_TILE_CHANS] [(P.TRK_BUDGET_REFUSED, 0)] (d.placeAll l) d := by
  unfold Dev.placeAll
  have s := fun (x : Dev) a => place_spec x (Prod.fst a) (Prod.fst (Prod.snd a)) (Prod.snd (Prod.snd a))
  refine ⟨?_, fold_items _ (fun x a => (s x a).2) _ _⟩
  have h := foldl_keeps (fun x : Dev => ({ x.rest with gns := default } : Dev)) (fun x a => x.place (Prod.fst a) (Prod.fst (Prod.snd a)) (Prod.snd (Prod.snd a))) (fun x a => by simp only [(s x a).1])
  exact congrArg (fun x : Dev => ({ x with gns := _ } : Dev)) (h _ _)

@[simp] theorem placeAll_fields (d : Dev) (l : List (Nat × Nat × Nat)) :
    (d.placeAll l).now = d.now ∧ (d.placeAll l).snap = d.snap ∧ (d.placeAll l).committedOnce = d.committedOnce ∧
    (d.placeAll l).staged = d.staged ∧ (d.placeAll l).ctrls = d.ctrls ∧ (d.placeAll l).freeIx = d.freeIx ∧ (d.placeAll l).tim = d.tim ∧
    (d.placeAll l).chutes = d.chutes ∧ (d.placeAll l).stp = d.stp ∧ (d.placeAll l).air = d.air ∧ (d.placeAll l).chiselOut = d.chiselOut ∧
    (d.placeAll l).ring = d.ring ∧ (d.placeAll l).can = d.can ∧ (d.placeAll l).mtr = d.mtr ∧ (d.placeAll l).drk = d.drk ∧
    (d.placeAll l).dsp = d.dsp ∧ (d.placeAll l).pwr = d.pwr ∧ (d.placeAll l).peer = d.peer ∧ (d.placeAll l).com = d.com ∧
    KeptCyc (d.placeAll l).cyc d.cyc ∧ KeptHost (d.placeAll l).host d.host ∧ KeptRcd (d.placeAll l).rcd d.rcd ∧ KeptTlg (d.placeAll l).tlg d.tlg := by
  have h := (placeAll_spec d l).1
  generalize d.placeAll l = x at h ⊢
  have f {α : Type} (g : Dev → α) : g x.rest = g ({ d.rest with gns := (x).gns }) := congrArg g h
  exact ⟨f (·.now), f (·.snap), f (·.committedOnce), f (·.staged), f (·.ctrls), f (·.freeIx), f (·.tim), f (·.chutes), f (·.stp), f (·.air),
    f (·.chiselOut), f (·.ring), f (·.can), f (·.mtr), f (·.drk), f (·.dsp), f (·.pwr), f (·.peer), f (·.com), KeptCyc.of (f (·.cyc)),
    KeptHost.of (f (·.host)), KeptRcd.of (f (·.rcd)), KeptTlg.of (f (·.tlg))⟩

@[simp] theorem placeAll_rest (d : Dev) (l : List (Nat × Nat × Nat)) : (d.placeAll l).rest =
    { d.rest with gns := (d.placeAll l).gns } := by
  have h := (placeAll_spec d l).1
  generalize d.placeAll l = x at h ⊢
  have f {α : Type} (g : Dev → α) : g x.rest = g ({ d.rest with gns := (x).gns }) := congrArg g h
  exact dev_ext (f (·.now)) rfl (f (·.snap)) (f (·.committedOnce)) rfl (f (·.staged)) (f (·.ctrls)) rfl (f (·.freeIx)) (f (·.tim)) (f (·.cyc)) (f (·.host))
    (f (·.chutes)) (f (·.rcd)) (f (·.stp)) (f (·.air)) rfl (f (·.chiselOut)) (f (·.ring)) (f (·.can)) (f (·.mtr)) (f (·.drk)) (f (·.dsp))
    (f (·.tlg)) (f (·.pwr)) (f (·.peer)) (f (·.com))

theorem placeAll_reads (d : Dev) (l : List (Nat × Nat × Nat)) : ∀ id jq, reportItem id = false → id ≠ P.TRK_CHAN_STATE → id ≠ P.TRK_CHAN_SIG → id ≠ P.TRK_CHAN_CN0 → id ≠ P.TRK_TILE_LOAD → id ≠ P.TRK_TILE_CHANS → id ≠ P.TRK_BUDGET_REFUSED →
    (d.placeAll l).rd id jq = d.rd id jq ∧ (d.placeAll l).isSticky id jq = d.isSticky id jq ∧ (d.placeAll l).cf id jq = d.cf id jq := by
  intro id jq hr h0 h1 h2 h3 h4 h5
  have h := (placeAll_spec d l).2 id jq hr (by simp [h0, Ne.symm h0, h1, Ne.symm h1, h2, Ne.symm h2, h3, Ne.symm h3, h4, Ne.symm h4, h5, Ne.symm h5]) (by simp [regKey_ne, h0, Ne.symm h0, h1, Ne.symm h1, h2, Ne.symm h2, h3, Ne.symm h3, h4, Ne.symm h4, h5, Ne.symm h5])
  have e : (d.placeAll l).staged = d.staged := by simp
  refine ⟨h.1, h.2, ?_⟩
  simp only [Dev.cf, e, h.1]

theorem placeAll_at (d : Dev) (l : List (Nat × Nat × Nat)) : ∀ id jq, reportItem id = false → P.TRK_CHAN_STATE ≠ id → P.TRK_CHAN_SIG ≠ id → P.TRK_CHAN_CN0 ≠ id → P.TRK_TILE_LOAD ≠ id → P.TRK_TILE_CHANS ≠ id → regKey P.TRK_BUDGET_REFUSED 0 ≠ regKey id jq →
    (d.placeAll l).rd id jq = d.rd id jq ∧ (d.placeAll l).isSticky id jq = d.isSticky id jq ∧ (d.placeAll l).cf id jq = d.cf id jq := by
  intro id jq hr h0 h1 h2 h3 h4 h5
  have h := (placeAll_spec d l).2 id jq hr (by simp [Ne.symm h0, Ne.symm h1, Ne.symm h2, Ne.symm h3, Ne.symm h4]) (by simp [h5])
  have e : (d.placeAll l).staged = d.staged := by simp
  refine ⟨h.1, h.2, ?_⟩
  simp only [Dev.cf, e, h.1]

theorem itemsBut_placeAll {ids : List Nat} {ks : List (Nat × Nat)} (d e : Dev) (l : List (Nat × Nat × Nat)) (m0 : P.TRK_CHAN_STATE ∈ ids) (m1 : P.TRK_CHAN_SIG ∈ ids) (m2 : P.TRK_CHAN_CN0 ∈ ids) (m3 : P.TRK_TILE_LOAD ∈ ids) (m4 : P.TRK_TILE_CHANS ∈ ids) (m5 : P.TRK_BUDGET_REFUSED ∈ ids ∨ (P.TRK_BUDGET_REFUSED, 0) ∈ ks) :
    ItemsBut ids ks (d.placeAll l) e ↔ ItemsBut ids ks d e :=
  itemsBut_congr ((placeAll_spec d l).2.mono (by simp [m0, m1, m2, m3, m4]) (by simp [m5])) e

/--  -/
theorem chainStep_spec (d : Dev) (c : Nat) : ((if d.cf P.GNS_ANT_EN (c / 3) = 1 then (if d.rd P.GNS_CHAIN_STATE c = 0 then d.chainState c 1 3 else d) else ((d.chainState c 0 4).freeWhere fun x => chainOf x.ant x.sig == c).antState (c / 3) 0 0)).rest = { d.rest with gns := ((if d.cf P.GNS_ANT_EN (c / 3) = 1 then (if d.rd P.GNS_CHAIN_STATE c = 0 then d.chainState c 1 3 else d) else ((d.chainState c 0 4).freeWhere fun x => chainOf x.ant x.sig == c).antState (c / 3) 0 0)).gns } ∧
    ItemsBut [P.TRK_CHAN_STATE, P.TRK_CHAN_SIG, P.TRK_CHAN_CN0, P.TRK_TILE_LOAD, P.TRK_TILE_CHANS, P.GNS_CHAIN_STATE, P.GNS_ANT_STATE] [] ((if d.cf P.GNS_ANT_EN (c / 3) = 1 then (if d.rd P.GNS_CHAIN_STATE c = 0 then d.chainState c 1 3 else d) else ((d.chainState c 0 4).freeWhere fun x => chainOf x.ant x.sig == c).antState (c / 3) 0 0)) d := by
  repeat' split
  all_goals
    exact ⟨by first | (simp [itemsBut_self, -judge_rest, judge_rest', -timeState_rest, timeState_rest', -takeSeq_rest, takeSeq_rest', -hold_rest, hold_rest', -admit_rest, admit_rest', -input_rest, input_rest', -offer_rest, offer_rest', -stopNotice_rest, stopNotice_rest', -stopEvent_rest, stopEvent_rest', -giveUp_rest, giveUp_rest', -verdict_rest, verdict_rest', -engineFault_rest, engineFault_rest', -ctr_rest, ctr_rest', -beginReset_rest, beginReset_rest', -imageKeep_rest, imageKeep_rest', -imageCopy_rest, imageCopy_rest']; done) | (simp [itemsBut_self, -judge_rest, judge_rest', -timeState_rest, timeState_rest', -takeSeq_rest, takeSeq_rest', -hold_rest, hold_rest', -admit_rest, admit_rest', -input_rest, input_rest', -offer_rest, offer_rest', -stopNotice_rest, stopNotice_rest', -stopEvent_rest, stopEvent_rest', -giveUp_rest, giveUp_rest', -verdict_rest, verdict_rest', -engineFault_rest, engineFault_rest', -ctr_rest, ctr_rest', -beginReset_rest, beginReset_rest', -imageKeep_rest, imageKeep_rest', -imageCopy_rest, imageCopy_rest']; repeat' (first | rfl | apply And.intro)) | rfl, by simp [itemsBut_wr, itemsBut_inc, itemsBut_addW, itemsBut_maxTo, itemsBut_wrS, itemsBut_judge, itemsBut_timeState, itemsBut_takeSeq, itemsBut_countIn, itemsBut_hold, itemsBut_admit, itemsBut_input, itemsBut_offer, itemsBut_stopNotice, itemsBut_stopEvent, itemsBut_giveUp, itemsBut_verdict, itemsBut_engineFault, itemsBut_ctr, itemsBut_dspTrace, itemsBut_bypass, itemsBut_bypassHw, itemsBut_beginReset, itemsBut_mtrFlush, itemsBut_imageKeep, itemsBut_imageCopy, itemsBut_antState, itemsBut_judgeBias, itemsBut_chainState, itemsBut_showTile, itemsBut_putChan, itemsBut_freeChan, itemsBut_freeWhere, itemsBut_enableChan, itemsBut_place, itemsBut_placeAll]⟩

/-- Chains follow the antennas' enables. -/
theorem chainsEnable_spec (d : Dev)  : (d.chainsEnable).rest = { d.rest with gns := (d.chainsEnable).gns } ∧
    ItemsBut [P.TRK_CHAN_STATE, P.TRK_CHAN_SIG, P.TRK_CHAN_CN0, P.TRK_TILE_LOAD, P.TRK_TILE_CHANS, P.GNS_CHAIN_STATE, P.GNS_ANT_STATE] [] (d.chainsEnable) d := by
  unfold Dev.chainsEnable
  generalize List.range 6 = l
  have s := fun (x : Dev) a => chainStep_spec x a
  refine ⟨?_, fold_items _ (fun x a => (s x a).2) _ _⟩
  have h := foldl_keeps (fun x : Dev => ({ x.rest with gns := default } : Dev)) (fun d c => if d.cf P.GNS_ANT_EN (c / 3) = 1 then (if d.rd P.GNS_CHAIN_STATE c = 0 then d.chainState c 1 3 else d) else ((d.chainState c 0 4).freeWhere fun x => chainOf x.ant x.sig == c).antState (c / 3) 0 0) (fun x a => by simp only [(s x a).1])
  exact congrArg (fun x : Dev => ({ x with gns := _ } : Dev)) (h _ _)

@[simp] theorem chainsEnable_fields (d : Dev)  :
    (d.chainsEnable).now = d.now ∧ (d.chainsEnable).snap = d.snap ∧ (d.chainsEnable).committedOnce = d.committedOnce ∧
    (d.chainsEnable).staged = d.staged ∧ (d.chainsEnable).ctrls = d.ctrls ∧ (d.chainsEnable).freeIx = d.freeIx ∧ (d.chainsEnable).tim = d.tim ∧
    (d.chainsEnable).chutes = d.chutes ∧ (d.chainsEnable).stp = d.stp ∧ (d.chainsEnable).air = d.air ∧
    (d.chainsEnable).chiselOut = d.chiselOut ∧ (d.chainsEnable).ring = d.ring ∧ (d.chainsEnable).can = d.can ∧ (d.chainsEnable).mtr = d.mtr ∧
    (d.chainsEnable).drk = d.drk ∧ (d.chainsEnable).dsp = d.dsp ∧ (d.chainsEnable).pwr = d.pwr ∧ (d.chainsEnable).peer = d.peer ∧
    (d.chainsEnable).com = d.com ∧ KeptCyc (d.chainsEnable).cyc d.cyc ∧ KeptHost (d.chainsEnable).host d.host ∧
    KeptRcd (d.chainsEnable).rcd d.rcd ∧ KeptTlg (d.chainsEnable).tlg d.tlg := by
  have h := (chainsEnable_spec d ).1
  generalize d.chainsEnable = x at h ⊢
  have f {α : Type} (g : Dev → α) : g x.rest = g ({ d.rest with gns := (x).gns }) := congrArg g h
  exact ⟨f (·.now), f (·.snap), f (·.committedOnce), f (·.staged), f (·.ctrls), f (·.freeIx), f (·.tim), f (·.chutes), f (·.stp), f (·.air),
    f (·.chiselOut), f (·.ring), f (·.can), f (·.mtr), f (·.drk), f (·.dsp), f (·.pwr), f (·.peer), f (·.com), KeptCyc.of (f (·.cyc)),
    KeptHost.of (f (·.host)), KeptRcd.of (f (·.rcd)), KeptTlg.of (f (·.tlg))⟩

@[simp] theorem chainsEnable_rest (d : Dev)  : (d.chainsEnable).rest =
    { d.rest with gns := (d.chainsEnable).gns } := by
  have h := (chainsEnable_spec d ).1
  generalize d.chainsEnable = x at h ⊢
  have f {α : Type} (g : Dev → α) : g x.rest = g ({ d.rest with gns := (x).gns }) := congrArg g h
  exact dev_ext (f (·.now)) rfl (f (·.snap)) (f (·.committedOnce)) rfl (f (·.staged)) (f (·.ctrls)) rfl (f (·.freeIx)) (f (·.tim)) (f (·.cyc)) (f (·.host))
    (f (·.chutes)) (f (·.rcd)) (f (·.stp)) (f (·.air)) rfl (f (·.chiselOut)) (f (·.ring)) (f (·.can)) (f (·.mtr)) (f (·.drk)) (f (·.dsp))
    (f (·.tlg)) (f (·.pwr)) (f (·.peer)) (f (·.com))

theorem chainsEnable_reads (d : Dev)  : ∀ id jq, reportItem id = false → id ≠ P.TRK_CHAN_STATE → id ≠ P.TRK_CHAN_SIG → id ≠ P.TRK_CHAN_CN0 → id ≠ P.TRK_TILE_LOAD → id ≠ P.TRK_TILE_CHANS → id ≠ P.GNS_CHAIN_STATE → id ≠ P.GNS_ANT_STATE →
    (d.chainsEnable).rd id jq = d.rd id jq ∧ (d.chainsEnable).isSticky id jq = d.isSticky id jq ∧ (d.chainsEnable).cf id jq = d.cf id jq := by
  intro id jq hr h0 h1 h2 h3 h4 h5 h6
  have h := (chainsEnable_spec d ).2 id jq hr (by simp [h0, Ne.symm h0, h1, Ne.symm h1, h2, Ne.symm h2, h3, Ne.symm h3, h4, Ne.symm h4, h5, Ne.symm h5, h6, Ne.symm h6]) (by simp)
  have e : (d.chainsEnable).staged = d.staged := by simp
  refine ⟨h.1, h.2, ?_⟩
  simp only [Dev.cf, e, h.1]

theorem itemsBut_chainsEnable {ids : List Nat} {ks : List (Nat × Nat)} (d e : Dev)  (m0 : P.TRK_CHAN_STATE ∈ ids) (m1 : P.TRK_CHAN_SIG ∈ ids) (m2 : P.TRK_CHAN_CN0 ∈ ids) (m3 : P.TRK_TILE_LOAD ∈ ids) (m4 : P.TRK_TILE_CHANS ∈ ids) (m5 : P.GNS_CHAIN_STATE ∈ ids) (m6 : P.GNS_ANT_STATE ∈ ids) :
    ItemsBut ids ks (d.chainsEnable) e ↔ ItemsBut ids ks d e :=
  itemsBut_congr ((chainsEnable_spec d ).2.mono (by simp [m0, m1, m2, m3, m4, m5, m6]) (by simp)) e

/-- Tracking starts. -/
theorem startTracking_spec (d : Dev) (forced : Bool) : (d.startTracking forced).rest = { d.rest with gns := (d.startTracking forced).gns, freeIx := (d.startTracking forced).freeIx } ∧
    ItemsBut [P.TRK_CHAN_STATE, P.TRK_CHAN_SIG, P.TRK_CHAN_CN0, P.TRK_TILE_LOAD, P.TRK_TILE_CHANS, P.GNS_CHAIN_STATE, P.GNS_ANT_STATE] [(P.GNS_ACQ_QUEUE, 0), (P.GNS_ALM_AGE, 0), (P.GNS_START_KIND, 0)] (d.startTracking forced) d := by
  unfold Dev.startTracking
  try simp only []
  repeat' split
  all_goals
    exact ⟨by first | (simp [itemsBut_self, -judge_rest, judge_rest', -timeState_rest, timeState_rest', -takeSeq_rest, takeSeq_rest', -hold_rest, hold_rest', -admit_rest, admit_rest', -input_rest, input_rest', -offer_rest, offer_rest', -stopNotice_rest, stopNotice_rest', -stopEvent_rest, stopEvent_rest', -giveUp_rest, giveUp_rest', -verdict_rest, verdict_rest', -engineFault_rest, engineFault_rest', -ctr_rest, ctr_rest', -beginReset_rest, beginReset_rest', -imageKeep_rest, imageKeep_rest', -imageCopy_rest, imageCopy_rest']; done) | (simp [itemsBut_self, -judge_rest, judge_rest', -timeState_rest, timeState_rest', -takeSeq_rest, takeSeq_rest', -hold_rest, hold_rest', -admit_rest, admit_rest', -input_rest, input_rest', -offer_rest, offer_rest', -stopNotice_rest, stopNotice_rest', -stopEvent_rest, stopEvent_rest', -giveUp_rest, giveUp_rest', -verdict_rest, verdict_rest', -engineFault_rest, engineFault_rest', -ctr_rest, ctr_rest', -beginReset_rest, beginReset_rest', -imageKeep_rest, imageKeep_rest', -imageCopy_rest, imageCopy_rest']; repeat' (first | rfl | apply And.intro)) | rfl, by simp [itemsBut_wr, itemsBut_inc, itemsBut_addW, itemsBut_maxTo, itemsBut_wrS, itemsBut_judge, itemsBut_timeState, itemsBut_takeSeq, itemsBut_countIn, itemsBut_hold, itemsBut_admit, itemsBut_input, itemsBut_offer, itemsBut_stopNotice, itemsBut_stopEvent, itemsBut_giveUp, itemsBut_verdict, itemsBut_engineFault, itemsBut_ctr, itemsBut_dspTrace, itemsBut_bypass, itemsBut_bypassHw, itemsBut_beginReset, itemsBut_mtrFlush, itemsBut_imageKeep, itemsBut_imageCopy, itemsBut_antState, itemsBut_judgeBias, itemsBut_chainState, itemsBut_showTile, itemsBut_putChan, itemsBut_freeChan, itemsBut_freeWhere, itemsBut_enableChan, itemsBut_place, itemsBut_placeAll, itemsBut_chainsEnable]⟩

@[simp] theorem startTracking_fields (d : Dev) (forced : Bool) :
    (d.startTracking forced).now = d.now ∧ (d.startTracking forced).snap = d.snap ∧ (d.startTracking forced).committedOnce = d.committedOnce ∧
    (d.startTracking forced).staged = d.staged ∧ (d.startTracking forced).ctrls = d.ctrls ∧ (d.startTracking forced).tim = d.tim ∧
    (d.startTracking forced).chutes = d.chutes ∧ (d.startTracking forced).stp = d.stp ∧ (d.startTracking forced).air = d.air ∧
    (d.startTracking forced).chiselOut = d.chiselOut ∧ (d.startTracking forced).ring = d.ring ∧ (d.startTracking forced).can = d.can ∧
    (d.startTracking forced).mtr = d.mtr ∧ (d.startTracking forced).drk = d.drk ∧ (d.startTracking forced).dsp = d.dsp ∧
    (d.startTracking forced).pwr = d.pwr ∧ (d.startTracking forced).peer = d.peer ∧ (d.startTracking forced).com = d.com ∧
    KeptCyc (d.startTracking forced).cyc d.cyc ∧ KeptHost (d.startTracking forced).host d.host ∧ KeptRcd (d.startTracking forced).rcd d.rcd ∧
    KeptTlg (d.startTracking forced).tlg d.tlg := by
  have h := (startTracking_spec d forced).1
  generalize d.startTracking forced = x at h ⊢
  have f {α : Type} (g : Dev → α) : g x.rest = g ({ d.rest with gns := (x).gns, freeIx := (x).freeIx }) := congrArg g h
  exact ⟨f (·.now), f (·.snap), f (·.committedOnce), f (·.staged), f (·.ctrls), f (·.tim), f (·.chutes), f (·.stp), f (·.air), f (·.chiselOut),
    f (·.ring), f (·.can), f (·.mtr), f (·.drk), f (·.dsp), f (·.pwr), f (·.peer), f (·.com), KeptCyc.of (f (·.cyc)), KeptHost.of (f (·.host)),
    KeptRcd.of (f (·.rcd)), KeptTlg.of (f (·.tlg))⟩

@[simp] theorem startTracking_rest (d : Dev) (forced : Bool) : (d.startTracking forced).rest =
    { d.rest with gns := (d.startTracking forced).gns, freeIx := (d.startTracking forced).freeIx } := by
  have h := (startTracking_spec d forced).1
  generalize d.startTracking forced = x at h ⊢
  have f {α : Type} (g : Dev → α) : g x.rest = g ({ d.rest with gns := (x).gns, freeIx := (x).freeIx }) := congrArg g h
  exact dev_ext (f (·.now)) rfl (f (·.snap)) (f (·.committedOnce)) rfl (f (·.staged)) (f (·.ctrls)) rfl rfl (f (·.tim)) (f (·.cyc)) (f (·.host))
    (f (·.chutes)) (f (·.rcd)) (f (·.stp)) (f (·.air)) rfl (f (·.chiselOut)) (f (·.ring)) (f (·.can)) (f (·.mtr)) (f (·.drk)) (f (·.dsp))
    (f (·.tlg)) (f (·.pwr)) (f (·.peer)) (f (·.com))

theorem startTracking_reads (d : Dev) (forced : Bool) : ∀ id jq, reportItem id = false → id ≠ P.TRK_CHAN_STATE → id ≠ P.TRK_CHAN_SIG → id ≠ P.TRK_CHAN_CN0 → id ≠ P.TRK_TILE_LOAD → id ≠ P.TRK_TILE_CHANS → id ≠ P.GNS_CHAIN_STATE → id ≠ P.GNS_ANT_STATE → id ≠ P.GNS_ACQ_QUEUE → id ≠ P.GNS_ALM_AGE → id ≠ P.GNS_START_KIND →
    (d.startTracking forced).rd id jq = d.rd id jq ∧ (d.startTracking forced).isSticky id jq = d.isSticky id jq ∧ (d.startTracking forced).cf id jq = d.cf id jq := by
  intro id jq hr h0 h1 h2 h3 h4 h5 h6 h7 h8 h9
  have h := (startTracking_spec d forced).2 id jq hr (by simp [h0, Ne.symm h0, h1, Ne.symm h1, h2, Ne.symm h2, h3, Ne.symm h3, h4, Ne.symm h4, h5, Ne.symm h5, h6, Ne.symm h6, h7, Ne.symm h7, h8, Ne.symm h8, h9, Ne.symm h9]) (by simp [regKey_ne, h0, Ne.symm h0, h1, Ne.symm h1, h2, Ne.symm h2, h3, Ne.symm h3, h4, Ne.symm h4, h5, Ne.symm h5, h6, Ne.symm h6, h7, Ne.symm h7, h8, Ne.symm h8, h9, Ne.symm h9])
  have e : (d.startTracking forced).staged = d.staged := by simp
  refine ⟨h.1, h.2, ?_⟩
  simp only [Dev.cf, e, h.1]

theorem startTracking_at (d : Dev) (forced : Bool) : ∀ id jq, reportItem id = false → P.TRK_CHAN_STATE ≠ id → P.TRK_CHAN_SIG ≠ id → P.TRK_CHAN_CN0 ≠ id → P.TRK_TILE_LOAD ≠ id → P.TRK_TILE_CHANS ≠ id → P.GNS_CHAIN_STATE ≠ id → P.GNS_ANT_STATE ≠ id → regKey P.GNS_ACQ_QUEUE 0 ≠ regKey id jq → regKey P.GNS_ALM_AGE 0 ≠ regKey id jq → regKey P.GNS_START_KIND 0 ≠ regKey id jq →
    (d.startTracking forced).rd id jq = d.rd id jq ∧ (d.startTracking forced).isSticky id jq = d.isSticky id jq ∧ (d.startTracking forced).cf id jq = d.cf id jq := by
  intro id jq hr h0 h1 h2 h3 h4 h5 h6 h7 h8 h9
  have h := (startTracking_spec d forced).2 id jq hr (by simp [Ne.symm h0, Ne.symm h1, Ne.symm h2, Ne.symm h3, Ne.symm h4, Ne.symm h5, Ne.symm h6]) (by simp [h7, h8, h9])
  have e : (d.startTracking forced).staged = d.staged := by simp
  refine ⟨h.1, h.2, ?_⟩
  simp only [Dev.cf, e, h.1]

theorem itemsBut_startTracking {ids : List Nat} {ks : List (Nat × Nat)} (d e : Dev) (forced : Bool) (m0 : P.TRK_CHAN_STATE ∈ ids) (m1 : P.TRK_CHAN_SIG ∈ ids) (m2 : P.TRK_CHAN_CN0 ∈ ids) (m3 : P.TRK_TILE_LOAD ∈ ids) (m4 : P.TRK_TILE_CHANS ∈ ids) (m5 : P.GNS_CHAIN_STATE ∈ ids) (m6 : P.GNS_ANT_STATE ∈ ids) (m7 : P.GNS_ACQ_QUEUE ∈ ids ∨ (P.GNS_ACQ_QUEUE, 0) ∈ ks) (m8 : P.GNS_ALM_AGE ∈ ids ∨ (P.GNS_ALM_AGE, 0) ∈ ks) (m9 : P.GNS_START_KIND ∈ ids ∨ (P.GNS_START_KIND, 0) ∈ ks) :
    ItemsBut ids ks (d.startTracking forced) e ↔ ItemsBut ids ks d e :=
  itemsBut_congr ((startTracking_spec d forced).2.mono (by simp [m0, m1, m2, m3, m4, m5, m6]) (by simp [m7, m8, m9])) e

/-- A gain noted. -/
theorem noteGain_spec (d : Dev) (c v : Nat) : (d.noteGain c v).rest = { d.rest with gns := (d.noteGain c v).gns } ∧
    ItemsBut [] [] (d.noteGain c v) d := by
  unfold Dev.noteGain
  try simp only []
  repeat' split
  all_goals
    exact ⟨by first | (simp [itemsBut_self, -judge_rest, judge_rest', -timeState_rest, timeState_rest', -takeSeq_rest, takeSeq_rest', -hold_rest, hold_rest', -admit_rest, admit_rest', -input_rest, input_rest', -offer_rest, offer_rest', -stopNotice_rest, stopNotice_rest', -stopEvent_rest, stopEvent_rest', -giveUp_rest, giveUp_rest', -verdict_rest, verdict_rest', -engineFault_rest, engineFault_rest', -ctr_rest, ctr_rest', -beginReset_rest, beginReset_rest', -imageKeep_rest, imageKeep_rest', -imageCopy_rest, imageCopy_rest']; done) | (simp [itemsBut_self, -judge_rest, judge_rest', -timeState_rest, timeState_rest', -takeSeq_rest, takeSeq_rest', -hold_rest, hold_rest', -admit_rest, admit_rest', -input_rest, input_rest', -offer_rest, offer_rest', -stopNotice_rest, stopNotice_rest', -stopEvent_rest, stopEvent_rest', -giveUp_rest, giveUp_rest', -verdict_rest, verdict_rest', -engineFault_rest, engineFault_rest', -ctr_rest, ctr_rest', -beginReset_rest, beginReset_rest', -imageKeep_rest, imageKeep_rest', -imageCopy_rest, imageCopy_rest']; repeat' (first | rfl | apply And.intro)) | rfl, by simp [itemsBut_wr, itemsBut_inc, itemsBut_addW, itemsBut_maxTo, itemsBut_wrS, itemsBut_judge, itemsBut_timeState, itemsBut_takeSeq, itemsBut_countIn, itemsBut_hold, itemsBut_admit, itemsBut_input, itemsBut_offer, itemsBut_stopNotice, itemsBut_stopEvent, itemsBut_giveUp, itemsBut_verdict, itemsBut_engineFault, itemsBut_ctr, itemsBut_dspTrace, itemsBut_bypass, itemsBut_bypassHw, itemsBut_beginReset, itemsBut_mtrFlush, itemsBut_imageKeep, itemsBut_imageCopy, itemsBut_antState, itemsBut_judgeBias, itemsBut_chainState, itemsBut_showTile, itemsBut_putChan, itemsBut_freeChan, itemsBut_freeWhere, itemsBut_enableChan, itemsBut_place, itemsBut_placeAll, itemsBut_chainsEnable, itemsBut_startTracking]⟩

@[simp] theorem noteGain_fields (d : Dev) (c v : Nat) :
    (d.noteGain c v).now = d.now ∧ (d.noteGain c v).snap = d.snap ∧ (d.noteGain c v).committedOnce = d.committedOnce ∧
    (d.noteGain c v).staged = d.staged ∧ (d.noteGain c v).ctrls = d.ctrls ∧ (d.noteGain c v).freeIx = d.freeIx ∧ (d.noteGain c v).tim = d.tim ∧
    (d.noteGain c v).chutes = d.chutes ∧ (d.noteGain c v).stp = d.stp ∧ (d.noteGain c v).air = d.air ∧
    (d.noteGain c v).chiselOut = d.chiselOut ∧ (d.noteGain c v).ring = d.ring ∧ (d.noteGain c v).can = d.can ∧ (d.noteGain c v).mtr = d.mtr ∧
    (d.noteGain c v).drk = d.drk ∧ (d.noteGain c v).dsp = d.dsp ∧ (d.noteGain c v).pwr = d.pwr ∧ (d.noteGain c v).peer = d.peer ∧
    (d.noteGain c v).com = d.com ∧ KeptCyc (d.noteGain c v).cyc d.cyc ∧ KeptHost (d.noteGain c v).host d.host ∧
    KeptRcd (d.noteGain c v).rcd d.rcd ∧ KeptTlg (d.noteGain c v).tlg d.tlg := by
  have h := (noteGain_spec d c v).1
  generalize d.noteGain c v = x at h ⊢
  have f {α : Type} (g : Dev → α) : g x.rest = g ({ d.rest with gns := (x).gns }) := congrArg g h
  exact ⟨f (·.now), f (·.snap), f (·.committedOnce), f (·.staged), f (·.ctrls), f (·.freeIx), f (·.tim), f (·.chutes), f (·.stp), f (·.air),
    f (·.chiselOut), f (·.ring), f (·.can), f (·.mtr), f (·.drk), f (·.dsp), f (·.pwr), f (·.peer), f (·.com), KeptCyc.of (f (·.cyc)),
    KeptHost.of (f (·.host)), KeptRcd.of (f (·.rcd)), KeptTlg.of (f (·.tlg))⟩

@[simp] theorem noteGain_rest (d : Dev) (c v : Nat) : (d.noteGain c v).rest =
    { d.rest with gns := (d.noteGain c v).gns } := by
  have h := (noteGain_spec d c v).1
  generalize d.noteGain c v = x at h ⊢
  have f {α : Type} (g : Dev → α) : g x.rest = g ({ d.rest with gns := (x).gns }) := congrArg g h
  exact dev_ext (f (·.now)) rfl (f (·.snap)) (f (·.committedOnce)) rfl (f (·.staged)) (f (·.ctrls)) rfl (f (·.freeIx)) (f (·.tim)) (f (·.cyc)) (f (·.host))
    (f (·.chutes)) (f (·.rcd)) (f (·.stp)) (f (·.air)) rfl (f (·.chiselOut)) (f (·.ring)) (f (·.can)) (f (·.mtr)) (f (·.drk)) (f (·.dsp))
    (f (·.tlg)) (f (·.pwr)) (f (·.peer)) (f (·.com))

theorem noteGain_reads (d : Dev) (c v : Nat) : ∀ id jq, reportItem id = false  →
    (d.noteGain c v).rd id jq = d.rd id jq ∧ (d.noteGain c v).isSticky id jq = d.isSticky id jq ∧ (d.noteGain c v).cf id jq = d.cf id jq := by
  intro id jq hr 
  have h := (noteGain_spec d c v).2 id jq hr (by simp) (by simp)
  have e : (d.noteGain c v).staged = d.staged := by simp
  refine ⟨h.1, h.2, ?_⟩
  simp only [Dev.cf, e, h.1]

theorem itemsBut_noteGain {ids : List Nat} {ks : List (Nat × Nat)} (d e : Dev) (c v : Nat)  :
    ItemsBut ids ks (d.noteGain c v) e ↔ ItemsBut ids ks d e :=
  itemsBut_congr ((noteGain_spec d c v).2.mono (by simp) (by simp)) e

/-- Tracking stops. -/
theorem stopTracking_spec (d : Dev)  : (d.stopTracking).rest = { d.rest with gns := (d.stopTracking).gns } ∧
    ItemsBut [P.TRK_CHAN_STATE, P.TRK_CHAN_SIG, P.TRK_CHAN_CN0, P.TRK_TILE_LOAD, P.TRK_TILE_CHANS] [(P.GNS_ACQ_QUEUE, 0)] (d.stopTracking) d := by
  unfold Dev.stopTracking
  try simp only []
  repeat' split
  all_goals
    exact ⟨by first | (simp [itemsBut_self, -judge_rest, judge_rest', -timeState_rest, timeState_rest', -takeSeq_rest, takeSeq_rest', -hold_rest, hold_rest', -admit_rest, admit_rest', -input_rest, input_rest', -offer_rest, offer_rest', -stopNotice_rest, stopNotice_rest', -stopEvent_rest, stopEvent_rest', -giveUp_rest, giveUp_rest', -verdict_rest, verdict_rest', -engineFault_rest, engineFault_rest', -ctr_rest, ctr_rest', -beginReset_rest, beginReset_rest', -imageKeep_rest, imageKeep_rest', -imageCopy_rest, imageCopy_rest']; done) | (simp [itemsBut_self, -judge_rest, judge_rest', -timeState_rest, timeState_rest', -takeSeq_rest, takeSeq_rest', -hold_rest, hold_rest', -admit_rest, admit_rest', -input_rest, input_rest', -offer_rest, offer_rest', -stopNotice_rest, stopNotice_rest', -stopEvent_rest, stopEvent_rest', -giveUp_rest, giveUp_rest', -verdict_rest, verdict_rest', -engineFault_rest, engineFault_rest', -ctr_rest, ctr_rest', -beginReset_rest, beginReset_rest', -imageKeep_rest, imageKeep_rest', -imageCopy_rest, imageCopy_rest']; repeat' (first | rfl | apply And.intro)) | rfl, by simp [itemsBut_wr, itemsBut_inc, itemsBut_addW, itemsBut_maxTo, itemsBut_wrS, itemsBut_judge, itemsBut_timeState, itemsBut_takeSeq, itemsBut_countIn, itemsBut_hold, itemsBut_admit, itemsBut_input, itemsBut_offer, itemsBut_stopNotice, itemsBut_stopEvent, itemsBut_giveUp, itemsBut_verdict, itemsBut_engineFault, itemsBut_ctr, itemsBut_dspTrace, itemsBut_bypass, itemsBut_bypassHw, itemsBut_beginReset, itemsBut_mtrFlush, itemsBut_imageKeep, itemsBut_imageCopy, itemsBut_antState, itemsBut_judgeBias, itemsBut_chainState, itemsBut_showTile, itemsBut_putChan, itemsBut_freeChan, itemsBut_freeWhere, itemsBut_enableChan, itemsBut_place, itemsBut_placeAll, itemsBut_chainsEnable, itemsBut_startTracking, itemsBut_noteGain]⟩

@[simp] theorem stopTracking_fields (d : Dev)  :
    (d.stopTracking).now = d.now ∧ (d.stopTracking).snap = d.snap ∧ (d.stopTracking).committedOnce = d.committedOnce ∧
    (d.stopTracking).staged = d.staged ∧ (d.stopTracking).ctrls = d.ctrls ∧ (d.stopTracking).freeIx = d.freeIx ∧ (d.stopTracking).tim = d.tim ∧
    (d.stopTracking).chutes = d.chutes ∧ (d.stopTracking).stp = d.stp ∧ (d.stopTracking).air = d.air ∧
    (d.stopTracking).chiselOut = d.chiselOut ∧ (d.stopTracking).ring = d.ring ∧ (d.stopTracking).can = d.can ∧ (d.stopTracking).mtr = d.mtr ∧
    (d.stopTracking).drk = d.drk ∧ (d.stopTracking).dsp = d.dsp ∧ (d.stopTracking).pwr = d.pwr ∧ (d.stopTracking).peer = d.peer ∧
    (d.stopTracking).com = d.com ∧ KeptCyc (d.stopTracking).cyc d.cyc ∧ KeptHost (d.stopTracking).host d.host ∧
    KeptRcd (d.stopTracking).rcd d.rcd ∧ KeptTlg (d.stopTracking).tlg d.tlg := by
  have h := (stopTracking_spec d ).1
  generalize d.stopTracking = x at h ⊢
  have f {α : Type} (g : Dev → α) : g x.rest = g ({ d.rest with gns := (x).gns }) := congrArg g h
  exact ⟨f (·.now), f (·.snap), f (·.committedOnce), f (·.staged), f (·.ctrls), f (·.freeIx), f (·.tim), f (·.chutes), f (·.stp), f (·.air),
    f (·.chiselOut), f (·.ring), f (·.can), f (·.mtr), f (·.drk), f (·.dsp), f (·.pwr), f (·.peer), f (·.com), KeptCyc.of (f (·.cyc)),
    KeptHost.of (f (·.host)), KeptRcd.of (f (·.rcd)), KeptTlg.of (f (·.tlg))⟩

@[simp] theorem stopTracking_rest (d : Dev)  : (d.stopTracking).rest =
    { d.rest with gns := (d.stopTracking).gns } := by
  have h := (stopTracking_spec d ).1
  generalize d.stopTracking = x at h ⊢
  have f {α : Type} (g : Dev → α) : g x.rest = g ({ d.rest with gns := (x).gns }) := congrArg g h
  exact dev_ext (f (·.now)) rfl (f (·.snap)) (f (·.committedOnce)) rfl (f (·.staged)) (f (·.ctrls)) rfl (f (·.freeIx)) (f (·.tim)) (f (·.cyc)) (f (·.host))
    (f (·.chutes)) (f (·.rcd)) (f (·.stp)) (f (·.air)) rfl (f (·.chiselOut)) (f (·.ring)) (f (·.can)) (f (·.mtr)) (f (·.drk)) (f (·.dsp))
    (f (·.tlg)) (f (·.pwr)) (f (·.peer)) (f (·.com))

theorem stopTracking_reads (d : Dev)  : ∀ id jq, reportItem id = false → id ≠ P.TRK_CHAN_STATE → id ≠ P.TRK_CHAN_SIG → id ≠ P.TRK_CHAN_CN0 → id ≠ P.TRK_TILE_LOAD → id ≠ P.TRK_TILE_CHANS → id ≠ P.GNS_ACQ_QUEUE →
    (d.stopTracking).rd id jq = d.rd id jq ∧ (d.stopTracking).isSticky id jq = d.isSticky id jq ∧ (d.stopTracking).cf id jq = d.cf id jq := by
  intro id jq hr h0 h1 h2 h3 h4 h5
  have h := (stopTracking_spec d ).2 id jq hr (by simp [h0, Ne.symm h0, h1, Ne.symm h1, h2, Ne.symm h2, h3, Ne.symm h3, h4, Ne.symm h4, h5, Ne.symm h5]) (by simp [regKey_ne, h0, Ne.symm h0, h1, Ne.symm h1, h2, Ne.symm h2, h3, Ne.symm h3, h4, Ne.symm h4, h5, Ne.symm h5])
  have e : (d.stopTracking).staged = d.staged := by simp
  refine ⟨h.1, h.2, ?_⟩
  simp only [Dev.cf, e, h.1]

theorem stopTracking_at (d : Dev)  : ∀ id jq, reportItem id = false → P.TRK_CHAN_STATE ≠ id → P.TRK_CHAN_SIG ≠ id → P.TRK_CHAN_CN0 ≠ id → P.TRK_TILE_LOAD ≠ id → P.TRK_TILE_CHANS ≠ id → regKey P.GNS_ACQ_QUEUE 0 ≠ regKey id jq →
    (d.stopTracking).rd id jq = d.rd id jq ∧ (d.stopTracking).isSticky id jq = d.isSticky id jq ∧ (d.stopTracking).cf id jq = d.cf id jq := by
  intro id jq hr h0 h1 h2 h3 h4 h5
  have h := (stopTracking_spec d ).2 id jq hr (by simp [Ne.symm h0, Ne.symm h1, Ne.symm h2, Ne.symm h3, Ne.symm h4]) (by simp [h5])
  have e : (d.stopTracking).staged = d.staged := by simp
  refine ⟨h.1, h.2, ?_⟩
  simp only [Dev.cf, e, h.1]

theorem itemsBut_stopTracking {ids : List Nat} {ks : List (Nat × Nat)} (d e : Dev)  (m0 : P.TRK_CHAN_STATE ∈ ids) (m1 : P.TRK_CHAN_SIG ∈ ids) (m2 : P.TRK_CHAN_CN0 ∈ ids) (m3 : P.TRK_TILE_LOAD ∈ ids) (m4 : P.TRK_TILE_CHANS ∈ ids) (m5 : P.GNS_ACQ_QUEUE ∈ ids ∨ (P.GNS_ACQ_QUEUE, 0) ∈ ks) :
    ItemsBut ids ks (d.stopTracking) e ↔ ItemsBut ids ks d e :=
  itemsBut_congr ((stopTracking_spec d ).2.mono (by simp [m0, m1, m2, m3, m4]) (by simp [m5])) e

/-- A capture trigger. -/
theorem snapTrigger_spec (d : Dev) (cause : Nat) : (d.snapTrigger cause).rest = { d.rest with gns := (d.snapTrigger cause).gns } ∧
    ItemsBut [] [(P.GNS_SNAP_STATE, 0), (P.GNS_SNAP_IGNORED, 0)] (d.snapTrigger cause) d := by
  unfold Dev.snapTrigger
  try simp only []
  repeat' split
  all_goals
    exact ⟨by first | (simp [itemsBut_self, -judge_rest, judge_rest', -timeState_rest, timeState_rest', -takeSeq_rest, takeSeq_rest', -hold_rest, hold_rest', -admit_rest, admit_rest', -input_rest, input_rest', -offer_rest, offer_rest', -stopNotice_rest, stopNotice_rest', -stopEvent_rest, stopEvent_rest', -giveUp_rest, giveUp_rest', -verdict_rest, verdict_rest', -engineFault_rest, engineFault_rest', -ctr_rest, ctr_rest', -beginReset_rest, beginReset_rest', -imageKeep_rest, imageKeep_rest', -imageCopy_rest, imageCopy_rest']; done) | (simp [itemsBut_self, -judge_rest, judge_rest', -timeState_rest, timeState_rest', -takeSeq_rest, takeSeq_rest', -hold_rest, hold_rest', -admit_rest, admit_rest', -input_rest, input_rest', -offer_rest, offer_rest', -stopNotice_rest, stopNotice_rest', -stopEvent_rest, stopEvent_rest', -giveUp_rest, giveUp_rest', -verdict_rest, verdict_rest', -engineFault_rest, engineFault_rest', -ctr_rest, ctr_rest', -beginReset_rest, beginReset_rest', -imageKeep_rest, imageKeep_rest', -imageCopy_rest, imageCopy_rest']; repeat' (first | rfl | apply And.intro)) | rfl, by simp [itemsBut_wr, itemsBut_inc, itemsBut_addW, itemsBut_maxTo, itemsBut_wrS, itemsBut_judge, itemsBut_timeState, itemsBut_takeSeq, itemsBut_countIn, itemsBut_hold, itemsBut_admit, itemsBut_input, itemsBut_offer, itemsBut_stopNotice, itemsBut_stopEvent, itemsBut_giveUp, itemsBut_verdict, itemsBut_engineFault, itemsBut_ctr, itemsBut_dspTrace, itemsBut_bypass, itemsBut_bypassHw, itemsBut_beginReset, itemsBut_mtrFlush, itemsBut_imageKeep, itemsBut_imageCopy, itemsBut_antState, itemsBut_judgeBias, itemsBut_chainState, itemsBut_showTile, itemsBut_putChan, itemsBut_freeChan, itemsBut_freeWhere, itemsBut_enableChan, itemsBut_place, itemsBut_placeAll, itemsBut_chainsEnable, itemsBut_startTracking, itemsBut_noteGain, itemsBut_stopTracking]⟩

@[simp] theorem snapTrigger_fields (d : Dev) (cause : Nat) :
    (d.snapTrigger cause).now = d.now ∧ (d.snapTrigger cause).snap = d.snap ∧ (d.snapTrigger cause).committedOnce = d.committedOnce ∧
    (d.snapTrigger cause).staged = d.staged ∧ (d.snapTrigger cause).ctrls = d.ctrls ∧ (d.snapTrigger cause).freeIx = d.freeIx ∧
    (d.snapTrigger cause).tim = d.tim ∧ (d.snapTrigger cause).chutes = d.chutes ∧ (d.snapTrigger cause).stp = d.stp ∧
    (d.snapTrigger cause).air = d.air ∧ (d.snapTrigger cause).chiselOut = d.chiselOut ∧ (d.snapTrigger cause).ring = d.ring ∧
    (d.snapTrigger cause).can = d.can ∧ (d.snapTrigger cause).mtr = d.mtr ∧ (d.snapTrigger cause).drk = d.drk ∧
    (d.snapTrigger cause).dsp = d.dsp ∧ (d.snapTrigger cause).pwr = d.pwr ∧ (d.snapTrigger cause).peer = d.peer ∧
    (d.snapTrigger cause).com = d.com ∧ KeptCyc (d.snapTrigger cause).cyc d.cyc ∧ KeptHost (d.snapTrigger cause).host d.host ∧
    KeptRcd (d.snapTrigger cause).rcd d.rcd ∧ KeptTlg (d.snapTrigger cause).tlg d.tlg := by
  have h := (snapTrigger_spec d cause).1
  generalize d.snapTrigger cause = x at h ⊢
  have f {α : Type} (g : Dev → α) : g x.rest = g ({ d.rest with gns := (x).gns }) := congrArg g h
  exact ⟨f (·.now), f (·.snap), f (·.committedOnce), f (·.staged), f (·.ctrls), f (·.freeIx), f (·.tim), f (·.chutes), f (·.stp), f (·.air),
    f (·.chiselOut), f (·.ring), f (·.can), f (·.mtr), f (·.drk), f (·.dsp), f (·.pwr), f (·.peer), f (·.com), KeptCyc.of (f (·.cyc)),
    KeptHost.of (f (·.host)), KeptRcd.of (f (·.rcd)), KeptTlg.of (f (·.tlg))⟩

@[simp] theorem snapTrigger_rest (d : Dev) (cause : Nat) : (d.snapTrigger cause).rest =
    { d.rest with gns := (d.snapTrigger cause).gns } := by
  have h := (snapTrigger_spec d cause).1
  generalize d.snapTrigger cause = x at h ⊢
  have f {α : Type} (g : Dev → α) : g x.rest = g ({ d.rest with gns := (x).gns }) := congrArg g h
  exact dev_ext (f (·.now)) rfl (f (·.snap)) (f (·.committedOnce)) rfl (f (·.staged)) (f (·.ctrls)) rfl (f (·.freeIx)) (f (·.tim)) (f (·.cyc)) (f (·.host))
    (f (·.chutes)) (f (·.rcd)) (f (·.stp)) (f (·.air)) rfl (f (·.chiselOut)) (f (·.ring)) (f (·.can)) (f (·.mtr)) (f (·.drk)) (f (·.dsp))
    (f (·.tlg)) (f (·.pwr)) (f (·.peer)) (f (·.com))

theorem snapTrigger_reads (d : Dev) (cause : Nat) : ∀ id jq, reportItem id = false → id ≠ P.GNS_SNAP_STATE → id ≠ P.GNS_SNAP_IGNORED →
    (d.snapTrigger cause).rd id jq = d.rd id jq ∧ (d.snapTrigger cause).isSticky id jq = d.isSticky id jq ∧ (d.snapTrigger cause).cf id jq = d.cf id jq := by
  intro id jq hr h0 h1
  have h := (snapTrigger_spec d cause).2 id jq hr (by simp) (by simp [regKey_ne, h0, Ne.symm h0, h1, Ne.symm h1])
  have e : (d.snapTrigger cause).staged = d.staged := by simp
  refine ⟨h.1, h.2, ?_⟩
  simp only [Dev.cf, e, h.1]

theorem snapTrigger_at (d : Dev) (cause : Nat) : ∀ id jq, reportItem id = false  → regKey P.GNS_SNAP_STATE 0 ≠ regKey id jq → regKey P.GNS_SNAP_IGNORED 0 ≠ regKey id jq →
    (d.snapTrigger cause).rd id jq = d.rd id jq ∧ (d.snapTrigger cause).isSticky id jq = d.isSticky id jq ∧ (d.snapTrigger cause).cf id jq = d.cf id jq := by
  intro id jq hr h0 h1
  have h := (snapTrigger_spec d cause).2 id jq hr (by simp) (by simp [h0, h1])
  have e : (d.snapTrigger cause).staged = d.staged := by simp
  refine ⟨h.1, h.2, ?_⟩
  simp only [Dev.cf, e, h.1]

theorem itemsBut_snapTrigger {ids : List Nat} {ks : List (Nat × Nat)} (d e : Dev) (cause : Nat) (m0 : P.GNS_SNAP_STATE ∈ ids ∨ (P.GNS_SNAP_STATE, 0) ∈ ks) (m1 : P.GNS_SNAP_IGNORED ∈ ids ∨ (P.GNS_SNAP_IGNORED, 0) ∈ ks) :
    ItemsBut ids ks (d.snapTrigger cause) e ↔ ItemsBut ids ks d e :=
  itemsBut_congr ((snapTrigger_spec d cause).2.mono (by simp) (by simp [m0, m1])) e

/-! ### Recorder -/

/-- The Recorder changed. -/
theorem recorder_spec (d : Dev) (f : Recorder → Recorder) : (d.recorder f).rest = { d.rest with rcd := quietRcd (d.recorder f).rcd } ∧
    ItemsBut [] [] (d.recorder f) d := by
  exact ⟨rfl, fun _ _ _ _ _ => ⟨rfl, rfl⟩⟩

@[simp] theorem recorder_fields (d : Dev) (f : Recorder → Recorder) :
    (d.recorder f).now = d.now ∧ (d.recorder f).snap = d.snap ∧ (d.recorder f).committedOnce = d.committedOnce ∧
    (d.recorder f).staged = d.staged ∧ (d.recorder f).ctrls = d.ctrls ∧ (d.recorder f).freeIx = d.freeIx ∧ (d.recorder f).tim = d.tim ∧
    (d.recorder f).chutes = d.chutes ∧ (d.recorder f).stp = d.stp ∧ (d.recorder f).air = d.air ∧ (d.recorder f).gns = d.gns ∧
    (d.recorder f).chiselOut = d.chiselOut ∧ (d.recorder f).ring = d.ring ∧ (d.recorder f).can = d.can ∧ (d.recorder f).mtr = d.mtr ∧
    (d.recorder f).drk = d.drk ∧ (d.recorder f).dsp = d.dsp ∧ (d.recorder f).pwr = d.pwr ∧ (d.recorder f).peer = d.peer ∧
    (d.recorder f).com = d.com ∧ KeptCyc (d.recorder f).cyc d.cyc ∧ KeptHost (d.recorder f).host d.host ∧ KeptTlg (d.recorder f).tlg d.tlg := by
  have h := (recorder_spec d f).1
  generalize d.recorder f = x at h ⊢
  have f {α : Type} (g : Dev → α) : g x.rest = g ({ d.rest with rcd := quietRcd (x).rcd }) := congrArg g h
  exact ⟨f (·.now), f (·.snap), f (·.committedOnce), f (·.staged), f (·.ctrls), f (·.freeIx), f (·.tim), f (·.chutes), f (·.stp), f (·.air),
    f (·.gns), f (·.chiselOut), f (·.ring), f (·.can), f (·.mtr), f (·.drk), f (·.dsp), f (·.pwr), f (·.peer), f (·.com),
    KeptCyc.of (f (·.cyc)), KeptHost.of (f (·.host)), KeptTlg.of (f (·.tlg))⟩

@[simp] theorem recorder_rest (d : Dev) (f : Recorder → Recorder) : (d.recorder f).rest =
    { d.rest with rcd := quietRcd (d.recorder f).rcd } := by
  have h := (recorder_spec d f).1
  generalize d.recorder f = x at h ⊢
  have f {α : Type} (g : Dev → α) : g x.rest = g ({ d.rest with rcd := quietRcd (x).rcd }) := congrArg g h
  exact dev_ext (f (·.now)) rfl (f (·.snap)) (f (·.committedOnce)) rfl (f (·.staged)) (f (·.ctrls)) rfl (f (·.freeIx)) (f (·.tim)) (f (·.cyc)) (f (·.host))
    (f (·.chutes)) rfl (f (·.stp)) (f (·.air)) (f (·.gns)) (f (·.chiselOut)) (f (·.ring)) (f (·.can)) (f (·.mtr)) (f (·.drk)) (f (·.dsp))
    (f (·.tlg)) (f (·.pwr)) (f (·.peer)) (f (·.com))

theorem recorder_reads (d : Dev) (f : Recorder → Recorder) : ∀ id jq, reportItem id = false  →
    (d.recorder f).rd id jq = d.rd id jq ∧ (d.recorder f).isSticky id jq = d.isSticky id jq ∧ (d.recorder f).cf id jq = d.cf id jq := by
  intro id jq hr 
  have h := (recorder_spec d f).2 id jq hr (by simp) (by simp)
  have e : (d.recorder f).staged = d.staged := by simp
  refine ⟨h.1, h.2, ?_⟩
  simp only [Dev.cf, e, h.1]

theorem itemsBut_recorder {ids : List Nat} {ks : List (Nat × Nat)} (d e : Dev) (f : Recorder → Recorder)  :
    ItemsBut ids ks (d.recorder f) e ↔ ItemsBut ids ks d e :=
  itemsBut_congr ((recorder_spec d f).2.mono (by simp) (by simp)) e

/-- A region changed. -/
theorem region_spec (d : Dev) (r : Nat) (f : Region → Region) : (d.region r f).rest = { d.rest with rcd := { quietRcd d.rcd with  } } ∧
    ItemsBut [] [] (d.region r f) d := by
  exact ⟨rfl, fun _ _ _ _ _ => ⟨rfl, rfl⟩⟩

@[simp] theorem region_fields (d : Dev) (r : Nat) (f : Region → Region) :
    (d.region r f).now = d.now ∧ (d.region r f).snap = d.snap ∧ (d.region r f).committedOnce = d.committedOnce ∧
    (d.region r f).staged = d.staged ∧ (d.region r f).ctrls = d.ctrls ∧ (d.region r f).freeIx = d.freeIx ∧ (d.region r f).tim = d.tim ∧
    (d.region r f).chutes = d.chutes ∧ (d.region r f).stp = d.stp ∧ (d.region r f).air = d.air ∧ (d.region r f).gns = d.gns ∧
    (d.region r f).chiselOut = d.chiselOut ∧ (d.region r f).ring = d.ring ∧ (d.region r f).can = d.can ∧ (d.region r f).mtr = d.mtr ∧
    (d.region r f).drk = d.drk ∧ (d.region r f).dsp = d.dsp ∧ (d.region r f).pwr = d.pwr ∧ (d.region r f).peer = d.peer ∧
    (d.region r f).com = d.com ∧ KeptCyc (d.region r f).cyc d.cyc ∧ KeptHost (d.region r f).host d.host ∧
    (d.region r f).rcd.nvNext = d.rcd.nvNext ∧ (d.region r f).rcd.fullMark = d.rcd.fullMark ∧ (d.region r f).rcd.clears = d.rcd.clears ∧
    (d.region r f).rcd.pfail = d.rcd.pfail ∧ (d.region r f).rcd.lwWrote = d.rcd.lwWrote ∧ KeptTlg (d.region r f).tlg d.tlg := by
  have h := (region_spec d r f).1
  generalize d.region r f = x at h ⊢
  have f {α : Type} (g : Dev → α) : g x.rest = g ({ d.rest with rcd := { quietRcd d.rcd with  } }) := congrArg g h
  exact ⟨f (·.now), f (·.snap), f (·.committedOnce), f (·.staged), f (·.ctrls), f (·.freeIx), f (·.tim), f (·.chutes), f (·.stp), f (·.air),
    f (·.gns), f (·.chiselOut), f (·.ring), f (·.can), f (·.mtr), f (·.drk), f (·.dsp), f (·.pwr), f (·.peer), f (·.com),
    KeptCyc.of (f (·.cyc)), KeptHost.of (f (·.host)), f (·.rcd.nvNext), f (·.rcd.fullMark), f (·.rcd.clears), f (·.rcd.pfail),
    f (·.rcd.lwWrote), KeptTlg.of (f (·.tlg))⟩

@[simp] theorem region_rest (d : Dev) (r : Nat) (f : Region → Region) : (d.region r f).rest =
    { d.rest with rcd := quietRcd (d.region r f).rcd } := by
  have h := (region_spec d r f).1
  generalize d.region r f = x at h ⊢
  have f {α : Type} (g : Dev → α) : g x.rest = g ({ d.rest with rcd := { quietRcd d.rcd with  } }) := congrArg g h
  exact dev_ext (f (·.now)) rfl (f (·.snap)) (f (·.committedOnce)) rfl (f (·.staged)) (f (·.ctrls)) rfl (f (·.freeIx)) (f (·.tim)) (f (·.cyc)) (f (·.host))
    (f (·.chutes)) rfl (f (·.stp)) (f (·.air)) (f (·.gns)) (f (·.chiselOut)) (f (·.ring)) (f (·.can)) (f (·.mtr)) (f (·.drk)) (f (·.dsp))
    (f (·.tlg)) (f (·.pwr)) (f (·.peer)) (f (·.com))

theorem region_reads (d : Dev) (r : Nat) (f : Region → Region) : ∀ id jq, reportItem id = false  →
    (d.region r f).rd id jq = d.rd id jq ∧ (d.region r f).isSticky id jq = d.isSticky id jq ∧ (d.region r f).cf id jq = d.cf id jq := by
  intro id jq hr 
  have h := (region_spec d r f).2 id jq hr (by simp) (by simp)
  have e : (d.region r f).staged = d.staged := by simp
  refine ⟨h.1, h.2, ?_⟩
  simp only [Dev.cf, e, h.1]

theorem itemsBut_region {ids : List Nat} {ks : List (Nat × Nat)} (d e : Dev) (r : Nat) (f : Region → Region)  :
    ItemsBut ids ks (d.region r f) e ↔ ItemsBut ids ks d e :=
  itemsBut_congr ((region_spec d r f).2.mono (by simp) (by simp)) e

/-- A region shown. -/
theorem showRegion_spec (d : Dev) (r : Nat) : (d.showRegion r).rest = d.rest ∧
    ItemsBut [] [(P.LOG_FIRST, r), (P.LOG_USED, r)] (d.showRegion r) d := by
  unfold Dev.showRegion
  try simp only []
  repeat' split
  all_goals
    exact ⟨by first | (simp [itemsBut_self, -judge_rest, judge_rest', -timeState_rest, timeState_rest', -takeSeq_rest, takeSeq_rest', -hold_rest, hold_rest', -admit_rest, admit_rest', -input_rest, input_rest', -offer_rest, offer_rest', -stopNotice_rest, stopNotice_rest', -stopEvent_rest, stopEvent_rest', -giveUp_rest, giveUp_rest', -verdict_rest, verdict_rest', -engineFault_rest, engineFault_rest', -ctr_rest, ctr_rest', -beginReset_rest, beginReset_rest', -imageKeep_rest, imageKeep_rest', -imageCopy_rest, imageCopy_rest']; done) | (simp [itemsBut_self, -judge_rest, judge_rest', -timeState_rest, timeState_rest', -takeSeq_rest, takeSeq_rest', -hold_rest, hold_rest', -admit_rest, admit_rest', -input_rest, input_rest', -offer_rest, offer_rest', -stopNotice_rest, stopNotice_rest', -stopEvent_rest, stopEvent_rest', -giveUp_rest, giveUp_rest', -verdict_rest, verdict_rest', -engineFault_rest, engineFault_rest', -ctr_rest, ctr_rest', -beginReset_rest, beginReset_rest', -imageKeep_rest, imageKeep_rest', -imageCopy_rest, imageCopy_rest']; repeat' (first | rfl | apply And.intro)) | rfl, by simp [itemsBut_wr, itemsBut_inc, itemsBut_addW, itemsBut_maxTo, itemsBut_wrS, itemsBut_judge, itemsBut_timeState, itemsBut_takeSeq, itemsBut_countIn, itemsBut_hold, itemsBut_admit, itemsBut_input, itemsBut_offer, itemsBut_stopNotice, itemsBut_stopEvent, itemsBut_giveUp, itemsBut_verdict, itemsBut_engineFault, itemsBut_ctr, itemsBut_dspTrace, itemsBut_bypass, itemsBut_bypassHw, itemsBut_beginReset, itemsBut_mtrFlush, itemsBut_imageKeep, itemsBut_imageCopy, itemsBut_antState, itemsBut_judgeBias, itemsBut_chainState, itemsBut_showTile, itemsBut_putChan, itemsBut_freeChan, itemsBut_freeWhere, itemsBut_enableChan, itemsBut_place, itemsBut_placeAll, itemsBut_chainsEnable, itemsBut_startTracking, itemsBut_noteGain, itemsBut_stopTracking, itemsBut_snapTrigger, itemsBut_recorder, itemsBut_region]⟩

@[simp] theorem showRegion_fields (d : Dev) (r : Nat) :
    (d.showRegion r).now = d.now ∧ (d.showRegion r).snap = d.snap ∧ (d.showRegion r).committedOnce = d.committedOnce ∧
    (d.showRegion r).staged = d.staged ∧ (d.showRegion r).ctrls = d.ctrls ∧ (d.showRegion r).freeIx = d.freeIx ∧ (d.showRegion r).tim = d.tim ∧
    (d.showRegion r).chutes = d.chutes ∧ (d.showRegion r).stp = d.stp ∧ (d.showRegion r).air = d.air ∧ (d.showRegion r).gns = d.gns ∧
    (d.showRegion r).chiselOut = d.chiselOut ∧ (d.showRegion r).ring = d.ring ∧ (d.showRegion r).can = d.can ∧ (d.showRegion r).mtr = d.mtr ∧
    (d.showRegion r).drk = d.drk ∧ (d.showRegion r).dsp = d.dsp ∧ (d.showRegion r).pwr = d.pwr ∧ (d.showRegion r).peer = d.peer ∧
    (d.showRegion r).com = d.com ∧ KeptCyc (d.showRegion r).cyc d.cyc ∧ KeptHost (d.showRegion r).host d.host ∧
    KeptRcd (d.showRegion r).rcd d.rcd ∧ KeptTlg (d.showRegion r).tlg d.tlg := by
  have h := (showRegion_spec d r).1
  generalize d.showRegion r = x at h ⊢
  have f {α : Type} (g : Dev → α) : g x.rest = g (d.rest) := congrArg g h
  exact ⟨f (·.now), f (·.snap), f (·.committedOnce), f (·.staged), f (·.ctrls), f (·.freeIx), f (·.tim), f (·.chutes), f (·.stp), f (·.air),
    f (·.gns), f (·.chiselOut), f (·.ring), f (·.can), f (·.mtr), f (·.drk), f (·.dsp), f (·.pwr), f (·.peer), f (·.com),
    KeptCyc.of (f (·.cyc)), KeptHost.of (f (·.host)), KeptRcd.of (f (·.rcd)), KeptTlg.of (f (·.tlg))⟩

@[simp] theorem showRegion_rest (d : Dev) (r : Nat) : (d.showRegion r).rest =
    d.rest := by
  have h := (showRegion_spec d r).1
  generalize d.showRegion r = x at h ⊢
  have f {α : Type} (g : Dev → α) : g x.rest = g (d.rest) := congrArg g h
  exact dev_ext (f (·.now)) rfl (f (·.snap)) (f (·.committedOnce)) rfl (f (·.staged)) (f (·.ctrls)) rfl (f (·.freeIx)) (f (·.tim)) (f (·.cyc)) (f (·.host))
    (f (·.chutes)) (f (·.rcd)) (f (·.stp)) (f (·.air)) (f (·.gns)) (f (·.chiselOut)) (f (·.ring)) (f (·.can)) (f (·.mtr)) (f (·.drk))
    (f (·.dsp)) (f (·.tlg)) (f (·.pwr)) (f (·.peer)) (f (·.com))

theorem showRegion_reads (d : Dev) (r : Nat) : ∀ id jq, reportItem id = false → id ≠ P.LOG_FIRST → id ≠ P.LOG_USED →
    (d.showRegion r).rd id jq = d.rd id jq ∧ (d.showRegion r).isSticky id jq = d.isSticky id jq ∧ (d.showRegion r).cf id jq = d.cf id jq := by
  intro id jq hr h0 h1
  have h := (showRegion_spec d r).2 id jq hr (by simp) (by simp [regKey_ne, h0, Ne.symm h0, h1, Ne.symm h1])
  have e : (d.showRegion r).staged = d.staged := by simp
  refine ⟨h.1, h.2, ?_⟩
  simp only [Dev.cf, e, h.1]

theorem showRegion_at (d : Dev) (r : Nat) : ∀ id jq, reportItem id = false  → regKey P.LOG_FIRST r ≠ regKey id jq → regKey P.LOG_USED r ≠ regKey id jq →
    (d.showRegion r).rd id jq = d.rd id jq ∧ (d.showRegion r).isSticky id jq = d.isSticky id jq ∧ (d.showRegion r).cf id jq = d.cf id jq := by
  intro id jq hr h0 h1
  have h := (showRegion_spec d r).2 id jq hr (by simp) (by simp [h0, h1])
  have e : (d.showRegion r).staged = d.staged := by simp
  refine ⟨h.1, h.2, ?_⟩
  simp only [Dev.cf, e, h.1]

theorem itemsBut_showRegion {ids : List Nat} {ks : List (Nat × Nat)} (d e : Dev) (r : Nat) (m0 : P.LOG_FIRST ∈ ids ∨ (P.LOG_FIRST, r) ∈ ks) (m1 : P.LOG_USED ∈ ids ∨ (P.LOG_USED, r) ∈ ks) :
    ItemsBut ids ks (d.showRegion r) e ↔ ItemsBut ids ks d e :=
  itemsBut_congr ((showRegion_spec d r).2.mono (by simp) (by simp [m0, m1])) e

/-- A record enters the last-words area. -/
theorem lastWords_spec (d : Dev) (r : Nat) (x : Rec) : (d.lastWords r x).rest = { d.rest with rcd := { quietRcd d.rcd with lwWrote := (d.lastWords r x).rcd.lwWrote } } ∧
    ItemsBut [] [(P.LOG_STATUS, 0), (P.LOG_LW_LOST, 0), (P.LOG_LW_USED, 0)] (d.lastWords r x) d := by
  unfold Dev.lastWords Dev.recorder
  try simp only []
  repeat' split
  all_goals
    exact ⟨by first | (simp [itemsBut_self, -judge_rest, judge_rest', -timeState_rest, timeState_rest', -takeSeq_rest, takeSeq_rest', -hold_rest, hold_rest', -admit_rest, admit_rest', -input_rest, input_rest', -offer_rest, offer_rest', -stopNotice_rest, stopNotice_rest', -stopEvent_rest, stopEvent_rest', -giveUp_rest, giveUp_rest', -verdict_rest, verdict_rest', -engineFault_rest, engineFault_rest', -ctr_rest, ctr_rest', -beginReset_rest, beginReset_rest', -imageKeep_rest, imageKeep_rest', -imageCopy_rest, imageCopy_rest']; done) | (simp [itemsBut_self, -judge_rest, judge_rest', -timeState_rest, timeState_rest', -takeSeq_rest, takeSeq_rest', -hold_rest, hold_rest', -admit_rest, admit_rest', -input_rest, input_rest', -offer_rest, offer_rest', -stopNotice_rest, stopNotice_rest', -stopEvent_rest, stopEvent_rest', -giveUp_rest, giveUp_rest', -verdict_rest, verdict_rest', -engineFault_rest, engineFault_rest', -ctr_rest, ctr_rest', -beginReset_rest, beginReset_rest', -imageKeep_rest, imageKeep_rest', -imageCopy_rest, imageCopy_rest']; repeat' (first | rfl | apply And.intro)) | rfl, by simp [itemsBut_wr, itemsBut_inc, itemsBut_addW, itemsBut_maxTo, itemsBut_wrS, itemsBut_judge, itemsBut_timeState, itemsBut_takeSeq, itemsBut_countIn, itemsBut_hold, itemsBut_admit, itemsBut_input, itemsBut_offer, itemsBut_stopNotice, itemsBut_stopEvent, itemsBut_giveUp, itemsBut_verdict, itemsBut_engineFault, itemsBut_ctr, itemsBut_dspTrace, itemsBut_bypass, itemsBut_bypassHw, itemsBut_beginReset, itemsBut_mtrFlush, itemsBut_imageKeep, itemsBut_imageCopy, itemsBut_antState, itemsBut_judgeBias, itemsBut_chainState, itemsBut_showTile, itemsBut_putChan, itemsBut_freeChan, itemsBut_freeWhere, itemsBut_enableChan, itemsBut_place, itemsBut_placeAll, itemsBut_chainsEnable, itemsBut_startTracking, itemsBut_noteGain, itemsBut_stopTracking, itemsBut_snapTrigger, itemsBut_recorder, itemsBut_region, itemsBut_showRegion]⟩

theorem lastWords_rest' (d : Dev) (r : Nat) (x : Rec) : (d.lastWords r x).rest = { d.rest with rcd := { quietRcd d.rcd with lwWrote := (d.lastWords r x).rcd.lwWrote } } := (lastWords_spec d r x).1

@[simp] theorem lastWords_fields (d : Dev) (r : Nat) (x : Rec) :
    (d.lastWords r x).now = d.now ∧ (d.lastWords r x).snap = d.snap ∧ (d.lastWords r x).committedOnce = d.committedOnce ∧
    (d.lastWords r x).staged = d.staged ∧ (d.lastWords r x).ctrls = d.ctrls ∧ (d.lastWords r x).freeIx = d.freeIx ∧
    (d.lastWords r x).tim = d.tim ∧ (d.lastWords r x).chutes = d.chutes ∧ (d.lastWords r x).stp = d.stp ∧ (d.lastWords r x).air = d.air ∧
    (d.lastWords r x).gns = d.gns ∧ (d.lastWords r x).chiselOut = d.chiselOut ∧ (d.lastWords r x).ring = d.ring ∧
    (d.lastWords r x).can = d.can ∧ (d.lastWords r x).mtr = d.mtr ∧ (d.lastWords r x).drk = d.drk ∧ (d.lastWords r x).dsp = d.dsp ∧
    (d.lastWords r x).pwr = d.pwr ∧ (d.lastWords r x).peer = d.peer ∧ (d.lastWords r x).com = d.com ∧ KeptCyc (d.lastWords r x).cyc d.cyc ∧
    KeptHost (d.lastWords r x).host d.host ∧ (d.lastWords r x).rcd.nvNext = d.rcd.nvNext ∧ (d.lastWords r x).rcd.fullMark = d.rcd.fullMark ∧
    (d.lastWords r x).rcd.clears = d.rcd.clears ∧ (d.lastWords r x).rcd.pfail = d.rcd.pfail ∧ KeptTlg (d.lastWords r x).tlg d.tlg := by
  have h := (lastWords_spec d r x).1
  generalize d.lastWords r x = x at h ⊢
  have f {α : Type} (g : Dev → α) : g x.rest = g ({ d.rest with rcd := { quietRcd d.rcd with lwWrote := (x).rcd.lwWrote } }) := congrArg g h
  exact ⟨f (·.now), f (·.snap), f (·.committedOnce), f (·.staged), f (·.ctrls), f (·.freeIx), f (·.tim), f (·.chutes), f (·.stp), f (·.air),
    f (·.gns), f (·.chiselOut), f (·.ring), f (·.can), f (·.mtr), f (·.drk), f (·.dsp), f (·.pwr), f (·.peer), f (·.com),
    KeptCyc.of (f (·.cyc)), KeptHost.of (f (·.host)), f (·.rcd.nvNext), f (·.rcd.fullMark), f (·.rcd.clears), f (·.rcd.pfail),
    KeptTlg.of (f (·.tlg))⟩

@[simp] theorem lastWords_rest (d : Dev) (r : Nat) (x : Rec) : (d.lastWords r x).rest =
    { d.rest with rcd := quietRcd (d.lastWords r x).rcd } := by
  have h := (lastWords_spec d r x).1
  generalize d.lastWords r x = x at h ⊢
  have f {α : Type} (g : Dev → α) : g x.rest = g ({ d.rest with rcd := { quietRcd d.rcd with lwWrote := (x).rcd.lwWrote } }) := congrArg g h
  exact dev_ext (f (·.now)) rfl (f (·.snap)) (f (·.committedOnce)) rfl (f (·.staged)) (f (·.ctrls)) rfl (f (·.freeIx)) (f (·.tim)) (f (·.cyc)) (f (·.host))
    (f (·.chutes)) rfl (f (·.stp)) (f (·.air)) (f (·.gns)) (f (·.chiselOut)) (f (·.ring)) (f (·.can)) (f (·.mtr)) (f (·.drk)) (f (·.dsp))
    (f (·.tlg)) (f (·.pwr)) (f (·.peer)) (f (·.com))

theorem lastWords_reads (d : Dev) (r : Nat) (x : Rec) : ∀ id jq, reportItem id = false → id ≠ P.LOG_STATUS → id ≠ P.LOG_LW_LOST → id ≠ P.LOG_LW_USED →
    (d.lastWords r x).rd id jq = d.rd id jq ∧ (d.lastWords r x).isSticky id jq = d.isSticky id jq ∧ (d.lastWords r x).cf id jq = d.cf id jq := by
  intro id jq hr h0 h1 h2
  have h := (lastWords_spec d r x).2 id jq hr (by simp) (by simp [regKey_ne, h0, Ne.symm h0, h1, Ne.symm h1, h2, Ne.symm h2])
  have e : (d.lastWords r x).staged = d.staged := by simp
  refine ⟨h.1, h.2, ?_⟩
  simp only [Dev.cf, e, h.1]

theorem lastWords_at (d : Dev) (r : Nat) (x : Rec) : ∀ id jq, reportItem id = false  → regKey P.LOG_STATUS 0 ≠ regKey id jq → regKey P.LOG_LW_LOST 0 ≠ regKey id jq → regKey P.LOG_LW_USED 0 ≠ regKey id jq →
    (d.lastWords r x).rd id jq = d.rd id jq ∧ (d.lastWords r x).isSticky id jq = d.isSticky id jq ∧ (d.lastWords r x).cf id jq = d.cf id jq := by
  intro id jq hr h0 h1 h2
  have h := (lastWords_spec d r x).2 id jq hr (by simp) (by simp [h0, h1, h2])
  have e : (d.lastWords r x).staged = d.staged := by simp
  refine ⟨h.1, h.2, ?_⟩
  simp only [Dev.cf, e, h.1]

theorem itemsBut_lastWords {ids : List Nat} {ks : List (Nat × Nat)} (d e : Dev) (r : Nat) (x : Rec) (m0 : P.LOG_STATUS ∈ ids ∨ (P.LOG_STATUS, 0) ∈ ks) (m1 : P.LOG_LW_LOST ∈ ids ∨ (P.LOG_LW_LOST, 0) ∈ ks) (m2 : P.LOG_LW_USED ∈ ids ∨ (P.LOG_LW_USED, 0) ∈ ks) :
    ItemsBut ids ks (d.lastWords r x) e ↔ ItemsBut ids ks d e :=
  itemsBut_congr ((lastWords_spec d r x).2.mono (by simp) (by simp [m0, m1, m2])) e

/-- A record written to its region. -/
theorem placeRec_spec (d : Dev) (x : Rec) : (d.placeRec x).rest = { d.rest with rcd := { quietRcd d.rcd with lwWrote := (d.placeRec x).rcd.lwWrote, fullMark := (d.placeRec x).rcd.fullMark } } ∧
    ItemsBut [P.LOG_FIRST, P.LOG_USED] [(P.LOG_STATUS, 0), (P.LOG_LW_LOST, 0), (P.LOG_LW_USED, 0), (P.LOG_SAFETY_LOST, 0), (P.LOG_OP_FILTERED, 0), (P.LOG_OP_DROPS, 0)] (d.placeRec x) d := by
  unfold Dev.placeRec Dev.recorder
  try simp only []
  repeat' split
  all_goals
    exact ⟨by first | (simp [itemsBut_self, -judge_rest, judge_rest', -timeState_rest, timeState_rest', -takeSeq_rest, takeSeq_rest', -hold_rest, hold_rest', -admit_rest, admit_rest', -input_rest, input_rest', -offer_rest, offer_rest', -stopNotice_rest, stopNotice_rest', -stopEvent_rest, stopEvent_rest', -giveUp_rest, giveUp_rest', -verdict_rest, verdict_rest', -engineFault_rest, engineFault_rest', -ctr_rest, ctr_rest', -beginReset_rest, beginReset_rest', -imageKeep_rest, imageKeep_rest', -imageCopy_rest, imageCopy_rest', -lastWords_rest, lastWords_rest']; done) | (simp [itemsBut_self, -judge_rest, judge_rest', -timeState_rest, timeState_rest', -takeSeq_rest, takeSeq_rest', -hold_rest, hold_rest', -admit_rest, admit_rest', -input_rest, input_rest', -offer_rest, offer_rest', -stopNotice_rest, stopNotice_rest', -stopEvent_rest, stopEvent_rest', -giveUp_rest, giveUp_rest', -verdict_rest, verdict_rest', -engineFault_rest, engineFault_rest', -ctr_rest, ctr_rest', -beginReset_rest, beginReset_rest', -imageKeep_rest, imageKeep_rest', -imageCopy_rest, imageCopy_rest', -lastWords_rest, lastWords_rest']; repeat' (first | rfl | apply And.intro)) | rfl, by simp [itemsBut_wr, itemsBut_inc, itemsBut_addW, itemsBut_maxTo, itemsBut_wrS, itemsBut_judge, itemsBut_timeState, itemsBut_takeSeq, itemsBut_countIn, itemsBut_hold, itemsBut_admit, itemsBut_input, itemsBut_offer, itemsBut_stopNotice, itemsBut_stopEvent, itemsBut_giveUp, itemsBut_verdict, itemsBut_engineFault, itemsBut_ctr, itemsBut_dspTrace, itemsBut_bypass, itemsBut_bypassHw, itemsBut_beginReset, itemsBut_mtrFlush, itemsBut_imageKeep, itemsBut_imageCopy, itemsBut_antState, itemsBut_judgeBias, itemsBut_chainState, itemsBut_showTile, itemsBut_putChan, itemsBut_freeChan, itemsBut_freeWhere, itemsBut_enableChan, itemsBut_place, itemsBut_placeAll, itemsBut_chainsEnable, itemsBut_startTracking, itemsBut_noteGain, itemsBut_stopTracking, itemsBut_snapTrigger, itemsBut_recorder, itemsBut_region, itemsBut_showRegion, itemsBut_lastWords]⟩

theorem placeRec_rest' (d : Dev) (x : Rec) : (d.placeRec x).rest = { d.rest with rcd := { quietRcd d.rcd with lwWrote := (d.placeRec x).rcd.lwWrote, fullMark := (d.placeRec x).rcd.fullMark } } := (placeRec_spec d x).1

@[simp] theorem placeRec_fields (d : Dev) (x : Rec) :
    (d.placeRec x).now = d.now ∧ (d.placeRec x).snap = d.snap ∧ (d.placeRec x).committedOnce = d.committedOnce ∧
    (d.placeRec x).staged = d.staged ∧ (d.placeRec x).ctrls = d.ctrls ∧ (d.placeRec x).freeIx = d.freeIx ∧ (d.placeRec x).tim = d.tim ∧
    (d.placeRec x).chutes = d.chutes ∧ (d.placeRec x).stp = d.stp ∧ (d.placeRec x).air = d.air ∧ (d.placeRec x).gns = d.gns ∧
    (d.placeRec x).chiselOut = d.chiselOut ∧ (d.placeRec x).ring = d.ring ∧ (d.placeRec x).can = d.can ∧ (d.placeRec x).mtr = d.mtr ∧
    (d.placeRec x).drk = d.drk ∧ (d.placeRec x).dsp = d.dsp ∧ (d.placeRec x).pwr = d.pwr ∧ (d.placeRec x).peer = d.peer ∧
    (d.placeRec x).com = d.com ∧ KeptCyc (d.placeRec x).cyc d.cyc ∧ KeptHost (d.placeRec x).host d.host ∧
    (d.placeRec x).rcd.nvNext = d.rcd.nvNext ∧ (d.placeRec x).rcd.clears = d.rcd.clears ∧ (d.placeRec x).rcd.pfail = d.rcd.pfail ∧
    KeptTlg (d.placeRec x).tlg d.tlg := by
  have h := (placeRec_spec d x).1
  generalize d.placeRec x = x at h ⊢
  have f {α : Type} (g : Dev → α) : g x.rest = g ({ d.rest with rcd := { quietRcd d.rcd with lwWrote := (x).rcd.lwWrote, fullMark := (x).rcd.fullMark } }) := congrArg g h
  exact ⟨f (·.now), f (·.snap), f (·.committedOnce), f (·.staged), f (·.ctrls), f (·.freeIx), f (·.tim), f (·.chutes), f (·.stp), f (·.air),
    f (·.gns), f (·.chiselOut), f (·.ring), f (·.can), f (·.mtr), f (·.drk), f (·.dsp), f (·.pwr), f (·.peer), f (·.com),
    KeptCyc.of (f (·.cyc)), KeptHost.of (f (·.host)), f (·.rcd.nvNext), f (·.rcd.clears), f (·.rcd.pfail), KeptTlg.of (f (·.tlg))⟩

@[simp] theorem placeRec_rest (d : Dev) (x : Rec) : (d.placeRec x).rest =
    { d.rest with rcd := quietRcd (d.placeRec x).rcd } := by
  have h := (placeRec_spec d x).1
  generalize d.placeRec x = x at h ⊢
  have f {α : Type} (g : Dev → α) : g x.rest = g ({ d.rest with rcd := { quietRcd d.rcd with lwWrote := (x).rcd.lwWrote, fullMark := (x).rcd.fullMark } }) := congrArg g h
  exact dev_ext (f (·.now)) rfl (f (·.snap)) (f (·.committedOnce)) rfl (f (·.staged)) (f (·.ctrls)) rfl (f (·.freeIx)) (f (·.tim)) (f (·.cyc)) (f (·.host))
    (f (·.chutes)) rfl (f (·.stp)) (f (·.air)) (f (·.gns)) (f (·.chiselOut)) (f (·.ring)) (f (·.can)) (f (·.mtr)) (f (·.drk)) (f (·.dsp))
    (f (·.tlg)) (f (·.pwr)) (f (·.peer)) (f (·.com))

theorem placeRec_reads (d : Dev) (x : Rec) : ∀ id jq, reportItem id = false → id ≠ P.LOG_FIRST → id ≠ P.LOG_USED → id ≠ P.LOG_STATUS → id ≠ P.LOG_LW_LOST → id ≠ P.LOG_LW_USED → id ≠ P.LOG_SAFETY_LOST → id ≠ P.LOG_OP_FILTERED → id ≠ P.LOG_OP_DROPS →
    (d.placeRec x).rd id jq = d.rd id jq ∧ (d.placeRec x).isSticky id jq = d.isSticky id jq ∧ (d.placeRec x).cf id jq = d.cf id jq := by
  intro id jq hr h0 h1 h2 h3 h4 h5 h6 h7
  have h := (placeRec_spec d x).2 id jq hr (by simp [h0, Ne.symm h0, h1, Ne.symm h1, h2, Ne.symm h2, h3, Ne.symm h3, h4, Ne.symm h4, h5, Ne.symm h5, h6, Ne.symm h6, h7, Ne.symm h7]) (by simp [regKey_ne, h0, Ne.symm h0, h1, Ne.symm h1, h2, Ne.symm h2, h3, Ne.symm h3, h4, Ne.symm h4, h5, Ne.symm h5, h6, Ne.symm h6, h7, Ne.symm h7])
  have e : (d.placeRec x).staged = d.staged := by simp
  refine ⟨h.1, h.2, ?_⟩
  simp only [Dev.cf, e, h.1]

theorem placeRec_at (d : Dev) (x : Rec) : ∀ id jq, reportItem id = false → P.LOG_FIRST ≠ id → P.LOG_USED ≠ id → regKey P.LOG_STATUS 0 ≠ regKey id jq → regKey P.LOG_LW_LOST 0 ≠ regKey id jq → regKey P.LOG_LW_USED 0 ≠ regKey id jq → regKey P.LOG_SAFETY_LOST 0 ≠ regKey id jq → regKey P.LOG_OP_FILTERED 0 ≠ regKey id jq → regKey P.LOG_OP_DROPS 0 ≠ regKey id jq →
    (d.placeRec x).rd id jq = d.rd id jq ∧ (d.placeRec x).isSticky id jq = d.isSticky id jq ∧ (d.placeRec x).cf id jq = d.cf id jq := by
  intro id jq hr h0 h1 h2 h3 h4 h5 h6 h7
  have h := (placeRec_spec d x).2 id jq hr (by simp [Ne.symm h0, Ne.symm h1]) (by simp [h2, h3, h4, h5, h6, h7])
  have e : (d.placeRec x).staged = d.staged := by simp
  refine ⟨h.1, h.2, ?_⟩
  simp only [Dev.cf, e, h.1]

theorem itemsBut_placeRec {ids : List Nat} {ks : List (Nat × Nat)} (d e : Dev) (x : Rec) (m0 : P.LOG_FIRST ∈ ids) (m1 : P.LOG_USED ∈ ids) (m2 : P.LOG_STATUS ∈ ids ∨ (P.LOG_STATUS, 0) ∈ ks) (m3 : P.LOG_LW_LOST ∈ ids ∨ (P.LOG_LW_LOST, 0) ∈ ks) (m4 : P.LOG_LW_USED ∈ ids ∨ (P.LOG_LW_USED, 0) ∈ ks) (m5 : P.LOG_SAFETY_LOST ∈ ids ∨ (P.LOG_SAFETY_LOST, 0) ∈ ks) (m6 : P.LOG_OP_FILTERED ∈ ids ∨ (P.LOG_OP_FILTERED, 0) ∈ ks) (m7 : P.LOG_OP_DROPS ∈ ids ∨ (P.LOG_OP_DROPS, 0) ∈ ks) :
    ItemsBut ids ks (d.placeRec x) e ↔ ItemsBut ids ks d e :=
  itemsBut_congr ((placeRec_spec d x).2.mono (by simp [m0, m1]) (by simp [m2, m3, m4, m5, m6, m7])) e

/-- A flush of the buffer. -/
theorem flush_spec (d : Dev)  : (d.flush).rest = { d.rest with rcd := quietRcd (d.flush).rcd } ∧
    ItemsBut [P.LOG_FIRST, P.LOG_USED] [(P.LOG_STATUS, 0), (P.LOG_LW_LOST, 0), (P.LOG_LW_USED, 0), (P.LOG_SAFETY_LOST, 0), (P.LOG_OP_FILTERED, 0), (P.LOG_OP_DROPS, 0), (P.LOG_FLUSHES, 0)] (d.flush) d := by
  unfold Dev.flush Dev.recorder
  simp only []
  split
  · exact ⟨rfl, itemsBut_self _ _ _⟩
  · have h := foldl_keeps (fun x : Dev => ({ x.rest with rcd := default } : Dev)) (fun d x => d.placeRec x) (fun x a => by simp only [(placeRec_spec x a).1])
    have g := fold_items (fun d x => d.placeRec x) (fun x a => ((placeRec_spec x a).2.mono (by simp) (by simp) : ItemsBut [P.LOG_FIRST, P.LOG_USED]
        [(P.LOG_STATUS, 0), (P.LOG_LW_LOST, 0), (P.LOG_LW_USED, 0), (P.LOG_SAFETY_LOST, 0), (P.LOG_OP_FILTERED, 0), (P.LOG_OP_DROPS, 0), (P.LOG_FLUSHES, 0)] _ _))
    refine ⟨(congrArg (fun x : Dev => ({ x with rcd := _ } : Dev)) (h _ _)).trans ?_, ?_⟩
    · simp
    · simp only [itemsBut_mk]
      exact (g _ _).trans (by simp [itemsBut_inc])

@[simp] theorem flush_fields (d : Dev)  :
    (d.flush).now = d.now ∧ (d.flush).snap = d.snap ∧ (d.flush).committedOnce = d.committedOnce ∧ (d.flush).staged = d.staged ∧
    (d.flush).ctrls = d.ctrls ∧ (d.flush).freeIx = d.freeIx ∧ (d.flush).tim = d.tim ∧ (d.flush).chutes = d.chutes ∧ (d.flush).stp = d.stp ∧
    (d.flush).air = d.air ∧ (d.flush).gns = d.gns ∧ (d.flush).chiselOut = d.chiselOut ∧ (d.flush).ring = d.ring ∧ (d.flush).can = d.can ∧
    (d.flush).mtr = d.mtr ∧ (d.flush).drk = d.drk ∧ (d.flush).dsp = d.dsp ∧ (d.flush).pwr = d.pwr ∧ (d.flush).peer = d.peer ∧
    (d.flush).com = d.com ∧ KeptCyc (d.flush).cyc d.cyc ∧ KeptHost (d.flush).host d.host ∧ KeptTlg (d.flush).tlg d.tlg := by
  have h := (flush_spec d ).1
  generalize d.flush = x at h ⊢
  have f {α : Type} (g : Dev → α) : g x.rest = g ({ d.rest with rcd := quietRcd (x).rcd }) := congrArg g h
  exact ⟨f (·.now), f (·.snap), f (·.committedOnce), f (·.staged), f (·.ctrls), f (·.freeIx), f (·.tim), f (·.chutes), f (·.stp), f (·.air),
    f (·.gns), f (·.chiselOut), f (·.ring), f (·.can), f (·.mtr), f (·.drk), f (·.dsp), f (·.pwr), f (·.peer), f (·.com),
    KeptCyc.of (f (·.cyc)), KeptHost.of (f (·.host)), KeptTlg.of (f (·.tlg))⟩

@[simp] theorem flush_rest (d : Dev)  : (d.flush).rest =
    { d.rest with rcd := quietRcd (d.flush).rcd } := by
  have h := (flush_spec d ).1
  generalize d.flush = x at h ⊢
  have f {α : Type} (g : Dev → α) : g x.rest = g ({ d.rest with rcd := quietRcd (x).rcd }) := congrArg g h
  exact dev_ext (f (·.now)) rfl (f (·.snap)) (f (·.committedOnce)) rfl (f (·.staged)) (f (·.ctrls)) rfl (f (·.freeIx)) (f (·.tim)) (f (·.cyc)) (f (·.host))
    (f (·.chutes)) rfl (f (·.stp)) (f (·.air)) (f (·.gns)) (f (·.chiselOut)) (f (·.ring)) (f (·.can)) (f (·.mtr)) (f (·.drk)) (f (·.dsp))
    (f (·.tlg)) (f (·.pwr)) (f (·.peer)) (f (·.com))

theorem flush_reads (d : Dev)  : ∀ id jq, reportItem id = false → id ≠ P.LOG_FIRST → id ≠ P.LOG_USED → id ≠ P.LOG_STATUS → id ≠ P.LOG_LW_LOST → id ≠ P.LOG_LW_USED → id ≠ P.LOG_SAFETY_LOST → id ≠ P.LOG_OP_FILTERED → id ≠ P.LOG_OP_DROPS → id ≠ P.LOG_FLUSHES →
    (d.flush).rd id jq = d.rd id jq ∧ (d.flush).isSticky id jq = d.isSticky id jq ∧ (d.flush).cf id jq = d.cf id jq := by
  intro id jq hr h0 h1 h2 h3 h4 h5 h6 h7 h8
  have h := (flush_spec d ).2 id jq hr (by simp [h0, Ne.symm h0, h1, Ne.symm h1, h2, Ne.symm h2, h3, Ne.symm h3, h4, Ne.symm h4, h5, Ne.symm h5, h6, Ne.symm h6, h7, Ne.symm h7, h8, Ne.symm h8]) (by simp [regKey_ne, h0, Ne.symm h0, h1, Ne.symm h1, h2, Ne.symm h2, h3, Ne.symm h3, h4, Ne.symm h4, h5, Ne.symm h5, h6, Ne.symm h6, h7, Ne.symm h7, h8, Ne.symm h8])
  have e : (d.flush).staged = d.staged := by simp
  refine ⟨h.1, h.2, ?_⟩
  simp only [Dev.cf, e, h.1]

theorem flush_at (d : Dev)  : ∀ id jq, reportItem id = false → P.LOG_FIRST ≠ id → P.LOG_USED ≠ id → regKey P.LOG_STATUS 0 ≠ regKey id jq → regKey P.LOG_LW_LOST 0 ≠ regKey id jq → regKey P.LOG_LW_USED 0 ≠ regKey id jq → regKey P.LOG_SAFETY_LOST 0 ≠ regKey id jq → regKey P.LOG_OP_FILTERED 0 ≠ regKey id jq → regKey P.LOG_OP_DROPS 0 ≠ regKey id jq → regKey P.LOG_FLUSHES 0 ≠ regKey id jq →
    (d.flush).rd id jq = d.rd id jq ∧ (d.flush).isSticky id jq = d.isSticky id jq ∧ (d.flush).cf id jq = d.cf id jq := by
  intro id jq hr h0 h1 h2 h3 h4 h5 h6 h7 h8
  have h := (flush_spec d ).2 id jq hr (by simp [Ne.symm h0, Ne.symm h1]) (by simp [h2, h3, h4, h5, h6, h7, h8])
  have e : (d.flush).staged = d.staged := by simp
  refine ⟨h.1, h.2, ?_⟩
  simp only [Dev.cf, e, h.1]

theorem itemsBut_flush {ids : List Nat} {ks : List (Nat × Nat)} (d e : Dev)  (m0 : P.LOG_FIRST ∈ ids) (m1 : P.LOG_USED ∈ ids) (m2 : P.LOG_STATUS ∈ ids ∨ (P.LOG_STATUS, 0) ∈ ks) (m3 : P.LOG_LW_LOST ∈ ids ∨ (P.LOG_LW_LOST, 0) ∈ ks) (m4 : P.LOG_LW_USED ∈ ids ∨ (P.LOG_LW_USED, 0) ∈ ks) (m5 : P.LOG_SAFETY_LOST ∈ ids ∨ (P.LOG_SAFETY_LOST, 0) ∈ ks) (m6 : P.LOG_OP_FILTERED ∈ ids ∨ (P.LOG_OP_FILTERED, 0) ∈ ks) (m7 : P.LOG_OP_DROPS ∈ ids ∨ (P.LOG_OP_DROPS, 0) ∈ ks) (m8 : P.LOG_FLUSHES ∈ ids ∨ (P.LOG_FLUSHES, 0) ∈ ks) :
    ItemsBut ids ks (d.flush) e ↔ ItemsBut ids ks d e :=
  itemsBut_congr ((flush_spec d ).2.mono (by simp [m0, m1]) (by simp [m2, m3, m4, m5, m6, m7, m8])) e

/-- A region that can be written no more. -/
theorem regionLost_spec (d : Dev) (r why : Nat) : (d.regionLost r why).rest = { d.rest with rcd := { quietRcd d.rcd with  } } ∧
    ItemsBut [] [] (d.regionLost r why) d := by
  unfold Dev.regionLost
  try simp only []
  repeat' split
  all_goals
    exact ⟨by first | (simp [itemsBut_self, -judge_rest, judge_rest', -timeState_rest, timeState_rest', -takeSeq_rest, takeSeq_rest', -hold_rest, hold_rest', -admit_rest, admit_rest', -input_rest, input_rest', -offer_rest, offer_rest', -stopNotice_rest, stopNotice_rest', -stopEvent_rest, stopEvent_rest', -giveUp_rest, giveUp_rest', -verdict_rest, verdict_rest', -engineFault_rest, engineFault_rest', -ctr_rest, ctr_rest', -beginReset_rest, beginReset_rest', -imageKeep_rest, imageKeep_rest', -imageCopy_rest, imageCopy_rest', -lastWords_rest, lastWords_rest', -placeRec_rest, placeRec_rest']; done) | (simp [itemsBut_self, -judge_rest, judge_rest', -timeState_rest, timeState_rest', -takeSeq_rest, takeSeq_rest', -hold_rest, hold_rest', -admit_rest, admit_rest', -input_rest, input_rest', -offer_rest, offer_rest', -stopNotice_rest, stopNotice_rest', -stopEvent_rest, stopEvent_rest', -giveUp_rest, giveUp_rest', -verdict_rest, verdict_rest', -engineFault_rest, engineFault_rest', -ctr_rest, ctr_rest', -beginReset_rest, beginReset_rest', -imageKeep_rest, imageKeep_rest', -imageCopy_rest, imageCopy_rest', -lastWords_rest, lastWords_rest', -placeRec_rest, placeRec_rest']; repeat' (first | rfl | apply And.intro)) | rfl, by simp [itemsBut_wr, itemsBut_inc, itemsBut_addW, itemsBut_maxTo, itemsBut_wrS, itemsBut_judge, itemsBut_timeState, itemsBut_takeSeq, itemsBut_countIn, itemsBut_hold, itemsBut_admit, itemsBut_input, itemsBut_offer, itemsBut_stopNotice, itemsBut_stopEvent, itemsBut_giveUp, itemsBut_verdict, itemsBut_engineFault, itemsBut_ctr, itemsBut_dspTrace, itemsBut_bypass, itemsBut_bypassHw, itemsBut_beginReset, itemsBut_mtrFlush, itemsBut_imageKeep, itemsBut_imageCopy, itemsBut_antState, itemsBut_judgeBias, itemsBut_chainState, itemsBut_showTile, itemsBut_putChan, itemsBut_freeChan, itemsBut_freeWhere, itemsBut_enableChan, itemsBut_place, itemsBut_placeAll, itemsBut_chainsEnable, itemsBut_startTracking, itemsBut_noteGain, itemsBut_stopTracking, itemsBut_snapTrigger, itemsBut_recorder, itemsBut_region, itemsBut_showRegion, itemsBut_lastWords, itemsBut_placeRec, itemsBut_flush]⟩

@[simp] theorem regionLost_fields (d : Dev) (r why : Nat) :
    (d.regionLost r why).now = d.now ∧ (d.regionLost r why).snap = d.snap ∧ (d.regionLost r why).committedOnce = d.committedOnce ∧
    (d.regionLost r why).staged = d.staged ∧ (d.regionLost r why).ctrls = d.ctrls ∧ (d.regionLost r why).freeIx = d.freeIx ∧
    (d.regionLost r why).tim = d.tim ∧ (d.regionLost r why).chutes = d.chutes ∧ (d.regionLost r why).stp = d.stp ∧
    (d.regionLost r why).air = d.air ∧ (d.regionLost r why).gns = d.gns ∧ (d.regionLost r why).chiselOut = d.chiselOut ∧
    (d.regionLost r why).ring = d.ring ∧ (d.regionLost r why).can = d.can ∧ (d.regionLost r why).mtr = d.mtr ∧
    (d.regionLost r why).drk = d.drk ∧ (d.regionLost r why).dsp = d.dsp ∧ (d.regionLost r why).pwr = d.pwr ∧
    (d.regionLost r why).peer = d.peer ∧ (d.regionLost r why).com = d.com ∧ KeptCyc (d.regionLost r why).cyc d.cyc ∧
    KeptHost (d.regionLost r why).host d.host ∧ (d.regionLost r why).rcd.nvNext = d.rcd.nvNext ∧
    (d.regionLost r why).rcd.fullMark = d.rcd.fullMark ∧ (d.regionLost r why).rcd.clears = d.rcd.clears ∧
    (d.regionLost r why).rcd.pfail = d.rcd.pfail ∧ (d.regionLost r why).rcd.lwWrote = d.rcd.lwWrote ∧ KeptTlg (d.regionLost r why).tlg d.tlg := by
  have h := (regionLost_spec d r why).1
  generalize d.regionLost r why = x at h ⊢
  have f {α : Type} (g : Dev → α) : g x.rest = g ({ d.rest with rcd := { quietRcd d.rcd with  } }) := congrArg g h
  exact ⟨f (·.now), f (·.snap), f (·.committedOnce), f (·.staged), f (·.ctrls), f (·.freeIx), f (·.tim), f (·.chutes), f (·.stp), f (·.air),
    f (·.gns), f (·.chiselOut), f (·.ring), f (·.can), f (·.mtr), f (·.drk), f (·.dsp), f (·.pwr), f (·.peer), f (·.com),
    KeptCyc.of (f (·.cyc)), KeptHost.of (f (·.host)), f (·.rcd.nvNext), f (·.rcd.fullMark), f (·.rcd.clears), f (·.rcd.pfail),
    f (·.rcd.lwWrote), KeptTlg.of (f (·.tlg))⟩

@[simp] theorem regionLost_rest (d : Dev) (r why : Nat) : (d.regionLost r why).rest =
    { d.rest with rcd := quietRcd (d.regionLost r why).rcd } := by
  have h := (regionLost_spec d r why).1
  generalize d.regionLost r why = x at h ⊢
  have f {α : Type} (g : Dev → α) : g x.rest = g ({ d.rest with rcd := { quietRcd d.rcd with  } }) := congrArg g h
  exact dev_ext (f (·.now)) rfl (f (·.snap)) (f (·.committedOnce)) rfl (f (·.staged)) (f (·.ctrls)) rfl (f (·.freeIx)) (f (·.tim)) (f (·.cyc)) (f (·.host))
    (f (·.chutes)) rfl (f (·.stp)) (f (·.air)) (f (·.gns)) (f (·.chiselOut)) (f (·.ring)) (f (·.can)) (f (·.mtr)) (f (·.drk)) (f (·.dsp))
    (f (·.tlg)) (f (·.pwr)) (f (·.peer)) (f (·.com))

theorem regionLost_reads (d : Dev) (r why : Nat) : ∀ id jq, reportItem id = false  →
    (d.regionLost r why).rd id jq = d.rd id jq ∧ (d.regionLost r why).isSticky id jq = d.isSticky id jq ∧ (d.regionLost r why).cf id jq = d.cf id jq := by
  intro id jq hr 
  have h := (regionLost_spec d r why).2 id jq hr (by simp) (by simp)
  have e : (d.regionLost r why).staged = d.staged := by simp
  refine ⟨h.1, h.2, ?_⟩
  simp only [Dev.cf, e, h.1]

theorem itemsBut_regionLost {ids : List Nat} {ks : List (Nat × Nat)} (d e : Dev) (r why : Nat)  :
    ItemsBut ids ks (d.regionLost r why) e ↔ ItemsBut ids ks d e :=
  itemsBut_congr ((regionLost_spec d r why).2.mono (by simp) (by simp)) e

/-! ### Dispatcher -/

/-- A context stored. -/
theorem setTask_spec (d : Dev) (x : DTask) : (d.setTask x).rest = { d.rest with dsp := { d.dsp with tasks := (d.setTask x).dsp.tasks } } ∧
    ItemsBut [] [] (d.setTask x) d := by
  exact ⟨rfl, fun _ _ _ _ _ => ⟨rfl, rfl⟩⟩

theorem setTask_rest' (d : Dev) (x : DTask) : (d.setTask x).rest = { d.rest with dsp := { d.dsp with tasks := (d.setTask x).dsp.tasks } } := (setTask_spec d x).1

@[simp] theorem setTask_fields (d : Dev) (x : DTask) :
    (d.setTask x).now = d.now ∧ (d.setTask x).snap = d.snap ∧ (d.setTask x).committedOnce = d.committedOnce ∧ (d.setTask x).staged = d.staged ∧
    (d.setTask x).ctrls = d.ctrls ∧ (d.setTask x).freeIx = d.freeIx ∧ (d.setTask x).tim = d.tim ∧ (d.setTask x).chutes = d.chutes ∧
    (d.setTask x).stp = d.stp ∧ (d.setTask x).air = d.air ∧ (d.setTask x).gns = d.gns ∧ (d.setTask x).chiselOut = d.chiselOut ∧
    (d.setTask x).ring = d.ring ∧ (d.setTask x).can = d.can ∧ (d.setTask x).mtr = d.mtr ∧ (d.setTask x).drk = d.drk ∧
    (d.setTask x).dsp.cores = d.dsp.cores ∧ (d.setTask x).dsp.events = d.dsp.events ∧ (d.setTask x).dsp.failed = d.dsp.failed ∧
    (d.setTask x).pwr = d.pwr ∧ (d.setTask x).peer = d.peer ∧ (d.setTask x).com = d.com ∧ KeptCyc (d.setTask x).cyc d.cyc ∧
    KeptHost (d.setTask x).host d.host ∧ KeptRcd (d.setTask x).rcd d.rcd ∧ KeptTlg (d.setTask x).tlg d.tlg := by
  have h := (setTask_spec d x).1
  generalize d.setTask x = x at h ⊢
  have f {α : Type} (g : Dev → α) : g x.rest = g ({ d.rest with dsp := { d.dsp with tasks := (x).dsp.tasks } }) := congrArg g h
  exact ⟨f (·.now), f (·.snap), f (·.committedOnce), f (·.staged), f (·.ctrls), f (·.freeIx), f (·.tim), f (·.chutes), f (·.stp), f (·.air),
    f (·.gns), f (·.chiselOut), f (·.ring), f (·.can), f (·.mtr), f (·.drk), f (·.dsp.cores), f (·.dsp.events), f (·.dsp.failed), f (·.pwr),
    f (·.peer), f (·.com), KeptCyc.of (f (·.cyc)), KeptHost.of (f (·.host)), KeptRcd.of (f (·.rcd)), KeptTlg.of (f (·.tlg))⟩

@[simp] theorem setTask_rest (d : Dev) (x : DTask) : (d.setTask x).rest =
    { d.rest with dsp := (d.setTask x).dsp } := by
  have h := (setTask_spec d x).1
  generalize d.setTask x = x at h ⊢
  have f {α : Type} (g : Dev → α) : g x.rest = g ({ d.rest with dsp := { d.dsp with tasks := (x).dsp.tasks } }) := congrArg g h
  exact dev_ext (f (·.now)) rfl (f (·.snap)) (f (·.committedOnce)) rfl (f (·.staged)) (f (·.ctrls)) rfl (f (·.freeIx)) (f (·.tim)) (f (·.cyc)) (f (·.host))
    (f (·.chutes)) (f (·.rcd)) (f (·.stp)) (f (·.air)) (f (·.gns)) (f (·.chiselOut)) (f (·.ring)) (f (·.can)) (f (·.mtr)) (f (·.drk)) rfl
    (f (·.tlg)) (f (·.pwr)) (f (·.peer)) (f (·.com))

theorem setTask_reads (d : Dev) (x : DTask) : ∀ id jq, reportItem id = false  →
    (d.setTask x).rd id jq = d.rd id jq ∧ (d.setTask x).isSticky id jq = d.isSticky id jq ∧ (d.setTask x).cf id jq = d.cf id jq := by
  intro id jq hr 
  have h := (setTask_spec d x).2 id jq hr (by simp) (by simp)
  have e : (d.setTask x).staged = d.staged := by simp
  refine ⟨h.1, h.2, ?_⟩
  simp only [Dev.cf, e, h.1]

theorem itemsBut_setTask {ids : List Nat} {ks : List (Nat × Nat)} (d e : Dev) (x : DTask)  :
    ItemsBut ids ks (d.setTask x) e ↔ ItemsBut ids ks d e :=
  itemsBut_congr ((setTask_spec d x).2.mono (by simp) (by simp)) e

/-- A core stored. -/
theorem setCore_spec (d : Dev) (c : Nat) (x : DCore) : (d.setCore c x).rest = { d.rest with dsp := { d.dsp with cores := (d.setCore c x).dsp.cores } } ∧
    ItemsBut [] [] (d.setCore c x) d := by
  exact ⟨rfl, fun _ _ _ _ _ => ⟨rfl, rfl⟩⟩

theorem setCore_rest' (d : Dev) (c : Nat) (x : DCore) : (d.setCore c x).rest = { d.rest with dsp := { d.dsp with cores := (d.setCore c x).dsp.cores } } := (setCore_spec d c x).1

@[simp] theorem setCore_fields (d : Dev) (c : Nat) (x : DCore) :
    (d.setCore c x).now = d.now ∧ (d.setCore c x).snap = d.snap ∧ (d.setCore c x).committedOnce = d.committedOnce ∧
    (d.setCore c x).staged = d.staged ∧ (d.setCore c x).ctrls = d.ctrls ∧ (d.setCore c x).freeIx = d.freeIx ∧ (d.setCore c x).tim = d.tim ∧
    (d.setCore c x).chutes = d.chutes ∧ (d.setCore c x).stp = d.stp ∧ (d.setCore c x).air = d.air ∧ (d.setCore c x).gns = d.gns ∧
    (d.setCore c x).chiselOut = d.chiselOut ∧ (d.setCore c x).ring = d.ring ∧ (d.setCore c x).can = d.can ∧ (d.setCore c x).mtr = d.mtr ∧
    (d.setCore c x).drk = d.drk ∧ (d.setCore c x).dsp.tasks = d.dsp.tasks ∧ (d.setCore c x).dsp.events = d.dsp.events ∧
    (d.setCore c x).dsp.failed = d.dsp.failed ∧ (d.setCore c x).pwr = d.pwr ∧ (d.setCore c x).peer = d.peer ∧ (d.setCore c x).com = d.com ∧
    KeptCyc (d.setCore c x).cyc d.cyc ∧ KeptHost (d.setCore c x).host d.host ∧ KeptRcd (d.setCore c x).rcd d.rcd ∧
    KeptTlg (d.setCore c x).tlg d.tlg := by
  have h := (setCore_spec d c x).1
  generalize d.setCore c x = x at h ⊢
  have f {α : Type} (g : Dev → α) : g x.rest = g ({ d.rest with dsp := { d.dsp with cores := (x).dsp.cores } }) := congrArg g h
  exact ⟨f (·.now), f (·.snap), f (·.committedOnce), f (·.staged), f (·.ctrls), f (·.freeIx), f (·.tim), f (·.chutes), f (·.stp), f (·.air),
    f (·.gns), f (·.chiselOut), f (·.ring), f (·.can), f (·.mtr), f (·.drk), f (·.dsp.tasks), f (·.dsp.events), f (·.dsp.failed), f (·.pwr),
    f (·.peer), f (·.com), KeptCyc.of (f (·.cyc)), KeptHost.of (f (·.host)), KeptRcd.of (f (·.rcd)), KeptTlg.of (f (·.tlg))⟩

@[simp] theorem setCore_rest (d : Dev) (c : Nat) (x : DCore) : (d.setCore c x).rest =
    { d.rest with dsp := (d.setCore c x).dsp } := by
  have h := (setCore_spec d c x).1
  generalize d.setCore c x = x at h ⊢
  have f {α : Type} (g : Dev → α) : g x.rest = g ({ d.rest with dsp := { d.dsp with cores := (x).dsp.cores } }) := congrArg g h
  exact dev_ext (f (·.now)) rfl (f (·.snap)) (f (·.committedOnce)) rfl (f (·.staged)) (f (·.ctrls)) rfl (f (·.freeIx)) (f (·.tim)) (f (·.cyc)) (f (·.host))
    (f (·.chutes)) (f (·.rcd)) (f (·.stp)) (f (·.air)) (f (·.gns)) (f (·.chiselOut)) (f (·.ring)) (f (·.can)) (f (·.mtr)) (f (·.drk)) rfl
    (f (·.tlg)) (f (·.pwr)) (f (·.peer)) (f (·.com))

theorem setCore_reads (d : Dev) (c : Nat) (x : DCore) : ∀ id jq, reportItem id = false  →
    (d.setCore c x).rd id jq = d.rd id jq ∧ (d.setCore c x).isSticky id jq = d.isSticky id jq ∧ (d.setCore c x).cf id jq = d.cf id jq := by
  intro id jq hr 
  have h := (setCore_spec d c x).2 id jq hr (by simp) (by simp)
  have e : (d.setCore c x).staged = d.staged := by simp
  refine ⟨h.1, h.2, ?_⟩
  simp only [Dev.cf, e, h.1]

theorem itemsBut_setCore {ids : List Nat} {ks : List (Nat × Nat)} (d e : Dev) (c : Nat) (x : DCore)  :
    ItemsBut ids ks (d.setCore c x) e ↔ ItemsBut ids ks d e :=
  itemsBut_congr ((setCore_spec d c x).2.mono (by simp) (by simp)) e

/-- A core's busy time counted. -/
theorem coreCount_spec (d : Dev) (c : Nat) : (d.coreCount c).rest = { d.rest with dsp := { d.dsp with cores := (d.coreCount c).dsp.cores }, tlg := { quietTlg d.tlg with ctrs := (d.coreCount c).tlg.ctrs, stuck := (d.coreCount c).tlg.stuck } } ∧
    ItemsBut [] [] (d.coreCount c) d := by
  unfold Dev.coreCount
  try simp only []
  repeat' split
  all_goals
    exact ⟨by first | (simp [itemsBut_self, -judge_rest, judge_rest', -timeState_rest, timeState_rest', -takeSeq_rest, takeSeq_rest', -hold_rest, hold_rest', -admit_rest, admit_rest', -input_rest, input_rest', -offer_rest, offer_rest', -stopNotice_rest, stopNotice_rest', -stopEvent_rest, stopEvent_rest', -giveUp_rest, giveUp_rest', -verdict_rest, verdict_rest', -engineFault_rest, engineFault_rest', -ctr_rest, ctr_rest', -beginReset_rest, beginReset_rest', -imageKeep_rest, imageKeep_rest', -imageCopy_rest, imageCopy_rest', -lastWords_rest, lastWords_rest', -placeRec_rest, placeRec_rest', -setTask_rest, setTask_rest', -setCore_rest, setCore_rest']; done) | (simp [itemsBut_self, -judge_rest, judge_rest', -timeState_rest, timeState_rest', -takeSeq_rest, takeSeq_rest', -hold_rest, hold_rest', -admit_rest, admit_rest', -input_rest, input_rest', -offer_rest, offer_rest', -stopNotice_rest, stopNotice_rest', -stopEvent_rest, stopEvent_rest', -giveUp_rest, giveUp_rest', -verdict_rest, verdict_rest', -engineFault_rest, engineFault_rest', -ctr_rest, ctr_rest', -beginReset_rest, beginReset_rest', -imageKeep_rest, imageKeep_rest', -imageCopy_rest, imageCopy_rest', -lastWords_rest, lastWords_rest', -placeRec_rest, placeRec_rest', -setTask_rest, setTask_rest', -setCore_rest, setCore_rest']; repeat' (first | rfl | apply And.intro)) | rfl, by simp [itemsBut_wr, itemsBut_inc, itemsBut_addW, itemsBut_maxTo, itemsBut_wrS, itemsBut_judge, itemsBut_timeState, itemsBut_takeSeq, itemsBut_countIn, itemsBut_hold, itemsBut_admit, itemsBut_input, itemsBut_offer, itemsBut_stopNotice, itemsBut_stopEvent, itemsBut_giveUp, itemsBut_verdict, itemsBut_engineFault, itemsBut_ctr, itemsBut_dspTrace, itemsBut_bypass, itemsBut_bypassHw, itemsBut_beginReset, itemsBut_mtrFlush, itemsBut_imageKeep, itemsBut_imageCopy, itemsBut_antState, itemsBut_judgeBias, itemsBut_chainState, itemsBut_showTile, itemsBut_putChan, itemsBut_freeChan, itemsBut_freeWhere, itemsBut_enableChan, itemsBut_place, itemsBut_placeAll, itemsBut_chainsEnable, itemsBut_startTracking, itemsBut_noteGain, itemsBut_stopTracking, itemsBut_snapTrigger, itemsBut_recorder, itemsBut_region, itemsBut_showRegion, itemsBut_lastWords, itemsBut_placeRec, itemsBut_flush, itemsBut_regionLost, itemsBut_setTask, itemsBut_setCore]⟩

theorem coreCount_rest' (d : Dev) (c : Nat) : (d.coreCount c).rest = { d.rest with dsp := { d.dsp with cores := (d.coreCount c).dsp.cores }, tlg := { quietTlg d.tlg with ctrs := (d.coreCount c).tlg.ctrs, stuck := (d.coreCount c).tlg.stuck } } := (coreCount_spec d c).1

@[simp] theorem coreCount_fields (d : Dev) (c : Nat) :
    (d.coreCount c).now = d.now ∧ (d.coreCount c).snap = d.snap ∧ (d.coreCount c).committedOnce = d.committedOnce ∧
    (d.coreCount c).staged = d.staged ∧ (d.coreCount c).ctrls = d.ctrls ∧ (d.coreCount c).freeIx = d.freeIx ∧ (d.coreCount c).tim = d.tim ∧
    (d.coreCount c).chutes = d.chutes ∧ (d.coreCount c).stp = d.stp ∧ (d.coreCount c).air = d.air ∧ (d.coreCount c).gns = d.gns ∧
    (d.coreCount c).chiselOut = d.chiselOut ∧ (d.coreCount c).ring = d.ring ∧ (d.coreCount c).can = d.can ∧ (d.coreCount c).mtr = d.mtr ∧
    (d.coreCount c).drk = d.drk ∧ (d.coreCount c).dsp.tasks = d.dsp.tasks ∧ (d.coreCount c).dsp.events = d.dsp.events ∧
    (d.coreCount c).dsp.failed = d.dsp.failed ∧ (d.coreCount c).pwr = d.pwr ∧ (d.coreCount c).peer = d.peer ∧ (d.coreCount c).com = d.com ∧
    KeptCyc (d.coreCount c).cyc d.cyc ∧ KeptHost (d.coreCount c).host d.host ∧ KeptRcd (d.coreCount c).rcd d.rcd ∧
    (d.coreCount c).tlg.snaps = d.tlg.snaps := by
  have h := (coreCount_spec d c).1
  generalize d.coreCount c = x at h ⊢
  have f {α : Type} (g : Dev → α) : g x.rest = g ({ d.rest with dsp := { d.dsp with cores := (x).dsp.cores }, tlg := { quietTlg d.tlg with ctrs := (x).tlg.ctrs, stuck := (x).tlg.stuck } }) := congrArg g h
  exact ⟨f (·.now), f (·.snap), f (·.committedOnce), f (·.staged), f (·.ctrls), f (·.freeIx), f (·.tim), f (·.chutes), f (·.stp), f (·.air),
    f (·.gns), f (·.chiselOut), f (·.ring), f (·.can), f (·.mtr), f (·.drk), f (·.dsp.tasks), f (·.dsp.events), f (·.dsp.failed), f (·.pwr),
    f (·.peer), f (·.com), KeptCyc.of (f (·.cyc)), KeptHost.of (f (·.host)), KeptRcd.of (f (·.rcd)), f (·.tlg.snaps)⟩

@[simp] theorem coreCount_rest (d : Dev) (c : Nat) : (d.coreCount c).rest =
    { d.rest with dsp := (d.coreCount c).dsp, tlg := quietTlg (d.coreCount c).tlg } := by
  have h := (coreCount_spec d c).1
  generalize d.coreCount c = x at h ⊢
  have f {α : Type} (g : Dev → α) : g x.rest = g ({ d.rest with dsp := { d.dsp with cores := (x).dsp.cores }, tlg := { quietTlg d.tlg with ctrs := (x).tlg.ctrs, stuck := (x).tlg.stuck } }) := congrArg g h
  exact dev_ext (f (·.now)) rfl (f (·.snap)) (f (·.committedOnce)) rfl (f (·.staged)) (f (·.ctrls)) rfl (f (·.freeIx)) (f (·.tim)) (f (·.cyc)) (f (·.host))
    (f (·.chutes)) (f (·.rcd)) (f (·.stp)) (f (·.air)) (f (·.gns)) (f (·.chiselOut)) (f (·.ring)) (f (·.can)) (f (·.mtr)) (f (·.drk)) rfl rfl
    (f (·.pwr)) (f (·.peer)) (f (·.com))

theorem coreCount_reads (d : Dev) (c : Nat) : ∀ id jq, reportItem id = false  →
    (d.coreCount c).rd id jq = d.rd id jq ∧ (d.coreCount c).isSticky id jq = d.isSticky id jq ∧ (d.coreCount c).cf id jq = d.cf id jq := by
  intro id jq hr 
  have h := (coreCount_spec d c).2 id jq hr (by simp) (by simp)
  have e : (d.coreCount c).staged = d.staged := by simp
  refine ⟨h.1, h.2, ?_⟩
  simp only [Dev.cf, e, h.1]

theorem itemsBut_coreCount {ids : List Nat} {ks : List (Nat × Nat)} (d e : Dev) (c : Nat)  :
    ItemsBut ids ks (d.coreCount c) e ↔ ItemsBut ids ks d e :=
  itemsBut_congr ((coreCount_spec d c).2.mono (by simp) (by simp)) e

/-- A task dispatched. -/
theorem dspRun_spec (d : Dev) (c : Nat) (x : DTask) : (d.dspRun c x).rest = { d.rest with dsp := { d.dsp with tasks := (d.dspRun c x).dsp.tasks, cores := (d.dspRun c x).dsp.cores }, tlg := { quietTlg d.tlg with ctrs := (d.dspRun c x).tlg.ctrs, stuck := (d.dspRun c x).tlg.stuck } } ∧
    ItemsBut [] [(P.DSP_DISPATCHES, 0), (P.DSP_READY_MAX, 0)] (d.dspRun c x) d := by
  unfold Dev.dspRun Dev.when
  try simp only []
  repeat' split
  all_goals
    exact ⟨by first | (simp [itemsBut_self, -judge_rest, judge_rest', -timeState_rest, timeState_rest', -takeSeq_rest, takeSeq_rest', -hold_rest, hold_rest', -admit_rest, admit_rest', -input_rest, input_rest', -offer_rest, offer_rest', -stopNotice_rest, stopNotice_rest', -stopEvent_rest, stopEvent_rest', -giveUp_rest, giveUp_rest', -verdict_rest, verdict_rest', -engineFault_rest, engineFault_rest', -ctr_rest, ctr_rest', -beginReset_rest, beginReset_rest', -imageKeep_rest, imageKeep_rest', -imageCopy_rest, imageCopy_rest', -lastWords_rest, lastWords_rest', -placeRec_rest, placeRec_rest', -setTask_rest, setTask_rest', -setCore_rest, setCore_rest', -coreCount_rest, coreCount_rest']; done) | (simp [itemsBut_self, -judge_rest, judge_rest', -timeState_rest, timeState_rest', -takeSeq_rest, takeSeq_rest', -hold_rest, hold_rest', -admit_rest, admit_rest', -input_rest, input_rest', -offer_rest, offer_rest', -stopNotice_rest, stopNotice_rest', -stopEvent_rest, stopEvent_rest', -giveUp_rest, giveUp_rest', -verdict_rest, verdict_rest', -engineFault_rest, engineFault_rest', -ctr_rest, ctr_rest', -beginReset_rest, beginReset_rest', -imageKeep_rest, imageKeep_rest', -imageCopy_rest, imageCopy_rest', -lastWords_rest, lastWords_rest', -placeRec_rest, placeRec_rest', -setTask_rest, setTask_rest', -setCore_rest, setCore_rest', -coreCount_rest, coreCount_rest']; repeat' (first | rfl | apply And.intro)) | rfl, by simp [itemsBut_wr, itemsBut_inc, itemsBut_addW, itemsBut_maxTo, itemsBut_wrS, itemsBut_judge, itemsBut_timeState, itemsBut_takeSeq, itemsBut_countIn, itemsBut_hold, itemsBut_admit, itemsBut_input, itemsBut_offer, itemsBut_stopNotice, itemsBut_stopEvent, itemsBut_giveUp, itemsBut_verdict, itemsBut_engineFault, itemsBut_ctr, itemsBut_dspTrace, itemsBut_bypass, itemsBut_bypassHw, itemsBut_beginReset, itemsBut_mtrFlush, itemsBut_imageKeep, itemsBut_imageCopy, itemsBut_antState, itemsBut_judgeBias, itemsBut_chainState, itemsBut_showTile, itemsBut_putChan, itemsBut_freeChan, itemsBut_freeWhere, itemsBut_enableChan, itemsBut_place, itemsBut_placeAll, itemsBut_chainsEnable, itemsBut_startTracking, itemsBut_noteGain, itemsBut_stopTracking, itemsBut_snapTrigger, itemsBut_recorder, itemsBut_region, itemsBut_showRegion, itemsBut_lastWords, itemsBut_placeRec, itemsBut_flush, itemsBut_regionLost, itemsBut_setTask, itemsBut_setCore, itemsBut_coreCount]⟩

theorem dspRun_rest' (d : Dev) (c : Nat) (x : DTask) : (d.dspRun c x).rest = { d.rest with dsp := { d.dsp with tasks := (d.dspRun c x).dsp.tasks, cores := (d.dspRun c x).dsp.cores }, tlg := { quietTlg d.tlg with ctrs := (d.dspRun c x).tlg.ctrs, stuck := (d.dspRun c x).tlg.stuck } } := (dspRun_spec d c x).1

@[simp] theorem dspRun_fields (d : Dev) (c : Nat) (x : DTask) :
    (d.dspRun c x).now = d.now ∧ (d.dspRun c x).snap = d.snap ∧ (d.dspRun c x).committedOnce = d.committedOnce ∧
    (d.dspRun c x).staged = d.staged ∧ (d.dspRun c x).ctrls = d.ctrls ∧ (d.dspRun c x).freeIx = d.freeIx ∧ (d.dspRun c x).tim = d.tim ∧
    (d.dspRun c x).chutes = d.chutes ∧ (d.dspRun c x).stp = d.stp ∧ (d.dspRun c x).air = d.air ∧ (d.dspRun c x).gns = d.gns ∧
    (d.dspRun c x).chiselOut = d.chiselOut ∧ (d.dspRun c x).ring = d.ring ∧ (d.dspRun c x).can = d.can ∧ (d.dspRun c x).mtr = d.mtr ∧
    (d.dspRun c x).drk = d.drk ∧ (d.dspRun c x).dsp.events = d.dsp.events ∧ (d.dspRun c x).dsp.failed = d.dsp.failed ∧
    (d.dspRun c x).pwr = d.pwr ∧ (d.dspRun c x).peer = d.peer ∧ (d.dspRun c x).com = d.com ∧ KeptCyc (d.dspRun c x).cyc d.cyc ∧
    KeptHost (d.dspRun c x).host d.host ∧ KeptRcd (d.dspRun c x).rcd d.rcd ∧ (d.dspRun c x).tlg.snaps = d.tlg.snaps := by
  have h := (dspRun_spec d c x).1
  generalize d.dspRun c x = x at h ⊢
  have f {α : Type} (g : Dev → α) : g x.rest = g ({ d.rest with dsp := { d.dsp with tasks := (x).dsp.tasks, cores := (x).dsp.cores }, tlg := { quietTlg d.tlg with ctrs := (x).tlg.ctrs, stuck := (x).tlg.stuck } }) := congrArg g h
  exact ⟨f (·.now), f (·.snap), f (·.committedOnce), f (·.staged), f (·.ctrls), f (·.freeIx), f (·.tim), f (·.chutes), f (·.stp), f (·.air),
    f (·.gns), f (·.chiselOut), f (·.ring), f (·.can), f (·.mtr), f (·.drk), f (·.dsp.events), f (·.dsp.failed), f (·.pwr), f (·.peer),
    f (·.com), KeptCyc.of (f (·.cyc)), KeptHost.of (f (·.host)), KeptRcd.of (f (·.rcd)), f (·.tlg.snaps)⟩

@[simp] theorem dspRun_rest (d : Dev) (c : Nat) (x : DTask) : (d.dspRun c x).rest =
    { d.rest with dsp := (d.dspRun c x).dsp, tlg := quietTlg (d.dspRun c x).tlg } := by
  have h := (dspRun_spec d c x).1
  generalize d.dspRun c x = x at h ⊢
  have f {α : Type} (g : Dev → α) : g x.rest = g ({ d.rest with dsp := { d.dsp with tasks := (x).dsp.tasks, cores := (x).dsp.cores }, tlg := { quietTlg d.tlg with ctrs := (x).tlg.ctrs, stuck := (x).tlg.stuck } }) := congrArg g h
  exact dev_ext (f (·.now)) rfl (f (·.snap)) (f (·.committedOnce)) rfl (f (·.staged)) (f (·.ctrls)) rfl (f (·.freeIx)) (f (·.tim)) (f (·.cyc)) (f (·.host))
    (f (·.chutes)) (f (·.rcd)) (f (·.stp)) (f (·.air)) (f (·.gns)) (f (·.chiselOut)) (f (·.ring)) (f (·.can)) (f (·.mtr)) (f (·.drk)) rfl rfl
    (f (·.pwr)) (f (·.peer)) (f (·.com))

theorem dspRun_reads (d : Dev) (c : Nat) (x : DTask) : ∀ id jq, reportItem id = false → id ≠ P.DSP_DISPATCHES → id ≠ P.DSP_READY_MAX →
    (d.dspRun c x).rd id jq = d.rd id jq ∧ (d.dspRun c x).isSticky id jq = d.isSticky id jq ∧ (d.dspRun c x).cf id jq = d.cf id jq := by
  intro id jq hr h0 h1
  have h := (dspRun_spec d c x).2 id jq hr (by simp) (by simp [regKey_ne, h0, Ne.symm h0, h1, Ne.symm h1])
  have e : (d.dspRun c x).staged = d.staged := by simp
  refine ⟨h.1, h.2, ?_⟩
  simp only [Dev.cf, e, h.1]

theorem dspRun_at (d : Dev) (c : Nat) (x : DTask) : ∀ id jq, reportItem id = false  → regKey P.DSP_DISPATCHES 0 ≠ regKey id jq → regKey P.DSP_READY_MAX 0 ≠ regKey id jq →
    (d.dspRun c x).rd id jq = d.rd id jq ∧ (d.dspRun c x).isSticky id jq = d.isSticky id jq ∧ (d.dspRun c x).cf id jq = d.cf id jq := by
  intro id jq hr h0 h1
  have h := (dspRun_spec d c x).2 id jq hr (by simp) (by simp [h0, h1])
  have e : (d.dspRun c x).staged = d.staged := by simp
  refine ⟨h.1, h.2, ?_⟩
  simp only [Dev.cf, e, h.1]

theorem itemsBut_dspRun {ids : List Nat} {ks : List (Nat × Nat)} (d e : Dev) (c : Nat) (x : DTask) (m0 : P.DSP_DISPATCHES ∈ ids ∨ (P.DSP_DISPATCHES, 0) ∈ ks) (m1 : P.DSP_READY_MAX ∈ ids ∨ (P.DSP_READY_MAX, 0) ∈ ks) :
    ItemsBut ids ks (d.dspRun c x) e ↔ ItemsBut ids ks d e :=
  itemsBut_congr ((dspRun_spec d c x).2.mono (by simp) (by simp [m0, m1])) e

/-- A running task leaves its core. -/
theorem dspLeave_spec (d : Dev) (c : Nat) (x : DTask) : ((d.dspLeave c x).2).rest = { d.rest with dsp := { d.dsp with cores := ((d.dspLeave c x).2).dsp.cores }, tlg := { quietTlg d.tlg with ctrs := ((d.dspLeave c x).2).tlg.ctrs, stuck := ((d.dspLeave c x).2).tlg.stuck } } ∧
    ItemsBut [] [] ((d.dspLeave c x).2) d := by
  unfold Dev.dspLeave
  try simp only []
  repeat' split
  all_goals
    exact ⟨by first | (simp [itemsBut_self, -judge_rest, judge_rest', -timeState_rest, timeState_rest', -takeSeq_rest, takeSeq_rest', -hold_rest, hold_rest', -admit_rest, admit_rest', -input_rest, input_rest', -offer_rest, offer_rest', -stopNotice_rest, stopNotice_rest', -stopEvent_rest, stopEvent_rest', -giveUp_rest, giveUp_rest', -verdict_rest, verdict_rest', -engineFault_rest, engineFault_rest', -ctr_rest, ctr_rest', -beginReset_rest, beginReset_rest', -imageKeep_rest, imageKeep_rest', -imageCopy_rest, imageCopy_rest', -lastWords_rest, lastWords_rest', -placeRec_rest, placeRec_rest', -setTask_rest, setTask_rest', -setCore_rest, setCore_rest', -coreCount_rest, coreCount_rest', -dspRun_rest, dspRun_rest']; done) | (simp [itemsBut_self, -judge_rest, judge_rest', -timeState_rest, timeState_rest', -takeSeq_rest, takeSeq_rest', -hold_rest, hold_rest', -admit_rest, admit_rest', -input_rest, input_rest', -offer_rest, offer_rest', -stopNotice_rest, stopNotice_rest', -stopEvent_rest, stopEvent_rest', -giveUp_rest, giveUp_rest', -verdict_rest, verdict_rest', -engineFault_rest, engineFault_rest', -ctr_rest, ctr_rest', -beginReset_rest, beginReset_rest', -imageKeep_rest, imageKeep_rest', -imageCopy_rest, imageCopy_rest', -lastWords_rest, lastWords_rest', -placeRec_rest, placeRec_rest', -setTask_rest, setTask_rest', -setCore_rest, setCore_rest', -coreCount_rest, coreCount_rest', -dspRun_rest, dspRun_rest']; repeat' (first | rfl | apply And.intro)) | rfl, by simp [itemsBut_wr, itemsBut_inc, itemsBut_addW, itemsBut_maxTo, itemsBut_wrS, itemsBut_judge, itemsBut_timeState, itemsBut_takeSeq, itemsBut_countIn, itemsBut_hold, itemsBut_admit, itemsBut_input, itemsBut_offer, itemsBut_stopNotice, itemsBut_stopEvent, itemsBut_giveUp, itemsBut_verdict, itemsBut_engineFault, itemsBut_ctr, itemsBut_dspTrace, itemsBut_bypass, itemsBut_bypassHw, itemsBut_beginReset, itemsBut_mtrFlush, itemsBut_imageKeep, itemsBut_imageCopy, itemsBut_antState, itemsBut_judgeBias, itemsBut_chainState, itemsBut_showTile, itemsBut_putChan, itemsBut_freeChan, itemsBut_freeWhere, itemsBut_enableChan, itemsBut_place, itemsBut_placeAll, itemsBut_chainsEnable, itemsBut_startTracking, itemsBut_noteGain, itemsBut_stopTracking, itemsBut_snapTrigger, itemsBut_recorder, itemsBut_region, itemsBut_showRegion, itemsBut_lastWords, itemsBut_placeRec, itemsBut_flush, itemsBut_regionLost, itemsBut_setTask, itemsBut_setCore, itemsBut_coreCount, itemsBut_dspRun]⟩

theorem dspLeave_rest' (d : Dev) (c : Nat) (x : DTask) : ((d.dspLeave c x).2).rest = { d.rest with dsp := { d.dsp with cores := ((d.dspLeave c x).2).dsp.cores }, tlg := { quietTlg d.tlg with ctrs := ((d.dspLeave c x).2).tlg.ctrs, stuck := ((d.dspLeave c x).2).tlg.stuck } } := (dspLeave_spec d c x).1

@[simp] theorem dspLeave_fields (d : Dev) (c : Nat) (x : DTask) :
    ((d.dspLeave c x).2).now = d.now ∧ ((d.dspLeave c x).2).snap = d.snap ∧ ((d.dspLeave c x).2).committedOnce = d.committedOnce ∧
    ((d.dspLeave c x).2).staged = d.staged ∧ ((d.dspLeave c x).2).ctrls = d.ctrls ∧ ((d.dspLeave c x).2).freeIx = d.freeIx ∧
    ((d.dspLeave c x).2).tim = d.tim ∧ ((d.dspLeave c x).2).chutes = d.chutes ∧ ((d.dspLeave c x).2).stp = d.stp ∧
    ((d.dspLeave c x).2).air = d.air ∧ ((d.dspLeave c x).2).gns = d.gns ∧ ((d.dspLeave c x).2).chiselOut = d.chiselOut ∧
    ((d.dspLeave c x).2).ring = d.ring ∧ ((d.dspLeave c x).2).can = d.can ∧ ((d.dspLeave c x).2).mtr = d.mtr ∧
    ((d.dspLeave c x).2).drk = d.drk ∧ ((d.dspLeave c x).2).dsp.tasks = d.dsp.tasks ∧ ((d.dspLeave c x).2).dsp.events = d.dsp.events ∧
    ((d.dspLeave c x).2).dsp.failed = d.dsp.failed ∧ ((d.dspLeave c x).2).pwr = d.pwr ∧ ((d.dspLeave c x).2).peer = d.peer ∧
    ((d.dspLeave c x).2).com = d.com ∧ KeptCyc ((d.dspLeave c x).2).cyc d.cyc ∧ KeptHost ((d.dspLeave c x).2).host d.host ∧
    KeptRcd ((d.dspLeave c x).2).rcd d.rcd ∧ ((d.dspLeave c x).2).tlg.snaps = d.tlg.snaps := by
  have h := (dspLeave_spec d c x).1
  generalize (d.dspLeave c x).2 = x at h ⊢
  have f {α : Type} (g : Dev → α) : g x.rest = g ({ d.rest with dsp := { d.dsp with cores := (x).dsp.cores }, tlg := { quietTlg d.tlg with ctrs := (x).tlg.ctrs, stuck := (x).tlg.stuck } }) := congrArg g h
  exact ⟨f (·.now), f (·.snap), f (·.committedOnce), f (·.staged), f (·.ctrls), f (·.freeIx), f (·.tim), f (·.chutes), f (·.stp), f (·.air),
    f (·.gns), f (·.chiselOut), f (·.ring), f (·.can), f (·.mtr), f (·.drk), f (·.dsp.tasks), f (·.dsp.events), f (·.dsp.failed), f (·.pwr),
    f (·.peer), f (·.com), KeptCyc.of (f (·.cyc)), KeptHost.of (f (·.host)), KeptRcd.of (f (·.rcd)), f (·.tlg.snaps)⟩

@[simp] theorem dspLeave_rest (d : Dev) (c : Nat) (x : DTask) : ((d.dspLeave c x).2).rest =
    { d.rest with dsp := ((d.dspLeave c x).2).dsp, tlg := quietTlg ((d.dspLeave c x).2).tlg } := by
  have h := (dspLeave_spec d c x).1
  generalize (d.dspLeave c x).2 = x at h ⊢
  have f {α : Type} (g : Dev → α) : g x.rest = g ({ d.rest with dsp := { d.dsp with cores := (x).dsp.cores }, tlg := { quietTlg d.tlg with ctrs := (x).tlg.ctrs, stuck := (x).tlg.stuck } }) := congrArg g h
  exact dev_ext (f (·.now)) rfl (f (·.snap)) (f (·.committedOnce)) rfl (f (·.staged)) (f (·.ctrls)) rfl (f (·.freeIx)) (f (·.tim)) (f (·.cyc)) (f (·.host))
    (f (·.chutes)) (f (·.rcd)) (f (·.stp)) (f (·.air)) (f (·.gns)) (f (·.chiselOut)) (f (·.ring)) (f (·.can)) (f (·.mtr)) (f (·.drk)) rfl rfl
    (f (·.pwr)) (f (·.peer)) (f (·.com))

theorem dspLeave_reads (d : Dev) (c : Nat) (x : DTask) : ∀ id jq, reportItem id = false  →
    ((d.dspLeave c x).2).rd id jq = d.rd id jq ∧ ((d.dspLeave c x).2).isSticky id jq = d.isSticky id jq ∧ ((d.dspLeave c x).2).cf id jq = d.cf id jq := by
  intro id jq hr 
  have h := (dspLeave_spec d c x).2 id jq hr (by simp) (by simp)
  have e : ((d.dspLeave c x).2).staged = d.staged := by simp
  refine ⟨h.1, h.2, ?_⟩
  simp only [Dev.cf, e, h.1]

theorem itemsBut_dspLeave {ids : List Nat} {ks : List (Nat × Nat)} (d e : Dev) (c : Nat) (x : DTask)  :
    ItemsBut ids ks ((d.dspLeave c x).2) e ↔ ItemsBut ids ks d e :=
  itemsBut_congr ((dspLeave_spec d c x).2.mono (by simp) (by simp)) e

/-- A task becomes READY. -/
theorem dspHold_spec (d : Dev) (x : DTask) : (d.dspHold x).rest = { d.rest with dsp := { d.dsp with tasks := (d.dspHold x).dsp.tasks, cores := (d.dspHold x).dsp.cores }, tlg := { quietTlg d.tlg with ctrs := (d.dspHold x).tlg.ctrs, stuck := (d.dspHold x).tlg.stuck } } ∧
    ItemsBut [] [(P.DSP_DISPATCHES, 0), (P.DSP_READY_MAX, 0)] (d.dspHold x) d := by
  unfold Dev.dspHold Dev.when
  try simp only []
  repeat' split
  all_goals
    exact ⟨by first | (simp [itemsBut_self, -judge_rest, judge_rest', -timeState_rest, timeState_rest', -takeSeq_rest, takeSeq_rest', -hold_rest, hold_rest', -admit_rest, admit_rest', -input_rest, input_rest', -offer_rest, offer_rest', -stopNotice_rest, stopNotice_rest', -stopEvent_rest, stopEvent_rest', -giveUp_rest, giveUp_rest', -verdict_rest, verdict_rest', -engineFault_rest, engineFault_rest', -ctr_rest, ctr_rest', -beginReset_rest, beginReset_rest', -imageKeep_rest, imageKeep_rest', -imageCopy_rest, imageCopy_rest', -lastWords_rest, lastWords_rest', -placeRec_rest, placeRec_rest', -setTask_rest, setTask_rest', -setCore_rest, setCore_rest', -coreCount_rest, coreCount_rest', -dspRun_rest, dspRun_rest', -dspLeave_rest, dspLeave_rest']; done) | (simp [itemsBut_self, -judge_rest, judge_rest', -timeState_rest, timeState_rest', -takeSeq_rest, takeSeq_rest', -hold_rest, hold_rest', -admit_rest, admit_rest', -input_rest, input_rest', -offer_rest, offer_rest', -stopNotice_rest, stopNotice_rest', -stopEvent_rest, stopEvent_rest', -giveUp_rest, giveUp_rest', -verdict_rest, verdict_rest', -engineFault_rest, engineFault_rest', -ctr_rest, ctr_rest', -beginReset_rest, beginReset_rest', -imageKeep_rest, imageKeep_rest', -imageCopy_rest, imageCopy_rest', -lastWords_rest, lastWords_rest', -placeRec_rest, placeRec_rest', -setTask_rest, setTask_rest', -setCore_rest, setCore_rest', -coreCount_rest, coreCount_rest', -dspRun_rest, dspRun_rest', -dspLeave_rest, dspLeave_rest']; repeat' (first | rfl | apply And.intro)) | rfl, by simp [itemsBut_wr, itemsBut_inc, itemsBut_addW, itemsBut_maxTo, itemsBut_wrS, itemsBut_judge, itemsBut_timeState, itemsBut_takeSeq, itemsBut_countIn, itemsBut_hold, itemsBut_admit, itemsBut_input, itemsBut_offer, itemsBut_stopNotice, itemsBut_stopEvent, itemsBut_giveUp, itemsBut_verdict, itemsBut_engineFault, itemsBut_ctr, itemsBut_dspTrace, itemsBut_bypass, itemsBut_bypassHw, itemsBut_beginReset, itemsBut_mtrFlush, itemsBut_imageKeep, itemsBut_imageCopy, itemsBut_antState, itemsBut_judgeBias, itemsBut_chainState, itemsBut_showTile, itemsBut_putChan, itemsBut_freeChan, itemsBut_freeWhere, itemsBut_enableChan, itemsBut_place, itemsBut_placeAll, itemsBut_chainsEnable, itemsBut_startTracking, itemsBut_noteGain, itemsBut_stopTracking, itemsBut_snapTrigger, itemsBut_recorder, itemsBut_region, itemsBut_showRegion, itemsBut_lastWords, itemsBut_placeRec, itemsBut_flush, itemsBut_regionLost, itemsBut_setTask, itemsBut_setCore, itemsBut_coreCount, itemsBut_dspRun, itemsBut_dspLeave]⟩

theorem dspHold_rest' (d : Dev) (x : DTask) : (d.dspHold x).rest = { d.rest with dsp := { d.dsp with tasks := (d.dspHold x).dsp.tasks, cores := (d.dspHold x).dsp.cores }, tlg := { quietTlg d.tlg with ctrs := (d.dspHold x).tlg.ctrs, stuck := (d.dspHold x).tlg.stuck } } := (dspHold_spec d x).1

@[simp] theorem dspHold_fields (d : Dev) (x : DTask) :
    (d.dspHold x).now = d.now ∧ (d.dspHold x).snap = d.snap ∧ (d.dspHold x).committedOnce = d.committedOnce ∧ (d.dspHold x).staged = d.staged ∧
    (d.dspHold x).ctrls = d.ctrls ∧ (d.dspHold x).freeIx = d.freeIx ∧ (d.dspHold x).tim = d.tim ∧ (d.dspHold x).chutes = d.chutes ∧
    (d.dspHold x).stp = d.stp ∧ (d.dspHold x).air = d.air ∧ (d.dspHold x).gns = d.gns ∧ (d.dspHold x).chiselOut = d.chiselOut ∧
    (d.dspHold x).ring = d.ring ∧ (d.dspHold x).can = d.can ∧ (d.dspHold x).mtr = d.mtr ∧ (d.dspHold x).drk = d.drk ∧
    (d.dspHold x).dsp.events = d.dsp.events ∧ (d.dspHold x).dsp.failed = d.dsp.failed ∧ (d.dspHold x).pwr = d.pwr ∧
    (d.dspHold x).peer = d.peer ∧ (d.dspHold x).com = d.com ∧ KeptCyc (d.dspHold x).cyc d.cyc ∧ KeptHost (d.dspHold x).host d.host ∧
    KeptRcd (d.dspHold x).rcd d.rcd ∧ (d.dspHold x).tlg.snaps = d.tlg.snaps := by
  have h := (dspHold_spec d x).1
  generalize d.dspHold x = x at h ⊢
  have f {α : Type} (g : Dev → α) : g x.rest = g ({ d.rest with dsp := { d.dsp with tasks := (x).dsp.tasks, cores := (x).dsp.cores }, tlg := { quietTlg d.tlg with ctrs := (x).tlg.ctrs, stuck := (x).tlg.stuck } }) := congrArg g h
  exact ⟨f (·.now), f (·.snap), f (·.committedOnce), f (·.staged), f (·.ctrls), f (·.freeIx), f (·.tim), f (·.chutes), f (·.stp), f (·.air),
    f (·.gns), f (·.chiselOut), f (·.ring), f (·.can), f (·.mtr), f (·.drk), f (·.dsp.events), f (·.dsp.failed), f (·.pwr), f (·.peer),
    f (·.com), KeptCyc.of (f (·.cyc)), KeptHost.of (f (·.host)), KeptRcd.of (f (·.rcd)), f (·.tlg.snaps)⟩

@[simp] theorem dspHold_rest (d : Dev) (x : DTask) : (d.dspHold x).rest =
    { d.rest with dsp := (d.dspHold x).dsp, tlg := quietTlg (d.dspHold x).tlg } := by
  have h := (dspHold_spec d x).1
  generalize d.dspHold x = x at h ⊢
  have f {α : Type} (g : Dev → α) : g x.rest = g ({ d.rest with dsp := { d.dsp with tasks := (x).dsp.tasks, cores := (x).dsp.cores }, tlg := { quietTlg d.tlg with ctrs := (x).tlg.ctrs, stuck := (x).tlg.stuck } }) := congrArg g h
  exact dev_ext (f (·.now)) rfl (f (·.snap)) (f (·.committedOnce)) rfl (f (·.staged)) (f (·.ctrls)) rfl (f (·.freeIx)) (f (·.tim)) (f (·.cyc)) (f (·.host))
    (f (·.chutes)) (f (·.rcd)) (f (·.stp)) (f (·.air)) (f (·.gns)) (f (·.chiselOut)) (f (·.ring)) (f (·.can)) (f (·.mtr)) (f (·.drk)) rfl rfl
    (f (·.pwr)) (f (·.peer)) (f (·.com))

theorem dspHold_reads (d : Dev) (x : DTask) : ∀ id jq, reportItem id = false → id ≠ P.DSP_DISPATCHES → id ≠ P.DSP_READY_MAX →
    (d.dspHold x).rd id jq = d.rd id jq ∧ (d.dspHold x).isSticky id jq = d.isSticky id jq ∧ (d.dspHold x).cf id jq = d.cf id jq := by
  intro id jq hr h0 h1
  have h := (dspHold_spec d x).2 id jq hr (by simp) (by simp [regKey_ne, h0, Ne.symm h0, h1, Ne.symm h1])
  have e : (d.dspHold x).staged = d.staged := by simp
  refine ⟨h.1, h.2, ?_⟩
  simp only [Dev.cf, e, h.1]

theorem dspHold_at (d : Dev) (x : DTask) : ∀ id jq, reportItem id = false  → regKey P.DSP_DISPATCHES 0 ≠ regKey id jq → regKey P.DSP_READY_MAX 0 ≠ regKey id jq →
    (d.dspHold x).rd id jq = d.rd id jq ∧ (d.dspHold x).isSticky id jq = d.isSticky id jq ∧ (d.dspHold x).cf id jq = d.cf id jq := by
  intro id jq hr h0 h1
  have h := (dspHold_spec d x).2 id jq hr (by simp) (by simp [h0, h1])
  have e : (d.dspHold x).staged = d.staged := by simp
  refine ⟨h.1, h.2, ?_⟩
  simp only [Dev.cf, e, h.1]

theorem itemsBut_dspHold {ids : List Nat} {ks : List (Nat × Nat)} (d e : Dev) (x : DTask) (m0 : P.DSP_DISPATCHES ∈ ids ∨ (P.DSP_DISPATCHES, 0) ∈ ks) (m1 : P.DSP_READY_MAX ∈ ids ∨ (P.DSP_READY_MAX, 0) ∈ ks) :
    ItemsBut ids ks (d.dspHold x) e ↔ ItemsBut ids ks d e :=
  itemsBut_congr ((dspHold_spec d x).2.mono (by simp) (by simp [m0, m1])) e

/-- A task becomes READY, preempting. -/
theorem dspReady_spec (d : Dev) (x : DTask) : (d.dspReady x).rest = { d.rest with dsp := { d.dsp with tasks := (d.dspReady x).dsp.tasks, cores := (d.dspReady x).dsp.cores }, tlg := { quietTlg d.tlg with ctrs := (d.dspReady x).tlg.ctrs, stuck := (d.dspReady x).tlg.stuck } } ∧
    ItemsBut [] [(P.DSP_DISPATCHES, 0), (P.DSP_READY_MAX, 0), (P.DSP_PREEMPTS, 0)] (d.dspReady x) d := by
  unfold Dev.dspReady
  try simp only []
  repeat' split
  all_goals
    exact ⟨by first | (simp [itemsBut_self, -judge_rest, judge_rest', -timeState_rest, timeState_rest', -takeSeq_rest, takeSeq_rest', -hold_rest, hold_rest', -admit_rest, admit_rest', -input_rest, input_rest', -offer_rest, offer_rest', -stopNotice_rest, stopNotice_rest', -stopEvent_rest, stopEvent_rest', -giveUp_rest, giveUp_rest', -verdict_rest, verdict_rest', -engineFault_rest, engineFault_rest', -ctr_rest, ctr_rest', -beginReset_rest, beginReset_rest', -imageKeep_rest, imageKeep_rest', -imageCopy_rest, imageCopy_rest', -lastWords_rest, lastWords_rest', -placeRec_rest, placeRec_rest', -setTask_rest, setTask_rest', -setCore_rest, setCore_rest', -coreCount_rest, coreCount_rest', -dspRun_rest, dspRun_rest', -dspLeave_rest, dspLeave_rest', -dspHold_rest, dspHold_rest']; done) | (simp [itemsBut_self, -judge_rest, judge_rest', -timeState_rest, timeState_rest', -takeSeq_rest, takeSeq_rest', -hold_rest, hold_rest', -admit_rest, admit_rest', -input_rest, input_rest', -offer_rest, offer_rest', -stopNotice_rest, stopNotice_rest', -stopEvent_rest, stopEvent_rest', -giveUp_rest, giveUp_rest', -verdict_rest, verdict_rest', -engineFault_rest, engineFault_rest', -ctr_rest, ctr_rest', -beginReset_rest, beginReset_rest', -imageKeep_rest, imageKeep_rest', -imageCopy_rest, imageCopy_rest', -lastWords_rest, lastWords_rest', -placeRec_rest, placeRec_rest', -setTask_rest, setTask_rest', -setCore_rest, setCore_rest', -coreCount_rest, coreCount_rest', -dspRun_rest, dspRun_rest', -dspLeave_rest, dspLeave_rest', -dspHold_rest, dspHold_rest']; repeat' (first | rfl | apply And.intro)) | rfl, by simp [itemsBut_wr, itemsBut_inc, itemsBut_addW, itemsBut_maxTo, itemsBut_wrS, itemsBut_judge, itemsBut_timeState, itemsBut_takeSeq, itemsBut_countIn, itemsBut_hold, itemsBut_admit, itemsBut_input, itemsBut_offer, itemsBut_stopNotice, itemsBut_stopEvent, itemsBut_giveUp, itemsBut_verdict, itemsBut_engineFault, itemsBut_ctr, itemsBut_dspTrace, itemsBut_bypass, itemsBut_bypassHw, itemsBut_beginReset, itemsBut_mtrFlush, itemsBut_imageKeep, itemsBut_imageCopy, itemsBut_antState, itemsBut_judgeBias, itemsBut_chainState, itemsBut_showTile, itemsBut_putChan, itemsBut_freeChan, itemsBut_freeWhere, itemsBut_enableChan, itemsBut_place, itemsBut_placeAll, itemsBut_chainsEnable, itemsBut_startTracking, itemsBut_noteGain, itemsBut_stopTracking, itemsBut_snapTrigger, itemsBut_recorder, itemsBut_region, itemsBut_showRegion, itemsBut_lastWords, itemsBut_placeRec, itemsBut_flush, itemsBut_regionLost, itemsBut_setTask, itemsBut_setCore, itemsBut_coreCount, itemsBut_dspRun, itemsBut_dspLeave, itemsBut_dspHold]⟩

theorem dspReady_rest' (d : Dev) (x : DTask) : (d.dspReady x).rest = { d.rest with dsp := { d.dsp with tasks := (d.dspReady x).dsp.tasks, cores := (d.dspReady x).dsp.cores }, tlg := { quietTlg d.tlg with ctrs := (d.dspReady x).tlg.ctrs, stuck := (d.dspReady x).tlg.stuck } } := (dspReady_spec d x).1

@[simp] theorem dspReady_fields (d : Dev) (x : DTask) :
    (d.dspReady x).now = d.now ∧ (d.dspReady x).snap = d.snap ∧ (d.dspReady x).committedOnce = d.committedOnce ∧
    (d.dspReady x).staged = d.staged ∧ (d.dspReady x).ctrls = d.ctrls ∧ (d.dspReady x).freeIx = d.freeIx ∧ (d.dspReady x).tim = d.tim ∧
    (d.dspReady x).chutes = d.chutes ∧ (d.dspReady x).stp = d.stp ∧ (d.dspReady x).air = d.air ∧ (d.dspReady x).gns = d.gns ∧
    (d.dspReady x).chiselOut = d.chiselOut ∧ (d.dspReady x).ring = d.ring ∧ (d.dspReady x).can = d.can ∧ (d.dspReady x).mtr = d.mtr ∧
    (d.dspReady x).drk = d.drk ∧ (d.dspReady x).dsp.events = d.dsp.events ∧ (d.dspReady x).dsp.failed = d.dsp.failed ∧
    (d.dspReady x).pwr = d.pwr ∧ (d.dspReady x).peer = d.peer ∧ (d.dspReady x).com = d.com ∧ KeptCyc (d.dspReady x).cyc d.cyc ∧
    KeptHost (d.dspReady x).host d.host ∧ KeptRcd (d.dspReady x).rcd d.rcd ∧ (d.dspReady x).tlg.snaps = d.tlg.snaps := by
  have h := (dspReady_spec d x).1
  generalize d.dspReady x = x at h ⊢
  have f {α : Type} (g : Dev → α) : g x.rest = g ({ d.rest with dsp := { d.dsp with tasks := (x).dsp.tasks, cores := (x).dsp.cores }, tlg := { quietTlg d.tlg with ctrs := (x).tlg.ctrs, stuck := (x).tlg.stuck } }) := congrArg g h
  exact ⟨f (·.now), f (·.snap), f (·.committedOnce), f (·.staged), f (·.ctrls), f (·.freeIx), f (·.tim), f (·.chutes), f (·.stp), f (·.air),
    f (·.gns), f (·.chiselOut), f (·.ring), f (·.can), f (·.mtr), f (·.drk), f (·.dsp.events), f (·.dsp.failed), f (·.pwr), f (·.peer),
    f (·.com), KeptCyc.of (f (·.cyc)), KeptHost.of (f (·.host)), KeptRcd.of (f (·.rcd)), f (·.tlg.snaps)⟩

@[simp] theorem dspReady_rest (d : Dev) (x : DTask) : (d.dspReady x).rest =
    { d.rest with dsp := (d.dspReady x).dsp, tlg := quietTlg (d.dspReady x).tlg } := by
  have h := (dspReady_spec d x).1
  generalize d.dspReady x = x at h ⊢
  have f {α : Type} (g : Dev → α) : g x.rest = g ({ d.rest with dsp := { d.dsp with tasks := (x).dsp.tasks, cores := (x).dsp.cores }, tlg := { quietTlg d.tlg with ctrs := (x).tlg.ctrs, stuck := (x).tlg.stuck } }) := congrArg g h
  exact dev_ext (f (·.now)) rfl (f (·.snap)) (f (·.committedOnce)) rfl (f (·.staged)) (f (·.ctrls)) rfl (f (·.freeIx)) (f (·.tim)) (f (·.cyc)) (f (·.host))
    (f (·.chutes)) (f (·.rcd)) (f (·.stp)) (f (·.air)) (f (·.gns)) (f (·.chiselOut)) (f (·.ring)) (f (·.can)) (f (·.mtr)) (f (·.drk)) rfl rfl
    (f (·.pwr)) (f (·.peer)) (f (·.com))

theorem dspReady_reads (d : Dev) (x : DTask) : ∀ id jq, reportItem id = false → id ≠ P.DSP_DISPATCHES → id ≠ P.DSP_READY_MAX → id ≠ P.DSP_PREEMPTS →
    (d.dspReady x).rd id jq = d.rd id jq ∧ (d.dspReady x).isSticky id jq = d.isSticky id jq ∧ (d.dspReady x).cf id jq = d.cf id jq := by
  intro id jq hr h0 h1 h2
  have h := (dspReady_spec d x).2 id jq hr (by simp) (by simp [regKey_ne, h0, Ne.symm h0, h1, Ne.symm h1, h2, Ne.symm h2])
  have e : (d.dspReady x).staged = d.staged := by simp
  refine ⟨h.1, h.2, ?_⟩
  simp only [Dev.cf, e, h.1]

theorem dspReady_at (d : Dev) (x : DTask) : ∀ id jq, reportItem id = false  → regKey P.DSP_DISPATCHES 0 ≠ regKey id jq → regKey P.DSP_READY_MAX 0 ≠ regKey id jq → regKey P.DSP_PREEMPTS 0 ≠ regKey id jq →
    (d.dspReady x).rd id jq = d.rd id jq ∧ (d.dspReady x).isSticky id jq = d.isSticky id jq ∧ (d.dspReady x).cf id jq = d.cf id jq := by
  intro id jq hr h0 h1 h2
  have h := (dspReady_spec d x).2 id jq hr (by simp) (by simp [h0, h1, h2])
  have e : (d.dspReady x).staged = d.staged := by simp
  refine ⟨h.1, h.2, ?_⟩
  simp only [Dev.cf, e, h.1]

theorem itemsBut_dspReady {ids : List Nat} {ks : List (Nat × Nat)} (d e : Dev) (x : DTask) (m0 : P.DSP_DISPATCHES ∈ ids ∨ (P.DSP_DISPATCHES, 0) ∈ ks) (m1 : P.DSP_READY_MAX ∈ ids ∨ (P.DSP_READY_MAX, 0) ∈ ks) (m2 : P.DSP_PREEMPTS ∈ ids ∨ (P.DSP_PREEMPTS, 0) ∈ ks) :
    ItemsBut ids ks (d.dspReady x) e ↔ ItemsBut ids ks d e :=
  itemsBut_congr ((dspReady_spec d x).2.mono (by simp) (by simp [m0, m1, m2])) e

/-- A wait ends. -/
theorem dspWake_spec (d : Dev) (x : DTask) (cause : Nat) : (d.dspWake x cause).rest = { d.rest with dsp := { d.dsp with tasks := (d.dspWake x cause).dsp.tasks, cores := (d.dspWake x cause).dsp.cores }, tlg := { quietTlg d.tlg with ctrs := (d.dspWake x cause).tlg.ctrs, stuck := (d.dspWake x cause).tlg.stuck } } ∧
    ItemsBut [] [(P.DSP_DISPATCHES, 0), (P.DSP_READY_MAX, 0), (P.DSP_PREEMPTS, 0)] (d.dspWake x cause) d := by
  unfold Dev.dspWake
  repeat' split
  all_goals
    exact ⟨by first | (simp [itemsBut_self, -judge_rest, judge_rest', -timeState_rest, timeState_rest', -takeSeq_rest, takeSeq_rest', -hold_rest, hold_rest', -admit_rest, admit_rest', -input_rest, input_rest', -offer_rest, offer_rest', -stopNotice_rest, stopNotice_rest', -stopEvent_rest, stopEvent_rest', -giveUp_rest, giveUp_rest', -verdict_rest, verdict_rest', -engineFault_rest, engineFault_rest', -ctr_rest, ctr_rest', -beginReset_rest, beginReset_rest', -imageKeep_rest, imageKeep_rest', -imageCopy_rest, imageCopy_rest', -lastWords_rest, lastWords_rest', -placeRec_rest, placeRec_rest', -setTask_rest, setTask_rest', -setCore_rest, setCore_rest', -coreCount_rest, coreCount_rest', -dspRun_rest, dspRun_rest', -dspLeave_rest, dspLeave_rest', -dspHold_rest, dspHold_rest', -dspReady_rest, dspReady_rest']; done) | (simp [itemsBut_self, -judge_rest, judge_rest', -timeState_rest, timeState_rest', -takeSeq_rest, takeSeq_rest', -hold_rest, hold_rest', -admit_rest, admit_rest', -input_rest, input_rest', -offer_rest, offer_rest', -stopNotice_rest, stopNotice_rest', -stopEvent_rest, stopEvent_rest', -giveUp_rest, giveUp_rest', -verdict_rest, verdict_rest', -engineFault_rest, engineFault_rest', -ctr_rest, ctr_rest', -beginReset_rest, beginReset_rest', -imageKeep_rest, imageKeep_rest', -imageCopy_rest, imageCopy_rest', -lastWords_rest, lastWords_rest', -placeRec_rest, placeRec_rest', -setTask_rest, setTask_rest', -setCore_rest, setCore_rest', -coreCount_rest, coreCount_rest', -dspRun_rest, dspRun_rest', -dspLeave_rest, dspLeave_rest', -dspHold_rest, dspHold_rest', -dspReady_rest, dspReady_rest']; repeat' (first | rfl | apply And.intro)) | rfl, by simp [itemsBut_wr, itemsBut_inc, itemsBut_addW, itemsBut_maxTo, itemsBut_wrS, itemsBut_judge, itemsBut_timeState, itemsBut_takeSeq, itemsBut_countIn, itemsBut_hold, itemsBut_admit, itemsBut_input, itemsBut_offer, itemsBut_stopNotice, itemsBut_stopEvent, itemsBut_giveUp, itemsBut_verdict, itemsBut_engineFault, itemsBut_ctr, itemsBut_dspTrace, itemsBut_bypass, itemsBut_bypassHw, itemsBut_beginReset, itemsBut_mtrFlush, itemsBut_imageKeep, itemsBut_imageCopy, itemsBut_antState, itemsBut_judgeBias, itemsBut_chainState, itemsBut_showTile, itemsBut_putChan, itemsBut_freeChan, itemsBut_freeWhere, itemsBut_enableChan, itemsBut_place, itemsBut_placeAll, itemsBut_chainsEnable, itemsBut_startTracking, itemsBut_noteGain, itemsBut_stopTracking, itemsBut_snapTrigger, itemsBut_recorder, itemsBut_region, itemsBut_showRegion, itemsBut_lastWords, itemsBut_placeRec, itemsBut_flush, itemsBut_regionLost, itemsBut_setTask, itemsBut_setCore, itemsBut_coreCount, itemsBut_dspRun, itemsBut_dspLeave, itemsBut_dspHold, itemsBut_dspReady]⟩

theorem dspWake_rest' (d : Dev) (x : DTask) (cause : Nat) : (d.dspWake x cause).rest = { d.rest with dsp := { d.dsp with tasks := (d.dspWake x cause).dsp.tasks, cores := (d.dspWake x cause).dsp.cores }, tlg := { quietTlg d.tlg with ctrs := (d.dspWake x cause).tlg.ctrs, stuck := (d.dspWake x cause).tlg.stuck } } := (dspWake_spec d x cause).1

@[simp] theorem dspWake_fields (d : Dev) (x : DTask) (cause : Nat) :
    (d.dspWake x cause).now = d.now ∧ (d.dspWake x cause).snap = d.snap ∧ (d.dspWake x cause).committedOnce = d.committedOnce ∧
    (d.dspWake x cause).staged = d.staged ∧ (d.dspWake x cause).ctrls = d.ctrls ∧ (d.dspWake x cause).freeIx = d.freeIx ∧
    (d.dspWake x cause).tim = d.tim ∧ (d.dspWake x cause).chutes = d.chutes ∧ (d.dspWake x cause).stp = d.stp ∧
    (d.dspWake x cause).air = d.air ∧ (d.dspWake x cause).gns = d.gns ∧ (d.dspWake x cause).chiselOut = d.chiselOut ∧
    (d.dspWake x cause).ring = d.ring ∧ (d.dspWake x cause).can = d.can ∧ (d.dspWake x cause).mtr = d.mtr ∧ (d.dspWake x cause).drk = d.drk ∧
    (d.dspWake x cause).dsp.events = d.dsp.events ∧ (d.dspWake x cause).dsp.failed = d.dsp.failed ∧ (d.dspWake x cause).pwr = d.pwr ∧
    (d.dspWake x cause).peer = d.peer ∧ (d.dspWake x cause).com = d.com ∧ KeptCyc (d.dspWake x cause).cyc d.cyc ∧
    KeptHost (d.dspWake x cause).host d.host ∧ KeptRcd (d.dspWake x cause).rcd d.rcd ∧ (d.dspWake x cause).tlg.snaps = d.tlg.snaps := by
  have h := (dspWake_spec d x cause).1
  generalize d.dspWake x cause = x at h ⊢
  have f {α : Type} (g : Dev → α) : g x.rest = g ({ d.rest with dsp := { d.dsp with tasks := (x).dsp.tasks, cores := (x).dsp.cores }, tlg := { quietTlg d.tlg with ctrs := (x).tlg.ctrs, stuck := (x).tlg.stuck } }) := congrArg g h
  exact ⟨f (·.now), f (·.snap), f (·.committedOnce), f (·.staged), f (·.ctrls), f (·.freeIx), f (·.tim), f (·.chutes), f (·.stp), f (·.air),
    f (·.gns), f (·.chiselOut), f (·.ring), f (·.can), f (·.mtr), f (·.drk), f (·.dsp.events), f (·.dsp.failed), f (·.pwr), f (·.peer),
    f (·.com), KeptCyc.of (f (·.cyc)), KeptHost.of (f (·.host)), KeptRcd.of (f (·.rcd)), f (·.tlg.snaps)⟩

@[simp] theorem dspWake_rest (d : Dev) (x : DTask) (cause : Nat) : (d.dspWake x cause).rest =
    { d.rest with dsp := (d.dspWake x cause).dsp, tlg := quietTlg (d.dspWake x cause).tlg } := by
  have h := (dspWake_spec d x cause).1
  generalize d.dspWake x cause = x at h ⊢
  have f {α : Type} (g : Dev → α) : g x.rest = g ({ d.rest with dsp := { d.dsp with tasks := (x).dsp.tasks, cores := (x).dsp.cores }, tlg := { quietTlg d.tlg with ctrs := (x).tlg.ctrs, stuck := (x).tlg.stuck } }) := congrArg g h
  exact dev_ext (f (·.now)) rfl (f (·.snap)) (f (·.committedOnce)) rfl (f (·.staged)) (f (·.ctrls)) rfl (f (·.freeIx)) (f (·.tim)) (f (·.cyc)) (f (·.host))
    (f (·.chutes)) (f (·.rcd)) (f (·.stp)) (f (·.air)) (f (·.gns)) (f (·.chiselOut)) (f (·.ring)) (f (·.can)) (f (·.mtr)) (f (·.drk)) rfl rfl
    (f (·.pwr)) (f (·.peer)) (f (·.com))

theorem dspWake_reads (d : Dev) (x : DTask) (cause : Nat) : ∀ id jq, reportItem id = false → id ≠ P.DSP_DISPATCHES → id ≠ P.DSP_READY_MAX → id ≠ P.DSP_PREEMPTS →
    (d.dspWake x cause).rd id jq = d.rd id jq ∧ (d.dspWake x cause).isSticky id jq = d.isSticky id jq ∧ (d.dspWake x cause).cf id jq = d.cf id jq := by
  intro id jq hr h0 h1 h2
  have h := (dspWake_spec d x cause).2 id jq hr (by simp) (by simp [regKey_ne, h0, Ne.symm h0, h1, Ne.symm h1, h2, Ne.symm h2])
  have e : (d.dspWake x cause).staged = d.staged := by simp
  refine ⟨h.1, h.2, ?_⟩
  simp only [Dev.cf, e, h.1]

theorem dspWake_at (d : Dev) (x : DTask) (cause : Nat) : ∀ id jq, reportItem id = false  → regKey P.DSP_DISPATCHES 0 ≠ regKey id jq → regKey P.DSP_READY_MAX 0 ≠ regKey id jq → regKey P.DSP_PREEMPTS 0 ≠ regKey id jq →
    (d.dspWake x cause).rd id jq = d.rd id jq ∧ (d.dspWake x cause).isSticky id jq = d.isSticky id jq ∧ (d.dspWake x cause).cf id jq = d.cf id jq := by
  intro id jq hr h0 h1 h2
  have h := (dspWake_spec d x cause).2 id jq hr (by simp) (by simp [h0, h1, h2])
  have e : (d.dspWake x cause).staged = d.staged := by simp
  refine ⟨h.1, h.2, ?_⟩
  simp only [Dev.cf, e, h.1]

theorem itemsBut_dspWake {ids : List Nat} {ks : List (Nat × Nat)} (d e : Dev) (x : DTask) (cause : Nat) (m0 : P.DSP_DISPATCHES ∈ ids ∨ (P.DSP_DISPATCHES, 0) ∈ ks) (m1 : P.DSP_READY_MAX ∈ ids ∨ (P.DSP_READY_MAX, 0) ∈ ks) (m2 : P.DSP_PREEMPTS ∈ ids ∨ (P.DSP_PREEMPTS, 0) ∈ ks) :
    ItemsBut ids ks (d.dspWake x cause) e ↔ ItemsBut ids ks d e :=
  itemsBut_congr ((dspWake_spec d x cause).2.mono (by simp) (by simp [m0, m1, m2])) e

/-- Tasks that wait on an object are woken. -/
theorem wakeAll_spec (d : Dev) (kind obj cause : Nat) : (d.wakeAll kind obj cause).rest = { d.rest with dsp := { d.dsp with tasks := (d.wakeAll kind obj cause).dsp.tasks, cores := (d.wakeAll kind obj cause).dsp.cores }, tlg := { quietTlg d.tlg with ctrs := (d.wakeAll kind obj cause).tlg.ctrs, stuck := (d.wakeAll kind obj cause).tlg.stuck } } ∧
    ItemsBut [] [(P.DSP_DISPATCHES, 0), (P.DSP_READY_MAX, 0), (P.DSP_PREEMPTS, 0)] (d.wakeAll kind obj cause) d := by
  unfold Dev.wakeAll
  split
  · exact ⟨rfl, itemsBut_self _ _ _⟩
  · have h := foldl_keeps (fun x : Dev => ({ x.rest with dsp := { x.dsp with tasks := [], cores := [] }, tlg := { quietTlg x.tlg with ctrs := [], stuck := [] } } : Dev))
      (fun d x => d.dspWake x cause) (fun x a => by simp [-dspWake_rest, dspWake_rest'])
    refine ⟨(congrArg (fun x : Dev => ({ x with dsp := { x.dsp with tasks := _, cores := _ }, tlg := { x.tlg with ctrs := _, stuck := _ } } : Dev)) (h _ _)).trans ?_,
      fold_items _ (fun x a => (dspWake_spec x a cause).2) _ _⟩
    rfl

theorem wakeAll_rest' (d : Dev) (kind obj cause : Nat) : (d.wakeAll kind obj cause).rest = { d.rest with dsp := { d.dsp with tasks := (d.wakeAll kind obj cause).dsp.tasks, cores := (d.wakeAll kind obj cause).dsp.cores }, tlg := { quietTlg d.tlg with ctrs := (d.wakeAll kind obj cause).tlg.ctrs, stuck := (d.wakeAll kind obj cause).tlg.stuck } } := (wakeAll_spec d kind obj cause).1

@[simp] theorem wakeAll_fields (d : Dev) (kind obj cause : Nat) :
    (d.wakeAll kind obj cause).now = d.now ∧ (d.wakeAll kind obj cause).snap = d.snap ∧
    (d.wakeAll kind obj cause).committedOnce = d.committedOnce ∧ (d.wakeAll kind obj cause).staged = d.staged ∧
    (d.wakeAll kind obj cause).ctrls = d.ctrls ∧ (d.wakeAll kind obj cause).freeIx = d.freeIx ∧ (d.wakeAll kind obj cause).tim = d.tim ∧
    (d.wakeAll kind obj cause).chutes = d.chutes ∧ (d.wakeAll kind obj cause).stp = d.stp ∧ (d.wakeAll kind obj cause).air = d.air ∧
    (d.wakeAll kind obj cause).gns = d.gns ∧ (d.wakeAll kind obj cause).chiselOut = d.chiselOut ∧ (d.wakeAll kind obj cause).ring = d.ring ∧
    (d.wakeAll kind obj cause).can = d.can ∧ (d.wakeAll kind obj cause).mtr = d.mtr ∧ (d.wakeAll kind obj cause).drk = d.drk ∧
    (d.wakeAll kind obj cause).dsp.events = d.dsp.events ∧ (d.wakeAll kind obj cause).dsp.failed = d.dsp.failed ∧
    (d.wakeAll kind obj cause).pwr = d.pwr ∧ (d.wakeAll kind obj cause).peer = d.peer ∧ (d.wakeAll kind obj cause).com = d.com ∧
    KeptCyc (d.wakeAll kind obj cause).cyc d.cyc ∧ KeptHost (d.wakeAll kind obj cause).host d.host ∧
    KeptRcd (d.wakeAll kind obj cause).rcd d.rcd ∧ (d.wakeAll kind obj cause).tlg.snaps = d.tlg.snaps := by
  have h := (wakeAll_spec d kind obj cause).1
  generalize d.wakeAll kind obj cause = x at h ⊢
  have f {α : Type} (g : Dev → α) : g x.rest = g ({ d.rest with dsp := { d.dsp with tasks := (x).dsp.tasks, cores := (x).dsp.cores }, tlg := { quietTlg d.tlg with ctrs := (x).tlg.ctrs, stuck := (x).tlg.stuck } }) := congrArg g h
  exact ⟨f (·.now), f (·.snap), f (·.committedOnce), f (·.staged), f (·.ctrls), f (·.freeIx), f (·.tim), f (·.chutes), f (·.stp), f (·.air),
    f (·.gns), f (·.chiselOut), f (·.ring), f (·.can), f (·.mtr), f (·.drk), f (·.dsp.events), f (·.dsp.failed), f (·.pwr), f (·.peer),
    f (·.com), KeptCyc.of (f (·.cyc)), KeptHost.of (f (·.host)), KeptRcd.of (f (·.rcd)), f (·.tlg.snaps)⟩

@[simp] theorem wakeAll_rest (d : Dev) (kind obj cause : Nat) : (d.wakeAll kind obj cause).rest =
    { d.rest with dsp := (d.wakeAll kind obj cause).dsp, tlg := quietTlg (d.wakeAll kind obj cause).tlg } := by
  have h := (wakeAll_spec d kind obj cause).1
  generalize d.wakeAll kind obj cause = x at h ⊢
  have f {α : Type} (g : Dev → α) : g x.rest = g ({ d.rest with dsp := { d.dsp with tasks := (x).dsp.tasks, cores := (x).dsp.cores }, tlg := { quietTlg d.tlg with ctrs := (x).tlg.ctrs, stuck := (x).tlg.stuck } }) := congrArg g h
  exact dev_ext (f (·.now)) rfl (f (·.snap)) (f (·.committedOnce)) rfl (f (·.staged)) (f (·.ctrls)) rfl (f (·.freeIx)) (f (·.tim)) (f (·.cyc)) (f (·.host))
    (f (·.chutes)) (f (·.rcd)) (f (·.stp)) (f (·.air)) (f (·.gns)) (f (·.chiselOut)) (f (·.ring)) (f (·.can)) (f (·.mtr)) (f (·.drk)) rfl rfl
    (f (·.pwr)) (f (·.peer)) (f (·.com))

theorem wakeAll_reads (d : Dev) (kind obj cause : Nat) : ∀ id jq, reportItem id = false → id ≠ P.DSP_DISPATCHES → id ≠ P.DSP_READY_MAX → id ≠ P.DSP_PREEMPTS →
    (d.wakeAll kind obj cause).rd id jq = d.rd id jq ∧ (d.wakeAll kind obj cause).isSticky id jq = d.isSticky id jq ∧ (d.wakeAll kind obj cause).cf id jq = d.cf id jq := by
  intro id jq hr h0 h1 h2
  have h := (wakeAll_spec d kind obj cause).2 id jq hr (by simp) (by simp [regKey_ne, h0, Ne.symm h0, h1, Ne.symm h1, h2, Ne.symm h2])
  have e : (d.wakeAll kind obj cause).staged = d.staged := by simp
  refine ⟨h.1, h.2, ?_⟩
  simp only [Dev.cf, e, h.1]

theorem wakeAll_at (d : Dev) (kind obj cause : Nat) : ∀ id jq, reportItem id = false  → regKey P.DSP_DISPATCHES 0 ≠ regKey id jq → regKey P.DSP_READY_MAX 0 ≠ regKey id jq → regKey P.DSP_PREEMPTS 0 ≠ regKey id jq →
    (d.wakeAll kind obj cause).rd id jq = d.rd id jq ∧ (d.wakeAll kind obj cause).isSticky id jq = d.isSticky id jq ∧ (d.wakeAll kind obj cause).cf id jq = d.cf id jq := by
  intro id jq hr h0 h1 h2
  have h := (wakeAll_spec d kind obj cause).2 id jq hr (by simp) (by simp [h0, h1, h2])
  have e : (d.wakeAll kind obj cause).staged = d.staged := by simp
  refine ⟨h.1, h.2, ?_⟩
  simp only [Dev.cf, e, h.1]

theorem itemsBut_wakeAll {ids : List Nat} {ks : List (Nat × Nat)} (d e : Dev) (kind obj cause : Nat) (m0 : P.DSP_DISPATCHES ∈ ids ∨ (P.DSP_DISPATCHES, 0) ∈ ks) (m1 : P.DSP_READY_MAX ∈ ids ∨ (P.DSP_READY_MAX, 0) ∈ ks) (m2 : P.DSP_PREEMPTS ∈ ids ∨ (P.DSP_PREEMPTS, 0) ∈ ks) :
    ItemsBut ids ks (d.wakeAll kind obj cause) e ↔ ItemsBut ids ks d e :=
  itemsBut_congr ((wakeAll_spec d kind obj cause).2.mono (by simp) (by simp [m0, m1, m2])) e

/-! ### Chutes -/

/-- A trace record of a Chute. -/
theorem chuteTrace_spec (d : Dev) (kind i words : Nat) (desc : Bool) : (d.chuteTrace kind i words desc).rest = d.rest ∧
    ItemsBut [] [] (d.chuteTrace kind i words desc) d := by
  unfold Dev.chuteTrace
  repeat' split
  all_goals
    exact ⟨by first | (simp [itemsBut_self, -judge_rest, judge_rest', -timeState_rest, timeState_rest', -takeSeq_rest, takeSeq_rest', -hold_rest, hold_rest', -admit_rest, admit_rest', -input_rest, input_rest', -offer_rest, offer_rest', -stopNotice_rest, stopNotice_rest', -stopEvent_rest, stopEvent_rest', -giveUp_rest, giveUp_rest', -verdict_rest, verdict_rest', -engineFault_rest, engineFault_rest', -ctr_rest, ctr_rest', -beginReset_rest, beginReset_rest', -imageKeep_rest, imageKeep_rest', -imageCopy_rest, imageCopy_rest', -lastWords_rest, lastWords_rest', -placeRec_rest, placeRec_rest', -setTask_rest, setTask_rest', -setCore_rest, setCore_rest', -coreCount_rest, coreCount_rest', -dspRun_rest, dspRun_rest', -dspLeave_rest, dspLeave_rest', -dspHold_rest, dspHold_rest', -dspReady_rest, dspReady_rest', -dspWake_rest, dspWake_rest', -wakeAll_rest, wakeAll_rest']; done) | (simp [itemsBut_self, -judge_rest, judge_rest', -timeState_rest, timeState_rest', -takeSeq_rest, takeSeq_rest', -hold_rest, hold_rest', -admit_rest, admit_rest', -input_rest, input_rest', -offer_rest, offer_rest', -stopNotice_rest, stopNotice_rest', -stopEvent_rest, stopEvent_rest', -giveUp_rest, giveUp_rest', -verdict_rest, verdict_rest', -engineFault_rest, engineFault_rest', -ctr_rest, ctr_rest', -beginReset_rest, beginReset_rest', -imageKeep_rest, imageKeep_rest', -imageCopy_rest, imageCopy_rest', -lastWords_rest, lastWords_rest', -placeRec_rest, placeRec_rest', -setTask_rest, setTask_rest', -setCore_rest, setCore_rest', -coreCount_rest, coreCount_rest', -dspRun_rest, dspRun_rest', -dspLeave_rest, dspLeave_rest', -dspHold_rest, dspHold_rest', -dspReady_rest, dspReady_rest', -dspWake_rest, dspWake_rest', -wakeAll_rest, wakeAll_rest']; repeat' (first | rfl | apply And.intro)) | rfl, by simp [itemsBut_wr, itemsBut_inc, itemsBut_addW, itemsBut_maxTo, itemsBut_wrS, itemsBut_judge, itemsBut_timeState, itemsBut_takeSeq, itemsBut_countIn, itemsBut_hold, itemsBut_admit, itemsBut_input, itemsBut_offer, itemsBut_stopNotice, itemsBut_stopEvent, itemsBut_giveUp, itemsBut_verdict, itemsBut_engineFault, itemsBut_ctr, itemsBut_dspTrace, itemsBut_bypass, itemsBut_bypassHw, itemsBut_beginReset, itemsBut_mtrFlush, itemsBut_imageKeep, itemsBut_imageCopy, itemsBut_antState, itemsBut_judgeBias, itemsBut_chainState, itemsBut_showTile, itemsBut_putChan, itemsBut_freeChan, itemsBut_freeWhere, itemsBut_enableChan, itemsBut_place, itemsBut_placeAll, itemsBut_chainsEnable, itemsBut_startTracking, itemsBut_noteGain, itemsBut_stopTracking, itemsBut_snapTrigger, itemsBut_recorder, itemsBut_region, itemsBut_showRegion, itemsBut_lastWords, itemsBut_placeRec, itemsBut_flush, itemsBut_regionLost, itemsBut_setTask, itemsBut_setCore, itemsBut_coreCount, itemsBut_dspRun, itemsBut_dspLeave, itemsBut_dspHold, itemsBut_dspReady, itemsBut_dspWake, itemsBut_wakeAll]⟩

@[simp] theorem chuteTrace_fields (d : Dev) (kind i words : Nat) (desc : Bool) :
    (d.chuteTrace kind i words desc).now = d.now ∧ (d.chuteTrace kind i words desc).snap = d.snap ∧
    (d.chuteTrace kind i words desc).committedOnce = d.committedOnce ∧ (d.chuteTrace kind i words desc).staged = d.staged ∧
    (d.chuteTrace kind i words desc).ctrls = d.ctrls ∧ (d.chuteTrace kind i words desc).freeIx = d.freeIx ∧
    (d.chuteTrace kind i words desc).tim = d.tim ∧ (d.chuteTrace kind i words desc).chutes = d.chutes ∧
    (d.chuteTrace kind i words desc).stp = d.stp ∧ (d.chuteTrace kind i words desc).air = d.air ∧ (d.chuteTrace kind i words desc).gns = d.gns ∧
    (d.chuteTrace kind i words desc).chiselOut = d.chiselOut ∧ (d.chuteTrace kind i words desc).ring = d.ring ∧
    (d.chuteTrace kind i words desc).can = d.can ∧ (d.chuteTrace kind i words desc).mtr = d.mtr ∧ (d.chuteTrace kind i words desc).drk = d.drk ∧
    (d.chuteTrace kind i words desc).dsp = d.dsp ∧ (d.chuteTrace kind i words desc).pwr = d.pwr ∧
    (d.chuteTrace kind i words desc).peer = d.peer ∧ (d.chuteTrace kind i words desc).com = d.com ∧
    KeptCyc (d.chuteTrace kind i words desc).cyc d.cyc ∧ KeptHost (d.chuteTrace kind i words desc).host d.host ∧
    KeptRcd (d.chuteTrace kind i words desc).rcd d.rcd ∧ KeptTlg (d.chuteTrace kind i words desc).tlg d.tlg := by
  have h := (chuteTrace_spec d kind i words desc).1
  generalize d.chuteTrace kind i words desc = x at h ⊢
  have f {α : Type} (g : Dev → α) : g x.rest = g (d.rest) := congrArg g h
  exact ⟨f (·.now), f (·.snap), f (·.committedOnce), f (·.staged), f (·.ctrls), f (·.freeIx), f (·.tim), f (·.chutes), f (·.stp), f (·.air),
    f (·.gns), f (·.chiselOut), f (·.ring), f (·.can), f (·.mtr), f (·.drk), f (·.dsp), f (·.pwr), f (·.peer), f (·.com),
    KeptCyc.of (f (·.cyc)), KeptHost.of (f (·.host)), KeptRcd.of (f (·.rcd)), KeptTlg.of (f (·.tlg))⟩

@[simp] theorem chuteTrace_rest (d : Dev) (kind i words : Nat) (desc : Bool) : (d.chuteTrace kind i words desc).rest =
    d.rest := by
  have h := (chuteTrace_spec d kind i words desc).1
  generalize d.chuteTrace kind i words desc = x at h ⊢
  have f {α : Type} (g : Dev → α) : g x.rest = g (d.rest) := congrArg g h
  exact dev_ext (f (·.now)) rfl (f (·.snap)) (f (·.committedOnce)) rfl (f (·.staged)) (f (·.ctrls)) rfl (f (·.freeIx)) (f (·.tim)) (f (·.cyc)) (f (·.host))
    (f (·.chutes)) (f (·.rcd)) (f (·.stp)) (f (·.air)) (f (·.gns)) (f (·.chiselOut)) (f (·.ring)) (f (·.can)) (f (·.mtr)) (f (·.drk))
    (f (·.dsp)) (f (·.tlg)) (f (·.pwr)) (f (·.peer)) (f (·.com))

theorem chuteTrace_reads (d : Dev) (kind i words : Nat) (desc : Bool) : ∀ id jq, reportItem id = false  →
    (d.chuteTrace kind i words desc).rd id jq = d.rd id jq ∧ (d.chuteTrace kind i words desc).isSticky id jq = d.isSticky id jq ∧ (d.chuteTrace kind i words desc).cf id jq = d.cf id jq := by
  intro id jq hr 
  have h := (chuteTrace_spec d kind i words desc).2 id jq hr (by simp) (by simp)
  have e : (d.chuteTrace kind i words desc).staged = d.staged := by simp
  refine ⟨h.1, h.2, ?_⟩
  simp only [Dev.cf, e, h.1]

theorem itemsBut_chuteTrace {ids : List Nat} {ks : List (Nat × Nat)} (d e : Dev) (kind i words : Nat) (desc : Bool)  :
    ItemsBut ids ks (d.chuteTrace kind i words desc) e ↔ ItemsBut ids ks d e :=
  itemsBut_congr ((chuteTrace_spec d kind i words desc).2.mono (by simp) (by simp)) e

/-- A Chute changed. -/
theorem chute_spec (d : Dev) (i : Nat) (f : Chute → Chute) : (d.chute i f).rest = { d.rest with chutes := (d.chute i f).chutes } ∧
    ItemsBut [] [] (d.chute i f) d := by
  exact ⟨rfl, fun _ _ _ _ _ => ⟨rfl, rfl⟩⟩

@[simp] theorem chute_fields (d : Dev) (i : Nat) (f : Chute → Chute) :
    (d.chute i f).now = d.now ∧ (d.chute i f).snap = d.snap ∧ (d.chute i f).committedOnce = d.committedOnce ∧ (d.chute i f).staged = d.staged ∧
    (d.chute i f).ctrls = d.ctrls ∧ (d.chute i f).freeIx = d.freeIx ∧ (d.chute i f).tim = d.tim ∧ (d.chute i f).stp = d.stp ∧
    (d.chute i f).air = d.air ∧ (d.chute i f).gns = d.gns ∧ (d.chute i f).chiselOut = d.chiselOut ∧ (d.chute i f).ring = d.ring ∧
    (d.chute i f).can = d.can ∧ (d.chute i f).mtr = d.mtr ∧ (d.chute i f).drk = d.drk ∧ (d.chute i f).dsp = d.dsp ∧ (d.chute i f).pwr = d.pwr ∧
    (d.chute i f).peer = d.peer ∧ (d.chute i f).com = d.com ∧ KeptCyc (d.chute i f).cyc d.cyc ∧ KeptHost (d.chute i f).host d.host ∧
    KeptRcd (d.chute i f).rcd d.rcd ∧ KeptTlg (d.chute i f).tlg d.tlg := by
  have h := (chute_spec d i f).1
  generalize d.chute i f = x at h ⊢
  have f {α : Type} (g : Dev → α) : g x.rest = g ({ d.rest with chutes := (x).chutes }) := congrArg g h
  exact ⟨f (·.now), f (·.snap), f (·.committedOnce), f (·.staged), f (·.ctrls), f (·.freeIx), f (·.tim), f (·.stp), f (·.air), f (·.gns),
    f (·.chiselOut), f (·.ring), f (·.can), f (·.mtr), f (·.drk), f (·.dsp), f (·.pwr), f (·.peer), f (·.com), KeptCyc.of (f (·.cyc)),
    KeptHost.of (f (·.host)), KeptRcd.of (f (·.rcd)), KeptTlg.of (f (·.tlg))⟩

@[simp] theorem chute_rest (d : Dev) (i : Nat) (f : Chute → Chute) : (d.chute i f).rest =
    { d.rest with chutes := (d.chute i f).chutes } := by
  have h := (chute_spec d i f).1
  generalize d.chute i f = x at h ⊢
  have f {α : Type} (g : Dev → α) : g x.rest = g ({ d.rest with chutes := (x).chutes }) := congrArg g h
  exact dev_ext (f (·.now)) rfl (f (·.snap)) (f (·.committedOnce)) rfl (f (·.staged)) (f (·.ctrls)) rfl (f (·.freeIx)) (f (·.tim)) (f (·.cyc)) (f (·.host))
    rfl (f (·.rcd)) (f (·.stp)) (f (·.air)) (f (·.gns)) (f (·.chiselOut)) (f (·.ring)) (f (·.can)) (f (·.mtr)) (f (·.drk)) (f (·.dsp))
    (f (·.tlg)) (f (·.pwr)) (f (·.peer)) (f (·.com))

theorem chute_reads (d : Dev) (i : Nat) (f : Chute → Chute) : ∀ id jq, reportItem id = false  →
    (d.chute i f).rd id jq = d.rd id jq ∧ (d.chute i f).isSticky id jq = d.isSticky id jq ∧ (d.chute i f).cf id jq = d.cf id jq := by
  intro id jq hr 
  have h := (chute_spec d i f).2 id jq hr (by simp) (by simp)
  have e : (d.chute i f).staged = d.staged := by simp
  refine ⟨h.1, h.2, ?_⟩
  simp only [Dev.cf, e, h.1]

theorem itemsBut_chute {ids : List Nat} {ks : List (Nat × Nat)} (d e : Dev) (i : Nat) (f : Chute → Chute)  :
    ItemsBut ids ks (d.chute i f) e ↔ ItemsBut ids ks d e :=
  itemsBut_congr ((chute_spec d i f).2.mono (by simp) (by simp)) e

/-- A packet rewound. -/
theorem rewind_spec (d : Dev) (i words : Nat) : (d.rewind i words).rest = d.rest ∧
    ItemsBut [] [(P.CHU_REWIND, i)] (d.rewind i words) d := by
  unfold Dev.rewind
  repeat' split
  all_goals
    exact ⟨by first | (simp [itemsBut_self, -judge_rest, judge_rest', -timeState_rest, timeState_rest', -takeSeq_rest, takeSeq_rest', -hold_rest, hold_rest', -admit_rest, admit_rest', -input_rest, input_rest', -offer_rest, offer_rest', -stopNotice_rest, stopNotice_rest', -stopEvent_rest, stopEvent_rest', -giveUp_rest, giveUp_rest', -verdict_rest, verdict_rest', -engineFault_rest, engineFault_rest', -ctr_rest, ctr_rest', -beginReset_rest, beginReset_rest', -imageKeep_rest, imageKeep_rest', -imageCopy_rest, imageCopy_rest', -lastWords_rest, lastWords_rest', -placeRec_rest, placeRec_rest', -setTask_rest, setTask_rest', -setCore_rest, setCore_rest', -coreCount_rest, coreCount_rest', -dspRun_rest, dspRun_rest', -dspLeave_rest, dspLeave_rest', -dspHold_rest, dspHold_rest', -dspReady_rest, dspReady_rest', -dspWake_rest, dspWake_rest', -wakeAll_rest, wakeAll_rest']; done) | (simp [itemsBut_self, -judge_rest, judge_rest', -timeState_rest, timeState_rest', -takeSeq_rest, takeSeq_rest', -hold_rest, hold_rest', -admit_rest, admit_rest', -input_rest, input_rest', -offer_rest, offer_rest', -stopNotice_rest, stopNotice_rest', -stopEvent_rest, stopEvent_rest', -giveUp_rest, giveUp_rest', -verdict_rest, verdict_rest', -engineFault_rest, engineFault_rest', -ctr_rest, ctr_rest', -beginReset_rest, beginReset_rest', -imageKeep_rest, imageKeep_rest', -imageCopy_rest, imageCopy_rest', -lastWords_rest, lastWords_rest', -placeRec_rest, placeRec_rest', -setTask_rest, setTask_rest', -setCore_rest, setCore_rest', -coreCount_rest, coreCount_rest', -dspRun_rest, dspRun_rest', -dspLeave_rest, dspLeave_rest', -dspHold_rest, dspHold_rest', -dspReady_rest, dspReady_rest', -dspWake_rest, dspWake_rest', -wakeAll_rest, wakeAll_rest']; repeat' (first | rfl | apply And.intro)) | rfl, by simp [itemsBut_wr, itemsBut_inc, itemsBut_addW, itemsBut_maxTo, itemsBut_wrS, itemsBut_judge, itemsBut_timeState, itemsBut_takeSeq, itemsBut_countIn, itemsBut_hold, itemsBut_admit, itemsBut_input, itemsBut_offer, itemsBut_stopNotice, itemsBut_stopEvent, itemsBut_giveUp, itemsBut_verdict, itemsBut_engineFault, itemsBut_ctr, itemsBut_dspTrace, itemsBut_bypass, itemsBut_bypassHw, itemsBut_beginReset, itemsBut_mtrFlush, itemsBut_imageKeep, itemsBut_imageCopy, itemsBut_antState, itemsBut_judgeBias, itemsBut_chainState, itemsBut_showTile, itemsBut_putChan, itemsBut_freeChan, itemsBut_freeWhere, itemsBut_enableChan, itemsBut_place, itemsBut_placeAll, itemsBut_chainsEnable, itemsBut_startTracking, itemsBut_noteGain, itemsBut_stopTracking, itemsBut_snapTrigger, itemsBut_recorder, itemsBut_region, itemsBut_showRegion, itemsBut_lastWords, itemsBut_placeRec, itemsBut_flush, itemsBut_regionLost, itemsBut_setTask, itemsBut_setCore, itemsBut_coreCount, itemsBut_dspRun, itemsBut_dspLeave, itemsBut_dspHold, itemsBut_dspReady, itemsBut_dspWake, itemsBut_wakeAll, itemsBut_chuteTrace, itemsBut_chute]⟩

@[simp] theorem rewind_fields (d : Dev) (i words : Nat) :
    (d.rewind i words).now = d.now ∧ (d.rewind i words).snap = d.snap ∧ (d.rewind i words).committedOnce = d.committedOnce ∧
    (d.rewind i words).staged = d.staged ∧ (d.rewind i words).ctrls = d.ctrls ∧ (d.rewind i words).freeIx = d.freeIx ∧
    (d.rewind i words).tim = d.tim ∧ (d.rewind i words).chutes = d.chutes ∧ (d.rewind i words).stp = d.stp ∧ (d.rewind i words).air = d.air ∧
    (d.rewind i words).gns = d.gns ∧ (d.rewind i words).chiselOut = d.chiselOut ∧ (d.rewind i words).ring = d.ring ∧
    (d.rewind i words).can = d.can ∧ (d.rewind i words).mtr = d.mtr ∧ (d.rewind i words).drk = d.drk ∧ (d.rewind i words).dsp = d.dsp ∧
    (d.rewind i words).pwr = d.pwr ∧ (d.rewind i words).peer = d.peer ∧ (d.rewind i words).com = d.com ∧ KeptCyc (d.rewind i words).cyc d.cyc ∧
    KeptHost (d.rewind i words).host d.host ∧ KeptRcd (d.rewind i words).rcd d.rcd ∧ KeptTlg (d.rewind i words).tlg d.tlg := by
  have h := (rewind_spec d i words).1
  generalize d.rewind i words = x at h ⊢
  have f {α : Type} (g : Dev → α) : g x.rest = g (d.rest) := congrArg g h
  exact ⟨f (·.now), f (·.snap), f (·.committedOnce), f (·.staged), f (·.ctrls), f (·.freeIx), f (·.tim), f (·.chutes), f (·.stp), f (·.air),
    f (·.gns), f (·.chiselOut), f (·.ring), f (·.can), f (·.mtr), f (·.drk), f (·.dsp), f (·.pwr), f (·.peer), f (·.com),
    KeptCyc.of (f (·.cyc)), KeptHost.of (f (·.host)), KeptRcd.of (f (·.rcd)), KeptTlg.of (f (·.tlg))⟩

@[simp] theorem rewind_rest (d : Dev) (i words : Nat) : (d.rewind i words).rest =
    d.rest := by
  have h := (rewind_spec d i words).1
  generalize d.rewind i words = x at h ⊢
  have f {α : Type} (g : Dev → α) : g x.rest = g (d.rest) := congrArg g h
  exact dev_ext (f (·.now)) rfl (f (·.snap)) (f (·.committedOnce)) rfl (f (·.staged)) (f (·.ctrls)) rfl (f (·.freeIx)) (f (·.tim)) (f (·.cyc)) (f (·.host))
    (f (·.chutes)) (f (·.rcd)) (f (·.stp)) (f (·.air)) (f (·.gns)) (f (·.chiselOut)) (f (·.ring)) (f (·.can)) (f (·.mtr)) (f (·.drk))
    (f (·.dsp)) (f (·.tlg)) (f (·.pwr)) (f (·.peer)) (f (·.com))

theorem rewind_reads (d : Dev) (i words : Nat) : ∀ id jq, reportItem id = false → id ≠ P.CHU_REWIND →
    (d.rewind i words).rd id jq = d.rd id jq ∧ (d.rewind i words).isSticky id jq = d.isSticky id jq ∧ (d.rewind i words).cf id jq = d.cf id jq := by
  intro id jq hr h0
  have h := (rewind_spec d i words).2 id jq hr (by simp) (by simp [regKey_ne, h0, Ne.symm h0])
  have e : (d.rewind i words).staged = d.staged := by simp
  refine ⟨h.1, h.2, ?_⟩
  simp only [Dev.cf, e, h.1]

theorem rewind_at (d : Dev) (i words : Nat) : ∀ id jq, reportItem id = false  → regKey P.CHU_REWIND i ≠ regKey id jq →
    (d.rewind i words).rd id jq = d.rd id jq ∧ (d.rewind i words).isSticky id jq = d.isSticky id jq ∧ (d.rewind i words).cf id jq = d.cf id jq := by
  intro id jq hr h0
  have h := (rewind_spec d i words).2 id jq hr (by simp) (by simp [h0])
  have e : (d.rewind i words).staged = d.staged := by simp
  refine ⟨h.1, h.2, ?_⟩
  simp only [Dev.cf, e, h.1]

theorem itemsBut_rewind {ids : List Nat} {ks : List (Nat × Nat)} (d e : Dev) (i words : Nat) (m0 : P.CHU_REWIND ∈ ids ∨ (P.CHU_REWIND, i) ∈ ks) :
    ItemsBut ids ks (d.rewind i words) e ↔ ItemsBut ids ks d e :=
  itemsBut_congr ((rewind_spec d i words).2.mono (by simp) (by simp [m0])) e

/-- A parity failure noted. -/
theorem parityFail_spec (d : Dev) (i : Nat) : (d.parityFail i).rest = { d.rest with chutes := (d.parityFail i).chutes } ∧
    ItemsBut [] [] (d.parityFail i) d := by
  exact ⟨rfl, fun _ _ _ _ _ => ⟨rfl, rfl⟩⟩

@[simp] theorem parityFail_fields (d : Dev) (i : Nat) :
    (d.parityFail i).now = d.now ∧ (d.parityFail i).snap = d.snap ∧ (d.parityFail i).committedOnce = d.committedOnce ∧
    (d.parityFail i).staged = d.staged ∧ (d.parityFail i).ctrls = d.ctrls ∧ (d.parityFail i).freeIx = d.freeIx ∧ (d.parityFail i).tim = d.tim ∧
    (d.parityFail i).stp = d.stp ∧ (d.parityFail i).air = d.air ∧ (d.parityFail i).gns = d.gns ∧ (d.parityFail i).chiselOut = d.chiselOut ∧
    (d.parityFail i).ring = d.ring ∧ (d.parityFail i).can = d.can ∧ (d.parityFail i).mtr = d.mtr ∧ (d.parityFail i).drk = d.drk ∧
    (d.parityFail i).dsp = d.dsp ∧ (d.parityFail i).pwr = d.pwr ∧ (d.parityFail i).peer = d.peer ∧ (d.parityFail i).com = d.com ∧
    KeptCyc (d.parityFail i).cyc d.cyc ∧ KeptHost (d.parityFail i).host d.host ∧ KeptRcd (d.parityFail i).rcd d.rcd ∧
    KeptTlg (d.parityFail i).tlg d.tlg := by
  have h := (parityFail_spec d i).1
  generalize d.parityFail i = x at h ⊢
  have f {α : Type} (g : Dev → α) : g x.rest = g ({ d.rest with chutes := (x).chutes }) := congrArg g h
  exact ⟨f (·.now), f (·.snap), f (·.committedOnce), f (·.staged), f (·.ctrls), f (·.freeIx), f (·.tim), f (·.stp), f (·.air), f (·.gns),
    f (·.chiselOut), f (·.ring), f (·.can), f (·.mtr), f (·.drk), f (·.dsp), f (·.pwr), f (·.peer), f (·.com), KeptCyc.of (f (·.cyc)),
    KeptHost.of (f (·.host)), KeptRcd.of (f (·.rcd)), KeptTlg.of (f (·.tlg))⟩

@[simp] theorem parityFail_rest (d : Dev) (i : Nat) : (d.parityFail i).rest =
    { d.rest with chutes := (d.parityFail i).chutes } := by
  have h := (parityFail_spec d i).1
  generalize d.parityFail i = x at h ⊢
  have f {α : Type} (g : Dev → α) : g x.rest = g ({ d.rest with chutes := (x).chutes }) := congrArg g h
  exact dev_ext (f (·.now)) rfl (f (·.snap)) (f (·.committedOnce)) rfl (f (·.staged)) (f (·.ctrls)) rfl (f (·.freeIx)) (f (·.tim)) (f (·.cyc)) (f (·.host))
    rfl (f (·.rcd)) (f (·.stp)) (f (·.air)) (f (·.gns)) (f (·.chiselOut)) (f (·.ring)) (f (·.can)) (f (·.mtr)) (f (·.drk)) (f (·.dsp))
    (f (·.tlg)) (f (·.pwr)) (f (·.peer)) (f (·.com))

theorem parityFail_reads (d : Dev) (i : Nat) : ∀ id jq, reportItem id = false  →
    (d.parityFail i).rd id jq = d.rd id jq ∧ (d.parityFail i).isSticky id jq = d.isSticky id jq ∧ (d.parityFail i).cf id jq = d.cf id jq := by
  intro id jq hr 
  have h := (parityFail_spec d i).2 id jq hr (by simp) (by simp)
  have e : (d.parityFail i).staged = d.staged := by simp
  refine ⟨h.1, h.2, ?_⟩
  simp only [Dev.cf, e, h.1]

theorem itemsBut_parityFail {ids : List Nat} {ks : List (Nat × Nat)} (d e : Dev) (i : Nat)  :
    ItemsBut ids ks (d.parityFail i) e ↔ ItemsBut ids ks d e :=
  itemsBut_congr ((parityFail_spec d i).2.mono (by simp) (by simp)) e

/-- A committed packet. -/
theorem packetIn_spec (d : Dev) (i : Nat) (p : Packet) : (d.packetIn i p).rest = { d.rest with chutes := (d.packetIn i p).chutes, dsp := { d.dsp with tasks := (d.packetIn i p).dsp.tasks, cores := (d.packetIn i p).dsp.cores }, tlg := { quietTlg d.tlg with ctrs := (d.packetIn i p).tlg.ctrs, stuck := (d.packetIn i p).tlg.stuck }, cyc := { quietCyc d.cyc with adm := (d.packetIn i p).cyc.adm, seqs := (d.packetIn i p).cyc.seqs, spilled := (d.packetIn i p).cyc.spilled } } ∧
    ItemsBut [] [(P.CHU_PACKETS, i), (P.CHU_FILL_MAX, i), (P.CHU_PARITY, i), (P.CHU_DESC_BAD, i), (P.DSP_DISPATCHES, 0), (P.DSP_READY_MAX, 0), (P.DSP_PREEMPTS, 0), (P.CYC_EARLY_DROP, 0), (P.CYC_ADMITTED, 0), (P.CYC_LATE, 0), (P.CYC_LATE_SPILL, 0)] (d.packetIn i p) d := by
  unfold Dev.packetIn
  try simp only []
  repeat' split
  all_goals
    exact ⟨by first | (simp [itemsBut_self, -judge_rest, judge_rest', -timeState_rest, timeState_rest', -takeSeq_rest, takeSeq_rest', -hold_rest, hold_rest', -admit_rest, admit_rest', -input_rest, input_rest', -offer_rest, offer_rest', -stopNotice_rest, stopNotice_rest', -stopEvent_rest, stopEvent_rest', -giveUp_rest, giveUp_rest', -verdict_rest, verdict_rest', -engineFault_rest, engineFault_rest', -ctr_rest, ctr_rest', -beginReset_rest, beginReset_rest', -imageKeep_rest, imageKeep_rest', -imageCopy_rest, imageCopy_rest', -lastWords_rest, lastWords_rest', -placeRec_rest, placeRec_rest', -setTask_rest, setTask_rest', -setCore_rest, setCore_rest', -coreCount_rest, coreCount_rest', -dspRun_rest, dspRun_rest', -dspLeave_rest, dspLeave_rest', -dspHold_rest, dspHold_rest', -dspReady_rest, dspReady_rest', -dspWake_rest, dspWake_rest', -wakeAll_rest, wakeAll_rest']; done) | (simp [itemsBut_self, -judge_rest, judge_rest', -timeState_rest, timeState_rest', -takeSeq_rest, takeSeq_rest', -hold_rest, hold_rest', -admit_rest, admit_rest', -input_rest, input_rest', -offer_rest, offer_rest', -stopNotice_rest, stopNotice_rest', -stopEvent_rest, stopEvent_rest', -giveUp_rest, giveUp_rest', -verdict_rest, verdict_rest', -engineFault_rest, engineFault_rest', -ctr_rest, ctr_rest', -beginReset_rest, beginReset_rest', -imageKeep_rest, imageKeep_rest', -imageCopy_rest, imageCopy_rest', -lastWords_rest, lastWords_rest', -placeRec_rest, placeRec_rest', -setTask_rest, setTask_rest', -setCore_rest, setCore_rest', -coreCount_rest, coreCount_rest', -dspRun_rest, dspRun_rest', -dspLeave_rest, dspLeave_rest', -dspHold_rest, dspHold_rest', -dspReady_rest, dspReady_rest', -dspWake_rest, dspWake_rest', -wakeAll_rest, wakeAll_rest']; repeat' (first | rfl | apply And.intro)) | rfl, by simp [itemsBut_wr, itemsBut_inc, itemsBut_addW, itemsBut_maxTo, itemsBut_wrS, itemsBut_judge, itemsBut_timeState, itemsBut_takeSeq, itemsBut_countIn, itemsBut_hold, itemsBut_admit, itemsBut_input, itemsBut_offer, itemsBut_stopNotice, itemsBut_stopEvent, itemsBut_giveUp, itemsBut_verdict, itemsBut_engineFault, itemsBut_ctr, itemsBut_dspTrace, itemsBut_bypass, itemsBut_bypassHw, itemsBut_beginReset, itemsBut_mtrFlush, itemsBut_imageKeep, itemsBut_imageCopy, itemsBut_antState, itemsBut_judgeBias, itemsBut_chainState, itemsBut_showTile, itemsBut_putChan, itemsBut_freeChan, itemsBut_freeWhere, itemsBut_enableChan, itemsBut_place, itemsBut_placeAll, itemsBut_chainsEnable, itemsBut_startTracking, itemsBut_noteGain, itemsBut_stopTracking, itemsBut_snapTrigger, itemsBut_recorder, itemsBut_region, itemsBut_showRegion, itemsBut_lastWords, itemsBut_placeRec, itemsBut_flush, itemsBut_regionLost, itemsBut_setTask, itemsBut_setCore, itemsBut_coreCount, itemsBut_dspRun, itemsBut_dspLeave, itemsBut_dspHold, itemsBut_dspReady, itemsBut_dspWake, itemsBut_wakeAll, itemsBut_chuteTrace, itemsBut_chute, itemsBut_rewind, itemsBut_parityFail]⟩

theorem packetIn_rest' (d : Dev) (i : Nat) (p : Packet) : (d.packetIn i p).rest = { d.rest with chutes := (d.packetIn i p).chutes, dsp := { d.dsp with tasks := (d.packetIn i p).dsp.tasks, cores := (d.packetIn i p).dsp.cores }, tlg := { quietTlg d.tlg with ctrs := (d.packetIn i p).tlg.ctrs, stuck := (d.packetIn i p).tlg.stuck }, cyc := { quietCyc d.cyc with adm := (d.packetIn i p).cyc.adm, seqs := (d.packetIn i p).cyc.seqs, spilled := (d.packetIn i p).cyc.spilled } } := (packetIn_spec d i p).1

@[simp] theorem packetIn_fields (d : Dev) (i : Nat) (p : Packet) :
    (d.packetIn i p).now = d.now ∧ (d.packetIn i p).snap = d.snap ∧ (d.packetIn i p).committedOnce = d.committedOnce ∧
    (d.packetIn i p).staged = d.staged ∧ (d.packetIn i p).ctrls = d.ctrls ∧ (d.packetIn i p).freeIx = d.freeIx ∧ (d.packetIn i p).tim = d.tim ∧
    (d.packetIn i p).stp = d.stp ∧ (d.packetIn i p).air = d.air ∧ (d.packetIn i p).gns = d.gns ∧ (d.packetIn i p).chiselOut = d.chiselOut ∧
    (d.packetIn i p).ring = d.ring ∧ (d.packetIn i p).can = d.can ∧ (d.packetIn i p).mtr = d.mtr ∧ (d.packetIn i p).drk = d.drk ∧
    (d.packetIn i p).dsp.events = d.dsp.events ∧ (d.packetIn i p).dsp.failed = d.dsp.failed ∧ (d.packetIn i p).pwr = d.pwr ∧
    (d.packetIn i p).peer = d.peer ∧ (d.packetIn i p).com = d.com ∧ (d.packetIn i p).cyc.origin = d.cyc.origin ∧
    (d.packetIn i p).cyc.next = d.cyc.next ∧ (d.packetIn i p).cyc.floor = d.cyc.floor ∧ (d.packetIn i p).cyc.inCommit = d.cyc.inCommit ∧
    (d.packetIn i p).cyc.defer = d.cyc.defer ∧ (d.packetIn i p).cyc.journal = d.cyc.journal ∧ (d.packetIn i p).cyc.feed = d.cyc.feed ∧
    (d.packetIn i p).cyc.skipped = d.cyc.skipped ∧ (d.packetIn i p).cyc.overrun = d.cyc.overrun ∧ (d.packetIn i p).cyc.missed = d.cyc.missed ∧
    (d.packetIn i p).cyc.flagCold = d.cyc.flagCold ∧ (d.packetIn i p).cyc.flagStep = d.cyc.flagStep ∧
    (d.packetIn i p).cyc.flagTake = d.cyc.flagTake ∧ (d.packetIn i p).cyc.lastCommitAt = d.cyc.lastCommitAt ∧
    (d.packetIn i p).cyc.changedCov = d.cyc.changedCov ∧ (d.packetIn i p).cyc.covBase = d.cyc.covBase ∧ KeptHost (d.packetIn i p).host d.host ∧
    KeptRcd (d.packetIn i p).rcd d.rcd ∧ (d.packetIn i p).tlg.snaps = d.tlg.snaps := by
  have h := (packetIn_spec d i p).1
  generalize d.packetIn i p = x at h ⊢
  have f {α : Type} (g : Dev → α) : g x.rest = g ({ d.rest with chutes := (x).chutes, dsp := { d.dsp with tasks := (x).dsp.tasks, cores := (x).dsp.cores }, tlg := { quietTlg d.tlg with ctrs := (x).tlg.ctrs, stuck := (x).tlg.stuck }, cyc := { quietCyc d.cyc with adm := (x).cyc.adm, seqs := (x).cyc.seqs, spilled := (x).cyc.spilled } }) := congrArg g h
  exact ⟨f (·.now), f (·.snap), f (·.committedOnce), f (·.staged), f (·.ctrls), f (·.freeIx), f (·.tim), f (·.stp), f (·.air), f (·.gns),
    f (·.chiselOut), f (·.ring), f (·.can), f (·.mtr), f (·.drk), f (·.dsp.events), f (·.dsp.failed), f (·.pwr), f (·.peer), f (·.com),
    f (·.cyc.origin), f (·.cyc.next), f (·.cyc.floor), f (·.cyc.inCommit), f (·.cyc.defer), f (·.cyc.journal), f (·.cyc.feed),
    f (·.cyc.skipped), f (·.cyc.overrun), f (·.cyc.missed), f (·.cyc.flagCold), f (·.cyc.flagStep), f (·.cyc.flagTake), f (·.cyc.lastCommitAt),
    f (·.cyc.changedCov), f (·.cyc.covBase), KeptHost.of (f (·.host)), KeptRcd.of (f (·.rcd)), f (·.tlg.snaps)⟩

@[simp] theorem packetIn_rest (d : Dev) (i : Nat) (p : Packet) : (d.packetIn i p).rest =
    { d.rest with chutes := (d.packetIn i p).chutes, dsp := (d.packetIn i p).dsp, tlg := quietTlg (d.packetIn i p).tlg, cyc := quietCyc (d.packetIn i p).cyc } := by
  have h := (packetIn_spec d i p).1
  generalize d.packetIn i p = x at h ⊢
  have f {α : Type} (g : Dev → α) : g x.rest = g ({ d.rest with chutes := (x).chutes, dsp := { d.dsp with tasks := (x).dsp.tasks, cores := (x).dsp.cores }, tlg := { quietTlg d.tlg with ctrs := (x).tlg.ctrs, stuck := (x).tlg.stuck }, cyc := { quietCyc d.cyc with adm := (x).cyc.adm, seqs := (x).cyc.seqs, spilled := (x).cyc.spilled } }) := congrArg g h
  exact dev_ext (f (·.now)) rfl (f (·.snap)) (f (·.committedOnce)) rfl (f (·.staged)) (f (·.ctrls)) rfl (f (·.freeIx)) (f (·.tim)) rfl (f (·.host)) rfl
    (f (·.rcd)) (f (·.stp)) (f (·.air)) (f (·.gns)) (f (·.chiselOut)) (f (·.ring)) (f (·.can)) (f (·.mtr)) (f (·.drk)) rfl rfl (f (·.pwr))
    (f (·.peer)) (f (·.com))

theorem packetIn_reads (d : Dev) (i : Nat) (p : Packet) : ∀ id jq, reportItem id = false → id ≠ P.CHU_PACKETS → id ≠ P.CHU_FILL_MAX → id ≠ P.CHU_PARITY → id ≠ P.CHU_DESC_BAD → id ≠ P.DSP_DISPATCHES → id ≠ P.DSP_READY_MAX → id ≠ P.DSP_PREEMPTS → id ≠ P.CYC_EARLY_DROP → id ≠ P.CYC_ADMITTED → id ≠ P.CYC_LATE → id ≠ P.CYC_LATE_SPILL →
    (d.packetIn i p).rd id jq = d.rd id jq ∧ (d.packetIn i p).isSticky id jq = d.isSticky id jq ∧ (d.packetIn i p).cf id jq = d.cf id jq := by
  intro id jq hr h0 h1 h2 h3 h4 h5 h6 h7 h8 h9 h10
  have h := (packetIn_spec d i p).2 id jq hr (by simp) (by simp [regKey_ne, h0, Ne.symm h0, h1, Ne.symm h1, h2, Ne.symm h2, h3, Ne.symm h3, h4, Ne.symm h4, h5, Ne.symm h5, h6, Ne.symm h6, h7, Ne.symm h7, h8, Ne.symm h8, h9, Ne.symm h9, h10, Ne.symm h10])
  have e : (d.packetIn i p).staged = d.staged := by simp
  refine ⟨h.1, h.2, ?_⟩
  simp only [Dev.cf, e, h.1]

theorem packetIn_at (d : Dev) (i : Nat) (p : Packet) : ∀ id jq, reportItem id = false  → regKey P.CHU_PACKETS i ≠ regKey id jq → regKey P.CHU_FILL_MAX i ≠ regKey id jq → regKey P.CHU_PARITY i ≠ regKey id jq → regKey P.CHU_DESC_BAD i ≠ regKey id jq → regKey P.DSP_DISPATCHES 0 ≠ regKey id jq → regKey P.DSP_READY_MAX 0 ≠ regKey id jq → regKey P.DSP_PREEMPTS 0 ≠ regKey id jq → regKey P.CYC_EARLY_DROP 0 ≠ regKey id jq → regKey P.CYC_ADMITTED 0 ≠ regKey id jq → regKey P.CYC_LATE 0 ≠ regKey id jq → regKey P.CYC_LATE_SPILL 0 ≠ regKey id jq →
    (d.packetIn i p).rd id jq = d.rd id jq ∧ (d.packetIn i p).isSticky id jq = d.isSticky id jq ∧ (d.packetIn i p).cf id jq = d.cf id jq := by
  intro id jq hr h0 h1 h2 h3 h4 h5 h6 h7 h8 h9 h10
  have h := (packetIn_spec d i p).2 id jq hr (by simp) (by simp [h0, h1, h2, h3, h4, h5, h6, h7, h8, h9, h10])
  have e : (d.packetIn i p).staged = d.staged := by simp
  refine ⟨h.1, h.2, ?_⟩
  simp only [Dev.cf, e, h.1]

theorem itemsBut_packetIn {ids : List Nat} {ks : List (Nat × Nat)} (d e : Dev) (i : Nat) (p : Packet) (m0 : P.CHU_PACKETS ∈ ids ∨ (P.CHU_PACKETS, i) ∈ ks) (m1 : P.CHU_FILL_MAX ∈ ids ∨ (P.CHU_FILL_MAX, i) ∈ ks) (m2 : P.CHU_PARITY ∈ ids ∨ (P.CHU_PARITY, i) ∈ ks) (m3 : P.CHU_DESC_BAD ∈ ids ∨ (P.CHU_DESC_BAD, i) ∈ ks) (m4 : P.DSP_DISPATCHES ∈ ids ∨ (P.DSP_DISPATCHES, 0) ∈ ks) (m5 : P.DSP_READY_MAX ∈ ids ∨ (P.DSP_READY_MAX, 0) ∈ ks) (m6 : P.DSP_PREEMPTS ∈ ids ∨ (P.DSP_PREEMPTS, 0) ∈ ks) (m7 : P.CYC_EARLY_DROP ∈ ids ∨ (P.CYC_EARLY_DROP, 0) ∈ ks) (m8 : P.CYC_ADMITTED ∈ ids ∨ (P.CYC_ADMITTED, 0) ∈ ks) (m9 : P.CYC_LATE ∈ ids ∨ (P.CYC_LATE, 0) ∈ ks) (m10 : P.CYC_LATE_SPILL ∈ ids ∨ (P.CYC_LATE_SPILL, 0) ∈ ks) :
    ItemsBut ids ks (d.packetIn i p) e ↔ ItemsBut ids ks d e :=
  itemsBut_congr ((packetIn_spec d i p).2.mono (by simp) (by simp [m0, m1, m2, m3, m4, m5, m6, m7, m8, m9, m10])) e

/-- The Recorder's power failure note is gone. -/
@[simp] theorem imageKeep_pfail (d : Dev) : d.imageKeep.rcd.pfail = false := rfl

@[simp] theorem imageCopy_pfail (d : Dev) : d.imageCopy.rcd.pfail = true ∧ d.imageCopy.rcd.imageTail = 0 ∧ d.imageCopy.rcd.image = some d.imageCopy.rcd.buf :=
  ⟨rfl, rfl, rfl⟩

/-! ### Replies -/

/-- A stored reply. -/
theorem noteReply_spec (d : Dev) (q : Queued) (r : Reply) : (d.noteReply q r).rest = { d.rest with host := quietHost (d.noteReply q r).host } ∧
    ItemsBut [] [] (d.noteReply q r) d := by
  exact ⟨rfl, fun _ _ _ _ _ => ⟨rfl, rfl⟩⟩

@[simp] theorem noteReply_fields (d : Dev) (q : Queued) (r : Reply) :
    (d.noteReply q r).now = d.now ∧ (d.noteReply q r).snap = d.snap ∧ (d.noteReply q r).committedOnce = d.committedOnce ∧
    (d.noteReply q r).staged = d.staged ∧ (d.noteReply q r).ctrls = d.ctrls ∧ (d.noteReply q r).freeIx = d.freeIx ∧
    (d.noteReply q r).tim = d.tim ∧ (d.noteReply q r).chutes = d.chutes ∧ (d.noteReply q r).stp = d.stp ∧ (d.noteReply q r).air = d.air ∧
    (d.noteReply q r).gns = d.gns ∧ (d.noteReply q r).chiselOut = d.chiselOut ∧ (d.noteReply q r).ring = d.ring ∧
    (d.noteReply q r).can = d.can ∧ (d.noteReply q r).mtr = d.mtr ∧ (d.noteReply q r).drk = d.drk ∧ (d.noteReply q r).dsp = d.dsp ∧
    (d.noteReply q r).pwr = d.pwr ∧ (d.noteReply q r).peer = d.peer ∧ (d.noteReply q r).com = d.com ∧ KeptCyc (d.noteReply q r).cyc d.cyc ∧
    KeptRcd (d.noteReply q r).rcd d.rcd ∧ KeptTlg (d.noteReply q r).tlg d.tlg := by
  have h := (noteReply_spec d q r).1
  generalize d.noteReply q r = x at h ⊢
  have f {α : Type} (g : Dev → α) : g x.rest = g ({ d.rest with host := quietHost (x).host }) := congrArg g h
  exact ⟨f (·.now), f (·.snap), f (·.committedOnce), f (·.staged), f (·.ctrls), f (·.freeIx), f (·.tim), f (·.chutes), f (·.stp), f (·.air),
    f (·.gns), f (·.chiselOut), f (·.ring), f (·.can), f (·.mtr), f (·.drk), f (·.dsp), f (·.pwr), f (·.peer), f (·.com),
    KeptCyc.of (f (·.cyc)), KeptRcd.of (f (·.rcd)), KeptTlg.of (f (·.tlg))⟩

@[simp] theorem noteReply_rest (d : Dev) (q : Queued) (r : Reply) : (d.noteReply q r).rest =
    { d.rest with host := quietHost (d.noteReply q r).host } := by
  have h := (noteReply_spec d q r).1
  generalize d.noteReply q r = x at h ⊢
  have f {α : Type} (g : Dev → α) : g x.rest = g ({ d.rest with host := quietHost (x).host }) := congrArg g h
  exact dev_ext (f (·.now)) rfl (f (·.snap)) (f (·.committedOnce)) rfl (f (·.staged)) (f (·.ctrls)) rfl (f (·.freeIx)) (f (·.tim)) (f (·.cyc)) rfl
    (f (·.chutes)) (f (·.rcd)) (f (·.stp)) (f (·.air)) (f (·.gns)) (f (·.chiselOut)) (f (·.ring)) (f (·.can)) (f (·.mtr)) (f (·.drk))
    (f (·.dsp)) (f (·.tlg)) (f (·.pwr)) (f (·.peer)) (f (·.com))

theorem noteReply_reads (d : Dev) (q : Queued) (r : Reply) : ∀ id jq, reportItem id = false  →
    (d.noteReply q r).rd id jq = d.rd id jq ∧ (d.noteReply q r).isSticky id jq = d.isSticky id jq ∧ (d.noteReply q r).cf id jq = d.cf id jq := by
  intro id jq hr 
  have h := (noteReply_spec d q r).2 id jq hr (by simp) (by simp)
  have e : (d.noteReply q r).staged = d.staged := by simp
  refine ⟨h.1, h.2, ?_⟩
  simp only [Dev.cf, e, h.1]

theorem itemsBut_noteReply {ids : List Nat} {ks : List (Nat × Nat)} (d e : Dev) (q : Queued) (r : Reply)  :
    ItemsBut ids ks (d.noteReply q r) e ↔ ItemsBut ids ks d e :=
  itemsBut_congr ((noteReply_spec d q r).2.mono (by simp) (by simp)) e

/-- A command answered after which nothing follows touches the Host Port alone. -/
theorem answer_spec (d : Dev) (q : Queued) (r : Reply) (h : q.after = 0) : (d.answer q r).rest = { d.rest with host := quietHost (d.answer q r).host } ∧
    ItemsBut [] [] (d.answer q r) d := by
  unfold Dev.answer Dev.afterReply
  simp only [h]
  exact ⟨by simp, by simp [itemsBut_noteReply]⟩

/-- Commands after which nothing follows, none of which reads, are served by the Host Port alone. -/
theorem serve_quiet (d : Dev) (upto : Option Nat) (h : ∀ q ∈ d.host.queue, q.after = 0 ∧ ∀ p, q.decided ≠ .read p) :
    (d.serveQueue upto).rest = { d.rest with host := quietHost (d.serveQueue upto).host } ∧ ItemsBut [] [] (d.serveQueue upto) d := by
  have step (a : Dev × List Queued × List Nat) (q : Queued) (hq : q.after = 0 ∧ ∀ p, q.decided ≠ .read p) :
      ({ (Dev.serveOne upto a q).1.rest with host := default } : Dev) = { a.1.rest with host := default } ∧ ItemsBut [] [] (Dev.serveOne upto a q).1 a.1 := by
    unfold Dev.serveOne
    simp only []
    split
    · exact ⟨rfl, itemsBut_self _ _ _⟩
    · split
      · rename_i r _
        have k := answer_spec a.1 q r hq.1
        have k1 : ({ (a.1.answer q r).rest with host := default } : Dev) = { a.1.rest with host := default } := by simp only [k.1]
        cases upto with
        | none => exact ⟨k1, k.2⟩
        | some n =>
          by_cases hc : q.cycle ≤ n
          · simp only [hc, decide_true, if_true]
            exact ⟨k1, k.2⟩
          · simp only [hc, decide_false]
            exact ⟨rfl, itemsBut_self _ _ _⟩
      · rename_i p hp
        exact absurd hp (hq.2 p)
      · exact ⟨rfl, itemsBut_self _ _ _⟩
  have walk (l : List Queued) : (∀ q ∈ l, q.after = 0 ∧ ∀ p, q.decided ≠ .read p) → ∀ a : Dev × List Queued × List Nat,
      ({ (l.foldl (Dev.serveOne upto) a).1.rest with host := default } : Dev) = { a.1.rest with host := default } ∧
        ItemsBut [] [] (l.foldl (Dev.serveOne upto) a).1 a.1 := by
    induction l with
    | nil => intro _ a; exact ⟨rfl, itemsBut_self _ _ _⟩
    | cons q l ih =>
      intro hl a
      have h1 := step a q (hl q (by simp))
      have h2 := ih (fun x hx => hl x (by simp [hx])) (Dev.serveOne upto a q)
      exact ⟨h2.1.trans h1.1, h2.2.trans h1.2⟩
  have w := walk d.host.queue h ({ d with host := { d.host with queue := [] } }, [], [])
  unfold Dev.serveQueue
  generalize d.host.queue.foldl (Dev.serveOne upto) ({ d with host := { d.host with queue := [] } }, [], []) = r at w ⊢
  obtain ⟨d1, keep, b⟩ := r
  exact ⟨congrArg (fun x : Dev => ({ x with host := quietHost { d1.host with queue := keep } } : Dev)) w.1, w.2⟩

/-! ### Sessions -/

/-- A session event. -/
theorem sessionNote_spec (d : Dev) (sid tr level event : Nat) : (d.sessionNote sid tr level event).rest = d.rest ∧
    ItemsBut [] [] (d.sessionNote sid tr level event) d := by
  unfold Dev.sessionNote
  repeat' split
  all_goals
    exact ⟨by first | (simp [itemsBut_self, -judge_rest, judge_rest', -timeState_rest, timeState_rest', -takeSeq_rest, takeSeq_rest', -hold_rest, hold_rest', -admit_rest, admit_rest', -input_rest, input_rest', -offer_rest, offer_rest', -stopNotice_rest, stopNotice_rest', -stopEvent_rest, stopEvent_rest', -giveUp_rest, giveUp_rest', -verdict_rest, verdict_rest', -engineFault_rest, engineFault_rest', -ctr_rest, ctr_rest', -beginReset_rest, beginReset_rest', -imageKeep_rest, imageKeep_rest', -imageCopy_rest, imageCopy_rest', -lastWords_rest, lastWords_rest', -placeRec_rest, placeRec_rest', -setTask_rest, setTask_rest', -setCore_rest, setCore_rest', -coreCount_rest, coreCount_rest', -dspRun_rest, dspRun_rest', -dspLeave_rest, dspLeave_rest', -dspHold_rest, dspHold_rest', -dspReady_rest, dspReady_rest', -dspWake_rest, dspWake_rest', -wakeAll_rest, wakeAll_rest', -packetIn_rest, packetIn_rest']; done) | (simp [itemsBut_self, -judge_rest, judge_rest', -timeState_rest, timeState_rest', -takeSeq_rest, takeSeq_rest', -hold_rest, hold_rest', -admit_rest, admit_rest', -input_rest, input_rest', -offer_rest, offer_rest', -stopNotice_rest, stopNotice_rest', -stopEvent_rest, stopEvent_rest', -giveUp_rest, giveUp_rest', -verdict_rest, verdict_rest', -engineFault_rest, engineFault_rest', -ctr_rest, ctr_rest', -beginReset_rest, beginReset_rest', -imageKeep_rest, imageKeep_rest', -imageCopy_rest, imageCopy_rest', -lastWords_rest, lastWords_rest', -placeRec_rest, placeRec_rest', -setTask_rest, setTask_rest', -setCore_rest, setCore_rest', -coreCount_rest, coreCount_rest', -dspRun_rest, dspRun_rest', -dspLeave_rest, dspLeave_rest', -dspHold_rest, dspHold_rest', -dspReady_rest, dspReady_rest', -dspWake_rest, dspWake_rest', -wakeAll_rest, wakeAll_rest', -packetIn_rest, packetIn_rest']; repeat' (first | rfl | apply And.intro)) | rfl, by simp [itemsBut_wr, itemsBut_inc, itemsBut_addW, itemsBut_maxTo, itemsBut_wrS, itemsBut_judge, itemsBut_timeState, itemsBut_takeSeq, itemsBut_countIn, itemsBut_hold, itemsBut_admit, itemsBut_input, itemsBut_offer, itemsBut_stopNotice, itemsBut_stopEvent, itemsBut_giveUp, itemsBut_verdict, itemsBut_engineFault, itemsBut_ctr, itemsBut_dspTrace, itemsBut_bypass, itemsBut_bypassHw, itemsBut_beginReset, itemsBut_mtrFlush, itemsBut_imageKeep, itemsBut_imageCopy, itemsBut_antState, itemsBut_judgeBias, itemsBut_chainState, itemsBut_showTile, itemsBut_putChan, itemsBut_freeChan, itemsBut_freeWhere, itemsBut_enableChan, itemsBut_place, itemsBut_placeAll, itemsBut_chainsEnable, itemsBut_startTracking, itemsBut_noteGain, itemsBut_stopTracking, itemsBut_snapTrigger, itemsBut_recorder, itemsBut_region, itemsBut_showRegion, itemsBut_lastWords, itemsBut_placeRec, itemsBut_flush, itemsBut_regionLost, itemsBut_setTask, itemsBut_setCore, itemsBut_coreCount, itemsBut_dspRun, itemsBut_dspLeave, itemsBut_dspHold, itemsBut_dspReady, itemsBut_dspWake, itemsBut_wakeAll, itemsBut_chuteTrace, itemsBut_chute, itemsBut_rewind, itemsBut_parityFail, itemsBut_packetIn, itemsBut_noteReply]⟩

@[simp] theorem sessionNote_fields (d : Dev) (sid tr level event : Nat) :
    (d.sessionNote sid tr level event).now = d.now ∧ (d.sessionNote sid tr level event).snap = d.snap ∧
    (d.sessionNote sid tr level event).committedOnce = d.committedOnce ∧ (d.sessionNote sid tr level event).staged = d.staged ∧
    (d.sessionNote sid tr level event).ctrls = d.ctrls ∧ (d.sessionNote sid tr level event).freeIx = d.freeIx ∧
    (d.sessionNote sid tr level event).tim = d.tim ∧ (d.sessionNote sid tr level event).chutes = d.chutes ∧
    (d.sessionNote sid tr level event).stp = d.stp ∧ (d.sessionNote sid tr level event).air = d.air ∧
    (d.sessionNote sid tr level event).gns = d.gns ∧ (d.sessionNote sid tr level event).chiselOut = d.chiselOut ∧
    (d.sessionNote sid tr level event).ring = d.ring ∧ (d.sessionNote sid tr level event).can = d.can ∧
    (d.sessionNote sid tr level event).mtr = d.mtr ∧ (d.sessionNote sid tr level event).drk = d.drk ∧
    (d.sessionNote sid tr level event).dsp = d.dsp ∧ (d.sessionNote sid tr level event).pwr = d.pwr ∧
    (d.sessionNote sid tr level event).peer = d.peer ∧ (d.sessionNote sid tr level event).com = d.com ∧
    KeptCyc (d.sessionNote sid tr level event).cyc d.cyc ∧ KeptHost (d.sessionNote sid tr level event).host d.host ∧
    KeptRcd (d.sessionNote sid tr level event).rcd d.rcd ∧ KeptTlg (d.sessionNote sid tr level event).tlg d.tlg := by
  have h := (sessionNote_spec d sid tr level event).1
  generalize d.sessionNote sid tr level event = x at h ⊢
  have f {α : Type} (g : Dev → α) : g x.rest = g (d.rest) := congrArg g h
  exact ⟨f (·.now), f (·.snap), f (·.committedOnce), f (·.staged), f (·.ctrls), f (·.freeIx), f (·.tim), f (·.chutes), f (·.stp), f (·.air),
    f (·.gns), f (·.chiselOut), f (·.ring), f (·.can), f (·.mtr), f (·.drk), f (·.dsp), f (·.pwr), f (·.peer), f (·.com),
    KeptCyc.of (f (·.cyc)), KeptHost.of (f (·.host)), KeptRcd.of (f (·.rcd)), KeptTlg.of (f (·.tlg))⟩

@[simp] theorem sessionNote_rest (d : Dev) (sid tr level event : Nat) : (d.sessionNote sid tr level event).rest =
    d.rest := by
  have h := (sessionNote_spec d sid tr level event).1
  generalize d.sessionNote sid tr level event = x at h ⊢
  have f {α : Type} (g : Dev → α) : g x.rest = g (d.rest) := congrArg g h
  exact dev_ext (f (·.now)) rfl (f (·.snap)) (f (·.committedOnce)) rfl (f (·.staged)) (f (·.ctrls)) rfl (f (·.freeIx)) (f (·.tim)) (f (·.cyc)) (f (·.host))
    (f (·.chutes)) (f (·.rcd)) (f (·.stp)) (f (·.air)) (f (·.gns)) (f (·.chiselOut)) (f (·.ring)) (f (·.can)) (f (·.mtr)) (f (·.drk))
    (f (·.dsp)) (f (·.tlg)) (f (·.pwr)) (f (·.peer)) (f (·.com))

theorem sessionNote_reads (d : Dev) (sid tr level event : Nat) : ∀ id jq, reportItem id = false  →
    (d.sessionNote sid tr level event).rd id jq = d.rd id jq ∧ (d.sessionNote sid tr level event).isSticky id jq = d.isSticky id jq ∧ (d.sessionNote sid tr level event).cf id jq = d.cf id jq := by
  intro id jq hr 
  have h := (sessionNote_spec d sid tr level event).2 id jq hr (by simp) (by simp)
  have e : (d.sessionNote sid tr level event).staged = d.staged := by simp
  refine ⟨h.1, h.2, ?_⟩
  simp only [Dev.cf, e, h.1]

theorem itemsBut_sessionNote {ids : List Nat} {ks : List (Nat × Nat)} (d e : Dev) (sid tr level event : Nat)  :
    ItemsBut ids ks (d.sessionNote sid tr level event) e ↔ ItemsBut ids ks d e :=
  itemsBut_congr ((sessionNote_spec d sid tr level event).2.mono (by simp) (by simp)) e

/-- A session ends. -/
theorem endSession_spec (d : Dev) (i event : Nat) : (d.endSession i event).rest = { d.rest with host := quietHost (d.endSession i event).host, rcd := { quietRcd d.rcd with clears := (d.endSession i event).rcd.clears } } ∧
    ItemsBut [] [] (d.endSession i event) d := by
  unfold Dev.endSession Dev.setSlot
  try simp only []
  repeat' split
  all_goals
    exact ⟨by first | (simp [itemsBut_self, -judge_rest, judge_rest', -timeState_rest, timeState_rest', -takeSeq_rest, takeSeq_rest', -hold_rest, hold_rest', -admit_rest, admit_rest', -input_rest, input_rest', -offer_rest, offer_rest', -stopNotice_rest, stopNotice_rest', -stopEvent_rest, stopEvent_rest', -giveUp_rest, giveUp_rest', -verdict_rest, verdict_rest', -engineFault_rest, engineFault_rest', -ctr_rest, ctr_rest', -beginReset_rest, beginReset_rest', -imageKeep_rest, imageKeep_rest', -imageCopy_rest, imageCopy_rest', -lastWords_rest, lastWords_rest', -placeRec_rest, placeRec_rest', -setTask_rest, setTask_rest', -setCore_rest, setCore_rest', -coreCount_rest, coreCount_rest', -dspRun_rest, dspRun_rest', -dspLeave_rest, dspLeave_rest', -dspHold_rest, dspHold_rest', -dspReady_rest, dspReady_rest', -dspWake_rest, dspWake_rest', -wakeAll_rest, wakeAll_rest', -packetIn_rest, packetIn_rest']; done) | (simp [itemsBut_self, -judge_rest, judge_rest', -timeState_rest, timeState_rest', -takeSeq_rest, takeSeq_rest', -hold_rest, hold_rest', -admit_rest, admit_rest', -input_rest, input_rest', -offer_rest, offer_rest', -stopNotice_rest, stopNotice_rest', -stopEvent_rest, stopEvent_rest', -giveUp_rest, giveUp_rest', -verdict_rest, verdict_rest', -engineFault_rest, engineFault_rest', -ctr_rest, ctr_rest', -beginReset_rest, beginReset_rest', -imageKeep_rest, imageKeep_rest', -imageCopy_rest, imageCopy_rest', -lastWords_rest, lastWords_rest', -placeRec_rest, placeRec_rest', -setTask_rest, setTask_rest', -setCore_rest, setCore_rest', -coreCount_rest, coreCount_rest', -dspRun_rest, dspRun_rest', -dspLeave_rest, dspLeave_rest', -dspHold_rest, dspHold_rest', -dspReady_rest, dspReady_rest', -dspWake_rest, dspWake_rest', -wakeAll_rest, wakeAll_rest', -packetIn_rest, packetIn_rest']; repeat' (first | rfl | apply And.intro)) | rfl, by simp [itemsBut_wr, itemsBut_inc, itemsBut_addW, itemsBut_maxTo, itemsBut_wrS, itemsBut_judge, itemsBut_timeState, itemsBut_takeSeq, itemsBut_countIn, itemsBut_hold, itemsBut_admit, itemsBut_input, itemsBut_offer, itemsBut_stopNotice, itemsBut_stopEvent, itemsBut_giveUp, itemsBut_verdict, itemsBut_engineFault, itemsBut_ctr, itemsBut_dspTrace, itemsBut_bypass, itemsBut_bypassHw, itemsBut_beginReset, itemsBut_mtrFlush, itemsBut_imageKeep, itemsBut_imageCopy, itemsBut_antState, itemsBut_judgeBias, itemsBut_chainState, itemsBut_showTile, itemsBut_putChan, itemsBut_freeChan, itemsBut_freeWhere, itemsBut_enableChan, itemsBut_place, itemsBut_placeAll, itemsBut_chainsEnable, itemsBut_startTracking, itemsBut_noteGain, itemsBut_stopTracking, itemsBut_snapTrigger, itemsBut_recorder, itemsBut_region, itemsBut_showRegion, itemsBut_lastWords, itemsBut_placeRec, itemsBut_flush, itemsBut_regionLost, itemsBut_setTask, itemsBut_setCore, itemsBut_coreCount, itemsBut_dspRun, itemsBut_dspLeave, itemsBut_dspHold, itemsBut_dspReady, itemsBut_dspWake, itemsBut_wakeAll, itemsBut_chuteTrace, itemsBut_chute, itemsBut_rewind, itemsBut_parityFail, itemsBut_packetIn, itemsBut_noteReply, itemsBut_sessionNote]⟩

theorem endSession_rest' (d : Dev) (i event : Nat) : (d.endSession i event).rest = { d.rest with host := quietHost (d.endSession i event).host, rcd := { quietRcd d.rcd with clears := (d.endSession i event).rcd.clears } } := (endSession_spec d i event).1

@[simp] theorem endSession_fields (d : Dev) (i event : Nat) :
    (d.endSession i event).now = d.now ∧ (d.endSession i event).snap = d.snap ∧ (d.endSession i event).committedOnce = d.committedOnce ∧
    (d.endSession i event).staged = d.staged ∧ (d.endSession i event).ctrls = d.ctrls ∧ (d.endSession i event).freeIx = d.freeIx ∧
    (d.endSession i event).tim = d.tim ∧ (d.endSession i event).chutes = d.chutes ∧ (d.endSession i event).stp = d.stp ∧
    (d.endSession i event).air = d.air ∧ (d.endSession i event).gns = d.gns ∧ (d.endSession i event).chiselOut = d.chiselOut ∧
    (d.endSession i event).ring = d.ring ∧ (d.endSession i event).can = d.can ∧ (d.endSession i event).mtr = d.mtr ∧
    (d.endSession i event).drk = d.drk ∧ (d.endSession i event).dsp = d.dsp ∧ (d.endSession i event).pwr = d.pwr ∧
    (d.endSession i event).peer = d.peer ∧ (d.endSession i event).com = d.com ∧ KeptCyc (d.endSession i event).cyc d.cyc ∧
    (d.endSession i event).rcd.nvNext = d.rcd.nvNext ∧ (d.endSession i event).rcd.fullMark = d.rcd.fullMark ∧
    (d.endSession i event).rcd.pfail = d.rcd.pfail ∧ (d.endSession i event).rcd.lwWrote = d.rcd.lwWrote ∧
    KeptTlg (d.endSession i event).tlg d.tlg := by
  have h := (endSession_spec d i event).1
  generalize d.endSession i event = x at h ⊢
  have f {α : Type} (g : Dev → α) : g x.rest = g ({ d.rest with host := quietHost (x).host, rcd := { quietRcd d.rcd with clears := (x).rcd.clears } }) := congrArg g h
  exact ⟨f (·.now), f (·.snap), f (·.committedOnce), f (·.staged), f (·.ctrls), f (·.freeIx), f (·.tim), f (·.chutes), f (·.stp), f (·.air),
    f (·.gns), f (·.chiselOut), f (·.ring), f (·.can), f (·.mtr), f (·.drk), f (·.dsp), f (·.pwr), f (·.peer), f (·.com),
    KeptCyc.of (f (·.cyc)), f (·.rcd.nvNext), f (·.rcd.fullMark), f (·.rcd.pfail), f (·.rcd.lwWrote), KeptTlg.of (f (·.tlg))⟩

@[simp] theorem endSession_rest (d : Dev) (i event : Nat) : (d.endSession i event).rest =
    { d.rest with host := quietHost (d.endSession i event).host, rcd := quietRcd (d.endSession i event).rcd } := by
  have h := (endSession_spec d i event).1
  generalize d.endSession i event = x at h ⊢
  have f {α : Type} (g : Dev → α) : g x.rest = g ({ d.rest with host := quietHost (x).host, rcd := { quietRcd d.rcd with clears := (x).rcd.clears } }) := congrArg g h
  exact dev_ext (f (·.now)) rfl (f (·.snap)) (f (·.committedOnce)) rfl (f (·.staged)) (f (·.ctrls)) rfl (f (·.freeIx)) (f (·.tim)) (f (·.cyc)) rfl
    (f (·.chutes)) rfl (f (·.stp)) (f (·.air)) (f (·.gns)) (f (·.chiselOut)) (f (·.ring)) (f (·.can)) (f (·.mtr)) (f (·.drk)) (f (·.dsp))
    (f (·.tlg)) (f (·.pwr)) (f (·.peer)) (f (·.com))

theorem endSession_reads (d : Dev) (i event : Nat) : ∀ id jq, reportItem id = false  →
    (d.endSession i event).rd id jq = d.rd id jq ∧ (d.endSession i event).isSticky id jq = d.isSticky id jq ∧ (d.endSession i event).cf id jq = d.cf id jq := by
  intro id jq hr 
  have h := (endSession_spec d i event).2 id jq hr (by simp) (by simp)
  have e : (d.endSession i event).staged = d.staged := by simp
  refine ⟨h.1, h.2, ?_⟩
  simp only [Dev.cf, e, h.1]

theorem itemsBut_endSession {ids : List Nat} {ks : List (Nat × Nat)} (d e : Dev) (i event : Nat)  :
    ItemsBut ids ks (d.endSession i event) e ↔ ItemsBut ids ks d e :=
  itemsBut_congr ((endSession_spec d i event).2.mono (by simp) (by simp)) e

/-- A slot whose session ends is empty; the others keep theirs. -/
theorem endSession_slots (d : Dev) (i event : Nat) (x : Session) (h : d.slotAt i = some x) :
    (d.endSession i event).host.slots.map quietSlot = (d.host.slots.set i none).map quietSlot := by
  unfold Dev.endSession Dev.setSlot
  simp only [h]
  split
  · rfl
  · have e : ∀ y : Dev, (y.sessionNote i x.ep.tr x.level event).host.slots.map quietSlot = y.host.slots.map quietSlot := fun y =>
      congrArg (·.host.slots) ((sessionNote_spec y i x.ep.tr x.level event).1)
    exact (e _).trans rfl

/-- A context stored is the one found. -/
@[simp] theorem task_setTask (d : Dev) (x : DTask) : (d.setTask x).task x.n = some x := by
  unfold Dev.setTask Dev.task
  simp only []
  have h : ∀ l : List DTask, (∀ y ∈ l, (y.n == x.n) = false) → (insertBy (fun (a b : DTask) => a.n < b.n) x l).find? (·.n == x.n) = some x := by
    intro l
    induction l with
    | nil => intro _; simp [insertBy]
    | cons y l ih =>
      intro hl
      have hy := hl y (by simp)
      unfold insertBy
      split
      · simp
      · simp only [List.find?, hy]
        exact ih (fun z hz => hl z (by simp [hz]))
  exact h _ (by intro y hy; simpa using (List.mem_filter.mp hy).2)

/-- What a dispatch leaves: the task RUNNING at its base level on the core (R401, R403). -/
theorem dspRun_runs (d : Dev) (c : Nat) (x : DTask) (hc : c < d.dsp.cores.length) :
    (∃ m, (d.dspRun c x).task x.n = some { x with state := 2, level := x.base, core := some c, held := false, ran := d.now, maxReady := m }) ∧
    (nth (d.dspRun c x).dsp.cores c).state = 1 ∧ (nth (d.dspRun c x).dsp.cores c).task = x.n := by
  have e : ∃ y : DTask, y = { x with state := 2, level := x.base, core := some c, held := false, ran := d.now, maxReady := y.maxReady } ∧
      (d.dspRun c x).dsp = ((d.setTask y).setCore c { nth d.dsp.cores c with state := 1, task := x.n, since := d.now }).dsp := by
    unfold Dev.dspRun Dev.when
    simp only []
    refine ⟨{ x with state := 2, level := x.base, core := some c, held := false, ran := d.now, maxReady := max x.maxReady (sat32 ((d.now - x.ready) / us)) }, rfl, ?_⟩
    split <;> simp
  obtain ⟨y, hy, e⟩ := e
  have t : (d.dspRun c x).task x.n = ((d.setTask y).setCore c { nth d.dsp.cores c with state := 1, task := x.n, since := d.now }).task x.n := by
    simp only [Dev.task, e]
  have n : x.n = y.n := by rw [hy]
  refine ⟨⟨y.maxReady, ?_⟩, ?_, ?_⟩
  · rw [t, ← hy, n]
    exact task_setTask d y
  · rw [e]
    simp [Dev.setCore, Dev.setTask, nth, hc]
  · rw [e]
    simp [Dev.setCore, Dev.setTask, nth, hc]

/-! ### Lanes and circuits -/

/--  -/
theorem laneInputOne_spec (d : Dev) (src action : Nat) (s : Scope) (loc i : Nat) : ((if d.laneVotes i then d.input d.now 9 i (verdictBody src action s loc) else d)).rest = { d.rest with cyc := { quietCyc d.cyc with adm := ((if d.laneVotes i then d.input d.now 9 i (verdictBody src action s loc) else d)).cyc.adm, seqs := ((if d.laneVotes i then d.input d.now 9 i (verdictBody src action s loc) else d)).cyc.seqs, spilled := ((if d.laneVotes i then d.input d.now 9 i (verdictBody src action s loc) else d)).cyc.spilled } } ∧
    ItemsBut [] [(P.CYC_EARLY_DROP, 0), (P.CYC_ADMITTED, 0), (P.CYC_LATE, 0), (P.CYC_LATE_SPILL, 0)] ((if d.laneVotes i then d.input d.now 9 i (verdictBody src action s loc) else d)) d := by
  repeat' split
  all_goals
    exact ⟨by first | (simp [itemsBut_self, -judge_rest, judge_rest', -timeState_rest, timeState_rest', -takeSeq_rest, takeSeq_rest', -hold_rest, hold_rest', -admit_rest, admit_rest', -input_rest, input_rest', -offer_rest, offer_rest', -stopNotice_rest, stopNotice_rest', -stopEvent_rest, stopEvent_rest', -giveUp_rest, giveUp_rest', -verdict_rest, verdict_rest', -engineFault_rest, engineFault_rest', -ctr_rest, ctr_rest', -beginReset_rest, beginReset_rest', -imageKeep_rest, imageKeep_rest', -imageCopy_rest, imageCopy_rest', -lastWords_rest, lastWords_rest', -placeRec_rest, placeRec_rest', -setTask_rest, setTask_rest', -setCore_rest, setCore_rest', -coreCount_rest, coreCount_rest', -dspRun_rest, dspRun_rest', -dspLeave_rest, dspLeave_rest', -dspHold_rest, dspHold_rest', -dspReady_rest, dspReady_rest', -dspWake_rest, dspWake_rest', -wakeAll_rest, wakeAll_rest', -packetIn_rest, packetIn_rest', -endSession_rest, endSession_rest']; done) | (simp [itemsBut_self, -judge_rest, judge_rest', -timeState_rest, timeState_rest', -takeSeq_rest, takeSeq_rest', -hold_rest, hold_rest', -admit_rest, admit_rest', -input_rest, input_rest', -offer_rest, offer_rest', -stopNotice_rest, stopNotice_rest', -stopEvent_rest, stopEvent_rest', -giveUp_rest, giveUp_rest', -verdict_rest, verdict_rest', -engineFault_rest, engineFault_rest', -ctr_rest, ctr_rest', -beginReset_rest, beginReset_rest', -imageKeep_rest, imageKeep_rest', -imageCopy_rest, imageCopy_rest', -lastWords_rest, lastWords_rest', -placeRec_rest, placeRec_rest', -setTask_rest, setTask_rest', -setCore_rest, setCore_rest', -coreCount_rest, coreCount_rest', -dspRun_rest, dspRun_rest', -dspLeave_rest, dspLeave_rest', -dspHold_rest, dspHold_rest', -dspReady_rest, dspReady_rest', -dspWake_rest, dspWake_rest', -wakeAll_rest, wakeAll_rest', -packetIn_rest, packetIn_rest', -endSession_rest, endSession_rest']; repeat' (first | rfl | apply And.intro)) | rfl, by simp [itemsBut_wr, itemsBut_inc, itemsBut_addW, itemsBut_maxTo, itemsBut_wrS, itemsBut_judge, itemsBut_timeState, itemsBut_takeSeq, itemsBut_countIn, itemsBut_hold, itemsBut_admit, itemsBut_input, itemsBut_offer, itemsBut_stopNotice, itemsBut_stopEvent, itemsBut_giveUp, itemsBut_verdict, itemsBut_engineFault, itemsBut_ctr, itemsBut_dspTrace, itemsBut_bypass, itemsBut_bypassHw, itemsBut_beginReset, itemsBut_mtrFlush, itemsBut_imageKeep, itemsBut_imageCopy, itemsBut_antState, itemsBut_judgeBias, itemsBut_chainState, itemsBut_showTile, itemsBut_putChan, itemsBut_freeChan, itemsBut_freeWhere, itemsBut_enableChan, itemsBut_place, itemsBut_placeAll, itemsBut_chainsEnable, itemsBut_startTracking, itemsBut_noteGain, itemsBut_stopTracking, itemsBut_snapTrigger, itemsBut_recorder, itemsBut_region, itemsBut_showRegion, itemsBut_lastWords, itemsBut_placeRec, itemsBut_flush, itemsBut_regionLost, itemsBut_setTask, itemsBut_setCore, itemsBut_coreCount, itemsBut_dspRun, itemsBut_dspLeave, itemsBut_dspHold, itemsBut_dspReady, itemsBut_dspWake, itemsBut_wakeAll, itemsBut_chuteTrace, itemsBut_chute, itemsBut_rewind, itemsBut_parityFail, itemsBut_packetIn, itemsBut_noteReply, itemsBut_sessionNote, itemsBut_endSession]⟩

/-- Inputs from every voting lane. -/
theorem laneInputs_spec (d : Dev) (src action : Nat) (s : Scope) (loc : Nat) : (d.laneInputs src action s loc).rest = { d.rest with cyc := { quietCyc d.cyc with adm := (d.laneInputs src action s loc).cyc.adm, seqs := (d.laneInputs src action s loc).cyc.seqs, spilled := (d.laneInputs src action s loc).cyc.spilled } } ∧
    ItemsBut [] [(P.CYC_EARLY_DROP, 0), (P.CYC_ADMITTED, 0), (P.CYC_LATE, 0), (P.CYC_LATE_SPILL, 0)] (d.laneInputs src action s loc) d := by
  unfold Dev.laneInputs
  have s1 := fun (x : Dev) a => laneInputOne_spec x src action s loc a
  refine ⟨?_, fold_items _ (fun x a => (s1 x a).2) _ _⟩
  have h := foldl_keeps (fun x : Dev => ({ x.rest with cyc := { quietCyc x.cyc with adm := [], seqs := [], spilled := [] } } : Dev))
    (fun d i => if d.laneVotes i then d.input d.now 9 i (verdictBody src action s loc) else d) (fun x a => by
      have q := congrArg (fun y : Dev => ({ y with cyc := { y.cyc with adm := [], seqs := [], spilled := [] } } : Dev)) (s1 x a).1
      exact q)
  exact congrArg (fun x : Dev => ({ x with cyc := { x.cyc with adm := _, seqs := _, spilled := _ } } : Dev)) (h _ _)

theorem laneInputs_rest' (d : Dev) (src action : Nat) (s : Scope) (loc : Nat) : (d.laneInputs src action s loc).rest = { d.rest with cyc := { quietCyc d.cyc with adm := (d.laneInputs src action s loc).cyc.adm, seqs := (d.laneInputs src action s loc).cyc.seqs, spilled := (d.laneInputs src action s loc).cyc.spilled } } := (laneInputs_spec d src action s loc).1

@[simp] theorem laneInputs_fields (d : Dev) (src action : Nat) (s : Scope) (loc : Nat) :
    (d.laneInputs src action s loc).now = d.now ∧ (d.laneInputs src action s loc).snap = d.snap ∧
    (d.laneInputs src action s loc).committedOnce = d.committedOnce ∧ (d.laneInputs src action s loc).staged = d.staged ∧
    (d.laneInputs src action s loc).ctrls = d.ctrls ∧ (d.laneInputs src action s loc).freeIx = d.freeIx ∧
    (d.laneInputs src action s loc).tim = d.tim ∧ (d.laneInputs src action s loc).chutes = d.chutes ∧
    (d.laneInputs src action s loc).stp = d.stp ∧ (d.laneInputs src action s loc).air = d.air ∧ (d.laneInputs src action s loc).gns = d.gns ∧
    (d.laneInputs src action s loc).chiselOut = d.chiselOut ∧ (d.laneInputs src action s loc).ring = d.ring ∧
    (d.laneInputs src action s loc).can = d.can ∧ (d.laneInputs src action s loc).mtr = d.mtr ∧ (d.laneInputs src action s loc).drk = d.drk ∧
    (d.laneInputs src action s loc).dsp = d.dsp ∧ (d.laneInputs src action s loc).pwr = d.pwr ∧ (d.laneInputs src action s loc).peer = d.peer ∧
    (d.laneInputs src action s loc).com = d.com ∧ (d.laneInputs src action s loc).cyc.origin = d.cyc.origin ∧
    (d.laneInputs src action s loc).cyc.next = d.cyc.next ∧ (d.laneInputs src action s loc).cyc.floor = d.cyc.floor ∧
    (d.laneInputs src action s loc).cyc.inCommit = d.cyc.inCommit ∧ (d.laneInputs src action s loc).cyc.defer = d.cyc.defer ∧
    (d.laneInputs src action s loc).cyc.journal = d.cyc.journal ∧ (d.laneInputs src action s loc).cyc.feed = d.cyc.feed ∧
    (d.laneInputs src action s loc).cyc.skipped = d.cyc.skipped ∧ (d.laneInputs src action s loc).cyc.overrun = d.cyc.overrun ∧
    (d.laneInputs src action s loc).cyc.missed = d.cyc.missed ∧ (d.laneInputs src action s loc).cyc.flagCold = d.cyc.flagCold ∧
    (d.laneInputs src action s loc).cyc.flagStep = d.cyc.flagStep ∧ (d.laneInputs src action s loc).cyc.flagTake = d.cyc.flagTake ∧
    (d.laneInputs src action s loc).cyc.lastCommitAt = d.cyc.lastCommitAt ∧ (d.laneInputs src action s loc).cyc.changedCov = d.cyc.changedCov ∧
    (d.laneInputs src action s loc).cyc.covBase = d.cyc.covBase ∧ KeptHost (d.laneInputs src action s loc).host d.host ∧
    KeptRcd (d.laneInputs src action s loc).rcd d.rcd ∧ KeptTlg (d.laneInputs src action s loc).tlg d.tlg := by
  have h := (laneInputs_spec d src action s loc).1
  generalize d.laneInputs src action s loc = x at h ⊢
  have f {α : Type} (g : Dev → α) : g x.rest = g ({ d.rest with cyc := { quietCyc d.cyc with adm := (x).cyc.adm, seqs := (x).cyc.seqs, spilled := (x).cyc.spilled } }) := congrArg g h
  exact ⟨f (·.now), f (·.snap), f (·.committedOnce), f (·.staged), f (·.ctrls), f (·.freeIx), f (·.tim), f (·.chutes), f (·.stp), f (·.air),
    f (·.gns), f (·.chiselOut), f (·.ring), f (·.can), f (·.mtr), f (·.drk), f (·.dsp), f (·.pwr), f (·.peer), f (·.com), f (·.cyc.origin),
    f (·.cyc.next), f (·.cyc.floor), f (·.cyc.inCommit), f (·.cyc.defer), f (·.cyc.journal), f (·.cyc.feed), f (·.cyc.skipped),
    f (·.cyc.overrun), f (·.cyc.missed), f (·.cyc.flagCold), f (·.cyc.flagStep), f (·.cyc.flagTake), f (·.cyc.lastCommitAt),
    f (·.cyc.changedCov), f (·.cyc.covBase), KeptHost.of (f (·.host)), KeptRcd.of (f (·.rcd)), KeptTlg.of (f (·.tlg))⟩

@[simp] theorem laneInputs_rest (d : Dev) (src action : Nat) (s : Scope) (loc : Nat) : (d.laneInputs src action s loc).rest =
    { d.rest with cyc := quietCyc (d.laneInputs src action s loc).cyc } := by
  have h := (laneInputs_spec d src action s loc).1
  generalize d.laneInputs src action s loc = x at h ⊢
  have f {α : Type} (g : Dev → α) : g x.rest = g ({ d.rest with cyc := { quietCyc d.cyc with adm := (x).cyc.adm, seqs := (x).cyc.seqs, spilled := (x).cyc.spilled } }) := congrArg g h
  exact dev_ext (f (·.now)) rfl (f (·.snap)) (f (·.committedOnce)) rfl (f (·.staged)) (f (·.ctrls)) rfl (f (·.freeIx)) (f (·.tim)) rfl (f (·.host))
    (f (·.chutes)) (f (·.rcd)) (f (·.stp)) (f (·.air)) (f (·.gns)) (f (·.chiselOut)) (f (·.ring)) (f (·.can)) (f (·.mtr)) (f (·.drk))
    (f (·.dsp)) (f (·.tlg)) (f (·.pwr)) (f (·.peer)) (f (·.com))

theorem laneInputs_reads (d : Dev) (src action : Nat) (s : Scope) (loc : Nat) : ∀ id jq, reportItem id = false → id ≠ P.CYC_EARLY_DROP → id ≠ P.CYC_ADMITTED → id ≠ P.CYC_LATE → id ≠ P.CYC_LATE_SPILL →
    (d.laneInputs src action s loc).rd id jq = d.rd id jq ∧ (d.laneInputs src action s loc).isSticky id jq = d.isSticky id jq ∧ (d.laneInputs src action s loc).cf id jq = d.cf id jq := by
  intro id jq hr h0 h1 h2 h3
  have h := (laneInputs_spec d src action s loc).2 id jq hr (by simp) (by simp [regKey_ne, h0, Ne.symm h0, h1, Ne.symm h1, h2, Ne.symm h2, h3, Ne.symm h3])
  have e : (d.laneInputs src action s loc).staged = d.staged := by simp
  refine ⟨h.1, h.2, ?_⟩
  simp only [Dev.cf, e, h.1]

theorem laneInputs_at (d : Dev) (src action : Nat) (s : Scope) (loc : Nat) : ∀ id jq, reportItem id = false  → regKey P.CYC_EARLY_DROP 0 ≠ regKey id jq → regKey P.CYC_ADMITTED 0 ≠ regKey id jq → regKey P.CYC_LATE 0 ≠ regKey id jq → regKey P.CYC_LATE_SPILL 0 ≠ regKey id jq →
    (d.laneInputs src action s loc).rd id jq = d.rd id jq ∧ (d.laneInputs src action s loc).isSticky id jq = d.isSticky id jq ∧ (d.laneInputs src action s loc).cf id jq = d.cf id jq := by
  intro id jq hr h0 h1 h2 h3
  have h := (laneInputs_spec d src action s loc).2 id jq hr (by simp) (by simp [h0, h1, h2, h3])
  have e : (d.laneInputs src action s loc).staged = d.staged := by simp
  refine ⟨h.1, h.2, ?_⟩
  simp only [Dev.cf, e, h.1]

theorem itemsBut_laneInputs {ids : List Nat} {ks : List (Nat × Nat)} (d e : Dev) (src action : Nat) (s : Scope) (loc : Nat) (m0 : P.CYC_EARLY_DROP ∈ ids ∨ (P.CYC_EARLY_DROP, 0) ∈ ks) (m1 : P.CYC_ADMITTED ∈ ids ∨ (P.CYC_ADMITTED, 0) ∈ ks) (m2 : P.CYC_LATE ∈ ids ∨ (P.CYC_LATE, 0) ∈ ks) (m3 : P.CYC_LATE_SPILL ∈ ids ∨ (P.CYC_LATE_SPILL, 0) ∈ ks) :
    ItemsBut ids ks (d.laneInputs src action s loc) e ↔ ItemsBut ids ks d e :=
  itemsBut_congr ((laneInputs_spec d src action s loc).2.mono (by simp) (by simp [m0, m1, m2, m3])) e

/-- Lanes latch in turn. -/
theorem laneLatch_spec (d : Dev) (src : Nat) (s : Scope) (key : Nat → EvKey) (vs : List Nat) : ((vs.foldl (fun d i => { d with stp := { d.stp with lanes := upd d.stp.lanes i fun (l : Lane) => l.latch s src (key i), unentered := d.stp.unentered ++ [key i] } }) d)).rest = { d.rest with stp := { d.stp with lanes := ((vs.foldl (fun d i => { d with stp := { d.stp with lanes := upd d.stp.lanes i fun (l : Lane) => l.latch s src (key i), unentered := d.stp.unentered ++ [key i] } }) d)).stp.lanes, unentered := ((vs.foldl (fun d i => { d with stp := { d.stp with lanes := upd d.stp.lanes i fun (l : Lane) => l.latch s src (key i), unentered := d.stp.unentered ++ [key i] } }) d)).stp.unentered } } ∧
    ItemsBut [] [] ((vs.foldl (fun d i => { d with stp := { d.stp with lanes := upd d.stp.lanes i fun (l : Lane) => l.latch s src (key i), unentered := d.stp.unentered ++ [key i] } }) d)) d := by
  refine ⟨?_, fold_items (fun (d : Dev) i => { d with stp := { d.stp with lanes := upd d.stp.lanes i fun (l : Lane) => l.latch s src (key i), unentered := d.stp.unentered ++ [key i] } }) (fun x a => fun _ _ _ _ _ => ⟨rfl, rfl⟩) _ _⟩
  have h := foldl_keeps (fun x : Dev => ({ x.rest with stp := { x.stp with lanes := [], unentered := [] } } : Dev))
    (fun (d : Dev) i => { d with stp := { d.stp with lanes := upd d.stp.lanes i fun (l : Lane) => l.latch s src (key i), unentered := d.stp.unentered ++ [key i] } }) (fun x a => rfl)
  exact congrArg (fun x : Dev => ({ x with stp := { x.stp with lanes := _, unentered := _ } } : Dev)) (h vs d)

theorem laneLatch_rest' (d : Dev) (src : Nat) (s : Scope) (key : Nat → EvKey) (vs : List Nat) : ((vs.foldl (fun d i => { d with stp := { d.stp with lanes := upd d.stp.lanes i fun (l : Lane) => l.latch s src (key i), unentered := d.stp.unentered ++ [key i] } }) d)).rest = { d.rest with stp := { d.stp with lanes := ((vs.foldl (fun d i => { d with stp := { d.stp with lanes := upd d.stp.lanes i fun (l : Lane) => l.latch s src (key i), unentered := d.stp.unentered ++ [key i] } }) d)).stp.lanes, unentered := ((vs.foldl (fun d i => { d with stp := { d.stp with lanes := upd d.stp.lanes i fun (l : Lane) => l.latch s src (key i), unentered := d.stp.unentered ++ [key i] } }) d)).stp.unentered } } := (laneLatch_spec d src s key vs).1

@[simp] theorem laneLatch_fields (d : Dev) (src : Nat) (s : Scope) (key : Nat → EvKey) (vs : List Nat) :
    
    ((vs.foldl (fun d i => { d with stp := { d.stp with lanes := upd d.stp.lanes i fun (l : Lane) => l.latch s src (key i), unentered := d.stp.unentered ++ [key i] } }) d)).now = d.now ∧
    ((vs.foldl (fun d i => { d with stp := { d.stp with lanes := upd d.stp.lanes i fun (l : Lane) => l.latch s src (key i), unentered := d.stp.unentered ++ [key i] } }) d)).snap = d.snap ∧
    ((vs.foldl (fun d i => { d with stp := { d.stp with lanes := upd d.stp.lanes i fun (l : Lane) => l.latch s src (key i), unentered := d.stp.unentered ++ [key i] } }) d)).committedOnce = d.committedOnce ∧
    ((vs.foldl (fun d i => { d with stp := { d.stp with lanes := upd d.stp.lanes i fun (l : Lane) => l.latch s src (key i), unentered := d.stp.unentered ++ [key i] } }) d)).staged = d.staged ∧
    ((vs.foldl (fun d i => { d with stp := { d.stp with lanes := upd d.stp.lanes i fun (l : Lane) => l.latch s src (key i), unentered := d.stp.unentered ++ [key i] } }) d)).ctrls = d.ctrls ∧
    ((vs.foldl (fun d i => { d with stp := { d.stp with lanes := upd d.stp.lanes i fun (l : Lane) => l.latch s src (key i), unentered := d.stp.unentered ++ [key i] } }) d)).freeIx = d.freeIx ∧
    ((vs.foldl (fun d i => { d with stp := { d.stp with lanes := upd d.stp.lanes i fun (l : Lane) => l.latch s src (key i), unentered := d.stp.unentered ++ [key i] } }) d)).tim = d.tim ∧
    ((vs.foldl (fun d i => { d with stp := { d.stp with lanes := upd d.stp.lanes i fun (l : Lane) => l.latch s src (key i), unentered := d.stp.unentered ++ [key i] } }) d)).chutes = d.chutes ∧
    ((vs.foldl (fun d i => { d with stp := { d.stp with lanes := upd d.stp.lanes i fun (l : Lane) => l.latch s src (key i), unentered := d.stp.unentered ++ [key i] } }) d)).stp.diff = d.stp.diff ∧
    ((vs.foldl (fun d i => { d with stp := { d.stp with lanes := upd d.stp.lanes i fun (l : Lane) => l.latch s src (key i), unentered := d.stp.unentered ++ [key i] } }) d)).stp.allDiff = d.stp.allDiff ∧
    ((vs.foldl (fun d i => { d with stp := { d.stp with lanes := upd d.stp.lanes i fun (l : Lane) => l.latch s src (key i), unentered := d.stp.unentered ++ [key i] } }) d)).stp.permits = d.stp.permits ∧
    ((vs.foldl (fun d i => { d with stp := { d.stp with lanes := upd d.stp.lanes i fun (l : Lane) => l.latch s src (key i), unentered := d.stp.unentered ++ [key i] } }) d)).stp.out = d.stp.out ∧
    ((vs.foldl (fun d i => { d with stp := { d.stp with lanes := upd d.stp.lanes i fun (l : Lane) => l.latch s src (key i), unentered := d.stp.unentered ++ [key i] } }) d)).stp.level = d.stp.level ∧
    ((vs.foldl (fun d i => { d with stp := { d.stp with lanes := upd d.stp.lanes i fun (l : Lane) => l.latch s src (key i), unentered := d.stp.unentered ++ [key i] } }) d)).stp.pulsePass = d.stp.pulsePass ∧
    ((vs.foldl (fun d i => { d with stp := { d.stp with lanes := upd d.stp.lanes i fun (l : Lane) => l.latch s src (key i), unentered := d.stp.unentered ++ [key i] } }) d)).stp.sawOpen = d.stp.sawOpen ∧
    ((vs.foldl (fun d i => { d with stp := { d.stp with lanes := upd d.stp.lanes i fun (l : Lane) => l.latch s src (key i), unentered := d.stp.unentered ++ [key i] } }) d)).stp.sawClosed = d.stp.sawClosed ∧
    ((vs.foldl (fun d i => { d with stp := { d.stp with lanes := upd d.stp.lanes i fun (l : Lane) => l.latch s src (key i), unentered := d.stp.unentered ++ [key i] } }) d)).stp.circuit = d.stp.circuit ∧
    ((vs.foldl (fun d i => { d with stp := { d.stp with lanes := upd d.stp.lanes i fun (l : Lane) => l.latch s src (key i), unentered := d.stp.unentered ++ [key i] } }) d)).stp.diffSince = d.stp.diffSince ∧
    ((vs.foldl (fun d i => { d with stp := { d.stp with lanes := upd d.stp.lanes i fun (l : Lane) => l.latch s src (key i), unentered := d.stp.unentered ++ [key i] } }) d)).stp.outFault = d.stp.outFault ∧
    ((vs.foldl (fun d i => { d with stp := { d.stp with lanes := upd d.stp.lanes i fun (l : Lane) => l.latch s src (key i), unentered := d.stp.unentered ++ [key i] } }) d)).stp.outOn = d.stp.outOn ∧
    ((vs.foldl (fun d i => { d with stp := { d.stp with lanes := upd d.stp.lanes i fun (l : Lane) => l.latch s src (key i), unentered := d.stp.unentered ++ [key i] } }) d)).stp.fbSince = d.stp.fbSince ∧
    ((vs.foldl (fun d i => { d with stp := { d.stp with lanes := upd d.stp.lanes i fun (l : Lane) => l.latch s src (key i), unentered := d.stp.unentered ++ [key i] } }) d)).stp.verdict = d.stp.verdict ∧
    ((vs.foldl (fun d i => { d with stp := { d.stp with lanes := upd d.stp.lanes i fun (l : Lane) => l.latch s src (key i), unentered := d.stp.unentered ++ [key i] } }) d)).stp.ownFail = d.stp.ownFail ∧
    ((vs.foldl (fun d i => { d with stp := { d.stp with lanes := upd d.stp.lanes i fun (l : Lane) => l.latch s src (key i), unentered := d.stp.unentered ++ [key i] } }) d)).stp.withheldBy = d.stp.withheldBy ∧
    ((vs.foldl (fun d i => { d with stp := { d.stp with lanes := upd d.stp.lanes i fun (l : Lane) => l.latch s src (key i), unentered := d.stp.unentered ++ [key i] } }) d)).stp.series = d.stp.series ∧
    ((vs.foldl (fun d i => { d with stp := { d.stp with lanes := upd d.stp.lanes i fun (l : Lane) => l.latch s src (key i), unentered := d.stp.unentered ++ [key i] } }) d)).stp.pendingFence = d.stp.pendingFence ∧
    ((vs.foldl (fun d i => { d with stp := { d.stp with lanes := upd d.stp.lanes i fun (l : Lane) => l.latch s src (key i), unentered := d.stp.unentered ++ [key i] } }) d)).stp.lastRecord = d.stp.lastRecord ∧
    ((vs.foldl (fun d i => { d with stp := { d.stp with lanes := upd d.stp.lanes i fun (l : Lane) => l.latch s src (key i), unentered := d.stp.unentered ++ [key i] } }) d)).stp.lastEv = d.stp.lastEv ∧
    ((vs.foldl (fun d i => { d with stp := { d.stp with lanes := upd d.stp.lanes i fun (l : Lane) => l.latch s src (key i), unentered := d.stp.unentered ++ [key i] } }) d)).stp.testsDone = d.stp.testsDone ∧
    ((vs.foldl (fun d i => { d with stp := { d.stp with lanes := upd d.stp.lanes i fun (l : Lane) => l.latch s src (key i), unentered := d.stp.unentered ++ [key i] } }) d)).stp.canSilent = d.stp.canSilent ∧
    ((vs.foldl (fun d i => { d with stp := { d.stp with lanes := upd d.stp.lanes i fun (l : Lane) => l.latch s src (key i), unentered := d.stp.unentered ++ [key i] } }) d)).stp.remoteSilent = d.stp.remoteSilent ∧
    ((vs.foldl (fun d i => { d with stp := { d.stp with lanes := upd d.stp.lanes i fun (l : Lane) => l.latch s src (key i), unentered := d.stp.unentered ++ [key i] } }) d)).stp.kept = d.stp.kept ∧
    ((vs.foldl (fun d i => { d with stp := { d.stp with lanes := upd d.stp.lanes i fun (l : Lane) => l.latch s src (key i), unentered := d.stp.unentered ++ [key i] } }) d)).stp.mail = d.stp.mail ∧
    ((vs.foldl (fun d i => { d with stp := { d.stp with lanes := upd d.stp.lanes i fun (l : Lane) => l.latch s src (key i), unentered := d.stp.unentered ++ [key i] } }) d)).stp.remoteLast = d.stp.remoteLast ∧
    ((vs.foldl (fun d i => { d with stp := { d.stp with lanes := upd d.stp.lanes i fun (l : Lane) => l.latch s src (key i), unentered := d.stp.unentered ++ [key i] } }) d)).stp.canLast = d.stp.canLast ∧
    ((vs.foldl (fun d i => { d with stp := { d.stp with lanes := upd d.stp.lanes i fun (l : Lane) => l.latch s src (key i), unentered := d.stp.unentered ++ [key i] } }) d)).stp.unheard = d.stp.unheard ∧
    ((vs.foldl (fun d i => { d with stp := { d.stp with lanes := upd d.stp.lanes i fun (l : Lane) => l.latch s src (key i), unentered := d.stp.unentered ++ [key i] } }) d)).stp.firstBeacon = d.stp.firstBeacon ∧
    ((vs.foldl (fun d i => { d with stp := { d.stp with lanes := upd d.stp.lanes i fun (l : Lane) => l.latch s src (key i), unentered := d.stp.unentered ++ [key i] } }) d)).stp.bcnCycle = d.stp.bcnCycle ∧
    ((vs.foldl (fun d i => { d with stp := { d.stp with lanes := upd d.stp.lanes i fun (l : Lane) => l.latch s src (key i), unentered := d.stp.unentered ++ [key i] } }) d)).air = d.air ∧
    ((vs.foldl (fun d i => { d with stp := { d.stp with lanes := upd d.stp.lanes i fun (l : Lane) => l.latch s src (key i), unentered := d.stp.unentered ++ [key i] } }) d)).gns = d.gns ∧
    ((vs.foldl (fun d i => { d with stp := { d.stp with lanes := upd d.stp.lanes i fun (l : Lane) => l.latch s src (key i), unentered := d.stp.unentered ++ [key i] } }) d)).chiselOut = d.chiselOut ∧
    ((vs.foldl (fun d i => { d with stp := { d.stp with lanes := upd d.stp.lanes i fun (l : Lane) => l.latch s src (key i), unentered := d.stp.unentered ++ [key i] } }) d)).ring = d.ring ∧
    ((vs.foldl (fun d i => { d with stp := { d.stp with lanes := upd d.stp.lanes i fun (l : Lane) => l.latch s src (key i), unentered := d.stp.unentered ++ [key i] } }) d)).can = d.can ∧
    ((vs.foldl (fun d i => { d with stp := { d.stp with lanes := upd d.stp.lanes i fun (l : Lane) => l.latch s src (key i), unentered := d.stp.unentered ++ [key i] } }) d)).mtr = d.mtr ∧
    ((vs.foldl (fun d i => { d with stp := { d.stp with lanes := upd d.stp.lanes i fun (l : Lane) => l.latch s src (key i), unentered := d.stp.unentered ++ [key i] } }) d)).drk = d.drk ∧
    ((vs.foldl (fun d i => { d with stp := { d.stp with lanes := upd d.stp.lanes i fun (l : Lane) => l.latch s src (key i), unentered := d.stp.unentered ++ [key i] } }) d)).dsp = d.dsp ∧
    ((vs.foldl (fun d i => { d with stp := { d.stp with lanes := upd d.stp.lanes i fun (l : Lane) => l.latch s src (key i), unentered := d.stp.unentered ++ [key i] } }) d)).pwr = d.pwr ∧
    ((vs.foldl (fun d i => { d with stp := { d.stp with lanes := upd d.stp.lanes i fun (l : Lane) => l.latch s src (key i), unentered := d.stp.unentered ++ [key i] } }) d)).peer = d.peer ∧
    ((vs.foldl (fun d i => { d with stp := { d.stp with lanes := upd d.stp.lanes i fun (l : Lane) => l.latch s src (key i), unentered := d.stp.unentered ++ [key i] } }) d)).com = d.com ∧
    KeptCyc ((vs.foldl (fun d i => { d with stp := { d.stp with lanes := upd d.stp.lanes i fun (l : Lane) => l.latch s src (key i), unentered := d.stp.unentered ++ [key i] } }) d)).cyc d.cyc ∧
    KeptHost ((vs.foldl (fun d i => { d with stp := { d.stp with lanes := upd d.stp.lanes i fun (l : Lane) => l.latch s src (key i), unentered := d.stp.unentered ++ [key i] } }) d)).host d.host ∧
    KeptRcd ((vs.foldl (fun d i => { d with stp := { d.stp with lanes := upd d.stp.lanes i fun (l : Lane) => l.latch s src (key i), unentered := d.stp.unentered ++ [key i] } }) d)).rcd d.rcd ∧
    KeptTlg ((vs.foldl (fun d i => { d with stp := { d.stp with lanes := upd d.stp.lanes i fun (l : Lane) => l.latch s src (key i), unentered := d.stp.unentered ++ [key i] } }) d)).tlg d.tlg := by
  have h := (laneLatch_spec d src s key vs).1
  generalize (vs.foldl (fun d i => { d with stp := { d.stp with lanes := upd d.stp.lanes i fun (l : Lane) => l.latch s src (key i), unentered := d.stp.unentered ++ [key i] } }) d) = x at h ⊢
  have f {α : Type} (g : Dev → α) : g x.rest = g ({ d.rest with stp := { d.stp with lanes := (x).stp.lanes, unentered := (x).stp.unentered } }) := congrArg g h
  exact ⟨f (·.now), f (·.snap), f (·.committedOnce), f (·.staged), f (·.ctrls), f (·.freeIx), f (·.tim), f (·.chutes), f (·.stp.diff),
    f (·.stp.allDiff), f (·.stp.permits), f (·.stp.out), f (·.stp.level), f (·.stp.pulsePass), f (·.stp.sawOpen), f (·.stp.sawClosed),
    f (·.stp.circuit), f (·.stp.diffSince), f (·.stp.outFault), f (·.stp.outOn), f (·.stp.fbSince), f (·.stp.verdict), f (·.stp.ownFail),
    f (·.stp.withheldBy), f (·.stp.series), f (·.stp.pendingFence), f (·.stp.lastRecord), f (·.stp.lastEv), f (·.stp.testsDone),
    f (·.stp.canSilent), f (·.stp.remoteSilent), f (·.stp.kept), f (·.stp.mail), f (·.stp.remoteLast), f (·.stp.canLast), f (·.stp.unheard),
    f (·.stp.firstBeacon), f (·.stp.bcnCycle), f (·.air), f (·.gns), f (·.chiselOut), f (·.ring), f (·.can), f (·.mtr), f (·.drk), f (·.dsp),
    f (·.pwr), f (·.peer), f (·.com), KeptCyc.of (f (·.cyc)), KeptHost.of (f (·.host)), KeptRcd.of (f (·.rcd)), KeptTlg.of (f (·.tlg))⟩

@[simp] theorem laneLatch_rest (d : Dev) (src : Nat) (s : Scope) (key : Nat → EvKey) (vs : List Nat) : ((vs.foldl (fun d i => { d with stp := { d.stp with lanes := upd d.stp.lanes i fun (l : Lane) => l.latch s src (key i), unentered := d.stp.unentered ++ [key i] } }) d)).rest =
    { d.rest with stp := ((vs.foldl (fun d i => { d with stp := { d.stp with lanes := upd d.stp.lanes i fun (l : Lane) => l.latch s src (key i), unentered := d.stp.unentered ++ [key i] } }) d)).stp } := by
  have h := (laneLatch_spec d src s key vs).1
  generalize (vs.foldl (fun d i => { d with stp := { d.stp with lanes := upd d.stp.lanes i fun (l : Lane) => l.latch s src (key i), unentered := d.stp.unentered ++ [key i] } }) d) = x at h ⊢
  have f {α : Type} (g : Dev → α) : g x.rest = g ({ d.rest with stp := { d.stp with lanes := (x).stp.lanes, unentered := (x).stp.unentered } }) := congrArg g h
  exact dev_ext (f (·.now)) rfl (f (·.snap)) (f (·.committedOnce)) rfl (f (·.staged)) (f (·.ctrls)) rfl (f (·.freeIx)) (f (·.tim)) (f (·.cyc)) (f (·.host))
    (f (·.chutes)) (f (·.rcd)) rfl (f (·.air)) (f (·.gns)) (f (·.chiselOut)) (f (·.ring)) (f (·.can)) (f (·.mtr)) (f (·.drk)) (f (·.dsp))
    (f (·.tlg)) (f (·.pwr)) (f (·.peer)) (f (·.com))

theorem laneLatch_reads (d : Dev) (src : Nat) (s : Scope) (key : Nat → EvKey) (vs : List Nat) : ∀ id jq, reportItem id = false  →
    ((vs.foldl (fun d i => { d with stp := { d.stp with lanes := upd d.stp.lanes i fun (l : Lane) => l.latch s src (key i), unentered := d.stp.unentered ++ [key i] } }) d)).rd id jq = d.rd id jq ∧ ((vs.foldl (fun d i => { d with stp := { d.stp with lanes := upd d.stp.lanes i fun (l : Lane) => l.latch s src (key i), unentered := d.stp.unentered ++ [key i] } }) d)).isSticky id jq = d.isSticky id jq ∧ ((vs.foldl (fun d i => { d with stp := { d.stp with lanes := upd d.stp.lanes i fun (l : Lane) => l.latch s src (key i), unentered := d.stp.unentered ++ [key i] } }) d)).cf id jq = d.cf id jq := by
  intro id jq hr 
  have h := (laneLatch_spec d src s key vs).2 id jq hr (by simp) (by simp)
  have e : ((vs.foldl (fun d i => { d with stp := { d.stp with lanes := upd d.stp.lanes i fun (l : Lane) => l.latch s src (key i), unentered := d.stp.unentered ++ [key i] } }) d)).staged = d.staged := by simp
  refine ⟨h.1, h.2, ?_⟩
  simp only [Dev.cf, e, h.1]

theorem itemsBut_laneLatch {ids : List Nat} {ks : List (Nat × Nat)} (d e : Dev) (src : Nat) (s : Scope) (key : Nat → EvKey) (vs : List Nat)  :
    ItemsBut ids ks ((vs.foldl (fun d i => { d with stp := { d.stp with lanes := upd d.stp.lanes i fun (l : Lane) => l.latch s src (key i), unentered := d.stp.unentered ++ [key i] } }) d)) e ↔ ItemsBut ids ks d e :=
  itemsBut_congr ((laneLatch_spec d src s key vs).2.mono (by simp) (by simp)) e

/-- A source of the lanes' own evaluation. -/
theorem laneStop_spec (d : Dev) (src action : Nat) (s : Scope) (loc : Nat) : (d.laneStop src action s loc).rest = { d.rest with stp := { d.stp with lastEv := (d.laneStop src action s loc).stp.lastEv, lanes := (d.laneStop src action s loc).stp.lanes, unentered := (d.laneStop src action s loc).stp.unentered }, cyc := { quietCyc d.cyc with adm := (d.laneStop src action s loc).cyc.adm, seqs := (d.laneStop src action s loc).cyc.seqs, spilled := (d.laneStop src action s loc).cyc.spilled } } ∧
    ItemsBut [] [(P.CYC_EARLY_DROP, 0), (P.CYC_ADMITTED, 0), (P.CYC_LATE, 0), (P.CYC_LATE_SPILL, 0)] (d.laneStop src action s loc) d := by
  unfold Dev.laneStop
  simp only []
  exact ⟨by first | (simp [itemsBut_self, -judge_rest, judge_rest', -timeState_rest, timeState_rest', -takeSeq_rest, takeSeq_rest', -hold_rest, hold_rest', -admit_rest, admit_rest', -input_rest, input_rest', -offer_rest, offer_rest', -stopNotice_rest, stopNotice_rest', -stopEvent_rest, stopEvent_rest', -giveUp_rest, giveUp_rest', -verdict_rest, verdict_rest', -engineFault_rest, engineFault_rest', -ctr_rest, ctr_rest', -beginReset_rest, beginReset_rest', -imageKeep_rest, imageKeep_rest', -imageCopy_rest, imageCopy_rest', -lastWords_rest, lastWords_rest', -placeRec_rest, placeRec_rest', -setTask_rest, setTask_rest', -setCore_rest, setCore_rest', -coreCount_rest, coreCount_rest', -dspRun_rest, dspRun_rest', -dspLeave_rest, dspLeave_rest', -dspHold_rest, dspHold_rest', -dspReady_rest, dspReady_rest', -dspWake_rest, dspWake_rest', -wakeAll_rest, wakeAll_rest', -packetIn_rest, packetIn_rest', -endSession_rest, endSession_rest', -laneInputs_rest, laneInputs_rest', -laneLatch_rest, laneLatch_rest']; done) | (simp [itemsBut_self, -judge_rest, judge_rest', -timeState_rest, timeState_rest', -takeSeq_rest, takeSeq_rest', -hold_rest, hold_rest', -admit_rest, admit_rest', -input_rest, input_rest', -offer_rest, offer_rest', -stopNotice_rest, stopNotice_rest', -stopEvent_rest, stopEvent_rest', -giveUp_rest, giveUp_rest', -verdict_rest, verdict_rest', -engineFault_rest, engineFault_rest', -ctr_rest, ctr_rest', -beginReset_rest, beginReset_rest', -imageKeep_rest, imageKeep_rest', -imageCopy_rest, imageCopy_rest', -lastWords_rest, lastWords_rest', -placeRec_rest, placeRec_rest', -setTask_rest, setTask_rest', -setCore_rest, setCore_rest', -coreCount_rest, coreCount_rest', -dspRun_rest, dspRun_rest', -dspLeave_rest, dspLeave_rest', -dspHold_rest, dspHold_rest', -dspReady_rest, dspReady_rest', -dspWake_rest, dspWake_rest', -wakeAll_rest, wakeAll_rest', -packetIn_rest, packetIn_rest', -endSession_rest, endSession_rest', -laneInputs_rest, laneInputs_rest', -laneLatch_rest, laneLatch_rest']; repeat' (first | rfl | apply And.intro)) | rfl, by simp [itemsBut_wr, itemsBut_inc, itemsBut_addW, itemsBut_maxTo, itemsBut_wrS, itemsBut_judge, itemsBut_timeState, itemsBut_takeSeq, itemsBut_countIn, itemsBut_hold, itemsBut_admit, itemsBut_input, itemsBut_offer, itemsBut_stopNotice, itemsBut_stopEvent, itemsBut_giveUp, itemsBut_verdict, itemsBut_engineFault, itemsBut_ctr, itemsBut_dspTrace, itemsBut_bypass, itemsBut_bypassHw, itemsBut_beginReset, itemsBut_mtrFlush, itemsBut_imageKeep, itemsBut_imageCopy, itemsBut_antState, itemsBut_judgeBias, itemsBut_chainState, itemsBut_showTile, itemsBut_putChan, itemsBut_freeChan, itemsBut_freeWhere, itemsBut_enableChan, itemsBut_place, itemsBut_placeAll, itemsBut_chainsEnable, itemsBut_startTracking, itemsBut_noteGain, itemsBut_stopTracking, itemsBut_snapTrigger, itemsBut_recorder, itemsBut_region, itemsBut_showRegion, itemsBut_lastWords, itemsBut_placeRec, itemsBut_flush, itemsBut_regionLost, itemsBut_setTask, itemsBut_setCore, itemsBut_coreCount, itemsBut_dspRun, itemsBut_dspLeave, itemsBut_dspHold, itemsBut_dspReady, itemsBut_dspWake, itemsBut_wakeAll, itemsBut_chuteTrace, itemsBut_chute, itemsBut_rewind, itemsBut_parityFail, itemsBut_packetIn, itemsBut_noteReply, itemsBut_sessionNote, itemsBut_endSession, itemsBut_laneInputs, itemsBut_laneLatch]⟩

theorem laneStop_rest' (d : Dev) (src action : Nat) (s : Scope) (loc : Nat) : (d.laneStop src action s loc).rest = { d.rest with stp := { d.stp with lastEv := (d.laneStop src action s loc).stp.lastEv, lanes := (d.laneStop src action s loc).stp.lanes, unentered := (d.laneStop src action s loc).stp.unentered }, cyc := { quietCyc d.cyc with adm := (d.laneStop src action s loc).cyc.adm, seqs := (d.laneStop src action s loc).cyc.seqs, spilled := (d.laneStop src action s loc).cyc.spilled } } := (laneStop_spec d src action s loc).1

@[simp] theorem laneStop_fields (d : Dev) (src action : Nat) (s : Scope) (loc : Nat) :
    (d.laneStop src action s loc).now = d.now ∧ (d.laneStop src action s loc).snap = d.snap ∧
    (d.laneStop src action s loc).committedOnce = d.committedOnce ∧ (d.laneStop src action s loc).staged = d.staged ∧
    (d.laneStop src action s loc).ctrls = d.ctrls ∧ (d.laneStop src action s loc).freeIx = d.freeIx ∧
    (d.laneStop src action s loc).tim = d.tim ∧ (d.laneStop src action s loc).chutes = d.chutes ∧
    (d.laneStop src action s loc).stp.diff = d.stp.diff ∧ (d.laneStop src action s loc).stp.allDiff = d.stp.allDiff ∧
    (d.laneStop src action s loc).stp.permits = d.stp.permits ∧ (d.laneStop src action s loc).stp.out = d.stp.out ∧
    (d.laneStop src action s loc).stp.level = d.stp.level ∧ (d.laneStop src action s loc).stp.pulsePass = d.stp.pulsePass ∧
    (d.laneStop src action s loc).stp.sawOpen = d.stp.sawOpen ∧ (d.laneStop src action s loc).stp.sawClosed = d.stp.sawClosed ∧
    (d.laneStop src action s loc).stp.circuit = d.stp.circuit ∧ (d.laneStop src action s loc).stp.diffSince = d.stp.diffSince ∧
    (d.laneStop src action s loc).stp.outFault = d.stp.outFault ∧ (d.laneStop src action s loc).stp.outOn = d.stp.outOn ∧
    (d.laneStop src action s loc).stp.fbSince = d.stp.fbSince ∧ (d.laneStop src action s loc).stp.verdict = d.stp.verdict ∧
    (d.laneStop src action s loc).stp.ownFail = d.stp.ownFail ∧ (d.laneStop src action s loc).stp.withheldBy = d.stp.withheldBy ∧
    (d.laneStop src action s loc).stp.series = d.stp.series ∧ (d.laneStop src action s loc).stp.pendingFence = d.stp.pendingFence ∧
    (d.laneStop src action s loc).stp.lastRecord = d.stp.lastRecord ∧ (d.laneStop src action s loc).stp.testsDone = d.stp.testsDone ∧
    (d.laneStop src action s loc).stp.canSilent = d.stp.canSilent ∧ (d.laneStop src action s loc).stp.remoteSilent = d.stp.remoteSilent ∧
    (d.laneStop src action s loc).stp.kept = d.stp.kept ∧ (d.laneStop src action s loc).stp.mail = d.stp.mail ∧
    (d.laneStop src action s loc).stp.remoteLast = d.stp.remoteLast ∧ (d.laneStop src action s loc).stp.canLast = d.stp.canLast ∧
    (d.laneStop src action s loc).stp.unheard = d.stp.unheard ∧ (d.laneStop src action s loc).stp.firstBeacon = d.stp.firstBeacon ∧
    (d.laneStop src action s loc).stp.bcnCycle = d.stp.bcnCycle ∧ (d.laneStop src action s loc).air = d.air ∧
    (d.laneStop src action s loc).gns = d.gns ∧ (d.laneStop src action s loc).chiselOut = d.chiselOut ∧
    (d.laneStop src action s loc).ring = d.ring ∧ (d.laneStop src action s loc).can = d.can ∧ (d.laneStop src action s loc).mtr = d.mtr ∧
    (d.laneStop src action s loc).drk = d.drk ∧ (d.laneStop src action s loc).dsp = d.dsp ∧ (d.laneStop src action s loc).pwr = d.pwr ∧
    (d.laneStop src action s loc).peer = d.peer ∧ (d.laneStop src action s loc).com = d.com ∧
    (d.laneStop src action s loc).cyc.origin = d.cyc.origin ∧ (d.laneStop src action s loc).cyc.next = d.cyc.next ∧
    (d.laneStop src action s loc).cyc.floor = d.cyc.floor ∧ (d.laneStop src action s loc).cyc.inCommit = d.cyc.inCommit ∧
    (d.laneStop src action s loc).cyc.defer = d.cyc.defer ∧ (d.laneStop src action s loc).cyc.journal = d.cyc.journal ∧
    (d.laneStop src action s loc).cyc.feed = d.cyc.feed ∧ (d.laneStop src action s loc).cyc.skipped = d.cyc.skipped ∧
    (d.laneStop src action s loc).cyc.overrun = d.cyc.overrun ∧ (d.laneStop src action s loc).cyc.missed = d.cyc.missed ∧
    (d.laneStop src action s loc).cyc.flagCold = d.cyc.flagCold ∧ (d.laneStop src action s loc).cyc.flagStep = d.cyc.flagStep ∧
    (d.laneStop src action s loc).cyc.flagTake = d.cyc.flagTake ∧ (d.laneStop src action s loc).cyc.lastCommitAt = d.cyc.lastCommitAt ∧
    (d.laneStop src action s loc).cyc.changedCov = d.cyc.changedCov ∧ (d.laneStop src action s loc).cyc.covBase = d.cyc.covBase ∧
    KeptHost (d.laneStop src action s loc).host d.host ∧ KeptRcd (d.laneStop src action s loc).rcd d.rcd ∧
    KeptTlg (d.laneStop src action s loc).tlg d.tlg := by
  have h := (laneStop_spec d src action s loc).1
  generalize d.laneStop src action s loc = x at h ⊢
  have f {α : Type} (g : Dev → α) : g x.rest = g ({ d.rest with stp := { d.stp with lastEv := (x).stp.lastEv, lanes := (x).stp.lanes, unentered := (x).stp.unentered }, cyc := { quietCyc d.cyc with adm := (x).cyc.adm, seqs := (x).cyc.seqs, spilled := (x).cyc.spilled } }) := congrArg g h
  exact ⟨f (·.now), f (·.snap), f (·.committedOnce), f (·.staged), f (·.ctrls), f (·.freeIx), f (·.tim), f (·.chutes), f (·.stp.diff),
    f (·.stp.allDiff), f (·.stp.permits), f (·.stp.out), f (·.stp.level), f (·.stp.pulsePass), f (·.stp.sawOpen), f (·.stp.sawClosed),
    f (·.stp.circuit), f (·.stp.diffSince), f (·.stp.outFault), f (·.stp.outOn), f (·.stp.fbSince), f (·.stp.verdict), f (·.stp.ownFail),
    f (·.stp.withheldBy), f (·.stp.series), f (·.stp.pendingFence), f (·.stp.lastRecord), f (·.stp.testsDone), f (·.stp.canSilent),
    f (·.stp.remoteSilent), f (·.stp.kept), f (·.stp.mail), f (·.stp.remoteLast), f (·.stp.canLast), f (·.stp.unheard), f (·.stp.firstBeacon),
    f (·.stp.bcnCycle), f (·.air), f (·.gns), f (·.chiselOut), f (·.ring), f (·.can), f (·.mtr), f (·.drk), f (·.dsp), f (·.pwr), f (·.peer),
    f (·.com), f (·.cyc.origin), f (·.cyc.next), f (·.cyc.floor), f (·.cyc.inCommit), f (·.cyc.defer), f (·.cyc.journal), f (·.cyc.feed),
    f (·.cyc.skipped), f (·.cyc.overrun), f (·.cyc.missed), f (·.cyc.flagCold), f (·.cyc.flagStep), f (·.cyc.flagTake), f (·.cyc.lastCommitAt),
    f (·.cyc.changedCov), f (·.cyc.covBase), KeptHost.of (f (·.host)), KeptRcd.of (f (·.rcd)), KeptTlg.of (f (·.tlg))⟩

@[simp] theorem laneStop_rest (d : Dev) (src action : Nat) (s : Scope) (loc : Nat) : (d.laneStop src action s loc).rest =
    { d.rest with stp := (d.laneStop src action s loc).stp, cyc := quietCyc (d.laneStop src action s loc).cyc } := by
  have h := (laneStop_spec d src action s loc).1
  generalize d.laneStop src action s loc = x at h ⊢
  have f {α : Type} (g : Dev → α) : g x.rest = g ({ d.rest with stp := { d.stp with lastEv := (x).stp.lastEv, lanes := (x).stp.lanes, unentered := (x).stp.unentered }, cyc := { quietCyc d.cyc with adm := (x).cyc.adm, seqs := (x).cyc.seqs, spilled := (x).cyc.spilled } }) := congrArg g h
  exact dev_ext (f (·.now)) rfl (f (·.snap)) (f (·.committedOnce)) rfl (f (·.staged)) (f (·.ctrls)) rfl (f (·.freeIx)) (f (·.tim)) rfl (f (·.host))
    (f (·.chutes)) (f (·.rcd)) rfl (f (·.air)) (f (·.gns)) (f (·.chiselOut)) (f (·.ring)) (f (·.can)) (f (·.mtr)) (f (·.drk)) (f (·.dsp))
    (f (·.tlg)) (f (·.pwr)) (f (·.peer)) (f (·.com))

theorem laneStop_reads (d : Dev) (src action : Nat) (s : Scope) (loc : Nat) : ∀ id jq, reportItem id = false → id ≠ P.CYC_EARLY_DROP → id ≠ P.CYC_ADMITTED → id ≠ P.CYC_LATE → id ≠ P.CYC_LATE_SPILL →
    (d.laneStop src action s loc).rd id jq = d.rd id jq ∧ (d.laneStop src action s loc).isSticky id jq = d.isSticky id jq ∧ (d.laneStop src action s loc).cf id jq = d.cf id jq := by
  intro id jq hr h0 h1 h2 h3
  have h := (laneStop_spec d src action s loc).2 id jq hr (by simp) (by simp [regKey_ne, h0, Ne.symm h0, h1, Ne.symm h1, h2, Ne.symm h2, h3, Ne.symm h3])
  have e : (d.laneStop src action s loc).staged = d.staged := by simp
  refine ⟨h.1, h.2, ?_⟩
  simp only [Dev.cf, e, h.1]

theorem laneStop_at (d : Dev) (src action : Nat) (s : Scope) (loc : Nat) : ∀ id jq, reportItem id = false  → regKey P.CYC_EARLY_DROP 0 ≠ regKey id jq → regKey P.CYC_ADMITTED 0 ≠ regKey id jq → regKey P.CYC_LATE 0 ≠ regKey id jq → regKey P.CYC_LATE_SPILL 0 ≠ regKey id jq →
    (d.laneStop src action s loc).rd id jq = d.rd id jq ∧ (d.laneStop src action s loc).isSticky id jq = d.isSticky id jq ∧ (d.laneStop src action s loc).cf id jq = d.cf id jq := by
  intro id jq hr h0 h1 h2 h3
  have h := (laneStop_spec d src action s loc).2 id jq hr (by simp) (by simp [h0, h1, h2, h3])
  have e : (d.laneStop src action s loc).staged = d.staged := by simp
  refine ⟨h.1, h.2, ?_⟩
  simp only [Dev.cf, e, h.1]

theorem itemsBut_laneStop {ids : List Nat} {ks : List (Nat × Nat)} (d e : Dev) (src action : Nat) (s : Scope) (loc : Nat) (m0 : P.CYC_EARLY_DROP ∈ ids ∨ (P.CYC_EARLY_DROP, 0) ∈ ks) (m1 : P.CYC_ADMITTED ∈ ids ∨ (P.CYC_ADMITTED, 0) ∈ ks) (m2 : P.CYC_LATE ∈ ids ∨ (P.CYC_LATE, 0) ∈ ks) (m3 : P.CYC_LATE_SPILL ∈ ids ∨ (P.CYC_LATE_SPILL, 0) ∈ ks) :
    ItemsBut ids ks (d.laneStop src action s loc) e ↔ ItemsBut ids ks d e :=
  itemsBut_congr ((laneStop_spec d src action s loc).2.mono (by simp) (by simp [m0, m1, m2, m3])) e

/-- The voter FAILED. -/
theorem voterFail_spec (d : Dev)  : (d.voterFail).rest = { d.rest with stp := { d.stp with lastEv := (d.voterFail).stp.lastEv, lanes := (d.voterFail).stp.lanes, unentered := (d.voterFail).stp.unentered }, peer := { d.peer with seatDriven := (d.voterFail).peer.seatDriven, yielding := (d.voterFail).peer.yielding, boundary := (d.voterFail).peer.boundary, takeGot := (d.voterFail).peer.takeGot }, cyc := { quietCyc d.cyc with adm := (d.voterFail).cyc.adm, seqs := (d.voterFail).cyc.seqs, spilled := (d.voterFail).cyc.spilled } } ∧
    ItemsBut [] [(P.STP_MODE, 0), (P.CYC_EARLY_DROP, 0), (P.CYC_ADMITTED, 0), (P.CYC_LATE, 0), (P.CYC_LATE_SPILL, 0), (P.DPX_GIVEUP_CAUSE, 0)] (d.voterFail) d := by
  unfold Dev.voterFail
  try simp only []
  repeat' split
  all_goals
    exact ⟨by first | (simp [itemsBut_self, -judge_rest, judge_rest', -timeState_rest, timeState_rest', -takeSeq_rest, takeSeq_rest', -hold_rest, hold_rest', -admit_rest, admit_rest', -input_rest, input_rest', -offer_rest, offer_rest', -stopNotice_rest, stopNotice_rest', -stopEvent_rest, stopEvent_rest', -giveUp_rest, giveUp_rest', -verdict_rest, verdict_rest', -engineFault_rest, engineFault_rest', -ctr_rest, ctr_rest', -beginReset_rest, beginReset_rest', -imageKeep_rest, imageKeep_rest', -imageCopy_rest, imageCopy_rest', -lastWords_rest, lastWords_rest', -placeRec_rest, placeRec_rest', -setTask_rest, setTask_rest', -setCore_rest, setCore_rest', -coreCount_rest, coreCount_rest', -dspRun_rest, dspRun_rest', -dspLeave_rest, dspLeave_rest', -dspHold_rest, dspHold_rest', -dspReady_rest, dspReady_rest', -dspWake_rest, dspWake_rest', -wakeAll_rest, wakeAll_rest', -packetIn_rest, packetIn_rest', -endSession_rest, endSession_rest', -laneInputs_rest, laneInputs_rest', -laneLatch_rest, laneLatch_rest', -laneStop_rest, laneStop_rest']; done) | (simp [itemsBut_self, -judge_rest, judge_rest', -timeState_rest, timeState_rest', -takeSeq_rest, takeSeq_rest', -hold_rest, hold_rest', -admit_rest, admit_rest', -input_rest, input_rest', -offer_rest, offer_rest', -stopNotice_rest, stopNotice_rest', -stopEvent_rest, stopEvent_rest', -giveUp_rest, giveUp_rest', -verdict_rest, verdict_rest', -engineFault_rest, engineFault_rest', -ctr_rest, ctr_rest', -beginReset_rest, beginReset_rest', -imageKeep_rest, imageKeep_rest', -imageCopy_rest, imageCopy_rest', -lastWords_rest, lastWords_rest', -placeRec_rest, placeRec_rest', -setTask_rest, setTask_rest', -setCore_rest, setCore_rest', -coreCount_rest, coreCount_rest', -dspRun_rest, dspRun_rest', -dspLeave_rest, dspLeave_rest', -dspHold_rest, dspHold_rest', -dspReady_rest, dspReady_rest', -dspWake_rest, dspWake_rest', -wakeAll_rest, wakeAll_rest', -packetIn_rest, packetIn_rest', -endSession_rest, endSession_rest', -laneInputs_rest, laneInputs_rest', -laneLatch_rest, laneLatch_rest', -laneStop_rest, laneStop_rest']; repeat' (first | rfl | apply And.intro)) | rfl, by simp [itemsBut_wr, itemsBut_inc, itemsBut_addW, itemsBut_maxTo, itemsBut_wrS, itemsBut_judge, itemsBut_timeState, itemsBut_takeSeq, itemsBut_countIn, itemsBut_hold, itemsBut_admit, itemsBut_input, itemsBut_offer, itemsBut_stopNotice, itemsBut_stopEvent, itemsBut_giveUp, itemsBut_verdict, itemsBut_engineFault, itemsBut_ctr, itemsBut_dspTrace, itemsBut_bypass, itemsBut_bypassHw, itemsBut_beginReset, itemsBut_mtrFlush, itemsBut_imageKeep, itemsBut_imageCopy, itemsBut_antState, itemsBut_judgeBias, itemsBut_chainState, itemsBut_showTile, itemsBut_putChan, itemsBut_freeChan, itemsBut_freeWhere, itemsBut_enableChan, itemsBut_place, itemsBut_placeAll, itemsBut_chainsEnable, itemsBut_startTracking, itemsBut_noteGain, itemsBut_stopTracking, itemsBut_snapTrigger, itemsBut_recorder, itemsBut_region, itemsBut_showRegion, itemsBut_lastWords, itemsBut_placeRec, itemsBut_flush, itemsBut_regionLost, itemsBut_setTask, itemsBut_setCore, itemsBut_coreCount, itemsBut_dspRun, itemsBut_dspLeave, itemsBut_dspHold, itemsBut_dspReady, itemsBut_dspWake, itemsBut_wakeAll, itemsBut_chuteTrace, itemsBut_chute, itemsBut_rewind, itemsBut_parityFail, itemsBut_packetIn, itemsBut_noteReply, itemsBut_sessionNote, itemsBut_endSession, itemsBut_laneInputs, itemsBut_laneLatch, itemsBut_laneStop]⟩

theorem voterFail_rest' (d : Dev)  : (d.voterFail).rest = { d.rest with stp := { d.stp with lastEv := (d.voterFail).stp.lastEv, lanes := (d.voterFail).stp.lanes, unentered := (d.voterFail).stp.unentered }, peer := { d.peer with seatDriven := (d.voterFail).peer.seatDriven, yielding := (d.voterFail).peer.yielding, boundary := (d.voterFail).peer.boundary, takeGot := (d.voterFail).peer.takeGot }, cyc := { quietCyc d.cyc with adm := (d.voterFail).cyc.adm, seqs := (d.voterFail).cyc.seqs, spilled := (d.voterFail).cyc.spilled } } := (voterFail_spec d ).1

@[simp] theorem voterFail_fields (d : Dev)  :
    (d.voterFail).now = d.now ∧ (d.voterFail).snap = d.snap ∧ (d.voterFail).committedOnce = d.committedOnce ∧ (d.voterFail).staged = d.staged ∧
    (d.voterFail).ctrls = d.ctrls ∧ (d.voterFail).freeIx = d.freeIx ∧ (d.voterFail).tim = d.tim ∧ (d.voterFail).chutes = d.chutes ∧
    (d.voterFail).stp.diff = d.stp.diff ∧ (d.voterFail).stp.allDiff = d.stp.allDiff ∧ (d.voterFail).stp.permits = d.stp.permits ∧
    (d.voterFail).stp.out = d.stp.out ∧ (d.voterFail).stp.level = d.stp.level ∧ (d.voterFail).stp.pulsePass = d.stp.pulsePass ∧
    (d.voterFail).stp.sawOpen = d.stp.sawOpen ∧ (d.voterFail).stp.sawClosed = d.stp.sawClosed ∧ (d.voterFail).stp.circuit = d.stp.circuit ∧
    (d.voterFail).stp.diffSince = d.stp.diffSince ∧ (d.voterFail).stp.outFault = d.stp.outFault ∧ (d.voterFail).stp.outOn = d.stp.outOn ∧
    (d.voterFail).stp.fbSince = d.stp.fbSince ∧ (d.voterFail).stp.verdict = d.stp.verdict ∧ (d.voterFail).stp.ownFail = d.stp.ownFail ∧
    (d.voterFail).stp.withheldBy = d.stp.withheldBy ∧ (d.voterFail).stp.series = d.stp.series ∧
    (d.voterFail).stp.pendingFence = d.stp.pendingFence ∧ (d.voterFail).stp.lastRecord = d.stp.lastRecord ∧
    (d.voterFail).stp.testsDone = d.stp.testsDone ∧ (d.voterFail).stp.canSilent = d.stp.canSilent ∧
    (d.voterFail).stp.remoteSilent = d.stp.remoteSilent ∧ (d.voterFail).stp.kept = d.stp.kept ∧ (d.voterFail).stp.mail = d.stp.mail ∧
    (d.voterFail).stp.remoteLast = d.stp.remoteLast ∧ (d.voterFail).stp.canLast = d.stp.canLast ∧ (d.voterFail).stp.unheard = d.stp.unheard ∧
    (d.voterFail).stp.firstBeacon = d.stp.firstBeacon ∧ (d.voterFail).stp.bcnCycle = d.stp.bcnCycle ∧ (d.voterFail).air = d.air ∧
    (d.voterFail).gns = d.gns ∧ (d.voterFail).chiselOut = d.chiselOut ∧ (d.voterFail).ring = d.ring ∧ (d.voterFail).can = d.can ∧
    (d.voterFail).mtr = d.mtr ∧ (d.voterFail).drk = d.drk ∧ (d.voterFail).dsp = d.dsp ∧ (d.voterFail).pwr = d.pwr ∧
    (d.voterFail).peer.seatHigh = d.peer.seatHigh ∧ (d.voterFail).peer.giveB = d.peer.giveB ∧ (d.voterFail).peer.takeSent = d.peer.takeSent ∧
    (d.voterFail).peer.hbSeq = d.peer.hbSeq ∧ (d.voterFail).peer.hbLastSeq = d.peer.hbLastSeq ∧ (d.voterFail).peer.hbLastAt = d.peer.hbLastAt ∧
    (d.voterFail).peer.restored = d.peer.restored ∧ (d.voterFail).peer.trained = d.peer.trained ∧ (d.voterFail).peer.key = d.peer.key ∧
    (d.voterFail).peer.peerTenure = d.peer.peerTenure ∧ (d.voterFail).peer.peerMode = d.peer.peerMode ∧
    (d.voterFail).peer.peerCycle = d.peer.peerCycle ∧ (d.voterFail).peer.peerOffset = d.peer.peerOffset ∧
    (d.voterFail).peer.digestSkip = d.peer.digestSkip ∧ (d.voterFail).peer.lastCopy = d.peer.lastCopy ∧
    (d.voterFail).peer.waitCheckpoint = d.peer.waitCheckpoint ∧ (d.voterFail).peer.matchRun = d.peer.matchRun ∧
    (d.voterFail).peer.mismatchRun = d.peer.mismatchRun ∧ (d.voterFail).peer.holdFrom = d.peer.holdFrom ∧
    (d.voterFail).peer.holdMismatch = d.peer.holdMismatch ∧ (d.voterFail).peer.claim = d.peer.claim ∧
    (d.voterFail).peer.refused = d.peer.refused ∧ (d.voterFail).peer.silentAt = d.peer.silentAt ∧
    (d.voterFail).peer.restarts = d.peer.restarts ∧ (d.voterFail).peer.beaconCycles = d.peer.beaconCycles ∧
    (d.voterFail).peer.foreign = d.peer.foreign ∧ (d.voterFail).peer.fwd = d.peer.fwd ∧ (d.voterFail).peer.lossLatch = d.peer.lossLatch ∧
    (d.voterFail).peer.lastState = d.peer.lastState ∧ (d.voterFail).com = d.com ∧ (d.voterFail).cyc.origin = d.cyc.origin ∧
    (d.voterFail).cyc.next = d.cyc.next ∧ (d.voterFail).cyc.floor = d.cyc.floor ∧ (d.voterFail).cyc.inCommit = d.cyc.inCommit ∧
    (d.voterFail).cyc.defer = d.cyc.defer ∧ (d.voterFail).cyc.journal = d.cyc.journal ∧ (d.voterFail).cyc.feed = d.cyc.feed ∧
    (d.voterFail).cyc.skipped = d.cyc.skipped ∧ (d.voterFail).cyc.overrun = d.cyc.overrun ∧ (d.voterFail).cyc.missed = d.cyc.missed ∧
    (d.voterFail).cyc.flagCold = d.cyc.flagCold ∧ (d.voterFail).cyc.flagStep = d.cyc.flagStep ∧ (d.voterFail).cyc.flagTake = d.cyc.flagTake ∧
    (d.voterFail).cyc.lastCommitAt = d.cyc.lastCommitAt ∧ (d.voterFail).cyc.changedCov = d.cyc.changedCov ∧
    (d.voterFail).cyc.covBase = d.cyc.covBase ∧ KeptHost (d.voterFail).host d.host ∧ KeptRcd (d.voterFail).rcd d.rcd ∧
    KeptTlg (d.voterFail).tlg d.tlg := by
  have h := (voterFail_spec d ).1
  generalize d.voterFail = x at h ⊢
  have f {α : Type} (g : Dev → α) : g x.rest = g ({ d.rest with stp := { d.stp with lastEv := (x).stp.lastEv, lanes := (x).stp.lanes, unentered := (x).stp.unentered }, peer := { d.peer with seatDriven := (x).peer.seatDriven, yielding := (x).peer.yielding, boundary := (x).peer.boundary, takeGot := (x).peer.takeGot }, cyc := { quietCyc d.cyc with adm := (x).cyc.adm, seqs := (x).cyc.seqs, spilled := (x).cyc.spilled } }) := congrArg g h
  exact ⟨f (·.now), f (·.snap), f (·.committedOnce), f (·.staged), f (·.ctrls), f (·.freeIx), f (·.tim), f (·.chutes), f (·.stp.diff),
    f (·.stp.allDiff), f (·.stp.permits), f (·.stp.out), f (·.stp.level), f (·.stp.pulsePass), f (·.stp.sawOpen), f (·.stp.sawClosed),
    f (·.stp.circuit), f (·.stp.diffSince), f (·.stp.outFault), f (·.stp.outOn), f (·.stp.fbSince), f (·.stp.verdict), f (·.stp.ownFail),
    f (·.stp.withheldBy), f (·.stp.series), f (·.stp.pendingFence), f (·.stp.lastRecord), f (·.stp.testsDone), f (·.stp.canSilent),
    f (·.stp.remoteSilent), f (·.stp.kept), f (·.stp.mail), f (·.stp.remoteLast), f (·.stp.canLast), f (·.stp.unheard), f (·.stp.firstBeacon),
    f (·.stp.bcnCycle), f (·.air), f (·.gns), f (·.chiselOut), f (·.ring), f (·.can), f (·.mtr), f (·.drk), f (·.dsp), f (·.pwr),
    f (·.peer.seatHigh), f (·.peer.giveB), f (·.peer.takeSent), f (·.peer.hbSeq), f (·.peer.hbLastSeq), f (·.peer.hbLastAt),
    f (·.peer.restored), f (·.peer.trained), f (·.peer.key), f (·.peer.peerTenure), f (·.peer.peerMode), f (·.peer.peerCycle),
    f (·.peer.peerOffset), f (·.peer.digestSkip), f (·.peer.lastCopy), f (·.peer.waitCheckpoint), f (·.peer.matchRun), f (·.peer.mismatchRun),
    f (·.peer.holdFrom), f (·.peer.holdMismatch), f (·.peer.claim), f (·.peer.refused), f (·.peer.silentAt), f (·.peer.restarts),
    f (·.peer.beaconCycles), f (·.peer.foreign), f (·.peer.fwd), f (·.peer.lossLatch), f (·.peer.lastState), f (·.com), f (·.cyc.origin),
    f (·.cyc.next), f (·.cyc.floor), f (·.cyc.inCommit), f (·.cyc.defer), f (·.cyc.journal), f (·.cyc.feed), f (·.cyc.skipped),
    f (·.cyc.overrun), f (·.cyc.missed), f (·.cyc.flagCold), f (·.cyc.flagStep), f (·.cyc.flagTake), f (·.cyc.lastCommitAt),
    f (·.cyc.changedCov), f (·.cyc.covBase), KeptHost.of (f (·.host)), KeptRcd.of (f (·.rcd)), KeptTlg.of (f (·.tlg))⟩

@[simp] theorem voterFail_rest (d : Dev)  : (d.voterFail).rest =
    { d.rest with stp := (d.voterFail).stp, peer := (d.voterFail).peer, cyc := quietCyc (d.voterFail).cyc } := by
  have h := (voterFail_spec d ).1
  generalize d.voterFail = x at h ⊢
  have f {α : Type} (g : Dev → α) : g x.rest = g ({ d.rest with stp := { d.stp with lastEv := (x).stp.lastEv, lanes := (x).stp.lanes, unentered := (x).stp.unentered }, peer := { d.peer with seatDriven := (x).peer.seatDriven, yielding := (x).peer.yielding, boundary := (x).peer.boundary, takeGot := (x).peer.takeGot }, cyc := { quietCyc d.cyc with adm := (x).cyc.adm, seqs := (x).cyc.seqs, spilled := (x).cyc.spilled } }) := congrArg g h
  exact dev_ext (f (·.now)) rfl (f (·.snap)) (f (·.committedOnce)) rfl (f (·.staged)) (f (·.ctrls)) rfl (f (·.freeIx)) (f (·.tim)) rfl (f (·.host))
    (f (·.chutes)) (f (·.rcd)) rfl (f (·.air)) (f (·.gns)) (f (·.chiselOut)) (f (·.ring)) (f (·.can)) (f (·.mtr)) (f (·.drk)) (f (·.dsp))
    (f (·.tlg)) (f (·.pwr)) rfl (f (·.com))

theorem voterFail_reads (d : Dev)  : ∀ id jq, reportItem id = false → id ≠ P.STP_MODE → id ≠ P.CYC_EARLY_DROP → id ≠ P.CYC_ADMITTED → id ≠ P.CYC_LATE → id ≠ P.CYC_LATE_SPILL → id ≠ P.DPX_GIVEUP_CAUSE →
    (d.voterFail).rd id jq = d.rd id jq ∧ (d.voterFail).isSticky id jq = d.isSticky id jq ∧ (d.voterFail).cf id jq = d.cf id jq := by
  intro id jq hr h0 h1 h2 h3 h4 h5
  have h := (voterFail_spec d ).2 id jq hr (by simp) (by simp [regKey_ne, h0, Ne.symm h0, h1, Ne.symm h1, h2, Ne.symm h2, h3, Ne.symm h3, h4, Ne.symm h4, h5, Ne.symm h5])
  have e : (d.voterFail).staged = d.staged := by simp
  refine ⟨h.1, h.2, ?_⟩
  simp only [Dev.cf, e, h.1]

theorem voterFail_at (d : Dev)  : ∀ id jq, reportItem id = false  → regKey P.STP_MODE 0 ≠ regKey id jq → regKey P.CYC_EARLY_DROP 0 ≠ regKey id jq → regKey P.CYC_ADMITTED 0 ≠ regKey id jq → regKey P.CYC_LATE 0 ≠ regKey id jq → regKey P.CYC_LATE_SPILL 0 ≠ regKey id jq → regKey P.DPX_GIVEUP_CAUSE 0 ≠ regKey id jq →
    (d.voterFail).rd id jq = d.rd id jq ∧ (d.voterFail).isSticky id jq = d.isSticky id jq ∧ (d.voterFail).cf id jq = d.cf id jq := by
  intro id jq hr h0 h1 h2 h3 h4 h5
  have h := (voterFail_spec d ).2 id jq hr (by simp) (by simp [h0, h1, h2, h3, h4, h5])
  have e : (d.voterFail).staged = d.staged := by simp
  refine ⟨h.1, h.2, ?_⟩
  simp only [Dev.cf, e, h.1]

theorem itemsBut_voterFail {ids : List Nat} {ks : List (Nat × Nat)} (d e : Dev)  (m0 : P.STP_MODE ∈ ids ∨ (P.STP_MODE, 0) ∈ ks) (m1 : P.CYC_EARLY_DROP ∈ ids ∨ (P.CYC_EARLY_DROP, 0) ∈ ks) (m2 : P.CYC_ADMITTED ∈ ids ∨ (P.CYC_ADMITTED, 0) ∈ ks) (m3 : P.CYC_LATE ∈ ids ∨ (P.CYC_LATE, 0) ∈ ks) (m4 : P.CYC_LATE_SPILL ∈ ids ∨ (P.CYC_LATE_SPILL, 0) ∈ ks) (m5 : P.DPX_GIVEUP_CAUSE ∈ ids ∨ (P.DPX_GIVEUP_CAUSE, 0) ∈ ks) :
    ItemsBut ids ks (d.voterFail) e ↔ ItemsBut ids ks d e :=
  itemsBut_congr ((voterFail_spec d ).2.mono (by simp) (by simp [m0, m1, m2, m3, m4, m5])) e

/-- A lane isolated. -/
theorem isolate_spec (d : Dev) (i : Nat) : (d.isolate i).rest = d.rest ∧
    ItemsBut [] [(P.STP_LANE_STATE, i), (P.STP_MODE, 0), (P.STP_ISOLATIONS, 0)] (d.isolate i) d := by
  unfold Dev.isolate
  repeat' split
  all_goals
    exact ⟨by first | (simp [itemsBut_self, -judge_rest, judge_rest', -timeState_rest, timeState_rest', -takeSeq_rest, takeSeq_rest', -hold_rest, hold_rest', -admit_rest, admit_rest', -input_rest, input_rest', -offer_rest, offer_rest', -stopNotice_rest, stopNotice_rest', -stopEvent_rest, stopEvent_rest', -giveUp_rest, giveUp_rest', -verdict_rest, verdict_rest', -engineFault_rest, engineFault_rest', -ctr_rest, ctr_rest', -beginReset_rest, beginReset_rest', -imageKeep_rest, imageKeep_rest', -imageCopy_rest, imageCopy_rest', -lastWords_rest, lastWords_rest', -placeRec_rest, placeRec_rest', -setTask_rest, setTask_rest', -setCore_rest, setCore_rest', -coreCount_rest, coreCount_rest', -dspRun_rest, dspRun_rest', -dspLeave_rest, dspLeave_rest', -dspHold_rest, dspHold_rest', -dspReady_rest, dspReady_rest', -dspWake_rest, dspWake_rest', -wakeAll_rest, wakeAll_rest', -packetIn_rest, packetIn_rest', -endSession_rest, endSession_rest', -laneInputs_rest, laneInputs_rest', -laneLatch_rest, laneLatch_rest', -laneStop_rest, laneStop_rest', -voterFail_rest, voterFail_rest']; done) | (simp [itemsBut_self, -judge_rest, judge_rest', -timeState_rest, timeState_rest', -takeSeq_rest, takeSeq_rest', -hold_rest, hold_rest', -admit_rest, admit_rest', -input_rest, input_rest', -offer_rest, offer_rest', -stopNotice_rest, stopNotice_rest', -stopEvent_rest, stopEvent_rest', -giveUp_rest, giveUp_rest', -verdict_rest, verdict_rest', -engineFault_rest, engineFault_rest', -ctr_rest, ctr_rest', -beginReset_rest, beginReset_rest', -imageKeep_rest, imageKeep_rest', -imageCopy_rest, imageCopy_rest', -lastWords_rest, lastWords_rest', -placeRec_rest, placeRec_rest', -setTask_rest, setTask_rest', -setCore_rest, setCore_rest', -coreCount_rest, coreCount_rest', -dspRun_rest, dspRun_rest', -dspLeave_rest, dspLeave_rest', -dspHold_rest, dspHold_rest', -dspReady_rest, dspReady_rest', -dspWake_rest, dspWake_rest', -wakeAll_rest, wakeAll_rest', -packetIn_rest, packetIn_rest', -endSession_rest, endSession_rest', -laneInputs_rest, laneInputs_rest', -laneLatch_rest, laneLatch_rest', -laneStop_rest, laneStop_rest', -voterFail_rest, voterFail_rest']; repeat' (first | rfl | apply And.intro)) | rfl, by simp [itemsBut_wr, itemsBut_inc, itemsBut_addW, itemsBut_maxTo, itemsBut_wrS, itemsBut_judge, itemsBut_timeState, itemsBut_takeSeq, itemsBut_countIn, itemsBut_hold, itemsBut_admit, itemsBut_input, itemsBut_offer, itemsBut_stopNotice, itemsBut_stopEvent, itemsBut_giveUp, itemsBut_verdict, itemsBut_engineFault, itemsBut_ctr, itemsBut_dspTrace, itemsBut_bypass, itemsBut_bypassHw, itemsBut_beginReset, itemsBut_mtrFlush, itemsBut_imageKeep, itemsBut_imageCopy, itemsBut_antState, itemsBut_judgeBias, itemsBut_chainState, itemsBut_showTile, itemsBut_putChan, itemsBut_freeChan, itemsBut_freeWhere, itemsBut_enableChan, itemsBut_place, itemsBut_placeAll, itemsBut_chainsEnable, itemsBut_startTracking, itemsBut_noteGain, itemsBut_stopTracking, itemsBut_snapTrigger, itemsBut_recorder, itemsBut_region, itemsBut_showRegion, itemsBut_lastWords, itemsBut_placeRec, itemsBut_flush, itemsBut_regionLost, itemsBut_setTask, itemsBut_setCore, itemsBut_coreCount, itemsBut_dspRun, itemsBut_dspLeave, itemsBut_dspHold, itemsBut_dspReady, itemsBut_dspWake, itemsBut_wakeAll, itemsBut_chuteTrace, itemsBut_chute, itemsBut_rewind, itemsBut_parityFail, itemsBut_packetIn, itemsBut_noteReply, itemsBut_sessionNote, itemsBut_endSession, itemsBut_laneInputs, itemsBut_laneLatch, itemsBut_laneStop, itemsBut_voterFail]⟩

@[simp] theorem isolate_fields (d : Dev) (i : Nat) :
    (d.isolate i).now = d.now ∧ (d.isolate i).snap = d.snap ∧ (d.isolate i).committedOnce = d.committedOnce ∧ (d.isolate i).staged = d.staged ∧
    (d.isolate i).ctrls = d.ctrls ∧ (d.isolate i).freeIx = d.freeIx ∧ (d.isolate i).tim = d.tim ∧ (d.isolate i).chutes = d.chutes ∧
    (d.isolate i).stp = d.stp ∧ (d.isolate i).air = d.air ∧ (d.isolate i).gns = d.gns ∧ (d.isolate i).chiselOut = d.chiselOut ∧
    (d.isolate i).ring = d.ring ∧ (d.isolate i).can = d.can ∧ (d.isolate i).mtr = d.mtr ∧ (d.isolate i).drk = d.drk ∧
    (d.isolate i).dsp = d.dsp ∧ (d.isolate i).pwr = d.pwr ∧ (d.isolate i).peer = d.peer ∧ (d.isolate i).com = d.com ∧
    KeptCyc (d.isolate i).cyc d.cyc ∧ KeptHost (d.isolate i).host d.host ∧ KeptRcd (d.isolate i).rcd d.rcd ∧ KeptTlg (d.isolate i).tlg d.tlg := by
  have h := (isolate_spec d i).1
  generalize d.isolate i = x at h ⊢
  have f {α : Type} (g : Dev → α) : g x.rest = g (d.rest) := congrArg g h
  exact ⟨f (·.now), f (·.snap), f (·.committedOnce), f (·.staged), f (·.ctrls), f (·.freeIx), f (·.tim), f (·.chutes), f (·.stp), f (·.air),
    f (·.gns), f (·.chiselOut), f (·.ring), f (·.can), f (·.mtr), f (·.drk), f (·.dsp), f (·.pwr), f (·.peer), f (·.com),
    KeptCyc.of (f (·.cyc)), KeptHost.of (f (·.host)), KeptRcd.of (f (·.rcd)), KeptTlg.of (f (·.tlg))⟩

@[simp] theorem isolate_rest (d : Dev) (i : Nat) : (d.isolate i).rest =
    d.rest := by
  have h := (isolate_spec d i).1
  generalize d.isolate i = x at h ⊢
  have f {α : Type} (g : Dev → α) : g x.rest = g (d.rest) := congrArg g h
  exact dev_ext (f (·.now)) rfl (f (·.snap)) (f (·.committedOnce)) rfl (f (·.staged)) (f (·.ctrls)) rfl (f (·.freeIx)) (f (·.tim)) (f (·.cyc)) (f (·.host))
    (f (·.chutes)) (f (·.rcd)) (f (·.stp)) (f (·.air)) (f (·.gns)) (f (·.chiselOut)) (f (·.ring)) (f (·.can)) (f (·.mtr)) (f (·.drk))
    (f (·.dsp)) (f (·.tlg)) (f (·.pwr)) (f (·.peer)) (f (·.com))

theorem isolate_reads (d : Dev) (i : Nat) : ∀ id jq, reportItem id = false → id ≠ P.STP_LANE_STATE → id ≠ P.STP_MODE → id ≠ P.STP_ISOLATIONS →
    (d.isolate i).rd id jq = d.rd id jq ∧ (d.isolate i).isSticky id jq = d.isSticky id jq ∧ (d.isolate i).cf id jq = d.cf id jq := by
  intro id jq hr h0 h1 h2
  have h := (isolate_spec d i).2 id jq hr (by simp) (by simp [regKey_ne, h0, Ne.symm h0, h1, Ne.symm h1, h2, Ne.symm h2])
  have e : (d.isolate i).staged = d.staged := by simp
  refine ⟨h.1, h.2, ?_⟩
  simp only [Dev.cf, e, h.1]

theorem isolate_at (d : Dev) (i : Nat) : ∀ id jq, reportItem id = false  → regKey P.STP_LANE_STATE i ≠ regKey id jq → regKey P.STP_MODE 0 ≠ regKey id jq → regKey P.STP_ISOLATIONS 0 ≠ regKey id jq →
    (d.isolate i).rd id jq = d.rd id jq ∧ (d.isolate i).isSticky id jq = d.isSticky id jq ∧ (d.isolate i).cf id jq = d.cf id jq := by
  intro id jq hr h0 h1 h2
  have h := (isolate_spec d i).2 id jq hr (by simp) (by simp [h0, h1, h2])
  have e : (d.isolate i).staged = d.staged := by simp
  refine ⟨h.1, h.2, ?_⟩
  simp only [Dev.cf, e, h.1]

theorem itemsBut_isolate {ids : List Nat} {ks : List (Nat × Nat)} (d e : Dev) (i : Nat) (m0 : P.STP_LANE_STATE ∈ ids ∨ (P.STP_LANE_STATE, i) ∈ ks) (m1 : P.STP_MODE ∈ ids ∨ (P.STP_MODE, 0) ∈ ks) (m2 : P.STP_ISOLATIONS ∈ ids ∨ (P.STP_ISOLATIONS, 0) ∈ ks) :
    ItemsBut ids ks (d.isolate i) e ↔ ItemsBut ids ks d e :=
  itemsBut_congr ((isolate_spec d i).2.mono (by simp) (by simp [m0, m1, m2])) e

/-- An input's level shown. -/
theorem showLevel_spec (d : Dev) (i : Nat) : (d.showLevel i).rest = d.rest ∧
    ItemsBut [] [(P.STP_ESTOP_LEVEL, i)] (d.showLevel i) d := by
  unfold Dev.showLevel
  repeat' split
  all_goals
    exact ⟨by first | (simp [itemsBut_self, -judge_rest, judge_rest', -timeState_rest, timeState_rest', -takeSeq_rest, takeSeq_rest', -hold_rest, hold_rest', -admit_rest, admit_rest', -input_rest, input_rest', -offer_rest, offer_rest', -stopNotice_rest, stopNotice_rest', -stopEvent_rest, stopEvent_rest', -giveUp_rest, giveUp_rest', -verdict_rest, verdict_rest', -engineFault_rest, engineFault_rest', -ctr_rest, ctr_rest', -beginReset_rest, beginReset_rest', -imageKeep_rest, imageKeep_rest', -imageCopy_rest, imageCopy_rest', -lastWords_rest, lastWords_rest', -placeRec_rest, placeRec_rest', -setTask_rest, setTask_rest', -setCore_rest, setCore_rest', -coreCount_rest, coreCount_rest', -dspRun_rest, dspRun_rest', -dspLeave_rest, dspLeave_rest', -dspHold_rest, dspHold_rest', -dspReady_rest, dspReady_rest', -dspWake_rest, dspWake_rest', -wakeAll_rest, wakeAll_rest', -packetIn_rest, packetIn_rest', -endSession_rest, endSession_rest', -laneInputs_rest, laneInputs_rest', -laneLatch_rest, laneLatch_rest', -laneStop_rest, laneStop_rest', -voterFail_rest, voterFail_rest']; done) | (simp [itemsBut_self, -judge_rest, judge_rest', -timeState_rest, timeState_rest', -takeSeq_rest, takeSeq_rest', -hold_rest, hold_rest', -admit_rest, admit_rest', -input_rest, input_rest', -offer_rest, offer_rest', -stopNotice_rest, stopNotice_rest', -stopEvent_rest, stopEvent_rest', -giveUp_rest, giveUp_rest', -verdict_rest, verdict_rest', -engineFault_rest, engineFault_rest', -ctr_rest, ctr_rest', -beginReset_rest, beginReset_rest', -imageKeep_rest, imageKeep_rest', -imageCopy_rest, imageCopy_rest', -lastWords_rest, lastWords_rest', -placeRec_rest, placeRec_rest', -setTask_rest, setTask_rest', -setCore_rest, setCore_rest', -coreCount_rest, coreCount_rest', -dspRun_rest, dspRun_rest', -dspLeave_rest, dspLeave_rest', -dspHold_rest, dspHold_rest', -dspReady_rest, dspReady_rest', -dspWake_rest, dspWake_rest', -wakeAll_rest, wakeAll_rest', -packetIn_rest, packetIn_rest', -endSession_rest, endSession_rest', -laneInputs_rest, laneInputs_rest', -laneLatch_rest, laneLatch_rest', -laneStop_rest, laneStop_rest', -voterFail_rest, voterFail_rest']; repeat' (first | rfl | apply And.intro)) | rfl, by simp [itemsBut_wr, itemsBut_inc, itemsBut_addW, itemsBut_maxTo, itemsBut_wrS, itemsBut_judge, itemsBut_timeState, itemsBut_takeSeq, itemsBut_countIn, itemsBut_hold, itemsBut_admit, itemsBut_input, itemsBut_offer, itemsBut_stopNotice, itemsBut_stopEvent, itemsBut_giveUp, itemsBut_verdict, itemsBut_engineFault, itemsBut_ctr, itemsBut_dspTrace, itemsBut_bypass, itemsBut_bypassHw, itemsBut_beginReset, itemsBut_mtrFlush, itemsBut_imageKeep, itemsBut_imageCopy, itemsBut_antState, itemsBut_judgeBias, itemsBut_chainState, itemsBut_showTile, itemsBut_putChan, itemsBut_freeChan, itemsBut_freeWhere, itemsBut_enableChan, itemsBut_place, itemsBut_placeAll, itemsBut_chainsEnable, itemsBut_startTracking, itemsBut_noteGain, itemsBut_stopTracking, itemsBut_snapTrigger, itemsBut_recorder, itemsBut_region, itemsBut_showRegion, itemsBut_lastWords, itemsBut_placeRec, itemsBut_flush, itemsBut_regionLost, itemsBut_setTask, itemsBut_setCore, itemsBut_coreCount, itemsBut_dspRun, itemsBut_dspLeave, itemsBut_dspHold, itemsBut_dspReady, itemsBut_dspWake, itemsBut_wakeAll, itemsBut_chuteTrace, itemsBut_chute, itemsBut_rewind, itemsBut_parityFail, itemsBut_packetIn, itemsBut_noteReply, itemsBut_sessionNote, itemsBut_endSession, itemsBut_laneInputs, itemsBut_laneLatch, itemsBut_laneStop, itemsBut_voterFail, itemsBut_isolate]⟩

@[simp] theorem showLevel_fields (d : Dev) (i : Nat) :
    (d.showLevel i).now = d.now ∧ (d.showLevel i).snap = d.snap ∧ (d.showLevel i).committedOnce = d.committedOnce ∧
    (d.showLevel i).staged = d.staged ∧ (d.showLevel i).ctrls = d.ctrls ∧ (d.showLevel i).freeIx = d.freeIx ∧ (d.showLevel i).tim = d.tim ∧
    (d.showLevel i).chutes = d.chutes ∧ (d.showLevel i).stp = d.stp ∧ (d.showLevel i).air = d.air ∧ (d.showLevel i).gns = d.gns ∧
    (d.showLevel i).chiselOut = d.chiselOut ∧ (d.showLevel i).ring = d.ring ∧ (d.showLevel i).can = d.can ∧ (d.showLevel i).mtr = d.mtr ∧
    (d.showLevel i).drk = d.drk ∧ (d.showLevel i).dsp = d.dsp ∧ (d.showLevel i).pwr = d.pwr ∧ (d.showLevel i).peer = d.peer ∧
    (d.showLevel i).com = d.com ∧ KeptCyc (d.showLevel i).cyc d.cyc ∧ KeptHost (d.showLevel i).host d.host ∧ KeptRcd (d.showLevel i).rcd d.rcd ∧
    KeptTlg (d.showLevel i).tlg d.tlg := by
  have h := (showLevel_spec d i).1
  generalize d.showLevel i = x at h ⊢
  have f {α : Type} (g : Dev → α) : g x.rest = g (d.rest) := congrArg g h
  exact ⟨f (·.now), f (·.snap), f (·.committedOnce), f (·.staged), f (·.ctrls), f (·.freeIx), f (·.tim), f (·.chutes), f (·.stp), f (·.air),
    f (·.gns), f (·.chiselOut), f (·.ring), f (·.can), f (·.mtr), f (·.drk), f (·.dsp), f (·.pwr), f (·.peer), f (·.com),
    KeptCyc.of (f (·.cyc)), KeptHost.of (f (·.host)), KeptRcd.of (f (·.rcd)), KeptTlg.of (f (·.tlg))⟩

@[simp] theorem showLevel_rest (d : Dev) (i : Nat) : (d.showLevel i).rest =
    d.rest := by
  have h := (showLevel_spec d i).1
  generalize d.showLevel i = x at h ⊢
  have f {α : Type} (g : Dev → α) : g x.rest = g (d.rest) := congrArg g h
  exact dev_ext (f (·.now)) rfl (f (·.snap)) (f (·.committedOnce)) rfl (f (·.staged)) (f (·.ctrls)) rfl (f (·.freeIx)) (f (·.tim)) (f (·.cyc)) (f (·.host))
    (f (·.chutes)) (f (·.rcd)) (f (·.stp)) (f (·.air)) (f (·.gns)) (f (·.chiselOut)) (f (·.ring)) (f (·.can)) (f (·.mtr)) (f (·.drk))
    (f (·.dsp)) (f (·.tlg)) (f (·.pwr)) (f (·.peer)) (f (·.com))

theorem showLevel_reads (d : Dev) (i : Nat) : ∀ id jq, reportItem id = false → id ≠ P.STP_ESTOP_LEVEL →
    (d.showLevel i).rd id jq = d.rd id jq ∧ (d.showLevel i).isSticky id jq = d.isSticky id jq ∧ (d.showLevel i).cf id jq = d.cf id jq := by
  intro id jq hr h0
  have h := (showLevel_spec d i).2 id jq hr (by simp) (by simp [regKey_ne, h0, Ne.symm h0])
  have e : (d.showLevel i).staged = d.staged := by simp
  refine ⟨h.1, h.2, ?_⟩
  simp only [Dev.cf, e, h.1]

theorem showLevel_at (d : Dev) (i : Nat) : ∀ id jq, reportItem id = false  → regKey P.STP_ESTOP_LEVEL i ≠ regKey id jq →
    (d.showLevel i).rd id jq = d.rd id jq ∧ (d.showLevel i).isSticky id jq = d.isSticky id jq ∧ (d.showLevel i).cf id jq = d.cf id jq := by
  intro id jq hr h0
  have h := (showLevel_spec d i).2 id jq hr (by simp) (by simp [h0])
  have e : (d.showLevel i).staged = d.staged := by simp
  refine ⟨h.1, h.2, ?_⟩
  simp only [Dev.cf, e, h.1]

theorem itemsBut_showLevel {ids : List Nat} {ks : List (Nat × Nat)} (d e : Dev) (i : Nat) (m0 : P.STP_ESTOP_LEVEL ∈ ids ∨ (P.STP_ESTOP_LEVEL, i) ∈ ks) :
    ItemsBut ids ks (d.showLevel i) e ↔ ItemsBut ids ks d e :=
  itemsBut_congr ((showLevel_spec d i).2.mono (by simp) (by simp [m0])) e

/-- A circuit fault. -/
theorem circuitFault_spec (d : Dev) (i cause : Nat) : (d.circuitFault i cause).rest = { d.rest with stp := { d.stp with lastEv := (d.circuitFault i cause).stp.lastEv, lanes := (d.circuitFault i cause).stp.lanes, unentered := (d.circuitFault i cause).stp.unentered, pulsePass := (d.circuitFault i cause).stp.pulsePass, circuit := (d.circuitFault i cause).stp.circuit, sawOpen := (d.circuitFault i cause).stp.sawOpen, sawClosed := (d.circuitFault i cause).stp.sawClosed }, cyc := { quietCyc d.cyc with adm := (d.circuitFault i cause).cyc.adm, seqs := (d.circuitFault i cause).cyc.seqs, spilled := (d.circuitFault i cause).cyc.spilled } } ∧
    ItemsBut [] [(P.STP_TP_FAULTS, i), (P.CYC_EARLY_DROP, 0), (P.CYC_ADMITTED, 0), (P.CYC_LATE, 0), (P.CYC_LATE_SPILL, 0)] (d.circuitFault i cause) d := by
  unfold Dev.circuitFault
  try simp only []
  repeat' split
  all_goals
    exact ⟨by first | (simp [itemsBut_self, -judge_rest, judge_rest', -timeState_rest, timeState_rest', -takeSeq_rest, takeSeq_rest', -hold_rest, hold_rest', -admit_rest, admit_rest', -input_rest, input_rest', -offer_rest, offer_rest', -stopNotice_rest, stopNotice_rest', -stopEvent_rest, stopEvent_rest', -giveUp_rest, giveUp_rest', -verdict_rest, verdict_rest', -engineFault_rest, engineFault_rest', -ctr_rest, ctr_rest', -beginReset_rest, beginReset_rest', -imageKeep_rest, imageKeep_rest', -imageCopy_rest, imageCopy_rest', -lastWords_rest, lastWords_rest', -placeRec_rest, placeRec_rest', -setTask_rest, setTask_rest', -setCore_rest, setCore_rest', -coreCount_rest, coreCount_rest', -dspRun_rest, dspRun_rest', -dspLeave_rest, dspLeave_rest', -dspHold_rest, dspHold_rest', -dspReady_rest, dspReady_rest', -dspWake_rest, dspWake_rest', -wakeAll_rest, wakeAll_rest', -packetIn_rest, packetIn_rest', -endSession_rest, endSession_rest', -laneInputs_rest, laneInputs_rest', -laneLatch_rest, laneLatch_rest', -laneStop_rest, laneStop_rest', -voterFail_rest, voterFail_rest']; done) | (simp [itemsBut_self, -judge_rest, judge_rest', -timeState_rest, timeState_rest', -takeSeq_rest, takeSeq_rest', -hold_rest, hold_rest', -admit_rest, admit_rest', -input_rest, input_rest', -offer_rest, offer_rest', -stopNotice_rest, stopNotice_rest', -stopEvent_rest, stopEvent_rest', -giveUp_rest, giveUp_rest', -verdict_rest, verdict_rest', -engineFault_rest, engineFault_rest', -ctr_rest, ctr_rest', -beginReset_rest, beginReset_rest', -imageKeep_rest, imageKeep_rest', -imageCopy_rest, imageCopy_rest', -lastWords_rest, lastWords_rest', -placeRec_rest, placeRec_rest', -setTask_rest, setTask_rest', -setCore_rest, setCore_rest', -coreCount_rest, coreCount_rest', -dspRun_rest, dspRun_rest', -dspLeave_rest, dspLeave_rest', -dspHold_rest, dspHold_rest', -dspReady_rest, dspReady_rest', -dspWake_rest, dspWake_rest', -wakeAll_rest, wakeAll_rest', -packetIn_rest, packetIn_rest', -endSession_rest, endSession_rest', -laneInputs_rest, laneInputs_rest', -laneLatch_rest, laneLatch_rest', -laneStop_rest, laneStop_rest', -voterFail_rest, voterFail_rest']; repeat' (first | rfl | apply And.intro)) | rfl, by simp [itemsBut_wr, itemsBut_inc, itemsBut_addW, itemsBut_maxTo, itemsBut_wrS, itemsBut_judge, itemsBut_timeState, itemsBut_takeSeq, itemsBut_countIn, itemsBut_hold, itemsBut_admit, itemsBut_input, itemsBut_offer, itemsBut_stopNotice, itemsBut_stopEvent, itemsBut_giveUp, itemsBut_verdict, itemsBut_engineFault, itemsBut_ctr, itemsBut_dspTrace, itemsBut_bypass, itemsBut_bypassHw, itemsBut_beginReset, itemsBut_mtrFlush, itemsBut_imageKeep, itemsBut_imageCopy, itemsBut_antState, itemsBut_judgeBias, itemsBut_chainState, itemsBut_showTile, itemsBut_putChan, itemsBut_freeChan, itemsBut_freeWhere, itemsBut_enableChan, itemsBut_place, itemsBut_placeAll, itemsBut_chainsEnable, itemsBut_startTracking, itemsBut_noteGain, itemsBut_stopTracking, itemsBut_snapTrigger, itemsBut_recorder, itemsBut_region, itemsBut_showRegion, itemsBut_lastWords, itemsBut_placeRec, itemsBut_flush, itemsBut_regionLost, itemsBut_setTask, itemsBut_setCore, itemsBut_coreCount, itemsBut_dspRun, itemsBut_dspLeave, itemsBut_dspHold, itemsBut_dspReady, itemsBut_dspWake, itemsBut_wakeAll, itemsBut_chuteTrace, itemsBut_chute, itemsBut_rewind, itemsBut_parityFail, itemsBut_packetIn, itemsBut_noteReply, itemsBut_sessionNote, itemsBut_endSession, itemsBut_laneInputs, itemsBut_laneLatch, itemsBut_laneStop, itemsBut_voterFail, itemsBut_isolate, itemsBut_showLevel]⟩

theorem circuitFault_rest' (d : Dev) (i cause : Nat) : (d.circuitFault i cause).rest = { d.rest with stp := { d.stp with lastEv := (d.circuitFault i cause).stp.lastEv, lanes := (d.circuitFault i cause).stp.lanes, unentered := (d.circuitFault i cause).stp.unentered, pulsePass := (d.circuitFault i cause).stp.pulsePass, circuit := (d.circuitFault i cause).stp.circuit, sawOpen := (d.circuitFault i cause).stp.sawOpen, sawClosed := (d.circuitFault i cause).stp.sawClosed }, cyc := { quietCyc d.cyc with adm := (d.circuitFault i cause).cyc.adm, seqs := (d.circuitFault i cause).cyc.seqs, spilled := (d.circuitFault i cause).cyc.spilled } } := (circuitFault_spec d i cause).1

@[simp] theorem circuitFault_fields (d : Dev) (i cause : Nat) :
    (d.circuitFault i cause).now = d.now ∧ (d.circuitFault i cause).snap = d.snap ∧ (d.circuitFault i cause).committedOnce = d.committedOnce ∧
    (d.circuitFault i cause).staged = d.staged ∧ (d.circuitFault i cause).ctrls = d.ctrls ∧ (d.circuitFault i cause).freeIx = d.freeIx ∧
    (d.circuitFault i cause).tim = d.tim ∧ (d.circuitFault i cause).chutes = d.chutes ∧ (d.circuitFault i cause).stp.diff = d.stp.diff ∧
    (d.circuitFault i cause).stp.allDiff = d.stp.allDiff ∧ (d.circuitFault i cause).stp.permits = d.stp.permits ∧
    (d.circuitFault i cause).stp.out = d.stp.out ∧ (d.circuitFault i cause).stp.level = d.stp.level ∧
    (d.circuitFault i cause).stp.diffSince = d.stp.diffSince ∧ (d.circuitFault i cause).stp.outFault = d.stp.outFault ∧
    (d.circuitFault i cause).stp.outOn = d.stp.outOn ∧ (d.circuitFault i cause).stp.fbSince = d.stp.fbSince ∧
    (d.circuitFault i cause).stp.verdict = d.stp.verdict ∧ (d.circuitFault i cause).stp.ownFail = d.stp.ownFail ∧
    (d.circuitFault i cause).stp.withheldBy = d.stp.withheldBy ∧ (d.circuitFault i cause).stp.series = d.stp.series ∧
    (d.circuitFault i cause).stp.pendingFence = d.stp.pendingFence ∧ (d.circuitFault i cause).stp.lastRecord = d.stp.lastRecord ∧
    (d.circuitFault i cause).stp.testsDone = d.stp.testsDone ∧ (d.circuitFault i cause).stp.canSilent = d.stp.canSilent ∧
    (d.circuitFault i cause).stp.remoteSilent = d.stp.remoteSilent ∧ (d.circuitFault i cause).stp.kept = d.stp.kept ∧
    (d.circuitFault i cause).stp.mail = d.stp.mail ∧ (d.circuitFault i cause).stp.remoteLast = d.stp.remoteLast ∧
    (d.circuitFault i cause).stp.canLast = d.stp.canLast ∧ (d.circuitFault i cause).stp.unheard = d.stp.unheard ∧
    (d.circuitFault i cause).stp.firstBeacon = d.stp.firstBeacon ∧ (d.circuitFault i cause).stp.bcnCycle = d.stp.bcnCycle ∧
    (d.circuitFault i cause).air = d.air ∧ (d.circuitFault i cause).gns = d.gns ∧ (d.circuitFault i cause).chiselOut = d.chiselOut ∧
    (d.circuitFault i cause).ring = d.ring ∧ (d.circuitFault i cause).can = d.can ∧ (d.circuitFault i cause).mtr = d.mtr ∧
    (d.circuitFault i cause).drk = d.drk ∧ (d.circuitFault i cause).dsp = d.dsp ∧ (d.circuitFault i cause).pwr = d.pwr ∧
    (d.circuitFault i cause).peer = d.peer ∧ (d.circuitFault i cause).com = d.com ∧ (d.circuitFault i cause).cyc.origin = d.cyc.origin ∧
    (d.circuitFault i cause).cyc.next = d.cyc.next ∧ (d.circuitFault i cause).cyc.floor = d.cyc.floor ∧
    (d.circuitFault i cause).cyc.inCommit = d.cyc.inCommit ∧ (d.circuitFault i cause).cyc.defer = d.cyc.defer ∧
    (d.circuitFault i cause).cyc.journal = d.cyc.journal ∧ (d.circuitFault i cause).cyc.feed = d.cyc.feed ∧
    (d.circuitFault i cause).cyc.skipped = d.cyc.skipped ∧ (d.circuitFault i cause).cyc.overrun = d.cyc.overrun ∧
    (d.circuitFault i cause).cyc.missed = d.cyc.missed ∧ (d.circuitFault i cause).cyc.flagCold = d.cyc.flagCold ∧
    (d.circuitFault i cause).cyc.flagStep = d.cyc.flagStep ∧ (d.circuitFault i cause).cyc.flagTake = d.cyc.flagTake ∧
    (d.circuitFault i cause).cyc.lastCommitAt = d.cyc.lastCommitAt ∧ (d.circuitFault i cause).cyc.changedCov = d.cyc.changedCov ∧
    (d.circuitFault i cause).cyc.covBase = d.cyc.covBase ∧ KeptHost (d.circuitFault i cause).host d.host ∧
    KeptRcd (d.circuitFault i cause).rcd d.rcd ∧ KeptTlg (d.circuitFault i cause).tlg d.tlg := by
  have h := (circuitFault_spec d i cause).1
  generalize d.circuitFault i cause = x at h ⊢
  have f {α : Type} (g : Dev → α) : g x.rest = g ({ d.rest with stp := { d.stp with lastEv := (x).stp.lastEv, lanes := (x).stp.lanes, unentered := (x).stp.unentered, pulsePass := (x).stp.pulsePass, circuit := (x).stp.circuit, sawOpen := (x).stp.sawOpen, sawClosed := (x).stp.sawClosed }, cyc := { quietCyc d.cyc with adm := (x).cyc.adm, seqs := (x).cyc.seqs, spilled := (x).cyc.spilled } }) := congrArg g h
  exact ⟨f (·.now), f (·.snap), f (·.committedOnce), f (·.staged), f (·.ctrls), f (·.freeIx), f (·.tim), f (·.chutes), f (·.stp.diff),
    f (·.stp.allDiff), f (·.stp.permits), f (·.stp.out), f (·.stp.level), f (·.stp.diffSince), f (·.stp.outFault), f (·.stp.outOn),
    f (·.stp.fbSince), f (·.stp.verdict), f (·.stp.ownFail), f (·.stp.withheldBy), f (·.stp.series), f (·.stp.pendingFence),
    f (·.stp.lastRecord), f (·.stp.testsDone), f (·.stp.canSilent), f (·.stp.remoteSilent), f (·.stp.kept), f (·.stp.mail),
    f (·.stp.remoteLast), f (·.stp.canLast), f (·.stp.unheard), f (·.stp.firstBeacon), f (·.stp.bcnCycle), f (·.air), f (·.gns),
    f (·.chiselOut), f (·.ring), f (·.can), f (·.mtr), f (·.drk), f (·.dsp), f (·.pwr), f (·.peer), f (·.com), f (·.cyc.origin), f (·.cyc.next),
    f (·.cyc.floor), f (·.cyc.inCommit), f (·.cyc.defer), f (·.cyc.journal), f (·.cyc.feed), f (·.cyc.skipped), f (·.cyc.overrun),
    f (·.cyc.missed), f (·.cyc.flagCold), f (·.cyc.flagStep), f (·.cyc.flagTake), f (·.cyc.lastCommitAt), f (·.cyc.changedCov),
    f (·.cyc.covBase), KeptHost.of (f (·.host)), KeptRcd.of (f (·.rcd)), KeptTlg.of (f (·.tlg))⟩

@[simp] theorem circuitFault_rest (d : Dev) (i cause : Nat) : (d.circuitFault i cause).rest =
    { d.rest with stp := (d.circuitFault i cause).stp, cyc := quietCyc (d.circuitFault i cause).cyc } := by
  have h := (circuitFault_spec d i cause).1
  generalize d.circuitFault i cause = x at h ⊢
  have f {α : Type} (g : Dev → α) : g x.rest = g ({ d.rest with stp := { d.stp with lastEv := (x).stp.lastEv, lanes := (x).stp.lanes, unentered := (x).stp.unentered, pulsePass := (x).stp.pulsePass, circuit := (x).stp.circuit, sawOpen := (x).stp.sawOpen, sawClosed := (x).stp.sawClosed }, cyc := { quietCyc d.cyc with adm := (x).cyc.adm, seqs := (x).cyc.seqs, spilled := (x).cyc.spilled } }) := congrArg g h
  exact dev_ext (f (·.now)) rfl (f (·.snap)) (f (·.committedOnce)) rfl (f (·.staged)) (f (·.ctrls)) rfl (f (·.freeIx)) (f (·.tim)) rfl (f (·.host))
    (f (·.chutes)) (f (·.rcd)) rfl (f (·.air)) (f (·.gns)) (f (·.chiselOut)) (f (·.ring)) (f (·.can)) (f (·.mtr)) (f (·.drk)) (f (·.dsp))
    (f (·.tlg)) (f (·.pwr)) (f (·.peer)) (f (·.com))

theorem circuitFault_reads (d : Dev) (i cause : Nat) : ∀ id jq, reportItem id = false → id ≠ P.STP_TP_FAULTS → id ≠ P.CYC_EARLY_DROP → id ≠ P.CYC_ADMITTED → id ≠ P.CYC_LATE → id ≠ P.CYC_LATE_SPILL →
    (d.circuitFault i cause).rd id jq = d.rd id jq ∧ (d.circuitFault i cause).isSticky id jq = d.isSticky id jq ∧ (d.circuitFault i cause).cf id jq = d.cf id jq := by
  intro id jq hr h0 h1 h2 h3 h4
  have h := (circuitFault_spec d i cause).2 id jq hr (by simp) (by simp [regKey_ne, h0, Ne.symm h0, h1, Ne.symm h1, h2, Ne.symm h2, h3, Ne.symm h3, h4, Ne.symm h4])
  have e : (d.circuitFault i cause).staged = d.staged := by simp
  refine ⟨h.1, h.2, ?_⟩
  simp only [Dev.cf, e, h.1]

theorem circuitFault_at (d : Dev) (i cause : Nat) : ∀ id jq, reportItem id = false  → regKey P.STP_TP_FAULTS i ≠ regKey id jq → regKey P.CYC_EARLY_DROP 0 ≠ regKey id jq → regKey P.CYC_ADMITTED 0 ≠ regKey id jq → regKey P.CYC_LATE 0 ≠ regKey id jq → regKey P.CYC_LATE_SPILL 0 ≠ regKey id jq →
    (d.circuitFault i cause).rd id jq = d.rd id jq ∧ (d.circuitFault i cause).isSticky id jq = d.isSticky id jq ∧ (d.circuitFault i cause).cf id jq = d.cf id jq := by
  intro id jq hr h0 h1 h2 h3 h4
  have h := (circuitFault_spec d i cause).2 id jq hr (by simp) (by simp [h0, h1, h2, h3, h4])
  have e : (d.circuitFault i cause).staged = d.staged := by simp
  refine ⟨h.1, h.2, ?_⟩
  simp only [Dev.cf, e, h.1]

theorem itemsBut_circuitFault {ids : List Nat} {ks : List (Nat × Nat)} (d e : Dev) (i cause : Nat) (m0 : P.STP_TP_FAULTS ∈ ids ∨ (P.STP_TP_FAULTS, i) ∈ ks) (m1 : P.CYC_EARLY_DROP ∈ ids ∨ (P.CYC_EARLY_DROP, 0) ∈ ks) (m2 : P.CYC_ADMITTED ∈ ids ∨ (P.CYC_ADMITTED, 0) ∈ ks) (m3 : P.CYC_LATE ∈ ids ∨ (P.CYC_LATE, 0) ∈ ks) (m4 : P.CYC_LATE_SPILL ∈ ids ∨ (P.CYC_LATE_SPILL, 0) ∈ ks) :
    ItemsBut ids ks (d.circuitFault i cause) e ↔ ItemsBut ids ks d e :=
  itemsBut_congr ((circuitFault_spec d i cause).2.mono (by simp) (by simp [m0, m1, m2, m3, m4])) e

/-- A circuit fault that ends. -/
theorem circuitClear_spec (d : Dev) (c : Nat) : (d.circuitClear c).rest = { d.rest with stp := { d.stp with circuit := (d.circuitClear c).stp.circuit }, cyc := { quietCyc d.cyc with adm := (d.circuitClear c).cyc.adm, seqs := (d.circuitClear c).cyc.seqs, spilled := (d.circuitClear c).cyc.spilled } } ∧
    ItemsBut [] [(P.CYC_EARLY_DROP, 0), (P.CYC_ADMITTED, 0), (P.CYC_LATE, 0), (P.CYC_LATE_SPILL, 0)] (d.circuitClear c) d := by
  unfold Dev.circuitClear
  try simp only []
  repeat' split
  all_goals
    exact ⟨by first | (simp [itemsBut_self, -judge_rest, judge_rest', -timeState_rest, timeState_rest', -takeSeq_rest, takeSeq_rest', -hold_rest, hold_rest', -admit_rest, admit_rest', -input_rest, input_rest', -offer_rest, offer_rest', -stopNotice_rest, stopNotice_rest', -stopEvent_rest, stopEvent_rest', -giveUp_rest, giveUp_rest', -verdict_rest, verdict_rest', -engineFault_rest, engineFault_rest', -ctr_rest, ctr_rest', -beginReset_rest, beginReset_rest', -imageKeep_rest, imageKeep_rest', -imageCopy_rest, imageCopy_rest', -lastWords_rest, lastWords_rest', -placeRec_rest, placeRec_rest', -setTask_rest, setTask_rest', -setCore_rest, setCore_rest', -coreCount_rest, coreCount_rest', -dspRun_rest, dspRun_rest', -dspLeave_rest, dspLeave_rest', -dspHold_rest, dspHold_rest', -dspReady_rest, dspReady_rest', -dspWake_rest, dspWake_rest', -wakeAll_rest, wakeAll_rest', -packetIn_rest, packetIn_rest', -endSession_rest, endSession_rest', -laneInputs_rest, laneInputs_rest', -laneLatch_rest, laneLatch_rest', -laneStop_rest, laneStop_rest', -voterFail_rest, voterFail_rest', -circuitFault_rest, circuitFault_rest']; done) | (simp [itemsBut_self, -judge_rest, judge_rest', -timeState_rest, timeState_rest', -takeSeq_rest, takeSeq_rest', -hold_rest, hold_rest', -admit_rest, admit_rest', -input_rest, input_rest', -offer_rest, offer_rest', -stopNotice_rest, stopNotice_rest', -stopEvent_rest, stopEvent_rest', -giveUp_rest, giveUp_rest', -verdict_rest, verdict_rest', -engineFault_rest, engineFault_rest', -ctr_rest, ctr_rest', -beginReset_rest, beginReset_rest', -imageKeep_rest, imageKeep_rest', -imageCopy_rest, imageCopy_rest', -lastWords_rest, lastWords_rest', -placeRec_rest, placeRec_rest', -setTask_rest, setTask_rest', -setCore_rest, setCore_rest', -coreCount_rest, coreCount_rest', -dspRun_rest, dspRun_rest', -dspLeave_rest, dspLeave_rest', -dspHold_rest, dspHold_rest', -dspReady_rest, dspReady_rest', -dspWake_rest, dspWake_rest', -wakeAll_rest, wakeAll_rest', -packetIn_rest, packetIn_rest', -endSession_rest, endSession_rest', -laneInputs_rest, laneInputs_rest', -laneLatch_rest, laneLatch_rest', -laneStop_rest, laneStop_rest', -voterFail_rest, voterFail_rest', -circuitFault_rest, circuitFault_rest']; repeat' (first | rfl | apply And.intro)) | rfl, by simp [itemsBut_wr, itemsBut_inc, itemsBut_addW, itemsBut_maxTo, itemsBut_wrS, itemsBut_judge, itemsBut_timeState, itemsBut_takeSeq, itemsBut_countIn, itemsBut_hold, itemsBut_admit, itemsBut_input, itemsBut_offer, itemsBut_stopNotice, itemsBut_stopEvent, itemsBut_giveUp, itemsBut_verdict, itemsBut_engineFault, itemsBut_ctr, itemsBut_dspTrace, itemsBut_bypass, itemsBut_bypassHw, itemsBut_beginReset, itemsBut_mtrFlush, itemsBut_imageKeep, itemsBut_imageCopy, itemsBut_antState, itemsBut_judgeBias, itemsBut_chainState, itemsBut_showTile, itemsBut_putChan, itemsBut_freeChan, itemsBut_freeWhere, itemsBut_enableChan, itemsBut_place, itemsBut_placeAll, itemsBut_chainsEnable, itemsBut_startTracking, itemsBut_noteGain, itemsBut_stopTracking, itemsBut_snapTrigger, itemsBut_recorder, itemsBut_region, itemsBut_showRegion, itemsBut_lastWords, itemsBut_placeRec, itemsBut_flush, itemsBut_regionLost, itemsBut_setTask, itemsBut_setCore, itemsBut_coreCount, itemsBut_dspRun, itemsBut_dspLeave, itemsBut_dspHold, itemsBut_dspReady, itemsBut_dspWake, itemsBut_wakeAll, itemsBut_chuteTrace, itemsBut_chute, itemsBut_rewind, itemsBut_parityFail, itemsBut_packetIn, itemsBut_noteReply, itemsBut_sessionNote, itemsBut_endSession, itemsBut_laneInputs, itemsBut_laneLatch, itemsBut_laneStop, itemsBut_voterFail, itemsBut_isolate, itemsBut_showLevel, itemsBut_circuitFault]⟩

theorem circuitClear_rest' (d : Dev) (c : Nat) : (d.circuitClear c).rest = { d.rest with stp := { d.stp with circuit := (d.circuitClear c).stp.circuit }, cyc := { quietCyc d.cyc with adm := (d.circuitClear c).cyc.adm, seqs := (d.circuitClear c).cyc.seqs, spilled := (d.circuitClear c).cyc.spilled } } := (circuitClear_spec d c).1

@[simp] theorem circuitClear_fields (d : Dev) (c : Nat) :
    (d.circuitClear c).now = d.now ∧ (d.circuitClear c).snap = d.snap ∧ (d.circuitClear c).committedOnce = d.committedOnce ∧
    (d.circuitClear c).staged = d.staged ∧ (d.circuitClear c).ctrls = d.ctrls ∧ (d.circuitClear c).freeIx = d.freeIx ∧
    (d.circuitClear c).tim = d.tim ∧ (d.circuitClear c).chutes = d.chutes ∧ (d.circuitClear c).stp.lanes = d.stp.lanes ∧
    (d.circuitClear c).stp.diff = d.stp.diff ∧ (d.circuitClear c).stp.allDiff = d.stp.allDiff ∧ (d.circuitClear c).stp.permits = d.stp.permits ∧
    (d.circuitClear c).stp.out = d.stp.out ∧ (d.circuitClear c).stp.level = d.stp.level ∧ (d.circuitClear c).stp.pulsePass = d.stp.pulsePass ∧
    (d.circuitClear c).stp.sawOpen = d.stp.sawOpen ∧ (d.circuitClear c).stp.sawClosed = d.stp.sawClosed ∧
    (d.circuitClear c).stp.diffSince = d.stp.diffSince ∧ (d.circuitClear c).stp.outFault = d.stp.outFault ∧
    (d.circuitClear c).stp.outOn = d.stp.outOn ∧ (d.circuitClear c).stp.fbSince = d.stp.fbSince ∧
    (d.circuitClear c).stp.verdict = d.stp.verdict ∧ (d.circuitClear c).stp.ownFail = d.stp.ownFail ∧
    (d.circuitClear c).stp.withheldBy = d.stp.withheldBy ∧ (d.circuitClear c).stp.series = d.stp.series ∧
    (d.circuitClear c).stp.unentered = d.stp.unentered ∧ (d.circuitClear c).stp.pendingFence = d.stp.pendingFence ∧
    (d.circuitClear c).stp.lastRecord = d.stp.lastRecord ∧ (d.circuitClear c).stp.lastEv = d.stp.lastEv ∧
    (d.circuitClear c).stp.testsDone = d.stp.testsDone ∧ (d.circuitClear c).stp.canSilent = d.stp.canSilent ∧
    (d.circuitClear c).stp.remoteSilent = d.stp.remoteSilent ∧ (d.circuitClear c).stp.kept = d.stp.kept ∧
    (d.circuitClear c).stp.mail = d.stp.mail ∧ (d.circuitClear c).stp.remoteLast = d.stp.remoteLast ∧
    (d.circuitClear c).stp.canLast = d.stp.canLast ∧ (d.circuitClear c).stp.unheard = d.stp.unheard ∧
    (d.circuitClear c).stp.firstBeacon = d.stp.firstBeacon ∧ (d.circuitClear c).stp.bcnCycle = d.stp.bcnCycle ∧ (d.circuitClear c).air = d.air ∧
    (d.circuitClear c).gns = d.gns ∧ (d.circuitClear c).chiselOut = d.chiselOut ∧ (d.circuitClear c).ring = d.ring ∧
    (d.circuitClear c).can = d.can ∧ (d.circuitClear c).mtr = d.mtr ∧ (d.circuitClear c).drk = d.drk ∧ (d.circuitClear c).dsp = d.dsp ∧
    (d.circuitClear c).pwr = d.pwr ∧ (d.circuitClear c).peer = d.peer ∧ (d.circuitClear c).com = d.com ∧
    (d.circuitClear c).cyc.origin = d.cyc.origin ∧ (d.circuitClear c).cyc.next = d.cyc.next ∧ (d.circuitClear c).cyc.floor = d.cyc.floor ∧
    (d.circuitClear c).cyc.inCommit = d.cyc.inCommit ∧ (d.circuitClear c).cyc.defer = d.cyc.defer ∧
    (d.circuitClear c).cyc.journal = d.cyc.journal ∧ (d.circuitClear c).cyc.feed = d.cyc.feed ∧ (d.circuitClear c).cyc.skipped = d.cyc.skipped ∧
    (d.circuitClear c).cyc.overrun = d.cyc.overrun ∧ (d.circuitClear c).cyc.missed = d.cyc.missed ∧
    (d.circuitClear c).cyc.flagCold = d.cyc.flagCold ∧ (d.circuitClear c).cyc.flagStep = d.cyc.flagStep ∧
    (d.circuitClear c).cyc.flagTake = d.cyc.flagTake ∧ (d.circuitClear c).cyc.lastCommitAt = d.cyc.lastCommitAt ∧
    (d.circuitClear c).cyc.changedCov = d.cyc.changedCov ∧ (d.circuitClear c).cyc.covBase = d.cyc.covBase ∧
    KeptHost (d.circuitClear c).host d.host ∧ KeptRcd (d.circuitClear c).rcd d.rcd ∧ KeptTlg (d.circuitClear c).tlg d.tlg := by
  have h := (circuitClear_spec d c).1
  generalize d.circuitClear c = x at h ⊢
  have f {α : Type} (g : Dev → α) : g x.rest = g ({ d.rest with stp := { d.stp with circuit := (x).stp.circuit }, cyc := { quietCyc d.cyc with adm := (x).cyc.adm, seqs := (x).cyc.seqs, spilled := (x).cyc.spilled } }) := congrArg g h
  exact ⟨f (·.now), f (·.snap), f (·.committedOnce), f (·.staged), f (·.ctrls), f (·.freeIx), f (·.tim), f (·.chutes), f (·.stp.lanes),
    f (·.stp.diff), f (·.stp.allDiff), f (·.stp.permits), f (·.stp.out), f (·.stp.level), f (·.stp.pulsePass), f (·.stp.sawOpen),
    f (·.stp.sawClosed), f (·.stp.diffSince), f (·.stp.outFault), f (·.stp.outOn), f (·.stp.fbSince), f (·.stp.verdict), f (·.stp.ownFail),
    f (·.stp.withheldBy), f (·.stp.series), f (·.stp.unentered), f (·.stp.pendingFence), f (·.stp.lastRecord), f (·.stp.lastEv),
    f (·.stp.testsDone), f (·.stp.canSilent), f (·.stp.remoteSilent), f (·.stp.kept), f (·.stp.mail), f (·.stp.remoteLast), f (·.stp.canLast),
    f (·.stp.unheard), f (·.stp.firstBeacon), f (·.stp.bcnCycle), f (·.air), f (·.gns), f (·.chiselOut), f (·.ring), f (·.can), f (·.mtr),
    f (·.drk), f (·.dsp), f (·.pwr), f (·.peer), f (·.com), f (·.cyc.origin), f (·.cyc.next), f (·.cyc.floor), f (·.cyc.inCommit),
    f (·.cyc.defer), f (·.cyc.journal), f (·.cyc.feed), f (·.cyc.skipped), f (·.cyc.overrun), f (·.cyc.missed), f (·.cyc.flagCold),
    f (·.cyc.flagStep), f (·.cyc.flagTake), f (·.cyc.lastCommitAt), f (·.cyc.changedCov), f (·.cyc.covBase), KeptHost.of (f (·.host)),
    KeptRcd.of (f (·.rcd)), KeptTlg.of (f (·.tlg))⟩

@[simp] theorem circuitClear_rest (d : Dev) (c : Nat) : (d.circuitClear c).rest =
    { d.rest with stp := (d.circuitClear c).stp, cyc := quietCyc (d.circuitClear c).cyc } := by
  have h := (circuitClear_spec d c).1
  generalize d.circuitClear c = x at h ⊢
  have f {α : Type} (g : Dev → α) : g x.rest = g ({ d.rest with stp := { d.stp with circuit := (x).stp.circuit }, cyc := { quietCyc d.cyc with adm := (x).cyc.adm, seqs := (x).cyc.seqs, spilled := (x).cyc.spilled } }) := congrArg g h
  exact dev_ext (f (·.now)) rfl (f (·.snap)) (f (·.committedOnce)) rfl (f (·.staged)) (f (·.ctrls)) rfl (f (·.freeIx)) (f (·.tim)) rfl (f (·.host))
    (f (·.chutes)) (f (·.rcd)) rfl (f (·.air)) (f (·.gns)) (f (·.chiselOut)) (f (·.ring)) (f (·.can)) (f (·.mtr)) (f (·.drk)) (f (·.dsp))
    (f (·.tlg)) (f (·.pwr)) (f (·.peer)) (f (·.com))

theorem circuitClear_reads (d : Dev) (c : Nat) : ∀ id jq, reportItem id = false → id ≠ P.CYC_EARLY_DROP → id ≠ P.CYC_ADMITTED → id ≠ P.CYC_LATE → id ≠ P.CYC_LATE_SPILL →
    (d.circuitClear c).rd id jq = d.rd id jq ∧ (d.circuitClear c).isSticky id jq = d.isSticky id jq ∧ (d.circuitClear c).cf id jq = d.cf id jq := by
  intro id jq hr h0 h1 h2 h3
  have h := (circuitClear_spec d c).2 id jq hr (by simp) (by simp [regKey_ne, h0, Ne.symm h0, h1, Ne.symm h1, h2, Ne.symm h2, h3, Ne.symm h3])
  have e : (d.circuitClear c).staged = d.staged := by simp
  refine ⟨h.1, h.2, ?_⟩
  simp only [Dev.cf, e, h.1]

theorem circuitClear_at (d : Dev) (c : Nat) : ∀ id jq, reportItem id = false  → regKey P.CYC_EARLY_DROP 0 ≠ regKey id jq → regKey P.CYC_ADMITTED 0 ≠ regKey id jq → regKey P.CYC_LATE 0 ≠ regKey id jq → regKey P.CYC_LATE_SPILL 0 ≠ regKey id jq →
    (d.circuitClear c).rd id jq = d.rd id jq ∧ (d.circuitClear c).isSticky id jq = d.isSticky id jq ∧ (d.circuitClear c).cf id jq = d.cf id jq := by
  intro id jq hr h0 h1 h2 h3
  have h := (circuitClear_spec d c).2 id jq hr (by simp) (by simp [h0, h1, h2, h3])
  have e : (d.circuitClear c).staged = d.staged := by simp
  refine ⟨h.1, h.2, ?_⟩
  simp only [Dev.cf, e, h.1]

theorem itemsBut_circuitClear {ids : List Nat} {ks : List (Nat × Nat)} (d e : Dev) (c : Nat) (m0 : P.CYC_EARLY_DROP ∈ ids ∨ (P.CYC_EARLY_DROP, 0) ∈ ks) (m1 : P.CYC_ADMITTED ∈ ids ∨ (P.CYC_ADMITTED, 0) ∈ ks) (m2 : P.CYC_LATE ∈ ids ∨ (P.CYC_LATE, 0) ∈ ks) (m3 : P.CYC_LATE_SPILL ∈ ids ∨ (P.CYC_LATE_SPILL, 0) ∈ ks) :
    ItemsBut ids ks (d.circuitClear c) e ↔ ItemsBut ids ks d e :=
  itemsBut_congr ((circuitClear_spec d c).2.mono (by simp) (by simp [m0, m1, m2, m3])) e

/-- A safety output fault. -/
theorem outFaultRaise_spec (d : Dev) (o cause : Nat) : (d.outFaultRaise o cause).rest = { d.rest with stp := { d.stp with lastEv := (d.outFaultRaise o cause).stp.lastEv, lanes := (d.outFaultRaise o cause).stp.lanes, unentered := (d.outFaultRaise o cause).stp.unentered, outFault := (d.outFaultRaise o cause).stp.outFault }, cyc := { quietCyc d.cyc with adm := (d.outFaultRaise o cause).cyc.adm, seqs := (d.outFaultRaise o cause).cyc.seqs, spilled := (d.outFaultRaise o cause).cyc.spilled } } ∧
    ItemsBut [] [(P.STP_OUT_FAULTS, 0), (P.CYC_EARLY_DROP, 0), (P.CYC_ADMITTED, 0), (P.CYC_LATE, 0), (P.CYC_LATE_SPILL, 0)] (d.outFaultRaise o cause) d := by
  unfold Dev.outFaultRaise
  try simp only []
  repeat' split
  all_goals
    exact ⟨by first | (simp [itemsBut_self, -judge_rest, judge_rest', -timeState_rest, timeState_rest', -takeSeq_rest, takeSeq_rest', -hold_rest, hold_rest', -admit_rest, admit_rest', -input_rest, input_rest', -offer_rest, offer_rest', -stopNotice_rest, stopNotice_rest', -stopEvent_rest, stopEvent_rest', -giveUp_rest, giveUp_rest', -verdict_rest, verdict_rest', -engineFault_rest, engineFault_rest', -ctr_rest, ctr_rest', -beginReset_rest, beginReset_rest', -imageKeep_rest, imageKeep_rest', -imageCopy_rest, imageCopy_rest', -lastWords_rest, lastWords_rest', -placeRec_rest, placeRec_rest', -setTask_rest, setTask_rest', -setCore_rest, setCore_rest', -coreCount_rest, coreCount_rest', -dspRun_rest, dspRun_rest', -dspLeave_rest, dspLeave_rest', -dspHold_rest, dspHold_rest', -dspReady_rest, dspReady_rest', -dspWake_rest, dspWake_rest', -wakeAll_rest, wakeAll_rest', -packetIn_rest, packetIn_rest', -endSession_rest, endSession_rest', -laneInputs_rest, laneInputs_rest', -laneLatch_rest, laneLatch_rest', -laneStop_rest, laneStop_rest', -voterFail_rest, voterFail_rest', -circuitFault_rest, circuitFault_rest', -circuitClear_rest, circuitClear_rest']; done) | (simp [itemsBut_self, -judge_rest, judge_rest', -timeState_rest, timeState_rest', -takeSeq_rest, takeSeq_rest', -hold_rest, hold_rest', -admit_rest, admit_rest', -input_rest, input_rest', -offer_rest, offer_rest', -stopNotice_rest, stopNotice_rest', -stopEvent_rest, stopEvent_rest', -giveUp_rest, giveUp_rest', -verdict_rest, verdict_rest', -engineFault_rest, engineFault_rest', -ctr_rest, ctr_rest', -beginReset_rest, beginReset_rest', -imageKeep_rest, imageKeep_rest', -imageCopy_rest, imageCopy_rest', -lastWords_rest, lastWords_rest', -placeRec_rest, placeRec_rest', -setTask_rest, setTask_rest', -setCore_rest, setCore_rest', -coreCount_rest, coreCount_rest', -dspRun_rest, dspRun_rest', -dspLeave_rest, dspLeave_rest', -dspHold_rest, dspHold_rest', -dspReady_rest, dspReady_rest', -dspWake_rest, dspWake_rest', -wakeAll_rest, wakeAll_rest', -packetIn_rest, packetIn_rest', -endSession_rest, endSession_rest', -laneInputs_rest, laneInputs_rest', -laneLatch_rest, laneLatch_rest', -laneStop_rest, laneStop_rest', -voterFail_rest, voterFail_rest', -circuitFault_rest, circuitFault_rest', -circuitClear_rest, circuitClear_rest']; repeat' (first | rfl | apply And.intro)) | rfl, by simp [itemsBut_wr, itemsBut_inc, itemsBut_addW, itemsBut_maxTo, itemsBut_wrS, itemsBut_judge, itemsBut_timeState, itemsBut_takeSeq, itemsBut_countIn, itemsBut_hold, itemsBut_admit, itemsBut_input, itemsBut_offer, itemsBut_stopNotice, itemsBut_stopEvent, itemsBut_giveUp, itemsBut_verdict, itemsBut_engineFault, itemsBut_ctr, itemsBut_dspTrace, itemsBut_bypass, itemsBut_bypassHw, itemsBut_beginReset, itemsBut_mtrFlush, itemsBut_imageKeep, itemsBut_imageCopy, itemsBut_antState, itemsBut_judgeBias, itemsBut_chainState, itemsBut_showTile, itemsBut_putChan, itemsBut_freeChan, itemsBut_freeWhere, itemsBut_enableChan, itemsBut_place, itemsBut_placeAll, itemsBut_chainsEnable, itemsBut_startTracking, itemsBut_noteGain, itemsBut_stopTracking, itemsBut_snapTrigger, itemsBut_recorder, itemsBut_region, itemsBut_showRegion, itemsBut_lastWords, itemsBut_placeRec, itemsBut_flush, itemsBut_regionLost, itemsBut_setTask, itemsBut_setCore, itemsBut_coreCount, itemsBut_dspRun, itemsBut_dspLeave, itemsBut_dspHold, itemsBut_dspReady, itemsBut_dspWake, itemsBut_wakeAll, itemsBut_chuteTrace, itemsBut_chute, itemsBut_rewind, itemsBut_parityFail, itemsBut_packetIn, itemsBut_noteReply, itemsBut_sessionNote, itemsBut_endSession, itemsBut_laneInputs, itemsBut_laneLatch, itemsBut_laneStop, itemsBut_voterFail, itemsBut_isolate, itemsBut_showLevel, itemsBut_circuitFault, itemsBut_circuitClear]⟩

theorem outFaultRaise_rest' (d : Dev) (o cause : Nat) : (d.outFaultRaise o cause).rest = { d.rest with stp := { d.stp with lastEv := (d.outFaultRaise o cause).stp.lastEv, lanes := (d.outFaultRaise o cause).stp.lanes, unentered := (d.outFaultRaise o cause).stp.unentered, outFault := (d.outFaultRaise o cause).stp.outFault }, cyc := { quietCyc d.cyc with adm := (d.outFaultRaise o cause).cyc.adm, seqs := (d.outFaultRaise o cause).cyc.seqs, spilled := (d.outFaultRaise o cause).cyc.spilled } } := (outFaultRaise_spec d o cause).1

@[simp] theorem outFaultRaise_fields (d : Dev) (o cause : Nat) :
    (d.outFaultRaise o cause).now = d.now ∧ (d.outFaultRaise o cause).snap = d.snap ∧
    (d.outFaultRaise o cause).committedOnce = d.committedOnce ∧ (d.outFaultRaise o cause).staged = d.staged ∧
    (d.outFaultRaise o cause).ctrls = d.ctrls ∧ (d.outFaultRaise o cause).freeIx = d.freeIx ∧ (d.outFaultRaise o cause).tim = d.tim ∧
    (d.outFaultRaise o cause).chutes = d.chutes ∧ (d.outFaultRaise o cause).stp.diff = d.stp.diff ∧
    (d.outFaultRaise o cause).stp.allDiff = d.stp.allDiff ∧ (d.outFaultRaise o cause).stp.permits = d.stp.permits ∧
    (d.outFaultRaise o cause).stp.out = d.stp.out ∧ (d.outFaultRaise o cause).stp.level = d.stp.level ∧
    (d.outFaultRaise o cause).stp.pulsePass = d.stp.pulsePass ∧ (d.outFaultRaise o cause).stp.sawOpen = d.stp.sawOpen ∧
    (d.outFaultRaise o cause).stp.sawClosed = d.stp.sawClosed ∧ (d.outFaultRaise o cause).stp.circuit = d.stp.circuit ∧
    (d.outFaultRaise o cause).stp.diffSince = d.stp.diffSince ∧ (d.outFaultRaise o cause).stp.outOn = d.stp.outOn ∧
    (d.outFaultRaise o cause).stp.fbSince = d.stp.fbSince ∧ (d.outFaultRaise o cause).stp.verdict = d.stp.verdict ∧
    (d.outFaultRaise o cause).stp.ownFail = d.stp.ownFail ∧ (d.outFaultRaise o cause).stp.withheldBy = d.stp.withheldBy ∧
    (d.outFaultRaise o cause).stp.series = d.stp.series ∧ (d.outFaultRaise o cause).stp.pendingFence = d.stp.pendingFence ∧
    (d.outFaultRaise o cause).stp.lastRecord = d.stp.lastRecord ∧ (d.outFaultRaise o cause).stp.testsDone = d.stp.testsDone ∧
    (d.outFaultRaise o cause).stp.canSilent = d.stp.canSilent ∧ (d.outFaultRaise o cause).stp.remoteSilent = d.stp.remoteSilent ∧
    (d.outFaultRaise o cause).stp.kept = d.stp.kept ∧ (d.outFaultRaise o cause).stp.mail = d.stp.mail ∧
    (d.outFaultRaise o cause).stp.remoteLast = d.stp.remoteLast ∧ (d.outFaultRaise o cause).stp.canLast = d.stp.canLast ∧
    (d.outFaultRaise o cause).stp.unheard = d.stp.unheard ∧ (d.outFaultRaise o cause).stp.firstBeacon = d.stp.firstBeacon ∧
    (d.outFaultRaise o cause).stp.bcnCycle = d.stp.bcnCycle ∧ (d.outFaultRaise o cause).air = d.air ∧ (d.outFaultRaise o cause).gns = d.gns ∧
    (d.outFaultRaise o cause).chiselOut = d.chiselOut ∧ (d.outFaultRaise o cause).ring = d.ring ∧ (d.outFaultRaise o cause).can = d.can ∧
    (d.outFaultRaise o cause).mtr = d.mtr ∧ (d.outFaultRaise o cause).drk = d.drk ∧ (d.outFaultRaise o cause).dsp = d.dsp ∧
    (d.outFaultRaise o cause).pwr = d.pwr ∧ (d.outFaultRaise o cause).peer = d.peer ∧ (d.outFaultRaise o cause).com = d.com ∧
    (d.outFaultRaise o cause).cyc.origin = d.cyc.origin ∧ (d.outFaultRaise o cause).cyc.next = d.cyc.next ∧
    (d.outFaultRaise o cause).cyc.floor = d.cyc.floor ∧ (d.outFaultRaise o cause).cyc.inCommit = d.cyc.inCommit ∧
    (d.outFaultRaise o cause).cyc.defer = d.cyc.defer ∧ (d.outFaultRaise o cause).cyc.journal = d.cyc.journal ∧
    (d.outFaultRaise o cause).cyc.feed = d.cyc.feed ∧ (d.outFaultRaise o cause).cyc.skipped = d.cyc.skipped ∧
    (d.outFaultRaise o cause).cyc.overrun = d.cyc.overrun ∧ (d.outFaultRaise o cause).cyc.missed = d.cyc.missed ∧
    (d.outFaultRaise o cause).cyc.flagCold = d.cyc.flagCold ∧ (d.outFaultRaise o cause).cyc.flagStep = d.cyc.flagStep ∧
    (d.outFaultRaise o cause).cyc.flagTake = d.cyc.flagTake ∧ (d.outFaultRaise o cause).cyc.lastCommitAt = d.cyc.lastCommitAt ∧
    (d.outFaultRaise o cause).cyc.changedCov = d.cyc.changedCov ∧ (d.outFaultRaise o cause).cyc.covBase = d.cyc.covBase ∧
    KeptHost (d.outFaultRaise o cause).host d.host ∧ KeptRcd (d.outFaultRaise o cause).rcd d.rcd ∧ KeptTlg (d.outFaultRaise o cause).tlg d.tlg := by
  have h := (outFaultRaise_spec d o cause).1
  generalize d.outFaultRaise o cause = x at h ⊢
  have f {α : Type} (g : Dev → α) : g x.rest = g ({ d.rest with stp := { d.stp with lastEv := (x).stp.lastEv, lanes := (x).stp.lanes, unentered := (x).stp.unentered, outFault := (x).stp.outFault }, cyc := { quietCyc d.cyc with adm := (x).cyc.adm, seqs := (x).cyc.seqs, spilled := (x).cyc.spilled } }) := congrArg g h
  exact ⟨f (·.now), f (·.snap), f (·.committedOnce), f (·.staged), f (·.ctrls), f (·.freeIx), f (·.tim), f (·.chutes), f (·.stp.diff),
    f (·.stp.allDiff), f (·.stp.permits), f (·.stp.out), f (·.stp.level), f (·.stp.pulsePass), f (·.stp.sawOpen), f (·.stp.sawClosed),
    f (·.stp.circuit), f (·.stp.diffSince), f (·.stp.outOn), f (·.stp.fbSince), f (·.stp.verdict), f (·.stp.ownFail), f (·.stp.withheldBy),
    f (·.stp.series), f (·.stp.pendingFence), f (·.stp.lastRecord), f (·.stp.testsDone), f (·.stp.canSilent), f (·.stp.remoteSilent),
    f (·.stp.kept), f (·.stp.mail), f (·.stp.remoteLast), f (·.stp.canLast), f (·.stp.unheard), f (·.stp.firstBeacon), f (·.stp.bcnCycle),
    f (·.air), f (·.gns), f (·.chiselOut), f (·.ring), f (·.can), f (·.mtr), f (·.drk), f (·.dsp), f (·.pwr), f (·.peer), f (·.com),
    f (·.cyc.origin), f (·.cyc.next), f (·.cyc.floor), f (·.cyc.inCommit), f (·.cyc.defer), f (·.cyc.journal), f (·.cyc.feed),
    f (·.cyc.skipped), f (·.cyc.overrun), f (·.cyc.missed), f (·.cyc.flagCold), f (·.cyc.flagStep), f (·.cyc.flagTake), f (·.cyc.lastCommitAt),
    f (·.cyc.changedCov), f (·.cyc.covBase), KeptHost.of (f (·.host)), KeptRcd.of (f (·.rcd)), KeptTlg.of (f (·.tlg))⟩

@[simp] theorem outFaultRaise_rest (d : Dev) (o cause : Nat) : (d.outFaultRaise o cause).rest =
    { d.rest with stp := (d.outFaultRaise o cause).stp, cyc := quietCyc (d.outFaultRaise o cause).cyc } := by
  have h := (outFaultRaise_spec d o cause).1
  generalize d.outFaultRaise o cause = x at h ⊢
  have f {α : Type} (g : Dev → α) : g x.rest = g ({ d.rest with stp := { d.stp with lastEv := (x).stp.lastEv, lanes := (x).stp.lanes, unentered := (x).stp.unentered, outFault := (x).stp.outFault }, cyc := { quietCyc d.cyc with adm := (x).cyc.adm, seqs := (x).cyc.seqs, spilled := (x).cyc.spilled } }) := congrArg g h
  exact dev_ext (f (·.now)) rfl (f (·.snap)) (f (·.committedOnce)) rfl (f (·.staged)) (f (·.ctrls)) rfl (f (·.freeIx)) (f (·.tim)) rfl (f (·.host))
    (f (·.chutes)) (f (·.rcd)) rfl (f (·.air)) (f (·.gns)) (f (·.chiselOut)) (f (·.ring)) (f (·.can)) (f (·.mtr)) (f (·.drk)) (f (·.dsp))
    (f (·.tlg)) (f (·.pwr)) (f (·.peer)) (f (·.com))

theorem outFaultRaise_reads (d : Dev) (o cause : Nat) : ∀ id jq, reportItem id = false → id ≠ P.STP_OUT_FAULTS → id ≠ P.CYC_EARLY_DROP → id ≠ P.CYC_ADMITTED → id ≠ P.CYC_LATE → id ≠ P.CYC_LATE_SPILL →
    (d.outFaultRaise o cause).rd id jq = d.rd id jq ∧ (d.outFaultRaise o cause).isSticky id jq = d.isSticky id jq ∧ (d.outFaultRaise o cause).cf id jq = d.cf id jq := by
  intro id jq hr h0 h1 h2 h3 h4
  have h := (outFaultRaise_spec d o cause).2 id jq hr (by simp) (by simp [regKey_ne, h0, Ne.symm h0, h1, Ne.symm h1, h2, Ne.symm h2, h3, Ne.symm h3, h4, Ne.symm h4])
  have e : (d.outFaultRaise o cause).staged = d.staged := by simp
  refine ⟨h.1, h.2, ?_⟩
  simp only [Dev.cf, e, h.1]

theorem outFaultRaise_at (d : Dev) (o cause : Nat) : ∀ id jq, reportItem id = false  → regKey P.STP_OUT_FAULTS 0 ≠ regKey id jq → regKey P.CYC_EARLY_DROP 0 ≠ regKey id jq → regKey P.CYC_ADMITTED 0 ≠ regKey id jq → regKey P.CYC_LATE 0 ≠ regKey id jq → regKey P.CYC_LATE_SPILL 0 ≠ regKey id jq →
    (d.outFaultRaise o cause).rd id jq = d.rd id jq ∧ (d.outFaultRaise o cause).isSticky id jq = d.isSticky id jq ∧ (d.outFaultRaise o cause).cf id jq = d.cf id jq := by
  intro id jq hr h0 h1 h2 h3 h4
  have h := (outFaultRaise_spec d o cause).2 id jq hr (by simp) (by simp [h0, h1, h2, h3, h4])
  have e : (d.outFaultRaise o cause).staged = d.staged := by simp
  refine ⟨h.1, h.2, ?_⟩
  simp only [Dev.cf, e, h.1]

theorem itemsBut_outFaultRaise {ids : List Nat} {ks : List (Nat × Nat)} (d e : Dev) (o cause : Nat) (m0 : P.STP_OUT_FAULTS ∈ ids ∨ (P.STP_OUT_FAULTS, 0) ∈ ks) (m1 : P.CYC_EARLY_DROP ∈ ids ∨ (P.CYC_EARLY_DROP, 0) ∈ ks) (m2 : P.CYC_ADMITTED ∈ ids ∨ (P.CYC_ADMITTED, 0) ∈ ks) (m3 : P.CYC_LATE ∈ ids ∨ (P.CYC_LATE, 0) ∈ ks) (m4 : P.CYC_LATE_SPILL ∈ ids ∨ (P.CYC_LATE_SPILL, 0) ∈ ks) :
    ItemsBut ids ks (d.outFaultRaise o cause) e ↔ ItemsBut ids ks d e :=
  itemsBut_congr ((outFaultRaise_spec d o cause).2.mono (by simp) (by simp [m0, m1, m2, m3, m4])) e

/-- A slice becomes FAULT. -/
theorem sliceFault_spec (d : Dev) (i : Nat) : (d.sliceFault i).rest = d.rest ∧
    ItemsBut [] [(P.STP_SLICE_STATE, i)] (d.sliceFault i) d := by
  unfold Dev.sliceFault
  try simp only []
  repeat' split
  all_goals
    exact ⟨by first | (simp [itemsBut_self, -judge_rest, judge_rest', -timeState_rest, timeState_rest', -takeSeq_rest, takeSeq_rest', -hold_rest, hold_rest', -admit_rest, admit_rest', -input_rest, input_rest', -offer_rest, offer_rest', -stopNotice_rest, stopNotice_rest', -stopEvent_rest, stopEvent_rest', -giveUp_rest, giveUp_rest', -verdict_rest, verdict_rest', -engineFault_rest, engineFault_rest', -ctr_rest, ctr_rest', -beginReset_rest, beginReset_rest', -imageKeep_rest, imageKeep_rest', -imageCopy_rest, imageCopy_rest', -lastWords_rest, lastWords_rest', -placeRec_rest, placeRec_rest', -setTask_rest, setTask_rest', -setCore_rest, setCore_rest', -coreCount_rest, coreCount_rest', -dspRun_rest, dspRun_rest', -dspLeave_rest, dspLeave_rest', -dspHold_rest, dspHold_rest', -dspReady_rest, dspReady_rest', -dspWake_rest, dspWake_rest', -wakeAll_rest, wakeAll_rest', -packetIn_rest, packetIn_rest', -endSession_rest, endSession_rest', -laneInputs_rest, laneInputs_rest', -laneLatch_rest, laneLatch_rest', -laneStop_rest, laneStop_rest', -voterFail_rest, voterFail_rest', -circuitFault_rest, circuitFault_rest', -circuitClear_rest, circuitClear_rest', -outFaultRaise_rest, outFaultRaise_rest']; done) | (simp [itemsBut_self, -judge_rest, judge_rest', -timeState_rest, timeState_rest', -takeSeq_rest, takeSeq_rest', -hold_rest, hold_rest', -admit_rest, admit_rest', -input_rest, input_rest', -offer_rest, offer_rest', -stopNotice_rest, stopNotice_rest', -stopEvent_rest, stopEvent_rest', -giveUp_rest, giveUp_rest', -verdict_rest, verdict_rest', -engineFault_rest, engineFault_rest', -ctr_rest, ctr_rest', -beginReset_rest, beginReset_rest', -imageKeep_rest, imageKeep_rest', -imageCopy_rest, imageCopy_rest', -lastWords_rest, lastWords_rest', -placeRec_rest, placeRec_rest', -setTask_rest, setTask_rest', -setCore_rest, setCore_rest', -coreCount_rest, coreCount_rest', -dspRun_rest, dspRun_rest', -dspLeave_rest, dspLeave_rest', -dspHold_rest, dspHold_rest', -dspReady_rest, dspReady_rest', -dspWake_rest, dspWake_rest', -wakeAll_rest, wakeAll_rest', -packetIn_rest, packetIn_rest', -endSession_rest, endSession_rest', -laneInputs_rest, laneInputs_rest', -laneLatch_rest, laneLatch_rest', -laneStop_rest, laneStop_rest', -voterFail_rest, voterFail_rest', -circuitFault_rest, circuitFault_rest', -circuitClear_rest, circuitClear_rest', -outFaultRaise_rest, outFaultRaise_rest']; repeat' (first | rfl | apply And.intro)) | rfl, by simp [itemsBut_wr, itemsBut_inc, itemsBut_addW, itemsBut_maxTo, itemsBut_wrS, itemsBut_judge, itemsBut_timeState, itemsBut_takeSeq, itemsBut_countIn, itemsBut_hold, itemsBut_admit, itemsBut_input, itemsBut_offer, itemsBut_stopNotice, itemsBut_stopEvent, itemsBut_giveUp, itemsBut_verdict, itemsBut_engineFault, itemsBut_ctr, itemsBut_dspTrace, itemsBut_bypass, itemsBut_bypassHw, itemsBut_beginReset, itemsBut_mtrFlush, itemsBut_imageKeep, itemsBut_imageCopy, itemsBut_antState, itemsBut_judgeBias, itemsBut_chainState, itemsBut_showTile, itemsBut_putChan, itemsBut_freeChan, itemsBut_freeWhere, itemsBut_enableChan, itemsBut_place, itemsBut_placeAll, itemsBut_chainsEnable, itemsBut_startTracking, itemsBut_noteGain, itemsBut_stopTracking, itemsBut_snapTrigger, itemsBut_recorder, itemsBut_region, itemsBut_showRegion, itemsBut_lastWords, itemsBut_placeRec, itemsBut_flush, itemsBut_regionLost, itemsBut_setTask, itemsBut_setCore, itemsBut_coreCount, itemsBut_dspRun, itemsBut_dspLeave, itemsBut_dspHold, itemsBut_dspReady, itemsBut_dspWake, itemsBut_wakeAll, itemsBut_chuteTrace, itemsBut_chute, itemsBut_rewind, itemsBut_parityFail, itemsBut_packetIn, itemsBut_noteReply, itemsBut_sessionNote, itemsBut_endSession, itemsBut_laneInputs, itemsBut_laneLatch, itemsBut_laneStop, itemsBut_voterFail, itemsBut_isolate, itemsBut_showLevel, itemsBut_circuitFault, itemsBut_circuitClear, itemsBut_outFaultRaise]⟩

@[simp] theorem sliceFault_fields (d : Dev) (i : Nat) :
    (d.sliceFault i).now = d.now ∧ (d.sliceFault i).snap = d.snap ∧ (d.sliceFault i).committedOnce = d.committedOnce ∧
    (d.sliceFault i).staged = d.staged ∧ (d.sliceFault i).ctrls = d.ctrls ∧ (d.sliceFault i).freeIx = d.freeIx ∧ (d.sliceFault i).tim = d.tim ∧
    (d.sliceFault i).chutes = d.chutes ∧ (d.sliceFault i).stp = d.stp ∧ (d.sliceFault i).air = d.air ∧ (d.sliceFault i).gns = d.gns ∧
    (d.sliceFault i).chiselOut = d.chiselOut ∧ (d.sliceFault i).ring = d.ring ∧ (d.sliceFault i).can = d.can ∧ (d.sliceFault i).mtr = d.mtr ∧
    (d.sliceFault i).drk = d.drk ∧ (d.sliceFault i).dsp = d.dsp ∧ (d.sliceFault i).pwr = d.pwr ∧ (d.sliceFault i).peer = d.peer ∧
    (d.sliceFault i).com = d.com ∧ KeptCyc (d.sliceFault i).cyc d.cyc ∧ KeptHost (d.sliceFault i).host d.host ∧
    KeptRcd (d.sliceFault i).rcd d.rcd ∧ KeptTlg (d.sliceFault i).tlg d.tlg := by
  have h := (sliceFault_spec d i).1
  generalize d.sliceFault i = x at h ⊢
  have f {α : Type} (g : Dev → α) : g x.rest = g (d.rest) := congrArg g h
  exact ⟨f (·.now), f (·.snap), f (·.committedOnce), f (·.staged), f (·.ctrls), f (·.freeIx), f (·.tim), f (·.chutes), f (·.stp), f (·.air),
    f (·.gns), f (·.chiselOut), f (·.ring), f (·.can), f (·.mtr), f (·.drk), f (·.dsp), f (·.pwr), f (·.peer), f (·.com),
    KeptCyc.of (f (·.cyc)), KeptHost.of (f (·.host)), KeptRcd.of (f (·.rcd)), KeptTlg.of (f (·.tlg))⟩

@[simp] theorem sliceFault_rest (d : Dev) (i : Nat) : (d.sliceFault i).rest =
    d.rest := by
  have h := (sliceFault_spec d i).1
  generalize d.sliceFault i = x at h ⊢
  have f {α : Type} (g : Dev → α) : g x.rest = g (d.rest) := congrArg g h
  exact dev_ext (f (·.now)) rfl (f (·.snap)) (f (·.committedOnce)) rfl (f (·.staged)) (f (·.ctrls)) rfl (f (·.freeIx)) (f (·.tim)) (f (·.cyc)) (f (·.host))
    (f (·.chutes)) (f (·.rcd)) (f (·.stp)) (f (·.air)) (f (·.gns)) (f (·.chiselOut)) (f (·.ring)) (f (·.can)) (f (·.mtr)) (f (·.drk))
    (f (·.dsp)) (f (·.tlg)) (f (·.pwr)) (f (·.peer)) (f (·.com))

theorem sliceFault_reads (d : Dev) (i : Nat) : ∀ id jq, reportItem id = false → id ≠ P.STP_SLICE_STATE →
    (d.sliceFault i).rd id jq = d.rd id jq ∧ (d.sliceFault i).isSticky id jq = d.isSticky id jq ∧ (d.sliceFault i).cf id jq = d.cf id jq := by
  intro id jq hr h0
  have h := (sliceFault_spec d i).2 id jq hr (by simp) (by simp [regKey_ne, h0, Ne.symm h0])
  have e : (d.sliceFault i).staged = d.staged := by simp
  refine ⟨h.1, h.2, ?_⟩
  simp only [Dev.cf, e, h.1]

theorem sliceFault_at (d : Dev) (i : Nat) : ∀ id jq, reportItem id = false  → regKey P.STP_SLICE_STATE i ≠ regKey id jq →
    (d.sliceFault i).rd id jq = d.rd id jq ∧ (d.sliceFault i).isSticky id jq = d.isSticky id jq ∧ (d.sliceFault i).cf id jq = d.cf id jq := by
  intro id jq hr h0
  have h := (sliceFault_spec d i).2 id jq hr (by simp) (by simp [h0])
  have e : (d.sliceFault i).staged = d.staged := by simp
  refine ⟨h.1, h.2, ?_⟩
  simp only [Dev.cf, e, h.1]

theorem itemsBut_sliceFault {ids : List Nat} {ks : List (Nat × Nat)} (d e : Dev) (i : Nat) (m0 : P.STP_SLICE_STATE ∈ ids ∨ (P.STP_SLICE_STATE, i) ∈ ks) :
    ItemsBut ids ks (d.sliceFault i) e ↔ ItemsBut ids ks d e :=
  itemsBut_congr ((sliceFault_spec d i).2.mono (by simp) (by simp [m0])) e

/-- The latched state shown. -/
theorem showStop_spec (d : Dev)  : (d.showStop).rest = d.rest ∧
    ItemsBut [] [(P.STP_STATE, 0), (P.STP_LATCH_GROUPS, 0), (P.STP_LATCH_MASK, 0), (P.STP_STOP_SEQ, 0)] (d.showStop) d := by
  unfold Dev.showStop
  try simp only []
  repeat' split
  all_goals
    exact ⟨by first | (simp [itemsBut_self, -judge_rest, judge_rest', -timeState_rest, timeState_rest', -takeSeq_rest, takeSeq_rest', -hold_rest, hold_rest', -admit_rest, admit_rest', -input_rest, input_rest', -offer_rest, offer_rest', -stopNotice_rest, stopNotice_rest', -stopEvent_rest, stopEvent_rest', -giveUp_rest, giveUp_rest', -verdict_rest, verdict_rest', -engineFault_rest, engineFault_rest', -ctr_rest, ctr_rest', -beginReset_rest, beginReset_rest', -imageKeep_rest, imageKeep_rest', -imageCopy_rest, imageCopy_rest', -lastWords_rest, lastWords_rest', -placeRec_rest, placeRec_rest', -setTask_rest, setTask_rest', -setCore_rest, setCore_rest', -coreCount_rest, coreCount_rest', -dspRun_rest, dspRun_rest', -dspLeave_rest, dspLeave_rest', -dspHold_rest, dspHold_rest', -dspReady_rest, dspReady_rest', -dspWake_rest, dspWake_rest', -wakeAll_rest, wakeAll_rest', -packetIn_rest, packetIn_rest', -endSession_rest, endSession_rest', -laneInputs_rest, laneInputs_rest', -laneLatch_rest, laneLatch_rest', -laneStop_rest, laneStop_rest', -voterFail_rest, voterFail_rest', -circuitFault_rest, circuitFault_rest', -circuitClear_rest, circuitClear_rest', -outFaultRaise_rest, outFaultRaise_rest']; done) | (simp [itemsBut_self, -judge_rest, judge_rest', -timeState_rest, timeState_rest', -takeSeq_rest, takeSeq_rest', -hold_rest, hold_rest', -admit_rest, admit_rest', -input_rest, input_rest', -offer_rest, offer_rest', -stopNotice_rest, stopNotice_rest', -stopEvent_rest, stopEvent_rest', -giveUp_rest, giveUp_rest', -verdict_rest, verdict_rest', -engineFault_rest, engineFault_rest', -ctr_rest, ctr_rest', -beginReset_rest, beginReset_rest', -imageKeep_rest, imageKeep_rest', -imageCopy_rest, imageCopy_rest', -lastWords_rest, lastWords_rest', -placeRec_rest, placeRec_rest', -setTask_rest, setTask_rest', -setCore_rest, setCore_rest', -coreCount_rest, coreCount_rest', -dspRun_rest, dspRun_rest', -dspLeave_rest, dspLeave_rest', -dspHold_rest, dspHold_rest', -dspReady_rest, dspReady_rest', -dspWake_rest, dspWake_rest', -wakeAll_rest, wakeAll_rest', -packetIn_rest, packetIn_rest', -endSession_rest, endSession_rest', -laneInputs_rest, laneInputs_rest', -laneLatch_rest, laneLatch_rest', -laneStop_rest, laneStop_rest', -voterFail_rest, voterFail_rest', -circuitFault_rest, circuitFault_rest', -circuitClear_rest, circuitClear_rest', -outFaultRaise_rest, outFaultRaise_rest']; repeat' (first | rfl | apply And.intro)) | rfl, by simp [itemsBut_wr, itemsBut_inc, itemsBut_addW, itemsBut_maxTo, itemsBut_wrS, itemsBut_judge, itemsBut_timeState, itemsBut_takeSeq, itemsBut_countIn, itemsBut_hold, itemsBut_admit, itemsBut_input, itemsBut_offer, itemsBut_stopNotice, itemsBut_stopEvent, itemsBut_giveUp, itemsBut_verdict, itemsBut_engineFault, itemsBut_ctr, itemsBut_dspTrace, itemsBut_bypass, itemsBut_bypassHw, itemsBut_beginReset, itemsBut_mtrFlush, itemsBut_imageKeep, itemsBut_imageCopy, itemsBut_antState, itemsBut_judgeBias, itemsBut_chainState, itemsBut_showTile, itemsBut_putChan, itemsBut_freeChan, itemsBut_freeWhere, itemsBut_enableChan, itemsBut_place, itemsBut_placeAll, itemsBut_chainsEnable, itemsBut_startTracking, itemsBut_noteGain, itemsBut_stopTracking, itemsBut_snapTrigger, itemsBut_recorder, itemsBut_region, itemsBut_showRegion, itemsBut_lastWords, itemsBut_placeRec, itemsBut_flush, itemsBut_regionLost, itemsBut_setTask, itemsBut_setCore, itemsBut_coreCount, itemsBut_dspRun, itemsBut_dspLeave, itemsBut_dspHold, itemsBut_dspReady, itemsBut_dspWake, itemsBut_wakeAll, itemsBut_chuteTrace, itemsBut_chute, itemsBut_rewind, itemsBut_parityFail, itemsBut_packetIn, itemsBut_noteReply, itemsBut_sessionNote, itemsBut_endSession, itemsBut_laneInputs, itemsBut_laneLatch, itemsBut_laneStop, itemsBut_voterFail, itemsBut_isolate, itemsBut_showLevel, itemsBut_circuitFault, itemsBut_circuitClear, itemsBut_outFaultRaise, itemsBut_sliceFault]⟩

@[simp] theorem showStop_fields (d : Dev)  :
    (d.showStop).now = d.now ∧ (d.showStop).snap = d.snap ∧ (d.showStop).committedOnce = d.committedOnce ∧ (d.showStop).staged = d.staged ∧
    (d.showStop).ctrls = d.ctrls ∧ (d.showStop).freeIx = d.freeIx ∧ (d.showStop).tim = d.tim ∧ (d.showStop).chutes = d.chutes ∧
    (d.showStop).stp = d.stp ∧ (d.showStop).air = d.air ∧ (d.showStop).gns = d.gns ∧ (d.showStop).chiselOut = d.chiselOut ∧
    (d.showStop).ring = d.ring ∧ (d.showStop).can = d.can ∧ (d.showStop).mtr = d.mtr ∧ (d.showStop).drk = d.drk ∧ (d.showStop).dsp = d.dsp ∧
    (d.showStop).pwr = d.pwr ∧ (d.showStop).peer = d.peer ∧ (d.showStop).com = d.com ∧ KeptCyc (d.showStop).cyc d.cyc ∧
    KeptHost (d.showStop).host d.host ∧ KeptRcd (d.showStop).rcd d.rcd ∧ KeptTlg (d.showStop).tlg d.tlg := by
  have h := (showStop_spec d ).1
  generalize d.showStop = x at h ⊢
  have f {α : Type} (g : Dev → α) : g x.rest = g (d.rest) := congrArg g h
  exact ⟨f (·.now), f (·.snap), f (·.committedOnce), f (·.staged), f (·.ctrls), f (·.freeIx), f (·.tim), f (·.chutes), f (·.stp), f (·.air),
    f (·.gns), f (·.chiselOut), f (·.ring), f (·.can), f (·.mtr), f (·.drk), f (·.dsp), f (·.pwr), f (·.peer), f (·.com),
    KeptCyc.of (f (·.cyc)), KeptHost.of (f (·.host)), KeptRcd.of (f (·.rcd)), KeptTlg.of (f (·.tlg))⟩

@[simp] theorem showStop_rest (d : Dev)  : (d.showStop).rest =
    d.rest := by
  have h := (showStop_spec d ).1
  generalize d.showStop = x at h ⊢
  have f {α : Type} (g : Dev → α) : g x.rest = g (d.rest) := congrArg g h
  exact dev_ext (f (·.now)) rfl (f (·.snap)) (f (·.committedOnce)) rfl (f (·.staged)) (f (·.ctrls)) rfl (f (·.freeIx)) (f (·.tim)) (f (·.cyc)) (f (·.host))
    (f (·.chutes)) (f (·.rcd)) (f (·.stp)) (f (·.air)) (f (·.gns)) (f (·.chiselOut)) (f (·.ring)) (f (·.can)) (f (·.mtr)) (f (·.drk))
    (f (·.dsp)) (f (·.tlg)) (f (·.pwr)) (f (·.peer)) (f (·.com))

theorem showStop_reads (d : Dev)  : ∀ id jq, reportItem id = false → id ≠ P.STP_STATE → id ≠ P.STP_LATCH_GROUPS → id ≠ P.STP_LATCH_MASK → id ≠ P.STP_STOP_SEQ →
    (d.showStop).rd id jq = d.rd id jq ∧ (d.showStop).isSticky id jq = d.isSticky id jq ∧ (d.showStop).cf id jq = d.cf id jq := by
  intro id jq hr h0 h1 h2 h3
  have h := (showStop_spec d ).2 id jq hr (by simp) (by simp [regKey_ne, h0, Ne.symm h0, h1, Ne.symm h1, h2, Ne.symm h2, h3, Ne.symm h3])
  have e : (d.showStop).staged = d.staged := by simp
  refine ⟨h.1, h.2, ?_⟩
  simp only [Dev.cf, e, h.1]

theorem showStop_at (d : Dev)  : ∀ id jq, reportItem id = false  → regKey P.STP_STATE 0 ≠ regKey id jq → regKey P.STP_LATCH_GROUPS 0 ≠ regKey id jq → regKey P.STP_LATCH_MASK 0 ≠ regKey id jq → regKey P.STP_STOP_SEQ 0 ≠ regKey id jq →
    (d.showStop).rd id jq = d.rd id jq ∧ (d.showStop).isSticky id jq = d.isSticky id jq ∧ (d.showStop).cf id jq = d.cf id jq := by
  intro id jq hr h0 h1 h2 h3
  have h := (showStop_spec d ).2 id jq hr (by simp) (by simp [h0, h1, h2, h3])
  have e : (d.showStop).staged = d.staged := by simp
  refine ⟨h.1, h.2, ?_⟩
  simp only [Dev.cf, e, h.1]

theorem itemsBut_showStop {ids : List Nat} {ks : List (Nat × Nat)} (d e : Dev)  (m0 : P.STP_STATE ∈ ids ∨ (P.STP_STATE, 0) ∈ ks) (m1 : P.STP_LATCH_GROUPS ∈ ids ∨ (P.STP_LATCH_GROUPS, 0) ∈ ks) (m2 : P.STP_LATCH_MASK ∈ ids ∨ (P.STP_LATCH_MASK, 0) ∈ ks) (m3 : P.STP_STOP_SEQ ∈ ids ∨ (P.STP_STOP_SEQ, 0) ∈ ks) :
    ItemsBut ids ks (d.showStop) e ↔ ItemsBut ids ks d e :=
  itemsBut_congr ((showStop_spec d ).2.mono (by simp) (by simp [m0, m1, m2, m3])) e

/-- The safety outputs follow the voter. -/
theorem outputs_spec (d : Dev)  : (d.outputs).rest = { d.rest with stp := { d.stp with outOn := (d.outputs).stp.outOn } } ∧
    ItemsBut [] [(P.STP_OUT_STATE, 0)] (d.outputs) d := by
  unfold Dev.outputs
  try simp only []
  repeat' split
  all_goals
    exact ⟨by first | (simp [itemsBut_self, -judge_rest, judge_rest', -timeState_rest, timeState_rest', -takeSeq_rest, takeSeq_rest', -hold_rest, hold_rest', -admit_rest, admit_rest', -input_rest, input_rest', -offer_rest, offer_rest', -stopNotice_rest, stopNotice_rest', -stopEvent_rest, stopEvent_rest', -giveUp_rest, giveUp_rest', -verdict_rest, verdict_rest', -engineFault_rest, engineFault_rest', -ctr_rest, ctr_rest', -beginReset_rest, beginReset_rest', -imageKeep_rest, imageKeep_rest', -imageCopy_rest, imageCopy_rest', -lastWords_rest, lastWords_rest', -placeRec_rest, placeRec_rest', -setTask_rest, setTask_rest', -setCore_rest, setCore_rest', -coreCount_rest, coreCount_rest', -dspRun_rest, dspRun_rest', -dspLeave_rest, dspLeave_rest', -dspHold_rest, dspHold_rest', -dspReady_rest, dspReady_rest', -dspWake_rest, dspWake_rest', -wakeAll_rest, wakeAll_rest', -packetIn_rest, packetIn_rest', -endSession_rest, endSession_rest', -laneInputs_rest, laneInputs_rest', -laneLatch_rest, laneLatch_rest', -laneStop_rest, laneStop_rest', -voterFail_rest, voterFail_rest', -circuitFault_rest, circuitFault_rest', -circuitClear_rest, circuitClear_rest', -outFaultRaise_rest, outFaultRaise_rest']; done) | (simp [itemsBut_self, -judge_rest, judge_rest', -timeState_rest, timeState_rest', -takeSeq_rest, takeSeq_rest', -hold_rest, hold_rest', -admit_rest, admit_rest', -input_rest, input_rest', -offer_rest, offer_rest', -stopNotice_rest, stopNotice_rest', -stopEvent_rest, stopEvent_rest', -giveUp_rest, giveUp_rest', -verdict_rest, verdict_rest', -engineFault_rest, engineFault_rest', -ctr_rest, ctr_rest', -beginReset_rest, beginReset_rest', -imageKeep_rest, imageKeep_rest', -imageCopy_rest, imageCopy_rest', -lastWords_rest, lastWords_rest', -placeRec_rest, placeRec_rest', -setTask_rest, setTask_rest', -setCore_rest, setCore_rest', -coreCount_rest, coreCount_rest', -dspRun_rest, dspRun_rest', -dspLeave_rest, dspLeave_rest', -dspHold_rest, dspHold_rest', -dspReady_rest, dspReady_rest', -dspWake_rest, dspWake_rest', -wakeAll_rest, wakeAll_rest', -packetIn_rest, packetIn_rest', -endSession_rest, endSession_rest', -laneInputs_rest, laneInputs_rest', -laneLatch_rest, laneLatch_rest', -laneStop_rest, laneStop_rest', -voterFail_rest, voterFail_rest', -circuitFault_rest, circuitFault_rest', -circuitClear_rest, circuitClear_rest', -outFaultRaise_rest, outFaultRaise_rest']; repeat' (first | rfl | apply And.intro)) | rfl, by simp [itemsBut_wr, itemsBut_inc, itemsBut_addW, itemsBut_maxTo, itemsBut_wrS, itemsBut_judge, itemsBut_timeState, itemsBut_takeSeq, itemsBut_countIn, itemsBut_hold, itemsBut_admit, itemsBut_input, itemsBut_offer, itemsBut_stopNotice, itemsBut_stopEvent, itemsBut_giveUp, itemsBut_verdict, itemsBut_engineFault, itemsBut_ctr, itemsBut_dspTrace, itemsBut_bypass, itemsBut_bypassHw, itemsBut_beginReset, itemsBut_mtrFlush, itemsBut_imageKeep, itemsBut_imageCopy, itemsBut_antState, itemsBut_judgeBias, itemsBut_chainState, itemsBut_showTile, itemsBut_putChan, itemsBut_freeChan, itemsBut_freeWhere, itemsBut_enableChan, itemsBut_place, itemsBut_placeAll, itemsBut_chainsEnable, itemsBut_startTracking, itemsBut_noteGain, itemsBut_stopTracking, itemsBut_snapTrigger, itemsBut_recorder, itemsBut_region, itemsBut_showRegion, itemsBut_lastWords, itemsBut_placeRec, itemsBut_flush, itemsBut_regionLost, itemsBut_setTask, itemsBut_setCore, itemsBut_coreCount, itemsBut_dspRun, itemsBut_dspLeave, itemsBut_dspHold, itemsBut_dspReady, itemsBut_dspWake, itemsBut_wakeAll, itemsBut_chuteTrace, itemsBut_chute, itemsBut_rewind, itemsBut_parityFail, itemsBut_packetIn, itemsBut_noteReply, itemsBut_sessionNote, itemsBut_endSession, itemsBut_laneInputs, itemsBut_laneLatch, itemsBut_laneStop, itemsBut_voterFail, itemsBut_isolate, itemsBut_showLevel, itemsBut_circuitFault, itemsBut_circuitClear, itemsBut_outFaultRaise, itemsBut_sliceFault, itemsBut_showStop]⟩

theorem outputs_rest' (d : Dev)  : (d.outputs).rest = { d.rest with stp := { d.stp with outOn := (d.outputs).stp.outOn } } := (outputs_spec d ).1

@[simp] theorem outputs_fields (d : Dev)  :
    (d.outputs).now = d.now ∧ (d.outputs).snap = d.snap ∧ (d.outputs).committedOnce = d.committedOnce ∧ (d.outputs).staged = d.staged ∧
    (d.outputs).ctrls = d.ctrls ∧ (d.outputs).freeIx = d.freeIx ∧ (d.outputs).tim = d.tim ∧ (d.outputs).chutes = d.chutes ∧
    (d.outputs).stp.lanes = d.stp.lanes ∧ (d.outputs).stp.diff = d.stp.diff ∧ (d.outputs).stp.allDiff = d.stp.allDiff ∧
    (d.outputs).stp.permits = d.stp.permits ∧ (d.outputs).stp.out = d.stp.out ∧ (d.outputs).stp.level = d.stp.level ∧
    (d.outputs).stp.pulsePass = d.stp.pulsePass ∧ (d.outputs).stp.sawOpen = d.stp.sawOpen ∧ (d.outputs).stp.sawClosed = d.stp.sawClosed ∧
    (d.outputs).stp.circuit = d.stp.circuit ∧ (d.outputs).stp.diffSince = d.stp.diffSince ∧ (d.outputs).stp.outFault = d.stp.outFault ∧
    (d.outputs).stp.fbSince = d.stp.fbSince ∧ (d.outputs).stp.verdict = d.stp.verdict ∧ (d.outputs).stp.ownFail = d.stp.ownFail ∧
    (d.outputs).stp.withheldBy = d.stp.withheldBy ∧ (d.outputs).stp.series = d.stp.series ∧ (d.outputs).stp.unentered = d.stp.unentered ∧
    (d.outputs).stp.pendingFence = d.stp.pendingFence ∧ (d.outputs).stp.lastRecord = d.stp.lastRecord ∧ (d.outputs).stp.lastEv = d.stp.lastEv ∧
    (d.outputs).stp.testsDone = d.stp.testsDone ∧ (d.outputs).stp.canSilent = d.stp.canSilent ∧
    (d.outputs).stp.remoteSilent = d.stp.remoteSilent ∧ (d.outputs).stp.kept = d.stp.kept ∧ (d.outputs).stp.mail = d.stp.mail ∧
    (d.outputs).stp.remoteLast = d.stp.remoteLast ∧ (d.outputs).stp.canLast = d.stp.canLast ∧ (d.outputs).stp.unheard = d.stp.unheard ∧
    (d.outputs).stp.firstBeacon = d.stp.firstBeacon ∧ (d.outputs).stp.bcnCycle = d.stp.bcnCycle ∧ (d.outputs).air = d.air ∧
    (d.outputs).gns = d.gns ∧ (d.outputs).chiselOut = d.chiselOut ∧ (d.outputs).ring = d.ring ∧ (d.outputs).can = d.can ∧
    (d.outputs).mtr = d.mtr ∧ (d.outputs).drk = d.drk ∧ (d.outputs).dsp = d.dsp ∧ (d.outputs).pwr = d.pwr ∧ (d.outputs).peer = d.peer ∧
    (d.outputs).com = d.com ∧ KeptCyc (d.outputs).cyc d.cyc ∧ KeptHost (d.outputs).host d.host ∧ KeptRcd (d.outputs).rcd d.rcd ∧
    KeptTlg (d.outputs).tlg d.tlg := by
  have h := (outputs_spec d ).1
  generalize d.outputs = x at h ⊢
  have f {α : Type} (g : Dev → α) : g x.rest = g ({ d.rest with stp := { d.stp with outOn := (x).stp.outOn } }) := congrArg g h
  exact ⟨f (·.now), f (·.snap), f (·.committedOnce), f (·.staged), f (·.ctrls), f (·.freeIx), f (·.tim), f (·.chutes), f (·.stp.lanes),
    f (·.stp.diff), f (·.stp.allDiff), f (·.stp.permits), f (·.stp.out), f (·.stp.level), f (·.stp.pulsePass), f (·.stp.sawOpen),
    f (·.stp.sawClosed), f (·.stp.circuit), f (·.stp.diffSince), f (·.stp.outFault), f (·.stp.fbSince), f (·.stp.verdict), f (·.stp.ownFail),
    f (·.stp.withheldBy), f (·.stp.series), f (·.stp.unentered), f (·.stp.pendingFence), f (·.stp.lastRecord), f (·.stp.lastEv),
    f (·.stp.testsDone), f (·.stp.canSilent), f (·.stp.remoteSilent), f (·.stp.kept), f (·.stp.mail), f (·.stp.remoteLast), f (·.stp.canLast),
    f (·.stp.unheard), f (·.stp.firstBeacon), f (·.stp.bcnCycle), f (·.air), f (·.gns), f (·.chiselOut), f (·.ring), f (·.can), f (·.mtr),
    f (·.drk), f (·.dsp), f (·.pwr), f (·.peer), f (·.com), KeptCyc.of (f (·.cyc)), KeptHost.of (f (·.host)), KeptRcd.of (f (·.rcd)),
    KeptTlg.of (f (·.tlg))⟩

@[simp] theorem outputs_rest (d : Dev)  : (d.outputs).rest =
    { d.rest with stp := (d.outputs).stp } := by
  have h := (outputs_spec d ).1
  generalize d.outputs = x at h ⊢
  have f {α : Type} (g : Dev → α) : g x.rest = g ({ d.rest with stp := { d.stp with outOn := (x).stp.outOn } }) := congrArg g h
  exact dev_ext (f (·.now)) rfl (f (·.snap)) (f (·.committedOnce)) rfl (f (·.staged)) (f (·.ctrls)) rfl (f (·.freeIx)) (f (·.tim)) (f (·.cyc)) (f (·.host))
    (f (·.chutes)) (f (·.rcd)) rfl (f (·.air)) (f (·.gns)) (f (·.chiselOut)) (f (·.ring)) (f (·.can)) (f (·.mtr)) (f (·.drk)) (f (·.dsp))
    (f (·.tlg)) (f (·.pwr)) (f (·.peer)) (f (·.com))

theorem outputs_reads (d : Dev)  : ∀ id jq, reportItem id = false → id ≠ P.STP_OUT_STATE →
    (d.outputs).rd id jq = d.rd id jq ∧ (d.outputs).isSticky id jq = d.isSticky id jq ∧ (d.outputs).cf id jq = d.cf id jq := by
  intro id jq hr h0
  have h := (outputs_spec d ).2 id jq hr (by simp) (by simp [regKey_ne, h0, Ne.symm h0])
  have e : (d.outputs).staged = d.staged := by simp
  refine ⟨h.1, h.2, ?_⟩
  simp only [Dev.cf, e, h.1]

theorem outputs_at (d : Dev)  : ∀ id jq, reportItem id = false  → regKey P.STP_OUT_STATE 0 ≠ regKey id jq →
    (d.outputs).rd id jq = d.rd id jq ∧ (d.outputs).isSticky id jq = d.isSticky id jq ∧ (d.outputs).cf id jq = d.cf id jq := by
  intro id jq hr h0
  have h := (outputs_spec d ).2 id jq hr (by simp) (by simp [h0])
  have e : (d.outputs).staged = d.staged := by simp
  refine ⟨h.1, h.2, ?_⟩
  simp only [Dev.cf, e, h.1]

theorem itemsBut_outputs {ids : List Nat} {ks : List (Nat × Nat)} (d e : Dev)  (m0 : P.STP_OUT_STATE ∈ ids ∨ (P.STP_OUT_STATE, 0) ∈ ks) :
    ItemsBut ids ks (d.outputs) e ↔ ItemsBut ids ks d e :=
  itemsBut_congr ((outputs_spec d ).2.mono (by simp) (by simp [m0])) e

/-- The permit's notice. -/
theorem permitNotice_spec (d : Dev)  : (d.permitNotice).rest = { d.rest with stp := { d.stp with withheldBy := (d.permitNotice).stp.withheldBy } } ∧
    ItemsBut [] [] (d.permitNotice) d := by
  unfold Dev.permitNotice
  try simp only []
  repeat' split
  all_goals
    exact ⟨by first | (simp [itemsBut_self, -judge_rest, judge_rest', -timeState_rest, timeState_rest', -takeSeq_rest, takeSeq_rest', -hold_rest, hold_rest', -admit_rest, admit_rest', -input_rest, input_rest', -offer_rest, offer_rest', -stopNotice_rest, stopNotice_rest', -stopEvent_rest, stopEvent_rest', -giveUp_rest, giveUp_rest', -verdict_rest, verdict_rest', -engineFault_rest, engineFault_rest', -ctr_rest, ctr_rest', -beginReset_rest, beginReset_rest', -imageKeep_rest, imageKeep_rest', -imageCopy_rest, imageCopy_rest', -lastWords_rest, lastWords_rest', -placeRec_rest, placeRec_rest', -setTask_rest, setTask_rest', -setCore_rest, setCore_rest', -coreCount_rest, coreCount_rest', -dspRun_rest, dspRun_rest', -dspLeave_rest, dspLeave_rest', -dspHold_rest, dspHold_rest', -dspReady_rest, dspReady_rest', -dspWake_rest, dspWake_rest', -wakeAll_rest, wakeAll_rest', -packetIn_rest, packetIn_rest', -endSession_rest, endSession_rest', -laneInputs_rest, laneInputs_rest', -laneLatch_rest, laneLatch_rest', -laneStop_rest, laneStop_rest', -voterFail_rest, voterFail_rest', -circuitFault_rest, circuitFault_rest', -circuitClear_rest, circuitClear_rest', -outFaultRaise_rest, outFaultRaise_rest', -outputs_rest, outputs_rest']; done) | (simp [itemsBut_self, -judge_rest, judge_rest', -timeState_rest, timeState_rest', -takeSeq_rest, takeSeq_rest', -hold_rest, hold_rest', -admit_rest, admit_rest', -input_rest, input_rest', -offer_rest, offer_rest', -stopNotice_rest, stopNotice_rest', -stopEvent_rest, stopEvent_rest', -giveUp_rest, giveUp_rest', -verdict_rest, verdict_rest', -engineFault_rest, engineFault_rest', -ctr_rest, ctr_rest', -beginReset_rest, beginReset_rest', -imageKeep_rest, imageKeep_rest', -imageCopy_rest, imageCopy_rest', -lastWords_rest, lastWords_rest', -placeRec_rest, placeRec_rest', -setTask_rest, setTask_rest', -setCore_rest, setCore_rest', -coreCount_rest, coreCount_rest', -dspRun_rest, dspRun_rest', -dspLeave_rest, dspLeave_rest', -dspHold_rest, dspHold_rest', -dspReady_rest, dspReady_rest', -dspWake_rest, dspWake_rest', -wakeAll_rest, wakeAll_rest', -packetIn_rest, packetIn_rest', -endSession_rest, endSession_rest', -laneInputs_rest, laneInputs_rest', -laneLatch_rest, laneLatch_rest', -laneStop_rest, laneStop_rest', -voterFail_rest, voterFail_rest', -circuitFault_rest, circuitFault_rest', -circuitClear_rest, circuitClear_rest', -outFaultRaise_rest, outFaultRaise_rest', -outputs_rest, outputs_rest']; repeat' (first | rfl | apply And.intro)) | rfl, by simp [itemsBut_wr, itemsBut_inc, itemsBut_addW, itemsBut_maxTo, itemsBut_wrS, itemsBut_judge, itemsBut_timeState, itemsBut_takeSeq, itemsBut_countIn, itemsBut_hold, itemsBut_admit, itemsBut_input, itemsBut_offer, itemsBut_stopNotice, itemsBut_stopEvent, itemsBut_giveUp, itemsBut_verdict, itemsBut_engineFault, itemsBut_ctr, itemsBut_dspTrace, itemsBut_bypass, itemsBut_bypassHw, itemsBut_beginReset, itemsBut_mtrFlush, itemsBut_imageKeep, itemsBut_imageCopy, itemsBut_antState, itemsBut_judgeBias, itemsBut_chainState, itemsBut_showTile, itemsBut_putChan, itemsBut_freeChan, itemsBut_freeWhere, itemsBut_enableChan, itemsBut_place, itemsBut_placeAll, itemsBut_chainsEnable, itemsBut_startTracking, itemsBut_noteGain, itemsBut_stopTracking, itemsBut_snapTrigger, itemsBut_recorder, itemsBut_region, itemsBut_showRegion, itemsBut_lastWords, itemsBut_placeRec, itemsBut_flush, itemsBut_regionLost, itemsBut_setTask, itemsBut_setCore, itemsBut_coreCount, itemsBut_dspRun, itemsBut_dspLeave, itemsBut_dspHold, itemsBut_dspReady, itemsBut_dspWake, itemsBut_wakeAll, itemsBut_chuteTrace, itemsBut_chute, itemsBut_rewind, itemsBut_parityFail, itemsBut_packetIn, itemsBut_noteReply, itemsBut_sessionNote, itemsBut_endSession, itemsBut_laneInputs, itemsBut_laneLatch, itemsBut_laneStop, itemsBut_voterFail, itemsBut_isolate, itemsBut_showLevel, itemsBut_circuitFault, itemsBut_circuitClear, itemsBut_outFaultRaise, itemsBut_sliceFault, itemsBut_showStop, itemsBut_outputs]⟩

theorem permitNotice_rest' (d : Dev)  : (d.permitNotice).rest = { d.rest with stp := { d.stp with withheldBy := (d.permitNotice).stp.withheldBy } } := (permitNotice_spec d ).1

@[simp] theorem permitNotice_fields (d : Dev)  :
    (d.permitNotice).now = d.now ∧ (d.permitNotice).snap = d.snap ∧ (d.permitNotice).committedOnce = d.committedOnce ∧
    (d.permitNotice).staged = d.staged ∧ (d.permitNotice).ctrls = d.ctrls ∧ (d.permitNotice).freeIx = d.freeIx ∧ (d.permitNotice).tim = d.tim ∧
    (d.permitNotice).chutes = d.chutes ∧ (d.permitNotice).stp.lanes = d.stp.lanes ∧ (d.permitNotice).stp.diff = d.stp.diff ∧
    (d.permitNotice).stp.allDiff = d.stp.allDiff ∧ (d.permitNotice).stp.permits = d.stp.permits ∧ (d.permitNotice).stp.out = d.stp.out ∧
    (d.permitNotice).stp.level = d.stp.level ∧ (d.permitNotice).stp.pulsePass = d.stp.pulsePass ∧ (d.permitNotice).stp.sawOpen = d.stp.sawOpen ∧
    (d.permitNotice).stp.sawClosed = d.stp.sawClosed ∧ (d.permitNotice).stp.circuit = d.stp.circuit ∧
    (d.permitNotice).stp.diffSince = d.stp.diffSince ∧ (d.permitNotice).stp.outFault = d.stp.outFault ∧
    (d.permitNotice).stp.outOn = d.stp.outOn ∧ (d.permitNotice).stp.fbSince = d.stp.fbSince ∧ (d.permitNotice).stp.verdict = d.stp.verdict ∧
    (d.permitNotice).stp.ownFail = d.stp.ownFail ∧ (d.permitNotice).stp.series = d.stp.series ∧
    (d.permitNotice).stp.unentered = d.stp.unentered ∧ (d.permitNotice).stp.pendingFence = d.stp.pendingFence ∧
    (d.permitNotice).stp.lastRecord = d.stp.lastRecord ∧ (d.permitNotice).stp.lastEv = d.stp.lastEv ∧
    (d.permitNotice).stp.testsDone = d.stp.testsDone ∧ (d.permitNotice).stp.canSilent = d.stp.canSilent ∧
    (d.permitNotice).stp.remoteSilent = d.stp.remoteSilent ∧ (d.permitNotice).stp.kept = d.stp.kept ∧ (d.permitNotice).stp.mail = d.stp.mail ∧
    (d.permitNotice).stp.remoteLast = d.stp.remoteLast ∧ (d.permitNotice).stp.canLast = d.stp.canLast ∧
    (d.permitNotice).stp.unheard = d.stp.unheard ∧ (d.permitNotice).stp.firstBeacon = d.stp.firstBeacon ∧
    (d.permitNotice).stp.bcnCycle = d.stp.bcnCycle ∧ (d.permitNotice).air = d.air ∧ (d.permitNotice).gns = d.gns ∧
    (d.permitNotice).chiselOut = d.chiselOut ∧ (d.permitNotice).ring = d.ring ∧ (d.permitNotice).can = d.can ∧ (d.permitNotice).mtr = d.mtr ∧
    (d.permitNotice).drk = d.drk ∧ (d.permitNotice).dsp = d.dsp ∧ (d.permitNotice).pwr = d.pwr ∧ (d.permitNotice).peer = d.peer ∧
    (d.permitNotice).com = d.com ∧ KeptCyc (d.permitNotice).cyc d.cyc ∧ KeptHost (d.permitNotice).host d.host ∧
    KeptRcd (d.permitNotice).rcd d.rcd ∧ KeptTlg (d.permitNotice).tlg d.tlg := by
  have h := (permitNotice_spec d ).1
  generalize d.permitNotice = x at h ⊢
  have f {α : Type} (g : Dev → α) : g x.rest = g ({ d.rest with stp := { d.stp with withheldBy := (x).stp.withheldBy } }) := congrArg g h
  exact ⟨f (·.now), f (·.snap), f (·.committedOnce), f (·.staged), f (·.ctrls), f (·.freeIx), f (·.tim), f (·.chutes), f (·.stp.lanes),
    f (·.stp.diff), f (·.stp.allDiff), f (·.stp.permits), f (·.stp.out), f (·.stp.level), f (·.stp.pulsePass), f (·.stp.sawOpen),
    f (·.stp.sawClosed), f (·.stp.circuit), f (·.stp.diffSince), f (·.stp.outFault), f (·.stp.outOn), f (·.stp.fbSince), f (·.stp.verdict),
    f (·.stp.ownFail), f (·.stp.series), f (·.stp.unentered), f (·.stp.pendingFence), f (·.stp.lastRecord), f (·.stp.lastEv),
    f (·.stp.testsDone), f (·.stp.canSilent), f (·.stp.remoteSilent), f (·.stp.kept), f (·.stp.mail), f (·.stp.remoteLast), f (·.stp.canLast),
    f (·.stp.unheard), f (·.stp.firstBeacon), f (·.stp.bcnCycle), f (·.air), f (·.gns), f (·.chiselOut), f (·.ring), f (·.can), f (·.mtr),
    f (·.drk), f (·.dsp), f (·.pwr), f (·.peer), f (·.com), KeptCyc.of (f (·.cyc)), KeptHost.of (f (·.host)), KeptRcd.of (f (·.rcd)),
    KeptTlg.of (f (·.tlg))⟩

@[simp] theorem permitNotice_rest (d : Dev)  : (d.permitNotice).rest =
    { d.rest with stp := (d.permitNotice).stp } := by
  have h := (permitNotice_spec d ).1
  generalize d.permitNotice = x at h ⊢
  have f {α : Type} (g : Dev → α) : g x.rest = g ({ d.rest with stp := { d.stp with withheldBy := (x).stp.withheldBy } }) := congrArg g h
  exact dev_ext (f (·.now)) rfl (f (·.snap)) (f (·.committedOnce)) rfl (f (·.staged)) (f (·.ctrls)) rfl (f (·.freeIx)) (f (·.tim)) (f (·.cyc)) (f (·.host))
    (f (·.chutes)) (f (·.rcd)) rfl (f (·.air)) (f (·.gns)) (f (·.chiselOut)) (f (·.ring)) (f (·.can)) (f (·.mtr)) (f (·.drk)) (f (·.dsp))
    (f (·.tlg)) (f (·.pwr)) (f (·.peer)) (f (·.com))

theorem permitNotice_reads (d : Dev)  : ∀ id jq, reportItem id = false  →
    (d.permitNotice).rd id jq = d.rd id jq ∧ (d.permitNotice).isSticky id jq = d.isSticky id jq ∧ (d.permitNotice).cf id jq = d.cf id jq := by
  intro id jq hr 
  have h := (permitNotice_spec d ).2 id jq hr (by simp) (by simp)
  have e : (d.permitNotice).staged = d.staged := by simp
  refine ⟨h.1, h.2, ?_⟩
  simp only [Dev.cf, e, h.1]

theorem itemsBut_permitNotice {ids : List Nat} {ks : List (Nat × Nat)} (d e : Dev)   :
    ItemsBut ids ks (d.permitNotice) e ↔ ItemsBut ids ks d e :=
  itemsBut_congr ((permitNotice_spec d ).2.mono (by simp) (by simp)) e

/-- A stop frame series. -/
theorem startSeries_spec (d : Dev) (old : Nat) : (d.startSeries old).rest = { d.rest with stp := { d.stp with series := (d.startSeries old).stp.series } } ∧
    ItemsBut [] [] (d.startSeries old) d := by
  unfold Dev.startSeries
  try simp only []
  repeat' split
  all_goals
    exact ⟨by first | (simp [itemsBut_self, -judge_rest, judge_rest', -timeState_rest, timeState_rest', -takeSeq_rest, takeSeq_rest', -hold_rest, hold_rest', -admit_rest, admit_rest', -input_rest, input_rest', -offer_rest, offer_rest', -stopNotice_rest, stopNotice_rest', -stopEvent_rest, stopEvent_rest', -giveUp_rest, giveUp_rest', -verdict_rest, verdict_rest', -engineFault_rest, engineFault_rest', -ctr_rest, ctr_rest', -beginReset_rest, beginReset_rest', -imageKeep_rest, imageKeep_rest', -imageCopy_rest, imageCopy_rest', -lastWords_rest, lastWords_rest', -placeRec_rest, placeRec_rest', -setTask_rest, setTask_rest', -setCore_rest, setCore_rest', -coreCount_rest, coreCount_rest', -dspRun_rest, dspRun_rest', -dspLeave_rest, dspLeave_rest', -dspHold_rest, dspHold_rest', -dspReady_rest, dspReady_rest', -dspWake_rest, dspWake_rest', -wakeAll_rest, wakeAll_rest', -packetIn_rest, packetIn_rest', -endSession_rest, endSession_rest', -laneInputs_rest, laneInputs_rest', -laneLatch_rest, laneLatch_rest', -laneStop_rest, laneStop_rest', -voterFail_rest, voterFail_rest', -circuitFault_rest, circuitFault_rest', -circuitClear_rest, circuitClear_rest', -outFaultRaise_rest, outFaultRaise_rest', -outputs_rest, outputs_rest', -permitNotice_rest, permitNotice_rest']; done) | (simp [itemsBut_self, -judge_rest, judge_rest', -timeState_rest, timeState_rest', -takeSeq_rest, takeSeq_rest', -hold_rest, hold_rest', -admit_rest, admit_rest', -input_rest, input_rest', -offer_rest, offer_rest', -stopNotice_rest, stopNotice_rest', -stopEvent_rest, stopEvent_rest', -giveUp_rest, giveUp_rest', -verdict_rest, verdict_rest', -engineFault_rest, engineFault_rest', -ctr_rest, ctr_rest', -beginReset_rest, beginReset_rest', -imageKeep_rest, imageKeep_rest', -imageCopy_rest, imageCopy_rest', -lastWords_rest, lastWords_rest', -placeRec_rest, placeRec_rest', -setTask_rest, setTask_rest', -setCore_rest, setCore_rest', -coreCount_rest, coreCount_rest', -dspRun_rest, dspRun_rest', -dspLeave_rest, dspLeave_rest', -dspHold_rest, dspHold_rest', -dspReady_rest, dspReady_rest', -dspWake_rest, dspWake_rest', -wakeAll_rest, wakeAll_rest', -packetIn_rest, packetIn_rest', -endSession_rest, endSession_rest', -laneInputs_rest, laneInputs_rest', -laneLatch_rest, laneLatch_rest', -laneStop_rest, laneStop_rest', -voterFail_rest, voterFail_rest', -circuitFault_rest, circuitFault_rest', -circuitClear_rest, circuitClear_rest', -outFaultRaise_rest, outFaultRaise_rest', -outputs_rest, outputs_rest', -permitNotice_rest, permitNotice_rest']; repeat' (first | rfl | apply And.intro)) | rfl, by simp [itemsBut_wr, itemsBut_inc, itemsBut_addW, itemsBut_maxTo, itemsBut_wrS, itemsBut_judge, itemsBut_timeState, itemsBut_takeSeq, itemsBut_countIn, itemsBut_hold, itemsBut_admit, itemsBut_input, itemsBut_offer, itemsBut_stopNotice, itemsBut_stopEvent, itemsBut_giveUp, itemsBut_verdict, itemsBut_engineFault, itemsBut_ctr, itemsBut_dspTrace, itemsBut_bypass, itemsBut_bypassHw, itemsBut_beginReset, itemsBut_mtrFlush, itemsBut_imageKeep, itemsBut_imageCopy, itemsBut_antState, itemsBut_judgeBias, itemsBut_chainState, itemsBut_showTile, itemsBut_putChan, itemsBut_freeChan, itemsBut_freeWhere, itemsBut_enableChan, itemsBut_place, itemsBut_placeAll, itemsBut_chainsEnable, itemsBut_startTracking, itemsBut_noteGain, itemsBut_stopTracking, itemsBut_snapTrigger, itemsBut_recorder, itemsBut_region, itemsBut_showRegion, itemsBut_lastWords, itemsBut_placeRec, itemsBut_flush, itemsBut_regionLost, itemsBut_setTask, itemsBut_setCore, itemsBut_coreCount, itemsBut_dspRun, itemsBut_dspLeave, itemsBut_dspHold, itemsBut_dspReady, itemsBut_dspWake, itemsBut_wakeAll, itemsBut_chuteTrace, itemsBut_chute, itemsBut_rewind, itemsBut_parityFail, itemsBut_packetIn, itemsBut_noteReply, itemsBut_sessionNote, itemsBut_endSession, itemsBut_laneInputs, itemsBut_laneLatch, itemsBut_laneStop, itemsBut_voterFail, itemsBut_isolate, itemsBut_showLevel, itemsBut_circuitFault, itemsBut_circuitClear, itemsBut_outFaultRaise, itemsBut_sliceFault, itemsBut_showStop, itemsBut_outputs, itemsBut_permitNotice]⟩

theorem startSeries_rest' (d : Dev) (old : Nat) : (d.startSeries old).rest = { d.rest with stp := { d.stp with series := (d.startSeries old).stp.series } } := (startSeries_spec d old).1

@[simp] theorem startSeries_fields (d : Dev) (old : Nat) :
    (d.startSeries old).now = d.now ∧ (d.startSeries old).snap = d.snap ∧ (d.startSeries old).committedOnce = d.committedOnce ∧
    (d.startSeries old).staged = d.staged ∧ (d.startSeries old).ctrls = d.ctrls ∧ (d.startSeries old).freeIx = d.freeIx ∧
    (d.startSeries old).tim = d.tim ∧ (d.startSeries old).chutes = d.chutes ∧ (d.startSeries old).stp.lanes = d.stp.lanes ∧
    (d.startSeries old).stp.diff = d.stp.diff ∧ (d.startSeries old).stp.allDiff = d.stp.allDiff ∧
    (d.startSeries old).stp.permits = d.stp.permits ∧ (d.startSeries old).stp.out = d.stp.out ∧ (d.startSeries old).stp.level = d.stp.level ∧
    (d.startSeries old).stp.pulsePass = d.stp.pulsePass ∧ (d.startSeries old).stp.sawOpen = d.stp.sawOpen ∧
    (d.startSeries old).stp.sawClosed = d.stp.sawClosed ∧ (d.startSeries old).stp.circuit = d.stp.circuit ∧
    (d.startSeries old).stp.diffSince = d.stp.diffSince ∧ (d.startSeries old).stp.outFault = d.stp.outFault ∧
    (d.startSeries old).stp.outOn = d.stp.outOn ∧ (d.startSeries old).stp.fbSince = d.stp.fbSince ∧
    (d.startSeries old).stp.verdict = d.stp.verdict ∧ (d.startSeries old).stp.ownFail = d.stp.ownFail ∧
    (d.startSeries old).stp.withheldBy = d.stp.withheldBy ∧ (d.startSeries old).stp.unentered = d.stp.unentered ∧
    (d.startSeries old).stp.pendingFence = d.stp.pendingFence ∧ (d.startSeries old).stp.lastRecord = d.stp.lastRecord ∧
    (d.startSeries old).stp.lastEv = d.stp.lastEv ∧ (d.startSeries old).stp.testsDone = d.stp.testsDone ∧
    (d.startSeries old).stp.canSilent = d.stp.canSilent ∧ (d.startSeries old).stp.remoteSilent = d.stp.remoteSilent ∧
    (d.startSeries old).stp.kept = d.stp.kept ∧ (d.startSeries old).stp.mail = d.stp.mail ∧
    (d.startSeries old).stp.remoteLast = d.stp.remoteLast ∧ (d.startSeries old).stp.canLast = d.stp.canLast ∧
    (d.startSeries old).stp.unheard = d.stp.unheard ∧ (d.startSeries old).stp.firstBeacon = d.stp.firstBeacon ∧
    (d.startSeries old).stp.bcnCycle = d.stp.bcnCycle ∧ (d.startSeries old).air = d.air ∧ (d.startSeries old).gns = d.gns ∧
    (d.startSeries old).chiselOut = d.chiselOut ∧ (d.startSeries old).ring = d.ring ∧ (d.startSeries old).can = d.can ∧
    (d.startSeries old).mtr = d.mtr ∧ (d.startSeries old).drk = d.drk ∧ (d.startSeries old).dsp = d.dsp ∧ (d.startSeries old).pwr = d.pwr ∧
    (d.startSeries old).peer = d.peer ∧ (d.startSeries old).com = d.com ∧ KeptCyc (d.startSeries old).cyc d.cyc ∧
    KeptHost (d.startSeries old).host d.host ∧ KeptRcd (d.startSeries old).rcd d.rcd ∧ KeptTlg (d.startSeries old).tlg d.tlg := by
  have h := (startSeries_spec d old).1
  generalize d.startSeries old = x at h ⊢
  have f {α : Type} (g : Dev → α) : g x.rest = g ({ d.rest with stp := { d.stp with series := (x).stp.series } }) := congrArg g h
  exact ⟨f (·.now), f (·.snap), f (·.committedOnce), f (·.staged), f (·.ctrls), f (·.freeIx), f (·.tim), f (·.chutes), f (·.stp.lanes),
    f (·.stp.diff), f (·.stp.allDiff), f (·.stp.permits), f (·.stp.out), f (·.stp.level), f (·.stp.pulsePass), f (·.stp.sawOpen),
    f (·.stp.sawClosed), f (·.stp.circuit), f (·.stp.diffSince), f (·.stp.outFault), f (·.stp.outOn), f (·.stp.fbSince), f (·.stp.verdict),
    f (·.stp.ownFail), f (·.stp.withheldBy), f (·.stp.unentered), f (·.stp.pendingFence), f (·.stp.lastRecord), f (·.stp.lastEv),
    f (·.stp.testsDone), f (·.stp.canSilent), f (·.stp.remoteSilent), f (·.stp.kept), f (·.stp.mail), f (·.stp.remoteLast), f (·.stp.canLast),
    f (·.stp.unheard), f (·.stp.firstBeacon), f (·.stp.bcnCycle), f (·.air), f (·.gns), f (·.chiselOut), f (·.ring), f (·.can), f (·.mtr),
    f (·.drk), f (·.dsp), f (·.pwr), f (·.peer), f (·.com), KeptCyc.of (f (·.cyc)), KeptHost.of (f (·.host)), KeptRcd.of (f (·.rcd)),
    KeptTlg.of (f (·.tlg))⟩

@[simp] theorem startSeries_rest (d : Dev) (old : Nat) : (d.startSeries old).rest =
    { d.rest with stp := (d.startSeries old).stp } := by
  have h := (startSeries_spec d old).1
  generalize d.startSeries old = x at h ⊢
  have f {α : Type} (g : Dev → α) : g x.rest = g ({ d.rest with stp := { d.stp with series := (x).stp.series } }) := congrArg g h
  exact dev_ext (f (·.now)) rfl (f (·.snap)) (f (·.committedOnce)) rfl (f (·.staged)) (f (·.ctrls)) rfl (f (·.freeIx)) (f (·.tim)) (f (·.cyc)) (f (·.host))
    (f (·.chutes)) (f (·.rcd)) rfl (f (·.air)) (f (·.gns)) (f (·.chiselOut)) (f (·.ring)) (f (·.can)) (f (·.mtr)) (f (·.drk)) (f (·.dsp))
    (f (·.tlg)) (f (·.pwr)) (f (·.peer)) (f (·.com))

theorem startSeries_reads (d : Dev) (old : Nat) : ∀ id jq, reportItem id = false  →
    (d.startSeries old).rd id jq = d.rd id jq ∧ (d.startSeries old).isSticky id jq = d.isSticky id jq ∧ (d.startSeries old).cf id jq = d.cf id jq := by
  intro id jq hr 
  have h := (startSeries_spec d old).2 id jq hr (by simp) (by simp)
  have e : (d.startSeries old).staged = d.staged := by simp
  refine ⟨h.1, h.2, ?_⟩
  simp only [Dev.cf, e, h.1]

theorem itemsBut_startSeries {ids : List Nat} {ks : List (Nat × Nat)} (d e : Dev) (old : Nat)  :
    ItemsBut ids ks (d.startSeries old) e ↔ ItemsBut ids ks d e :=
  itemsBut_congr ((startSeries_spec d old).2.mono (by simp) (by simp)) e

/-- The voter's comparison. -/
theorem compareLanes_spec (d : Dev)  : (d.compareLanes).rest = { d.rest with stp := { d.stp with lastEv := (d.compareLanes).stp.lastEv, lanes := (d.compareLanes).stp.lanes, unentered := (d.compareLanes).stp.unentered, diff := (d.compareLanes).stp.diff, allDiff := (d.compareLanes).stp.allDiff }, peer := { d.peer with seatDriven := (d.compareLanes).peer.seatDriven, yielding := (d.compareLanes).peer.yielding, boundary := (d.compareLanes).peer.boundary, takeGot := (d.compareLanes).peer.takeGot }, cyc := { quietCyc d.cyc with adm := (d.compareLanes).cyc.adm, seqs := (d.compareLanes).cyc.seqs, spilled := (d.compareLanes).cyc.spilled } } ∧
    ItemsBut [P.STP_LANE_STATE] [(P.STP_MODE, 0), (P.STP_ISOLATIONS, 0), (P.CYC_EARLY_DROP, 0), (P.CYC_ADMITTED, 0), (P.CYC_LATE, 0), (P.CYC_LATE_SPILL, 0), (P.DPX_GIVEUP_CAUSE, 0)] (d.compareLanes) d := by
  unfold Dev.compareLanes
  try simp only []
  repeat' split
  all_goals
    exact ⟨by first | (simp [itemsBut_self, -judge_rest, judge_rest', -timeState_rest, timeState_rest', -takeSeq_rest, takeSeq_rest', -hold_rest, hold_rest', -admit_rest, admit_rest', -input_rest, input_rest', -offer_rest, offer_rest', -stopNotice_rest, stopNotice_rest', -stopEvent_rest, stopEvent_rest', -giveUp_rest, giveUp_rest', -verdict_rest, verdict_rest', -engineFault_rest, engineFault_rest', -ctr_rest, ctr_rest', -beginReset_rest, beginReset_rest', -imageKeep_rest, imageKeep_rest', -imageCopy_rest, imageCopy_rest', -lastWords_rest, lastWords_rest', -placeRec_rest, placeRec_rest', -setTask_rest, setTask_rest', -setCore_rest, setCore_rest', -coreCount_rest, coreCount_rest', -dspRun_rest, dspRun_rest', -dspLeave_rest, dspLeave_rest', -dspHold_rest, dspHold_rest', -dspReady_rest, dspReady_rest', -dspWake_rest, dspWake_rest', -wakeAll_rest, wakeAll_rest', -packetIn_rest, packetIn_rest', -endSession_rest, endSession_rest', -laneInputs_rest, laneInputs_rest', -laneLatch_rest, laneLatch_rest', -laneStop_rest, laneStop_rest', -voterFail_rest, voterFail_rest', -circuitFault_rest, circuitFault_rest', -circuitClear_rest, circuitClear_rest', -outFaultRaise_rest, outFaultRaise_rest', -outputs_rest, outputs_rest', -permitNotice_rest, permitNotice_rest', -startSeries_rest, startSeries_rest']; done) | (simp [itemsBut_self, -judge_rest, judge_rest', -timeState_rest, timeState_rest', -takeSeq_rest, takeSeq_rest', -hold_rest, hold_rest', -admit_rest, admit_rest', -input_rest, input_rest', -offer_rest, offer_rest', -stopNotice_rest, stopNotice_rest', -stopEvent_rest, stopEvent_rest', -giveUp_rest, giveUp_rest', -verdict_rest, verdict_rest', -engineFault_rest, engineFault_rest', -ctr_rest, ctr_rest', -beginReset_rest, beginReset_rest', -imageKeep_rest, imageKeep_rest', -imageCopy_rest, imageCopy_rest', -lastWords_rest, lastWords_rest', -placeRec_rest, placeRec_rest', -setTask_rest, setTask_rest', -setCore_rest, setCore_rest', -coreCount_rest, coreCount_rest', -dspRun_rest, dspRun_rest', -dspLeave_rest, dspLeave_rest', -dspHold_rest, dspHold_rest', -dspReady_rest, dspReady_rest', -dspWake_rest, dspWake_rest', -wakeAll_rest, wakeAll_rest', -packetIn_rest, packetIn_rest', -endSession_rest, endSession_rest', -laneInputs_rest, laneInputs_rest', -laneLatch_rest, laneLatch_rest', -laneStop_rest, laneStop_rest', -voterFail_rest, voterFail_rest', -circuitFault_rest, circuitFault_rest', -circuitClear_rest, circuitClear_rest', -outFaultRaise_rest, outFaultRaise_rest', -outputs_rest, outputs_rest', -permitNotice_rest, permitNotice_rest', -startSeries_rest, startSeries_rest']; repeat' (first | rfl | apply And.intro)) | rfl, by simp [itemsBut_wr, itemsBut_inc, itemsBut_addW, itemsBut_maxTo, itemsBut_wrS, itemsBut_judge, itemsBut_timeState, itemsBut_takeSeq, itemsBut_countIn, itemsBut_hold, itemsBut_admit, itemsBut_input, itemsBut_offer, itemsBut_stopNotice, itemsBut_stopEvent, itemsBut_giveUp, itemsBut_verdict, itemsBut_engineFault, itemsBut_ctr, itemsBut_dspTrace, itemsBut_bypass, itemsBut_bypassHw, itemsBut_beginReset, itemsBut_mtrFlush, itemsBut_imageKeep, itemsBut_imageCopy, itemsBut_antState, itemsBut_judgeBias, itemsBut_chainState, itemsBut_showTile, itemsBut_putChan, itemsBut_freeChan, itemsBut_freeWhere, itemsBut_enableChan, itemsBut_place, itemsBut_placeAll, itemsBut_chainsEnable, itemsBut_startTracking, itemsBut_noteGain, itemsBut_stopTracking, itemsBut_snapTrigger, itemsBut_recorder, itemsBut_region, itemsBut_showRegion, itemsBut_lastWords, itemsBut_placeRec, itemsBut_flush, itemsBut_regionLost, itemsBut_setTask, itemsBut_setCore, itemsBut_coreCount, itemsBut_dspRun, itemsBut_dspLeave, itemsBut_dspHold, itemsBut_dspReady, itemsBut_dspWake, itemsBut_wakeAll, itemsBut_chuteTrace, itemsBut_chute, itemsBut_rewind, itemsBut_parityFail, itemsBut_packetIn, itemsBut_noteReply, itemsBut_sessionNote, itemsBut_endSession, itemsBut_laneInputs, itemsBut_laneLatch, itemsBut_laneStop, itemsBut_voterFail, itemsBut_isolate, itemsBut_showLevel, itemsBut_circuitFault, itemsBut_circuitClear, itemsBut_outFaultRaise, itemsBut_sliceFault, itemsBut_showStop, itemsBut_outputs, itemsBut_permitNotice, itemsBut_startSeries]⟩

theorem compareLanes_rest' (d : Dev)  : (d.compareLanes).rest = { d.rest with stp := { d.stp with lastEv := (d.compareLanes).stp.lastEv, lanes := (d.compareLanes).stp.lanes, unentered := (d.compareLanes).stp.unentered, diff := (d.compareLanes).stp.diff, allDiff := (d.compareLanes).stp.allDiff }, peer := { d.peer with seatDriven := (d.compareLanes).peer.seatDriven, yielding := (d.compareLanes).peer.yielding, boundary := (d.compareLanes).peer.boundary, takeGot := (d.compareLanes).peer.takeGot }, cyc := { quietCyc d.cyc with adm := (d.compareLanes).cyc.adm, seqs := (d.compareLanes).cyc.seqs, spilled := (d.compareLanes).cyc.spilled } } := (compareLanes_spec d ).1

@[simp] theorem compareLanes_fields (d : Dev)  :
    (d.compareLanes).now = d.now ∧ (d.compareLanes).snap = d.snap ∧ (d.compareLanes).committedOnce = d.committedOnce ∧
    (d.compareLanes).staged = d.staged ∧ (d.compareLanes).ctrls = d.ctrls ∧ (d.compareLanes).freeIx = d.freeIx ∧ (d.compareLanes).tim = d.tim ∧
    (d.compareLanes).chutes = d.chutes ∧ (d.compareLanes).stp.permits = d.stp.permits ∧ (d.compareLanes).stp.out = d.stp.out ∧
    (d.compareLanes).stp.level = d.stp.level ∧ (d.compareLanes).stp.pulsePass = d.stp.pulsePass ∧ (d.compareLanes).stp.sawOpen = d.stp.sawOpen ∧
    (d.compareLanes).stp.sawClosed = d.stp.sawClosed ∧ (d.compareLanes).stp.circuit = d.stp.circuit ∧
    (d.compareLanes).stp.diffSince = d.stp.diffSince ∧ (d.compareLanes).stp.outFault = d.stp.outFault ∧
    (d.compareLanes).stp.outOn = d.stp.outOn ∧ (d.compareLanes).stp.fbSince = d.stp.fbSince ∧ (d.compareLanes).stp.verdict = d.stp.verdict ∧
    (d.compareLanes).stp.ownFail = d.stp.ownFail ∧ (d.compareLanes).stp.withheldBy = d.stp.withheldBy ∧
    (d.compareLanes).stp.series = d.stp.series ∧ (d.compareLanes).stp.pendingFence = d.stp.pendingFence ∧
    (d.compareLanes).stp.lastRecord = d.stp.lastRecord ∧ (d.compareLanes).stp.testsDone = d.stp.testsDone ∧
    (d.compareLanes).stp.canSilent = d.stp.canSilent ∧ (d.compareLanes).stp.remoteSilent = d.stp.remoteSilent ∧
    (d.compareLanes).stp.kept = d.stp.kept ∧ (d.compareLanes).stp.mail = d.stp.mail ∧ (d.compareLanes).stp.remoteLast = d.stp.remoteLast ∧
    (d.compareLanes).stp.canLast = d.stp.canLast ∧ (d.compareLanes).stp.unheard = d.stp.unheard ∧
    (d.compareLanes).stp.firstBeacon = d.stp.firstBeacon ∧ (d.compareLanes).stp.bcnCycle = d.stp.bcnCycle ∧ (d.compareLanes).air = d.air ∧
    (d.compareLanes).gns = d.gns ∧ (d.compareLanes).chiselOut = d.chiselOut ∧ (d.compareLanes).ring = d.ring ∧ (d.compareLanes).can = d.can ∧
    (d.compareLanes).mtr = d.mtr ∧ (d.compareLanes).drk = d.drk ∧ (d.compareLanes).dsp = d.dsp ∧ (d.compareLanes).pwr = d.pwr ∧
    (d.compareLanes).peer.seatHigh = d.peer.seatHigh ∧ (d.compareLanes).peer.giveB = d.peer.giveB ∧
    (d.compareLanes).peer.takeSent = d.peer.takeSent ∧ (d.compareLanes).peer.hbSeq = d.peer.hbSeq ∧
    (d.compareLanes).peer.hbLastSeq = d.peer.hbLastSeq ∧ (d.compareLanes).peer.hbLastAt = d.peer.hbLastAt ∧
    (d.compareLanes).peer.restored = d.peer.restored ∧ (d.compareLanes).peer.trained = d.peer.trained ∧ (d.compareLanes).peer.key = d.peer.key ∧
    (d.compareLanes).peer.peerTenure = d.peer.peerTenure ∧ (d.compareLanes).peer.peerMode = d.peer.peerMode ∧
    (d.compareLanes).peer.peerCycle = d.peer.peerCycle ∧ (d.compareLanes).peer.peerOffset = d.peer.peerOffset ∧
    (d.compareLanes).peer.digestSkip = d.peer.digestSkip ∧ (d.compareLanes).peer.lastCopy = d.peer.lastCopy ∧
    (d.compareLanes).peer.waitCheckpoint = d.peer.waitCheckpoint ∧ (d.compareLanes).peer.matchRun = d.peer.matchRun ∧
    (d.compareLanes).peer.mismatchRun = d.peer.mismatchRun ∧ (d.compareLanes).peer.holdFrom = d.peer.holdFrom ∧
    (d.compareLanes).peer.holdMismatch = d.peer.holdMismatch ∧ (d.compareLanes).peer.claim = d.peer.claim ∧
    (d.compareLanes).peer.refused = d.peer.refused ∧ (d.compareLanes).peer.silentAt = d.peer.silentAt ∧
    (d.compareLanes).peer.restarts = d.peer.restarts ∧ (d.compareLanes).peer.beaconCycles = d.peer.beaconCycles ∧
    (d.compareLanes).peer.foreign = d.peer.foreign ∧ (d.compareLanes).peer.fwd = d.peer.fwd ∧
    (d.compareLanes).peer.lossLatch = d.peer.lossLatch ∧ (d.compareLanes).peer.lastState = d.peer.lastState ∧ (d.compareLanes).com = d.com ∧
    (d.compareLanes).cyc.origin = d.cyc.origin ∧ (d.compareLanes).cyc.next = d.cyc.next ∧ (d.compareLanes).cyc.floor = d.cyc.floor ∧
    (d.compareLanes).cyc.inCommit = d.cyc.inCommit ∧ (d.compareLanes).cyc.defer = d.cyc.defer ∧ (d.compareLanes).cyc.journal = d.cyc.journal ∧
    (d.compareLanes).cyc.feed = d.cyc.feed ∧ (d.compareLanes).cyc.skipped = d.cyc.skipped ∧ (d.compareLanes).cyc.overrun = d.cyc.overrun ∧
    (d.compareLanes).cyc.missed = d.cyc.missed ∧ (d.compareLanes).cyc.flagCold = d.cyc.flagCold ∧
    (d.compareLanes).cyc.flagStep = d.cyc.flagStep ∧ (d.compareLanes).cyc.flagTake = d.cyc.flagTake ∧
    (d.compareLanes).cyc.lastCommitAt = d.cyc.lastCommitAt ∧ (d.compareLanes).cyc.changedCov = d.cyc.changedCov ∧
    (d.compareLanes).cyc.covBase = d.cyc.covBase ∧ KeptHost (d.compareLanes).host d.host ∧ KeptRcd (d.compareLanes).rcd d.rcd ∧
    KeptTlg (d.compareLanes).tlg d.tlg := by
  have h := (compareLanes_spec d ).1
  generalize d.compareLanes = x at h ⊢
  have f {α : Type} (g : Dev → α) : g x.rest = g ({ d.rest with stp := { d.stp with lastEv := (x).stp.lastEv, lanes := (x).stp.lanes, unentered := (x).stp.unentered, diff := (x).stp.diff, allDiff := (x).stp.allDiff }, peer := { d.peer with seatDriven := (x).peer.seatDriven, yielding := (x).peer.yielding, boundary := (x).peer.boundary, takeGot := (x).peer.takeGot }, cyc := { quietCyc d.cyc with adm := (x).cyc.adm, seqs := (x).cyc.seqs, spilled := (x).cyc.spilled } }) := congrArg g h
  exact ⟨f (·.now), f (·.snap), f (·.committedOnce), f (·.staged), f (·.ctrls), f (·.freeIx), f (·.tim), f (·.chutes), f (·.stp.permits),
    f (·.stp.out), f (·.stp.level), f (·.stp.pulsePass), f (·.stp.sawOpen), f (·.stp.sawClosed), f (·.stp.circuit), f (·.stp.diffSince),
    f (·.stp.outFault), f (·.stp.outOn), f (·.stp.fbSince), f (·.stp.verdict), f (·.stp.ownFail), f (·.stp.withheldBy), f (·.stp.series),
    f (·.stp.pendingFence), f (·.stp.lastRecord), f (·.stp.testsDone), f (·.stp.canSilent), f (·.stp.remoteSilent), f (·.stp.kept),
    f (·.stp.mail), f (·.stp.remoteLast), f (·.stp.canLast), f (·.stp.unheard), f (·.stp.firstBeacon), f (·.stp.bcnCycle), f (·.air), f (·.gns),
    f (·.chiselOut), f (·.ring), f (·.can), f (·.mtr), f (·.drk), f (·.dsp), f (·.pwr), f (·.peer.seatHigh), f (·.peer.giveB),
    f (·.peer.takeSent), f (·.peer.hbSeq), f (·.peer.hbLastSeq), f (·.peer.hbLastAt), f (·.peer.restored), f (·.peer.trained), f (·.peer.key),
    f (·.peer.peerTenure), f (·.peer.peerMode), f (·.peer.peerCycle), f (·.peer.peerOffset), f (·.peer.digestSkip), f (·.peer.lastCopy),
    f (·.peer.waitCheckpoint), f (·.peer.matchRun), f (·.peer.mismatchRun), f (·.peer.holdFrom), f (·.peer.holdMismatch), f (·.peer.claim),
    f (·.peer.refused), f (·.peer.silentAt), f (·.peer.restarts), f (·.peer.beaconCycles), f (·.peer.foreign), f (·.peer.fwd),
    f (·.peer.lossLatch), f (·.peer.lastState), f (·.com), f (·.cyc.origin), f (·.cyc.next), f (·.cyc.floor), f (·.cyc.inCommit),
    f (·.cyc.defer), f (·.cyc.journal), f (·.cyc.feed), f (·.cyc.skipped), f (·.cyc.overrun), f (·.cyc.missed), f (·.cyc.flagCold),
    f (·.cyc.flagStep), f (·.cyc.flagTake), f (·.cyc.lastCommitAt), f (·.cyc.changedCov), f (·.cyc.covBase), KeptHost.of (f (·.host)),
    KeptRcd.of (f (·.rcd)), KeptTlg.of (f (·.tlg))⟩

@[simp] theorem compareLanes_rest (d : Dev)  : (d.compareLanes).rest =
    { d.rest with stp := (d.compareLanes).stp, peer := (d.compareLanes).peer, cyc := quietCyc (d.compareLanes).cyc } := by
  have h := (compareLanes_spec d ).1
  generalize d.compareLanes = x at h ⊢
  have f {α : Type} (g : Dev → α) : g x.rest = g ({ d.rest with stp := { d.stp with lastEv := (x).stp.lastEv, lanes := (x).stp.lanes, unentered := (x).stp.unentered, diff := (x).stp.diff, allDiff := (x).stp.allDiff }, peer := { d.peer with seatDriven := (x).peer.seatDriven, yielding := (x).peer.yielding, boundary := (x).peer.boundary, takeGot := (x).peer.takeGot }, cyc := { quietCyc d.cyc with adm := (x).cyc.adm, seqs := (x).cyc.seqs, spilled := (x).cyc.spilled } }) := congrArg g h
  exact dev_ext (f (·.now)) rfl (f (·.snap)) (f (·.committedOnce)) rfl (f (·.staged)) (f (·.ctrls)) rfl (f (·.freeIx)) (f (·.tim)) rfl (f (·.host))
    (f (·.chutes)) (f (·.rcd)) rfl (f (·.air)) (f (·.gns)) (f (·.chiselOut)) (f (·.ring)) (f (·.can)) (f (·.mtr)) (f (·.drk)) (f (·.dsp))
    (f (·.tlg)) (f (·.pwr)) rfl (f (·.com))

theorem compareLanes_reads (d : Dev)  : ∀ id jq, reportItem id = false → id ≠ P.STP_LANE_STATE → id ≠ P.STP_MODE → id ≠ P.STP_ISOLATIONS → id ≠ P.CYC_EARLY_DROP → id ≠ P.CYC_ADMITTED → id ≠ P.CYC_LATE → id ≠ P.CYC_LATE_SPILL → id ≠ P.DPX_GIVEUP_CAUSE →
    (d.compareLanes).rd id jq = d.rd id jq ∧ (d.compareLanes).isSticky id jq = d.isSticky id jq ∧ (d.compareLanes).cf id jq = d.cf id jq := by
  intro id jq hr h0 h1 h2 h3 h4 h5 h6 h7
  have h := (compareLanes_spec d ).2 id jq hr (by simp [h0, Ne.symm h0, h1, Ne.symm h1, h2, Ne.symm h2, h3, Ne.symm h3, h4, Ne.symm h4, h5, Ne.symm h5, h6, Ne.symm h6, h7, Ne.symm h7]) (by simp [regKey_ne, h0, Ne.symm h0, h1, Ne.symm h1, h2, Ne.symm h2, h3, Ne.symm h3, h4, Ne.symm h4, h5, Ne.symm h5, h6, Ne.symm h6, h7, Ne.symm h7])
  have e : (d.compareLanes).staged = d.staged := by simp
  refine ⟨h.1, h.2, ?_⟩
  simp only [Dev.cf, e, h.1]

theorem compareLanes_at (d : Dev)  : ∀ id jq, reportItem id = false → P.STP_LANE_STATE ≠ id → regKey P.STP_MODE 0 ≠ regKey id jq → regKey P.STP_ISOLATIONS 0 ≠ regKey id jq → regKey P.CYC_EARLY_DROP 0 ≠ regKey id jq → regKey P.CYC_ADMITTED 0 ≠ regKey id jq → regKey P.CYC_LATE 0 ≠ regKey id jq → regKey P.CYC_LATE_SPILL 0 ≠ regKey id jq → regKey P.DPX_GIVEUP_CAUSE 0 ≠ regKey id jq →
    (d.compareLanes).rd id jq = d.rd id jq ∧ (d.compareLanes).isSticky id jq = d.isSticky id jq ∧ (d.compareLanes).cf id jq = d.cf id jq := by
  intro id jq hr h0 h1 h2 h3 h4 h5 h6 h7
  have h := (compareLanes_spec d ).2 id jq hr (by simp [Ne.symm h0]) (by simp [h1, h2, h3, h4, h5, h6, h7])
  have e : (d.compareLanes).staged = d.staged := by simp
  refine ⟨h.1, h.2, ?_⟩
  simp only [Dev.cf, e, h.1]

theorem itemsBut_compareLanes {ids : List Nat} {ks : List (Nat × Nat)} (d e : Dev)  (m0 : P.STP_LANE_STATE ∈ ids) (m1 : P.STP_MODE ∈ ids ∨ (P.STP_MODE, 0) ∈ ks) (m2 : P.STP_ISOLATIONS ∈ ids ∨ (P.STP_ISOLATIONS, 0) ∈ ks) (m3 : P.CYC_EARLY_DROP ∈ ids ∨ (P.CYC_EARLY_DROP, 0) ∈ ks) (m4 : P.CYC_ADMITTED ∈ ids ∨ (P.CYC_ADMITTED, 0) ∈ ks) (m5 : P.CYC_LATE ∈ ids ∨ (P.CYC_LATE, 0) ∈ ks) (m6 : P.CYC_LATE_SPILL ∈ ids ∨ (P.CYC_LATE_SPILL, 0) ∈ ks) (m7 : P.DPX_GIVEUP_CAUSE ∈ ids ∨ (P.DPX_GIVEUP_CAUSE, 0) ∈ ks) :
    ItemsBut ids ks (d.compareLanes) e ↔ ItemsBut ids ks d e :=
  itemsBut_congr ((compareLanes_spec d ).2.mono (by simp [m0]) (by simp [m1, m2, m3, m4, m5, m6, m7])) e

/-- A voter tick. -/
theorem voterTick_spec (d : Dev)  : (d.voterTick).rest = { d.rest with stp := { d.stp with lastEv := (d.voterTick).stp.lastEv, lanes := (d.voterTick).stp.lanes, unentered := (d.voterTick).stp.unentered, diff := (d.voterTick).stp.diff, allDiff := (d.voterTick).stp.allDiff, out := (d.voterTick).stp.out, permits := (d.voterTick).stp.permits, withheldBy := (d.voterTick).stp.withheldBy, series := (d.voterTick).stp.series, outOn := (d.voterTick).stp.outOn }, peer := (d.voterTick).peer, cyc := quietCyc (d.voterTick).cyc } ∧
    ItemsBut [P.STP_LANE_STATE] [(P.STP_MODE, 0), (P.STP_ISOLATIONS, 0), (P.STP_STATE, 0), (P.STP_LATCH_GROUPS, 0), (P.STP_LATCH_MASK, 0), (P.STP_STOP_SEQ, 0), (P.STP_OUT_STATE, 0), (P.CYC_EARLY_DROP, 0), (P.CYC_ADMITTED, 0), (P.CYC_LATE, 0), (P.CYC_LATE_SPILL, 0), (P.DPX_GIVEUP_CAUSE, 0)] (d.voterTick) d := by
  unfold Dev.voterTick
  repeat' split
  all_goals
    exact ⟨by first | (simp [itemsBut_self, -judge_rest, judge_rest', -timeState_rest, timeState_rest', -takeSeq_rest, takeSeq_rest', -hold_rest, hold_rest', -admit_rest, admit_rest', -input_rest, input_rest', -offer_rest, offer_rest', -stopNotice_rest, stopNotice_rest', -stopEvent_rest, stopEvent_rest', -giveUp_rest, giveUp_rest', -verdict_rest, verdict_rest', -engineFault_rest, engineFault_rest', -ctr_rest, ctr_rest', -beginReset_rest, beginReset_rest', -imageKeep_rest, imageKeep_rest', -imageCopy_rest, imageCopy_rest', -lastWords_rest, lastWords_rest', -placeRec_rest, placeRec_rest', -setTask_rest, setTask_rest', -setCore_rest, setCore_rest', -coreCount_rest, coreCount_rest', -dspRun_rest, dspRun_rest', -dspLeave_rest, dspLeave_rest', -dspHold_rest, dspHold_rest', -dspReady_rest, dspReady_rest', -dspWake_rest, dspWake_rest', -wakeAll_rest, wakeAll_rest', -packetIn_rest, packetIn_rest', -endSession_rest, endSession_rest', -laneInputs_rest, laneInputs_rest', -laneLatch_rest, laneLatch_rest', -laneStop_rest, laneStop_rest', -voterFail_rest, voterFail_rest', -circuitFault_rest, circuitFault_rest', -circuitClear_rest, circuitClear_rest', -outFaultRaise_rest, outFaultRaise_rest', -outputs_rest, outputs_rest', -permitNotice_rest, permitNotice_rest', -startSeries_rest, startSeries_rest', -compareLanes_rest, compareLanes_rest']; done) | (simp [itemsBut_self, -judge_rest, judge_rest', -timeState_rest, timeState_rest', -takeSeq_rest, takeSeq_rest', -hold_rest, hold_rest', -admit_rest, admit_rest', -input_rest, input_rest', -offer_rest, offer_rest', -stopNotice_rest, stopNotice_rest', -stopEvent_rest, stopEvent_rest', -giveUp_rest, giveUp_rest', -verdict_rest, verdict_rest', -engineFault_rest, engineFault_rest', -ctr_rest, ctr_rest', -beginReset_rest, beginReset_rest', -imageKeep_rest, imageKeep_rest', -imageCopy_rest, imageCopy_rest', -lastWords_rest, lastWords_rest', -placeRec_rest, placeRec_rest', -setTask_rest, setTask_rest', -setCore_rest, setCore_rest', -coreCount_rest, coreCount_rest', -dspRun_rest, dspRun_rest', -dspLeave_rest, dspLeave_rest', -dspHold_rest, dspHold_rest', -dspReady_rest, dspReady_rest', -dspWake_rest, dspWake_rest', -wakeAll_rest, wakeAll_rest', -packetIn_rest, packetIn_rest', -endSession_rest, endSession_rest', -laneInputs_rest, laneInputs_rest', -laneLatch_rest, laneLatch_rest', -laneStop_rest, laneStop_rest', -voterFail_rest, voterFail_rest', -circuitFault_rest, circuitFault_rest', -circuitClear_rest, circuitClear_rest', -outFaultRaise_rest, outFaultRaise_rest', -outputs_rest, outputs_rest', -permitNotice_rest, permitNotice_rest', -startSeries_rest, startSeries_rest', -compareLanes_rest, compareLanes_rest']; repeat' (first | rfl | apply And.intro)) | rfl, by simp [itemsBut_wr, itemsBut_inc, itemsBut_addW, itemsBut_maxTo, itemsBut_wrS, itemsBut_judge, itemsBut_timeState, itemsBut_takeSeq, itemsBut_countIn, itemsBut_hold, itemsBut_admit, itemsBut_input, itemsBut_offer, itemsBut_stopNotice, itemsBut_stopEvent, itemsBut_giveUp, itemsBut_verdict, itemsBut_engineFault, itemsBut_ctr, itemsBut_dspTrace, itemsBut_bypass, itemsBut_bypassHw, itemsBut_beginReset, itemsBut_mtrFlush, itemsBut_imageKeep, itemsBut_imageCopy, itemsBut_antState, itemsBut_judgeBias, itemsBut_chainState, itemsBut_showTile, itemsBut_putChan, itemsBut_freeChan, itemsBut_freeWhere, itemsBut_enableChan, itemsBut_place, itemsBut_placeAll, itemsBut_chainsEnable, itemsBut_startTracking, itemsBut_noteGain, itemsBut_stopTracking, itemsBut_snapTrigger, itemsBut_recorder, itemsBut_region, itemsBut_showRegion, itemsBut_lastWords, itemsBut_placeRec, itemsBut_flush, itemsBut_regionLost, itemsBut_setTask, itemsBut_setCore, itemsBut_coreCount, itemsBut_dspRun, itemsBut_dspLeave, itemsBut_dspHold, itemsBut_dspReady, itemsBut_dspWake, itemsBut_wakeAll, itemsBut_chuteTrace, itemsBut_chute, itemsBut_rewind, itemsBut_parityFail, itemsBut_packetIn, itemsBut_noteReply, itemsBut_sessionNote, itemsBut_endSession, itemsBut_laneInputs, itemsBut_laneLatch, itemsBut_laneStop, itemsBut_voterFail, itemsBut_isolate, itemsBut_showLevel, itemsBut_circuitFault, itemsBut_circuitClear, itemsBut_outFaultRaise, itemsBut_sliceFault, itemsBut_showStop, itemsBut_outputs, itemsBut_permitNotice, itemsBut_startSeries, itemsBut_compareLanes]⟩

theorem voterTick_rest' (d : Dev)  : (d.voterTick).rest = { d.rest with stp := { d.stp with lastEv := (d.voterTick).stp.lastEv, lanes := (d.voterTick).stp.lanes, unentered := (d.voterTick).stp.unentered, diff := (d.voterTick).stp.diff, allDiff := (d.voterTick).stp.allDiff, out := (d.voterTick).stp.out, permits := (d.voterTick).stp.permits, withheldBy := (d.voterTick).stp.withheldBy, series := (d.voterTick).stp.series, outOn := (d.voterTick).stp.outOn }, peer := (d.voterTick).peer, cyc := quietCyc (d.voterTick).cyc } := (voterTick_spec d ).1

@[simp] theorem voterTick_fields (d : Dev)  :
    (d.voterTick).now = d.now ∧ (d.voterTick).snap = d.snap ∧ (d.voterTick).committedOnce = d.committedOnce ∧ (d.voterTick).staged = d.staged ∧
    (d.voterTick).ctrls = d.ctrls ∧ (d.voterTick).freeIx = d.freeIx ∧ (d.voterTick).tim = d.tim ∧ (d.voterTick).chutes = d.chutes ∧
    (d.voterTick).stp.level = d.stp.level ∧ (d.voterTick).stp.pulsePass = d.stp.pulsePass ∧ (d.voterTick).stp.sawOpen = d.stp.sawOpen ∧
    (d.voterTick).stp.sawClosed = d.stp.sawClosed ∧ (d.voterTick).stp.circuit = d.stp.circuit ∧ (d.voterTick).stp.diffSince = d.stp.diffSince ∧
    (d.voterTick).stp.outFault = d.stp.outFault ∧ (d.voterTick).stp.fbSince = d.stp.fbSince ∧ (d.voterTick).stp.verdict = d.stp.verdict ∧
    (d.voterTick).stp.ownFail = d.stp.ownFail ∧ (d.voterTick).stp.pendingFence = d.stp.pendingFence ∧
    (d.voterTick).stp.lastRecord = d.stp.lastRecord ∧ (d.voterTick).stp.testsDone = d.stp.testsDone ∧
    (d.voterTick).stp.canSilent = d.stp.canSilent ∧ (d.voterTick).stp.remoteSilent = d.stp.remoteSilent ∧ (d.voterTick).stp.kept = d.stp.kept ∧
    (d.voterTick).stp.mail = d.stp.mail ∧ (d.voterTick).stp.remoteLast = d.stp.remoteLast ∧ (d.voterTick).stp.canLast = d.stp.canLast ∧
    (d.voterTick).stp.unheard = d.stp.unheard ∧ (d.voterTick).stp.firstBeacon = d.stp.firstBeacon ∧
    (d.voterTick).stp.bcnCycle = d.stp.bcnCycle ∧ (d.voterTick).air = d.air ∧ (d.voterTick).gns = d.gns ∧
    (d.voterTick).chiselOut = d.chiselOut ∧ (d.voterTick).ring = d.ring ∧ (d.voterTick).can = d.can ∧ (d.voterTick).mtr = d.mtr ∧
    (d.voterTick).drk = d.drk ∧ (d.voterTick).dsp = d.dsp ∧ (d.voterTick).pwr = d.pwr ∧ (d.voterTick).com = d.com ∧
    KeptHost (d.voterTick).host d.host ∧ KeptRcd (d.voterTick).rcd d.rcd ∧ KeptTlg (d.voterTick).tlg d.tlg := by
  have h := (voterTick_spec d ).1
  generalize d.voterTick = x at h ⊢
  have f {α : Type} (g : Dev → α) : g x.rest = g ({ d.rest with stp := { d.stp with lastEv := (x).stp.lastEv, lanes := (x).stp.lanes, unentered := (x).stp.unentered, diff := (x).stp.diff, allDiff := (x).stp.allDiff, out := (x).stp.out, permits := (x).stp.permits, withheldBy := (x).stp.withheldBy, series := (x).stp.series, outOn := (x).stp.outOn }, peer := (x).peer, cyc := quietCyc (x).cyc }) := congrArg g h
  exact ⟨f (·.now), f (·.snap), f (·.committedOnce), f (·.staged), f (·.ctrls), f (·.freeIx), f (·.tim), f (·.chutes), f (·.stp.level),
    f (·.stp.pulsePass), f (·.stp.sawOpen), f (·.stp.sawClosed), f (·.stp.circuit), f (·.stp.diffSince), f (·.stp.outFault), f (·.stp.fbSince),
    f (·.stp.verdict), f (·.stp.ownFail), f (·.stp.pendingFence), f (·.stp.lastRecord), f (·.stp.testsDone), f (·.stp.canSilent),
    f (·.stp.remoteSilent), f (·.stp.kept), f (·.stp.mail), f (·.stp.remoteLast), f (·.stp.canLast), f (·.stp.unheard), f (·.stp.firstBeacon),
    f (·.stp.bcnCycle), f (·.air), f (·.gns), f (·.chiselOut), f (·.ring), f (·.can), f (·.mtr), f (·.drk), f (·.dsp), f (·.pwr), f (·.com),
    KeptHost.of (f (·.host)), KeptRcd.of (f (·.rcd)), KeptTlg.of (f (·.tlg))⟩

@[simp] theorem voterTick_rest (d : Dev)  : (d.voterTick).rest =
    { d.rest with stp := (d.voterTick).stp, peer := (d.voterTick).peer, cyc := quietCyc (d.voterTick).cyc } := by
  have h := (voterTick_spec d ).1
  generalize d.voterTick = x at h ⊢
  have f {α : Type} (g : Dev → α) : g x.rest = g ({ d.rest with stp := { d.stp with lastEv := (x).stp.lastEv, lanes := (x).stp.lanes, unentered := (x).stp.unentered, diff := (x).stp.diff, allDiff := (x).stp.allDiff, out := (x).stp.out, permits := (x).stp.permits, withheldBy := (x).stp.withheldBy, series := (x).stp.series, outOn := (x).stp.outOn }, peer := (x).peer, cyc := quietCyc (x).cyc }) := congrArg g h
  exact dev_ext (f (·.now)) rfl (f (·.snap)) (f (·.committedOnce)) rfl (f (·.staged)) (f (·.ctrls)) rfl (f (·.freeIx)) (f (·.tim)) rfl (f (·.host))
    (f (·.chutes)) (f (·.rcd)) rfl (f (·.air)) (f (·.gns)) (f (·.chiselOut)) (f (·.ring)) (f (·.can)) (f (·.mtr)) (f (·.drk)) (f (·.dsp))
    (f (·.tlg)) (f (·.pwr)) rfl (f (·.com))

theorem voterTick_reads (d : Dev)  : ∀ id jq, reportItem id = false → id ≠ P.STP_LANE_STATE → id ≠ P.STP_MODE → id ≠ P.STP_ISOLATIONS → id ≠ P.STP_STATE → id ≠ P.STP_LATCH_GROUPS → id ≠ P.STP_LATCH_MASK → id ≠ P.STP_STOP_SEQ → id ≠ P.STP_OUT_STATE → id ≠ P.CYC_EARLY_DROP → id ≠ P.CYC_ADMITTED → id ≠ P.CYC_LATE → id ≠ P.CYC_LATE_SPILL → id ≠ P.DPX_GIVEUP_CAUSE →
    (d.voterTick).rd id jq = d.rd id jq ∧ (d.voterTick).isSticky id jq = d.isSticky id jq ∧ (d.voterTick).cf id jq = d.cf id jq := by
  intro id jq hr h0 h1 h2 h3 h4 h5 h6 h7 h8 h9 h10 h11 h12
  have h := (voterTick_spec d ).2 id jq hr (by simp [h0, Ne.symm h0, h1, Ne.symm h1, h2, Ne.symm h2, h3, Ne.symm h3, h4, Ne.symm h4, h5, Ne.symm h5, h6, Ne.symm h6, h7, Ne.symm h7, h8, Ne.symm h8, h9, Ne.symm h9, h10, Ne.symm h10, h11, Ne.symm h11, h12, Ne.symm h12]) (by simp [regKey_ne, h0, Ne.symm h0, h1, Ne.symm h1, h2, Ne.symm h2, h3, Ne.symm h3, h4, Ne.symm h4, h5, Ne.symm h5, h6, Ne.symm h6, h7, Ne.symm h7, h8, Ne.symm h8, h9, Ne.symm h9, h10, Ne.symm h10, h11, Ne.symm h11, h12, Ne.symm h12])
  have e : (d.voterTick).staged = d.staged := by simp
  refine ⟨h.1, h.2, ?_⟩
  simp only [Dev.cf, e, h.1]

theorem voterTick_at (d : Dev)  : ∀ id jq, reportItem id = false → P.STP_LANE_STATE ≠ id → regKey P.STP_MODE 0 ≠ regKey id jq → regKey P.STP_ISOLATIONS 0 ≠ regKey id jq → regKey P.STP_STATE 0 ≠ regKey id jq → regKey P.STP_LATCH_GROUPS 0 ≠ regKey id jq → regKey P.STP_LATCH_MASK 0 ≠ regKey id jq → regKey P.STP_STOP_SEQ 0 ≠ regKey id jq → regKey P.STP_OUT_STATE 0 ≠ regKey id jq → regKey P.CYC_EARLY_DROP 0 ≠ regKey id jq → regKey P.CYC_ADMITTED 0 ≠ regKey id jq → regKey P.CYC_LATE 0 ≠ regKey id jq → regKey P.CYC_LATE_SPILL 0 ≠ regKey id jq → regKey P.DPX_GIVEUP_CAUSE 0 ≠ regKey id jq →
    (d.voterTick).rd id jq = d.rd id jq ∧ (d.voterTick).isSticky id jq = d.isSticky id jq ∧ (d.voterTick).cf id jq = d.cf id jq := by
  intro id jq hr h0 h1 h2 h3 h4 h5 h6 h7 h8 h9 h10 h11 h12
  have h := (voterTick_spec d ).2 id jq hr (by simp [Ne.symm h0]) (by simp [h1, h2, h3, h4, h5, h6, h7, h8, h9, h10, h11, h12])
  have e : (d.voterTick).staged = d.staged := by simp
  refine ⟨h.1, h.2, ?_⟩
  simp only [Dev.cf, e, h.1]

theorem itemsBut_voterTick {ids : List Nat} {ks : List (Nat × Nat)} (d e : Dev)  (m0 : P.STP_LANE_STATE ∈ ids) (m1 : P.STP_MODE ∈ ids ∨ (P.STP_MODE, 0) ∈ ks) (m2 : P.STP_ISOLATIONS ∈ ids ∨ (P.STP_ISOLATIONS, 0) ∈ ks) (m3 : P.STP_STATE ∈ ids ∨ (P.STP_STATE, 0) ∈ ks) (m4 : P.STP_LATCH_GROUPS ∈ ids ∨ (P.STP_LATCH_GROUPS, 0) ∈ ks) (m5 : P.STP_LATCH_MASK ∈ ids ∨ (P.STP_LATCH_MASK, 0) ∈ ks) (m6 : P.STP_STOP_SEQ ∈ ids ∨ (P.STP_STOP_SEQ, 0) ∈ ks) (m7 : P.STP_OUT_STATE ∈ ids ∨ (P.STP_OUT_STATE, 0) ∈ ks) (m8 : P.CYC_EARLY_DROP ∈ ids ∨ (P.CYC_EARLY_DROP, 0) ∈ ks) (m9 : P.CYC_ADMITTED ∈ ids ∨ (P.CYC_ADMITTED, 0) ∈ ks) (m10 : P.CYC_LATE ∈ ids ∨ (P.CYC_LATE, 0) ∈ ks) (m11 : P.CYC_LATE_SPILL ∈ ids ∨ (P.CYC_LATE_SPILL, 0) ∈ ks) (m12 : P.DPX_GIVEUP_CAUSE ∈ ids ∨ (P.DPX_GIVEUP_CAUSE, 0) ∈ ks) :
    ItemsBut ids ks (d.voterTick) e ↔ ItemsBut ids ks d e :=
  itemsBut_congr ((voterTick_spec d ).2.mono (by simp [m0]) (by simp [m1, m2, m3, m4, m5, m6, m7, m8, m9, m10, m11, m12])) e

/-! ### Peer -/

/-- A change of the unit's state. -/
theorem unitState_spec (d : Dev) (s cause : Nat) : (d.unitState s cause).rest = d.rest ∧
    ItemsBut [] [(P.DPX_STATE, 0)] (d.unitState s cause) d := by
  unfold Dev.unitState
  try simp only []
  repeat' split
  all_goals
    exact ⟨by first | (simp [itemsBut_self, -judge_rest, judge_rest', -timeState_rest, timeState_rest', -takeSeq_rest, takeSeq_rest', -hold_rest, hold_rest', -admit_rest, admit_rest', -input_rest, input_rest', -offer_rest, offer_rest', -stopNotice_rest, stopNotice_rest', -stopEvent_rest, stopEvent_rest', -giveUp_rest, giveUp_rest', -verdict_rest, verdict_rest', -engineFault_rest, engineFault_rest', -ctr_rest, ctr_rest', -beginReset_rest, beginReset_rest', -imageKeep_rest, imageKeep_rest', -imageCopy_rest, imageCopy_rest', -lastWords_rest, lastWords_rest', -placeRec_rest, placeRec_rest', -setTask_rest, setTask_rest', -setCore_rest, setCore_rest', -coreCount_rest, coreCount_rest', -dspRun_rest, dspRun_rest', -dspLeave_rest, dspLeave_rest', -dspHold_rest, dspHold_rest', -dspReady_rest, dspReady_rest', -dspWake_rest, dspWake_rest', -wakeAll_rest, wakeAll_rest', -packetIn_rest, packetIn_rest', -endSession_rest, endSession_rest', -laneInputs_rest, laneInputs_rest', -laneLatch_rest, laneLatch_rest', -laneStop_rest, laneStop_rest', -voterFail_rest, voterFail_rest', -circuitFault_rest, circuitFault_rest', -circuitClear_rest, circuitClear_rest', -outFaultRaise_rest, outFaultRaise_rest', -outputs_rest, outputs_rest', -permitNotice_rest, permitNotice_rest', -startSeries_rest, startSeries_rest', -compareLanes_rest, compareLanes_rest', -voterTick_rest, voterTick_rest']; done) | (simp [itemsBut_self, -judge_rest, judge_rest', -timeState_rest, timeState_rest', -takeSeq_rest, takeSeq_rest', -hold_rest, hold_rest', -admit_rest, admit_rest', -input_rest, input_rest', -offer_rest, offer_rest', -stopNotice_rest, stopNotice_rest', -stopEvent_rest, stopEvent_rest', -giveUp_rest, giveUp_rest', -verdict_rest, verdict_rest', -engineFault_rest, engineFault_rest', -ctr_rest, ctr_rest', -beginReset_rest, beginReset_rest', -imageKeep_rest, imageKeep_rest', -imageCopy_rest, imageCopy_rest', -lastWords_rest, lastWords_rest', -placeRec_rest, placeRec_rest', -setTask_rest, setTask_rest', -setCore_rest, setCore_rest', -coreCount_rest, coreCount_rest', -dspRun_rest, dspRun_rest', -dspLeave_rest, dspLeave_rest', -dspHold_rest, dspHold_rest', -dspReady_rest, dspReady_rest', -dspWake_rest, dspWake_rest', -wakeAll_rest, wakeAll_rest', -packetIn_rest, packetIn_rest', -endSession_rest, endSession_rest', -laneInputs_rest, laneInputs_rest', -laneLatch_rest, laneLatch_rest', -laneStop_rest, laneStop_rest', -voterFail_rest, voterFail_rest', -circuitFault_rest, circuitFault_rest', -circuitClear_rest, circuitClear_rest', -outFaultRaise_rest, outFaultRaise_rest', -outputs_rest, outputs_rest', -permitNotice_rest, permitNotice_rest', -startSeries_rest, startSeries_rest', -compareLanes_rest, compareLanes_rest', -voterTick_rest, voterTick_rest']; repeat' (first | rfl | apply And.intro)) | rfl, by simp [itemsBut_wr, itemsBut_inc, itemsBut_addW, itemsBut_maxTo, itemsBut_wrS, itemsBut_judge, itemsBut_timeState, itemsBut_takeSeq, itemsBut_countIn, itemsBut_hold, itemsBut_admit, itemsBut_input, itemsBut_offer, itemsBut_stopNotice, itemsBut_stopEvent, itemsBut_giveUp, itemsBut_verdict, itemsBut_engineFault, itemsBut_ctr, itemsBut_dspTrace, itemsBut_bypass, itemsBut_bypassHw, itemsBut_beginReset, itemsBut_mtrFlush, itemsBut_imageKeep, itemsBut_imageCopy, itemsBut_antState, itemsBut_judgeBias, itemsBut_chainState, itemsBut_showTile, itemsBut_putChan, itemsBut_freeChan, itemsBut_freeWhere, itemsBut_enableChan, itemsBut_place, itemsBut_placeAll, itemsBut_chainsEnable, itemsBut_startTracking, itemsBut_noteGain, itemsBut_stopTracking, itemsBut_snapTrigger, itemsBut_recorder, itemsBut_region, itemsBut_showRegion, itemsBut_lastWords, itemsBut_placeRec, itemsBut_flush, itemsBut_regionLost, itemsBut_setTask, itemsBut_setCore, itemsBut_coreCount, itemsBut_dspRun, itemsBut_dspLeave, itemsBut_dspHold, itemsBut_dspReady, itemsBut_dspWake, itemsBut_wakeAll, itemsBut_chuteTrace, itemsBut_chute, itemsBut_rewind, itemsBut_parityFail, itemsBut_packetIn, itemsBut_noteReply, itemsBut_sessionNote, itemsBut_endSession, itemsBut_laneInputs, itemsBut_laneLatch, itemsBut_laneStop, itemsBut_voterFail, itemsBut_isolate, itemsBut_showLevel, itemsBut_circuitFault, itemsBut_circuitClear, itemsBut_outFaultRaise, itemsBut_sliceFault, itemsBut_showStop, itemsBut_outputs, itemsBut_permitNotice, itemsBut_startSeries, itemsBut_compareLanes, itemsBut_voterTick]⟩

@[simp] theorem unitState_fields (d : Dev) (s cause : Nat) :
    (d.unitState s cause).now = d.now ∧ (d.unitState s cause).snap = d.snap ∧ (d.unitState s cause).committedOnce = d.committedOnce ∧
    (d.unitState s cause).staged = d.staged ∧ (d.unitState s cause).ctrls = d.ctrls ∧ (d.unitState s cause).freeIx = d.freeIx ∧
    (d.unitState s cause).tim = d.tim ∧ (d.unitState s cause).chutes = d.chutes ∧ (d.unitState s cause).stp = d.stp ∧
    (d.unitState s cause).air = d.air ∧ (d.unitState s cause).gns = d.gns ∧ (d.unitState s cause).chiselOut = d.chiselOut ∧
    (d.unitState s cause).ring = d.ring ∧ (d.unitState s cause).can = d.can ∧ (d.unitState s cause).mtr = d.mtr ∧
    (d.unitState s cause).drk = d.drk ∧ (d.unitState s cause).dsp = d.dsp ∧ (d.unitState s cause).pwr = d.pwr ∧
    (d.unitState s cause).peer = d.peer ∧ (d.unitState s cause).com = d.com ∧ KeptCyc (d.unitState s cause).cyc d.cyc ∧
    KeptHost (d.unitState s cause).host d.host ∧ KeptRcd (d.unitState s cause).rcd d.rcd ∧ KeptTlg (d.unitState s cause).tlg d.tlg := by
  have h := (unitState_spec d s cause).1
  generalize d.unitState s cause = x at h ⊢
  have f {α : Type} (g : Dev → α) : g x.rest = g (d.rest) := congrArg g h
  exact ⟨f (·.now), f (·.snap), f (·.committedOnce), f (·.staged), f (·.ctrls), f (·.freeIx), f (·.tim), f (·.chutes), f (·.stp), f (·.air),
    f (·.gns), f (·.chiselOut), f (·.ring), f (·.can), f (·.mtr), f (·.drk), f (·.dsp), f (·.pwr), f (·.peer), f (·.com),
    KeptCyc.of (f (·.cyc)), KeptHost.of (f (·.host)), KeptRcd.of (f (·.rcd)), KeptTlg.of (f (·.tlg))⟩

@[simp] theorem unitState_rest (d : Dev) (s cause : Nat) : (d.unitState s cause).rest =
    d.rest := by
  have h := (unitState_spec d s cause).1
  generalize d.unitState s cause = x at h ⊢
  have f {α : Type} (g : Dev → α) : g x.rest = g (d.rest) := congrArg g h
  exact dev_ext (f (·.now)) rfl (f (·.snap)) (f (·.committedOnce)) rfl (f (·.staged)) (f (·.ctrls)) rfl (f (·.freeIx)) (f (·.tim)) (f (·.cyc)) (f (·.host))
    (f (·.chutes)) (f (·.rcd)) (f (·.stp)) (f (·.air)) (f (·.gns)) (f (·.chiselOut)) (f (·.ring)) (f (·.can)) (f (·.mtr)) (f (·.drk))
    (f (·.dsp)) (f (·.tlg)) (f (·.pwr)) (f (·.peer)) (f (·.com))

theorem unitState_reads (d : Dev) (s cause : Nat) : ∀ id jq, reportItem id = false → id ≠ P.DPX_STATE →
    (d.unitState s cause).rd id jq = d.rd id jq ∧ (d.unitState s cause).isSticky id jq = d.isSticky id jq ∧ (d.unitState s cause).cf id jq = d.cf id jq := by
  intro id jq hr h0
  have h := (unitState_spec d s cause).2 id jq hr (by simp) (by simp [regKey_ne, h0, Ne.symm h0])
  have e : (d.unitState s cause).staged = d.staged := by simp
  refine ⟨h.1, h.2, ?_⟩
  simp only [Dev.cf, e, h.1]

theorem unitState_at (d : Dev) (s cause : Nat) : ∀ id jq, reportItem id = false  → regKey P.DPX_STATE 0 ≠ regKey id jq →
    (d.unitState s cause).rd id jq = d.rd id jq ∧ (d.unitState s cause).isSticky id jq = d.isSticky id jq ∧ (d.unitState s cause).cf id jq = d.cf id jq := by
  intro id jq hr h0
  have h := (unitState_spec d s cause).2 id jq hr (by simp) (by simp [h0])
  have e : (d.unitState s cause).staged = d.staged := by simp
  refine ⟨h.1, h.2, ?_⟩
  simp only [Dev.cf, e, h.1]

theorem itemsBut_unitState {ids : List Nat} {ks : List (Nat × Nat)} (d e : Dev) (s cause : Nat) (m0 : P.DPX_STATE ∈ ids ∨ (P.DPX_STATE, 0) ∈ ks) :
    ItemsBut ids ks (d.unitState s cause) e ↔ ItemsBut ids ks d e :=
  itemsBut_congr ((unitState_spec d s cause).2.mono (by simp) (by simp [m0])) e

/-- A checkpoint asked for. -/
theorem sendResync_spec (d : Dev)  : (d.sendResync).rest = { d.rest with peer := { d.peer with waitCheckpoint := (d.sendResync).peer.waitCheckpoint, matchRun := (d.sendResync).peer.matchRun, mismatchRun := (d.sendResync).peer.mismatchRun } } ∧
    ItemsBut [] [(P.DPX_RESYNCS, 0)] (d.sendResync) d := by
  unfold Dev.sendResync
  repeat' split
  all_goals
    exact ⟨by first | (simp [itemsBut_self, -judge_rest, judge_rest', -timeState_rest, timeState_rest', -takeSeq_rest, takeSeq_rest', -hold_rest, hold_rest', -admit_rest, admit_rest', -input_rest, input_rest', -offer_rest, offer_rest', -stopNotice_rest, stopNotice_rest', -stopEvent_rest, stopEvent_rest', -giveUp_rest, giveUp_rest', -verdict_rest, verdict_rest', -engineFault_rest, engineFault_rest', -ctr_rest, ctr_rest', -beginReset_rest, beginReset_rest', -imageKeep_rest, imageKeep_rest', -imageCopy_rest, imageCopy_rest', -lastWords_rest, lastWords_rest', -placeRec_rest, placeRec_rest', -setTask_rest, setTask_rest', -setCore_rest, setCore_rest', -coreCount_rest, coreCount_rest', -dspRun_rest, dspRun_rest', -dspLeave_rest, dspLeave_rest', -dspHold_rest, dspHold_rest', -dspReady_rest, dspReady_rest', -dspWake_rest, dspWake_rest', -wakeAll_rest, wakeAll_rest', -packetIn_rest, packetIn_rest', -endSession_rest, endSession_rest', -laneInputs_rest, laneInputs_rest', -laneLatch_rest, laneLatch_rest', -laneStop_rest, laneStop_rest', -voterFail_rest, voterFail_rest', -circuitFault_rest, circuitFault_rest', -circuitClear_rest, circuitClear_rest', -outFaultRaise_rest, outFaultRaise_rest', -outputs_rest, outputs_rest', -permitNotice_rest, permitNotice_rest', -startSeries_rest, startSeries_rest', -compareLanes_rest, compareLanes_rest', -voterTick_rest, voterTick_rest']; done) | (simp [itemsBut_self, -judge_rest, judge_rest', -timeState_rest, timeState_rest', -takeSeq_rest, takeSeq_rest', -hold_rest, hold_rest', -admit_rest, admit_rest', -input_rest, input_rest', -offer_rest, offer_rest', -stopNotice_rest, stopNotice_rest', -stopEvent_rest, stopEvent_rest', -giveUp_rest, giveUp_rest', -verdict_rest, verdict_rest', -engineFault_rest, engineFault_rest', -ctr_rest, ctr_rest', -beginReset_rest, beginReset_rest', -imageKeep_rest, imageKeep_rest', -imageCopy_rest, imageCopy_rest', -lastWords_rest, lastWords_rest', -placeRec_rest, placeRec_rest', -setTask_rest, setTask_rest', -setCore_rest, setCore_rest', -coreCount_rest, coreCount_rest', -dspRun_rest, dspRun_rest', -dspLeave_rest, dspLeave_rest', -dspHold_rest, dspHold_rest', -dspReady_rest, dspReady_rest', -dspWake_rest, dspWake_rest', -wakeAll_rest, wakeAll_rest', -packetIn_rest, packetIn_rest', -endSession_rest, endSession_rest', -laneInputs_rest, laneInputs_rest', -laneLatch_rest, laneLatch_rest', -laneStop_rest, laneStop_rest', -voterFail_rest, voterFail_rest', -circuitFault_rest, circuitFault_rest', -circuitClear_rest, circuitClear_rest', -outFaultRaise_rest, outFaultRaise_rest', -outputs_rest, outputs_rest', -permitNotice_rest, permitNotice_rest', -startSeries_rest, startSeries_rest', -compareLanes_rest, compareLanes_rest', -voterTick_rest, voterTick_rest']; repeat' (first | rfl | apply And.intro)) | rfl, by simp [itemsBut_wr, itemsBut_inc, itemsBut_addW, itemsBut_maxTo, itemsBut_wrS, itemsBut_judge, itemsBut_timeState, itemsBut_takeSeq, itemsBut_countIn, itemsBut_hold, itemsBut_admit, itemsBut_input, itemsBut_offer, itemsBut_stopNotice, itemsBut_stopEvent, itemsBut_giveUp, itemsBut_verdict, itemsBut_engineFault, itemsBut_ctr, itemsBut_dspTrace, itemsBut_bypass, itemsBut_bypassHw, itemsBut_beginReset, itemsBut_mtrFlush, itemsBut_imageKeep, itemsBut_imageCopy, itemsBut_antState, itemsBut_judgeBias, itemsBut_chainState, itemsBut_showTile, itemsBut_putChan, itemsBut_freeChan, itemsBut_freeWhere, itemsBut_enableChan, itemsBut_place, itemsBut_placeAll, itemsBut_chainsEnable, itemsBut_startTracking, itemsBut_noteGain, itemsBut_stopTracking, itemsBut_snapTrigger, itemsBut_recorder, itemsBut_region, itemsBut_showRegion, itemsBut_lastWords, itemsBut_placeRec, itemsBut_flush, itemsBut_regionLost, itemsBut_setTask, itemsBut_setCore, itemsBut_coreCount, itemsBut_dspRun, itemsBut_dspLeave, itemsBut_dspHold, itemsBut_dspReady, itemsBut_dspWake, itemsBut_wakeAll, itemsBut_chuteTrace, itemsBut_chute, itemsBut_rewind, itemsBut_parityFail, itemsBut_packetIn, itemsBut_noteReply, itemsBut_sessionNote, itemsBut_endSession, itemsBut_laneInputs, itemsBut_laneLatch, itemsBut_laneStop, itemsBut_voterFail, itemsBut_isolate, itemsBut_showLevel, itemsBut_circuitFault, itemsBut_circuitClear, itemsBut_outFaultRaise, itemsBut_sliceFault, itemsBut_showStop, itemsBut_outputs, itemsBut_permitNotice, itemsBut_startSeries, itemsBut_compareLanes, itemsBut_voterTick, itemsBut_unitState]⟩

theorem sendResync_rest' (d : Dev)  : (d.sendResync).rest = { d.rest with peer := { d.peer with waitCheckpoint := (d.sendResync).peer.waitCheckpoint, matchRun := (d.sendResync).peer.matchRun, mismatchRun := (d.sendResync).peer.mismatchRun } } := (sendResync_spec d ).1

@[simp] theorem sendResync_fields (d : Dev)  :
    (d.sendResync).now = d.now ∧ (d.sendResync).snap = d.snap ∧ (d.sendResync).committedOnce = d.committedOnce ∧
    (d.sendResync).staged = d.staged ∧ (d.sendResync).ctrls = d.ctrls ∧ (d.sendResync).freeIx = d.freeIx ∧ (d.sendResync).tim = d.tim ∧
    (d.sendResync).chutes = d.chutes ∧ (d.sendResync).stp = d.stp ∧ (d.sendResync).air = d.air ∧ (d.sendResync).gns = d.gns ∧
    (d.sendResync).chiselOut = d.chiselOut ∧ (d.sendResync).ring = d.ring ∧ (d.sendResync).can = d.can ∧ (d.sendResync).mtr = d.mtr ∧
    (d.sendResync).drk = d.drk ∧ (d.sendResync).dsp = d.dsp ∧ (d.sendResync).pwr = d.pwr ∧ (d.sendResync).peer.seatDriven = d.peer.seatDriven ∧
    (d.sendResync).peer.seatHigh = d.peer.seatHigh ∧ (d.sendResync).peer.yielding = d.peer.yielding ∧
    (d.sendResync).peer.boundary = d.peer.boundary ∧ (d.sendResync).peer.takeGot = d.peer.takeGot ∧ (d.sendResync).peer.giveB = d.peer.giveB ∧
    (d.sendResync).peer.takeSent = d.peer.takeSent ∧ (d.sendResync).peer.hbSeq = d.peer.hbSeq ∧
    (d.sendResync).peer.hbLastSeq = d.peer.hbLastSeq ∧ (d.sendResync).peer.hbLastAt = d.peer.hbLastAt ∧
    (d.sendResync).peer.restored = d.peer.restored ∧ (d.sendResync).peer.trained = d.peer.trained ∧ (d.sendResync).peer.key = d.peer.key ∧
    (d.sendResync).peer.peerTenure = d.peer.peerTenure ∧ (d.sendResync).peer.peerMode = d.peer.peerMode ∧
    (d.sendResync).peer.peerCycle = d.peer.peerCycle ∧ (d.sendResync).peer.peerOffset = d.peer.peerOffset ∧
    (d.sendResync).peer.digestSkip = d.peer.digestSkip ∧ (d.sendResync).peer.lastCopy = d.peer.lastCopy ∧
    (d.sendResync).peer.holdFrom = d.peer.holdFrom ∧ (d.sendResync).peer.holdMismatch = d.peer.holdMismatch ∧
    (d.sendResync).peer.claim = d.peer.claim ∧ (d.sendResync).peer.refused = d.peer.refused ∧ (d.sendResync).peer.silentAt = d.peer.silentAt ∧
    (d.sendResync).peer.restarts = d.peer.restarts ∧ (d.sendResync).peer.beaconCycles = d.peer.beaconCycles ∧
    (d.sendResync).peer.foreign = d.peer.foreign ∧ (d.sendResync).peer.fwd = d.peer.fwd ∧ (d.sendResync).peer.lossLatch = d.peer.lossLatch ∧
    (d.sendResync).peer.lastState = d.peer.lastState ∧ (d.sendResync).com = d.com ∧ KeptCyc (d.sendResync).cyc d.cyc ∧
    KeptHost (d.sendResync).host d.host ∧ KeptRcd (d.sendResync).rcd d.rcd ∧ KeptTlg (d.sendResync).tlg d.tlg := by
  have h := (sendResync_spec d ).1
  generalize d.sendResync = x at h ⊢
  have f {α : Type} (g : Dev → α) : g x.rest = g ({ d.rest with peer := { d.peer with waitCheckpoint := (x).peer.waitCheckpoint, matchRun := (x).peer.matchRun, mismatchRun := (x).peer.mismatchRun } }) := congrArg g h
  exact ⟨f (·.now), f (·.snap), f (·.committedOnce), f (·.staged), f (·.ctrls), f (·.freeIx), f (·.tim), f (·.chutes), f (·.stp), f (·.air),
    f (·.gns), f (·.chiselOut), f (·.ring), f (·.can), f (·.mtr), f (·.drk), f (·.dsp), f (·.pwr), f (·.peer.seatDriven), f (·.peer.seatHigh),
    f (·.peer.yielding), f (·.peer.boundary), f (·.peer.takeGot), f (·.peer.giveB), f (·.peer.takeSent), f (·.peer.hbSeq), f (·.peer.hbLastSeq),
    f (·.peer.hbLastAt), f (·.peer.restored), f (·.peer.trained), f (·.peer.key), f (·.peer.peerTenure), f (·.peer.peerMode),
    f (·.peer.peerCycle), f (·.peer.peerOffset), f (·.peer.digestSkip), f (·.peer.lastCopy), f (·.peer.holdFrom), f (·.peer.holdMismatch),
    f (·.peer.claim), f (·.peer.refused), f (·.peer.silentAt), f (·.peer.restarts), f (·.peer.beaconCycles), f (·.peer.foreign), f (·.peer.fwd),
    f (·.peer.lossLatch), f (·.peer.lastState), f (·.com), KeptCyc.of (f (·.cyc)), KeptHost.of (f (·.host)), KeptRcd.of (f (·.rcd)),
    KeptTlg.of (f (·.tlg))⟩

@[simp] theorem sendResync_rest (d : Dev)  : (d.sendResync).rest =
    { d.rest with peer := (d.sendResync).peer } := by
  have h := (sendResync_spec d ).1
  generalize d.sendResync = x at h ⊢
  have f {α : Type} (g : Dev → α) : g x.rest = g ({ d.rest with peer := { d.peer with waitCheckpoint := (x).peer.waitCheckpoint, matchRun := (x).peer.matchRun, mismatchRun := (x).peer.mismatchRun } }) := congrArg g h
  exact dev_ext (f (·.now)) rfl (f (·.snap)) (f (·.committedOnce)) rfl (f (·.staged)) (f (·.ctrls)) rfl (f (·.freeIx)) (f (·.tim)) (f (·.cyc)) (f (·.host))
    (f (·.chutes)) (f (·.rcd)) (f (·.stp)) (f (·.air)) (f (·.gns)) (f (·.chiselOut)) (f (·.ring)) (f (·.can)) (f (·.mtr)) (f (·.drk))
    (f (·.dsp)) (f (·.tlg)) (f (·.pwr)) rfl (f (·.com))

theorem sendResync_reads (d : Dev)  : ∀ id jq, reportItem id = false → id ≠ P.DPX_RESYNCS →
    (d.sendResync).rd id jq = d.rd id jq ∧ (d.sendResync).isSticky id jq = d.isSticky id jq ∧ (d.sendResync).cf id jq = d.cf id jq := by
  intro id jq hr h0
  have h := (sendResync_spec d ).2 id jq hr (by simp) (by simp [regKey_ne, h0, Ne.symm h0])
  have e : (d.sendResync).staged = d.staged := by simp
  refine ⟨h.1, h.2, ?_⟩
  simp only [Dev.cf, e, h.1]

theorem sendResync_at (d : Dev)  : ∀ id jq, reportItem id = false  → regKey P.DPX_RESYNCS 0 ≠ regKey id jq →
    (d.sendResync).rd id jq = d.rd id jq ∧ (d.sendResync).isSticky id jq = d.isSticky id jq ∧ (d.sendResync).cf id jq = d.cf id jq := by
  intro id jq hr h0
  have h := (sendResync_spec d ).2 id jq hr (by simp) (by simp [h0])
  have e : (d.sendResync).staged = d.staged := by simp
  refine ⟨h.1, h.2, ?_⟩
  simp only [Dev.cf, e, h.1]

theorem itemsBut_sendResync {ids : List Nat} {ks : List (Nat × Nat)} (d e : Dev)  (m0 : P.DPX_RESYNCS ∈ ids ∨ (P.DPX_RESYNCS, 0) ∈ ks) :
    ItemsBut ids ks (d.sendResync) e ↔ ItemsBut ids ks d e :=
  itemsBut_congr ((sendResync_spec d ).2.mono (by simp) (by simp [m0])) e

/-- The unit becomes SHADOW. -/
theorem toShadow_spec (d : Dev)  : (d.toShadow).rest = { d.rest with peer := { d.peer with waitCheckpoint := (d.toShadow).peer.waitCheckpoint, matchRun := (d.toShadow).peer.matchRun, mismatchRun := (d.toShadow).peer.mismatchRun, holdFrom := (d.toShadow).peer.holdFrom, holdMismatch := (d.toShadow).peer.holdMismatch } } ∧
    ItemsBut [] [(P.DPX_STATE, 0), (P.DPX_RESYNCS, 0)] (d.toShadow) d := by
  unfold Dev.toShadow
  repeat' split
  all_goals
    exact ⟨by first | (simp [itemsBut_self, -judge_rest, judge_rest', -timeState_rest, timeState_rest', -takeSeq_rest, takeSeq_rest', -hold_rest, hold_rest', -admit_rest, admit_rest', -input_rest, input_rest', -offer_rest, offer_rest', -stopNotice_rest, stopNotice_rest', -stopEvent_rest, stopEvent_rest', -giveUp_rest, giveUp_rest', -verdict_rest, verdict_rest', -engineFault_rest, engineFault_rest', -ctr_rest, ctr_rest', -beginReset_rest, beginReset_rest', -imageKeep_rest, imageKeep_rest', -imageCopy_rest, imageCopy_rest', -lastWords_rest, lastWords_rest', -placeRec_rest, placeRec_rest', -setTask_rest, setTask_rest', -setCore_rest, setCore_rest', -coreCount_rest, coreCount_rest', -dspRun_rest, dspRun_rest', -dspLeave_rest, dspLeave_rest', -dspHold_rest, dspHold_rest', -dspReady_rest, dspReady_rest', -dspWake_rest, dspWake_rest', -wakeAll_rest, wakeAll_rest', -packetIn_rest, packetIn_rest', -endSession_rest, endSession_rest', -laneInputs_rest, laneInputs_rest', -laneLatch_rest, laneLatch_rest', -laneStop_rest, laneStop_rest', -voterFail_rest, voterFail_rest', -circuitFault_rest, circuitFault_rest', -circuitClear_rest, circuitClear_rest', -outFaultRaise_rest, outFaultRaise_rest', -outputs_rest, outputs_rest', -permitNotice_rest, permitNotice_rest', -startSeries_rest, startSeries_rest', -compareLanes_rest, compareLanes_rest', -voterTick_rest, voterTick_rest', -sendResync_rest, sendResync_rest']; done) | (simp [itemsBut_self, -judge_rest, judge_rest', -timeState_rest, timeState_rest', -takeSeq_rest, takeSeq_rest', -hold_rest, hold_rest', -admit_rest, admit_rest', -input_rest, input_rest', -offer_rest, offer_rest', -stopNotice_rest, stopNotice_rest', -stopEvent_rest, stopEvent_rest', -giveUp_rest, giveUp_rest', -verdict_rest, verdict_rest', -engineFault_rest, engineFault_rest', -ctr_rest, ctr_rest', -beginReset_rest, beginReset_rest', -imageKeep_rest, imageKeep_rest', -imageCopy_rest, imageCopy_rest', -lastWords_rest, lastWords_rest', -placeRec_rest, placeRec_rest', -setTask_rest, setTask_rest', -setCore_rest, setCore_rest', -coreCount_rest, coreCount_rest', -dspRun_rest, dspRun_rest', -dspLeave_rest, dspLeave_rest', -dspHold_rest, dspHold_rest', -dspReady_rest, dspReady_rest', -dspWake_rest, dspWake_rest', -wakeAll_rest, wakeAll_rest', -packetIn_rest, packetIn_rest', -endSession_rest, endSession_rest', -laneInputs_rest, laneInputs_rest', -laneLatch_rest, laneLatch_rest', -laneStop_rest, laneStop_rest', -voterFail_rest, voterFail_rest', -circuitFault_rest, circuitFault_rest', -circuitClear_rest, circuitClear_rest', -outFaultRaise_rest, outFaultRaise_rest', -outputs_rest, outputs_rest', -permitNotice_rest, permitNotice_rest', -startSeries_rest, startSeries_rest', -compareLanes_rest, compareLanes_rest', -voterTick_rest, voterTick_rest', -sendResync_rest, sendResync_rest']; repeat' (first | rfl | apply And.intro)) | rfl, by simp [itemsBut_wr, itemsBut_inc, itemsBut_addW, itemsBut_maxTo, itemsBut_wrS, itemsBut_judge, itemsBut_timeState, itemsBut_takeSeq, itemsBut_countIn, itemsBut_hold, itemsBut_admit, itemsBut_input, itemsBut_offer, itemsBut_stopNotice, itemsBut_stopEvent, itemsBut_giveUp, itemsBut_verdict, itemsBut_engineFault, itemsBut_ctr, itemsBut_dspTrace, itemsBut_bypass, itemsBut_bypassHw, itemsBut_beginReset, itemsBut_mtrFlush, itemsBut_imageKeep, itemsBut_imageCopy, itemsBut_antState, itemsBut_judgeBias, itemsBut_chainState, itemsBut_showTile, itemsBut_putChan, itemsBut_freeChan, itemsBut_freeWhere, itemsBut_enableChan, itemsBut_place, itemsBut_placeAll, itemsBut_chainsEnable, itemsBut_startTracking, itemsBut_noteGain, itemsBut_stopTracking, itemsBut_snapTrigger, itemsBut_recorder, itemsBut_region, itemsBut_showRegion, itemsBut_lastWords, itemsBut_placeRec, itemsBut_flush, itemsBut_regionLost, itemsBut_setTask, itemsBut_setCore, itemsBut_coreCount, itemsBut_dspRun, itemsBut_dspLeave, itemsBut_dspHold, itemsBut_dspReady, itemsBut_dspWake, itemsBut_wakeAll, itemsBut_chuteTrace, itemsBut_chute, itemsBut_rewind, itemsBut_parityFail, itemsBut_packetIn, itemsBut_noteReply, itemsBut_sessionNote, itemsBut_endSession, itemsBut_laneInputs, itemsBut_laneLatch, itemsBut_laneStop, itemsBut_voterFail, itemsBut_isolate, itemsBut_showLevel, itemsBut_circuitFault, itemsBut_circuitClear, itemsBut_outFaultRaise, itemsBut_sliceFault, itemsBut_showStop, itemsBut_outputs, itemsBut_permitNotice, itemsBut_startSeries, itemsBut_compareLanes, itemsBut_voterTick, itemsBut_unitState, itemsBut_sendResync]⟩

theorem toShadow_rest' (d : Dev)  : (d.toShadow).rest = { d.rest with peer := { d.peer with waitCheckpoint := (d.toShadow).peer.waitCheckpoint, matchRun := (d.toShadow).peer.matchRun, mismatchRun := (d.toShadow).peer.mismatchRun, holdFrom := (d.toShadow).peer.holdFrom, holdMismatch := (d.toShadow).peer.holdMismatch } } := (toShadow_spec d ).1

@[simp] theorem toShadow_fields (d : Dev)  :
    (d.toShadow).now = d.now ∧ (d.toShadow).snap = d.snap ∧ (d.toShadow).committedOnce = d.committedOnce ∧ (d.toShadow).staged = d.staged ∧
    (d.toShadow).ctrls = d.ctrls ∧ (d.toShadow).freeIx = d.freeIx ∧ (d.toShadow).tim = d.tim ∧ (d.toShadow).chutes = d.chutes ∧
    (d.toShadow).stp = d.stp ∧ (d.toShadow).air = d.air ∧ (d.toShadow).gns = d.gns ∧ (d.toShadow).chiselOut = d.chiselOut ∧
    (d.toShadow).ring = d.ring ∧ (d.toShadow).can = d.can ∧ (d.toShadow).mtr = d.mtr ∧ (d.toShadow).drk = d.drk ∧ (d.toShadow).dsp = d.dsp ∧
    (d.toShadow).pwr = d.pwr ∧ (d.toShadow).peer.seatDriven = d.peer.seatDriven ∧ (d.toShadow).peer.seatHigh = d.peer.seatHigh ∧
    (d.toShadow).peer.yielding = d.peer.yielding ∧ (d.toShadow).peer.boundary = d.peer.boundary ∧ (d.toShadow).peer.takeGot = d.peer.takeGot ∧
    (d.toShadow).peer.giveB = d.peer.giveB ∧ (d.toShadow).peer.takeSent = d.peer.takeSent ∧ (d.toShadow).peer.hbSeq = d.peer.hbSeq ∧
    (d.toShadow).peer.hbLastSeq = d.peer.hbLastSeq ∧ (d.toShadow).peer.hbLastAt = d.peer.hbLastAt ∧
    (d.toShadow).peer.restored = d.peer.restored ∧ (d.toShadow).peer.trained = d.peer.trained ∧ (d.toShadow).peer.key = d.peer.key ∧
    (d.toShadow).peer.peerTenure = d.peer.peerTenure ∧ (d.toShadow).peer.peerMode = d.peer.peerMode ∧
    (d.toShadow).peer.peerCycle = d.peer.peerCycle ∧ (d.toShadow).peer.peerOffset = d.peer.peerOffset ∧
    (d.toShadow).peer.digestSkip = d.peer.digestSkip ∧ (d.toShadow).peer.lastCopy = d.peer.lastCopy ∧ (d.toShadow).peer.claim = d.peer.claim ∧
    (d.toShadow).peer.refused = d.peer.refused ∧ (d.toShadow).peer.silentAt = d.peer.silentAt ∧ (d.toShadow).peer.restarts = d.peer.restarts ∧
    (d.toShadow).peer.beaconCycles = d.peer.beaconCycles ∧ (d.toShadow).peer.foreign = d.peer.foreign ∧ (d.toShadow).peer.fwd = d.peer.fwd ∧
    (d.toShadow).peer.lossLatch = d.peer.lossLatch ∧ (d.toShadow).peer.lastState = d.peer.lastState ∧ (d.toShadow).com = d.com ∧
    KeptCyc (d.toShadow).cyc d.cyc ∧ KeptHost (d.toShadow).host d.host ∧ KeptRcd (d.toShadow).rcd d.rcd ∧ KeptTlg (d.toShadow).tlg d.tlg := by
  have h := (toShadow_spec d ).1
  generalize d.toShadow = x at h ⊢
  have f {α : Type} (g : Dev → α) : g x.rest = g ({ d.rest with peer := { d.peer with waitCheckpoint := (x).peer.waitCheckpoint, matchRun := (x).peer.matchRun, mismatchRun := (x).peer.mismatchRun, holdFrom := (x).peer.holdFrom, holdMismatch := (x).peer.holdMismatch } }) := congrArg g h
  exact ⟨f (·.now), f (·.snap), f (·.committedOnce), f (·.staged), f (·.ctrls), f (·.freeIx), f (·.tim), f (·.chutes), f (·.stp), f (·.air),
    f (·.gns), f (·.chiselOut), f (·.ring), f (·.can), f (·.mtr), f (·.drk), f (·.dsp), f (·.pwr), f (·.peer.seatDriven), f (·.peer.seatHigh),
    f (·.peer.yielding), f (·.peer.boundary), f (·.peer.takeGot), f (·.peer.giveB), f (·.peer.takeSent), f (·.peer.hbSeq), f (·.peer.hbLastSeq),
    f (·.peer.hbLastAt), f (·.peer.restored), f (·.peer.trained), f (·.peer.key), f (·.peer.peerTenure), f (·.peer.peerMode),
    f (·.peer.peerCycle), f (·.peer.peerOffset), f (·.peer.digestSkip), f (·.peer.lastCopy), f (·.peer.claim), f (·.peer.refused),
    f (·.peer.silentAt), f (·.peer.restarts), f (·.peer.beaconCycles), f (·.peer.foreign), f (·.peer.fwd), f (·.peer.lossLatch),
    f (·.peer.lastState), f (·.com), KeptCyc.of (f (·.cyc)), KeptHost.of (f (·.host)), KeptRcd.of (f (·.rcd)), KeptTlg.of (f (·.tlg))⟩

@[simp] theorem toShadow_rest (d : Dev)  : (d.toShadow).rest =
    { d.rest with peer := (d.toShadow).peer } := by
  have h := (toShadow_spec d ).1
  generalize d.toShadow = x at h ⊢
  have f {α : Type} (g : Dev → α) : g x.rest = g ({ d.rest with peer := { d.peer with waitCheckpoint := (x).peer.waitCheckpoint, matchRun := (x).peer.matchRun, mismatchRun := (x).peer.mismatchRun, holdFrom := (x).peer.holdFrom, holdMismatch := (x).peer.holdMismatch } }) := congrArg g h
  exact dev_ext (f (·.now)) rfl (f (·.snap)) (f (·.committedOnce)) rfl (f (·.staged)) (f (·.ctrls)) rfl (f (·.freeIx)) (f (·.tim)) (f (·.cyc)) (f (·.host))
    (f (·.chutes)) (f (·.rcd)) (f (·.stp)) (f (·.air)) (f (·.gns)) (f (·.chiselOut)) (f (·.ring)) (f (·.can)) (f (·.mtr)) (f (·.drk))
    (f (·.dsp)) (f (·.tlg)) (f (·.pwr)) rfl (f (·.com))

theorem toShadow_reads (d : Dev)  : ∀ id jq, reportItem id = false → id ≠ P.DPX_STATE → id ≠ P.DPX_RESYNCS →
    (d.toShadow).rd id jq = d.rd id jq ∧ (d.toShadow).isSticky id jq = d.isSticky id jq ∧ (d.toShadow).cf id jq = d.cf id jq := by
  intro id jq hr h0 h1
  have h := (toShadow_spec d ).2 id jq hr (by simp) (by simp [regKey_ne, h0, Ne.symm h0, h1, Ne.symm h1])
  have e : (d.toShadow).staged = d.staged := by simp
  refine ⟨h.1, h.2, ?_⟩
  simp only [Dev.cf, e, h.1]

theorem toShadow_at (d : Dev)  : ∀ id jq, reportItem id = false  → regKey P.DPX_STATE 0 ≠ regKey id jq → regKey P.DPX_RESYNCS 0 ≠ regKey id jq →
    (d.toShadow).rd id jq = d.rd id jq ∧ (d.toShadow).isSticky id jq = d.isSticky id jq ∧ (d.toShadow).cf id jq = d.cf id jq := by
  intro id jq hr h0 h1
  have h := (toShadow_spec d ).2 id jq hr (by simp) (by simp [h0, h1])
  have e : (d.toShadow).staged = d.staged := by simp
  refine ⟨h.1, h.2, ?_⟩
  simp only [Dev.cf, e, h.1]

theorem itemsBut_toShadow {ids : List Nat} {ks : List (Nat × Nat)} (d e : Dev)  (m0 : P.DPX_STATE ∈ ids ∨ (P.DPX_STATE, 0) ∈ ks) (m1 : P.DPX_RESYNCS ∈ ids ∨ (P.DPX_RESYNCS, 0) ∈ ks) :
    ItemsBut ids ks (d.toShadow) e ↔ ItemsBut ids ks d e :=
  itemsBut_congr ((toShadow_spec d ).2.mono (by simp) (by simp [m0, m1])) e

/-- Split control resolved. -/
theorem splitResolve_spec (d : Dev) (a b : Nat) : (d.splitResolve a b).rest = { d.rest with peer := { d.peer with seatDriven := (d.splitResolve a b).peer.seatDriven, yielding := (d.splitResolve a b).peer.yielding, boundary := (d.splitResolve a b).peer.boundary, takeGot := (d.splitResolve a b).peer.takeGot } } ∧
    ItemsBut [] [(P.DPX_SPLIT, 0), (P.DPX_GIVEUP_CAUSE, 0)] (d.splitResolve a b) d := by
  unfold Dev.splitResolve
  try simp only []
  repeat' split
  all_goals
    exact ⟨by first | (simp [itemsBut_self, -judge_rest, judge_rest', -timeState_rest, timeState_rest', -takeSeq_rest, takeSeq_rest', -hold_rest, hold_rest', -admit_rest, admit_rest', -input_rest, input_rest', -offer_rest, offer_rest', -stopNotice_rest, stopNotice_rest', -stopEvent_rest, stopEvent_rest', -giveUp_rest, giveUp_rest', -verdict_rest, verdict_rest', -engineFault_rest, engineFault_rest', -ctr_rest, ctr_rest', -beginReset_rest, beginReset_rest', -imageKeep_rest, imageKeep_rest', -imageCopy_rest, imageCopy_rest', -lastWords_rest, lastWords_rest', -placeRec_rest, placeRec_rest', -setTask_rest, setTask_rest', -setCore_rest, setCore_rest', -coreCount_rest, coreCount_rest', -dspRun_rest, dspRun_rest', -dspLeave_rest, dspLeave_rest', -dspHold_rest, dspHold_rest', -dspReady_rest, dspReady_rest', -dspWake_rest, dspWake_rest', -wakeAll_rest, wakeAll_rest', -packetIn_rest, packetIn_rest', -endSession_rest, endSession_rest', -laneInputs_rest, laneInputs_rest', -laneLatch_rest, laneLatch_rest', -laneStop_rest, laneStop_rest', -voterFail_rest, voterFail_rest', -circuitFault_rest, circuitFault_rest', -circuitClear_rest, circuitClear_rest', -outFaultRaise_rest, outFaultRaise_rest', -outputs_rest, outputs_rest', -permitNotice_rest, permitNotice_rest', -startSeries_rest, startSeries_rest', -compareLanes_rest, compareLanes_rest', -voterTick_rest, voterTick_rest', -sendResync_rest, sendResync_rest', -toShadow_rest, toShadow_rest']; done) | (simp [itemsBut_self, -judge_rest, judge_rest', -timeState_rest, timeState_rest', -takeSeq_rest, takeSeq_rest', -hold_rest, hold_rest', -admit_rest, admit_rest', -input_rest, input_rest', -offer_rest, offer_rest', -stopNotice_rest, stopNotice_rest', -stopEvent_rest, stopEvent_rest', -giveUp_rest, giveUp_rest', -verdict_rest, verdict_rest', -engineFault_rest, engineFault_rest', -ctr_rest, ctr_rest', -beginReset_rest, beginReset_rest', -imageKeep_rest, imageKeep_rest', -imageCopy_rest, imageCopy_rest', -lastWords_rest, lastWords_rest', -placeRec_rest, placeRec_rest', -setTask_rest, setTask_rest', -setCore_rest, setCore_rest', -coreCount_rest, coreCount_rest', -dspRun_rest, dspRun_rest', -dspLeave_rest, dspLeave_rest', -dspHold_rest, dspHold_rest', -dspReady_rest, dspReady_rest', -dspWake_rest, dspWake_rest', -wakeAll_rest, wakeAll_rest', -packetIn_rest, packetIn_rest', -endSession_rest, endSession_rest', -laneInputs_rest, laneInputs_rest', -laneLatch_rest, laneLatch_rest', -laneStop_rest, laneStop_rest', -voterFail_rest, voterFail_rest', -circuitFault_rest, circuitFault_rest', -circuitClear_rest, circuitClear_rest', -outFaultRaise_rest, outFaultRaise_rest', -outputs_rest, outputs_rest', -permitNotice_rest, permitNotice_rest', -startSeries_rest, startSeries_rest', -compareLanes_rest, compareLanes_rest', -voterTick_rest, voterTick_rest', -sendResync_rest, sendResync_rest', -toShadow_rest, toShadow_rest']; repeat' (first | rfl | apply And.intro)) | rfl, by simp [itemsBut_wr, itemsBut_inc, itemsBut_addW, itemsBut_maxTo, itemsBut_wrS, itemsBut_judge, itemsBut_timeState, itemsBut_takeSeq, itemsBut_countIn, itemsBut_hold, itemsBut_admit, itemsBut_input, itemsBut_offer, itemsBut_stopNotice, itemsBut_stopEvent, itemsBut_giveUp, itemsBut_verdict, itemsBut_engineFault, itemsBut_ctr, itemsBut_dspTrace, itemsBut_bypass, itemsBut_bypassHw, itemsBut_beginReset, itemsBut_mtrFlush, itemsBut_imageKeep, itemsBut_imageCopy, itemsBut_antState, itemsBut_judgeBias, itemsBut_chainState, itemsBut_showTile, itemsBut_putChan, itemsBut_freeChan, itemsBut_freeWhere, itemsBut_enableChan, itemsBut_place, itemsBut_placeAll, itemsBut_chainsEnable, itemsBut_startTracking, itemsBut_noteGain, itemsBut_stopTracking, itemsBut_snapTrigger, itemsBut_recorder, itemsBut_region, itemsBut_showRegion, itemsBut_lastWords, itemsBut_placeRec, itemsBut_flush, itemsBut_regionLost, itemsBut_setTask, itemsBut_setCore, itemsBut_coreCount, itemsBut_dspRun, itemsBut_dspLeave, itemsBut_dspHold, itemsBut_dspReady, itemsBut_dspWake, itemsBut_wakeAll, itemsBut_chuteTrace, itemsBut_chute, itemsBut_rewind, itemsBut_parityFail, itemsBut_packetIn, itemsBut_noteReply, itemsBut_sessionNote, itemsBut_endSession, itemsBut_laneInputs, itemsBut_laneLatch, itemsBut_laneStop, itemsBut_voterFail, itemsBut_isolate, itemsBut_showLevel, itemsBut_circuitFault, itemsBut_circuitClear, itemsBut_outFaultRaise, itemsBut_sliceFault, itemsBut_showStop, itemsBut_outputs, itemsBut_permitNotice, itemsBut_startSeries, itemsBut_compareLanes, itemsBut_voterTick, itemsBut_unitState, itemsBut_sendResync, itemsBut_toShadow]⟩

theorem splitResolve_rest' (d : Dev) (a b : Nat) : (d.splitResolve a b).rest = { d.rest with peer := { d.peer with seatDriven := (d.splitResolve a b).peer.seatDriven, yielding := (d.splitResolve a b).peer.yielding, boundary := (d.splitResolve a b).peer.boundary, takeGot := (d.splitResolve a b).peer.takeGot } } := (splitResolve_spec d a b).1

@[simp] theorem splitResolve_fields (d : Dev) (a b : Nat) :
    (d.splitResolve a b).now = d.now ∧ (d.splitResolve a b).snap = d.snap ∧ (d.splitResolve a b).committedOnce = d.committedOnce ∧
    (d.splitResolve a b).staged = d.staged ∧ (d.splitResolve a b).ctrls = d.ctrls ∧ (d.splitResolve a b).freeIx = d.freeIx ∧
    (d.splitResolve a b).tim = d.tim ∧ (d.splitResolve a b).chutes = d.chutes ∧ (d.splitResolve a b).stp = d.stp ∧
    (d.splitResolve a b).air = d.air ∧ (d.splitResolve a b).gns = d.gns ∧ (d.splitResolve a b).chiselOut = d.chiselOut ∧
    (d.splitResolve a b).ring = d.ring ∧ (d.splitResolve a b).can = d.can ∧ (d.splitResolve a b).mtr = d.mtr ∧
    (d.splitResolve a b).drk = d.drk ∧ (d.splitResolve a b).dsp = d.dsp ∧ (d.splitResolve a b).pwr = d.pwr ∧
    (d.splitResolve a b).peer.seatHigh = d.peer.seatHigh ∧ (d.splitResolve a b).peer.giveB = d.peer.giveB ∧
    (d.splitResolve a b).peer.takeSent = d.peer.takeSent ∧ (d.splitResolve a b).peer.hbSeq = d.peer.hbSeq ∧
    (d.splitResolve a b).peer.hbLastSeq = d.peer.hbLastSeq ∧ (d.splitResolve a b).peer.hbLastAt = d.peer.hbLastAt ∧
    (d.splitResolve a b).peer.restored = d.peer.restored ∧ (d.splitResolve a b).peer.trained = d.peer.trained ∧
    (d.splitResolve a b).peer.key = d.peer.key ∧ (d.splitResolve a b).peer.peerTenure = d.peer.peerTenure ∧
    (d.splitResolve a b).peer.peerMode = d.peer.peerMode ∧ (d.splitResolve a b).peer.peerCycle = d.peer.peerCycle ∧
    (d.splitResolve a b).peer.peerOffset = d.peer.peerOffset ∧ (d.splitResolve a b).peer.digestSkip = d.peer.digestSkip ∧
    (d.splitResolve a b).peer.lastCopy = d.peer.lastCopy ∧ (d.splitResolve a b).peer.waitCheckpoint = d.peer.waitCheckpoint ∧
    (d.splitResolve a b).peer.matchRun = d.peer.matchRun ∧ (d.splitResolve a b).peer.mismatchRun = d.peer.mismatchRun ∧
    (d.splitResolve a b).peer.holdFrom = d.peer.holdFrom ∧ (d.splitResolve a b).peer.holdMismatch = d.peer.holdMismatch ∧
    (d.splitResolve a b).peer.claim = d.peer.claim ∧ (d.splitResolve a b).peer.refused = d.peer.refused ∧
    (d.splitResolve a b).peer.silentAt = d.peer.silentAt ∧ (d.splitResolve a b).peer.restarts = d.peer.restarts ∧
    (d.splitResolve a b).peer.beaconCycles = d.peer.beaconCycles ∧ (d.splitResolve a b).peer.foreign = d.peer.foreign ∧
    (d.splitResolve a b).peer.fwd = d.peer.fwd ∧ (d.splitResolve a b).peer.lossLatch = d.peer.lossLatch ∧
    (d.splitResolve a b).peer.lastState = d.peer.lastState ∧ (d.splitResolve a b).com = d.com ∧ KeptCyc (d.splitResolve a b).cyc d.cyc ∧
    KeptHost (d.splitResolve a b).host d.host ∧ KeptRcd (d.splitResolve a b).rcd d.rcd ∧ KeptTlg (d.splitResolve a b).tlg d.tlg := by
  have h := (splitResolve_spec d a b).1
  generalize d.splitResolve a b = x at h ⊢
  have f {α : Type} (g : Dev → α) : g x.rest = g ({ d.rest with peer := { d.peer with seatDriven := (x).peer.seatDriven, yielding := (x).peer.yielding, boundary := (x).peer.boundary, takeGot := (x).peer.takeGot } }) := congrArg g h
  exact ⟨f (·.now), f (·.snap), f (·.committedOnce), f (·.staged), f (·.ctrls), f (·.freeIx), f (·.tim), f (·.chutes), f (·.stp), f (·.air),
    f (·.gns), f (·.chiselOut), f (·.ring), f (·.can), f (·.mtr), f (·.drk), f (·.dsp), f (·.pwr), f (·.peer.seatHigh), f (·.peer.giveB),
    f (·.peer.takeSent), f (·.peer.hbSeq), f (·.peer.hbLastSeq), f (·.peer.hbLastAt), f (·.peer.restored), f (·.peer.trained), f (·.peer.key),
    f (·.peer.peerTenure), f (·.peer.peerMode), f (·.peer.peerCycle), f (·.peer.peerOffset), f (·.peer.digestSkip), f (·.peer.lastCopy),
    f (·.peer.waitCheckpoint), f (·.peer.matchRun), f (·.peer.mismatchRun), f (·.peer.holdFrom), f (·.peer.holdMismatch), f (·.peer.claim),
    f (·.peer.refused), f (·.peer.silentAt), f (·.peer.restarts), f (·.peer.beaconCycles), f (·.peer.foreign), f (·.peer.fwd),
    f (·.peer.lossLatch), f (·.peer.lastState), f (·.com), KeptCyc.of (f (·.cyc)), KeptHost.of (f (·.host)), KeptRcd.of (f (·.rcd)),
    KeptTlg.of (f (·.tlg))⟩

@[simp] theorem splitResolve_rest (d : Dev) (a b : Nat) : (d.splitResolve a b).rest =
    { d.rest with peer := (d.splitResolve a b).peer } := by
  have h := (splitResolve_spec d a b).1
  generalize d.splitResolve a b = x at h ⊢
  have f {α : Type} (g : Dev → α) : g x.rest = g ({ d.rest with peer := { d.peer with seatDriven := (x).peer.seatDriven, yielding := (x).peer.yielding, boundary := (x).peer.boundary, takeGot := (x).peer.takeGot } }) := congrArg g h
  exact dev_ext (f (·.now)) rfl (f (·.snap)) (f (·.committedOnce)) rfl (f (·.staged)) (f (·.ctrls)) rfl (f (·.freeIx)) (f (·.tim)) (f (·.cyc)) (f (·.host))
    (f (·.chutes)) (f (·.rcd)) (f (·.stp)) (f (·.air)) (f (·.gns)) (f (·.chiselOut)) (f (·.ring)) (f (·.can)) (f (·.mtr)) (f (·.drk))
    (f (·.dsp)) (f (·.tlg)) (f (·.pwr)) rfl (f (·.com))

theorem splitResolve_reads (d : Dev) (a b : Nat) : ∀ id jq, reportItem id = false → id ≠ P.DPX_SPLIT → id ≠ P.DPX_GIVEUP_CAUSE →
    (d.splitResolve a b).rd id jq = d.rd id jq ∧ (d.splitResolve a b).isSticky id jq = d.isSticky id jq ∧ (d.splitResolve a b).cf id jq = d.cf id jq := by
  intro id jq hr h0 h1
  have h := (splitResolve_spec d a b).2 id jq hr (by simp) (by simp [regKey_ne, h0, Ne.symm h0, h1, Ne.symm h1])
  have e : (d.splitResolve a b).staged = d.staged := by simp
  refine ⟨h.1, h.2, ?_⟩
  simp only [Dev.cf, e, h.1]

theorem splitResolve_at (d : Dev) (a b : Nat) : ∀ id jq, reportItem id = false  → regKey P.DPX_SPLIT 0 ≠ regKey id jq → regKey P.DPX_GIVEUP_CAUSE 0 ≠ regKey id jq →
    (d.splitResolve a b).rd id jq = d.rd id jq ∧ (d.splitResolve a b).isSticky id jq = d.isSticky id jq ∧ (d.splitResolve a b).cf id jq = d.cf id jq := by
  intro id jq hr h0 h1
  have h := (splitResolve_spec d a b).2 id jq hr (by simp) (by simp [h0, h1])
  have e : (d.splitResolve a b).staged = d.staged := by simp
  refine ⟨h.1, h.2, ?_⟩
  simp only [Dev.cf, e, h.1]

theorem itemsBut_splitResolve {ids : List Nat} {ks : List (Nat × Nat)} (d e : Dev) (a b : Nat) (m0 : P.DPX_SPLIT ∈ ids ∨ (P.DPX_SPLIT, 0) ∈ ks) (m1 : P.DPX_GIVEUP_CAUSE ∈ ids ∨ (P.DPX_GIVEUP_CAUSE, 0) ∈ ks) :
    ItemsBut ids ks (d.splitResolve a b) e ↔ ItemsBut ids ks d e :=
  itemsBut_congr ((splitResolve_spec d a b).2.mono (by simp) (by simp [m0, m1])) e

/-! ### Ring -/

/-- The Ring engine's state changed. -/
theorem rng_spec (d : Dev) (f : RingSt → RingSt) : (d.rng f).rest = { d.rest with ring := (d.rng f).ring } ∧
    ItemsBut [] [] (d.rng f) d := by
  exact ⟨rfl, fun _ _ _ _ _ => ⟨rfl, rfl⟩⟩

@[simp] theorem rng_fields (d : Dev) (f : RingSt → RingSt) :
    (d.rng f).now = d.now ∧ (d.rng f).snap = d.snap ∧ (d.rng f).committedOnce = d.committedOnce ∧ (d.rng f).staged = d.staged ∧
    (d.rng f).ctrls = d.ctrls ∧ (d.rng f).freeIx = d.freeIx ∧ (d.rng f).tim = d.tim ∧ (d.rng f).chutes = d.chutes ∧ (d.rng f).stp = d.stp ∧
    (d.rng f).air = d.air ∧ (d.rng f).gns = d.gns ∧ (d.rng f).chiselOut = d.chiselOut ∧ (d.rng f).can = d.can ∧ (d.rng f).mtr = d.mtr ∧
    (d.rng f).drk = d.drk ∧ (d.rng f).dsp = d.dsp ∧ (d.rng f).pwr = d.pwr ∧ (d.rng f).peer = d.peer ∧ (d.rng f).com = d.com ∧
    KeptCyc (d.rng f).cyc d.cyc ∧ KeptHost (d.rng f).host d.host ∧ KeptRcd (d.rng f).rcd d.rcd ∧ KeptTlg (d.rng f).tlg d.tlg := by
  have h := (rng_spec d f).1
  generalize d.rng f = x at h ⊢
  have f {α : Type} (g : Dev → α) : g x.rest = g ({ d.rest with ring := (x).ring }) := congrArg g h
  exact ⟨f (·.now), f (·.snap), f (·.committedOnce), f (·.staged), f (·.ctrls), f (·.freeIx), f (·.tim), f (·.chutes), f (·.stp), f (·.air),
    f (·.gns), f (·.chiselOut), f (·.can), f (·.mtr), f (·.drk), f (·.dsp), f (·.pwr), f (·.peer), f (·.com), KeptCyc.of (f (·.cyc)),
    KeptHost.of (f (·.host)), KeptRcd.of (f (·.rcd)), KeptTlg.of (f (·.tlg))⟩

@[simp] theorem rng_rest (d : Dev) (f : RingSt → RingSt) : (d.rng f).rest =
    { d.rest with ring := (d.rng f).ring } := by
  have h := (rng_spec d f).1
  generalize d.rng f = x at h ⊢
  have f {α : Type} (g : Dev → α) : g x.rest = g ({ d.rest with ring := (x).ring }) := congrArg g h
  exact dev_ext (f (·.now)) rfl (f (·.snap)) (f (·.committedOnce)) rfl (f (·.staged)) (f (·.ctrls)) rfl (f (·.freeIx)) (f (·.tim)) (f (·.cyc)) (f (·.host))
    (f (·.chutes)) (f (·.rcd)) (f (·.stp)) (f (·.air)) (f (·.gns)) (f (·.chiselOut)) rfl (f (·.can)) (f (·.mtr)) (f (·.drk)) (f (·.dsp))
    (f (·.tlg)) (f (·.pwr)) (f (·.peer)) (f (·.com))

theorem rng_reads (d : Dev) (f : RingSt → RingSt) : ∀ id jq, reportItem id = false  →
    (d.rng f).rd id jq = d.rd id jq ∧ (d.rng f).isSticky id jq = d.isSticky id jq ∧ (d.rng f).cf id jq = d.cf id jq := by
  intro id jq hr 
  have h := (rng_spec d f).2 id jq hr (by simp) (by simp)
  have e : (d.rng f).staged = d.staged := by simp
  refine ⟨h.1, h.2, ?_⟩
  simp only [Dev.cf, e, h.1]

theorem itemsBut_rng {ids : List Nat} {ks : List (Nat × Nat)} (d e : Dev) (f : RingSt → RingSt)  :
    ItemsBut ids ks (d.rng f) e ↔ ItemsBut ids ks d e :=
  itemsBut_congr ((rng_spec d f).2.mono (by simp) (by simp)) e

/-- A port state set. -/
theorem portState_spec (d : Dev) (p new speed : Nat) : (d.portState p new speed).rest = d.rest ∧
    ItemsBut [] [(P.RNG_PORT_STATE, p), (P.RNG_SPEED, p)] (d.portState p new speed) d := by
  unfold Dev.portState
  repeat' split
  all_goals
    exact ⟨by first | (simp [itemsBut_self, -judge_rest, judge_rest', -timeState_rest, timeState_rest', -takeSeq_rest, takeSeq_rest', -hold_rest, hold_rest', -admit_rest, admit_rest', -input_rest, input_rest', -offer_rest, offer_rest', -stopNotice_rest, stopNotice_rest', -stopEvent_rest, stopEvent_rest', -giveUp_rest, giveUp_rest', -verdict_rest, verdict_rest', -engineFault_rest, engineFault_rest', -ctr_rest, ctr_rest', -beginReset_rest, beginReset_rest', -imageKeep_rest, imageKeep_rest', -imageCopy_rest, imageCopy_rest', -lastWords_rest, lastWords_rest', -placeRec_rest, placeRec_rest', -setTask_rest, setTask_rest', -setCore_rest, setCore_rest', -coreCount_rest, coreCount_rest', -dspRun_rest, dspRun_rest', -dspLeave_rest, dspLeave_rest', -dspHold_rest, dspHold_rest', -dspReady_rest, dspReady_rest', -dspWake_rest, dspWake_rest', -wakeAll_rest, wakeAll_rest', -packetIn_rest, packetIn_rest', -endSession_rest, endSession_rest', -laneInputs_rest, laneInputs_rest', -laneLatch_rest, laneLatch_rest', -laneStop_rest, laneStop_rest', -voterFail_rest, voterFail_rest', -circuitFault_rest, circuitFault_rest', -circuitClear_rest, circuitClear_rest', -outFaultRaise_rest, outFaultRaise_rest', -outputs_rest, outputs_rest', -permitNotice_rest, permitNotice_rest', -startSeries_rest, startSeries_rest', -compareLanes_rest, compareLanes_rest', -voterTick_rest, voterTick_rest', -sendResync_rest, sendResync_rest', -toShadow_rest, toShadow_rest', -splitResolve_rest, splitResolve_rest']; done) | (simp [itemsBut_self, -judge_rest, judge_rest', -timeState_rest, timeState_rest', -takeSeq_rest, takeSeq_rest', -hold_rest, hold_rest', -admit_rest, admit_rest', -input_rest, input_rest', -offer_rest, offer_rest', -stopNotice_rest, stopNotice_rest', -stopEvent_rest, stopEvent_rest', -giveUp_rest, giveUp_rest', -verdict_rest, verdict_rest', -engineFault_rest, engineFault_rest', -ctr_rest, ctr_rest', -beginReset_rest, beginReset_rest', -imageKeep_rest, imageKeep_rest', -imageCopy_rest, imageCopy_rest', -lastWords_rest, lastWords_rest', -placeRec_rest, placeRec_rest', -setTask_rest, setTask_rest', -setCore_rest, setCore_rest', -coreCount_rest, coreCount_rest', -dspRun_rest, dspRun_rest', -dspLeave_rest, dspLeave_rest', -dspHold_rest, dspHold_rest', -dspReady_rest, dspReady_rest', -dspWake_rest, dspWake_rest', -wakeAll_rest, wakeAll_rest', -packetIn_rest, packetIn_rest', -endSession_rest, endSession_rest', -laneInputs_rest, laneInputs_rest', -laneLatch_rest, laneLatch_rest', -laneStop_rest, laneStop_rest', -voterFail_rest, voterFail_rest', -circuitFault_rest, circuitFault_rest', -circuitClear_rest, circuitClear_rest', -outFaultRaise_rest, outFaultRaise_rest', -outputs_rest, outputs_rest', -permitNotice_rest, permitNotice_rest', -startSeries_rest, startSeries_rest', -compareLanes_rest, compareLanes_rest', -voterTick_rest, voterTick_rest', -sendResync_rest, sendResync_rest', -toShadow_rest, toShadow_rest', -splitResolve_rest, splitResolve_rest']; repeat' (first | rfl | apply And.intro)) | rfl, by simp [itemsBut_wr, itemsBut_inc, itemsBut_addW, itemsBut_maxTo, itemsBut_wrS, itemsBut_judge, itemsBut_timeState, itemsBut_takeSeq, itemsBut_countIn, itemsBut_hold, itemsBut_admit, itemsBut_input, itemsBut_offer, itemsBut_stopNotice, itemsBut_stopEvent, itemsBut_giveUp, itemsBut_verdict, itemsBut_engineFault, itemsBut_ctr, itemsBut_dspTrace, itemsBut_bypass, itemsBut_bypassHw, itemsBut_beginReset, itemsBut_mtrFlush, itemsBut_imageKeep, itemsBut_imageCopy, itemsBut_antState, itemsBut_judgeBias, itemsBut_chainState, itemsBut_showTile, itemsBut_putChan, itemsBut_freeChan, itemsBut_freeWhere, itemsBut_enableChan, itemsBut_place, itemsBut_placeAll, itemsBut_chainsEnable, itemsBut_startTracking, itemsBut_noteGain, itemsBut_stopTracking, itemsBut_snapTrigger, itemsBut_recorder, itemsBut_region, itemsBut_showRegion, itemsBut_lastWords, itemsBut_placeRec, itemsBut_flush, itemsBut_regionLost, itemsBut_setTask, itemsBut_setCore, itemsBut_coreCount, itemsBut_dspRun, itemsBut_dspLeave, itemsBut_dspHold, itemsBut_dspReady, itemsBut_dspWake, itemsBut_wakeAll, itemsBut_chuteTrace, itemsBut_chute, itemsBut_rewind, itemsBut_parityFail, itemsBut_packetIn, itemsBut_noteReply, itemsBut_sessionNote, itemsBut_endSession, itemsBut_laneInputs, itemsBut_laneLatch, itemsBut_laneStop, itemsBut_voterFail, itemsBut_isolate, itemsBut_showLevel, itemsBut_circuitFault, itemsBut_circuitClear, itemsBut_outFaultRaise, itemsBut_sliceFault, itemsBut_showStop, itemsBut_outputs, itemsBut_permitNotice, itemsBut_startSeries, itemsBut_compareLanes, itemsBut_voterTick, itemsBut_unitState, itemsBut_sendResync, itemsBut_toShadow, itemsBut_splitResolve, itemsBut_rng]⟩

@[simp] theorem portState_fields (d : Dev) (p new speed : Nat) :
    (d.portState p new speed).now = d.now ∧ (d.portState p new speed).snap = d.snap ∧
    (d.portState p new speed).committedOnce = d.committedOnce ∧ (d.portState p new speed).staged = d.staged ∧
    (d.portState p new speed).ctrls = d.ctrls ∧ (d.portState p new speed).freeIx = d.freeIx ∧ (d.portState p new speed).tim = d.tim ∧
    (d.portState p new speed).chutes = d.chutes ∧ (d.portState p new speed).stp = d.stp ∧ (d.portState p new speed).air = d.air ∧
    (d.portState p new speed).gns = d.gns ∧ (d.portState p new speed).chiselOut = d.chiselOut ∧ (d.portState p new speed).ring = d.ring ∧
    (d.portState p new speed).can = d.can ∧ (d.portState p new speed).mtr = d.mtr ∧ (d.portState p new speed).drk = d.drk ∧
    (d.portState p new speed).dsp = d.dsp ∧ (d.portState p new speed).pwr = d.pwr ∧ (d.portState p new speed).peer = d.peer ∧
    (d.portState p new speed).com = d.com ∧ KeptCyc (d.portState p new speed).cyc d.cyc ∧ KeptHost (d.portState p new speed).host d.host ∧
    KeptRcd (d.portState p new speed).rcd d.rcd ∧ KeptTlg (d.portState p new speed).tlg d.tlg := by
  have h := (portState_spec d p new speed).1
  generalize d.portState p new speed = x at h ⊢
  have f {α : Type} (g : Dev → α) : g x.rest = g (d.rest) := congrArg g h
  exact ⟨f (·.now), f (·.snap), f (·.committedOnce), f (·.staged), f (·.ctrls), f (·.freeIx), f (·.tim), f (·.chutes), f (·.stp), f (·.air),
    f (·.gns), f (·.chiselOut), f (·.ring), f (·.can), f (·.mtr), f (·.drk), f (·.dsp), f (·.pwr), f (·.peer), f (·.com),
    KeptCyc.of (f (·.cyc)), KeptHost.of (f (·.host)), KeptRcd.of (f (·.rcd)), KeptTlg.of (f (·.tlg))⟩

@[simp] theorem portState_rest (d : Dev) (p new speed : Nat) : (d.portState p new speed).rest =
    d.rest := by
  have h := (portState_spec d p new speed).1
  generalize d.portState p new speed = x at h ⊢
  have f {α : Type} (g : Dev → α) : g x.rest = g (d.rest) := congrArg g h
  exact dev_ext (f (·.now)) rfl (f (·.snap)) (f (·.committedOnce)) rfl (f (·.staged)) (f (·.ctrls)) rfl (f (·.freeIx)) (f (·.tim)) (f (·.cyc)) (f (·.host))
    (f (·.chutes)) (f (·.rcd)) (f (·.stp)) (f (·.air)) (f (·.gns)) (f (·.chiselOut)) (f (·.ring)) (f (·.can)) (f (·.mtr)) (f (·.drk))
    (f (·.dsp)) (f (·.tlg)) (f (·.pwr)) (f (·.peer)) (f (·.com))

theorem portState_reads (d : Dev) (p new speed : Nat) : ∀ id jq, reportItem id = false → id ≠ P.RNG_PORT_STATE → id ≠ P.RNG_SPEED →
    (d.portState p new speed).rd id jq = d.rd id jq ∧ (d.portState p new speed).isSticky id jq = d.isSticky id jq ∧ (d.portState p new speed).cf id jq = d.cf id jq := by
  intro id jq hr h0 h1
  have h := (portState_spec d p new speed).2 id jq hr (by simp) (by simp [regKey_ne, h0, Ne.symm h0, h1, Ne.symm h1])
  have e : (d.portState p new speed).staged = d.staged := by simp
  refine ⟨h.1, h.2, ?_⟩
  simp only [Dev.cf, e, h.1]

theorem portState_at (d : Dev) (p new speed : Nat) : ∀ id jq, reportItem id = false  → regKey P.RNG_PORT_STATE p ≠ regKey id jq → regKey P.RNG_SPEED p ≠ regKey id jq →
    (d.portState p new speed).rd id jq = d.rd id jq ∧ (d.portState p new speed).isSticky id jq = d.isSticky id jq ∧ (d.portState p new speed).cf id jq = d.cf id jq := by
  intro id jq hr h0 h1
  have h := (portState_spec d p new speed).2 id jq hr (by simp) (by simp [h0, h1])
  have e : (d.portState p new speed).staged = d.staged := by simp
  refine ⟨h.1, h.2, ?_⟩
  simp only [Dev.cf, e, h.1]

theorem itemsBut_portState {ids : List Nat} {ks : List (Nat × Nat)} (d e : Dev) (p new speed : Nat) (m0 : P.RNG_PORT_STATE ∈ ids ∨ (P.RNG_PORT_STATE, p) ∈ ks) (m1 : P.RNG_SPEED ∈ ids ∨ (P.RNG_SPEED, p) ∈ ks) :
    ItemsBut ids ks (d.portState p new speed) e ↔ ItemsBut ids ks d e :=
  itemsBut_congr ((portState_spec d p new speed).2.mono (by simp) (by simp [m0, m1])) e

/-- What the by-pass makes of the ports. -/
theorem bypassPorts_spec (d : Dev)  : (d.bypassPorts).rest = { d.rest with ring := (d.bypassPorts).ring } ∧
    ItemsBut [] [(P.RNG_BYPASS_STATE, 0)] (d.bypassPorts) d := by
  unfold Dev.bypassPorts Dev.when
  try simp only []
  repeat' split
  all_goals
    exact ⟨by first | (simp [itemsBut_self, -judge_rest, judge_rest', -timeState_rest, timeState_rest', -takeSeq_rest, takeSeq_rest', -hold_rest, hold_rest', -admit_rest, admit_rest', -input_rest, input_rest', -offer_rest, offer_rest', -stopNotice_rest, stopNotice_rest', -stopEvent_rest, stopEvent_rest', -giveUp_rest, giveUp_rest', -verdict_rest, verdict_rest', -engineFault_rest, engineFault_rest', -ctr_rest, ctr_rest', -beginReset_rest, beginReset_rest', -imageKeep_rest, imageKeep_rest', -imageCopy_rest, imageCopy_rest', -lastWords_rest, lastWords_rest', -placeRec_rest, placeRec_rest', -setTask_rest, setTask_rest', -setCore_rest, setCore_rest', -coreCount_rest, coreCount_rest', -dspRun_rest, dspRun_rest', -dspLeave_rest, dspLeave_rest', -dspHold_rest, dspHold_rest', -dspReady_rest, dspReady_rest', -dspWake_rest, dspWake_rest', -wakeAll_rest, wakeAll_rest', -packetIn_rest, packetIn_rest', -endSession_rest, endSession_rest', -laneInputs_rest, laneInputs_rest', -laneLatch_rest, laneLatch_rest', -laneStop_rest, laneStop_rest', -voterFail_rest, voterFail_rest', -circuitFault_rest, circuitFault_rest', -circuitClear_rest, circuitClear_rest', -outFaultRaise_rest, outFaultRaise_rest', -outputs_rest, outputs_rest', -permitNotice_rest, permitNotice_rest', -startSeries_rest, startSeries_rest', -compareLanes_rest, compareLanes_rest', -voterTick_rest, voterTick_rest', -sendResync_rest, sendResync_rest', -toShadow_rest, toShadow_rest', -splitResolve_rest, splitResolve_rest']; done) | (simp [itemsBut_self, -judge_rest, judge_rest', -timeState_rest, timeState_rest', -takeSeq_rest, takeSeq_rest', -hold_rest, hold_rest', -admit_rest, admit_rest', -input_rest, input_rest', -offer_rest, offer_rest', -stopNotice_rest, stopNotice_rest', -stopEvent_rest, stopEvent_rest', -giveUp_rest, giveUp_rest', -verdict_rest, verdict_rest', -engineFault_rest, engineFault_rest', -ctr_rest, ctr_rest', -beginReset_rest, beginReset_rest', -imageKeep_rest, imageKeep_rest', -imageCopy_rest, imageCopy_rest', -lastWords_rest, lastWords_rest', -placeRec_rest, placeRec_rest', -setTask_rest, setTask_rest', -setCore_rest, setCore_rest', -coreCount_rest, coreCount_rest', -dspRun_rest, dspRun_rest', -dspLeave_rest, dspLeave_rest', -dspHold_rest, dspHold_rest', -dspReady_rest, dspReady_rest', -dspWake_rest, dspWake_rest', -wakeAll_rest, wakeAll_rest', -packetIn_rest, packetIn_rest', -endSession_rest, endSession_rest', -laneInputs_rest, laneInputs_rest', -laneLatch_rest, laneLatch_rest', -laneStop_rest, laneStop_rest', -voterFail_rest, voterFail_rest', -circuitFault_rest, circuitFault_rest', -circuitClear_rest, circuitClear_rest', -outFaultRaise_rest, outFaultRaise_rest', -outputs_rest, outputs_rest', -permitNotice_rest, permitNotice_rest', -startSeries_rest, startSeries_rest', -compareLanes_rest, compareLanes_rest', -voterTick_rest, voterTick_rest', -sendResync_rest, sendResync_rest', -toShadow_rest, toShadow_rest', -splitResolve_rest, splitResolve_rest']; repeat' (first | rfl | apply And.intro)) | rfl, by simp [itemsBut_wr, itemsBut_inc, itemsBut_addW, itemsBut_maxTo, itemsBut_wrS, itemsBut_judge, itemsBut_timeState, itemsBut_takeSeq, itemsBut_countIn, itemsBut_hold, itemsBut_admit, itemsBut_input, itemsBut_offer, itemsBut_stopNotice, itemsBut_stopEvent, itemsBut_giveUp, itemsBut_verdict, itemsBut_engineFault, itemsBut_ctr, itemsBut_dspTrace, itemsBut_bypass, itemsBut_bypassHw, itemsBut_beginReset, itemsBut_mtrFlush, itemsBut_imageKeep, itemsBut_imageCopy, itemsBut_antState, itemsBut_judgeBias, itemsBut_chainState, itemsBut_showTile, itemsBut_putChan, itemsBut_freeChan, itemsBut_freeWhere, itemsBut_enableChan, itemsBut_place, itemsBut_placeAll, itemsBut_chainsEnable, itemsBut_startTracking, itemsBut_noteGain, itemsBut_stopTracking, itemsBut_snapTrigger, itemsBut_recorder, itemsBut_region, itemsBut_showRegion, itemsBut_lastWords, itemsBut_placeRec, itemsBut_flush, itemsBut_regionLost, itemsBut_setTask, itemsBut_setCore, itemsBut_coreCount, itemsBut_dspRun, itemsBut_dspLeave, itemsBut_dspHold, itemsBut_dspReady, itemsBut_dspWake, itemsBut_wakeAll, itemsBut_chuteTrace, itemsBut_chute, itemsBut_rewind, itemsBut_parityFail, itemsBut_packetIn, itemsBut_noteReply, itemsBut_sessionNote, itemsBut_endSession, itemsBut_laneInputs, itemsBut_laneLatch, itemsBut_laneStop, itemsBut_voterFail, itemsBut_isolate, itemsBut_showLevel, itemsBut_circuitFault, itemsBut_circuitClear, itemsBut_outFaultRaise, itemsBut_sliceFault, itemsBut_showStop, itemsBut_outputs, itemsBut_permitNotice, itemsBut_startSeries, itemsBut_compareLanes, itemsBut_voterTick, itemsBut_unitState, itemsBut_sendResync, itemsBut_toShadow, itemsBut_splitResolve, itemsBut_rng, itemsBut_portState]⟩

@[simp] theorem bypassPorts_fields (d : Dev)  :
    (d.bypassPorts).now = d.now ∧ (d.bypassPorts).snap = d.snap ∧ (d.bypassPorts).committedOnce = d.committedOnce ∧
    (d.bypassPorts).staged = d.staged ∧ (d.bypassPorts).ctrls = d.ctrls ∧ (d.bypassPorts).freeIx = d.freeIx ∧ (d.bypassPorts).tim = d.tim ∧
    (d.bypassPorts).chutes = d.chutes ∧ (d.bypassPorts).stp = d.stp ∧ (d.bypassPorts).air = d.air ∧ (d.bypassPorts).gns = d.gns ∧
    (d.bypassPorts).chiselOut = d.chiselOut ∧ (d.bypassPorts).can = d.can ∧ (d.bypassPorts).mtr = d.mtr ∧ (d.bypassPorts).drk = d.drk ∧
    (d.bypassPorts).dsp = d.dsp ∧ (d.bypassPorts).pwr = d.pwr ∧ (d.bypassPorts).peer = d.peer ∧ (d.bypassPorts).com = d.com ∧
    KeptCyc (d.bypassPorts).cyc d.cyc ∧ KeptHost (d.bypassPorts).host d.host ∧ KeptRcd (d.bypassPorts).rcd d.rcd ∧
    KeptTlg (d.bypassPorts).tlg d.tlg := by
  have h := (bypassPorts_spec d ).1
  generalize d.bypassPorts = x at h ⊢
  have f {α : Type} (g : Dev → α) : g x.rest = g ({ d.rest with ring := (x).ring }) := congrArg g h
  exact ⟨f (·.now), f (·.snap), f (·.committedOnce), f (·.staged), f (·.ctrls), f (·.freeIx), f (·.tim), f (·.chutes), f (·.stp), f (·.air),
    f (·.gns), f (·.chiselOut), f (·.can), f (·.mtr), f (·.drk), f (·.dsp), f (·.pwr), f (·.peer), f (·.com), KeptCyc.of (f (·.cyc)),
    KeptHost.of (f (·.host)), KeptRcd.of (f (·.rcd)), KeptTlg.of (f (·.tlg))⟩

@[simp] theorem bypassPorts_rest (d : Dev)  : (d.bypassPorts).rest =
    { d.rest with ring := (d.bypassPorts).ring } := by
  have h := (bypassPorts_spec d ).1
  generalize d.bypassPorts = x at h ⊢
  have f {α : Type} (g : Dev → α) : g x.rest = g ({ d.rest with ring := (x).ring }) := congrArg g h
  exact dev_ext (f (·.now)) rfl (f (·.snap)) (f (·.committedOnce)) rfl (f (·.staged)) (f (·.ctrls)) rfl (f (·.freeIx)) (f (·.tim)) (f (·.cyc)) (f (·.host))
    (f (·.chutes)) (f (·.rcd)) (f (·.stp)) (f (·.air)) (f (·.gns)) (f (·.chiselOut)) rfl (f (·.can)) (f (·.mtr)) (f (·.drk)) (f (·.dsp))
    (f (·.tlg)) (f (·.pwr)) (f (·.peer)) (f (·.com))

theorem bypassPorts_reads (d : Dev)  : ∀ id jq, reportItem id = false → id ≠ P.RNG_BYPASS_STATE →
    (d.bypassPorts).rd id jq = d.rd id jq ∧ (d.bypassPorts).isSticky id jq = d.isSticky id jq ∧ (d.bypassPorts).cf id jq = d.cf id jq := by
  intro id jq hr h0
  have h := (bypassPorts_spec d ).2 id jq hr (by simp) (by simp [regKey_ne, h0, Ne.symm h0])
  have e : (d.bypassPorts).staged = d.staged := by simp
  refine ⟨h.1, h.2, ?_⟩
  simp only [Dev.cf, e, h.1]

theorem bypassPorts_at (d : Dev)  : ∀ id jq, reportItem id = false  → regKey P.RNG_BYPASS_STATE 0 ≠ regKey id jq →
    (d.bypassPorts).rd id jq = d.rd id jq ∧ (d.bypassPorts).isSticky id jq = d.isSticky id jq ∧ (d.bypassPorts).cf id jq = d.cf id jq := by
  intro id jq hr h0
  have h := (bypassPorts_spec d ).2 id jq hr (by simp) (by simp [h0])
  have e : (d.bypassPorts).staged = d.staged := by simp
  refine ⟨h.1, h.2, ?_⟩
  simp only [Dev.cf, e, h.1]

theorem itemsBut_bypassPorts {ids : List Nat} {ks : List (Nat × Nat)} (d e : Dev)  (m0 : P.RNG_BYPASS_STATE ∈ ids ∨ (P.RNG_BYPASS_STATE, 0) ∈ ks) :
    ItemsBut ids ks (d.bypassPorts) e ↔ ItemsBut ids ks d e :=
  itemsBut_congr ((bypassPorts_spec d ).2.mono (by simp) (by simp [m0])) e

/-- The PTP state judged. -/
theorem ptpJudge_spec (d : Dev)  : (d.ptpJudge).rest = d.rest ∧
    ItemsBut [] [(P.RNG_PTP_STATE, 0), (P.RNG_PTP_GM_ID, 0)] (d.ptpJudge) d := by
  unfold Dev.ptpJudge Dev.when
  try simp only []
  repeat' split
  all_goals
    exact ⟨by first | (simp [itemsBut_self, -judge_rest, judge_rest', -timeState_rest, timeState_rest', -takeSeq_rest, takeSeq_rest', -hold_rest, hold_rest', -admit_rest, admit_rest', -input_rest, input_rest', -offer_rest, offer_rest', -stopNotice_rest, stopNotice_rest', -stopEvent_rest, stopEvent_rest', -giveUp_rest, giveUp_rest', -verdict_rest, verdict_rest', -engineFault_rest, engineFault_rest', -ctr_rest, ctr_rest', -beginReset_rest, beginReset_rest', -imageKeep_rest, imageKeep_rest', -imageCopy_rest, imageCopy_rest', -lastWords_rest, lastWords_rest', -placeRec_rest, placeRec_rest', -setTask_rest, setTask_rest', -setCore_rest, setCore_rest', -coreCount_rest, coreCount_rest', -dspRun_rest, dspRun_rest', -dspLeave_rest, dspLeave_rest', -dspHold_rest, dspHold_rest', -dspReady_rest, dspReady_rest', -dspWake_rest, dspWake_rest', -wakeAll_rest, wakeAll_rest', -packetIn_rest, packetIn_rest', -endSession_rest, endSession_rest', -laneInputs_rest, laneInputs_rest', -laneLatch_rest, laneLatch_rest', -laneStop_rest, laneStop_rest', -voterFail_rest, voterFail_rest', -circuitFault_rest, circuitFault_rest', -circuitClear_rest, circuitClear_rest', -outFaultRaise_rest, outFaultRaise_rest', -outputs_rest, outputs_rest', -permitNotice_rest, permitNotice_rest', -startSeries_rest, startSeries_rest', -compareLanes_rest, compareLanes_rest', -voterTick_rest, voterTick_rest', -sendResync_rest, sendResync_rest', -toShadow_rest, toShadow_rest', -splitResolve_rest, splitResolve_rest']; done) | (simp [itemsBut_self, -judge_rest, judge_rest', -timeState_rest, timeState_rest', -takeSeq_rest, takeSeq_rest', -hold_rest, hold_rest', -admit_rest, admit_rest', -input_rest, input_rest', -offer_rest, offer_rest', -stopNotice_rest, stopNotice_rest', -stopEvent_rest, stopEvent_rest', -giveUp_rest, giveUp_rest', -verdict_rest, verdict_rest', -engineFault_rest, engineFault_rest', -ctr_rest, ctr_rest', -beginReset_rest, beginReset_rest', -imageKeep_rest, imageKeep_rest', -imageCopy_rest, imageCopy_rest', -lastWords_rest, lastWords_rest', -placeRec_rest, placeRec_rest', -setTask_rest, setTask_rest', -setCore_rest, setCore_rest', -coreCount_rest, coreCount_rest', -dspRun_rest, dspRun_rest', -dspLeave_rest, dspLeave_rest', -dspHold_rest, dspHold_rest', -dspReady_rest, dspReady_rest', -dspWake_rest, dspWake_rest', -wakeAll_rest, wakeAll_rest', -packetIn_rest, packetIn_rest', -endSession_rest, endSession_rest', -laneInputs_rest, laneInputs_rest', -laneLatch_rest, laneLatch_rest', -laneStop_rest, laneStop_rest', -voterFail_rest, voterFail_rest', -circuitFault_rest, circuitFault_rest', -circuitClear_rest, circuitClear_rest', -outFaultRaise_rest, outFaultRaise_rest', -outputs_rest, outputs_rest', -permitNotice_rest, permitNotice_rest', -startSeries_rest, startSeries_rest', -compareLanes_rest, compareLanes_rest', -voterTick_rest, voterTick_rest', -sendResync_rest, sendResync_rest', -toShadow_rest, toShadow_rest', -splitResolve_rest, splitResolve_rest']; repeat' (first | rfl | apply And.intro)) | rfl, by simp [itemsBut_wr, itemsBut_inc, itemsBut_addW, itemsBut_maxTo, itemsBut_wrS, itemsBut_judge, itemsBut_timeState, itemsBut_takeSeq, itemsBut_countIn, itemsBut_hold, itemsBut_admit, itemsBut_input, itemsBut_offer, itemsBut_stopNotice, itemsBut_stopEvent, itemsBut_giveUp, itemsBut_verdict, itemsBut_engineFault, itemsBut_ctr, itemsBut_dspTrace, itemsBut_bypass, itemsBut_bypassHw, itemsBut_beginReset, itemsBut_mtrFlush, itemsBut_imageKeep, itemsBut_imageCopy, itemsBut_antState, itemsBut_judgeBias, itemsBut_chainState, itemsBut_showTile, itemsBut_putChan, itemsBut_freeChan, itemsBut_freeWhere, itemsBut_enableChan, itemsBut_place, itemsBut_placeAll, itemsBut_chainsEnable, itemsBut_startTracking, itemsBut_noteGain, itemsBut_stopTracking, itemsBut_snapTrigger, itemsBut_recorder, itemsBut_region, itemsBut_showRegion, itemsBut_lastWords, itemsBut_placeRec, itemsBut_flush, itemsBut_regionLost, itemsBut_setTask, itemsBut_setCore, itemsBut_coreCount, itemsBut_dspRun, itemsBut_dspLeave, itemsBut_dspHold, itemsBut_dspReady, itemsBut_dspWake, itemsBut_wakeAll, itemsBut_chuteTrace, itemsBut_chute, itemsBut_rewind, itemsBut_parityFail, itemsBut_packetIn, itemsBut_noteReply, itemsBut_sessionNote, itemsBut_endSession, itemsBut_laneInputs, itemsBut_laneLatch, itemsBut_laneStop, itemsBut_voterFail, itemsBut_isolate, itemsBut_showLevel, itemsBut_circuitFault, itemsBut_circuitClear, itemsBut_outFaultRaise, itemsBut_sliceFault, itemsBut_showStop, itemsBut_outputs, itemsBut_permitNotice, itemsBut_startSeries, itemsBut_compareLanes, itemsBut_voterTick, itemsBut_unitState, itemsBut_sendResync, itemsBut_toShadow, itemsBut_splitResolve, itemsBut_rng, itemsBut_portState, itemsBut_bypassPorts]⟩

@[simp] theorem ptpJudge_fields (d : Dev)  :
    (d.ptpJudge).now = d.now ∧ (d.ptpJudge).snap = d.snap ∧ (d.ptpJudge).committedOnce = d.committedOnce ∧ (d.ptpJudge).staged = d.staged ∧
    (d.ptpJudge).ctrls = d.ctrls ∧ (d.ptpJudge).freeIx = d.freeIx ∧ (d.ptpJudge).tim = d.tim ∧ (d.ptpJudge).chutes = d.chutes ∧
    (d.ptpJudge).stp = d.stp ∧ (d.ptpJudge).air = d.air ∧ (d.ptpJudge).gns = d.gns ∧ (d.ptpJudge).chiselOut = d.chiselOut ∧
    (d.ptpJudge).ring = d.ring ∧ (d.ptpJudge).can = d.can ∧ (d.ptpJudge).mtr = d.mtr ∧ (d.ptpJudge).drk = d.drk ∧ (d.ptpJudge).dsp = d.dsp ∧
    (d.ptpJudge).pwr = d.pwr ∧ (d.ptpJudge).peer = d.peer ∧ (d.ptpJudge).com = d.com ∧ KeptCyc (d.ptpJudge).cyc d.cyc ∧
    KeptHost (d.ptpJudge).host d.host ∧ KeptRcd (d.ptpJudge).rcd d.rcd ∧ KeptTlg (d.ptpJudge).tlg d.tlg := by
  have h := (ptpJudge_spec d ).1
  generalize d.ptpJudge = x at h ⊢
  have f {α : Type} (g : Dev → α) : g x.rest = g (d.rest) := congrArg g h
  exact ⟨f (·.now), f (·.snap), f (·.committedOnce), f (·.staged), f (·.ctrls), f (·.freeIx), f (·.tim), f (·.chutes), f (·.stp), f (·.air),
    f (·.gns), f (·.chiselOut), f (·.ring), f (·.can), f (·.mtr), f (·.drk), f (·.dsp), f (·.pwr), f (·.peer), f (·.com),
    KeptCyc.of (f (·.cyc)), KeptHost.of (f (·.host)), KeptRcd.of (f (·.rcd)), KeptTlg.of (f (·.tlg))⟩

@[simp] theorem ptpJudge_rest (d : Dev)  : (d.ptpJudge).rest =
    d.rest := by
  have h := (ptpJudge_spec d ).1
  generalize d.ptpJudge = x at h ⊢
  have f {α : Type} (g : Dev → α) : g x.rest = g (d.rest) := congrArg g h
  exact dev_ext (f (·.now)) rfl (f (·.snap)) (f (·.committedOnce)) rfl (f (·.staged)) (f (·.ctrls)) rfl (f (·.freeIx)) (f (·.tim)) (f (·.cyc)) (f (·.host))
    (f (·.chutes)) (f (·.rcd)) (f (·.stp)) (f (·.air)) (f (·.gns)) (f (·.chiselOut)) (f (·.ring)) (f (·.can)) (f (·.mtr)) (f (·.drk))
    (f (·.dsp)) (f (·.tlg)) (f (·.pwr)) (f (·.peer)) (f (·.com))

theorem ptpJudge_reads (d : Dev)  : ∀ id jq, reportItem id = false → id ≠ P.RNG_PTP_STATE → id ≠ P.RNG_PTP_GM_ID →
    (d.ptpJudge).rd id jq = d.rd id jq ∧ (d.ptpJudge).isSticky id jq = d.isSticky id jq ∧ (d.ptpJudge).cf id jq = d.cf id jq := by
  intro id jq hr h0 h1
  have h := (ptpJudge_spec d ).2 id jq hr (by simp) (by simp [regKey_ne, h0, Ne.symm h0, h1, Ne.symm h1])
  have e : (d.ptpJudge).staged = d.staged := by simp
  refine ⟨h.1, h.2, ?_⟩
  simp only [Dev.cf, e, h.1]

theorem ptpJudge_at (d : Dev)  : ∀ id jq, reportItem id = false  → regKey P.RNG_PTP_STATE 0 ≠ regKey id jq → regKey P.RNG_PTP_GM_ID 0 ≠ regKey id jq →
    (d.ptpJudge).rd id jq = d.rd id jq ∧ (d.ptpJudge).isSticky id jq = d.isSticky id jq ∧ (d.ptpJudge).cf id jq = d.cf id jq := by
  intro id jq hr h0 h1
  have h := (ptpJudge_spec d ).2 id jq hr (by simp) (by simp [h0, h1])
  have e : (d.ptpJudge).staged = d.staged := by simp
  refine ⟨h.1, h.2, ?_⟩
  simp only [Dev.cf, e, h.1]

theorem itemsBut_ptpJudge {ids : List Nat} {ks : List (Nat × Nat)} (d e : Dev)  (m0 : P.RNG_PTP_STATE ∈ ids ∨ (P.RNG_PTP_STATE, 0) ∈ ks) (m1 : P.RNG_PTP_GM_ID ∈ ids ∨ (P.RNG_PTP_GM_ID, 0) ∈ ks) :
    ItemsBut ids ks (d.ptpJudge) e ↔ ItemsBut ids ks d e :=
  itemsBut_congr ((ptpJudge_spec d ).2.mono (by simp) (by simp [m0, m1])) e

/-! ### Field Bus -/

/-- The Field Bus engine's state changed. -/
theorem canSt_spec (d : Dev) (f : CanSt → CanSt) : (d.canSt f).rest = { d.rest with can := (d.canSt f).can } ∧
    ItemsBut [] [] (d.canSt f) d := by
  exact ⟨rfl, fun _ _ _ _ _ => ⟨rfl, rfl⟩⟩

@[simp] theorem canSt_fields (d : Dev) (f : CanSt → CanSt) :
    (d.canSt f).now = d.now ∧ (d.canSt f).snap = d.snap ∧ (d.canSt f).committedOnce = d.committedOnce ∧ (d.canSt f).staged = d.staged ∧
    (d.canSt f).ctrls = d.ctrls ∧ (d.canSt f).freeIx = d.freeIx ∧ (d.canSt f).tim = d.tim ∧ (d.canSt f).chutes = d.chutes ∧
    (d.canSt f).stp = d.stp ∧ (d.canSt f).air = d.air ∧ (d.canSt f).gns = d.gns ∧ (d.canSt f).chiselOut = d.chiselOut ∧
    (d.canSt f).ring = d.ring ∧ (d.canSt f).mtr = d.mtr ∧ (d.canSt f).drk = d.drk ∧ (d.canSt f).dsp = d.dsp ∧ (d.canSt f).pwr = d.pwr ∧
    (d.canSt f).peer = d.peer ∧ (d.canSt f).com = d.com ∧ KeptCyc (d.canSt f).cyc d.cyc ∧ KeptHost (d.canSt f).host d.host ∧
    KeptRcd (d.canSt f).rcd d.rcd ∧ KeptTlg (d.canSt f).tlg d.tlg := by
  have h := (canSt_spec d f).1
  generalize d.canSt f = x at h ⊢
  have f {α : Type} (g : Dev → α) : g x.rest = g ({ d.rest with can := (x).can }) := congrArg g h
  exact ⟨f (·.now), f (·.snap), f (·.committedOnce), f (·.staged), f (·.ctrls), f (·.freeIx), f (·.tim), f (·.chutes), f (·.stp), f (·.air),
    f (·.gns), f (·.chiselOut), f (·.ring), f (·.mtr), f (·.drk), f (·.dsp), f (·.pwr), f (·.peer), f (·.com), KeptCyc.of (f (·.cyc)),
    KeptHost.of (f (·.host)), KeptRcd.of (f (·.rcd)), KeptTlg.of (f (·.tlg))⟩

@[simp] theorem canSt_rest (d : Dev) (f : CanSt → CanSt) : (d.canSt f).rest =
    { d.rest with can := (d.canSt f).can } := by
  have h := (canSt_spec d f).1
  generalize d.canSt f = x at h ⊢
  have f {α : Type} (g : Dev → α) : g x.rest = g ({ d.rest with can := (x).can }) := congrArg g h
  exact dev_ext (f (·.now)) rfl (f (·.snap)) (f (·.committedOnce)) rfl (f (·.staged)) (f (·.ctrls)) rfl (f (·.freeIx)) (f (·.tim)) (f (·.cyc)) (f (·.host))
    (f (·.chutes)) (f (·.rcd)) (f (·.stp)) (f (·.air)) (f (·.gns)) (f (·.chiselOut)) (f (·.ring)) rfl (f (·.mtr)) (f (·.drk)) (f (·.dsp))
    (f (·.tlg)) (f (·.pwr)) (f (·.peer)) (f (·.com))

theorem canSt_reads (d : Dev) (f : CanSt → CanSt) : ∀ id jq, reportItem id = false  →
    (d.canSt f).rd id jq = d.rd id jq ∧ (d.canSt f).isSticky id jq = d.isSticky id jq ∧ (d.canSt f).cf id jq = d.cf id jq := by
  intro id jq hr 
  have h := (canSt_spec d f).2 id jq hr (by simp) (by simp)
  have e : (d.canSt f).staged = d.staged := by simp
  refine ⟨h.1, h.2, ?_⟩
  simp only [Dev.cf, e, h.1]

theorem itemsBut_canSt {ids : List Nat} {ks : List (Nat × Nat)} (d e : Dev) (f : CanSt → CanSt)  :
    ItemsBut ids ks (d.canSt f) e ↔ ItemsBut ids ks d e :=
  itemsBut_congr ((canSt_spec d f).2.mono (by simp) (by simp)) e

/-- A buffer placed. -/
theorem putBuf_spec (d : Dev) (b : CanBuf) : (d.putBuf b).rest = { d.rest with can := { d.can with bufs := (d.putBuf b).can.bufs } } ∧
    ItemsBut [] [] (d.putBuf b) d := by
  exact ⟨rfl, fun _ _ _ _ _ => ⟨rfl, rfl⟩⟩

theorem putBuf_rest' (d : Dev) (b : CanBuf) : (d.putBuf b).rest = { d.rest with can := { d.can with bufs := (d.putBuf b).can.bufs } } := (putBuf_spec d b).1

@[simp] theorem putBuf_fields (d : Dev) (b : CanBuf) :
    (d.putBuf b).now = d.now ∧ (d.putBuf b).snap = d.snap ∧ (d.putBuf b).committedOnce = d.committedOnce ∧ (d.putBuf b).staged = d.staged ∧
    (d.putBuf b).ctrls = d.ctrls ∧ (d.putBuf b).freeIx = d.freeIx ∧ (d.putBuf b).tim = d.tim ∧ (d.putBuf b).chutes = d.chutes ∧
    (d.putBuf b).stp = d.stp ∧ (d.putBuf b).air = d.air ∧ (d.putBuf b).gns = d.gns ∧ (d.putBuf b).chiselOut = d.chiselOut ∧
    (d.putBuf b).ring = d.ring ∧ (d.putBuf b).can.mode = d.can.mode ∧ (d.putBuf b).can.failed = d.can.failed ∧
    (d.putBuf b).can.offs = d.can.offs ∧ (d.putBuf b).can.refLast = d.can.refLast ∧ (d.putBuf b).can.refLost = d.can.refLost ∧
    (d.putBuf b).can.cfg = d.can.cfg ∧ (d.putBuf b).can.claimAt = d.can.claimAt ∧ (d.putBuf b).can.heard = d.can.heard ∧
    (d.putBuf b).mtr = d.mtr ∧ (d.putBuf b).drk = d.drk ∧ (d.putBuf b).dsp = d.dsp ∧ (d.putBuf b).pwr = d.pwr ∧ (d.putBuf b).peer = d.peer ∧
    (d.putBuf b).com = d.com ∧ KeptCyc (d.putBuf b).cyc d.cyc ∧ KeptHost (d.putBuf b).host d.host ∧ KeptRcd (d.putBuf b).rcd d.rcd ∧
    KeptTlg (d.putBuf b).tlg d.tlg := by
  have h := (putBuf_spec d b).1
  generalize d.putBuf b = x at h ⊢
  have f {α : Type} (g : Dev → α) : g x.rest = g ({ d.rest with can := { d.can with bufs := (x).can.bufs } }) := congrArg g h
  exact ⟨f (·.now), f (·.snap), f (·.committedOnce), f (·.staged), f (·.ctrls), f (·.freeIx), f (·.tim), f (·.chutes), f (·.stp), f (·.air),
    f (·.gns), f (·.chiselOut), f (·.ring), f (·.can.mode), f (·.can.failed), f (·.can.offs), f (·.can.refLast), f (·.can.refLost),
    f (·.can.cfg), f (·.can.claimAt), f (·.can.heard), f (·.mtr), f (·.drk), f (·.dsp), f (·.pwr), f (·.peer), f (·.com),
    KeptCyc.of (f (·.cyc)), KeptHost.of (f (·.host)), KeptRcd.of (f (·.rcd)), KeptTlg.of (f (·.tlg))⟩

@[simp] theorem putBuf_rest (d : Dev) (b : CanBuf) : (d.putBuf b).rest =
    { d.rest with can := (d.putBuf b).can } := by
  have h := (putBuf_spec d b).1
  generalize d.putBuf b = x at h ⊢
  have f {α : Type} (g : Dev → α) : g x.rest = g ({ d.rest with can := { d.can with bufs := (x).can.bufs } }) := congrArg g h
  exact dev_ext (f (·.now)) rfl (f (·.snap)) (f (·.committedOnce)) rfl (f (·.staged)) (f (·.ctrls)) rfl (f (·.freeIx)) (f (·.tim)) (f (·.cyc)) (f (·.host))
    (f (·.chutes)) (f (·.rcd)) (f (·.stp)) (f (·.air)) (f (·.gns)) (f (·.chiselOut)) (f (·.ring)) rfl (f (·.mtr)) (f (·.drk)) (f (·.dsp))
    (f (·.tlg)) (f (·.pwr)) (f (·.peer)) (f (·.com))

theorem putBuf_reads (d : Dev) (b : CanBuf) : ∀ id jq, reportItem id = false  →
    (d.putBuf b).rd id jq = d.rd id jq ∧ (d.putBuf b).isSticky id jq = d.isSticky id jq ∧ (d.putBuf b).cf id jq = d.cf id jq := by
  intro id jq hr 
  have h := (putBuf_spec d b).2 id jq hr (by simp) (by simp)
  have e : (d.putBuf b).staged = d.staged := by simp
  refine ⟨h.1, h.2, ?_⟩
  simp only [Dev.cf, e, h.1]

theorem itemsBut_putBuf {ids : List Nat} {ks : List (Nat × Nat)} (d e : Dev) (b : CanBuf)  :
    ItemsBut ids ks (d.putBuf b) e ↔ ItemsBut ids ks d e :=
  itemsBut_congr ((putBuf_spec d b).2.mono (by simp) (by simp)) e

/-- A controller's state set. -/
theorem canState_spec (d : Dev) (c new : Nat) : (d.canState c new).rest = d.rest ∧
    ItemsBut [] [(P.CAN_STATE, c)] (d.canState c new) d := by
  unfold Dev.canState Dev.when
  try simp only []
  repeat' split
  all_goals
    exact ⟨by first | (simp [itemsBut_self, -judge_rest, judge_rest', -timeState_rest, timeState_rest', -takeSeq_rest, takeSeq_rest', -hold_rest, hold_rest', -admit_rest, admit_rest', -input_rest, input_rest', -offer_rest, offer_rest', -stopNotice_rest, stopNotice_rest', -stopEvent_rest, stopEvent_rest', -giveUp_rest, giveUp_rest', -verdict_rest, verdict_rest', -engineFault_rest, engineFault_rest', -ctr_rest, ctr_rest', -beginReset_rest, beginReset_rest', -imageKeep_rest, imageKeep_rest', -imageCopy_rest, imageCopy_rest', -lastWords_rest, lastWords_rest', -placeRec_rest, placeRec_rest', -setTask_rest, setTask_rest', -setCore_rest, setCore_rest', -coreCount_rest, coreCount_rest', -dspRun_rest, dspRun_rest', -dspLeave_rest, dspLeave_rest', -dspHold_rest, dspHold_rest', -dspReady_rest, dspReady_rest', -dspWake_rest, dspWake_rest', -wakeAll_rest, wakeAll_rest', -packetIn_rest, packetIn_rest', -endSession_rest, endSession_rest', -laneInputs_rest, laneInputs_rest', -laneLatch_rest, laneLatch_rest', -laneStop_rest, laneStop_rest', -voterFail_rest, voterFail_rest', -circuitFault_rest, circuitFault_rest', -circuitClear_rest, circuitClear_rest', -outFaultRaise_rest, outFaultRaise_rest', -outputs_rest, outputs_rest', -permitNotice_rest, permitNotice_rest', -startSeries_rest, startSeries_rest', -compareLanes_rest, compareLanes_rest', -voterTick_rest, voterTick_rest', -sendResync_rest, sendResync_rest', -toShadow_rest, toShadow_rest', -splitResolve_rest, splitResolve_rest', -putBuf_rest, putBuf_rest']; done) | (simp [itemsBut_self, -judge_rest, judge_rest', -timeState_rest, timeState_rest', -takeSeq_rest, takeSeq_rest', -hold_rest, hold_rest', -admit_rest, admit_rest', -input_rest, input_rest', -offer_rest, offer_rest', -stopNotice_rest, stopNotice_rest', -stopEvent_rest, stopEvent_rest', -giveUp_rest, giveUp_rest', -verdict_rest, verdict_rest', -engineFault_rest, engineFault_rest', -ctr_rest, ctr_rest', -beginReset_rest, beginReset_rest', -imageKeep_rest, imageKeep_rest', -imageCopy_rest, imageCopy_rest', -lastWords_rest, lastWords_rest', -placeRec_rest, placeRec_rest', -setTask_rest, setTask_rest', -setCore_rest, setCore_rest', -coreCount_rest, coreCount_rest', -dspRun_rest, dspRun_rest', -dspLeave_rest, dspLeave_rest', -dspHold_rest, dspHold_rest', -dspReady_rest, dspReady_rest', -dspWake_rest, dspWake_rest', -wakeAll_rest, wakeAll_rest', -packetIn_rest, packetIn_rest', -endSession_rest, endSession_rest', -laneInputs_rest, laneInputs_rest', -laneLatch_rest, laneLatch_rest', -laneStop_rest, laneStop_rest', -voterFail_rest, voterFail_rest', -circuitFault_rest, circuitFault_rest', -circuitClear_rest, circuitClear_rest', -outFaultRaise_rest, outFaultRaise_rest', -outputs_rest, outputs_rest', -permitNotice_rest, permitNotice_rest', -startSeries_rest, startSeries_rest', -compareLanes_rest, compareLanes_rest', -voterTick_rest, voterTick_rest', -sendResync_rest, sendResync_rest', -toShadow_rest, toShadow_rest', -splitResolve_rest, splitResolve_rest', -putBuf_rest, putBuf_rest']; repeat' (first | rfl | apply And.intro)) | rfl, by simp [itemsBut_wr, itemsBut_inc, itemsBut_addW, itemsBut_maxTo, itemsBut_wrS, itemsBut_judge, itemsBut_timeState, itemsBut_takeSeq, itemsBut_countIn, itemsBut_hold, itemsBut_admit, itemsBut_input, itemsBut_offer, itemsBut_stopNotice, itemsBut_stopEvent, itemsBut_giveUp, itemsBut_verdict, itemsBut_engineFault, itemsBut_ctr, itemsBut_dspTrace, itemsBut_bypass, itemsBut_bypassHw, itemsBut_beginReset, itemsBut_mtrFlush, itemsBut_imageKeep, itemsBut_imageCopy, itemsBut_antState, itemsBut_judgeBias, itemsBut_chainState, itemsBut_showTile, itemsBut_putChan, itemsBut_freeChan, itemsBut_freeWhere, itemsBut_enableChan, itemsBut_place, itemsBut_placeAll, itemsBut_chainsEnable, itemsBut_startTracking, itemsBut_noteGain, itemsBut_stopTracking, itemsBut_snapTrigger, itemsBut_recorder, itemsBut_region, itemsBut_showRegion, itemsBut_lastWords, itemsBut_placeRec, itemsBut_flush, itemsBut_regionLost, itemsBut_setTask, itemsBut_setCore, itemsBut_coreCount, itemsBut_dspRun, itemsBut_dspLeave, itemsBut_dspHold, itemsBut_dspReady, itemsBut_dspWake, itemsBut_wakeAll, itemsBut_chuteTrace, itemsBut_chute, itemsBut_rewind, itemsBut_parityFail, itemsBut_packetIn, itemsBut_noteReply, itemsBut_sessionNote, itemsBut_endSession, itemsBut_laneInputs, itemsBut_laneLatch, itemsBut_laneStop, itemsBut_voterFail, itemsBut_isolate, itemsBut_showLevel, itemsBut_circuitFault, itemsBut_circuitClear, itemsBut_outFaultRaise, itemsBut_sliceFault, itemsBut_showStop, itemsBut_outputs, itemsBut_permitNotice, itemsBut_startSeries, itemsBut_compareLanes, itemsBut_voterTick, itemsBut_unitState, itemsBut_sendResync, itemsBut_toShadow, itemsBut_splitResolve, itemsBut_rng, itemsBut_portState, itemsBut_bypassPorts, itemsBut_ptpJudge, itemsBut_canSt, itemsBut_putBuf]⟩

@[simp] theorem canState_fields (d : Dev) (c new : Nat) :
    (d.canState c new).now = d.now ∧ (d.canState c new).snap = d.snap ∧ (d.canState c new).committedOnce = d.committedOnce ∧
    (d.canState c new).staged = d.staged ∧ (d.canState c new).ctrls = d.ctrls ∧ (d.canState c new).freeIx = d.freeIx ∧
    (d.canState c new).tim = d.tim ∧ (d.canState c new).chutes = d.chutes ∧ (d.canState c new).stp = d.stp ∧ (d.canState c new).air = d.air ∧
    (d.canState c new).gns = d.gns ∧ (d.canState c new).chiselOut = d.chiselOut ∧ (d.canState c new).ring = d.ring ∧
    (d.canState c new).can = d.can ∧ (d.canState c new).mtr = d.mtr ∧ (d.canState c new).drk = d.drk ∧ (d.canState c new).dsp = d.dsp ∧
    (d.canState c new).pwr = d.pwr ∧ (d.canState c new).peer = d.peer ∧ (d.canState c new).com = d.com ∧ KeptCyc (d.canState c new).cyc d.cyc ∧
    KeptHost (d.canState c new).host d.host ∧ KeptRcd (d.canState c new).rcd d.rcd ∧ KeptTlg (d.canState c new).tlg d.tlg := by
  have h := (canState_spec d c new).1
  generalize d.canState c new = x at h ⊢
  have f {α : Type} (g : Dev → α) : g x.rest = g (d.rest) := congrArg g h
  exact ⟨f (·.now), f (·.snap), f (·.committedOnce), f (·.staged), f (·.ctrls), f (·.freeIx), f (·.tim), f (·.chutes), f (·.stp), f (·.air),
    f (·.gns), f (·.chiselOut), f (·.ring), f (·.can), f (·.mtr), f (·.drk), f (·.dsp), f (·.pwr), f (·.peer), f (·.com),
    KeptCyc.of (f (·.cyc)), KeptHost.of (f (·.host)), KeptRcd.of (f (·.rcd)), KeptTlg.of (f (·.tlg))⟩

@[simp] theorem canState_rest (d : Dev) (c new : Nat) : (d.canState c new).rest =
    d.rest := by
  have h := (canState_spec d c new).1
  generalize d.canState c new = x at h ⊢
  have f {α : Type} (g : Dev → α) : g x.rest = g (d.rest) := congrArg g h
  exact dev_ext (f (·.now)) rfl (f (·.snap)) (f (·.committedOnce)) rfl (f (·.staged)) (f (·.ctrls)) rfl (f (·.freeIx)) (f (·.tim)) (f (·.cyc)) (f (·.host))
    (f (·.chutes)) (f (·.rcd)) (f (·.stp)) (f (·.air)) (f (·.gns)) (f (·.chiselOut)) (f (·.ring)) (f (·.can)) (f (·.mtr)) (f (·.drk))
    (f (·.dsp)) (f (·.tlg)) (f (·.pwr)) (f (·.peer)) (f (·.com))

theorem canState_reads (d : Dev) (c new : Nat) : ∀ id jq, reportItem id = false → id ≠ P.CAN_STATE →
    (d.canState c new).rd id jq = d.rd id jq ∧ (d.canState c new).isSticky id jq = d.isSticky id jq ∧ (d.canState c new).cf id jq = d.cf id jq := by
  intro id jq hr h0
  have h := (canState_spec d c new).2 id jq hr (by simp) (by simp [regKey_ne, h0, Ne.symm h0])
  have e : (d.canState c new).staged = d.staged := by simp
  refine ⟨h.1, h.2, ?_⟩
  simp only [Dev.cf, e, h.1]

theorem canState_at (d : Dev) (c new : Nat) : ∀ id jq, reportItem id = false  → regKey P.CAN_STATE c ≠ regKey id jq →
    (d.canState c new).rd id jq = d.rd id jq ∧ (d.canState c new).isSticky id jq = d.isSticky id jq ∧ (d.canState c new).cf id jq = d.cf id jq := by
  intro id jq hr h0
  have h := (canState_spec d c new).2 id jq hr (by simp) (by simp [h0])
  have e : (d.canState c new).staged = d.staged := by simp
  refine ⟨h.1, h.2, ?_⟩
  simp only [Dev.cf, e, h.1]

theorem itemsBut_canState {ids : List Nat} {ks : List (Nat × Nat)} (d e : Dev) (c new : Nat) (m0 : P.CAN_STATE ∈ ids ∨ (P.CAN_STATE, c) ∈ ks) :
    ItemsBut ids ks (d.canState c new) e ↔ ItemsBut ids ks d e :=
  itemsBut_congr ((canState_spec d c new).2.mono (by simp) (by simp [m0])) e

/-- Error counters set. -/
theorem canErrors_spec (d : Dev) (c tec rec_ : Nat) : (d.canErrors c tec rec_).rest = { d.rest with can := { d.can with bufs := (d.canErrors c tec rec_).can.bufs, offs := (d.canErrors c tec rec_).can.offs } } ∧
    ItemsBut [] [(P.CAN_TEC, c), (P.CAN_REC, c), (P.CAN_STATE, c), (P.CAN_BUSOFF, c)] (d.canErrors c tec rec_) d := by
  unfold Dev.canErrors Dev.canSt
  try simp only []
  repeat' split
  all_goals
    exact ⟨by first | (simp [itemsBut_self, -judge_rest, judge_rest', -timeState_rest, timeState_rest', -takeSeq_rest, takeSeq_rest', -hold_rest, hold_rest', -admit_rest, admit_rest', -input_rest, input_rest', -offer_rest, offer_rest', -stopNotice_rest, stopNotice_rest', -stopEvent_rest, stopEvent_rest', -giveUp_rest, giveUp_rest', -verdict_rest, verdict_rest', -engineFault_rest, engineFault_rest', -ctr_rest, ctr_rest', -beginReset_rest, beginReset_rest', -imageKeep_rest, imageKeep_rest', -imageCopy_rest, imageCopy_rest', -lastWords_rest, lastWords_rest', -placeRec_rest, placeRec_rest', -setTask_rest, setTask_rest', -setCore_rest, setCore_rest', -coreCount_rest, coreCount_rest', -dspRun_rest, dspRun_rest', -dspLeave_rest, dspLeave_rest', -dspHold_rest, dspHold_rest', -dspReady_rest, dspReady_rest', -dspWake_rest, dspWake_rest', -wakeAll_rest, wakeAll_rest', -packetIn_rest, packetIn_rest', -endSession_rest, endSession_rest', -laneInputs_rest, laneInputs_rest', -laneLatch_rest, laneLatch_rest', -laneStop_rest, laneStop_rest', -voterFail_rest, voterFail_rest', -circuitFault_rest, circuitFault_rest', -circuitClear_rest, circuitClear_rest', -outFaultRaise_rest, outFaultRaise_rest', -outputs_rest, outputs_rest', -permitNotice_rest, permitNotice_rest', -startSeries_rest, startSeries_rest', -compareLanes_rest, compareLanes_rest', -voterTick_rest, voterTick_rest', -sendResync_rest, sendResync_rest', -toShadow_rest, toShadow_rest', -splitResolve_rest, splitResolve_rest', -putBuf_rest, putBuf_rest']; done) | (simp [itemsBut_self, -judge_rest, judge_rest', -timeState_rest, timeState_rest', -takeSeq_rest, takeSeq_rest', -hold_rest, hold_rest', -admit_rest, admit_rest', -input_rest, input_rest', -offer_rest, offer_rest', -stopNotice_rest, stopNotice_rest', -stopEvent_rest, stopEvent_rest', -giveUp_rest, giveUp_rest', -verdict_rest, verdict_rest', -engineFault_rest, engineFault_rest', -ctr_rest, ctr_rest', -beginReset_rest, beginReset_rest', -imageKeep_rest, imageKeep_rest', -imageCopy_rest, imageCopy_rest', -lastWords_rest, lastWords_rest', -placeRec_rest, placeRec_rest', -setTask_rest, setTask_rest', -setCore_rest, setCore_rest', -coreCount_rest, coreCount_rest', -dspRun_rest, dspRun_rest', -dspLeave_rest, dspLeave_rest', -dspHold_rest, dspHold_rest', -dspReady_rest, dspReady_rest', -dspWake_rest, dspWake_rest', -wakeAll_rest, wakeAll_rest', -packetIn_rest, packetIn_rest', -endSession_rest, endSession_rest', -laneInputs_rest, laneInputs_rest', -laneLatch_rest, laneLatch_rest', -laneStop_rest, laneStop_rest', -voterFail_rest, voterFail_rest', -circuitFault_rest, circuitFault_rest', -circuitClear_rest, circuitClear_rest', -outFaultRaise_rest, outFaultRaise_rest', -outputs_rest, outputs_rest', -permitNotice_rest, permitNotice_rest', -startSeries_rest, startSeries_rest', -compareLanes_rest, compareLanes_rest', -voterTick_rest, voterTick_rest', -sendResync_rest, sendResync_rest', -toShadow_rest, toShadow_rest', -splitResolve_rest, splitResolve_rest', -putBuf_rest, putBuf_rest']; repeat' (first | rfl | apply And.intro)) | rfl, by simp [itemsBut_wr, itemsBut_inc, itemsBut_addW, itemsBut_maxTo, itemsBut_wrS, itemsBut_judge, itemsBut_timeState, itemsBut_takeSeq, itemsBut_countIn, itemsBut_hold, itemsBut_admit, itemsBut_input, itemsBut_offer, itemsBut_stopNotice, itemsBut_stopEvent, itemsBut_giveUp, itemsBut_verdict, itemsBut_engineFault, itemsBut_ctr, itemsBut_dspTrace, itemsBut_bypass, itemsBut_bypassHw, itemsBut_beginReset, itemsBut_mtrFlush, itemsBut_imageKeep, itemsBut_imageCopy, itemsBut_antState, itemsBut_judgeBias, itemsBut_chainState, itemsBut_showTile, itemsBut_putChan, itemsBut_freeChan, itemsBut_freeWhere, itemsBut_enableChan, itemsBut_place, itemsBut_placeAll, itemsBut_chainsEnable, itemsBut_startTracking, itemsBut_noteGain, itemsBut_stopTracking, itemsBut_snapTrigger, itemsBut_recorder, itemsBut_region, itemsBut_showRegion, itemsBut_lastWords, itemsBut_placeRec, itemsBut_flush, itemsBut_regionLost, itemsBut_setTask, itemsBut_setCore, itemsBut_coreCount, itemsBut_dspRun, itemsBut_dspLeave, itemsBut_dspHold, itemsBut_dspReady, itemsBut_dspWake, itemsBut_wakeAll, itemsBut_chuteTrace, itemsBut_chute, itemsBut_rewind, itemsBut_parityFail, itemsBut_packetIn, itemsBut_noteReply, itemsBut_sessionNote, itemsBut_endSession, itemsBut_laneInputs, itemsBut_laneLatch, itemsBut_laneStop, itemsBut_voterFail, itemsBut_isolate, itemsBut_showLevel, itemsBut_circuitFault, itemsBut_circuitClear, itemsBut_outFaultRaise, itemsBut_sliceFault, itemsBut_showStop, itemsBut_outputs, itemsBut_permitNotice, itemsBut_startSeries, itemsBut_compareLanes, itemsBut_voterTick, itemsBut_unitState, itemsBut_sendResync, itemsBut_toShadow, itemsBut_splitResolve, itemsBut_rng, itemsBut_portState, itemsBut_bypassPorts, itemsBut_ptpJudge, itemsBut_canSt, itemsBut_putBuf, itemsBut_canState]⟩

theorem canErrors_rest' (d : Dev) (c tec rec_ : Nat) : (d.canErrors c tec rec_).rest = { d.rest with can := { d.can with bufs := (d.canErrors c tec rec_).can.bufs, offs := (d.canErrors c tec rec_).can.offs } } := (canErrors_spec d c tec rec_).1

@[simp] theorem canErrors_fields (d : Dev) (c tec rec_ : Nat) :
    (d.canErrors c tec rec_).now = d.now ∧ (d.canErrors c tec rec_).snap = d.snap ∧ (d.canErrors c tec rec_).committedOnce = d.committedOnce ∧
    (d.canErrors c tec rec_).staged = d.staged ∧ (d.canErrors c tec rec_).ctrls = d.ctrls ∧ (d.canErrors c tec rec_).freeIx = d.freeIx ∧
    (d.canErrors c tec rec_).tim = d.tim ∧ (d.canErrors c tec rec_).chutes = d.chutes ∧ (d.canErrors c tec rec_).stp = d.stp ∧
    (d.canErrors c tec rec_).air = d.air ∧ (d.canErrors c tec rec_).gns = d.gns ∧ (d.canErrors c tec rec_).chiselOut = d.chiselOut ∧
    (d.canErrors c tec rec_).ring = d.ring ∧ (d.canErrors c tec rec_).can.mode = d.can.mode ∧
    (d.canErrors c tec rec_).can.failed = d.can.failed ∧ (d.canErrors c tec rec_).can.refLast = d.can.refLast ∧
    (d.canErrors c tec rec_).can.refLost = d.can.refLost ∧ (d.canErrors c tec rec_).can.cfg = d.can.cfg ∧
    (d.canErrors c tec rec_).can.claimAt = d.can.claimAt ∧ (d.canErrors c tec rec_).can.heard = d.can.heard ∧
    (d.canErrors c tec rec_).mtr = d.mtr ∧ (d.canErrors c tec rec_).drk = d.drk ∧ (d.canErrors c tec rec_).dsp = d.dsp ∧
    (d.canErrors c tec rec_).pwr = d.pwr ∧ (d.canErrors c tec rec_).peer = d.peer ∧ (d.canErrors c tec rec_).com = d.com ∧
    KeptCyc (d.canErrors c tec rec_).cyc d.cyc ∧ KeptHost (d.canErrors c tec rec_).host d.host ∧ KeptRcd (d.canErrors c tec rec_).rcd d.rcd ∧
    KeptTlg (d.canErrors c tec rec_).tlg d.tlg := by
  have h := (canErrors_spec d c tec rec_).1
  generalize d.canErrors c tec rec_ = x at h ⊢
  have f {α : Type} (g : Dev → α) : g x.rest = g ({ d.rest with can := { d.can with bufs := (x).can.bufs, offs := (x).can.offs } }) := congrArg g h
  exact ⟨f (·.now), f (·.snap), f (·.committedOnce), f (·.staged), f (·.ctrls), f (·.freeIx), f (·.tim), f (·.chutes), f (·.stp), f (·.air),
    f (·.gns), f (·.chiselOut), f (·.ring), f (·.can.mode), f (·.can.failed), f (·.can.refLast), f (·.can.refLost), f (·.can.cfg),
    f (·.can.claimAt), f (·.can.heard), f (·.mtr), f (·.drk), f (·.dsp), f (·.pwr), f (·.peer), f (·.com), KeptCyc.of (f (·.cyc)),
    KeptHost.of (f (·.host)), KeptRcd.of (f (·.rcd)), KeptTlg.of (f (·.tlg))⟩

@[simp] theorem canErrors_rest (d : Dev) (c tec rec_ : Nat) : (d.canErrors c tec rec_).rest =
    { d.rest with can := (d.canErrors c tec rec_).can } := by
  have h := (canErrors_spec d c tec rec_).1
  generalize d.canErrors c tec rec_ = x at h ⊢
  have f {α : Type} (g : Dev → α) : g x.rest = g ({ d.rest with can := { d.can with bufs := (x).can.bufs, offs := (x).can.offs } }) := congrArg g h
  exact dev_ext (f (·.now)) rfl (f (·.snap)) (f (·.committedOnce)) rfl (f (·.staged)) (f (·.ctrls)) rfl (f (·.freeIx)) (f (·.tim)) (f (·.cyc)) (f (·.host))
    (f (·.chutes)) (f (·.rcd)) (f (·.stp)) (f (·.air)) (f (·.gns)) (f (·.chiselOut)) (f (·.ring)) rfl (f (·.mtr)) (f (·.drk)) (f (·.dsp))
    (f (·.tlg)) (f (·.pwr)) (f (·.peer)) (f (·.com))

theorem canErrors_reads (d : Dev) (c tec rec_ : Nat) : ∀ id jq, reportItem id = false → id ≠ P.CAN_TEC → id ≠ P.CAN_REC → id ≠ P.CAN_STATE → id ≠ P.CAN_BUSOFF →
    (d.canErrors c tec rec_).rd id jq = d.rd id jq ∧ (d.canErrors c tec rec_).isSticky id jq = d.isSticky id jq ∧ (d.canErrors c tec rec_).cf id jq = d.cf id jq := by
  intro id jq hr h0 h1 h2 h3
  have h := (canErrors_spec d c tec rec_).2 id jq hr (by simp) (by simp [regKey_ne, h0, Ne.symm h0, h1, Ne.symm h1, h2, Ne.symm h2, h3, Ne.symm h3])
  have e : (d.canErrors c tec rec_).staged = d.staged := by simp
  refine ⟨h.1, h.2, ?_⟩
  simp only [Dev.cf, e, h.1]

theorem canErrors_at (d : Dev) (c tec rec_ : Nat) : ∀ id jq, reportItem id = false  → regKey P.CAN_TEC c ≠ regKey id jq → regKey P.CAN_REC c ≠ regKey id jq → regKey P.CAN_STATE c ≠ regKey id jq → regKey P.CAN_BUSOFF c ≠ regKey id jq →
    (d.canErrors c tec rec_).rd id jq = d.rd id jq ∧ (d.canErrors c tec rec_).isSticky id jq = d.isSticky id jq ∧ (d.canErrors c tec rec_).cf id jq = d.cf id jq := by
  intro id jq hr h0 h1 h2 h3
  have h := (canErrors_spec d c tec rec_).2 id jq hr (by simp) (by simp [h0, h1, h2, h3])
  have e : (d.canErrors c tec rec_).staged = d.staged := by simp
  refine ⟨h.1, h.2, ?_⟩
  simp only [Dev.cf, e, h.1]

theorem itemsBut_canErrors {ids : List Nat} {ks : List (Nat × Nat)} (d e : Dev) (c tec rec_ : Nat) (m0 : P.CAN_TEC ∈ ids ∨ (P.CAN_TEC, c) ∈ ks) (m1 : P.CAN_REC ∈ ids ∨ (P.CAN_REC, c) ∈ ks) (m2 : P.CAN_STATE ∈ ids ∨ (P.CAN_STATE, c) ∈ ks) (m3 : P.CAN_BUSOFF ∈ ids ∨ (P.CAN_BUSOFF, c) ∈ ks) :
    ItemsBut ids ks (d.canErrors c tec rec_) e ↔ ItemsBut ids ks d e :=
  itemsBut_congr ((canErrors_spec d c tec rec_).2.mono (by simp) (by simp [m0, m1, m2, m3])) e

/-- A unit that is not ACTIVE only listens. -/
theorem canSync_spec (d : Dev) (c : Nat) : (d.canSync c).rest = d.rest ∧
    ItemsBut [] [(P.CAN_TEC, c), (P.CAN_REC, c), (P.CAN_STATE, c)] (d.canSync c) d := by
  unfold Dev.canSync
  try simp only []
  repeat' split
  all_goals
    exact ⟨by first | (simp [itemsBut_self, -judge_rest, judge_rest', -timeState_rest, timeState_rest', -takeSeq_rest, takeSeq_rest', -hold_rest, hold_rest', -admit_rest, admit_rest', -input_rest, input_rest', -offer_rest, offer_rest', -stopNotice_rest, stopNotice_rest', -stopEvent_rest, stopEvent_rest', -giveUp_rest, giveUp_rest', -verdict_rest, verdict_rest', -engineFault_rest, engineFault_rest', -ctr_rest, ctr_rest', -beginReset_rest, beginReset_rest', -imageKeep_rest, imageKeep_rest', -imageCopy_rest, imageCopy_rest', -lastWords_rest, lastWords_rest', -placeRec_rest, placeRec_rest', -setTask_rest, setTask_rest', -setCore_rest, setCore_rest', -coreCount_rest, coreCount_rest', -dspRun_rest, dspRun_rest', -dspLeave_rest, dspLeave_rest', -dspHold_rest, dspHold_rest', -dspReady_rest, dspReady_rest', -dspWake_rest, dspWake_rest', -wakeAll_rest, wakeAll_rest', -packetIn_rest, packetIn_rest', -endSession_rest, endSession_rest', -laneInputs_rest, laneInputs_rest', -laneLatch_rest, laneLatch_rest', -laneStop_rest, laneStop_rest', -voterFail_rest, voterFail_rest', -circuitFault_rest, circuitFault_rest', -circuitClear_rest, circuitClear_rest', -outFaultRaise_rest, outFaultRaise_rest', -outputs_rest, outputs_rest', -permitNotice_rest, permitNotice_rest', -startSeries_rest, startSeries_rest', -compareLanes_rest, compareLanes_rest', -voterTick_rest, voterTick_rest', -sendResync_rest, sendResync_rest', -toShadow_rest, toShadow_rest', -splitResolve_rest, splitResolve_rest', -putBuf_rest, putBuf_rest', -canErrors_rest, canErrors_rest']; done) | (simp [itemsBut_self, -judge_rest, judge_rest', -timeState_rest, timeState_rest', -takeSeq_rest, takeSeq_rest', -hold_rest, hold_rest', -admit_rest, admit_rest', -input_rest, input_rest', -offer_rest, offer_rest', -stopNotice_rest, stopNotice_rest', -stopEvent_rest, stopEvent_rest', -giveUp_rest, giveUp_rest', -verdict_rest, verdict_rest', -engineFault_rest, engineFault_rest', -ctr_rest, ctr_rest', -beginReset_rest, beginReset_rest', -imageKeep_rest, imageKeep_rest', -imageCopy_rest, imageCopy_rest', -lastWords_rest, lastWords_rest', -placeRec_rest, placeRec_rest', -setTask_rest, setTask_rest', -setCore_rest, setCore_rest', -coreCount_rest, coreCount_rest', -dspRun_rest, dspRun_rest', -dspLeave_rest, dspLeave_rest', -dspHold_rest, dspHold_rest', -dspReady_rest, dspReady_rest', -dspWake_rest, dspWake_rest', -wakeAll_rest, wakeAll_rest', -packetIn_rest, packetIn_rest', -endSession_rest, endSession_rest', -laneInputs_rest, laneInputs_rest', -laneLatch_rest, laneLatch_rest', -laneStop_rest, laneStop_rest', -voterFail_rest, voterFail_rest', -circuitFault_rest, circuitFault_rest', -circuitClear_rest, circuitClear_rest', -outFaultRaise_rest, outFaultRaise_rest', -outputs_rest, outputs_rest', -permitNotice_rest, permitNotice_rest', -startSeries_rest, startSeries_rest', -compareLanes_rest, compareLanes_rest', -voterTick_rest, voterTick_rest', -sendResync_rest, sendResync_rest', -toShadow_rest, toShadow_rest', -splitResolve_rest, splitResolve_rest', -putBuf_rest, putBuf_rest', -canErrors_rest, canErrors_rest']; repeat' (first | rfl | apply And.intro)) | rfl, by simp [itemsBut_wr, itemsBut_inc, itemsBut_addW, itemsBut_maxTo, itemsBut_wrS, itemsBut_judge, itemsBut_timeState, itemsBut_takeSeq, itemsBut_countIn, itemsBut_hold, itemsBut_admit, itemsBut_input, itemsBut_offer, itemsBut_stopNotice, itemsBut_stopEvent, itemsBut_giveUp, itemsBut_verdict, itemsBut_engineFault, itemsBut_ctr, itemsBut_dspTrace, itemsBut_bypass, itemsBut_bypassHw, itemsBut_beginReset, itemsBut_mtrFlush, itemsBut_imageKeep, itemsBut_imageCopy, itemsBut_antState, itemsBut_judgeBias, itemsBut_chainState, itemsBut_showTile, itemsBut_putChan, itemsBut_freeChan, itemsBut_freeWhere, itemsBut_enableChan, itemsBut_place, itemsBut_placeAll, itemsBut_chainsEnable, itemsBut_startTracking, itemsBut_noteGain, itemsBut_stopTracking, itemsBut_snapTrigger, itemsBut_recorder, itemsBut_region, itemsBut_showRegion, itemsBut_lastWords, itemsBut_placeRec, itemsBut_flush, itemsBut_regionLost, itemsBut_setTask, itemsBut_setCore, itemsBut_coreCount, itemsBut_dspRun, itemsBut_dspLeave, itemsBut_dspHold, itemsBut_dspReady, itemsBut_dspWake, itemsBut_wakeAll, itemsBut_chuteTrace, itemsBut_chute, itemsBut_rewind, itemsBut_parityFail, itemsBut_packetIn, itemsBut_noteReply, itemsBut_sessionNote, itemsBut_endSession, itemsBut_laneInputs, itemsBut_laneLatch, itemsBut_laneStop, itemsBut_voterFail, itemsBut_isolate, itemsBut_showLevel, itemsBut_circuitFault, itemsBut_circuitClear, itemsBut_outFaultRaise, itemsBut_sliceFault, itemsBut_showStop, itemsBut_outputs, itemsBut_permitNotice, itemsBut_startSeries, itemsBut_compareLanes, itemsBut_voterTick, itemsBut_unitState, itemsBut_sendResync, itemsBut_toShadow, itemsBut_splitResolve, itemsBut_rng, itemsBut_portState, itemsBut_bypassPorts, itemsBut_ptpJudge, itemsBut_canSt, itemsBut_putBuf, itemsBut_canState, itemsBut_canErrors]⟩

@[simp] theorem canSync_fields (d : Dev) (c : Nat) :
    (d.canSync c).now = d.now ∧ (d.canSync c).snap = d.snap ∧ (d.canSync c).committedOnce = d.committedOnce ∧ (d.canSync c).staged = d.staged ∧
    (d.canSync c).ctrls = d.ctrls ∧ (d.canSync c).freeIx = d.freeIx ∧ (d.canSync c).tim = d.tim ∧ (d.canSync c).chutes = d.chutes ∧
    (d.canSync c).stp = d.stp ∧ (d.canSync c).air = d.air ∧ (d.canSync c).gns = d.gns ∧ (d.canSync c).chiselOut = d.chiselOut ∧
    (d.canSync c).ring = d.ring ∧ (d.canSync c).can = d.can ∧ (d.canSync c).mtr = d.mtr ∧ (d.canSync c).drk = d.drk ∧
    (d.canSync c).dsp = d.dsp ∧ (d.canSync c).pwr = d.pwr ∧ (d.canSync c).peer = d.peer ∧ (d.canSync c).com = d.com ∧
    KeptCyc (d.canSync c).cyc d.cyc ∧ KeptHost (d.canSync c).host d.host ∧ KeptRcd (d.canSync c).rcd d.rcd ∧ KeptTlg (d.canSync c).tlg d.tlg := by
  have h := (canSync_spec d c).1
  generalize d.canSync c = x at h ⊢
  have f {α : Type} (g : Dev → α) : g x.rest = g (d.rest) := congrArg g h
  exact ⟨f (·.now), f (·.snap), f (·.committedOnce), f (·.staged), f (·.ctrls), f (·.freeIx), f (·.tim), f (·.chutes), f (·.stp), f (·.air),
    f (·.gns), f (·.chiselOut), f (·.ring), f (·.can), f (·.mtr), f (·.drk), f (·.dsp), f (·.pwr), f (·.peer), f (·.com),
    KeptCyc.of (f (·.cyc)), KeptHost.of (f (·.host)), KeptRcd.of (f (·.rcd)), KeptTlg.of (f (·.tlg))⟩

@[simp] theorem canSync_rest (d : Dev) (c : Nat) : (d.canSync c).rest =
    d.rest := by
  have h := (canSync_spec d c).1
  generalize d.canSync c = x at h ⊢
  have f {α : Type} (g : Dev → α) : g x.rest = g (d.rest) := congrArg g h
  exact dev_ext (f (·.now)) rfl (f (·.snap)) (f (·.committedOnce)) rfl (f (·.staged)) (f (·.ctrls)) rfl (f (·.freeIx)) (f (·.tim)) (f (·.cyc)) (f (·.host))
    (f (·.chutes)) (f (·.rcd)) (f (·.stp)) (f (·.air)) (f (·.gns)) (f (·.chiselOut)) (f (·.ring)) (f (·.can)) (f (·.mtr)) (f (·.drk))
    (f (·.dsp)) (f (·.tlg)) (f (·.pwr)) (f (·.peer)) (f (·.com))

theorem canSync_reads (d : Dev) (c : Nat) : ∀ id jq, reportItem id = false → id ≠ P.CAN_TEC → id ≠ P.CAN_REC → id ≠ P.CAN_STATE →
    (d.canSync c).rd id jq = d.rd id jq ∧ (d.canSync c).isSticky id jq = d.isSticky id jq ∧ (d.canSync c).cf id jq = d.cf id jq := by
  intro id jq hr h0 h1 h2
  have h := (canSync_spec d c).2 id jq hr (by simp) (by simp [regKey_ne, h0, Ne.symm h0, h1, Ne.symm h1, h2, Ne.symm h2])
  have e : (d.canSync c).staged = d.staged := by simp
  refine ⟨h.1, h.2, ?_⟩
  simp only [Dev.cf, e, h.1]

theorem canSync_at (d : Dev) (c : Nat) : ∀ id jq, reportItem id = false  → regKey P.CAN_TEC c ≠ regKey id jq → regKey P.CAN_REC c ≠ regKey id jq → regKey P.CAN_STATE c ≠ regKey id jq →
    (d.canSync c).rd id jq = d.rd id jq ∧ (d.canSync c).isSticky id jq = d.isSticky id jq ∧ (d.canSync c).cf id jq = d.cf id jq := by
  intro id jq hr h0 h1 h2
  have h := (canSync_spec d c).2 id jq hr (by simp) (by simp [h0, h1, h2])
  have e : (d.canSync c).staged = d.staged := by simp
  refine ⟨h.1, h.2, ?_⟩
  simp only [Dev.cf, e, h.1]

theorem itemsBut_canSync {ids : List Nat} {ks : List (Nat × Nat)} (d e : Dev) (c : Nat) (m0 : P.CAN_TEC ∈ ids ∨ (P.CAN_TEC, c) ∈ ks) (m1 : P.CAN_REC ∈ ids ∨ (P.CAN_REC, c) ∈ ks) (m2 : P.CAN_STATE ∈ ids ∨ (P.CAN_STATE, c) ∈ ks) :
    ItemsBut ids ks (d.canSync c) e ↔ ItemsBut ids ks d e :=
  itemsBut_congr ((canSync_spec d c).2.mono (by simp) (by simp [m0, m1, m2])) e

/-- Pending transmissions aborted. -/
theorem canAbort_spec (d : Dev) (c : Nat) (f : Nat → Bool) : (d.canAbort c f).rest = { d.rest with can := { d.can with bufs := (d.canAbort c f).can.bufs } } ∧
    ItemsBut [] [] (d.canAbort c f) d := by
  exact ⟨rfl, fun _ _ _ _ _ => ⟨rfl, rfl⟩⟩

theorem canAbort_rest' (d : Dev) (c : Nat) (f : Nat → Bool) : (d.canAbort c f).rest = { d.rest with can := { d.can with bufs := (d.canAbort c f).can.bufs } } := (canAbort_spec d c f).1

@[simp] theorem canAbort_fields (d : Dev) (c : Nat) (f : Nat → Bool) :
    (d.canAbort c f).now = d.now ∧ (d.canAbort c f).snap = d.snap ∧ (d.canAbort c f).committedOnce = d.committedOnce ∧
    (d.canAbort c f).staged = d.staged ∧ (d.canAbort c f).ctrls = d.ctrls ∧ (d.canAbort c f).freeIx = d.freeIx ∧ (d.canAbort c f).tim = d.tim ∧
    (d.canAbort c f).chutes = d.chutes ∧ (d.canAbort c f).stp = d.stp ∧ (d.canAbort c f).air = d.air ∧ (d.canAbort c f).gns = d.gns ∧
    (d.canAbort c f).chiselOut = d.chiselOut ∧ (d.canAbort c f).ring = d.ring ∧ (d.canAbort c f).can.mode = d.can.mode ∧
    (d.canAbort c f).can.failed = d.can.failed ∧ (d.canAbort c f).can.offs = d.can.offs ∧ (d.canAbort c f).can.refLast = d.can.refLast ∧
    (d.canAbort c f).can.refLost = d.can.refLost ∧ (d.canAbort c f).can.cfg = d.can.cfg ∧ (d.canAbort c f).can.claimAt = d.can.claimAt ∧
    (d.canAbort c f).can.heard = d.can.heard ∧ (d.canAbort c f).mtr = d.mtr ∧ (d.canAbort c f).drk = d.drk ∧ (d.canAbort c f).dsp = d.dsp ∧
    (d.canAbort c f).pwr = d.pwr ∧ (d.canAbort c f).peer = d.peer ∧ (d.canAbort c f).com = d.com ∧ KeptCyc (d.canAbort c f).cyc d.cyc ∧
    KeptHost (d.canAbort c f).host d.host ∧ KeptRcd (d.canAbort c f).rcd d.rcd ∧ KeptTlg (d.canAbort c f).tlg d.tlg := by
  have h := (canAbort_spec d c f).1
  generalize d.canAbort c f = x at h ⊢
  have f {α : Type} (g : Dev → α) : g x.rest = g ({ d.rest with can := { d.can with bufs := (x).can.bufs } }) := congrArg g h
  exact ⟨f (·.now), f (·.snap), f (·.committedOnce), f (·.staged), f (·.ctrls), f (·.freeIx), f (·.tim), f (·.chutes), f (·.stp), f (·.air),
    f (·.gns), f (·.chiselOut), f (·.ring), f (·.can.mode), f (·.can.failed), f (·.can.offs), f (·.can.refLast), f (·.can.refLost),
    f (·.can.cfg), f (·.can.claimAt), f (·.can.heard), f (·.mtr), f (·.drk), f (·.dsp), f (·.pwr), f (·.peer), f (·.com),
    KeptCyc.of (f (·.cyc)), KeptHost.of (f (·.host)), KeptRcd.of (f (·.rcd)), KeptTlg.of (f (·.tlg))⟩

@[simp] theorem canAbort_rest (d : Dev) (c : Nat) (f : Nat → Bool) : (d.canAbort c f).rest =
    { d.rest with can := (d.canAbort c f).can } := by
  have h := (canAbort_spec d c f).1
  generalize d.canAbort c f = x at h ⊢
  have f {α : Type} (g : Dev → α) : g x.rest = g ({ d.rest with can := { d.can with bufs := (x).can.bufs } }) := congrArg g h
  exact dev_ext (f (·.now)) rfl (f (·.snap)) (f (·.committedOnce)) rfl (f (·.staged)) (f (·.ctrls)) rfl (f (·.freeIx)) (f (·.tim)) (f (·.cyc)) (f (·.host))
    (f (·.chutes)) (f (·.rcd)) (f (·.stp)) (f (·.air)) (f (·.gns)) (f (·.chiselOut)) (f (·.ring)) rfl (f (·.mtr)) (f (·.drk)) (f (·.dsp))
    (f (·.tlg)) (f (·.pwr)) (f (·.peer)) (f (·.com))

theorem canAbort_reads (d : Dev) (c : Nat) (f : Nat → Bool) : ∀ id jq, reportItem id = false  →
    (d.canAbort c f).rd id jq = d.rd id jq ∧ (d.canAbort c f).isSticky id jq = d.isSticky id jq ∧ (d.canAbort c f).cf id jq = d.cf id jq := by
  intro id jq hr 
  have h := (canAbort_spec d c f).2 id jq hr (by simp) (by simp)
  have e : (d.canAbort c f).staged = d.staged := by simp
  refine ⟨h.1, h.2, ?_⟩
  simp only [Dev.cf, e, h.1]

theorem itemsBut_canAbort {ids : List Nat} {ks : List (Nat × Nat)} (d e : Dev) (c : Nat) (f : Nat → Bool)  :
    ItemsBut ids ks (d.canAbort c f) e ↔ ItemsBut ids ks d e :=
  itemsBut_congr ((canAbort_spec d c f).2.mono (by simp) (by simp)) e

/-- The ISO state set. -/
theorem isoState_spec (d : Dev) (new addr : Nat) : (d.isoState new addr).rest = d.rest ∧
    ItemsBut [] [(P.CAN_ISO_STATE, 0), (P.CAN_ISO_ADDR_NOW, 0)] (d.isoState new addr) d := by
  unfold Dev.isoState
  try simp only []
  repeat' split
  all_goals
    exact ⟨by first | (simp [itemsBut_self, -judge_rest, judge_rest', -timeState_rest, timeState_rest', -takeSeq_rest, takeSeq_rest', -hold_rest, hold_rest', -admit_rest, admit_rest', -input_rest, input_rest', -offer_rest, offer_rest', -stopNotice_rest, stopNotice_rest', -stopEvent_rest, stopEvent_rest', -giveUp_rest, giveUp_rest', -verdict_rest, verdict_rest', -engineFault_rest, engineFault_rest', -ctr_rest, ctr_rest', -beginReset_rest, beginReset_rest', -imageKeep_rest, imageKeep_rest', -imageCopy_rest, imageCopy_rest', -lastWords_rest, lastWords_rest', -placeRec_rest, placeRec_rest', -setTask_rest, setTask_rest', -setCore_rest, setCore_rest', -coreCount_rest, coreCount_rest', -dspRun_rest, dspRun_rest', -dspLeave_rest, dspLeave_rest', -dspHold_rest, dspHold_rest', -dspReady_rest, dspReady_rest', -dspWake_rest, dspWake_rest', -wakeAll_rest, wakeAll_rest', -packetIn_rest, packetIn_rest', -endSession_rest, endSession_rest', -laneInputs_rest, laneInputs_rest', -laneLatch_rest, laneLatch_rest', -laneStop_rest, laneStop_rest', -voterFail_rest, voterFail_rest', -circuitFault_rest, circuitFault_rest', -circuitClear_rest, circuitClear_rest', -outFaultRaise_rest, outFaultRaise_rest', -outputs_rest, outputs_rest', -permitNotice_rest, permitNotice_rest', -startSeries_rest, startSeries_rest', -compareLanes_rest, compareLanes_rest', -voterTick_rest, voterTick_rest', -sendResync_rest, sendResync_rest', -toShadow_rest, toShadow_rest', -splitResolve_rest, splitResolve_rest', -putBuf_rest, putBuf_rest', -canErrors_rest, canErrors_rest', -canAbort_rest, canAbort_rest']; done) | (simp [itemsBut_self, -judge_rest, judge_rest', -timeState_rest, timeState_rest', -takeSeq_rest, takeSeq_rest', -hold_rest, hold_rest', -admit_rest, admit_rest', -input_rest, input_rest', -offer_rest, offer_rest', -stopNotice_rest, stopNotice_rest', -stopEvent_rest, stopEvent_rest', -giveUp_rest, giveUp_rest', -verdict_rest, verdict_rest', -engineFault_rest, engineFault_rest', -ctr_rest, ctr_rest', -beginReset_rest, beginReset_rest', -imageKeep_rest, imageKeep_rest', -imageCopy_rest, imageCopy_rest', -lastWords_rest, lastWords_rest', -placeRec_rest, placeRec_rest', -setTask_rest, setTask_rest', -setCore_rest, setCore_rest', -coreCount_rest, coreCount_rest', -dspRun_rest, dspRun_rest', -dspLeave_rest, dspLeave_rest', -dspHold_rest, dspHold_rest', -dspReady_rest, dspReady_rest', -dspWake_rest, dspWake_rest', -wakeAll_rest, wakeAll_rest', -packetIn_rest, packetIn_rest', -endSession_rest, endSession_rest', -laneInputs_rest, laneInputs_rest', -laneLatch_rest, laneLatch_rest', -laneStop_rest, laneStop_rest', -voterFail_rest, voterFail_rest', -circuitFault_rest, circuitFault_rest', -circuitClear_rest, circuitClear_rest', -outFaultRaise_rest, outFaultRaise_rest', -outputs_rest, outputs_rest', -permitNotice_rest, permitNotice_rest', -startSeries_rest, startSeries_rest', -compareLanes_rest, compareLanes_rest', -voterTick_rest, voterTick_rest', -sendResync_rest, sendResync_rest', -toShadow_rest, toShadow_rest', -splitResolve_rest, splitResolve_rest', -putBuf_rest, putBuf_rest', -canErrors_rest, canErrors_rest', -canAbort_rest, canAbort_rest']; repeat' (first | rfl | apply And.intro)) | rfl, by simp [itemsBut_wr, itemsBut_inc, itemsBut_addW, itemsBut_maxTo, itemsBut_wrS, itemsBut_judge, itemsBut_timeState, itemsBut_takeSeq, itemsBut_countIn, itemsBut_hold, itemsBut_admit, itemsBut_input, itemsBut_offer, itemsBut_stopNotice, itemsBut_stopEvent, itemsBut_giveUp, itemsBut_verdict, itemsBut_engineFault, itemsBut_ctr, itemsBut_dspTrace, itemsBut_bypass, itemsBut_bypassHw, itemsBut_beginReset, itemsBut_mtrFlush, itemsBut_imageKeep, itemsBut_imageCopy, itemsBut_antState, itemsBut_judgeBias, itemsBut_chainState, itemsBut_showTile, itemsBut_putChan, itemsBut_freeChan, itemsBut_freeWhere, itemsBut_enableChan, itemsBut_place, itemsBut_placeAll, itemsBut_chainsEnable, itemsBut_startTracking, itemsBut_noteGain, itemsBut_stopTracking, itemsBut_snapTrigger, itemsBut_recorder, itemsBut_region, itemsBut_showRegion, itemsBut_lastWords, itemsBut_placeRec, itemsBut_flush, itemsBut_regionLost, itemsBut_setTask, itemsBut_setCore, itemsBut_coreCount, itemsBut_dspRun, itemsBut_dspLeave, itemsBut_dspHold, itemsBut_dspReady, itemsBut_dspWake, itemsBut_wakeAll, itemsBut_chuteTrace, itemsBut_chute, itemsBut_rewind, itemsBut_parityFail, itemsBut_packetIn, itemsBut_noteReply, itemsBut_sessionNote, itemsBut_endSession, itemsBut_laneInputs, itemsBut_laneLatch, itemsBut_laneStop, itemsBut_voterFail, itemsBut_isolate, itemsBut_showLevel, itemsBut_circuitFault, itemsBut_circuitClear, itemsBut_outFaultRaise, itemsBut_sliceFault, itemsBut_showStop, itemsBut_outputs, itemsBut_permitNotice, itemsBut_startSeries, itemsBut_compareLanes, itemsBut_voterTick, itemsBut_unitState, itemsBut_sendResync, itemsBut_toShadow, itemsBut_splitResolve, itemsBut_rng, itemsBut_portState, itemsBut_bypassPorts, itemsBut_ptpJudge, itemsBut_canSt, itemsBut_putBuf, itemsBut_canState, itemsBut_canErrors, itemsBut_canSync, itemsBut_canAbort]⟩

@[simp] theorem isoState_fields (d : Dev) (new addr : Nat) :
    (d.isoState new addr).now = d.now ∧ (d.isoState new addr).snap = d.snap ∧ (d.isoState new addr).committedOnce = d.committedOnce ∧
    (d.isoState new addr).staged = d.staged ∧ (d.isoState new addr).ctrls = d.ctrls ∧ (d.isoState new addr).freeIx = d.freeIx ∧
    (d.isoState new addr).tim = d.tim ∧ (d.isoState new addr).chutes = d.chutes ∧ (d.isoState new addr).stp = d.stp ∧
    (d.isoState new addr).air = d.air ∧ (d.isoState new addr).gns = d.gns ∧ (d.isoState new addr).chiselOut = d.chiselOut ∧
    (d.isoState new addr).ring = d.ring ∧ (d.isoState new addr).can = d.can ∧ (d.isoState new addr).mtr = d.mtr ∧
    (d.isoState new addr).drk = d.drk ∧ (d.isoState new addr).dsp = d.dsp ∧ (d.isoState new addr).pwr = d.pwr ∧
    (d.isoState new addr).peer = d.peer ∧ (d.isoState new addr).com = d.com ∧ KeptCyc (d.isoState new addr).cyc d.cyc ∧
    KeptHost (d.isoState new addr).host d.host ∧ KeptRcd (d.isoState new addr).rcd d.rcd ∧ KeptTlg (d.isoState new addr).tlg d.tlg := by
  have h := (isoState_spec d new addr).1
  generalize d.isoState new addr = x at h ⊢
  have f {α : Type} (g : Dev → α) : g x.rest = g (d.rest) := congrArg g h
  exact ⟨f (·.now), f (·.snap), f (·.committedOnce), f (·.staged), f (·.ctrls), f (·.freeIx), f (·.tim), f (·.chutes), f (·.stp), f (·.air),
    f (·.gns), f (·.chiselOut), f (·.ring), f (·.can), f (·.mtr), f (·.drk), f (·.dsp), f (·.pwr), f (·.peer), f (·.com),
    KeptCyc.of (f (·.cyc)), KeptHost.of (f (·.host)), KeptRcd.of (f (·.rcd)), KeptTlg.of (f (·.tlg))⟩

@[simp] theorem isoState_rest (d : Dev) (new addr : Nat) : (d.isoState new addr).rest =
    d.rest := by
  have h := (isoState_spec d new addr).1
  generalize d.isoState new addr = x at h ⊢
  have f {α : Type} (g : Dev → α) : g x.rest = g (d.rest) := congrArg g h
  exact dev_ext (f (·.now)) rfl (f (·.snap)) (f (·.committedOnce)) rfl (f (·.staged)) (f (·.ctrls)) rfl (f (·.freeIx)) (f (·.tim)) (f (·.cyc)) (f (·.host))
    (f (·.chutes)) (f (·.rcd)) (f (·.stp)) (f (·.air)) (f (·.gns)) (f (·.chiselOut)) (f (·.ring)) (f (·.can)) (f (·.mtr)) (f (·.drk))
    (f (·.dsp)) (f (·.tlg)) (f (·.pwr)) (f (·.peer)) (f (·.com))

theorem isoState_reads (d : Dev) (new addr : Nat) : ∀ id jq, reportItem id = false → id ≠ P.CAN_ISO_STATE → id ≠ P.CAN_ISO_ADDR_NOW →
    (d.isoState new addr).rd id jq = d.rd id jq ∧ (d.isoState new addr).isSticky id jq = d.isSticky id jq ∧ (d.isoState new addr).cf id jq = d.cf id jq := by
  intro id jq hr h0 h1
  have h := (isoState_spec d new addr).2 id jq hr (by simp) (by simp [regKey_ne, h0, Ne.symm h0, h1, Ne.symm h1])
  have e : (d.isoState new addr).staged = d.staged := by simp
  refine ⟨h.1, h.2, ?_⟩
  simp only [Dev.cf, e, h.1]

theorem isoState_at (d : Dev) (new addr : Nat) : ∀ id jq, reportItem id = false  → regKey P.CAN_ISO_STATE 0 ≠ regKey id jq → regKey P.CAN_ISO_ADDR_NOW 0 ≠ regKey id jq →
    (d.isoState new addr).rd id jq = d.rd id jq ∧ (d.isoState new addr).isSticky id jq = d.isSticky id jq ∧ (d.isoState new addr).cf id jq = d.cf id jq := by
  intro id jq hr h0 h1
  have h := (isoState_spec d new addr).2 id jq hr (by simp) (by simp [h0, h1])
  have e : (d.isoState new addr).staged = d.staged := by simp
  refine ⟨h.1, h.2, ?_⟩
  simp only [Dev.cf, e, h.1]

theorem itemsBut_isoState {ids : List Nat} {ks : List (Nat × Nat)} (d e : Dev) (new addr : Nat) (m0 : P.CAN_ISO_STATE ∈ ids ∨ (P.CAN_ISO_STATE, 0) ∈ ks) (m1 : P.CAN_ISO_ADDR_NOW ∈ ids ∨ (P.CAN_ISO_ADDR_NOW, 0) ∈ ks) :
    ItemsBut ids ks (d.isoState new addr) e ↔ ItemsBut ids ks d e :=
  itemsBut_congr ((isoState_spec d new addr).2.mono (by simp) (by simp [m0, m1])) e

/-- An address frame sent. -/
theorem isoSend_spec (d : Dev) (sa : Nat) : (d.isoSend sa).rest = d.rest ∧
    ItemsBut [] [] (d.isoSend sa) d := by
  unfold Dev.isoSend
  repeat' split
  all_goals
    exact ⟨by first | (simp [itemsBut_self, -judge_rest, judge_rest', -timeState_rest, timeState_rest', -takeSeq_rest, takeSeq_rest', -hold_rest, hold_rest', -admit_rest, admit_rest', -input_rest, input_rest', -offer_rest, offer_rest', -stopNotice_rest, stopNotice_rest', -stopEvent_rest, stopEvent_rest', -giveUp_rest, giveUp_rest', -verdict_rest, verdict_rest', -engineFault_rest, engineFault_rest', -ctr_rest, ctr_rest', -beginReset_rest, beginReset_rest', -imageKeep_rest, imageKeep_rest', -imageCopy_rest, imageCopy_rest', -lastWords_rest, lastWords_rest', -placeRec_rest, placeRec_rest', -setTask_rest, setTask_rest', -setCore_rest, setCore_rest', -coreCount_rest, coreCount_rest', -dspRun_rest, dspRun_rest', -dspLeave_rest, dspLeave_rest', -dspHold_rest, dspHold_rest', -dspReady_rest, dspReady_rest', -dspWake_rest, dspWake_rest', -wakeAll_rest, wakeAll_rest', -packetIn_rest, packetIn_rest', -endSession_rest, endSession_rest', -laneInputs_rest, laneInputs_rest', -laneLatch_rest, laneLatch_rest', -laneStop_rest, laneStop_rest', -voterFail_rest, voterFail_rest', -circuitFault_rest, circuitFault_rest', -circuitClear_rest, circuitClear_rest', -outFaultRaise_rest, outFaultRaise_rest', -outputs_rest, outputs_rest', -permitNotice_rest, permitNotice_rest', -startSeries_rest, startSeries_rest', -compareLanes_rest, compareLanes_rest', -voterTick_rest, voterTick_rest', -sendResync_rest, sendResync_rest', -toShadow_rest, toShadow_rest', -splitResolve_rest, splitResolve_rest', -putBuf_rest, putBuf_rest', -canErrors_rest, canErrors_rest', -canAbort_rest, canAbort_rest']; done) | (simp [itemsBut_self, -judge_rest, judge_rest', -timeState_rest, timeState_rest', -takeSeq_rest, takeSeq_rest', -hold_rest, hold_rest', -admit_rest, admit_rest', -input_rest, input_rest', -offer_rest, offer_rest', -stopNotice_rest, stopNotice_rest', -stopEvent_rest, stopEvent_rest', -giveUp_rest, giveUp_rest', -verdict_rest, verdict_rest', -engineFault_rest, engineFault_rest', -ctr_rest, ctr_rest', -beginReset_rest, beginReset_rest', -imageKeep_rest, imageKeep_rest', -imageCopy_rest, imageCopy_rest', -lastWords_rest, lastWords_rest', -placeRec_rest, placeRec_rest', -setTask_rest, setTask_rest', -setCore_rest, setCore_rest', -coreCount_rest, coreCount_rest', -dspRun_rest, dspRun_rest', -dspLeave_rest, dspLeave_rest', -dspHold_rest, dspHold_rest', -dspReady_rest, dspReady_rest', -dspWake_rest, dspWake_rest', -wakeAll_rest, wakeAll_rest', -packetIn_rest, packetIn_rest', -endSession_rest, endSession_rest', -laneInputs_rest, laneInputs_rest', -laneLatch_rest, laneLatch_rest', -laneStop_rest, laneStop_rest', -voterFail_rest, voterFail_rest', -circuitFault_rest, circuitFault_rest', -circuitClear_rest, circuitClear_rest', -outFaultRaise_rest, outFaultRaise_rest', -outputs_rest, outputs_rest', -permitNotice_rest, permitNotice_rest', -startSeries_rest, startSeries_rest', -compareLanes_rest, compareLanes_rest', -voterTick_rest, voterTick_rest', -sendResync_rest, sendResync_rest', -toShadow_rest, toShadow_rest', -splitResolve_rest, splitResolve_rest', -putBuf_rest, putBuf_rest', -canErrors_rest, canErrors_rest', -canAbort_rest, canAbort_rest']; repeat' (first | rfl | apply And.intro)) | rfl, by simp [itemsBut_wr, itemsBut_inc, itemsBut_addW, itemsBut_maxTo, itemsBut_wrS, itemsBut_judge, itemsBut_timeState, itemsBut_takeSeq, itemsBut_countIn, itemsBut_hold, itemsBut_admit, itemsBut_input, itemsBut_offer, itemsBut_stopNotice, itemsBut_stopEvent, itemsBut_giveUp, itemsBut_verdict, itemsBut_engineFault, itemsBut_ctr, itemsBut_dspTrace, itemsBut_bypass, itemsBut_bypassHw, itemsBut_beginReset, itemsBut_mtrFlush, itemsBut_imageKeep, itemsBut_imageCopy, itemsBut_antState, itemsBut_judgeBias, itemsBut_chainState, itemsBut_showTile, itemsBut_putChan, itemsBut_freeChan, itemsBut_freeWhere, itemsBut_enableChan, itemsBut_place, itemsBut_placeAll, itemsBut_chainsEnable, itemsBut_startTracking, itemsBut_noteGain, itemsBut_stopTracking, itemsBut_snapTrigger, itemsBut_recorder, itemsBut_region, itemsBut_showRegion, itemsBut_lastWords, itemsBut_placeRec, itemsBut_flush, itemsBut_regionLost, itemsBut_setTask, itemsBut_setCore, itemsBut_coreCount, itemsBut_dspRun, itemsBut_dspLeave, itemsBut_dspHold, itemsBut_dspReady, itemsBut_dspWake, itemsBut_wakeAll, itemsBut_chuteTrace, itemsBut_chute, itemsBut_rewind, itemsBut_parityFail, itemsBut_packetIn, itemsBut_noteReply, itemsBut_sessionNote, itemsBut_endSession, itemsBut_laneInputs, itemsBut_laneLatch, itemsBut_laneStop, itemsBut_voterFail, itemsBut_isolate, itemsBut_showLevel, itemsBut_circuitFault, itemsBut_circuitClear, itemsBut_outFaultRaise, itemsBut_sliceFault, itemsBut_showStop, itemsBut_outputs, itemsBut_permitNotice, itemsBut_startSeries, itemsBut_compareLanes, itemsBut_voterTick, itemsBut_unitState, itemsBut_sendResync, itemsBut_toShadow, itemsBut_splitResolve, itemsBut_rng, itemsBut_portState, itemsBut_bypassPorts, itemsBut_ptpJudge, itemsBut_canSt, itemsBut_putBuf, itemsBut_canState, itemsBut_canErrors, itemsBut_canSync, itemsBut_canAbort, itemsBut_isoState]⟩

@[simp] theorem isoSend_fields (d : Dev) (sa : Nat) :
    (d.isoSend sa).now = d.now ∧ (d.isoSend sa).snap = d.snap ∧ (d.isoSend sa).committedOnce = d.committedOnce ∧
    (d.isoSend sa).staged = d.staged ∧ (d.isoSend sa).ctrls = d.ctrls ∧ (d.isoSend sa).freeIx = d.freeIx ∧ (d.isoSend sa).tim = d.tim ∧
    (d.isoSend sa).chutes = d.chutes ∧ (d.isoSend sa).stp = d.stp ∧ (d.isoSend sa).air = d.air ∧ (d.isoSend sa).gns = d.gns ∧
    (d.isoSend sa).chiselOut = d.chiselOut ∧ (d.isoSend sa).ring = d.ring ∧ (d.isoSend sa).can = d.can ∧ (d.isoSend sa).mtr = d.mtr ∧
    (d.isoSend sa).drk = d.drk ∧ (d.isoSend sa).dsp = d.dsp ∧ (d.isoSend sa).pwr = d.pwr ∧ (d.isoSend sa).peer = d.peer ∧
    (d.isoSend sa).com = d.com ∧ KeptCyc (d.isoSend sa).cyc d.cyc ∧ KeptHost (d.isoSend sa).host d.host ∧ KeptRcd (d.isoSend sa).rcd d.rcd ∧
    KeptTlg (d.isoSend sa).tlg d.tlg := by
  have h := (isoSend_spec d sa).1
  generalize d.isoSend sa = x at h ⊢
  have f {α : Type} (g : Dev → α) : g x.rest = g (d.rest) := congrArg g h
  exact ⟨f (·.now), f (·.snap), f (·.committedOnce), f (·.staged), f (·.ctrls), f (·.freeIx), f (·.tim), f (·.chutes), f (·.stp), f (·.air),
    f (·.gns), f (·.chiselOut), f (·.ring), f (·.can), f (·.mtr), f (·.drk), f (·.dsp), f (·.pwr), f (·.peer), f (·.com),
    KeptCyc.of (f (·.cyc)), KeptHost.of (f (·.host)), KeptRcd.of (f (·.rcd)), KeptTlg.of (f (·.tlg))⟩

@[simp] theorem isoSend_rest (d : Dev) (sa : Nat) : (d.isoSend sa).rest =
    d.rest := by
  have h := (isoSend_spec d sa).1
  generalize d.isoSend sa = x at h ⊢
  have f {α : Type} (g : Dev → α) : g x.rest = g (d.rest) := congrArg g h
  exact dev_ext (f (·.now)) rfl (f (·.snap)) (f (·.committedOnce)) rfl (f (·.staged)) (f (·.ctrls)) rfl (f (·.freeIx)) (f (·.tim)) (f (·.cyc)) (f (·.host))
    (f (·.chutes)) (f (·.rcd)) (f (·.stp)) (f (·.air)) (f (·.gns)) (f (·.chiselOut)) (f (·.ring)) (f (·.can)) (f (·.mtr)) (f (·.drk))
    (f (·.dsp)) (f (·.tlg)) (f (·.pwr)) (f (·.peer)) (f (·.com))

theorem isoSend_reads (d : Dev) (sa : Nat) : ∀ id jq, reportItem id = false  →
    (d.isoSend sa).rd id jq = d.rd id jq ∧ (d.isoSend sa).isSticky id jq = d.isSticky id jq ∧ (d.isoSend sa).cf id jq = d.cf id jq := by
  intro id jq hr 
  have h := (isoSend_spec d sa).2 id jq hr (by simp) (by simp)
  have e : (d.isoSend sa).staged = d.staged := by simp
  refine ⟨h.1, h.2, ?_⟩
  simp only [Dev.cf, e, h.1]

theorem itemsBut_isoSend {ids : List Nat} {ks : List (Nat × Nat)} (d e : Dev) (sa : Nat)  :
    ItemsBut ids ks (d.isoSend sa) e ↔ ItemsBut ids ks d e :=
  itemsBut_congr ((isoSend_spec d sa).2.mono (by simp) (by simp)) e

/-- An address claimed. -/
theorem isoClaim_spec (d : Dev) (a : Nat) : (d.isoClaim a).rest = { d.rest with can := { d.can with claimAt := (d.isoClaim a).can.claimAt } } ∧
    ItemsBut [] [(P.CAN_ISO_STATE, 0), (P.CAN_ISO_ADDR_NOW, 0)] (d.isoClaim a) d := by
  unfold Dev.isoClaim Dev.canSt
  repeat' split
  all_goals
    exact ⟨by first | (simp [itemsBut_self, -judge_rest, judge_rest', -timeState_rest, timeState_rest', -takeSeq_rest, takeSeq_rest', -hold_rest, hold_rest', -admit_rest, admit_rest', -input_rest, input_rest', -offer_rest, offer_rest', -stopNotice_rest, stopNotice_rest', -stopEvent_rest, stopEvent_rest', -giveUp_rest, giveUp_rest', -verdict_rest, verdict_rest', -engineFault_rest, engineFault_rest', -ctr_rest, ctr_rest', -beginReset_rest, beginReset_rest', -imageKeep_rest, imageKeep_rest', -imageCopy_rest, imageCopy_rest', -lastWords_rest, lastWords_rest', -placeRec_rest, placeRec_rest', -setTask_rest, setTask_rest', -setCore_rest, setCore_rest', -coreCount_rest, coreCount_rest', -dspRun_rest, dspRun_rest', -dspLeave_rest, dspLeave_rest', -dspHold_rest, dspHold_rest', -dspReady_rest, dspReady_rest', -dspWake_rest, dspWake_rest', -wakeAll_rest, wakeAll_rest', -packetIn_rest, packetIn_rest', -endSession_rest, endSession_rest', -laneInputs_rest, laneInputs_rest', -laneLatch_rest, laneLatch_rest', -laneStop_rest, laneStop_rest', -voterFail_rest, voterFail_rest', -circuitFault_rest, circuitFault_rest', -circuitClear_rest, circuitClear_rest', -outFaultRaise_rest, outFaultRaise_rest', -outputs_rest, outputs_rest', -permitNotice_rest, permitNotice_rest', -startSeries_rest, startSeries_rest', -compareLanes_rest, compareLanes_rest', -voterTick_rest, voterTick_rest', -sendResync_rest, sendResync_rest', -toShadow_rest, toShadow_rest', -splitResolve_rest, splitResolve_rest', -putBuf_rest, putBuf_rest', -canErrors_rest, canErrors_rest', -canAbort_rest, canAbort_rest']; done) | (simp [itemsBut_self, -judge_rest, judge_rest', -timeState_rest, timeState_rest', -takeSeq_rest, takeSeq_rest', -hold_rest, hold_rest', -admit_rest, admit_rest', -input_rest, input_rest', -offer_rest, offer_rest', -stopNotice_rest, stopNotice_rest', -stopEvent_rest, stopEvent_rest', -giveUp_rest, giveUp_rest', -verdict_rest, verdict_rest', -engineFault_rest, engineFault_rest', -ctr_rest, ctr_rest', -beginReset_rest, beginReset_rest', -imageKeep_rest, imageKeep_rest', -imageCopy_rest, imageCopy_rest', -lastWords_rest, lastWords_rest', -placeRec_rest, placeRec_rest', -setTask_rest, setTask_rest', -setCore_rest, setCore_rest', -coreCount_rest, coreCount_rest', -dspRun_rest, dspRun_rest', -dspLeave_rest, dspLeave_rest', -dspHold_rest, dspHold_rest', -dspReady_rest, dspReady_rest', -dspWake_rest, dspWake_rest', -wakeAll_rest, wakeAll_rest', -packetIn_rest, packetIn_rest', -endSession_rest, endSession_rest', -laneInputs_rest, laneInputs_rest', -laneLatch_rest, laneLatch_rest', -laneStop_rest, laneStop_rest', -voterFail_rest, voterFail_rest', -circuitFault_rest, circuitFault_rest', -circuitClear_rest, circuitClear_rest', -outFaultRaise_rest, outFaultRaise_rest', -outputs_rest, outputs_rest', -permitNotice_rest, permitNotice_rest', -startSeries_rest, startSeries_rest', -compareLanes_rest, compareLanes_rest', -voterTick_rest, voterTick_rest', -sendResync_rest, sendResync_rest', -toShadow_rest, toShadow_rest', -splitResolve_rest, splitResolve_rest', -putBuf_rest, putBuf_rest', -canErrors_rest, canErrors_rest', -canAbort_rest, canAbort_rest']; repeat' (first | rfl | apply And.intro)) | rfl, by simp [itemsBut_wr, itemsBut_inc, itemsBut_addW, itemsBut_maxTo, itemsBut_wrS, itemsBut_judge, itemsBut_timeState, itemsBut_takeSeq, itemsBut_countIn, itemsBut_hold, itemsBut_admit, itemsBut_input, itemsBut_offer, itemsBut_stopNotice, itemsBut_stopEvent, itemsBut_giveUp, itemsBut_verdict, itemsBut_engineFault, itemsBut_ctr, itemsBut_dspTrace, itemsBut_bypass, itemsBut_bypassHw, itemsBut_beginReset, itemsBut_mtrFlush, itemsBut_imageKeep, itemsBut_imageCopy, itemsBut_antState, itemsBut_judgeBias, itemsBut_chainState, itemsBut_showTile, itemsBut_putChan, itemsBut_freeChan, itemsBut_freeWhere, itemsBut_enableChan, itemsBut_place, itemsBut_placeAll, itemsBut_chainsEnable, itemsBut_startTracking, itemsBut_noteGain, itemsBut_stopTracking, itemsBut_snapTrigger, itemsBut_recorder, itemsBut_region, itemsBut_showRegion, itemsBut_lastWords, itemsBut_placeRec, itemsBut_flush, itemsBut_regionLost, itemsBut_setTask, itemsBut_setCore, itemsBut_coreCount, itemsBut_dspRun, itemsBut_dspLeave, itemsBut_dspHold, itemsBut_dspReady, itemsBut_dspWake, itemsBut_wakeAll, itemsBut_chuteTrace, itemsBut_chute, itemsBut_rewind, itemsBut_parityFail, itemsBut_packetIn, itemsBut_noteReply, itemsBut_sessionNote, itemsBut_endSession, itemsBut_laneInputs, itemsBut_laneLatch, itemsBut_laneStop, itemsBut_voterFail, itemsBut_isolate, itemsBut_showLevel, itemsBut_circuitFault, itemsBut_circuitClear, itemsBut_outFaultRaise, itemsBut_sliceFault, itemsBut_showStop, itemsBut_outputs, itemsBut_permitNotice, itemsBut_startSeries, itemsBut_compareLanes, itemsBut_voterTick, itemsBut_unitState, itemsBut_sendResync, itemsBut_toShadow, itemsBut_splitResolve, itemsBut_rng, itemsBut_portState, itemsBut_bypassPorts, itemsBut_ptpJudge, itemsBut_canSt, itemsBut_putBuf, itemsBut_canState, itemsBut_canErrors, itemsBut_canSync, itemsBut_canAbort, itemsBut_isoState, itemsBut_isoSend]⟩

theorem isoClaim_rest' (d : Dev) (a : Nat) : (d.isoClaim a).rest = { d.rest with can := { d.can with claimAt := (d.isoClaim a).can.claimAt } } := (isoClaim_spec d a).1

@[simp] theorem isoClaim_fields (d : Dev) (a : Nat) :
    (d.isoClaim a).now = d.now ∧ (d.isoClaim a).snap = d.snap ∧ (d.isoClaim a).committedOnce = d.committedOnce ∧
    (d.isoClaim a).staged = d.staged ∧ (d.isoClaim a).ctrls = d.ctrls ∧ (d.isoClaim a).freeIx = d.freeIx ∧ (d.isoClaim a).tim = d.tim ∧
    (d.isoClaim a).chutes = d.chutes ∧ (d.isoClaim a).stp = d.stp ∧ (d.isoClaim a).air = d.air ∧ (d.isoClaim a).gns = d.gns ∧
    (d.isoClaim a).chiselOut = d.chiselOut ∧ (d.isoClaim a).ring = d.ring ∧ (d.isoClaim a).can.mode = d.can.mode ∧
    (d.isoClaim a).can.failed = d.can.failed ∧ (d.isoClaim a).can.offs = d.can.offs ∧ (d.isoClaim a).can.refLast = d.can.refLast ∧
    (d.isoClaim a).can.refLost = d.can.refLost ∧ (d.isoClaim a).can.cfg = d.can.cfg ∧ (d.isoClaim a).can.bufs = d.can.bufs ∧
    (d.isoClaim a).can.heard = d.can.heard ∧ (d.isoClaim a).mtr = d.mtr ∧ (d.isoClaim a).drk = d.drk ∧ (d.isoClaim a).dsp = d.dsp ∧
    (d.isoClaim a).pwr = d.pwr ∧ (d.isoClaim a).peer = d.peer ∧ (d.isoClaim a).com = d.com ∧ KeptCyc (d.isoClaim a).cyc d.cyc ∧
    KeptHost (d.isoClaim a).host d.host ∧ KeptRcd (d.isoClaim a).rcd d.rcd ∧ KeptTlg (d.isoClaim a).tlg d.tlg := by
  have h := (isoClaim_spec d a).1
  generalize d.isoClaim a = x at h ⊢
  have f {α : Type} (g : Dev → α) : g x.rest = g ({ d.rest with can := { d.can with claimAt := (x).can.claimAt } }) := congrArg g h
  exact ⟨f (·.now), f (·.snap), f (·.committedOnce), f (·.staged), f (·.ctrls), f (·.freeIx), f (·.tim), f (·.chutes), f (·.stp), f (·.air),
    f (·.gns), f (·.chiselOut), f (·.ring), f (·.can.mode), f (·.can.failed), f (·.can.offs), f (·.can.refLast), f (·.can.refLost),
    f (·.can.cfg), f (·.can.bufs), f (·.can.heard), f (·.mtr), f (·.drk), f (·.dsp), f (·.pwr), f (·.peer), f (·.com), KeptCyc.of (f (·.cyc)),
    KeptHost.of (f (·.host)), KeptRcd.of (f (·.rcd)), KeptTlg.of (f (·.tlg))⟩

@[simp] theorem isoClaim_rest (d : Dev) (a : Nat) : (d.isoClaim a).rest =
    { d.rest with can := (d.isoClaim a).can } := by
  have h := (isoClaim_spec d a).1
  generalize d.isoClaim a = x at h ⊢
  have f {α : Type} (g : Dev → α) : g x.rest = g ({ d.rest with can := { d.can with claimAt := (x).can.claimAt } }) := congrArg g h
  exact dev_ext (f (·.now)) rfl (f (·.snap)) (f (·.committedOnce)) rfl (f (·.staged)) (f (·.ctrls)) rfl (f (·.freeIx)) (f (·.tim)) (f (·.cyc)) (f (·.host))
    (f (·.chutes)) (f (·.rcd)) (f (·.stp)) (f (·.air)) (f (·.gns)) (f (·.chiselOut)) (f (·.ring)) rfl (f (·.mtr)) (f (·.drk)) (f (·.dsp))
    (f (·.tlg)) (f (·.pwr)) (f (·.peer)) (f (·.com))

theorem isoClaim_reads (d : Dev) (a : Nat) : ∀ id jq, reportItem id = false → id ≠ P.CAN_ISO_STATE → id ≠ P.CAN_ISO_ADDR_NOW →
    (d.isoClaim a).rd id jq = d.rd id jq ∧ (d.isoClaim a).isSticky id jq = d.isSticky id jq ∧ (d.isoClaim a).cf id jq = d.cf id jq := by
  intro id jq hr h0 h1
  have h := (isoClaim_spec d a).2 id jq hr (by simp) (by simp [regKey_ne, h0, Ne.symm h0, h1, Ne.symm h1])
  have e : (d.isoClaim a).staged = d.staged := by simp
  refine ⟨h.1, h.2, ?_⟩
  simp only [Dev.cf, e, h.1]

theorem isoClaim_at (d : Dev) (a : Nat) : ∀ id jq, reportItem id = false  → regKey P.CAN_ISO_STATE 0 ≠ regKey id jq → regKey P.CAN_ISO_ADDR_NOW 0 ≠ regKey id jq →
    (d.isoClaim a).rd id jq = d.rd id jq ∧ (d.isoClaim a).isSticky id jq = d.isSticky id jq ∧ (d.isoClaim a).cf id jq = d.cf id jq := by
  intro id jq hr h0 h1
  have h := (isoClaim_spec d a).2 id jq hr (by simp) (by simp [h0, h1])
  have e : (d.isoClaim a).staged = d.staged := by simp
  refine ⟨h.1, h.2, ?_⟩
  simp only [Dev.cf, e, h.1]

theorem itemsBut_isoClaim {ids : List Nat} {ks : List (Nat × Nat)} (d e : Dev) (a : Nat) (m0 : P.CAN_ISO_STATE ∈ ids ∨ (P.CAN_ISO_STATE, 0) ∈ ks) (m1 : P.CAN_ISO_ADDR_NOW ∈ ids ∨ (P.CAN_ISO_ADDR_NOW, 0) ∈ ks) :
    ItemsBut ids ks (d.isoClaim a) e ↔ ItemsBut ids ks d e :=
  itemsBut_congr ((isoClaim_spec d a).2.mono (by simp) (by simp [m0, m1])) e

/-- The address lost. -/
theorem isoLose_spec (d : Dev)  : (d.isoLose).rest = { d.rest with can := { d.can with claimAt := (d.isoLose).can.claimAt } } ∧
    ItemsBut [] [(P.CAN_ISO_STATE, 0), (P.CAN_ISO_ADDR_NOW, 0)] (d.isoLose) d := by
  unfold Dev.isoLose
  try simp only []
  repeat' split
  all_goals
    exact ⟨by first | (simp [itemsBut_self, -judge_rest, judge_rest', -timeState_rest, timeState_rest', -takeSeq_rest, takeSeq_rest', -hold_rest, hold_rest', -admit_rest, admit_rest', -input_rest, input_rest', -offer_rest, offer_rest', -stopNotice_rest, stopNotice_rest', -stopEvent_rest, stopEvent_rest', -giveUp_rest, giveUp_rest', -verdict_rest, verdict_rest', -engineFault_rest, engineFault_rest', -ctr_rest, ctr_rest', -beginReset_rest, beginReset_rest', -imageKeep_rest, imageKeep_rest', -imageCopy_rest, imageCopy_rest', -lastWords_rest, lastWords_rest', -placeRec_rest, placeRec_rest', -setTask_rest, setTask_rest', -setCore_rest, setCore_rest', -coreCount_rest, coreCount_rest', -dspRun_rest, dspRun_rest', -dspLeave_rest, dspLeave_rest', -dspHold_rest, dspHold_rest', -dspReady_rest, dspReady_rest', -dspWake_rest, dspWake_rest', -wakeAll_rest, wakeAll_rest', -packetIn_rest, packetIn_rest', -endSession_rest, endSession_rest', -laneInputs_rest, laneInputs_rest', -laneLatch_rest, laneLatch_rest', -laneStop_rest, laneStop_rest', -voterFail_rest, voterFail_rest', -circuitFault_rest, circuitFault_rest', -circuitClear_rest, circuitClear_rest', -outFaultRaise_rest, outFaultRaise_rest', -outputs_rest, outputs_rest', -permitNotice_rest, permitNotice_rest', -startSeries_rest, startSeries_rest', -compareLanes_rest, compareLanes_rest', -voterTick_rest, voterTick_rest', -sendResync_rest, sendResync_rest', -toShadow_rest, toShadow_rest', -splitResolve_rest, splitResolve_rest', -putBuf_rest, putBuf_rest', -canErrors_rest, canErrors_rest', -canAbort_rest, canAbort_rest', -isoClaim_rest, isoClaim_rest']; done) | (simp [itemsBut_self, -judge_rest, judge_rest', -timeState_rest, timeState_rest', -takeSeq_rest, takeSeq_rest', -hold_rest, hold_rest', -admit_rest, admit_rest', -input_rest, input_rest', -offer_rest, offer_rest', -stopNotice_rest, stopNotice_rest', -stopEvent_rest, stopEvent_rest', -giveUp_rest, giveUp_rest', -verdict_rest, verdict_rest', -engineFault_rest, engineFault_rest', -ctr_rest, ctr_rest', -beginReset_rest, beginReset_rest', -imageKeep_rest, imageKeep_rest', -imageCopy_rest, imageCopy_rest', -lastWords_rest, lastWords_rest', -placeRec_rest, placeRec_rest', -setTask_rest, setTask_rest', -setCore_rest, setCore_rest', -coreCount_rest, coreCount_rest', -dspRun_rest, dspRun_rest', -dspLeave_rest, dspLeave_rest', -dspHold_rest, dspHold_rest', -dspReady_rest, dspReady_rest', -dspWake_rest, dspWake_rest', -wakeAll_rest, wakeAll_rest', -packetIn_rest, packetIn_rest', -endSession_rest, endSession_rest', -laneInputs_rest, laneInputs_rest', -laneLatch_rest, laneLatch_rest', -laneStop_rest, laneStop_rest', -voterFail_rest, voterFail_rest', -circuitFault_rest, circuitFault_rest', -circuitClear_rest, circuitClear_rest', -outFaultRaise_rest, outFaultRaise_rest', -outputs_rest, outputs_rest', -permitNotice_rest, permitNotice_rest', -startSeries_rest, startSeries_rest', -compareLanes_rest, compareLanes_rest', -voterTick_rest, voterTick_rest', -sendResync_rest, sendResync_rest', -toShadow_rest, toShadow_rest', -splitResolve_rest, splitResolve_rest', -putBuf_rest, putBuf_rest', -canErrors_rest, canErrors_rest', -canAbort_rest, canAbort_rest', -isoClaim_rest, isoClaim_rest']; repeat' (first | rfl | apply And.intro)) | rfl, by simp [itemsBut_wr, itemsBut_inc, itemsBut_addW, itemsBut_maxTo, itemsBut_wrS, itemsBut_judge, itemsBut_timeState, itemsBut_takeSeq, itemsBut_countIn, itemsBut_hold, itemsBut_admit, itemsBut_input, itemsBut_offer, itemsBut_stopNotice, itemsBut_stopEvent, itemsBut_giveUp, itemsBut_verdict, itemsBut_engineFault, itemsBut_ctr, itemsBut_dspTrace, itemsBut_bypass, itemsBut_bypassHw, itemsBut_beginReset, itemsBut_mtrFlush, itemsBut_imageKeep, itemsBut_imageCopy, itemsBut_antState, itemsBut_judgeBias, itemsBut_chainState, itemsBut_showTile, itemsBut_putChan, itemsBut_freeChan, itemsBut_freeWhere, itemsBut_enableChan, itemsBut_place, itemsBut_placeAll, itemsBut_chainsEnable, itemsBut_startTracking, itemsBut_noteGain, itemsBut_stopTracking, itemsBut_snapTrigger, itemsBut_recorder, itemsBut_region, itemsBut_showRegion, itemsBut_lastWords, itemsBut_placeRec, itemsBut_flush, itemsBut_regionLost, itemsBut_setTask, itemsBut_setCore, itemsBut_coreCount, itemsBut_dspRun, itemsBut_dspLeave, itemsBut_dspHold, itemsBut_dspReady, itemsBut_dspWake, itemsBut_wakeAll, itemsBut_chuteTrace, itemsBut_chute, itemsBut_rewind, itemsBut_parityFail, itemsBut_packetIn, itemsBut_noteReply, itemsBut_sessionNote, itemsBut_endSession, itemsBut_laneInputs, itemsBut_laneLatch, itemsBut_laneStop, itemsBut_voterFail, itemsBut_isolate, itemsBut_showLevel, itemsBut_circuitFault, itemsBut_circuitClear, itemsBut_outFaultRaise, itemsBut_sliceFault, itemsBut_showStop, itemsBut_outputs, itemsBut_permitNotice, itemsBut_startSeries, itemsBut_compareLanes, itemsBut_voterTick, itemsBut_unitState, itemsBut_sendResync, itemsBut_toShadow, itemsBut_splitResolve, itemsBut_rng, itemsBut_portState, itemsBut_bypassPorts, itemsBut_ptpJudge, itemsBut_canSt, itemsBut_putBuf, itemsBut_canState, itemsBut_canErrors, itemsBut_canSync, itemsBut_canAbort, itemsBut_isoState, itemsBut_isoSend, itemsBut_isoClaim]⟩

theorem isoLose_rest' (d : Dev)  : (d.isoLose).rest = { d.rest with can := { d.can with claimAt := (d.isoLose).can.claimAt } } := (isoLose_spec d ).1

@[simp] theorem isoLose_fields (d : Dev)  :
    (d.isoLose).now = d.now ∧ (d.isoLose).snap = d.snap ∧ (d.isoLose).committedOnce = d.committedOnce ∧ (d.isoLose).staged = d.staged ∧
    (d.isoLose).ctrls = d.ctrls ∧ (d.isoLose).freeIx = d.freeIx ∧ (d.isoLose).tim = d.tim ∧ (d.isoLose).chutes = d.chutes ∧
    (d.isoLose).stp = d.stp ∧ (d.isoLose).air = d.air ∧ (d.isoLose).gns = d.gns ∧ (d.isoLose).chiselOut = d.chiselOut ∧
    (d.isoLose).ring = d.ring ∧ (d.isoLose).can.mode = d.can.mode ∧ (d.isoLose).can.failed = d.can.failed ∧ (d.isoLose).can.offs = d.can.offs ∧
    (d.isoLose).can.refLast = d.can.refLast ∧ (d.isoLose).can.refLost = d.can.refLost ∧ (d.isoLose).can.cfg = d.can.cfg ∧
    (d.isoLose).can.bufs = d.can.bufs ∧ (d.isoLose).can.heard = d.can.heard ∧ (d.isoLose).mtr = d.mtr ∧ (d.isoLose).drk = d.drk ∧
    (d.isoLose).dsp = d.dsp ∧ (d.isoLose).pwr = d.pwr ∧ (d.isoLose).peer = d.peer ∧ (d.isoLose).com = d.com ∧ KeptCyc (d.isoLose).cyc d.cyc ∧
    KeptHost (d.isoLose).host d.host ∧ KeptRcd (d.isoLose).rcd d.rcd ∧ KeptTlg (d.isoLose).tlg d.tlg := by
  have h := (isoLose_spec d ).1
  generalize d.isoLose = x at h ⊢
  have f {α : Type} (g : Dev → α) : g x.rest = g ({ d.rest with can := { d.can with claimAt := (x).can.claimAt } }) := congrArg g h
  exact ⟨f (·.now), f (·.snap), f (·.committedOnce), f (·.staged), f (·.ctrls), f (·.freeIx), f (·.tim), f (·.chutes), f (·.stp), f (·.air),
    f (·.gns), f (·.chiselOut), f (·.ring), f (·.can.mode), f (·.can.failed), f (·.can.offs), f (·.can.refLast), f (·.can.refLost),
    f (·.can.cfg), f (·.can.bufs), f (·.can.heard), f (·.mtr), f (·.drk), f (·.dsp), f (·.pwr), f (·.peer), f (·.com), KeptCyc.of (f (·.cyc)),
    KeptHost.of (f (·.host)), KeptRcd.of (f (·.rcd)), KeptTlg.of (f (·.tlg))⟩

@[simp] theorem isoLose_rest (d : Dev)  : (d.isoLose).rest =
    { d.rest with can := (d.isoLose).can } := by
  have h := (isoLose_spec d ).1
  generalize d.isoLose = x at h ⊢
  have f {α : Type} (g : Dev → α) : g x.rest = g ({ d.rest with can := { d.can with claimAt := (x).can.claimAt } }) := congrArg g h
  exact dev_ext (f (·.now)) rfl (f (·.snap)) (f (·.committedOnce)) rfl (f (·.staged)) (f (·.ctrls)) rfl (f (·.freeIx)) (f (·.tim)) (f (·.cyc)) (f (·.host))
    (f (·.chutes)) (f (·.rcd)) (f (·.stp)) (f (·.air)) (f (·.gns)) (f (·.chiselOut)) (f (·.ring)) rfl (f (·.mtr)) (f (·.drk)) (f (·.dsp))
    (f (·.tlg)) (f (·.pwr)) (f (·.peer)) (f (·.com))

theorem isoLose_reads (d : Dev)  : ∀ id jq, reportItem id = false → id ≠ P.CAN_ISO_STATE → id ≠ P.CAN_ISO_ADDR_NOW →
    (d.isoLose).rd id jq = d.rd id jq ∧ (d.isoLose).isSticky id jq = d.isSticky id jq ∧ (d.isoLose).cf id jq = d.cf id jq := by
  intro id jq hr h0 h1
  have h := (isoLose_spec d ).2 id jq hr (by simp) (by simp [regKey_ne, h0, Ne.symm h0, h1, Ne.symm h1])
  have e : (d.isoLose).staged = d.staged := by simp
  refine ⟨h.1, h.2, ?_⟩
  simp only [Dev.cf, e, h.1]

theorem isoLose_at (d : Dev)  : ∀ id jq, reportItem id = false  → regKey P.CAN_ISO_STATE 0 ≠ regKey id jq → regKey P.CAN_ISO_ADDR_NOW 0 ≠ regKey id jq →
    (d.isoLose).rd id jq = d.rd id jq ∧ (d.isoLose).isSticky id jq = d.isSticky id jq ∧ (d.isoLose).cf id jq = d.cf id jq := by
  intro id jq hr h0 h1
  have h := (isoLose_spec d ).2 id jq hr (by simp) (by simp [h0, h1])
  have e : (d.isoLose).staged = d.staged := by simp
  refine ⟨h.1, h.2, ?_⟩
  simp only [Dev.cf, e, h.1]

theorem itemsBut_isoLose {ids : List Nat} {ks : List (Nat × Nat)} (d e : Dev)  (m0 : P.CAN_ISO_STATE ∈ ids ∨ (P.CAN_ISO_STATE, 0) ∈ ks) (m1 : P.CAN_ISO_ADDR_NOW ∈ ids ∨ (P.CAN_ISO_ADDR_NOW, 0) ∈ ks) :
    ItemsBut ids ks (d.isoLose) e ↔ ItemsBut ids ks d e :=
  itemsBut_congr ((isoLose_spec d ).2.mono (by simp) (by simp [m0, m1])) e

/-- A reference taken. -/
theorem refTake_spec (d : Dev) (c : Nat) (f : CanFrame) : (d.refTake c f).rest = { d.rest with can := { d.can with refLast := (d.refTake c f).can.refLast, refLost := (d.refTake c f).can.refLost } } ∧
    ItemsBut [] [(P.CAN_REF_OFFSET, c), (P.CAN_REF_SEQ, c), (P.CAN_REF_MISSED, c)] (d.refTake c f) d := by
  unfold Dev.refTake Dev.when Dev.canSt
  try simp only []
  repeat' split
  all_goals
    exact ⟨by first | (simp [itemsBut_self, -judge_rest, judge_rest', -timeState_rest, timeState_rest', -takeSeq_rest, takeSeq_rest', -hold_rest, hold_rest', -admit_rest, admit_rest', -input_rest, input_rest', -offer_rest, offer_rest', -stopNotice_rest, stopNotice_rest', -stopEvent_rest, stopEvent_rest', -giveUp_rest, giveUp_rest', -verdict_rest, verdict_rest', -engineFault_rest, engineFault_rest', -ctr_rest, ctr_rest', -beginReset_rest, beginReset_rest', -imageKeep_rest, imageKeep_rest', -imageCopy_rest, imageCopy_rest', -lastWords_rest, lastWords_rest', -placeRec_rest, placeRec_rest', -setTask_rest, setTask_rest', -setCore_rest, setCore_rest', -coreCount_rest, coreCount_rest', -dspRun_rest, dspRun_rest', -dspLeave_rest, dspLeave_rest', -dspHold_rest, dspHold_rest', -dspReady_rest, dspReady_rest', -dspWake_rest, dspWake_rest', -wakeAll_rest, wakeAll_rest', -packetIn_rest, packetIn_rest', -endSession_rest, endSession_rest', -laneInputs_rest, laneInputs_rest', -laneLatch_rest, laneLatch_rest', -laneStop_rest, laneStop_rest', -voterFail_rest, voterFail_rest', -circuitFault_rest, circuitFault_rest', -circuitClear_rest, circuitClear_rest', -outFaultRaise_rest, outFaultRaise_rest', -outputs_rest, outputs_rest', -permitNotice_rest, permitNotice_rest', -startSeries_rest, startSeries_rest', -compareLanes_rest, compareLanes_rest', -voterTick_rest, voterTick_rest', -sendResync_rest, sendResync_rest', -toShadow_rest, toShadow_rest', -splitResolve_rest, splitResolve_rest', -putBuf_rest, putBuf_rest', -canErrors_rest, canErrors_rest', -canAbort_rest, canAbort_rest', -isoClaim_rest, isoClaim_rest', -isoLose_rest, isoLose_rest']; done) | (simp [itemsBut_self, -judge_rest, judge_rest', -timeState_rest, timeState_rest', -takeSeq_rest, takeSeq_rest', -hold_rest, hold_rest', -admit_rest, admit_rest', -input_rest, input_rest', -offer_rest, offer_rest', -stopNotice_rest, stopNotice_rest', -stopEvent_rest, stopEvent_rest', -giveUp_rest, giveUp_rest', -verdict_rest, verdict_rest', -engineFault_rest, engineFault_rest', -ctr_rest, ctr_rest', -beginReset_rest, beginReset_rest', -imageKeep_rest, imageKeep_rest', -imageCopy_rest, imageCopy_rest', -lastWords_rest, lastWords_rest', -placeRec_rest, placeRec_rest', -setTask_rest, setTask_rest', -setCore_rest, setCore_rest', -coreCount_rest, coreCount_rest', -dspRun_rest, dspRun_rest', -dspLeave_rest, dspLeave_rest', -dspHold_rest, dspHold_rest', -dspReady_rest, dspReady_rest', -dspWake_rest, dspWake_rest', -wakeAll_rest, wakeAll_rest', -packetIn_rest, packetIn_rest', -endSession_rest, endSession_rest', -laneInputs_rest, laneInputs_rest', -laneLatch_rest, laneLatch_rest', -laneStop_rest, laneStop_rest', -voterFail_rest, voterFail_rest', -circuitFault_rest, circuitFault_rest', -circuitClear_rest, circuitClear_rest', -outFaultRaise_rest, outFaultRaise_rest', -outputs_rest, outputs_rest', -permitNotice_rest, permitNotice_rest', -startSeries_rest, startSeries_rest', -compareLanes_rest, compareLanes_rest', -voterTick_rest, voterTick_rest', -sendResync_rest, sendResync_rest', -toShadow_rest, toShadow_rest', -splitResolve_rest, splitResolve_rest', -putBuf_rest, putBuf_rest', -canErrors_rest, canErrors_rest', -canAbort_rest, canAbort_rest', -isoClaim_rest, isoClaim_rest', -isoLose_rest, isoLose_rest']; repeat' (first | rfl | apply And.intro)) | rfl, by simp [itemsBut_wr, itemsBut_inc, itemsBut_addW, itemsBut_maxTo, itemsBut_wrS, itemsBut_judge, itemsBut_timeState, itemsBut_takeSeq, itemsBut_countIn, itemsBut_hold, itemsBut_admit, itemsBut_input, itemsBut_offer, itemsBut_stopNotice, itemsBut_stopEvent, itemsBut_giveUp, itemsBut_verdict, itemsBut_engineFault, itemsBut_ctr, itemsBut_dspTrace, itemsBut_bypass, itemsBut_bypassHw, itemsBut_beginReset, itemsBut_mtrFlush, itemsBut_imageKeep, itemsBut_imageCopy, itemsBut_antState, itemsBut_judgeBias, itemsBut_chainState, itemsBut_showTile, itemsBut_putChan, itemsBut_freeChan, itemsBut_freeWhere, itemsBut_enableChan, itemsBut_place, itemsBut_placeAll, itemsBut_chainsEnable, itemsBut_startTracking, itemsBut_noteGain, itemsBut_stopTracking, itemsBut_snapTrigger, itemsBut_recorder, itemsBut_region, itemsBut_showRegion, itemsBut_lastWords, itemsBut_placeRec, itemsBut_flush, itemsBut_regionLost, itemsBut_setTask, itemsBut_setCore, itemsBut_coreCount, itemsBut_dspRun, itemsBut_dspLeave, itemsBut_dspHold, itemsBut_dspReady, itemsBut_dspWake, itemsBut_wakeAll, itemsBut_chuteTrace, itemsBut_chute, itemsBut_rewind, itemsBut_parityFail, itemsBut_packetIn, itemsBut_noteReply, itemsBut_sessionNote, itemsBut_endSession, itemsBut_laneInputs, itemsBut_laneLatch, itemsBut_laneStop, itemsBut_voterFail, itemsBut_isolate, itemsBut_showLevel, itemsBut_circuitFault, itemsBut_circuitClear, itemsBut_outFaultRaise, itemsBut_sliceFault, itemsBut_showStop, itemsBut_outputs, itemsBut_permitNotice, itemsBut_startSeries, itemsBut_compareLanes, itemsBut_voterTick, itemsBut_unitState, itemsBut_sendResync, itemsBut_toShadow, itemsBut_splitResolve, itemsBut_rng, itemsBut_portState, itemsBut_bypassPorts, itemsBut_ptpJudge, itemsBut_canSt, itemsBut_putBuf, itemsBut_canState, itemsBut_canErrors, itemsBut_canSync, itemsBut_canAbort, itemsBut_isoState, itemsBut_isoSend, itemsBut_isoClaim, itemsBut_isoLose]⟩

theorem refTake_rest' (d : Dev) (c : Nat) (f : CanFrame) : (d.refTake c f).rest = { d.rest with can := { d.can with refLast := (d.refTake c f).can.refLast, refLost := (d.refTake c f).can.refLost } } := (refTake_spec d c f).1

@[simp] theorem refTake_fields (d : Dev) (c : Nat) (f : CanFrame) :
    (d.refTake c f).now = d.now ∧ (d.refTake c f).snap = d.snap ∧ (d.refTake c f).committedOnce = d.committedOnce ∧
    (d.refTake c f).staged = d.staged ∧ (d.refTake c f).ctrls = d.ctrls ∧ (d.refTake c f).freeIx = d.freeIx ∧ (d.refTake c f).tim = d.tim ∧
    (d.refTake c f).chutes = d.chutes ∧ (d.refTake c f).stp = d.stp ∧ (d.refTake c f).air = d.air ∧ (d.refTake c f).gns = d.gns ∧
    (d.refTake c f).chiselOut = d.chiselOut ∧ (d.refTake c f).ring = d.ring ∧ (d.refTake c f).can.mode = d.can.mode ∧
    (d.refTake c f).can.failed = d.can.failed ∧ (d.refTake c f).can.offs = d.can.offs ∧ (d.refTake c f).can.cfg = d.can.cfg ∧
    (d.refTake c f).can.bufs = d.can.bufs ∧ (d.refTake c f).can.claimAt = d.can.claimAt ∧ (d.refTake c f).can.heard = d.can.heard ∧
    (d.refTake c f).mtr = d.mtr ∧ (d.refTake c f).drk = d.drk ∧ (d.refTake c f).dsp = d.dsp ∧ (d.refTake c f).pwr = d.pwr ∧
    (d.refTake c f).peer = d.peer ∧ (d.refTake c f).com = d.com ∧ KeptCyc (d.refTake c f).cyc d.cyc ∧ KeptHost (d.refTake c f).host d.host ∧
    KeptRcd (d.refTake c f).rcd d.rcd ∧ KeptTlg (d.refTake c f).tlg d.tlg := by
  have h := (refTake_spec d c f).1
  generalize d.refTake c f = x at h ⊢
  have f {α : Type} (g : Dev → α) : g x.rest = g ({ d.rest with can := { d.can with refLast := (x).can.refLast, refLost := (x).can.refLost } }) := congrArg g h
  exact ⟨f (·.now), f (·.snap), f (·.committedOnce), f (·.staged), f (·.ctrls), f (·.freeIx), f (·.tim), f (·.chutes), f (·.stp), f (·.air),
    f (·.gns), f (·.chiselOut), f (·.ring), f (·.can.mode), f (·.can.failed), f (·.can.offs), f (·.can.cfg), f (·.can.bufs), f (·.can.claimAt),
    f (·.can.heard), f (·.mtr), f (·.drk), f (·.dsp), f (·.pwr), f (·.peer), f (·.com), KeptCyc.of (f (·.cyc)), KeptHost.of (f (·.host)),
    KeptRcd.of (f (·.rcd)), KeptTlg.of (f (·.tlg))⟩

@[simp] theorem refTake_rest (d : Dev) (c : Nat) (f : CanFrame) : (d.refTake c f).rest =
    { d.rest with can := (d.refTake c f).can } := by
  have h := (refTake_spec d c f).1
  generalize d.refTake c f = x at h ⊢
  have f {α : Type} (g : Dev → α) : g x.rest = g ({ d.rest with can := { d.can with refLast := (x).can.refLast, refLost := (x).can.refLost } }) := congrArg g h
  exact dev_ext (f (·.now)) rfl (f (·.snap)) (f (·.committedOnce)) rfl (f (·.staged)) (f (·.ctrls)) rfl (f (·.freeIx)) (f (·.tim)) (f (·.cyc)) (f (·.host))
    (f (·.chutes)) (f (·.rcd)) (f (·.stp)) (f (·.air)) (f (·.gns)) (f (·.chiselOut)) (f (·.ring)) rfl (f (·.mtr)) (f (·.drk)) (f (·.dsp))
    (f (·.tlg)) (f (·.pwr)) (f (·.peer)) (f (·.com))

theorem refTake_reads (d : Dev) (c : Nat) (f : CanFrame) : ∀ id jq, reportItem id = false → id ≠ P.CAN_REF_OFFSET → id ≠ P.CAN_REF_SEQ → id ≠ P.CAN_REF_MISSED →
    (d.refTake c f).rd id jq = d.rd id jq ∧ (d.refTake c f).isSticky id jq = d.isSticky id jq ∧ (d.refTake c f).cf id jq = d.cf id jq := by
  intro id jq hr h0 h1 h2
  have h := (refTake_spec d c f).2 id jq hr (by simp) (by simp [regKey_ne, h0, Ne.symm h0, h1, Ne.symm h1, h2, Ne.symm h2])
  have e : (d.refTake c f).staged = d.staged := by simp
  refine ⟨h.1, h.2, ?_⟩
  simp only [Dev.cf, e, h.1]

theorem refTake_at (d : Dev) (c : Nat) (f : CanFrame) : ∀ id jq, reportItem id = false  → regKey P.CAN_REF_OFFSET c ≠ regKey id jq → regKey P.CAN_REF_SEQ c ≠ regKey id jq → regKey P.CAN_REF_MISSED c ≠ regKey id jq →
    (d.refTake c f).rd id jq = d.rd id jq ∧ (d.refTake c f).isSticky id jq = d.isSticky id jq ∧ (d.refTake c f).cf id jq = d.cf id jq := by
  intro id jq hr h0 h1 h2
  have h := (refTake_spec d c f).2 id jq hr (by simp) (by simp [h0, h1, h2])
  have e : (d.refTake c f).staged = d.staged := by simp
  refine ⟨h.1, h.2, ?_⟩
  simp only [Dev.cf, e, h.1]

theorem itemsBut_refTake {ids : List Nat} {ks : List (Nat × Nat)} (d e : Dev) (c : Nat) (f : CanFrame) (m0 : P.CAN_REF_OFFSET ∈ ids ∨ (P.CAN_REF_OFFSET, c) ∈ ks) (m1 : P.CAN_REF_SEQ ∈ ids ∨ (P.CAN_REF_SEQ, c) ∈ ks) (m2 : P.CAN_REF_MISSED ∈ ids ∨ (P.CAN_REF_MISSED, c) ∈ ks) :
    ItemsBut ids ks (d.refTake c f) e ↔ ItemsBut ids ks d e :=
  itemsBut_congr ((refTake_spec d c f).2.mono (by simp) (by simp [m0, m1, m2])) e

/-! ### Derrick -/

/-- The Derrick's state changed. -/
theorem drkSt_spec (d : Dev) (f : DrkSt → DrkSt) : (d.drkSt f).rest = { d.rest with drk := (d.drkSt f).drk } ∧
    ItemsBut [] [] (d.drkSt f) d := by
  exact ⟨rfl, fun _ _ _ _ _ => ⟨rfl, rfl⟩⟩

@[simp] theorem drkSt_fields (d : Dev) (f : DrkSt → DrkSt) :
    (d.drkSt f).now = d.now ∧ (d.drkSt f).snap = d.snap ∧ (d.drkSt f).committedOnce = d.committedOnce ∧ (d.drkSt f).staged = d.staged ∧
    (d.drkSt f).ctrls = d.ctrls ∧ (d.drkSt f).freeIx = d.freeIx ∧ (d.drkSt f).tim = d.tim ∧ (d.drkSt f).chutes = d.chutes ∧
    (d.drkSt f).stp = d.stp ∧ (d.drkSt f).air = d.air ∧ (d.drkSt f).gns = d.gns ∧ (d.drkSt f).chiselOut = d.chiselOut ∧
    (d.drkSt f).ring = d.ring ∧ (d.drkSt f).can = d.can ∧ (d.drkSt f).mtr = d.mtr ∧ (d.drkSt f).dsp = d.dsp ∧ (d.drkSt f).pwr = d.pwr ∧
    (d.drkSt f).peer = d.peer ∧ (d.drkSt f).com = d.com ∧ KeptCyc (d.drkSt f).cyc d.cyc ∧ KeptHost (d.drkSt f).host d.host ∧
    KeptRcd (d.drkSt f).rcd d.rcd ∧ KeptTlg (d.drkSt f).tlg d.tlg := by
  have h := (drkSt_spec d f).1
  generalize d.drkSt f = x at h ⊢
  have f {α : Type} (g : Dev → α) : g x.rest = g ({ d.rest with drk := (x).drk }) := congrArg g h
  exact ⟨f (·.now), f (·.snap), f (·.committedOnce), f (·.staged), f (·.ctrls), f (·.freeIx), f (·.tim), f (·.chutes), f (·.stp), f (·.air),
    f (·.gns), f (·.chiselOut), f (·.ring), f (·.can), f (·.mtr), f (·.dsp), f (·.pwr), f (·.peer), f (·.com), KeptCyc.of (f (·.cyc)),
    KeptHost.of (f (·.host)), KeptRcd.of (f (·.rcd)), KeptTlg.of (f (·.tlg))⟩

@[simp] theorem drkSt_rest (d : Dev) (f : DrkSt → DrkSt) : (d.drkSt f).rest =
    { d.rest with drk := (d.drkSt f).drk } := by
  have h := (drkSt_spec d f).1
  generalize d.drkSt f = x at h ⊢
  have f {α : Type} (g : Dev → α) : g x.rest = g ({ d.rest with drk := (x).drk }) := congrArg g h
  exact dev_ext (f (·.now)) rfl (f (·.snap)) (f (·.committedOnce)) rfl (f (·.staged)) (f (·.ctrls)) rfl (f (·.freeIx)) (f (·.tim)) (f (·.cyc)) (f (·.host))
    (f (·.chutes)) (f (·.rcd)) (f (·.stp)) (f (·.air)) (f (·.gns)) (f (·.chiselOut)) (f (·.ring)) (f (·.can)) (f (·.mtr)) rfl (f (·.dsp))
    (f (·.tlg)) (f (·.pwr)) (f (·.peer)) (f (·.com))

theorem drkSt_reads (d : Dev) (f : DrkSt → DrkSt) : ∀ id jq, reportItem id = false  →
    (d.drkSt f).rd id jq = d.rd id jq ∧ (d.drkSt f).isSticky id jq = d.isSticky id jq ∧ (d.drkSt f).cf id jq = d.cf id jq := by
  intro id jq hr 
  have h := (drkSt_spec d f).2 id jq hr (by simp) (by simp)
  have e : (d.drkSt f).staged = d.staged := by simp
  refine ⟨h.1, h.2, ?_⟩
  simp only [Dev.cf, e, h.1]

theorem itemsBut_drkSt {ids : List Nat} {ks : List (Nat × Nat)} (d e : Dev) (f : DrkSt → DrkSt)  :
    ItemsBut ids ks (d.drkSt f) e ↔ ItemsBut ids ks d e :=
  itemsBut_congr ((drkSt_spec d f).2.mono (by simp) (by simp)) e

/-- An axis state set. -/
theorem axisState_spec (d : Dev) (ax new : Nat) : (d.axisState ax new).rest = d.rest ∧
    ItemsBut [] [(P.DRK_STATE, ax)] (d.axisState ax new) d := by
  unfold Dev.axisState
  try simp only []
  repeat' split
  all_goals
    exact ⟨by first | (simp [itemsBut_self, -judge_rest, judge_rest', -timeState_rest, timeState_rest', -takeSeq_rest, takeSeq_rest', -hold_rest, hold_rest', -admit_rest, admit_rest', -input_rest, input_rest', -offer_rest, offer_rest', -stopNotice_rest, stopNotice_rest', -stopEvent_rest, stopEvent_rest', -giveUp_rest, giveUp_rest', -verdict_rest, verdict_rest', -engineFault_rest, engineFault_rest', -ctr_rest, ctr_rest', -beginReset_rest, beginReset_rest', -imageKeep_rest, imageKeep_rest', -imageCopy_rest, imageCopy_rest', -lastWords_rest, lastWords_rest', -placeRec_rest, placeRec_rest', -setTask_rest, setTask_rest', -setCore_rest, setCore_rest', -coreCount_rest, coreCount_rest', -dspRun_rest, dspRun_rest', -dspLeave_rest, dspLeave_rest', -dspHold_rest, dspHold_rest', -dspReady_rest, dspReady_rest', -dspWake_rest, dspWake_rest', -wakeAll_rest, wakeAll_rest', -packetIn_rest, packetIn_rest', -endSession_rest, endSession_rest', -laneInputs_rest, laneInputs_rest', -laneLatch_rest, laneLatch_rest', -laneStop_rest, laneStop_rest', -voterFail_rest, voterFail_rest', -circuitFault_rest, circuitFault_rest', -circuitClear_rest, circuitClear_rest', -outFaultRaise_rest, outFaultRaise_rest', -outputs_rest, outputs_rest', -permitNotice_rest, permitNotice_rest', -startSeries_rest, startSeries_rest', -compareLanes_rest, compareLanes_rest', -voterTick_rest, voterTick_rest', -sendResync_rest, sendResync_rest', -toShadow_rest, toShadow_rest', -splitResolve_rest, splitResolve_rest', -putBuf_rest, putBuf_rest', -canErrors_rest, canErrors_rest', -canAbort_rest, canAbort_rest', -isoClaim_rest, isoClaim_rest', -isoLose_rest, isoLose_rest', -refTake_rest, refTake_rest']; done) | (simp [itemsBut_self, -judge_rest, judge_rest', -timeState_rest, timeState_rest', -takeSeq_rest, takeSeq_rest', -hold_rest, hold_rest', -admit_rest, admit_rest', -input_rest, input_rest', -offer_rest, offer_rest', -stopNotice_rest, stopNotice_rest', -stopEvent_rest, stopEvent_rest', -giveUp_rest, giveUp_rest', -verdict_rest, verdict_rest', -engineFault_rest, engineFault_rest', -ctr_rest, ctr_rest', -beginReset_rest, beginReset_rest', -imageKeep_rest, imageKeep_rest', -imageCopy_rest, imageCopy_rest', -lastWords_rest, lastWords_rest', -placeRec_rest, placeRec_rest', -setTask_rest, setTask_rest', -setCore_rest, setCore_rest', -coreCount_rest, coreCount_rest', -dspRun_rest, dspRun_rest', -dspLeave_rest, dspLeave_rest', -dspHold_rest, dspHold_rest', -dspReady_rest, dspReady_rest', -dspWake_rest, dspWake_rest', -wakeAll_rest, wakeAll_rest', -packetIn_rest, packetIn_rest', -endSession_rest, endSession_rest', -laneInputs_rest, laneInputs_rest', -laneLatch_rest, laneLatch_rest', -laneStop_rest, laneStop_rest', -voterFail_rest, voterFail_rest', -circuitFault_rest, circuitFault_rest', -circuitClear_rest, circuitClear_rest', -outFaultRaise_rest, outFaultRaise_rest', -outputs_rest, outputs_rest', -permitNotice_rest, permitNotice_rest', -startSeries_rest, startSeries_rest', -compareLanes_rest, compareLanes_rest', -voterTick_rest, voterTick_rest', -sendResync_rest, sendResync_rest', -toShadow_rest, toShadow_rest', -splitResolve_rest, splitResolve_rest', -putBuf_rest, putBuf_rest', -canErrors_rest, canErrors_rest', -canAbort_rest, canAbort_rest', -isoClaim_rest, isoClaim_rest', -isoLose_rest, isoLose_rest', -refTake_rest, refTake_rest']; repeat' (first | rfl | apply And.intro)) | rfl, by simp [itemsBut_wr, itemsBut_inc, itemsBut_addW, itemsBut_maxTo, itemsBut_wrS, itemsBut_judge, itemsBut_timeState, itemsBut_takeSeq, itemsBut_countIn, itemsBut_hold, itemsBut_admit, itemsBut_input, itemsBut_offer, itemsBut_stopNotice, itemsBut_stopEvent, itemsBut_giveUp, itemsBut_verdict, itemsBut_engineFault, itemsBut_ctr, itemsBut_dspTrace, itemsBut_bypass, itemsBut_bypassHw, itemsBut_beginReset, itemsBut_mtrFlush, itemsBut_imageKeep, itemsBut_imageCopy, itemsBut_antState, itemsBut_judgeBias, itemsBut_chainState, itemsBut_showTile, itemsBut_putChan, itemsBut_freeChan, itemsBut_freeWhere, itemsBut_enableChan, itemsBut_place, itemsBut_placeAll, itemsBut_chainsEnable, itemsBut_startTracking, itemsBut_noteGain, itemsBut_stopTracking, itemsBut_snapTrigger, itemsBut_recorder, itemsBut_region, itemsBut_showRegion, itemsBut_lastWords, itemsBut_placeRec, itemsBut_flush, itemsBut_regionLost, itemsBut_setTask, itemsBut_setCore, itemsBut_coreCount, itemsBut_dspRun, itemsBut_dspLeave, itemsBut_dspHold, itemsBut_dspReady, itemsBut_dspWake, itemsBut_wakeAll, itemsBut_chuteTrace, itemsBut_chute, itemsBut_rewind, itemsBut_parityFail, itemsBut_packetIn, itemsBut_noteReply, itemsBut_sessionNote, itemsBut_endSession, itemsBut_laneInputs, itemsBut_laneLatch, itemsBut_laneStop, itemsBut_voterFail, itemsBut_isolate, itemsBut_showLevel, itemsBut_circuitFault, itemsBut_circuitClear, itemsBut_outFaultRaise, itemsBut_sliceFault, itemsBut_showStop, itemsBut_outputs, itemsBut_permitNotice, itemsBut_startSeries, itemsBut_compareLanes, itemsBut_voterTick, itemsBut_unitState, itemsBut_sendResync, itemsBut_toShadow, itemsBut_splitResolve, itemsBut_rng, itemsBut_portState, itemsBut_bypassPorts, itemsBut_ptpJudge, itemsBut_canSt, itemsBut_putBuf, itemsBut_canState, itemsBut_canErrors, itemsBut_canSync, itemsBut_canAbort, itemsBut_isoState, itemsBut_isoSend, itemsBut_isoClaim, itemsBut_isoLose, itemsBut_refTake, itemsBut_drkSt]⟩

@[simp] theorem axisState_fields (d : Dev) (ax new : Nat) :
    (d.axisState ax new).now = d.now ∧ (d.axisState ax new).snap = d.snap ∧ (d.axisState ax new).committedOnce = d.committedOnce ∧
    (d.axisState ax new).staged = d.staged ∧ (d.axisState ax new).ctrls = d.ctrls ∧ (d.axisState ax new).freeIx = d.freeIx ∧
    (d.axisState ax new).tim = d.tim ∧ (d.axisState ax new).chutes = d.chutes ∧ (d.axisState ax new).stp = d.stp ∧
    (d.axisState ax new).air = d.air ∧ (d.axisState ax new).gns = d.gns ∧ (d.axisState ax new).chiselOut = d.chiselOut ∧
    (d.axisState ax new).ring = d.ring ∧ (d.axisState ax new).can = d.can ∧ (d.axisState ax new).mtr = d.mtr ∧
    (d.axisState ax new).drk = d.drk ∧ (d.axisState ax new).dsp = d.dsp ∧ (d.axisState ax new).pwr = d.pwr ∧
    (d.axisState ax new).peer = d.peer ∧ (d.axisState ax new).com = d.com ∧ KeptCyc (d.axisState ax new).cyc d.cyc ∧
    KeptHost (d.axisState ax new).host d.host ∧ KeptRcd (d.axisState ax new).rcd d.rcd ∧ KeptTlg (d.axisState ax new).tlg d.tlg := by
  have h := (axisState_spec d ax new).1
  generalize d.axisState ax new = x at h ⊢
  have f {α : Type} (g : Dev → α) : g x.rest = g (d.rest) := congrArg g h
  exact ⟨f (·.now), f (·.snap), f (·.committedOnce), f (·.staged), f (·.ctrls), f (·.freeIx), f (·.tim), f (·.chutes), f (·.stp), f (·.air),
    f (·.gns), f (·.chiselOut), f (·.ring), f (·.can), f (·.mtr), f (·.drk), f (·.dsp), f (·.pwr), f (·.peer), f (·.com),
    KeptCyc.of (f (·.cyc)), KeptHost.of (f (·.host)), KeptRcd.of (f (·.rcd)), KeptTlg.of (f (·.tlg))⟩

@[simp] theorem axisState_rest (d : Dev) (ax new : Nat) : (d.axisState ax new).rest =
    d.rest := by
  have h := (axisState_spec d ax new).1
  generalize d.axisState ax new = x at h ⊢
  have f {α : Type} (g : Dev → α) : g x.rest = g (d.rest) := congrArg g h
  exact dev_ext (f (·.now)) rfl (f (·.snap)) (f (·.committedOnce)) rfl (f (·.staged)) (f (·.ctrls)) rfl (f (·.freeIx)) (f (·.tim)) (f (·.cyc)) (f (·.host))
    (f (·.chutes)) (f (·.rcd)) (f (·.stp)) (f (·.air)) (f (·.gns)) (f (·.chiselOut)) (f (·.ring)) (f (·.can)) (f (·.mtr)) (f (·.drk))
    (f (·.dsp)) (f (·.tlg)) (f (·.pwr)) (f (·.peer)) (f (·.com))

theorem axisState_reads (d : Dev) (ax new : Nat) : ∀ id jq, reportItem id = false → id ≠ P.DRK_STATE →
    (d.axisState ax new).rd id jq = d.rd id jq ∧ (d.axisState ax new).isSticky id jq = d.isSticky id jq ∧ (d.axisState ax new).cf id jq = d.cf id jq := by
  intro id jq hr h0
  have h := (axisState_spec d ax new).2 id jq hr (by simp) (by simp [regKey_ne, h0, Ne.symm h0])
  have e : (d.axisState ax new).staged = d.staged := by simp
  refine ⟨h.1, h.2, ?_⟩
  simp only [Dev.cf, e, h.1]

theorem axisState_at (d : Dev) (ax new : Nat) : ∀ id jq, reportItem id = false  → regKey P.DRK_STATE ax ≠ regKey id jq →
    (d.axisState ax new).rd id jq = d.rd id jq ∧ (d.axisState ax new).isSticky id jq = d.isSticky id jq ∧ (d.axisState ax new).cf id jq = d.cf id jq := by
  intro id jq hr h0
  have h := (axisState_spec d ax new).2 id jq hr (by simp) (by simp [h0])
  have e : (d.axisState ax new).staged = d.staged := by simp
  refine ⟨h.1, h.2, ?_⟩
  simp only [Dev.cf, e, h.1]

theorem itemsBut_axisState {ids : List Nat} {ks : List (Nat × Nat)} (d e : Dev) (ax new : Nat) (m0 : P.DRK_STATE ∈ ids ∨ (P.DRK_STATE, ax) ∈ ks) :
    ItemsBut ids ks (d.axisState ax new) e ↔ ItemsBut ids ks d e :=
  itemsBut_congr ((axisState_spec d ax new).2.mono (by simp) (by simp [m0])) e

/-- A line added. -/
theorem addLine_spec (d : Dev) (x : Line) : (d.addLine x).rest = { d.rest with drk := { d.drk with lines := (d.addLine x).drk.lines } } ∧
    ItemsBut [] [] (d.addLine x) d := by
  exact ⟨rfl, fun _ _ _ _ _ => ⟨rfl, rfl⟩⟩

theorem addLine_rest' (d : Dev) (x : Line) : (d.addLine x).rest = { d.rest with drk := { d.drk with lines := (d.addLine x).drk.lines } } := (addLine_spec d x).1

@[simp] theorem addLine_fields (d : Dev) (x : Line) :
    (d.addLine x).now = d.now ∧ (d.addLine x).snap = d.snap ∧ (d.addLine x).committedOnce = d.committedOnce ∧ (d.addLine x).staged = d.staged ∧
    (d.addLine x).ctrls = d.ctrls ∧ (d.addLine x).freeIx = d.freeIx ∧ (d.addLine x).tim = d.tim ∧ (d.addLine x).chutes = d.chutes ∧
    (d.addLine x).stp = d.stp ∧ (d.addLine x).air = d.air ∧ (d.addLine x).gns = d.gns ∧ (d.addLine x).chiselOut = d.chiselOut ∧
    (d.addLine x).ring = d.ring ∧ (d.addLine x).can = d.can ∧ (d.addLine x).mtr = d.mtr ∧ (d.addLine x).drk.homed = d.drk.homed ∧
    (d.addLine x).drk.waiting = d.drk.waiting ∧ (d.addLine x).drk.limits = d.drk.limits ∧ (d.addLine x).drk.chatter = d.drk.chatter ∧
    (d.addLine x).drk.ferr = d.drk.ferr ∧ (d.addLine x).drk.inbox = d.drk.inbox ∧ (d.addLine x).drk.gantry = d.drk.gantry ∧
    (d.addLine x).drk.failed = d.drk.failed ∧ (d.addLine x).dsp = d.dsp ∧ (d.addLine x).pwr = d.pwr ∧ (d.addLine x).peer = d.peer ∧
    (d.addLine x).com = d.com ∧ KeptCyc (d.addLine x).cyc d.cyc ∧ KeptHost (d.addLine x).host d.host ∧ KeptRcd (d.addLine x).rcd d.rcd ∧
    KeptTlg (d.addLine x).tlg d.tlg := by
  have h := (addLine_spec d x).1
  generalize d.addLine x = x at h ⊢
  have f {α : Type} (g : Dev → α) : g x.rest = g ({ d.rest with drk := { d.drk with lines := (x).drk.lines } }) := congrArg g h
  exact ⟨f (·.now), f (·.snap), f (·.committedOnce), f (·.staged), f (·.ctrls), f (·.freeIx), f (·.tim), f (·.chutes), f (·.stp), f (·.air),
    f (·.gns), f (·.chiselOut), f (·.ring), f (·.can), f (·.mtr), f (·.drk.homed), f (·.drk.waiting), f (·.drk.limits), f (·.drk.chatter),
    f (·.drk.ferr), f (·.drk.inbox), f (·.drk.gantry), f (·.drk.failed), f (·.dsp), f (·.pwr), f (·.peer), f (·.com), KeptCyc.of (f (·.cyc)),
    KeptHost.of (f (·.host)), KeptRcd.of (f (·.rcd)), KeptTlg.of (f (·.tlg))⟩

@[simp] theorem addLine_rest (d : Dev) (x : Line) : (d.addLine x).rest =
    { d.rest with drk := (d.addLine x).drk } := by
  have h := (addLine_spec d x).1
  generalize d.addLine x = x at h ⊢
  have f {α : Type} (g : Dev → α) : g x.rest = g ({ d.rest with drk := { d.drk with lines := (x).drk.lines } }) := congrArg g h
  exact dev_ext (f (·.now)) rfl (f (·.snap)) (f (·.committedOnce)) rfl (f (·.staged)) (f (·.ctrls)) rfl (f (·.freeIx)) (f (·.tim)) (f (·.cyc)) (f (·.host))
    (f (·.chutes)) (f (·.rcd)) (f (·.stp)) (f (·.air)) (f (·.gns)) (f (·.chiselOut)) (f (·.ring)) (f (·.can)) (f (·.mtr)) rfl (f (·.dsp))
    (f (·.tlg)) (f (·.pwr)) (f (·.peer)) (f (·.com))

theorem addLine_reads (d : Dev) (x : Line) : ∀ id jq, reportItem id = false  →
    (d.addLine x).rd id jq = d.rd id jq ∧ (d.addLine x).isSticky id jq = d.isSticky id jq ∧ (d.addLine x).cf id jq = d.cf id jq := by
  intro id jq hr 
  have h := (addLine_spec d x).2 id jq hr (by simp) (by simp)
  have e : (d.addLine x).staged = d.staged := by simp
  refine ⟨h.1, h.2, ?_⟩
  simp only [Dev.cf, e, h.1]

theorem itemsBut_addLine {ids : List Nat} {ks : List (Nat × Nat)} (d e : Dev) (x : Line)  :
    ItemsBut ids ks (d.addLine x) e ↔ ItemsBut ids ks d e :=
  itemsBut_congr ((addLine_spec d x).2.mono (by simp) (by simp)) e

/-- Lines brought to rest. -/
theorem haltLines_spec (d : Dev) (mask : Nat) (rate : Line → Nat) : (d.haltLines mask rate).rest = { d.rest with drk := { d.drk with lines := (d.haltLines mask rate).drk.lines } } ∧
    ItemsBut [] [] (d.haltLines mask rate) d := by
  exact ⟨rfl, fun _ _ _ _ _ => ⟨rfl, rfl⟩⟩

theorem haltLines_rest' (d : Dev) (mask : Nat) (rate : Line → Nat) : (d.haltLines mask rate).rest = { d.rest with drk := { d.drk with lines := (d.haltLines mask rate).drk.lines } } := (haltLines_spec d mask rate).1

@[simp] theorem haltLines_fields (d : Dev) (mask : Nat) (rate : Line → Nat) :
    (d.haltLines mask rate).now = d.now ∧ (d.haltLines mask rate).snap = d.snap ∧ (d.haltLines mask rate).committedOnce = d.committedOnce ∧
    (d.haltLines mask rate).staged = d.staged ∧ (d.haltLines mask rate).ctrls = d.ctrls ∧ (d.haltLines mask rate).freeIx = d.freeIx ∧
    (d.haltLines mask rate).tim = d.tim ∧ (d.haltLines mask rate).chutes = d.chutes ∧ (d.haltLines mask rate).stp = d.stp ∧
    (d.haltLines mask rate).air = d.air ∧ (d.haltLines mask rate).gns = d.gns ∧ (d.haltLines mask rate).chiselOut = d.chiselOut ∧
    (d.haltLines mask rate).ring = d.ring ∧ (d.haltLines mask rate).can = d.can ∧ (d.haltLines mask rate).mtr = d.mtr ∧
    (d.haltLines mask rate).drk.homed = d.drk.homed ∧ (d.haltLines mask rate).drk.waiting = d.drk.waiting ∧
    (d.haltLines mask rate).drk.limits = d.drk.limits ∧ (d.haltLines mask rate).drk.chatter = d.drk.chatter ∧
    (d.haltLines mask rate).drk.ferr = d.drk.ferr ∧ (d.haltLines mask rate).drk.inbox = d.drk.inbox ∧
    (d.haltLines mask rate).drk.gantry = d.drk.gantry ∧ (d.haltLines mask rate).drk.failed = d.drk.failed ∧
    (d.haltLines mask rate).dsp = d.dsp ∧ (d.haltLines mask rate).pwr = d.pwr ∧ (d.haltLines mask rate).peer = d.peer ∧
    (d.haltLines mask rate).com = d.com ∧ KeptCyc (d.haltLines mask rate).cyc d.cyc ∧ KeptHost (d.haltLines mask rate).host d.host ∧
    KeptRcd (d.haltLines mask rate).rcd d.rcd ∧ KeptTlg (d.haltLines mask rate).tlg d.tlg := by
  have h := (haltLines_spec d mask rate).1
  generalize d.haltLines mask rate = x at h ⊢
  have f {α : Type} (g : Dev → α) : g x.rest = g ({ d.rest with drk := { d.drk with lines := (x).drk.lines } }) := congrArg g h
  exact ⟨f (·.now), f (·.snap), f (·.committedOnce), f (·.staged), f (·.ctrls), f (·.freeIx), f (·.tim), f (·.chutes), f (·.stp), f (·.air),
    f (·.gns), f (·.chiselOut), f (·.ring), f (·.can), f (·.mtr), f (·.drk.homed), f (·.drk.waiting), f (·.drk.limits), f (·.drk.chatter),
    f (·.drk.ferr), f (·.drk.inbox), f (·.drk.gantry), f (·.drk.failed), f (·.dsp), f (·.pwr), f (·.peer), f (·.com), KeptCyc.of (f (·.cyc)),
    KeptHost.of (f (·.host)), KeptRcd.of (f (·.rcd)), KeptTlg.of (f (·.tlg))⟩

@[simp] theorem haltLines_rest (d : Dev) (mask : Nat) (rate : Line → Nat) : (d.haltLines mask rate).rest =
    { d.rest with drk := (d.haltLines mask rate).drk } := by
  have h := (haltLines_spec d mask rate).1
  generalize d.haltLines mask rate = x at h ⊢
  have f {α : Type} (g : Dev → α) : g x.rest = g ({ d.rest with drk := { d.drk with lines := (x).drk.lines } }) := congrArg g h
  exact dev_ext (f (·.now)) rfl (f (·.snap)) (f (·.committedOnce)) rfl (f (·.staged)) (f (·.ctrls)) rfl (f (·.freeIx)) (f (·.tim)) (f (·.cyc)) (f (·.host))
    (f (·.chutes)) (f (·.rcd)) (f (·.stp)) (f (·.air)) (f (·.gns)) (f (·.chiselOut)) (f (·.ring)) (f (·.can)) (f (·.mtr)) rfl (f (·.dsp))
    (f (·.tlg)) (f (·.pwr)) (f (·.peer)) (f (·.com))

theorem haltLines_reads (d : Dev) (mask : Nat) (rate : Line → Nat) : ∀ id jq, reportItem id = false  →
    (d.haltLines mask rate).rd id jq = d.rd id jq ∧ (d.haltLines mask rate).isSticky id jq = d.isSticky id jq ∧ (d.haltLines mask rate).cf id jq = d.cf id jq := by
  intro id jq hr 
  have h := (haltLines_spec d mask rate).2 id jq hr (by simp) (by simp)
  have e : (d.haltLines mask rate).staged = d.staged := by simp
  refine ⟨h.1, h.2, ?_⟩
  simp only [Dev.cf, e, h.1]

theorem itemsBut_haltLines {ids : List Nat} {ks : List (Nat × Nat)} (d e : Dev) (mask : Nat) (rate : Line → Nat)  :
    ItemsBut ids ks (d.haltLines mask rate) e ↔ ItemsBut ids ks d e :=
  itemsBut_congr ((haltLines_spec d mask rate).2.mono (by simp) (by simp)) e

/-- Homing begins. -/
theorem homeAxis_spec (d : Dev) (ax : Nat) : (d.homeAxis ax).rest = { d.rest with drk := { d.drk with lines := (d.homeAxis ax).drk.lines, homed := (d.homeAxis ax).drk.homed } } ∧
    ItemsBut [] [(P.DRK_STATE, ax)] (d.homeAxis ax) d := by
  unfold Dev.homeAxis Dev.drkSt
  try simp only []
  repeat' split
  all_goals
    exact ⟨by first | (simp [itemsBut_self, -judge_rest, judge_rest', -timeState_rest, timeState_rest', -takeSeq_rest, takeSeq_rest', -hold_rest, hold_rest', -admit_rest, admit_rest', -input_rest, input_rest', -offer_rest, offer_rest', -stopNotice_rest, stopNotice_rest', -stopEvent_rest, stopEvent_rest', -giveUp_rest, giveUp_rest', -verdict_rest, verdict_rest', -engineFault_rest, engineFault_rest', -ctr_rest, ctr_rest', -beginReset_rest, beginReset_rest', -imageKeep_rest, imageKeep_rest', -imageCopy_rest, imageCopy_rest', -lastWords_rest, lastWords_rest', -placeRec_rest, placeRec_rest', -setTask_rest, setTask_rest', -setCore_rest, setCore_rest', -coreCount_rest, coreCount_rest', -dspRun_rest, dspRun_rest', -dspLeave_rest, dspLeave_rest', -dspHold_rest, dspHold_rest', -dspReady_rest, dspReady_rest', -dspWake_rest, dspWake_rest', -wakeAll_rest, wakeAll_rest', -packetIn_rest, packetIn_rest', -endSession_rest, endSession_rest', -laneInputs_rest, laneInputs_rest', -laneLatch_rest, laneLatch_rest', -laneStop_rest, laneStop_rest', -voterFail_rest, voterFail_rest', -circuitFault_rest, circuitFault_rest', -circuitClear_rest, circuitClear_rest', -outFaultRaise_rest, outFaultRaise_rest', -outputs_rest, outputs_rest', -permitNotice_rest, permitNotice_rest', -startSeries_rest, startSeries_rest', -compareLanes_rest, compareLanes_rest', -voterTick_rest, voterTick_rest', -sendResync_rest, sendResync_rest', -toShadow_rest, toShadow_rest', -splitResolve_rest, splitResolve_rest', -putBuf_rest, putBuf_rest', -canErrors_rest, canErrors_rest', -canAbort_rest, canAbort_rest', -isoClaim_rest, isoClaim_rest', -isoLose_rest, isoLose_rest', -refTake_rest, refTake_rest', -addLine_rest, addLine_rest', -haltLines_rest, haltLines_rest']; done) | (simp [itemsBut_self, -judge_rest, judge_rest', -timeState_rest, timeState_rest', -takeSeq_rest, takeSeq_rest', -hold_rest, hold_rest', -admit_rest, admit_rest', -input_rest, input_rest', -offer_rest, offer_rest', -stopNotice_rest, stopNotice_rest', -stopEvent_rest, stopEvent_rest', -giveUp_rest, giveUp_rest', -verdict_rest, verdict_rest', -engineFault_rest, engineFault_rest', -ctr_rest, ctr_rest', -beginReset_rest, beginReset_rest', -imageKeep_rest, imageKeep_rest', -imageCopy_rest, imageCopy_rest', -lastWords_rest, lastWords_rest', -placeRec_rest, placeRec_rest', -setTask_rest, setTask_rest', -setCore_rest, setCore_rest', -coreCount_rest, coreCount_rest', -dspRun_rest, dspRun_rest', -dspLeave_rest, dspLeave_rest', -dspHold_rest, dspHold_rest', -dspReady_rest, dspReady_rest', -dspWake_rest, dspWake_rest', -wakeAll_rest, wakeAll_rest', -packetIn_rest, packetIn_rest', -endSession_rest, endSession_rest', -laneInputs_rest, laneInputs_rest', -laneLatch_rest, laneLatch_rest', -laneStop_rest, laneStop_rest', -voterFail_rest, voterFail_rest', -circuitFault_rest, circuitFault_rest', -circuitClear_rest, circuitClear_rest', -outFaultRaise_rest, outFaultRaise_rest', -outputs_rest, outputs_rest', -permitNotice_rest, permitNotice_rest', -startSeries_rest, startSeries_rest', -compareLanes_rest, compareLanes_rest', -voterTick_rest, voterTick_rest', -sendResync_rest, sendResync_rest', -toShadow_rest, toShadow_rest', -splitResolve_rest, splitResolve_rest', -putBuf_rest, putBuf_rest', -canErrors_rest, canErrors_rest', -canAbort_rest, canAbort_rest', -isoClaim_rest, isoClaim_rest', -isoLose_rest, isoLose_rest', -refTake_rest, refTake_rest', -addLine_rest, addLine_rest', -haltLines_rest, haltLines_rest']; repeat' (first | rfl | apply And.intro)) | rfl, by simp [itemsBut_wr, itemsBut_inc, itemsBut_addW, itemsBut_maxTo, itemsBut_wrS, itemsBut_judge, itemsBut_timeState, itemsBut_takeSeq, itemsBut_countIn, itemsBut_hold, itemsBut_admit, itemsBut_input, itemsBut_offer, itemsBut_stopNotice, itemsBut_stopEvent, itemsBut_giveUp, itemsBut_verdict, itemsBut_engineFault, itemsBut_ctr, itemsBut_dspTrace, itemsBut_bypass, itemsBut_bypassHw, itemsBut_beginReset, itemsBut_mtrFlush, itemsBut_imageKeep, itemsBut_imageCopy, itemsBut_antState, itemsBut_judgeBias, itemsBut_chainState, itemsBut_showTile, itemsBut_putChan, itemsBut_freeChan, itemsBut_freeWhere, itemsBut_enableChan, itemsBut_place, itemsBut_placeAll, itemsBut_chainsEnable, itemsBut_startTracking, itemsBut_noteGain, itemsBut_stopTracking, itemsBut_snapTrigger, itemsBut_recorder, itemsBut_region, itemsBut_showRegion, itemsBut_lastWords, itemsBut_placeRec, itemsBut_flush, itemsBut_regionLost, itemsBut_setTask, itemsBut_setCore, itemsBut_coreCount, itemsBut_dspRun, itemsBut_dspLeave, itemsBut_dspHold, itemsBut_dspReady, itemsBut_dspWake, itemsBut_wakeAll, itemsBut_chuteTrace, itemsBut_chute, itemsBut_rewind, itemsBut_parityFail, itemsBut_packetIn, itemsBut_noteReply, itemsBut_sessionNote, itemsBut_endSession, itemsBut_laneInputs, itemsBut_laneLatch, itemsBut_laneStop, itemsBut_voterFail, itemsBut_isolate, itemsBut_showLevel, itemsBut_circuitFault, itemsBut_circuitClear, itemsBut_outFaultRaise, itemsBut_sliceFault, itemsBut_showStop, itemsBut_outputs, itemsBut_permitNotice, itemsBut_startSeries, itemsBut_compareLanes, itemsBut_voterTick, itemsBut_unitState, itemsBut_sendResync, itemsBut_toShadow, itemsBut_splitResolve, itemsBut_rng, itemsBut_portState, itemsBut_bypassPorts, itemsBut_ptpJudge, itemsBut_canSt, itemsBut_putBuf, itemsBut_canState, itemsBut_canErrors, itemsBut_canSync, itemsBut_canAbort, itemsBut_isoState, itemsBut_isoSend, itemsBut_isoClaim, itemsBut_isoLose, itemsBut_refTake, itemsBut_drkSt, itemsBut_axisState, itemsBut_addLine, itemsBut_haltLines]⟩

theorem homeAxis_rest' (d : Dev) (ax : Nat) : (d.homeAxis ax).rest = { d.rest with drk := { d.drk with lines := (d.homeAxis ax).drk.lines, homed := (d.homeAxis ax).drk.homed } } := (homeAxis_spec d ax).1

@[simp] theorem homeAxis_fields (d : Dev) (ax : Nat) :
    (d.homeAxis ax).now = d.now ∧ (d.homeAxis ax).snap = d.snap ∧ (d.homeAxis ax).committedOnce = d.committedOnce ∧
    (d.homeAxis ax).staged = d.staged ∧ (d.homeAxis ax).ctrls = d.ctrls ∧ (d.homeAxis ax).freeIx = d.freeIx ∧ (d.homeAxis ax).tim = d.tim ∧
    (d.homeAxis ax).chutes = d.chutes ∧ (d.homeAxis ax).stp = d.stp ∧ (d.homeAxis ax).air = d.air ∧ (d.homeAxis ax).gns = d.gns ∧
    (d.homeAxis ax).chiselOut = d.chiselOut ∧ (d.homeAxis ax).ring = d.ring ∧ (d.homeAxis ax).can = d.can ∧ (d.homeAxis ax).mtr = d.mtr ∧
    (d.homeAxis ax).drk.waiting = d.drk.waiting ∧ (d.homeAxis ax).drk.limits = d.drk.limits ∧ (d.homeAxis ax).drk.chatter = d.drk.chatter ∧
    (d.homeAxis ax).drk.ferr = d.drk.ferr ∧ (d.homeAxis ax).drk.inbox = d.drk.inbox ∧ (d.homeAxis ax).drk.gantry = d.drk.gantry ∧
    (d.homeAxis ax).drk.failed = d.drk.failed ∧ (d.homeAxis ax).dsp = d.dsp ∧ (d.homeAxis ax).pwr = d.pwr ∧ (d.homeAxis ax).peer = d.peer ∧
    (d.homeAxis ax).com = d.com ∧ KeptCyc (d.homeAxis ax).cyc d.cyc ∧ KeptHost (d.homeAxis ax).host d.host ∧ KeptRcd (d.homeAxis ax).rcd d.rcd ∧
    KeptTlg (d.homeAxis ax).tlg d.tlg := by
  have h := (homeAxis_spec d ax).1
  generalize d.homeAxis ax = x at h ⊢
  have f {α : Type} (g : Dev → α) : g x.rest = g ({ d.rest with drk := { d.drk with lines := (x).drk.lines, homed := (x).drk.homed } }) := congrArg g h
  exact ⟨f (·.now), f (·.snap), f (·.committedOnce), f (·.staged), f (·.ctrls), f (·.freeIx), f (·.tim), f (·.chutes), f (·.stp), f (·.air),
    f (·.gns), f (·.chiselOut), f (·.ring), f (·.can), f (·.mtr), f (·.drk.waiting), f (·.drk.limits), f (·.drk.chatter), f (·.drk.ferr),
    f (·.drk.inbox), f (·.drk.gantry), f (·.drk.failed), f (·.dsp), f (·.pwr), f (·.peer), f (·.com), KeptCyc.of (f (·.cyc)),
    KeptHost.of (f (·.host)), KeptRcd.of (f (·.rcd)), KeptTlg.of (f (·.tlg))⟩

@[simp] theorem homeAxis_rest (d : Dev) (ax : Nat) : (d.homeAxis ax).rest =
    { d.rest with drk := (d.homeAxis ax).drk } := by
  have h := (homeAxis_spec d ax).1
  generalize d.homeAxis ax = x at h ⊢
  have f {α : Type} (g : Dev → α) : g x.rest = g ({ d.rest with drk := { d.drk with lines := (x).drk.lines, homed := (x).drk.homed } }) := congrArg g h
  exact dev_ext (f (·.now)) rfl (f (·.snap)) (f (·.committedOnce)) rfl (f (·.staged)) (f (·.ctrls)) rfl (f (·.freeIx)) (f (·.tim)) (f (·.cyc)) (f (·.host))
    (f (·.chutes)) (f (·.rcd)) (f (·.stp)) (f (·.air)) (f (·.gns)) (f (·.chiselOut)) (f (·.ring)) (f (·.can)) (f (·.mtr)) rfl (f (·.dsp))
    (f (·.tlg)) (f (·.pwr)) (f (·.peer)) (f (·.com))

theorem homeAxis_reads (d : Dev) (ax : Nat) : ∀ id jq, reportItem id = false → id ≠ P.DRK_STATE →
    (d.homeAxis ax).rd id jq = d.rd id jq ∧ (d.homeAxis ax).isSticky id jq = d.isSticky id jq ∧ (d.homeAxis ax).cf id jq = d.cf id jq := by
  intro id jq hr h0
  have h := (homeAxis_spec d ax).2 id jq hr (by simp) (by simp [regKey_ne, h0, Ne.symm h0])
  have e : (d.homeAxis ax).staged = d.staged := by simp
  refine ⟨h.1, h.2, ?_⟩
  simp only [Dev.cf, e, h.1]

theorem homeAxis_at (d : Dev) (ax : Nat) : ∀ id jq, reportItem id = false  → regKey P.DRK_STATE ax ≠ regKey id jq →
    (d.homeAxis ax).rd id jq = d.rd id jq ∧ (d.homeAxis ax).isSticky id jq = d.isSticky id jq ∧ (d.homeAxis ax).cf id jq = d.cf id jq := by
  intro id jq hr h0
  have h := (homeAxis_spec d ax).2 id jq hr (by simp) (by simp [h0])
  have e : (d.homeAxis ax).staged = d.staged := by simp
  refine ⟨h.1, h.2, ?_⟩
  simp only [Dev.cf, e, h.1]

theorem itemsBut_homeAxis {ids : List Nat} {ks : List (Nat × Nat)} (d e : Dev) (ax : Nat) (m0 : P.DRK_STATE ∈ ids ∨ (P.DRK_STATE, ax) ∈ ks) :
    ItemsBut ids ks (d.homeAxis ax) e ↔ ItemsBut ids ks d e :=
  itemsBut_congr ((homeAxis_spec d ax).2.mono (by simp) (by simp [m0])) e

/-- Axes shown STOPPING. -/
theorem showStopping_spec (d : Dev) (mask : Nat) : (d.showStopping mask).rest = d.rest ∧
    ItemsBut [P.DRK_STATE] [] (d.showStopping mask) d := by
  unfold Dev.showStopping
  have s1 : ∀ (x : Dev) a, (((fun (d : Dev) ax => d.when (d.rd P.DRK_STATE ax == 4) (·.axisState ax 5)) x a).rest : Dev) = x.rest ∧ ItemsBut [P.DRK_STATE] [] ((fun (d : Dev) ax => d.when (d.rd P.DRK_STATE ax == 4) (·.axisState ax 5)) x a) x := by
    intro x a
    simp only [Dev.when]
    repeat' split
    all_goals exact ⟨by first | (simp; done) | rfl, by simp [itemsBut_wr, itemsBut_inc, itemsBut_addW, itemsBut_maxTo, itemsBut_wrS, itemsBut_judge, itemsBut_timeState, itemsBut_takeSeq, itemsBut_countIn, itemsBut_hold, itemsBut_admit, itemsBut_input, itemsBut_offer, itemsBut_stopNotice, itemsBut_stopEvent, itemsBut_giveUp, itemsBut_verdict, itemsBut_engineFault, itemsBut_ctr, itemsBut_dspTrace, itemsBut_bypass, itemsBut_bypassHw, itemsBut_beginReset, itemsBut_mtrFlush, itemsBut_imageKeep, itemsBut_imageCopy, itemsBut_antState, itemsBut_judgeBias, itemsBut_chainState, itemsBut_showTile, itemsBut_putChan, itemsBut_freeChan, itemsBut_freeWhere, itemsBut_enableChan, itemsBut_place, itemsBut_placeAll, itemsBut_chainsEnable, itemsBut_startTracking, itemsBut_noteGain, itemsBut_stopTracking, itemsBut_snapTrigger, itemsBut_recorder, itemsBut_region, itemsBut_showRegion, itemsBut_lastWords, itemsBut_placeRec, itemsBut_flush, itemsBut_regionLost, itemsBut_setTask, itemsBut_setCore, itemsBut_coreCount, itemsBut_dspRun, itemsBut_dspLeave, itemsBut_dspHold, itemsBut_dspReady, itemsBut_dspWake, itemsBut_wakeAll, itemsBut_chuteTrace, itemsBut_chute, itemsBut_rewind, itemsBut_parityFail, itemsBut_packetIn, itemsBut_noteReply, itemsBut_sessionNote, itemsBut_endSession, itemsBut_laneInputs, itemsBut_laneLatch, itemsBut_laneStop, itemsBut_voterFail, itemsBut_isolate, itemsBut_showLevel, itemsBut_circuitFault, itemsBut_circuitClear, itemsBut_outFaultRaise, itemsBut_sliceFault, itemsBut_showStop, itemsBut_outputs, itemsBut_permitNotice, itemsBut_startSeries, itemsBut_compareLanes, itemsBut_voterTick, itemsBut_unitState, itemsBut_sendResync, itemsBut_toShadow, itemsBut_splitResolve, itemsBut_rng, itemsBut_portState, itemsBut_bypassPorts, itemsBut_ptpJudge, itemsBut_canSt, itemsBut_putBuf, itemsBut_canState, itemsBut_canErrors, itemsBut_canSync, itemsBut_canAbort, itemsBut_isoState, itemsBut_isoSend, itemsBut_isoClaim, itemsBut_isoLose, itemsBut_refTake, itemsBut_drkSt, itemsBut_axisState, itemsBut_addLine, itemsBut_haltLines, itemsBut_homeAxis]⟩
  refine ⟨?_, fold_items _ (fun x a => (s1 x a).2) _ _⟩
  have h := foldl_keeps (fun x : Dev => (x.rest : Dev)) (fun (d : Dev) ax => d.when (d.rd P.DRK_STATE ax == 4) (·.axisState ax 5)) (fun x a => (s1 x a).1)
  exact h _ _

@[simp] theorem showStopping_fields (d : Dev) (mask : Nat) :
    (d.showStopping mask).now = d.now ∧ (d.showStopping mask).snap = d.snap ∧ (d.showStopping mask).committedOnce = d.committedOnce ∧
    (d.showStopping mask).staged = d.staged ∧ (d.showStopping mask).ctrls = d.ctrls ∧ (d.showStopping mask).freeIx = d.freeIx ∧
    (d.showStopping mask).tim = d.tim ∧ (d.showStopping mask).chutes = d.chutes ∧ (d.showStopping mask).stp = d.stp ∧
    (d.showStopping mask).air = d.air ∧ (d.showStopping mask).gns = d.gns ∧ (d.showStopping mask).chiselOut = d.chiselOut ∧
    (d.showStopping mask).ring = d.ring ∧ (d.showStopping mask).can = d.can ∧ (d.showStopping mask).mtr = d.mtr ∧
    (d.showStopping mask).drk = d.drk ∧ (d.showStopping mask).dsp = d.dsp ∧ (d.showStopping mask).pwr = d.pwr ∧
    (d.showStopping mask).peer = d.peer ∧ (d.showStopping mask).com = d.com ∧ KeptCyc (d.showStopping mask).cyc d.cyc ∧
    KeptHost (d.showStopping mask).host d.host ∧ KeptRcd (d.showStopping mask).rcd d.rcd ∧ KeptTlg (d.showStopping mask).tlg d.tlg := by
  have h := (showStopping_spec d mask).1
  generalize d.showStopping mask = x at h ⊢
  have f {α : Type} (g : Dev → α) : g x.rest = g (d.rest) := congrArg g h
  exact ⟨f (·.now), f (·.snap), f (·.committedOnce), f (·.staged), f (·.ctrls), f (·.freeIx), f (·.tim), f (·.chutes), f (·.stp), f (·.air),
    f (·.gns), f (·.chiselOut), f (·.ring), f (·.can), f (·.mtr), f (·.drk), f (·.dsp), f (·.pwr), f (·.peer), f (·.com),
    KeptCyc.of (f (·.cyc)), KeptHost.of (f (·.host)), KeptRcd.of (f (·.rcd)), KeptTlg.of (f (·.tlg))⟩

@[simp] theorem showStopping_rest (d : Dev) (mask : Nat) : (d.showStopping mask).rest =
    d.rest := by
  have h := (showStopping_spec d mask).1
  generalize d.showStopping mask = x at h ⊢
  have f {α : Type} (g : Dev → α) : g x.rest = g (d.rest) := congrArg g h
  exact dev_ext (f (·.now)) rfl (f (·.snap)) (f (·.committedOnce)) rfl (f (·.staged)) (f (·.ctrls)) rfl (f (·.freeIx)) (f (·.tim)) (f (·.cyc)) (f (·.host))
    (f (·.chutes)) (f (·.rcd)) (f (·.stp)) (f (·.air)) (f (·.gns)) (f (·.chiselOut)) (f (·.ring)) (f (·.can)) (f (·.mtr)) (f (·.drk))
    (f (·.dsp)) (f (·.tlg)) (f (·.pwr)) (f (·.peer)) (f (·.com))

theorem showStopping_reads (d : Dev) (mask : Nat) : ∀ id jq, reportItem id = false → id ≠ P.DRK_STATE →
    (d.showStopping mask).rd id jq = d.rd id jq ∧ (d.showStopping mask).isSticky id jq = d.isSticky id jq ∧ (d.showStopping mask).cf id jq = d.cf id jq := by
  intro id jq hr h0
  have h := (showStopping_spec d mask).2 id jq hr (by simp [h0, Ne.symm h0]) (by simp)
  have e : (d.showStopping mask).staged = d.staged := by simp
  refine ⟨h.1, h.2, ?_⟩
  simp only [Dev.cf, e, h.1]

theorem itemsBut_showStopping {ids : List Nat} {ks : List (Nat × Nat)} (d e : Dev) (mask : Nat) (m0 : P.DRK_STATE ∈ ids) :
    ItemsBut ids ks (d.showStopping mask) e ↔ ItemsBut ids ks d e :=
  itemsBut_congr ((showStopping_spec d mask).2.mono (by simp [m0]) (by simp)) e

/-- Positions brought up to now. -/
theorem drkSync_spec (d : Dev)  : (d.drkSync).rest = d.rest ∧
    ItemsBut [P.DRK_POS] [] (d.drkSync) d := by
  unfold Dev.drkSync
  have s1 : ∀ (x : Dev) a, (((fun (d : Dev) ax => match d.lineOf ax with | some x => let p := x.posAt ax d.now; if p = d.rdS P.DRK_POS ax then d else (d.wrS P.DRK_POS ax p).emit (.axis ax p) | none => d) x a).rest : Dev) = x.rest ∧ ItemsBut [P.DRK_POS] [] ((fun (d : Dev) ax => match d.lineOf ax with | some x => let p := x.posAt ax d.now; if p = d.rdS P.DRK_POS ax then d else (d.wrS P.DRK_POS ax p).emit (.axis ax p) | none => d) x a) x := by
    intro x a
    simp only [Dev.when]
    repeat' split
    all_goals exact ⟨by first | (simp; done) | rfl, by simp [itemsBut_wr, itemsBut_inc, itemsBut_addW, itemsBut_maxTo, itemsBut_wrS, itemsBut_judge, itemsBut_timeState, itemsBut_takeSeq, itemsBut_countIn, itemsBut_hold, itemsBut_admit, itemsBut_input, itemsBut_offer, itemsBut_stopNotice, itemsBut_stopEvent, itemsBut_giveUp, itemsBut_verdict, itemsBut_engineFault, itemsBut_ctr, itemsBut_dspTrace, itemsBut_bypass, itemsBut_bypassHw, itemsBut_beginReset, itemsBut_mtrFlush, itemsBut_imageKeep, itemsBut_imageCopy, itemsBut_antState, itemsBut_judgeBias, itemsBut_chainState, itemsBut_showTile, itemsBut_putChan, itemsBut_freeChan, itemsBut_freeWhere, itemsBut_enableChan, itemsBut_place, itemsBut_placeAll, itemsBut_chainsEnable, itemsBut_startTracking, itemsBut_noteGain, itemsBut_stopTracking, itemsBut_snapTrigger, itemsBut_recorder, itemsBut_region, itemsBut_showRegion, itemsBut_lastWords, itemsBut_placeRec, itemsBut_flush, itemsBut_regionLost, itemsBut_setTask, itemsBut_setCore, itemsBut_coreCount, itemsBut_dspRun, itemsBut_dspLeave, itemsBut_dspHold, itemsBut_dspReady, itemsBut_dspWake, itemsBut_wakeAll, itemsBut_chuteTrace, itemsBut_chute, itemsBut_rewind, itemsBut_parityFail, itemsBut_packetIn, itemsBut_noteReply, itemsBut_sessionNote, itemsBut_endSession, itemsBut_laneInputs, itemsBut_laneLatch, itemsBut_laneStop, itemsBut_voterFail, itemsBut_isolate, itemsBut_showLevel, itemsBut_circuitFault, itemsBut_circuitClear, itemsBut_outFaultRaise, itemsBut_sliceFault, itemsBut_showStop, itemsBut_outputs, itemsBut_permitNotice, itemsBut_startSeries, itemsBut_compareLanes, itemsBut_voterTick, itemsBut_unitState, itemsBut_sendResync, itemsBut_toShadow, itemsBut_splitResolve, itemsBut_rng, itemsBut_portState, itemsBut_bypassPorts, itemsBut_ptpJudge, itemsBut_canSt, itemsBut_putBuf, itemsBut_canState, itemsBut_canErrors, itemsBut_canSync, itemsBut_canAbort, itemsBut_isoState, itemsBut_isoSend, itemsBut_isoClaim, itemsBut_isoLose, itemsBut_refTake, itemsBut_drkSt, itemsBut_axisState, itemsBut_addLine, itemsBut_haltLines, itemsBut_homeAxis, itemsBut_showStopping]⟩
  refine ⟨?_, fold_items _ (fun x a => (s1 x a).2) _ _⟩
  have h := foldl_keeps (fun x : Dev => (x.rest : Dev)) (fun (d : Dev) ax => match d.lineOf ax with | some x => let p := x.posAt ax d.now; if p = d.rdS P.DRK_POS ax then d else (d.wrS P.DRK_POS ax p).emit (.axis ax p) | none => d) (fun x a => (s1 x a).1)
  exact h _ _

@[simp] theorem drkSync_fields (d : Dev)  :
    (d.drkSync).now = d.now ∧ (d.drkSync).snap = d.snap ∧ (d.drkSync).committedOnce = d.committedOnce ∧ (d.drkSync).staged = d.staged ∧
    (d.drkSync).ctrls = d.ctrls ∧ (d.drkSync).freeIx = d.freeIx ∧ (d.drkSync).tim = d.tim ∧ (d.drkSync).chutes = d.chutes ∧
    (d.drkSync).stp = d.stp ∧ (d.drkSync).air = d.air ∧ (d.drkSync).gns = d.gns ∧ (d.drkSync).chiselOut = d.chiselOut ∧
    (d.drkSync).ring = d.ring ∧ (d.drkSync).can = d.can ∧ (d.drkSync).mtr = d.mtr ∧ (d.drkSync).drk = d.drk ∧ (d.drkSync).dsp = d.dsp ∧
    (d.drkSync).pwr = d.pwr ∧ (d.drkSync).peer = d.peer ∧ (d.drkSync).com = d.com ∧ KeptCyc (d.drkSync).cyc d.cyc ∧
    KeptHost (d.drkSync).host d.host ∧ KeptRcd (d.drkSync).rcd d.rcd ∧ KeptTlg (d.drkSync).tlg d.tlg := by
  have h := (drkSync_spec d ).1
  generalize d.drkSync = x at h ⊢
  have f {α : Type} (g : Dev → α) : g x.rest = g (d.rest) := congrArg g h
  exact ⟨f (·.now), f (·.snap), f (·.committedOnce), f (·.staged), f (·.ctrls), f (·.freeIx), f (·.tim), f (·.chutes), f (·.stp), f (·.air),
    f (·.gns), f (·.chiselOut), f (·.ring), f (·.can), f (·.mtr), f (·.drk), f (·.dsp), f (·.pwr), f (·.peer), f (·.com),
    KeptCyc.of (f (·.cyc)), KeptHost.of (f (·.host)), KeptRcd.of (f (·.rcd)), KeptTlg.of (f (·.tlg))⟩

@[simp] theorem drkSync_rest (d : Dev)  : (d.drkSync).rest =
    d.rest := by
  have h := (drkSync_spec d ).1
  generalize d.drkSync = x at h ⊢
  have f {α : Type} (g : Dev → α) : g x.rest = g (d.rest) := congrArg g h
  exact dev_ext (f (·.now)) rfl (f (·.snap)) (f (·.committedOnce)) rfl (f (·.staged)) (f (·.ctrls)) rfl (f (·.freeIx)) (f (·.tim)) (f (·.cyc)) (f (·.host))
    (f (·.chutes)) (f (·.rcd)) (f (·.stp)) (f (·.air)) (f (·.gns)) (f (·.chiselOut)) (f (·.ring)) (f (·.can)) (f (·.mtr)) (f (·.drk))
    (f (·.dsp)) (f (·.tlg)) (f (·.pwr)) (f (·.peer)) (f (·.com))

theorem drkSync_reads (d : Dev)  : ∀ id jq, reportItem id = false → id ≠ P.DRK_POS →
    (d.drkSync).rd id jq = d.rd id jq ∧ (d.drkSync).isSticky id jq = d.isSticky id jq ∧ (d.drkSync).cf id jq = d.cf id jq := by
  intro id jq hr h0
  have h := (drkSync_spec d ).2 id jq hr (by simp [h0, Ne.symm h0]) (by simp)
  have e : (d.drkSync).staged = d.staged := by simp
  refine ⟨h.1, h.2, ?_⟩
  simp only [Dev.cf, e, h.1]

theorem itemsBut_drkSync {ids : List Nat} {ks : List (Nat × Nat)} (d e : Dev)  (m0 : P.DRK_POS ∈ ids) :
    ItemsBut ids ks (d.drkSync) e ↔ ItemsBut ids ks d e :=
  itemsBut_congr ((drkSync_spec d ).2.mono (by simp [m0]) (by simp)) e

end Sys2Proof
end

