-- ==== Sys2Proof/Tests/Slice0.lean ====
section
/-!
SUPPORT. Tests: that the checks of well-formed commands accept and refuse, the standard functions against their published examples, and for every clause
of the obligations a state and operands that meet its hypotheses together.
-/
set_option linter.unusedVariables false
set_option linter.unusedSimpArgs false
set_option Elab.async false
namespace Sys2Proof.Tests
open Sys2Proof Sys2Proof.Machine

/-! ### Well-formed commands -/

/-- A term of each command that its checks accept. -/
theorem test_wf_accepts_0 : ([
    .get 0 {} [], .set 0 {} [], .getBlock 0 {} 0 0 0 0, .setBlock 0 {} 0 0 [], 
    .close 0 {}, .echo 0 {} [], .restart 0 {}, .subscribe 0 {} 0 0, 
    .authBegin 0 {} 0 (zeros 16), .authProve 0 {} 0 (zeros 32), .loadJobImage 0 {} 0 0 [], .loadCoverageImage 0 {} 0 0 [], 
    .loadFirmwareImage 0 {} 0 0 [], .logRead 0 {} 0 0 0 0, .logClearRequest 0 {} 0, .logClearConfirm 0 {} 0 (zeros 16), 
    .stop 0 {} 0 0 0, .armRelease 0 {} 0 0 0, .release 0 {} 0 0 0, .replayFeed 0 {} 0 0 [], 
    .snapArm 0 {} true, .snapTrigger 0 {} true, .snapExport 0 {} true, .snapDiscard 0 {} true, 
    .snapDisarm 0 {} true, .journalHold 0 {}, .journalRelease 0 {}, .replayEnter 0 {}, 
    .replayLeave 0 {}, .timStep 0 {}, .tpModeWrite 0 {} 0 0, .gnsRunWrite 0 {} 0, 
    .forceCold 0 {}, .staSelftest 0 {}, .refAntWrite 0 {} 0, .jobStart 0 {}, 
    .jobPause 0 {}, .jobUnload 0 {}, .reseat 0 {} 1, .hostResWrite 0 {} 0 []] : List Instr).all Instr.wf = true := by decide +kernel

/-- A term of each command that its checks accept. -/
theorem test_wf_accepts_1 : ([
    .mtrSnap 0 {}, .move 0 {} 0, .axisStop 0 {} 0, .resume 0 {} 0, 
    .home 0 {} 0, .axisClear 0 {} 0, .canStartRecovery 0 {} 0, .canAbortHostBuffers 0 {} 0, 
    .txAbort 0 {} 0, .canBufWrite 0 {} 0 (zeros 88), .canBufRead 0 {} 0 0 0, .airKeyWrite 0 {} 0 (zeros 16), 
    .airRollWrite 0 {} 0 0, .pairKeyWrite 0 {} (zeros 16), .plannedHandover 0 {}, .dpxGiveUp 0 {}, 
    .dpxRestart 0 {}, .tlgClear 0 {} 0, .dormantRequest 0 {}, .provLock 0 {}, 
    .rekey 0 {} 1 (zeros 16), .keyExportRead 0 {} 0 0, .activate 0 {}, .confirm 0 {}, 
    .serialGapTimeout 0 0 0, .huCtsChange 0 true 0, .authChallengeExpire 0 0, .authLockoutEnd 0 {}, 
    .subscriptionLapse 0 {}, .loadIdleAbandon 0 0x20, .chutePacketCommit 0 0 default, .chuteStall 0 0 0, 
    .chuteReadIdleWake 0 0, .chuteFault 0 0, .cycleBoundary 0, .cycleCommit 0 0 0, 
    .trackGenerationDone 0 [] 0, .commitOverrun 0, .commitMissed 0, .timeLoad 0 1 0 0] : List Instr).all Instr.wf = true := by decide +kernel

/-- A term of each command that its checks accept. -/
theorem test_wf_accepts_2 : ([
    .sourceLoss 0 1 0, .sourceQualified 0 1 0 0 0, .timeLocked 0 0 0 0, .slewRemeasure 0 0 0 0, 
    .holdoverSecond 0, .stepApply 0 0 0 0, .leapApply 0 none, .oscillatorFault 0 0 0, 
    .clockMonitorFault 0 1 0 0, .tpModeTakeEffect 0 0, .tpEdge 0 0 0, .eventCapture 0 0 1 0, 
    .rtcSet 0, .antBiasSample 0 0 0 0, .antBiasRetry 0 0 0, .chainSettleEnd 0 0, 
    .chainFault 0 0 1, .chainReenable 0 0, .dumpBoundary 0 0 0 [] 0 true none none 0 true, .epochLatch 0 [], 
    .acqSearchDone 0 0 0 0 0, .pullinTimeout 0 0, .coastExpiry 0 0, .tileFault 0 0 1, 
    .snapCaptureEnd 0 [], .snapExportEnd 0, .jamIndexUpdate 0 0 0, .notchUpdate 0 0 (List.replicate 256 default), 
    .selftestTone 0 0 true 0, .laneTick 0 0 true, .voterTick 0, .voterTest 0 true, 
    .beaconForm 0 0, .beaconSelfListen 0 0 none, .stopCopy 0, .estopEdge 0 0 0 true, 
    .estopTestPulse 0 0 true true none, .estopDiscrepancy 0 0, .canSilence 0 0, .remoteSilence 0 0] : List Instr).all Instr.wf = true := by decide +kernel

/-- A term of each command that its checks accept. -/
theorem test_wf_accepts_3 : ([
    .fenceDeadline 0 0 0, .laneRecordApply 0 0 true, .safeOutTest 0 0 true, .safeFbMismatch 0 0 0 true, 
    .safeFaultClear 0 0, .startupTests 0 0 0 0 0, .airFrameReceive 0 0 0 [], .reasmExpire 0, 
    .airFrameTransmit 0 0 true, .ackReceive 0 0 [], .ackTimeout 0 0, .txQueueExpire 0 0, 
    .synthUnlock 0 0, .keyRollover 0 0, .keyDeliverySend 0 1 0, .linkConfigSend 0 1, 
    .allotmentRepeat 0 0, .heartbeatSend 0, .heartbeatReceive 0 (zeros 44) true 0, .linkFail 0, 
    .linkRestore 0, .peerInput 0 0 default, .peerCopy 0 [] [] default true, .peerCheckpoint 0 default, 
    .resync 0, .peerStopFwd 0 0 0 [], .giveUpReceive 0 0 0, .silentAtBoundary 0, 
    .takeover 0 0 0, .heartbeatLossTakeover 0 true 0 0, .startClaim 0 true, .claimReceive 0 0, 
    .silentRestart 0, .returnRequest 0, .portLinkChange 0 0 true 100 true, .bypassJoin 0, 
    .bypassJoinTimeout 0, .bypassDownRelease 0, .ethFrameForward 0 default, .mrpTopologyChange 0 0 0] : List Instr).all Instr.wf = true := by decide +kernel

/-- A term of each command that its checks accept. -/
theorem test_wf_accepts_4 : ([
    .ptpSyncSend 0, .ptpAnnounceSend 0, .pdelayReqSend 0 0 0, .ptpMessageReceive 0 0 default, 
    .ringFault 0 0 0, .canFrameReceive 0 0 default, .canFrameSent 0 0 0 0 0, .canTxError 0 0 0 0, 
    .canRecoveryStart 0 0, .canRecoveryDone 0 0, .canModeApply 0 0, .canRefSchedule 0 0, 
    .canRefLost 0 0, .isoAddressClaim 0 0 0 0, .canControllerFault 0 0 0, .mtrBlock 0 0 0 0 0 (List.replicate 40 default), 
    .meteringFault 0 0 0, .gantryCommand 0, .axisMoveDone 0 0, .axisStopDone 0 0, 
    .homeInputAccept 0 0, .homeReleaseLatch 0 0, .limitTrip 0 0 true true, .chatter 0 0 0 0, 
    .followingErrorCheck 0 0 0, .derrickFault 0, .taskReady 0 0 0, .corePick 0 0, 
    .holdExpire 0 0, .taskAge 0 0, .taskWait 0 0 1 0 0, .eventPost 0 0, 
    .taskWaitTimeout 0 0, .coreFault 0 0 1, .dispatcherFault 0, .traceSync 0, 
    .logRecordEnter 0 0 0 [], .logFlush 0 0, .logBlockFail 0 0 0 1 [], .logRegionRetry 0 0 true] : List Instr).all Instr.wf = true := by decide +kernel

/-- A term of each command that its checks accept. -/
theorem test_wf_accepts_5 : ([
    .pfailAssert 0, .pfailRelease 0, .railMonitorFault 0 0 0, .brownout 0 0 0 0, 
    .thermalWarning 0 0 0, .thermalVerdict 0 0 0 0, .thermalReset 0 0 0, .resetPin 0 true 0 true, 
    .watchdogReset 0, .coldStart 0 true, .boot 0 true, .recoveryImageWrite 0, 
    .imageCheckDone 0 0, .trialExpire 0, .wake 0 1 true, .dramScrub 0 0, 
    .memoryFault 0 1 0 true, .agcUpdate 0 0 0 0, .canReceiveError 0 0 true, .thermalCleared 0 0 (List.replicate 4 default), 
    .chiselUnitFault 0 0, .slateFault 0, .coverageFault 0, .rekeySessionEnd 0, 
    .stopFwdConfirm 0, .badMailFrame 0 0 0 0 {} []] : List Instr).all Instr.wf = true := by decide +kernel

/-- Terms that fail one check each: an instant, a number, an instance, a length or a frame out of range. -/
theorem test_wf_refuses_0 : ([
    .get (2 ^ 48 * 1000000000) {} [], .get 0 { mbx := 256 } [], .get 0 {} [(65536, 0)], .set (2 ^ 48 * 1000000000) {} [], 
    .set 0 { mbx := 256 } [], .set 0 {} [(65536, 0, [])], .getBlock (2 ^ 48 * 1000000000) {} 0 0 0 0, .getBlock 0 { mbx := 256 } 0 0 0 0, 
    .getBlock 0 {} (2 ^ 16) 0 0 0, .getBlock 0 {} 0 (2 ^ 16) 0 0, .getBlock 0 {} 0 0 (2 ^ 32) 0, .getBlock 0 {} 0 0 0 (2 ^ 16), 
    .setBlock (2 ^ 48 * 1000000000) {} 0 0 [], .setBlock 0 { mbx := 256 } 0 0 [], .setBlock 0 {} (2 ^ 16) 0 [], .setBlock 0 {} 0 (2 ^ 16) [], 
    .close (2 ^ 48 * 1000000000) {}, .close 0 { mbx := 256 }, .echo (2 ^ 48 * 1000000000) {} [], .echo 0 { mbx := 256 } [], 
    .restart (2 ^ 48 * 1000000000) {}, .restart 0 { mbx := 256 }, .subscribe (2 ^ 48 * 1000000000) {} 0 0, .subscribe 0 { mbx := 256 } 0 0, 
    .subscribe 0 {} (2 ^ 8) 0, .subscribe 0 {} 0 (2), .authBegin (2 ^ 48 * 1000000000) {} 0 (zeros 16), .authBegin 0 { mbx := 256 } 0 (zeros 16), 
    .authBegin 0 {} (2 ^ 8) (zeros 16), .authBegin 0 {} 0 [], .authProve (2 ^ 48 * 1000000000) {} 0 (zeros 32), .authProve 0 { mbx := 256 } 0 (zeros 32), 
    .authProve 0 {} (2 ^ 8) (zeros 32), .authProve 0 {} 0 [], .loadJobImage (2 ^ 48 * 1000000000) {} 0 0 [], .loadJobImage 0 { mbx := 256 } 0 0 [], 
    .loadJobImage 0 {} (2 ^ 32) 0 [], .loadJobImage 0 {} 0 (2 ^ 32) [], .loadCoverageImage (2 ^ 48 * 1000000000) {} 0 0 [], .loadCoverageImage 0 { mbx := 256 } 0 0 []] : List Instr).all (fun c => !c.wf) = true := by decide +kernel

/-- Terms that fail one check each: an instant, a number, an instance, a length or a frame out of range. -/
theorem test_wf_refuses_1 : ([
    .loadCoverageImage 0 {} (2 ^ 32) 0 [], .loadCoverageImage 0 {} 0 (2 ^ 32) [], .loadFirmwareImage (2 ^ 48 * 1000000000) {} 0 0 [], .loadFirmwareImage 0 { mbx := 256 } 0 0 [], 
    .loadFirmwareImage 0 {} (2 ^ 32) 0 [], .loadFirmwareImage 0 {} 0 (2 ^ 32) [], .logRead (2 ^ 48 * 1000000000) {} 0 0 0 0, .logRead 0 { mbx := 256 } 0 0 0 0, 
    .logRead 0 {} (2 ^ 8) 0 0 0, .logRead 0 {} 0 (2 ^ 32) 0 0, .logRead 0 {} 0 0 (2 ^ 32) 0, .logRead 0 {} 0 0 0 (2 ^ 16), 
    .logClearRequest (2 ^ 48 * 1000000000) {} 0, .logClearRequest 0 { mbx := 256 } 0, .logClearRequest 0 {} (3), .logClearConfirm (2 ^ 48 * 1000000000) {} 0 (zeros 16), 
    .logClearConfirm 0 { mbx := 256 } 0 (zeros 16), .logClearConfirm 0 {} (3) (zeros 16), .logClearConfirm 0 {} 0 [], .stop (2 ^ 48 * 1000000000) {} 0 0 0, 
    .stop 0 { mbx := 256 } 0 0 0, .stop 0 {} (2) 0 0, .stop 0 {} 0 (2 ^ 16) 0, .stop 0 {} 0 0 (2 ^ 96), 
    .armRelease (2 ^ 48 * 1000000000) {} 0 0 0, .armRelease 0 { mbx := 256 } 0 0 0, .armRelease 0 {} (2) 0 0, .armRelease 0 {} 0 (2 ^ 16) 0, 
    .armRelease 0 {} 0 0 (2 ^ 96), .release (2 ^ 48 * 1000000000) {} 0 0 0, .release 0 { mbx := 256 } 0 0 0, .release 0 {} (2) 0 0, 
    .release 0 {} 0 (2 ^ 16) 0, .release 0 {} 0 0 (2 ^ 96), .replayFeed (2 ^ 48 * 1000000000) {} 0 0 [], .replayFeed 0 { mbx := 256 } 0 0 [], 
    .replayFeed 0 {} (2 ^ 8) 0 [], .replayFeed 0 {} 0 (2 ^ 32) [], .snapArm (2 ^ 48 * 1000000000) {} true, .snapArm 0 { mbx := 256 } true] : List Instr).all (fun c => !c.wf) = true := by decide +kernel

/-- Terms that fail one check each: an instant, a number, an instance, a length or a frame out of range. -/
theorem test_wf_refuses_2 : ([
    .snapTrigger (2 ^ 48 * 1000000000) {} true, .snapTrigger 0 { mbx := 256 } true, .snapExport (2 ^ 48 * 1000000000) {} true, .snapExport 0 { mbx := 256 } true, 
    .snapDiscard (2 ^ 48 * 1000000000) {} true, .snapDiscard 0 { mbx := 256 } true, .snapDisarm (2 ^ 48 * 1000000000) {} true, .snapDisarm 0 { mbx := 256 } true, 
    .journalHold (2 ^ 48 * 1000000000) {}, .journalHold 0 { mbx := 256 }, .journalRelease (2 ^ 48 * 1000000000) {}, .journalRelease 0 { mbx := 256 }, 
    .replayEnter (2 ^ 48 * 1000000000) {}, .replayEnter 0 { mbx := 256 }, .replayLeave (2 ^ 48 * 1000000000) {}, .replayLeave 0 { mbx := 256 }, 
    .timStep (2 ^ 48 * 1000000000) {}, .timStep 0 { mbx := 256 }, .tpModeWrite (2 ^ 48 * 1000000000) {} 0 0, .tpModeWrite 0 { mbx := 256 } 0 0, 
    .tpModeWrite 0 {} (4) 0, .tpModeWrite 0 {} 0 (2 ^ 8), .gnsRunWrite (2 ^ 48 * 1000000000) {} 0, .gnsRunWrite 0 { mbx := 256 } 0, 
    .gnsRunWrite 0 {} (2), .forceCold (2 ^ 48 * 1000000000) {}, .forceCold 0 { mbx := 256 }, .staSelftest (2 ^ 48 * 1000000000) {}, 
    .staSelftest 0 { mbx := 256 }, .refAntWrite (2 ^ 48 * 1000000000) {} 0, .refAntWrite 0 { mbx := 256 } 0, .refAntWrite 0 {} (2), 
    .jobStart (2 ^ 48 * 1000000000) {}, .jobStart 0 { mbx := 256 }, .jobPause (2 ^ 48 * 1000000000) {}, .jobPause 0 { mbx := 256 }, 
    .jobUnload (2 ^ 48 * 1000000000) {}, .jobUnload 0 { mbx := 256 }, .reseat (2 ^ 48 * 1000000000) {} 1, .reseat 0 { mbx := 256 } 1] : List Instr).all (fun c => !c.wf) = true := by decide +kernel

/-- Terms that fail one check each: an instant, a number, an instance, a length or a frame out of range. -/
theorem test_wf_refuses_3 : ([
    .reseat 0 {} 97, .hostResWrite (2 ^ 48 * 1000000000) {} 0 [], .hostResWrite 0 { mbx := 256 } 0 [], .hostResWrite 0 {} (2 ^ 16) [], 
    .mtrSnap (2 ^ 48 * 1000000000) {}, .mtrSnap 0 { mbx := 256 }, .move (2 ^ 48 * 1000000000) {} 0, .move 0 { mbx := 256 } 0, 
    .move 0 {} (16), .axisStop (2 ^ 48 * 1000000000) {} 0, .axisStop 0 { mbx := 256 } 0, .axisStop 0 {} (16), 
    .resume (2 ^ 48 * 1000000000) {} 0, .resume 0 { mbx := 256 } 0, .resume 0 {} (16), .home (2 ^ 48 * 1000000000) {} 0, 
    .home 0 { mbx := 256 } 0, .home 0 {} (16), .axisClear (2 ^ 48 * 1000000000) {} 0, .axisClear 0 { mbx := 256 } 0, 
    .axisClear 0 {} (16), .canStartRecovery (2 ^ 48 * 1000000000) {} 0, .canStartRecovery 0 { mbx := 256 } 0, .canStartRecovery 0 {} (3), 
    .canAbortHostBuffers (2 ^ 48 * 1000000000) {} 0, .canAbortHostBuffers 0 { mbx := 256 } 0, .canAbortHostBuffers 0 {} (3), .txAbort (2 ^ 48 * 1000000000) {} 0, 
    .txAbort 0 { mbx := 256 } 0, .txAbort 0 {} (192), .canBufWrite (2 ^ 48 * 1000000000) {} 0 (zeros 88), .canBufWrite 0 { mbx := 256 } 0 (zeros 88), 
    .canBufWrite 0 {} (192) (zeros 88), .canBufWrite 0 {} 0 [], .canBufRead (2 ^ 48 * 1000000000) {} 0 0 0, .canBufRead 0 { mbx := 256 } 0 0 0, 
    .canBufRead 0 {} (192) 0 0, .canBufRead 0 {} 0 (2 ^ 32) 0, .canBufRead 0 {} 0 0 (2 ^ 16), .airKeyWrite (2 ^ 48 * 1000000000) {} 0 (zeros 16)] : List Instr).all (fun c => !c.wf) = true := by decide +kernel

/-- Terms that fail one check each: an instant, a number, an instance, a length or a frame out of range. -/
theorem test_wf_refuses_4 : ([
    .airKeyWrite 0 { mbx := 256 } 0 (zeros 16), .airKeyWrite 0 {} (128) (zeros 16), .airKeyWrite 0 {} 0 [], .airRollWrite (2 ^ 48 * 1000000000) {} 0 0, 
    .airRollWrite 0 { mbx := 256 } 0 0, .airRollWrite 0 {} (128) 0, .airRollWrite 0 {} 0 (2 ^ 32), .pairKeyWrite (2 ^ 48 * 1000000000) {} (zeros 16), 
    .pairKeyWrite 0 { mbx := 256 } (zeros 16), .pairKeyWrite 0 {} [], .plannedHandover (2 ^ 48 * 1000000000) {}, .plannedHandover 0 { mbx := 256 }, 
    .dpxGiveUp (2 ^ 48 * 1000000000) {}, .dpxGiveUp 0 { mbx := 256 }, .dpxRestart (2 ^ 48 * 1000000000) {}, .dpxRestart 0 { mbx := 256 }, 
    .tlgClear (2 ^ 48 * 1000000000) {} 0, .tlgClear 0 { mbx := 256 } 0, .tlgClear 0 {} (2 ^ 16), .dormantRequest (2 ^ 48 * 1000000000) {}, 
    .dormantRequest 0 { mbx := 256 }, .provLock (2 ^ 48 * 1000000000) {}, .provLock 0 { mbx := 256 }, .rekey (2 ^ 48 * 1000000000) {} 1 (zeros 16), 
    .rekey 0 { mbx := 256 } 1 (zeros 16), .rekey 0 {} (3 + 1) (zeros 16), .rekey 0 {} 1 [], .keyExportRead (2 ^ 48 * 1000000000) {} 0 0, 
    .keyExportRead 0 { mbx := 256 } 0 0, .keyExportRead 0 {} (2 ^ 32) 0, .keyExportRead 0 {} 0 (2 ^ 16), .activate (2 ^ 48 * 1000000000) {}, 
    .activate 0 { mbx := 256 }, .confirm (2 ^ 48 * 1000000000) {}, .confirm 0 { mbx := 256 }, .serialGapTimeout (2 ^ 48 * 1000000000) 0 0, 
    .serialGapTimeout 0 (2 ^ 48 * 1000000000) 0, .serialGapTimeout 0 0 (2 ^ 16), .huCtsChange (2 ^ 48 * 1000000000) true 0, .huCtsChange 0 true (2 ^ 16)] : List Instr).all (fun c => !c.wf) = true := by decide +kernel

/-- Terms that fail one check each: an instant, a number, an instance, a length or a frame out of range. -/
theorem test_wf_refuses_5 : ([
    .authChallengeExpire (2 ^ 48 * 1000000000) 0, .authChallengeExpire 0 (2 ^ 8), .authLockoutEnd (2 ^ 48 * 1000000000) {}, .authLockoutEnd 0 { tr := 2 }, 
    .subscriptionLapse (2 ^ 48 * 1000000000) {}, .subscriptionLapse 0 { tr := 2 }, .loadIdleAbandon (2 ^ 48 * 1000000000) 0x20, .loadIdleAbandon 0 0x21, 
    .chutePacketCommit (2 ^ 48 * 1000000000) 0 default, .chutePacketCommit 0 (16) default, .chuteStall (2 ^ 48 * 1000000000) 0 0, .chuteStall 0 (16) 0, 
    .chuteStall 0 0 (2 ^ 48 * 1000000000), .chuteReadIdleWake (2 ^ 48 * 1000000000) 0, .chuteReadIdleWake 0 (16), .chuteFault (2 ^ 48 * 1000000000) 0, 
    .chuteFault 0 (16), .cycleBoundary (2 ^ 48 * 1000000000), .cycleCommit (2 ^ 48 * 1000000000) 0 0, .cycleCommit 0 (2 ^ 32) 0, 
    .cycleCommit 0 0 (2 ^ 32), .trackGenerationDone (2 ^ 48 * 1000000000) [] 0, .trackGenerationDone 0 [] (2 ^ 64), .commitOverrun (2 ^ 48 * 1000000000), 
    .commitMissed (2 ^ 48 * 1000000000), .timeLoad (2 ^ 48 * 1000000000) 1 0 0, .timeLoad 0 (3 + 1) 0 0, .timeLoad 0 1 (2 ^ 48 * 1000000000) 0, 
    .timeLoad 0 1 0 (2 ^ 32), .sourceLoss (2 ^ 48 * 1000000000) 1 0, .sourceLoss 0 (3 + 1) 0, .sourceLoss 0 1 (2 ^ 48 * 1000000000), 
    .sourceQualified (2 ^ 48 * 1000000000) 1 0 0 0, .sourceQualified 0 (3 + 1) 0 0 0, .sourceQualified 0 1 (2 ^ 48 * 1000000000) 0 0, .sourceQualified 0 1 0 0 (2 ^ 32), 
    .timeLocked (2 ^ 48 * 1000000000) 0 0 0, .timeLocked 0 (2 ^ 48 * 1000000000) 0 0, .timeLocked 0 0 0 (2 ^ 32), .slewRemeasure (2 ^ 48 * 1000000000) 0 0 0] : List Instr).all (fun c => !c.wf) = true := by decide +kernel

/-- Terms that fail one check each: an instant, a number, an instance, a length or a frame out of range. -/
theorem test_wf_refuses_6 : ([
    .slewRemeasure 0 0 (2 ^ 32) 0, .slewRemeasure 0 0 0 (2 ^ 40), .holdoverSecond (2 ^ 48 * 1000000000), .stepApply (2 ^ 48 * 1000000000) 0 0 0, 
    .stepApply 0 0 (2 ^ 32) 0, .stepApply 0 0 0 (2 ^ 32), .leapApply (2 ^ 48 * 1000000000) none, .oscillatorFault (2 ^ 48 * 1000000000) 0 0, 
    .oscillatorFault 0 0 (3 + 1), .clockMonitorFault (2 ^ 48 * 1000000000) 1 0 0, .clockMonitorFault 0 (3 + 1) 0 0, .clockMonitorFault 0 1 (2 ^ 16) 0, 
    .clockMonitorFault 0 1 0 (2 ^ 16), .tpModeTakeEffect (2 ^ 48 * 1000000000) 0, .tpModeTakeEffect 0 (4), .tpEdge (2 ^ 48 * 1000000000) 0 0, 
    .tpEdge 0 (4) 0, .tpEdge 0 0 (2 ^ 64), .eventCapture (2 ^ 48 * 1000000000) 0 1 0, .eventCapture 0 (4) 1 0, 
    .eventCapture 0 0 (2 + 1) 0, .eventCapture 0 0 1 (2), .rtcSet (2 ^ 48 * 1000000000), .antBiasSample (2 ^ 48 * 1000000000) 0 0 0, 
    .antBiasSample 0 (2) 0 0, .antBiasSample 0 0 (2 ^ 16) 0, .antBiasSample 0 0 0 (2 ^ 16), .antBiasRetry (2 ^ 48 * 1000000000) 0 0, 
    .antBiasRetry 0 (2) 0, .antBiasRetry 0 0 (2 ^ 16), .chainSettleEnd (2 ^ 48 * 1000000000) 0, .chainSettleEnd 0 (6), 
    .chainFault (2 ^ 48 * 1000000000) 0 1, .chainFault 0 (6) 1, .chainFault 0 0 (2 + 1), .chainReenable (2 ^ 48 * 1000000000) 0, 
    .chainReenable 0 (6), .dumpBoundary (2 ^ 48 * 1000000000) 0 0 [] 0 true none none 0 true, .dumpBoundary 0 (1344) 0 [] 0 true none none 0 true, .dumpBoundary 0 0 (2 ^ 32) [] 0 true none none 0 true] : List Instr).all (fun c => !c.wf) = true := by decide +kernel

/-- Terms that fail one check each: an instant, a number, an instance, a length or a frame out of range. -/
theorem test_wf_refuses_7 : ([
    .dumpBoundary 0 0 0 [] (2 ^ 16) true none none 0 true, .dumpBoundary 0 0 0 [] 0 true none none (2 ^ 24) true, .epochLatch (2 ^ 48 * 1000000000) [], .acqSearchDone (2 ^ 48 * 1000000000) 0 0 0 0, 
    .acqSearchDone 0 (24) 0 0 0, .acqSearchDone 0 0 (2) 0 0, .acqSearchDone 0 0 0 (2 ^ 8) 0, .acqSearchDone 0 0 0 0 (2 ^ 16), 
    .pullinTimeout (2 ^ 48 * 1000000000) 0, .pullinTimeout 0 (1344), .coastExpiry (2 ^ 48 * 1000000000) 0, .coastExpiry 0 (1344), 
    .tileFault (2 ^ 48 * 1000000000) 0 1, .tileFault 0 (28) 1, .tileFault 0 0 (2 + 1), .snapCaptureEnd (2 ^ 48 * 1000000000) [], 
    .snapCaptureEnd 0 [(6, [])], .snapExportEnd (2 ^ 48 * 1000000000), .jamIndexUpdate (2 ^ 48 * 1000000000) 0 0, .jamIndexUpdate 0 (6) 0, 
    .jamIndexUpdate 0 0 (2 ^ 8), .notchUpdate (2 ^ 48 * 1000000000) 0 (List.replicate 256 default), .notchUpdate 0 (6) (List.replicate 256 default), .notchUpdate 0 0 [], 
    .selftestTone (2 ^ 48 * 1000000000) 0 true 0, .selftestTone 0 (6) true 0, .selftestTone 0 0 true (2 ^ 8), .laneTick (2 ^ 48 * 1000000000) 0 true, 
    .laneTick 0 (3) true, .voterTick (2 ^ 48 * 1000000000), .voterTest (2 ^ 48 * 1000000000) true, .beaconForm (2 ^ 48 * 1000000000) 0, 
    .beaconForm 0 (4), .beaconSelfListen (2 ^ 48 * 1000000000) 0 none, .beaconSelfListen 0 (4) none, .stopCopy (2 ^ 48 * 1000000000), 
    .estopEdge (2 ^ 48 * 1000000000) 0 0 true, .estopEdge 0 (4) 0 true, .estopEdge 0 0 (2 ^ 48 * 1000000000) true, .estopTestPulse (2 ^ 48 * 1000000000) 0 true true none] : List Instr).all (fun c => !c.wf) = true := by decide +kernel

/-- Terms that fail one check each: an instant, a number, an instance, a length or a frame out of range. -/
theorem test_wf_refuses_8 : ([
    .estopTestPulse 0 (4) true true none, .estopDiscrepancy (2 ^ 48 * 1000000000) 0, .estopDiscrepancy 0 (2), .canSilence (2 ^ 48 * 1000000000) 0, 
    .canSilence 0 (4), .remoteSilence (2 ^ 48 * 1000000000) 0, .remoteSilence 0 (16), .fenceDeadline (2 ^ 48 * 1000000000) 0 0, 
    .fenceDeadline 0 (3) 0, .fenceDeadline 0 0 (2 ^ 32), .laneRecordApply (2 ^ 48 * 1000000000) 0 true, .laneRecordApply 0 (3) true, 
    .safeOutTest (2 ^ 48 * 1000000000) 0 true, .safeOutTest 0 (2) true, .safeFbMismatch (2 ^ 48 * 1000000000) 0 0 true, .safeFbMismatch 0 (2) 0 true, 
    .safeFbMismatch 0 0 (2 ^ 48 * 1000000000) true, .safeFaultClear (2 ^ 48 * 1000000000) 0, .safeFaultClear 0 (2 ^ 48 * 1000000000), .startupTests (2 ^ 48 * 1000000000) 0 0 0 0, 
    .startupTests 0 (2 ^ 16) 0 0 0, .startupTests 0 0 (8) 0 0, .startupTests 0 0 0 (16) 0, .startupTests 0 0 0 0 (16), 
    .airFrameReceive (2 ^ 48 * 1000000000) 0 0 [], .airFrameReceive 0 (4) 0 [], .airFrameReceive 0 0 (2 ^ 48 * 1000000000) [], .reasmExpire (2 ^ 48 * 1000000000), 
    .airFrameTransmit (2 ^ 48 * 1000000000) 0 true, .airFrameTransmit 0 (4) true, .ackReceive (2 ^ 48 * 1000000000) 0 [], .ackReceive 0 (4) [], 
    .ackTimeout (2 ^ 48 * 1000000000) 0, .ackTimeout 0 (4), .txQueueExpire (2 ^ 48 * 1000000000) 0, .txQueueExpire 0 (4), 
    .synthUnlock (2 ^ 48 * 1000000000) 0, .synthUnlock 0 (4), .keyRollover (2 ^ 48 * 1000000000) 0, .keyRollover 0 (128)] : List Instr).all (fun c => !c.wf) = true := by decide +kernel

/-- Terms that fail one check each: an instant, a number, an instance, a length or a frame out of range. -/
theorem test_wf_refuses_9 : ([
    .keyDeliverySend (2 ^ 48 * 1000000000) 1 0, .keyDeliverySend 0 97 0, .keyDeliverySend 0 1 (2), .linkConfigSend (2 ^ 48 * 1000000000) 1, 
    .linkConfigSend 0 97, .allotmentRepeat (2 ^ 48 * 1000000000) 0, .allotmentRepeat 0 (2 ^ 16), .heartbeatSend (2 ^ 48 * 1000000000), 
    .heartbeatReceive (2 ^ 48 * 1000000000) (zeros 44) true 0, .heartbeatReceive 0 [] true 0, .linkFail (2 ^ 48 * 1000000000), .linkRestore (2 ^ 48 * 1000000000), 
    .peerInput (2 ^ 48 * 1000000000) 0 default, .peerInput 0 (2 ^ 32) default, .peerCopy (2 ^ 48 * 1000000000) [] [] default true, .peerCheckpoint (2 ^ 48 * 1000000000) default, 
    .resync (2 ^ 48 * 1000000000), .peerStopFwd (2 ^ 48 * 1000000000) 0 0 [], .peerStopFwd 0 (2 ^ 48 * 1000000000) 0 [], .peerStopFwd 0 0 (2 ^ 16) [], 
    .giveUpReceive (2 ^ 48 * 1000000000) 0 0, .giveUpReceive 0 (2 ^ 8) 0, .giveUpReceive 0 0 (2 ^ 32), .silentAtBoundary (2 ^ 48 * 1000000000), 
    .takeover (2 ^ 48 * 1000000000) 0 0, .takeover 0 0 (2 ^ 32), .heartbeatLossTakeover (2 ^ 48 * 1000000000) true 0 0, .heartbeatLossTakeover 0 true 0 (2 ^ 32), 
    .startClaim (2 ^ 48 * 1000000000) true, .claimReceive (2 ^ 48 * 1000000000) 0, .claimReceive 0 (2 ^ 32), .silentRestart (2 ^ 48 * 1000000000), 
    .returnRequest (2 ^ 48 * 1000000000), .portLinkChange (2 ^ 48 * 1000000000) 0 true 100 true, .portLinkChange 0 (2) true 100 true, .portLinkChange 0 0 true 5 true, 
    .bypassJoin (2 ^ 48 * 1000000000), .bypassJoinTimeout (2 ^ 48 * 1000000000), .bypassDownRelease (2 ^ 48 * 1000000000), .ethFrameForward (2 ^ 48 * 1000000000) default] : List Instr).all (fun c => !c.wf) = true := by decide +kernel

/-- Terms that fail one check each: an instant, a number, an instance, a length or a frame out of range. -/
theorem test_wf_refuses_10 : ([
    .ethFrameForward 0 { port := 3 }, .mrpTopologyChange (2 ^ 48 * 1000000000) 0 0, .mrpTopologyChange 0 (2) 0, .mrpTopologyChange 0 0 (2 ^ 16), 
    .ptpSyncSend (2 ^ 48 * 1000000000), .ptpAnnounceSend (2 ^ 48 * 1000000000), .pdelayReqSend (2 ^ 48 * 1000000000) 0 0, .pdelayReqSend 0 (2) 0, 
    .pdelayReqSend 0 0 (2 ^ 48 * 1000000000), .ptpMessageReceive (2 ^ 48 * 1000000000) 0 default, .ptpMessageReceive 0 (2) default, .ringFault (2 ^ 48 * 1000000000) 0 0, 
    .ringFault 0 (3) 0, .ringFault 0 0 (2 ^ 8), .canFrameReceive (2 ^ 48 * 1000000000) 0 default, .canFrameReceive 0 (3) default, 
    .canFrameSent (2 ^ 48 * 1000000000) 0 0 0 0, .canFrameSent 0 (3) 0 0 0, .canFrameSent 0 0 (64) 0 0, .canFrameSent 0 0 0 (2 ^ 48 * 1000000000) 0, 
    .canFrameSent 0 0 0 0 (2 ^ 8), .canTxError (2 ^ 48 * 1000000000) 0 0 0, .canTxError 0 (3) 0 0, .canTxError 0 0 (64) 0, 
    .canTxError 0 0 0 (2 ^ 8), .canRecoveryStart (2 ^ 48 * 1000000000) 0, .canRecoveryStart 0 (3), .canRecoveryDone (2 ^ 48 * 1000000000) 0, 
    .canRecoveryDone 0 (3), .canModeApply (2 ^ 48 * 1000000000) 0, .canModeApply 0 (3), .canRefSchedule (2 ^ 48 * 1000000000) 0, 
    .canRefSchedule 0 (3), .canRefLost (2 ^ 48 * 1000000000) 0, .canRefLost 0 (3), .isoAddressClaim (2 ^ 48 * 1000000000) 0 0 0, 
    .isoAddressClaim 0 (4) 0 0, .isoAddressClaim 0 0 (2 ^ 8) 0, .isoAddressClaim 0 0 0 (2 ^ 64), .canControllerFault (2 ^ 48 * 1000000000) 0 0] : List Instr).all (fun c => !c.wf) = true := by decide +kernel

/-- Terms that fail one check each: an instant, a number, an instance, a length or a frame out of range. -/
theorem test_wf_refuses_11 : ([
    .canControllerFault 0 (3) 0, .canControllerFault 0 0 (2 ^ 8), .mtrBlock (2 ^ 48 * 1000000000) 0 0 0 0 (List.replicate 40 default), .mtrBlock 0 (16) 0 0 0 (List.replicate 40 default), 
    .mtrBlock 0 0 (2 ^ 48 * 1000000000) 0 0 (List.replicate 40 default), .mtrBlock 0 0 0 (2 ^ 48 * 1000000000) 0 (List.replicate 40 default), .mtrBlock 0 0 0 0 (2 ^ 32) (List.replicate 40 default), .mtrBlock 0 0 0 0 0 [], 
    .meteringFault (2 ^ 48 * 1000000000) 0 0, .meteringFault 0 (17) 0, .meteringFault 0 0 (2 ^ 8), .gantryCommand (2 ^ 48 * 1000000000), 
    .axisMoveDone (2 ^ 48 * 1000000000) 0, .axisMoveDone 0 (4), .axisStopDone (2 ^ 48 * 1000000000) 0, .axisStopDone 0 (4), 
    .homeInputAccept (2 ^ 48 * 1000000000) 0, .homeInputAccept 0 (4), .homeReleaseLatch (2 ^ 48 * 1000000000) 0, .homeReleaseLatch 0 (4), 
    .limitTrip (2 ^ 48 * 1000000000) 0 true true, .limitTrip 0 (4) true true, .chatter (2 ^ 48 * 1000000000) 0 0 0, .chatter 0 (4) 0 0, 
    .chatter 0 0 (3) 0, .chatter 0 0 0 (2 ^ 32), .followingErrorCheck (2 ^ 48 * 1000000000) 0 0, .followingErrorCheck 0 (4) 0, 
    .derrickFault (2 ^ 48 * 1000000000), .taskReady (2 ^ 48 * 1000000000) 0 0, .taskReady 0 (256) 0, .taskReady 0 0 (32), 
    .corePick (2 ^ 48 * 1000000000) 0, .corePick 0 (12), .holdExpire (2 ^ 48 * 1000000000) 0, .holdExpire 0 (256), 
    .taskAge (2 ^ 48 * 1000000000) 0, .taskAge 0 (256), .taskWait (2 ^ 48 * 1000000000) 0 1 0 0, .taskWait 0 (256) 1 0 0] : List Instr).all (fun c => !c.wf) = true := by decide +kernel

/-- Terms that fail one check each: an instant, a number, an instance, a length or a frame out of range. -/
theorem test_wf_refuses_12 : ([
    .taskWait 0 0 (2 + 1) 0 0, .taskWait 0 0 1 (2 ^ 16) 0, .taskWait 0 0 1 0 (2 ^ 32), .eventPost (2 ^ 48 * 1000000000) 0, 
    .eventPost 0 (2 ^ 16), .taskWaitTimeout (2 ^ 48 * 1000000000) 0, .taskWaitTimeout 0 (256), .coreFault (2 ^ 48 * 1000000000) 0 1, 
    .coreFault 0 (6) 1, .coreFault 0 0 (3 + 1), .dispatcherFault (2 ^ 48 * 1000000000), .traceSync (2 ^ 48 * 1000000000), 
    .logRecordEnter (2 ^ 48 * 1000000000) 0 0 [], .logRecordEnter 0 (2 ^ 16) 0 [], .logRecordEnter 0 0 (2 ^ 8) [], .logFlush (2 ^ 48 * 1000000000) 0, 
    .logFlush 0 (2 ^ 48 * 1000000000), .logBlockFail (2 ^ 48 * 1000000000) 0 0 1 [], .logBlockFail 0 (2) 0 1 [], .logBlockFail 0 0 (2 ^ 16) 1 [], 
    .logBlockFail 0 0 0 (4 + 1) [], .logRegionRetry (2 ^ 48 * 1000000000) 0 true, .logRegionRetry 0 (2) true, .pfailAssert (2 ^ 48 * 1000000000), 
    .pfailRelease (2 ^ 48 * 1000000000), .railMonitorFault (2 ^ 48 * 1000000000) 0 0, .railMonitorFault 0 (11) 0, .railMonitorFault 0 0 (2 ^ 16), 
    .brownout (2 ^ 48 * 1000000000) 0 0 0, .brownout 0 (11) 0 0, .brownout 0 0 (2 ^ 16) 0, .brownout 0 0 0 (2 ^ 48 * 1000000000), 
    .thermalWarning (2 ^ 48 * 1000000000) 0 0, .thermalWarning 0 (4) 0, .thermalVerdict (2 ^ 48 * 1000000000) 0 0 0, .thermalVerdict 0 (4) 0 0, 
    .thermalVerdict 0 0 (2 ^ 48 * 1000000000) 0, .thermalReset (2 ^ 48 * 1000000000) 0 0, .thermalReset 0 (4) 0, .resetPin (2 ^ 48 * 1000000000) true 0 true] : List Instr).all (fun c => !c.wf) = true := by decide +kernel

/-- Terms that fail one check each: an instant, a number, an instance, a length or a frame out of range. -/
theorem test_wf_refuses_13 : ([
    .resetPin 0 true (2 ^ 48 * 1000000000) true, .watchdogReset (2 ^ 48 * 1000000000), .coldStart (2 ^ 48 * 1000000000) true, .boot (2 ^ 48 * 1000000000) true, 
    .recoveryImageWrite (2 ^ 48 * 1000000000), .imageCheckDone (2 ^ 48 * 1000000000) 0, .imageCheckDone 0 (2 ^ 8), .trialExpire (2 ^ 48 * 1000000000), 
    .wake (2 ^ 48 * 1000000000) 1 true, .wake 0 (3 + 1) true, .dramScrub (2 ^ 48 * 1000000000) 0, .dramScrub 0 (2 ^ 32), 
    .memoryFault (2 ^ 48 * 1000000000) 1 0 true, .memoryFault 0 (3 + 1) 0 true, .memoryFault 0 1 (2 ^ 40) true, .agcUpdate (2 ^ 48 * 1000000000) 0 0 0, 
    .agcUpdate 0 (6) 0 0, .agcUpdate 0 0 (100000 + 1) 0, .agcUpdate 0 0 0 (100000 + 1), .canReceiveError (2 ^ 48 * 1000000000) 0 true, 
    .canReceiveError 0 (3) true, .thermalCleared (2 ^ 48 * 1000000000) 0 (List.replicate 4 default), .thermalCleared 0 (4) (List.replicate 4 default), .thermalCleared 0 0 [], 
    .chiselUnitFault (2 ^ 48 * 1000000000) 0, .chiselUnitFault 0 (4), .slateFault (2 ^ 48 * 1000000000), .coverageFault (2 ^ 48 * 1000000000), 
    .rekeySessionEnd (2 ^ 48 * 1000000000), .stopFwdConfirm (2 ^ 48 * 1000000000), .badMailFrame (2 ^ 48 * 1000000000) 0 0 0 {} [], .badMailFrame 0 (7) 0 0 {} [], 
    .badMailFrame 0 0 (2 ^ 8) 0 {} [], .badMailFrame 0 0 0 (2 ^ 16) {} [], .badMailFrame 0 0 0 0 { mbx := 256 } []] : List Instr).all (fun c => !c.wf) = true := by decide +kernel

/-- A block of 65,536 bytes is longer than a block write carries. -/
theorem test_wf_block : (Instr.hostResWrite 0 {} 0 (zeros 65536)).wf = false := by
  simp only [Instr.wf, zeros, List.length_replicate]
  decide +kernel

/-! ### The standard functions (notes/assumptions/3.md), against the examples their standards publish -/

/-- The check value of CRC-32C over "123456789". -/
theorem test_crc32c : crc32c (ascii "123456789") = 0xE3069283 := by decide +kernel

/-- The check value of the IEEE 802 CRC-32 over "123456789". -/
theorem test_crc32 : crc32 (ascii "123456789") = 0xCBF43926 := by decide +kernel

/-- FIPS 180: SHA-256 of "abc". -/
theorem test_sha256 : (sha256 (ascii "abc")).take 4 = [0xba#8, 0x78#8, 0x16#8, 0xbf#8] := by decide +kernel

/-- FIPS 197, Appendix C.1. -/
theorem test_aes : (aes ((List.range 16).map (BitVec.ofNat 8)) ((List.range 16).map fun i => BitVec.ofNat 8 (17 * i))).take 4 =
    [0x69#8, 0xc4#8, 0xe0#8, 0xd8#8] := by decide +kernel

/-! ### The rules of the whole machine -/

theorem wit_IdleStepIsOneTick_0 : ∃ (s : State), s.pending = [] ∧ s.dev.up := ⟨State.reset, rfl, by decide⟩

theorem wit_IdleStepIsOneTick_1 : ∃ (s : State), s.pending = [] ∧ s.dev.up = false := ⟨{ dev := { pwr := { mode := 1 } } }, rfl, by decide⟩

theorem wit_CanonicalFormKept : ∃ (s u : State), s.dev.canonical = true ∧ s.queueWf = true ∧ step s = .next u :=
  ⟨State.reset, { State.reset with dev := State.reset.dev.idleTick }, by decide, by decide, rfl⟩

theorem wit_StampsOnTheWire_1 : ∃ (v : Nat), 1000000000 ≤ v % 2 ^ 30 := ⟨1000000000, by decide⟩

theorem wit_StampsOnTheWire_2 : ∃ (t : Nat), t < 2 ^ 34 * 1000000000 := ⟨2 ^ 34 * 1000000000 - 1, by decide⟩

theorem wit_CycleNumbersCompare : ∃ (a b : Nat), a < 4294967296 ∧ b < 4294967296 ∧ later a b = true := ⟨0, 4294967295, by decide⟩

theorem wit_ItemsReadBack : ∃ (id i id' i' : Nat), regKey id' i' ≠ regKey id i := ⟨P.TIM_STATE, 0, P.TIM_STATE, 1, by decide⟩

theorem wit_CountersCount_0 : ∃ (d : Dev) (id i : Nat) (p : Param), paramOf id = some p ∧ p.cnt = .stick ∧ d.rd id i + 1 < 256 ^ p.ty.width :=
  ⟨State.reset.dev, P.HST_MAC_FAIL, 0, (paramOf P.HST_MAC_FAIL).getD default, by decide +kernel⟩

theorem wit_CountersCount_1 : ∃ (d : Dev) (id i : Nat) (p : Param), paramOf id = some p ∧ p.cnt = .stick ∧ 256 ^ p.ty.width ≤ d.rd id i + 1 :=
  ⟨State.reset.dev.wr P.HST_MAC_FAIL 0 (2 ^ 32 - 1), P.HST_MAC_FAIL, 0, (paramOf P.HST_MAC_FAIL).getD default, by decide +kernel⟩

theorem wit_CountersCount_2 : ∃ (d : Dev) (id i : Nat) (p : Param), paramOf id = some p ∧ p.cnt ≠ .stick :=
  ⟨State.reset.dev, P.HST_RX_FRAMES, 0, (paramOf P.HST_RX_FRAMES).getD default, by decide +kernel⟩

/-! ### States and frames for the witnesses -/

/-- The state after reset with registers written, in order, and the device changed. -/
def mk (l : List (Nat × Nat × Nat)) (f : Dev → Dev) : State :=
  { dev := f (l.foldl (fun d x => d.wr x.1 x.2.1 x.2.2) State.reset.dev) }

/-- An open session of level COMMISSION. -/
def ses : Session := { pending := false, level := 3, last := 1000 * sec, ks := zeros 32 }

/-- A frame of mailbox `m` signed with the key of `ses`. -/
def sealedAt (m : Nat) (p : Bytes) : HostCtx :=
  { mbx := m, trailer := some (5, smac ses.ks (mailHead 1 (p.length + 12) 0 m 1) p 5) }

/-- A frame of mailbox 1 signed with the key of `ses`. -/
def sealed (p : Bytes) : HostCtx := sealedAt 1 p

/-- A frame of mailbox 0 signed with the key of `ses`. -/
def sealed0 (p : Bytes) : HostCtx := sealedAt 0 p

/-- A heartbeat of side B in state STANDBY. -/
def hbMsg : Bytes :=
  let b := [2#8, 2#8] ++ zeros 38
  b ++ le 4 (crc32c b)

/-- An acknowledgement of a frame of zeros. -/
def ackBytes : Bytes :=
  let b := [0x40#8] ++ zeros 5
  b ++ le 4 (crc32 b)

/-- A frame of machine 3 of type 0x34, secured with a key of zeros (AES-128-CCM, tag of 8 bytes). -/
def rxF : Bytes :=
  [0x00#8, 0x00#8, 0x01#8, 0x00#8, 0x03#8, 0x01#8, 0x03#8, 0x01#8, 0x01#8, 0x00#8, 0x00#8, 0x40#8,
   0x01#8, 0x00#8, 0x00#8, 0x00#8, 0x00#8, 0x00#8, 0x00#8, 0x00#8, 0x72#8, 0x55#8, 0x72#8, 0x5e#8,
   0x5c#8, 0xd4#8, 0x6b#8, 0x12#8, 0x8a#8, 0x0f#8, 0xe4#8, 0x02#8, 0xf9#8]

/-- A unit that has the two authentication keys and serves machine 3. -/
def rxW : State :=
  mk [(P.DPX_STATE, 0, 1), (P.STP_SLICE_STATE, 0, 1)] fun d =>
    { d with air := { d.air with keys := [{ inst := 3, cur := some (zeros 16) }] }, com := { d.com with jobMachines := [3] } }


/-- A unit in the master role that may announce is a master. -/
theorem ptp_master {d : Dev} (h1 : d.ptpRole = 1) (h2 : d.mayAnnounce = true) : d.ptpJudge.rd P.RNG_PTP_STATE = 2 := by
  unfold Dev.ptpJudge
  simp only [h1, h2, if_true, Dev.when]
  split
  · rw [(noticeT_reads _ _ _ _ _ (by decide)).1, rd_wr_ne _ (by decide), rd_wr]
  · rw [rd_wr_ne _ (by decide), rd_wr]

/-- Length of a big-endian word. -/
theorem be_length (n v : Nat) : (be n v).length = n := by
  have h : ∀ n v, (le n v).length = n := by intro n; induction n with | zero => intro v; rfl | succ n ih => intro v; simp [le, ih]
  simp [be, h]

/-- SHA-256 gives 32 bytes. -/
theorem sha_length (m : Bytes) : (sha256 m).length = 32 := by
  have round : ∀ (v : List W32) kw, (shaRound v kw).length = v.length := by
    intro v kw; unfold shaRound; split <;> rfl
  have rounds : ∀ (l : List (W32 × W32)) v, (l.foldl shaRound v).length = v.length := by
    intro l; induction l with
    | nil => intro v; rfl
    | cons a l ih => intro v; rw [List.foldl_cons, ih, round]
  have block : ∀ (h : List W32) b, (shaBlock h b).length = h.length := by
    intro h b; simp [shaBlock, rounds]
  have blocks : ∀ (l : List Bytes) h, (l.foldl shaBlock h).length = h.length := by
    intro l; induction l with
    | nil => intro v; rfl
    | cons a l ih => intro v; rw [List.foldl_cons, ih, block]
  have words : ∀ l : List W32, (l.flatMap fun w => be 4 w.toNat).length = 4 * l.length := by
    intro l; induction l with
    | nil => rfl
    | cons a l ih => rw [List.flatMap_cons, List.length_append, ih, be_length, List.length_cons]; omega
  show List.length (List.flatMap _ _) = 32
  rw [words, blocks]; rfl

/-- The frame of AUTH_PROVE passes the frame checks, whatever its proof. -/
theorem prove_frame {x : Bytes} (h : x.length = 32) : frameOk 1 0 (le 1 8 ++ le 1 0 ++ le 2 0 ++ x) = true := by
  have e : le 1 8 ++ le 1 0 ++ le 2 0 ++ x = 8#8 :: 0#8 :: 0#8 :: 0#8 :: x := rfl
  rw [e]
  simp [frameOk, mailboxesOf, sizeOk, reservedOk, fld, unle, h]
/-- The frame of AUTH_PROVE is short enough for its transport. -/
theorem prove_short {x : Bytes} (h : x.length = 32) : mailLength {} (le 1 8 ++ le 1 0 ++ le 2 0 ++ x) ≤ 1400 := by
  have e : le 1 8 ++ le 1 0 ++ le 2 0 ++ x = 8#8 :: 0#8 :: 0#8 :: 0#8 :: x := rfl
  rw [e]
  simp [mailLength, h]

/-- A frame signed with the key of `ses` is accepted where the plain checks hold. -/
theorem accepted_sealed {c : Bool} {s : State} {t m : Nat} {p : Bytes}
    (h : s.dev.up = true ∧ s.dev.hostDown = false ∧ mailLength (sealedAt m p) p ≤ 1400 ∧ 1 ≤ m ∧ m ≤ 7 ∧ frameOk m 1 p = true ∧ s.dev.commits = c ∧
      (c = true → s.dev.tooEarly (max s.dev.now t) = false ∧ s.dev.cyc.next ≤ (s.dev.admitCycle (max s.dev.now t) (max 0 (max s.dev.now t))).1) ∧
      s.dev.host.queue = [] ∧ s.dev.host.dup = [] ∧ s.dev.sessionOf {} (max s.dev.now t) = some (0, ses)) :
    Accepted c s.dev t (sealedAt m p) p 3 (some 0) := by
  obtain ⟨h1, h2, h3, h4, h5, h6, h7, h8, h9, h10, h11⟩ := h
  refine ⟨⟨h1, h2, Nat.zero_le _, fun h => (by cases h), h3⟩, h4, h5, h6, h7, h8, h9, ?_, Or.inr ⟨5, 0, ses, rfl, by decide, h11, rfl, rfl⟩⟩
  simp [Dev.repeatOf, Dev.at, h10]

/-- A frame without a trailer is accepted as one of nobody's where the plain checks hold. -/
theorem accepted_plain {c : Bool} {s : State} {t : Nat} {p : Bytes}
    (h : s.dev.up = true ∧ s.dev.hostDown = false ∧ mailLength {} p ≤ 1400 ∧ frameOk 1 0 p = true ∧ s.dev.commits = c ∧
      (c = true → s.dev.tooEarly (max s.dev.now t) = false ∧ s.dev.cyc.next ≤ (s.dev.admitCycle (max s.dev.now t) (max 0 (max s.dev.now t))).1) ∧
      s.dev.host.queue = [] ∧ s.dev.host.dup = []) :
    Accepted c s.dev t {} p 0 none := by
  obtain ⟨h1, h2, h3, h6, h7, h8, h9, h10⟩ := h
  refine ⟨⟨h1, h2, Nat.zero_le _, fun h => (by cases h), h3⟩, by decide, by decide, h6, h7, h8, h9, ?_, Or.inl ⟨rfl, rfl, rfl⟩⟩
  simp [Dev.repeatOf, Dev.at, h10]

/-! ### Witnesses of the obligations' hypotheses, clause by clause -/

theorem wit_HubTimeSources_0 : ∃ (s : State) (t : Nat) (src : Nat) (time : Nat) (unc : Nat), s.dev.up ∧ s.dev.rd P.TIM_STATE = 0 ∧
    (s.dev.at t).sourceOk src :=
  ⟨mk [] id, (1000 * sec), 1, 77, 5, by decide +kernel, by decide +kernel, by decide +kernel⟩

theorem wit_HubTimeSources_1 : ∃ (s : State) (t : Nat) (src : Nat) (last : Nat), s.dev.up ∧ last + s.dev.cf P.TIM_LOSS_TIME * ms ≤ max s.dev.now t ∧
    s.dev.rd P.TIM_SOURCE = src ∧ (s.dev.rd P.TIM_STATE = 1 ∨ s.dev.rd P.TIM_STATE = 2 ∨ s.dev.rd P.TIM_STATE = 4) ∧ (∀ x ∈ s.dev.tim.qualified,
    x = src) ∧ s.dev.tim.stepAt = none :=
  ⟨mk [(P.TIM_STATE, 0, 1), (P.TIM_SOURCE, 0, 1)] id, (1000 * sec), 1, 0, by decide +kernel, by decide +kernel, by decide +kernel, by decide +kernel,
    by decide +kernel, by decide +kernel⟩

theorem wit_HubTimeSources_2 : ∃ (s : State) (t : Nat) (src : Nat) (since : Nat) (offset : Int) (unc : Nat), s.dev.up ∧
    since + s.dev.cf P.TIM_QUAL_TIME * sec ≤ max s.dev.now t ∧ (s.dev.at t).sourceOk src ∧ (s.dev.rd P.TIM_STATE = 0 ∨ s.dev.rd P.TIM_SOURCE = src) :=
  ⟨mk [] id, (1000 * sec), 1, 0, 100, 5, by decide +kernel, by decide +kernel, by decide +kernel, by decide +kernel⟩

theorem wit_HubTimeSources_3 : ∃ (s : State) (t : Nat) (since : Nat) (offset : Int) (unc : Nat), s.dev.up ∧
    since + s.dev.cf P.TIM_QUAL_TIME * sec ≤ max s.dev.now t ∧ (s.dev.at t).sourceOk 1 ∧ s.dev.rd P.TIM_STATE = 1 ∧ s.dev.rd P.TIM_SOURCE ≠ 1 ∧
    s.dev.tim.stepAt = none :=
  ⟨mk [(P.TIM_STATE, 0, 1), (P.TIM_SOURCE, 0, 2)] id, (1000 * sec), 0, 100, 5, by decide +kernel, by decide +kernel, by decide +kernel,
    by decide +kernel, by decide +kernel, by decide +kernel⟩

theorem wit_HubTimeSources_4 : ∃ (s : State) (t : Nat), s.dev.up ∧ s.dev.rd P.TIM_STATE = 3 :=
  ⟨mk [(P.TIM_STATE, 0, 3)] id, (1000 * sec), by decide +kernel, by decide +kernel⟩

theorem wit_HubTimeDiscipline_0 : ∃ (s : State) (t : Nat) (since : Nat) (offset : Int) (unc : Nat), s.dev.up ∧
    (s.dev.rd P.TIM_STATE = 1 ∨ s.dev.rd P.TIM_STATE = 4) ∧ offset.natAbs ≤ s.dev.cf P.TIM_LOCK_NS ∧ s.dev.tim.countFrom ≤ since ∧
    since + s.dev.cf P.TIM_LOCK_TIME * sec ≤ max s.dev.now t :=
  ⟨mk [(P.TIM_STATE, 0, 1)] id, (1000 * sec), 0, 0, 5, by decide +kernel, by decide +kernel, by decide +kernel, by decide +kernel, by decide +kernel⟩

theorem wit_HubTimeDiscipline_1 : ∃ (s : State) (t : Nat) (offset : Int) (unc : Nat) (freq : Nat), s.dev.up ∧
    (s.dev.rd P.TIM_STATE = 1 ∨ s.dev.rd P.TIM_STATE = 2 ∨ s.dev.rd P.TIM_STATE = 4) :=
  ⟨mk [(P.TIM_STATE, 0, 2)] id, (1000 * sec), 50, 5, 4, by decide +kernel, by decide +kernel⟩

theorem wit_HubTimeDiscipline_2 : ∃ (s : State) (t : Nat), s.dev.up ∧ toS 8 (s.dev.rd P.TIM_LEAP_PENDING) ≠ 0 ∧
    ofHubtime80 (s.dev.wire P.TIM_LEAP_AT 0) 0 ≤ max s.dev.now t :=
  ⟨mk [(P.TIM_LEAP_PENDING, 0, 1)] id, (1000 * sec), by decide +kernel, by decide +kernel, by decide +kernel⟩

theorem wit_HubTimeDiscipline_3 : ∃ (s : State) (t : Nat) (ppb : Int) (src : Nat), s.dev.up ∧ (s.dev.cf P.TIM_FREQ_LIMIT : Int) < (ppb.natAbs : Int) ∧
    s.dev.rd P.TIM_SOURCE ≠ src :=
  ⟨mk [] id, (1000 * sec), 100000000, 1, by decide +kernel, by decide +kernel, by decide +kernel⟩

theorem wit_HubTimeDiscipline_4 : ∃ (s : State) (t : Nat) (cause : Nat) (count : Nat) (prev : Nat), s.dev.up ∧ (cause = 2 ∨ cause = 3) :=
  ⟨mk [] id, (1000 * sec), 2, 3, 4, by decide +kernel, by decide +kernel⟩

theorem wit_PulsesAndCaptures_0 : ∃ (s : State) (t : Nat) (o : Nat) (mode : Nat) (at_ : Nat), s.dev.up ∧ nth s.dev.tim.tpPend o = some (mode, at_) ∧
    at_ ≤ max s.dev.now t :=
  ⟨mk [] fun d => { d with tim := { d.tim with tpPend := [some (1, 5), none, none, none] } }, (1000 * sec), 0, 1, 5, by decide +kernel,
    by decide +kernel, by decide +kernel⟩

theorem wit_PulsesAndCaptures_1 : ∃ (s : State) (t : Nat) (o : Nat) (n : Nat), s.dev.up ∧ nth s.dev.tim.tpMode o = 1 ∧ s.dev.timeSet ∧
    n * sec ≤ max s.dev.now t ∧ s.dev.cfS P.TIM_TP_DELAY o = 0 ∧ emitted n (nth s.dev.tim.tpDone o) = false ∧ nth s.dev.tim.tpSuppress o = none :=
  ⟨mk [(P.TIM_STATE, 0, 2)] fun d => { d with tim := { d.tim with tpMode := [1, 0, 0, 0] } }, (1000 * sec), 0, 3, by decide +kernel,
    by decide +kernel, by decide +kernel, by decide +kernel, by decide +kernel, by decide +kernel, by decide +kernel⟩

theorem wit_PulsesAndCaptures_2 : ∃ (s : State) (t : Nat) (i : Nat) (edge : Nat) (half : Nat), s.dev.up ∧ i < 4 ∧ (edge = 1 ∨ edge = 2) ∧
    bitOf (s.dev.cf P.TIM_EVT_EDGE i) (edge - 1) ∧ nth s.dev.tim.evtLast i = none ∧ (nth s.dev.chutes 11).waiting = [] :=
  ⟨mk [(P.TIM_EVT_EDGE, 0, 1)] id, (1000 * sec), 0, 1, 0, by decide +kernel, by decide +kernel, by decide +kernel, by decide +kernel,
    by decide +kernel, by decide +kernel⟩

theorem wit_ResetCauses_0 : ∃ (s : State) (t : Nat) (width : Nat) (taken : Bool), s.dev.up ∧ 1000 ≤ width :=
  ⟨mk [] id, (1000 * sec), 2000, false, by decide +kernel, by decide +kernel⟩

theorem wit_ResetCauses_1 : ∃ (s : State) (t : Nat) (r : Nat) (mv : Nat) (since : Nat), s.dev.up ∧ r < 11 ∧ mv < (nth rails r).1 ∧
    since + 500 * us ≤ max s.dev.now t :=
  ⟨mk [] id, (1000 * sec), 0, 0, 0, by decide +kernel, by decide +kernel, by decide +kernel, by decide +kernel⟩

theorem wit_ResetCauses_2 : ∃ (s : State) (t : Nat) (die : Nat) (temp : Int), s.dev.up ∧ die < 4 ∧ 1250 ≤ temp :=
  ⟨mk [] id, (1000 * sec), 0, 1300, by decide +kernel, by decide +kernel, by decide +kernel⟩

theorem wit_ResetCauses_3 : ∃ (s : State) (t : Nat), s.dev.up ∧ s.dev.pwr.trial ∧ s.dev.pwr.readyAt + s.dev.cf P.SEC_TRIAL_S * sec ≤ max s.dev.now t :=
  ⟨mk [] fun d => { d with pwr := { d.pwr with trial := true } }, (100000 * sec), by decide +kernel, by decide +kernel, by decide +kernel⟩

theorem wit_ResetCauses_4 : ∃ (s : State) (t : Nat) (a : Nat), s.dev.up ∧ s.dev.peer.silentAt = some a ∧ s.dev.rd P.DPX_STATE = 4 ∧
    s.dev.cf P.DPX_RESTART_S ≠ 0 ∧ a + s.dev.cf P.DPX_RESTART_S * sec ≤ max s.dev.now t ∧ (s.dev.at t).recentRestarts.length < s.dev.cf P.DPX_RESTART_MAX :=
  ⟨mk [(P.DPX_STATE, 0, 4), (P.DPX_RESTART_S, 0, 5), (P.DPX_RESTART_MAX, 0, 3)] fun d => { d with peer := { d.peer with silentAt := some 0 } },
    (1000 * sec), 0, by decide +kernel, by decide +kernel, by decide +kernel, by decide +kernel, by decide +kernel, by decide +kernel⟩

theorem wit_ResetCauses_5 : ∃ (s : State) (t : Nat), s.dev.pwr.mode = 2 ∧ s.dev.pwr.readyAt + 5 * sec ≤ max s.dev.now t :=
  ⟨mk [] fun d => { d with pwr := { d.pwr with mode := 2 } }, (1000 * sec), by decide +kernel, by decide +kernel⟩

theorem wit_BootAndStart_0 : ∃ (s : State) (t : Nat) (lost : Bool), s.dev.pwr.mode = 1 ∧ s.dev.pwr.hot = false ∧ s.dev.pwr.pinLow = false ∧
    s.dev.pwr.pfail = false ∧ s.dev.pwr.due = none ∧ s.dev.pwr.pending = 0xFF ∧ s.dev.slotValid s.dev.pwr.active :=
  ⟨mk [] fun d => { d with pwr := { d.pwr with mode := 1 } }, (1000 * sec), false, by decide +kernel, by decide +kernel, by decide +kernel,
    by decide +kernel, by decide +kernel, by decide +kernel, by decide +kernel⟩

theorem wit_BootAndStart_1 : ∃ (s : State) (t : Nat) (lost : Bool), s.dev.pwr.mode = 1 ∧ s.dev.pwr.hot = false ∧ s.dev.pwr.pinLow = false ∧
    s.dev.pwr.pfail = false ∧ s.dev.pwr.due = none ∧ s.dev.pwr.pending = 0xFF ∧ s.dev.slotValid s.dev.pwr.active = false ∧
    s.dev.slotValid (1 - s.dev.pwr.active) = false :=
  ⟨mk [] fun d => { d with pwr := { d.pwr with mode := 1, slots := [{}, {}] } }, (1000 * sec), false, by decide +kernel, by decide +kernel,
    by decide +kernel, by decide +kernel, by decide +kernel, by decide +kernel, by decide +kernel, by decide +kernel⟩

theorem wit_BootAndStart_2 : ∃ (s : State) (t : Nat) (torn : Bool), s.dev.pwr.mode = 2 :=
  ⟨mk [] fun d => { d with pwr := { d.pwr with mode := 2 } }, (1000 * sec), false, by decide +kernel⟩

theorem wit_BootAndStart_3 : ∃ (s : State) (t : Nat) (l : Load), s.dev.pwr.mode = 3 ∧
    s.dev.host.loads.find? (fun x => x.target == 0x7C && x.done) = some l ∧ (∀ q ∈ s.dev.host.queue, q.after = 0 ∧ ∀ p, q.decided ≠ .read p) :=
  ⟨mk [] fun d => { d with pwr := { d.pwr with mode := 3 }, host := { d.host with loads := [{ target := 0x7C, done := true }] } }, (1000 * sec),
    { target := 0x7C, done := true }, by decide +kernel, by decide +kernel, fun q hq => nomatch hq⟩

theorem wit_BootAndStart_4 : ∃ (s : State) (t : Nat) (l : Load) (other : Nat), s.dev.up ∧
    s.dev.host.loads.find? (fun x => x.target == 0x7C && x.done) = some l ∧ (∀ q ∈ s.dev.host.queue, q.after = 0 ∧ ∀ p, q.decided ≠ .read p) :=
  ⟨mk [] fun d => { d with host := { d.host with loads := [{ target := 0x7C, done := true }] } }, (1000 * sec), { target := 0x7C, done := true }, 1,
    by decide +kernel, by decide +kernel, fun q hq => nomatch hq⟩

theorem wit_SuppliesAndBackup_0 : ∃ (s : State) (t : Nat) (r : Nat) (mv : Nat), s.dev.up ∧ r < 11 ∧ mv < (nth rails r).1 :=
  ⟨mk [] id, (1000 * sec), 0, 0, by decide +kernel, by decide +kernel, by decide +kernel⟩

theorem wit_SuppliesAndBackup_1 : ∃ (s : State) (t : Nat) (die : Nat) (temp : Int), s.dev.up ∧ die < 4 ∧ 1150 ≤ temp ∧ s.dev.rd P.PWR_THERMAL = 0 :=
  ⟨mk [] id, (1000 * sec), 0, 1160, by decide +kernel, by decide +kernel, by decide +kernel, by decide +kernel⟩

theorem wit_SuppliesAndBackup_2 : ∃ (s : State) (t : Nat) (die : Nat) (since : Nat) (temp : Int), s.dev.up ∧ die < 4 ∧ 1200 ≤ temp ∧
    since + 100 * ms ≤ max s.dev.now t ∧ s.dev.rd P.PWR_THERMAL ≠ 2 :=
  ⟨mk [] id, (1000 * sec), 0, 0, 1210, by decide +kernel, by decide +kernel, by decide +kernel, by decide +kernel, by decide +kernel⟩

theorem wit_SuppliesAndBackup_3 : ∃ (s : State) (t : Nat) (die : Nat) (temps : List Int), s.dev.up ∧ die < 4 ∧ temps.length = 4 ∧ (∀ z ∈ temps,
    z < 1050) ∧ s.dev.rd P.PWR_THERMAL ≠ 0 :=
  ⟨mk [(P.PWR_THERMAL, 0, 1)] id, (1000 * sec), 0, [1000, 1000, 1000, 1000], by decide +kernel, by decide +kernel, by decide +kernel,
    by decide +kernel, by decide +kernel⟩

theorem wit_SuppliesAndBackup_4 : ∃ (s : State) (t : Nat), s.dev.up ∧ s.dev.pwr.pfail = false :=
  ⟨mk [] id, (1000 * sec), by decide +kernel, by decide +kernel⟩

theorem wit_SuppliesAndBackup_5 : ∃ (s : State) (t : Nat), s.dev.up ∧ s.dev.pwr.pfail :=
  ⟨mk [] fun d => { d with pwr := { d.pwr with pfail := true } }, (1000 * sec), by decide +kernel, by decide +kernel⟩

theorem wit_SuppliesAndBackup_6 : ∃ (s : State) (t : Nat), s.dev.up ∧ s.dev.rd P.TIM_STATE = 2 ∧ max s.dev.now t % sec = 0 ∧ s.dev.pwr.rtcAt = none :=
  ⟨mk [(P.TIM_STATE, 0, 2)] id, (1000 * sec), by decide +kernel, by decide +kernel, by decide +kernel, by decide +kernel⟩

theorem wit_SuppliesAndBackup_7 : ∃ (s : State) (t : Nat) (source : Nat) (rising : Bool), s.dev.pwr.mode = 4 ∧ (source = 1 ∨ source = 2) ∧
    bitOf (s.dev.rd P.PWR_WAKE_EN) (source - 1) ∧ bitOf (s.dev.rd P.PWR_WAKE_EDGE / 4 ^ (source - 1)) (if rising then 0 else 1) :=
  ⟨mk [(P.PWR_WAKE_EN, 0, 1), (P.PWR_WAKE_EDGE, 0, 1)] fun d => { d with pwr := { d.pwr with mode := 4 } }, (1000 * sec), 1, true, by decide +kernel,
    by decide +kernel, by decide +kernel, by decide +kernel⟩

theorem wit_SuppliesAndBackup_8 : ∃ (s : State) (t : Nat) (n : Nat), s.dev.up :=
  ⟨mk [] id, (1000 * sec), 3, by decide +kernel⟩

theorem wit_SuppliesAndBackup_9 : ∃ (s : State) (t : Nat) (addr : Nat), s.dev.up :=
  ⟨mk [] id, (1000 * sec), 9, by decide +kernel⟩

theorem wit_SuppliesAndBackup_10 : ∃ (s : State) (t : Nat) (i : Nat) (level : Nat) (until_ : Nat) (x : Session), s.dev.up ∧ s.dev.pwr.wrap = some (i,
    level, until_) ∧ until_ ≤ max s.dev.now t ∧ s.dev.slotAt i = some x :=
  ⟨mk [] fun d => { d with pwr := { d.pwr with wrap := some (0, 1, 5) }, host := { d.host with slots := [some { pending := false, level := 3 }, none, none, none] } }, (1000 * sec), 0, 1, 5, { pending := false, level := 3 }, by decide +kernel, by decide +kernel, by decide +kernel, by decide +kernel⟩

theorem wit_RecorderEntersAndFlushes_0 : ∃ (s : State) (t : Nat) (code : Nat) (tile : Nat) (body : Bytes), s.dev.up ∧ body.length ≤ 236 ∧
    code % 256 ≠ 0 ∧ code % 256 < 255 ∧ code < 65536 ∧ s.dev.cyc.inCommit = none ∧ s.dev.rd P.CHU_STATE 15 = 0 ∧ ((∀ r : Rec, r.body = body →
    s.dev.rcd.isRepeat r = false)) ∧ s.dev.rcd.full body = false :=
  ⟨mk [] id, (1000 * sec), 0x1085, 0, [1#8], by decide +kernel, by decide +kernel, by decide +kernel, by decide +kernel, by decide +kernel,
    by decide +kernel, by decide +kernel, by intro r _; unfold Recorder.isRepeat Recorder.newest Recorder.inBuf; cases r.safety <;> rfl, by decide +kernel⟩

theorem wit_RecorderEntersAndFlushes_1 : ∃ (s : State) (t : Nat) (dur : Nat), s.dev.up ∧ s.dev.rcd.pfail = false ∧ s.dev.rd P.CHU_STATE 15 = 0 ∧
    s.dev.rcd.buf = [] :=
  ⟨mk [] id, (1000 * sec), 0, by decide +kernel, by decide +kernel, by decide +kernel, by decide +kernel⟩

theorem wit_RecorderEntersAndFlushes_2 : ∃ (s : State) (t : Nat) (dur : Nat), s.dev.up ∧ s.dev.rcd.pfail = false :=
  ⟨mk [] id, (1000 * sec), 0, by decide +kernel, by decide +kernel⟩

theorem wit_RecorderEntersAndFlushes_3 : ∃ (s : State) (t : Nat) (r : Nat) (block : Nat) (cause : Nat) (lost : List Nat), s.dev.up ∧ r < 2 ∧
    1 ≤ cause ∧ cause ≤ 4 ∧ s.dev.rd P.LOG_SPARES r ≠ 0 :=
  ⟨mk [(P.LOG_SPARES, 0, 5)] id, (1000 * sec), 0, 3, 1, [], by decide +kernel, by decide +kernel, by decide +kernel, by decide +kernel, by decide +kernel⟩

theorem wit_RecorderEntersAndFlushes_4 : ∃ (s : State) (t : Nat) (r : Nat), s.dev.up ∧ r < 2 ∧ (nth s.dev.rcd.regions r).lastWords ∧
    (nth s.dev.rcd.regions r).retryAt ≤ max s.dev.now t :=
  ⟨mk [] fun d => { d with rcd := { d.rcd with regions := [{ lastWords := true }, {}] } }, (1000 * sec), 0, by decide +kernel, by decide +kernel,
    by decide +kernel, by decide +kernel⟩

theorem wit_ChutesCarryPackets_0 : ∃ (s : State) (t : Nat) (i : Nat) (p : Packet), s.dev.up ∧ i < 16 ∧ s.dev.chutes.length = 16 ∧
    s.dev.rd P.CHU_STATE i = 0 ∧ 1 ≤ p.words ∧ p.words ≤ 32 ∧ p.orphans = 0 ∧ p.cutOff = 0 ∧ p.abort = false ∧ p.parityIn ∧ p.parityOut ∧ p.descOk :=
  ⟨mk [] id, (1000 * sec), 3, {}, by decide +kernel, by decide +kernel, by decide +kernel, by decide +kernel, by decide +kernel, by decide +kernel,
    by decide +kernel, by decide +kernel, by decide +kernel, by decide +kernel, by decide +kernel, by decide +kernel⟩

theorem wit_ChutesCarryPackets_1 : ∃ (s : State) (t : Nat) (i : Nat) (p : Packet), s.dev.up ∧ i < 16 ∧ s.dev.chutes.length = 16 ∧
    s.dev.rd P.CHU_STATE i = 0 ∧ 1 ≤ p.words ∧ p.words ≤ 32 ∧ p.orphans = 0 ∧ p.cutOff = 0 ∧ p.abort :=
  ⟨mk [] id, (1000 * sec), 3, { abort := true }, by decide +kernel, by decide +kernel, by decide +kernel, by decide +kernel, by decide +kernel,
    by decide +kernel, by decide +kernel, by decide +kernel, by decide +kernel⟩

theorem wit_ChutesCarryPackets_2 : ∃ (s : State) (t : Nat) (i : Nat) (last : Nat), s.dev.up ∧ i < 16 ∧ s.dev.chutes.length = 16 ∧
    s.dev.rd P.CHU_STATE i = 0 ∧ (nth s.dev.chutes i).discarding = false ∧ last + s.dev.rd P.CHU_STALL i * us ≤ max s.dev.now t :=
  ⟨mk [] id, (1000 * sec), 3, 0, by decide +kernel, by decide +kernel, by decide +kernel, by decide +kernel, by decide +kernel, by decide +kernel⟩

theorem wit_ChutesCarryPackets_3 : ∃ (s : State) (t : Nat) (i : Nat) (since : Nat), s.dev.up ∧ i < 16 ∧ s.dev.chutes.length = 16 ∧
    (nth s.dev.chutes i).stood = some since ∧ since + s.dev.rd P.CHU_READ_IDLE i * us ≤ max s.dev.now t :=
  ⟨mk [] fun d => { d with chutes := [{ stood := some 0 }] ++ List.replicate 15 {} }, (1000 * sec), 0, 0, by decide +kernel, by decide +kernel,
    by decide +kernel, by decide +kernel, by decide +kernel⟩

theorem wit_ChutesCarryPackets_4 : ∃ (s : State) (t : Nat) (i : Nat), s.dev.up ∧ i < 16 ∧ s.dev.rd P.CHU_STATE i = 0 ∧
    3 ≤ ((nth s.dev.chutes i).parity.filter fun p => max s.dev.now t < p + sec).length :=
  ⟨mk [] fun d => { d with chutes := [{ parity := [1000 * sec, 1000 * sec, 1000 * sec] }] ++ List.replicate 15 {} }, (1000 * sec), 0,
    by decide +kernel, by decide +kernel, by decide +kernel, by decide +kernel⟩

theorem wit_DispatcherSchedules_0 : ∃ (s : State) (t : Nat) (n : Nat) (base : Nat) (c : Nat) (cs : List Nat), s.dev.up ∧ s.dev.dsp.failed = false ∧
    n < 256 ∧ base < 32 ∧ s.dev.task n = none ∧ s.dev.idleCores = c :: cs ∧ c < s.dev.dsp.cores.length :=
  ⟨mk [] id, (1000 * sec), 7, 4, 0, [1, 2, 3, 4, 5, 6, 7, 8, 9, 10, 11], by decide +kernel, by decide +kernel, by decide +kernel, by decide +kernel,
    by decide +kernel, by decide +kernel, by decide +kernel⟩

theorem wit_DispatcherSchedules_1 : ∃ (s : State) (t : Nat) (c : Nat) (x : DTask), s.dev.up ∧ s.dev.dsp.failed = false ∧ c < 12 ∧
    s.dev.dsp.cores.length = 12 ∧ (nth s.dev.dsp.cores c).state = 0 ∧ (s.dev.at t).pick c = some x :=
  ⟨mk [] fun d => { d with dsp := { d.dsp with tasks := [{ n := 7 }] } }, (1000 * sec), 0, { n := 7 }, by decide +kernel, by decide +kernel,
    by decide +kernel, by decide +kernel, by decide +kernel, by decide +kernel⟩

theorem wit_DispatcherSchedules_2 : ∃ (s : State) (t : Nat) (n : Nat) (c : Nat) (cs : List Nat) (x : DTask), s.dev.up ∧ s.dev.dsp.failed = false ∧
    s.dev.task n = some x ∧ x.n = n ∧ x.state = 1 ∧ x.held ∧ x.hold ≤ max s.dev.now t ∧ s.dev.idleCores = c :: cs ∧ c < s.dev.dsp.cores.length :=
  ⟨mk [] fun d => { d with dsp := { d.dsp with tasks := [{ n := 7, held := true, core := some 0 }] } }, (1000 * sec), 7, 0, [1, 2, 3, 4, 5, 6, 7, 8,
    9, 10, 11], { n := 7, held := true, core := some 0 }, by decide +kernel, by decide +kernel, by decide +kernel, by decide +kernel,
    by decide +kernel, by decide +kernel, by decide +kernel, by decide +kernel, by decide +kernel⟩

theorem wit_DispatcherSchedules_3 : ∃ (s : State) (t : Nat) (n : Nat) (x : DTask), s.dev.up ∧ s.dev.dsp.failed = false ∧ s.dev.task n = some x ∧
    x.n = n ∧ x.state = 1 ∧ 4 < x.level ∧ x.age + s.dev.rd P.DSP_AGE * us ≤ max s.dev.now t :=
  ⟨mk [] fun d => { d with dsp := { d.dsp with tasks := [{ n := 7 }] } }, (1000 * sec), 7, { n := 7 }, by decide +kernel, by decide +kernel,
    by decide +kernel, by decide +kernel, by decide +kernel, by decide +kernel, by decide +kernel⟩

theorem wit_DispatcherWaitsAndFaults_0 : ∃ (s : State) (t : Nat) (n : Nat) (kind : Nat) (obj : Nat) (timeout : Nat) (c : Nat) (x : DTask), s.dev.up ∧
    s.dev.dsp.failed = false ∧ s.dev.task n = some x ∧ x.n = n ∧ x.state = 2 ∧ x.core = some c ∧ kind = 2 ∧ obj < 16 ∧ timeout < 2 ^ 32 ∧
    c < s.dev.dsp.cores.length :=
  ⟨mk [] fun d => { d with dsp := { d.dsp with tasks := [{ n := 7, state := 2, core := some 0 }] } }, (1000 * sec), 7, 2, 3, 50, 0,
    { n := 7, state := 2, core := some 0 }, by decide +kernel, by decide +kernel, by decide +kernel, by decide +kernel, by decide +kernel,
    by decide +kernel, by decide +kernel, by decide +kernel, by decide +kernel, by decide +kernel⟩

theorem wit_DispatcherWaitsAndFaults_1 : ∃ (s : State) (t : Nat) (ev : Nat), s.dev.up ∧ s.dev.dsp.failed = false ∧ ev < 65536 ∧
    (∀ x ∈ s.dev.dsp.tasks, ¬ (x.state = 3 ∧ x.kind = 1 ∧ x.obj = ev)) ∧ ev ∉ s.dev.dsp.events :=
  ⟨mk [] id, (1000 * sec), 5, by decide +kernel, by decide +kernel, by decide +kernel, by decide +kernel, by decide +kernel⟩

theorem wit_DispatcherWaitsAndFaults_2 : ∃ (s : State) (t : Nat) (n : Nat) (e : Nat) (x : DTask), s.dev.up ∧ s.dev.dsp.failed = false ∧
    s.dev.task n = some x ∧ x.state = 3 ∧ x.ends = some e ∧ e ≤ max s.dev.now t :=
  ⟨mk [] fun d => { d with dsp := { d.dsp with tasks := [{ n := 7, state := 3, ends := some 5 }] } }, (1000 * sec), 7, 5,
    { n := 7, state := 3, ends := some 5 }, by decide +kernel, by decide +kernel, by decide +kernel, by decide +kernel, by decide +kernel,
    by decide +kernel⟩

theorem wit_DispatcherWaitsAndFaults_3 : ∃ (s : State) (t : Nat) (tile : Nat) (cause : Nat), s.dev.up ∧ s.dev.dsp.failed = false ∧ tile < 6 ∧
    s.dev.dsp.cores.length = 12 ∧ (nth s.dev.dsp.cores (2 * tile)).state = 0 ∧ (nth s.dev.dsp.cores (2 * tile + 1)).state = 0 :=
  ⟨mk [] id, (1000 * sec), 2, 1, by decide +kernel, by decide +kernel, by decide +kernel, by decide +kernel, by decide +kernel, by decide +kernel⟩

theorem wit_DispatcherWaitsAndFaults_4 : ∃ (s : State) (t : Nat), s.dev.up ∧ s.dev.dsp.failed = false :=
  ⟨mk [] id, (1000 * sec), by decide +kernel, by decide +kernel⟩

theorem wit_DispatcherWaitsAndFaults_5 : ∃ (s : State) (t : Nat), s.dev.up ∧ s.dev.rd P.TLG_SOURCES ≠ 0 ∧
    s.dev.tlg.syncSec ≠ some (max s.dev.now t / sec) :=
  ⟨mk [(P.TLG_SOURCES, 0, 1)] id, (1000 * sec), by decide +kernel, by decide +kernel, by decide +kernel⟩

theorem wit_AntennasAndChains_0 : ∃ (s : State) (t : Nat) (i : Nat) (ma : Nat) (peak : Nat), s.dev.up ∧ i < 2 ∧ s.dev.cf P.GNS_ANT_EN i = 1 ∧
    s.dev.cf P.GNS_ANT_BIAS i = 1 ∧ s.dev.rd P.GNS_ANT_STATE i ≠ 3 ∧ ma ≤ 1200 ∧ peak ≤ 1500 :=
  ⟨mk [(P.GNS_ANT_EN, 0, 1), (P.GNS_ANT_BIAS, 0, 1)] id, (1000 * sec), 0, 100, 200, by decide +kernel, by decide +kernel, by decide +kernel,
    by decide +kernel, by decide +kernel, by decide +kernel, by decide +kernel⟩

theorem wit_AntennasAndChains_1 : ∃ (s : State) (t : Nat) (i : Nat) (ma : Nat) (peak : Nat), s.dev.up ∧ i < 2 ∧ s.dev.gns.biasOff.length = 2 ∧
    s.dev.cf P.GNS_ANT_EN i = 1 ∧ s.dev.cf P.GNS_ANT_BIAS i = 1 ∧ s.dev.rd P.GNS_ANT_STATE i ≠ 3 ∧ 1200 < ma ∧ peak ≤ 1500 :=
  ⟨mk [(P.GNS_ANT_EN, 0, 1), (P.GNS_ANT_BIAS, 0, 1)] id, (1000 * sec), 0, 1300, 200, by decide +kernel, by decide +kernel, by decide +kernel,
    by decide +kernel, by decide +kernel, by decide +kernel, by decide +kernel, by decide +kernel⟩

theorem wit_AntennasAndChains_2 : ∃ (s : State) (t : Nat) (i : Nat) (ma : Nat), s.dev.up ∧ i < 2 ∧ s.dev.cf P.GNS_ANT_EN i = 1 ∧
    s.dev.cf P.GNS_ANT_BIAS i = 1 ∧ s.dev.rd P.GNS_ANT_STATE i = 3 ∧ nth s.dev.gns.biasOff i + sec ≤ max s.dev.now t ∧ ma ≤ 1200 :=
  ⟨mk [(P.GNS_ANT_EN, 0, 1), (P.GNS_ANT_BIAS, 0, 1), (P.GNS_ANT_STATE, 0, 3)] id, (1000 * sec), 0, 100, by decide +kernel, by decide +kernel,
    by decide +kernel, by decide +kernel, by decide +kernel, by decide +kernel, by decide +kernel⟩

theorem wit_AntennasAndChains_3 : ∃ (s : State) (t : Nat) (c : Nat), s.dev.up ∧ c < 6 ∧ s.dev.rd P.GNS_CHAIN_STATE c = 1 ∧
    nth s.dev.gns.chainSince c + 10 * ms ≤ max s.dev.now t :=
  ⟨mk [(P.GNS_CHAIN_STATE, 0, 1)] id, (1000 * sec), 0, by decide +kernel, by decide +kernel, by decide +kernel, by decide +kernel⟩

theorem wit_AntennasAndChains_4 : ∃ (s : State) (t : Nat) (c : Nat) (cause : Nat), s.dev.up ∧ c < 6 ∧
    (s.dev.rd P.GNS_CHAIN_STATE c = 1 ∨ s.dev.rd P.GNS_CHAIN_STATE c = 2) :=
  ⟨mk [(P.GNS_CHAIN_STATE, 0, 2)] id, (1000 * sec), 0, 1, by decide +kernel, by decide +kernel, by decide +kernel⟩

theorem wit_AntennasAndChains_5 : ∃ (s : State) (t : Nat) (c : Nat), s.dev.up ∧ c < 6 ∧ s.dev.rd P.GNS_CHAIN_STATE c = 3 ∧
    nth s.dev.gns.chainSince c + 10 * sec ≤ max s.dev.now t :=
  ⟨mk [(P.GNS_CHAIN_STATE, 0, 3)] id, (1000 * sec), 0, by decide +kernel, by decide +kernel, by decide +kernel, by decide +kernel⟩

theorem wit_AntennasAndChains_6 : ∃ (s : State) (t : Nat) (c : Nat) (big : Nat) (clip : Nat), s.dev.up ∧ c < 6 ∧ s.dev.rd P.GNS_CHAIN_STATE c = 2 :=
  ⟨mk [(P.GNS_CHAIN_STATE, 0, 2)] id, (1000 * sec), 0, 100, 0, by decide +kernel, by decide +kernel, by decide +kernel⟩

theorem wit_TrackingChannels_0 : ∃ (s : State) (t : Nat) (c : Nat) (n : Nat) (sums : List Int) (cn0 : Nat) (fll : Bool) (early : Option (Int × Nat)) (late : Option (Int × Nat)) (sigs : Nat) (x : Chan), s.dev.up ∧ s.dev.chan? c = some x ∧ x.c = c ∧ x.state ≠ 1 :=
  ⟨mk [] fun d => { d with gns := { d.gns with chans := [{ c := 5, state := 2 }] } }, (1000 * sec), 5, 10, [1, 2, 3, 4, 5, 6], 4000, false, none,
    none, 0, { c := 5, state := 2 }, by decide +kernel, by decide +kernel, by decide +kernel, by decide +kernel⟩

theorem wit_TrackingChannels_1 : ∃ (s : State) (t : Nat) (c : Nat) (x : Chan), s.dev.up ∧ s.dev.chan? c = some x ∧ x.state = 1 ∧
    x.since + 2 * sec ≤ max s.dev.now t :=
  ⟨mk [] fun d => { d with gns := { d.gns with chans := [{ c := 5 }] } }, (1000 * sec), 5, { c := 5 }, by decide +kernel, by decide +kernel,
    by decide +kernel, by decide +kernel⟩

theorem wit_TrackingChannels_2 : ∃ (s : State) (t : Nat) (c : Nat) (x : Chan), s.dev.up ∧ s.dev.chan? c = some x ∧ x.state = 3 ∧
    x.since + s.dev.cf P.TRK_COAST_MS * ms ≤ max s.dev.now t :=
  ⟨mk [] fun d => { d with gns := { d.gns with chans := [{ c := 5, state := 3 }] } }, (1000 * sec), 5, { c := 5, state := 3 }, by decide +kernel,
    by decide +kernel, by decide +kernel, by decide +kernel⟩

theorem wit_TrackingChannels_3 : ∃ (s : State) (t : Nat) (tile : Nat) (cause : Nat), s.dev.up ∧ tile < 28 ∧ tile ∉ s.dev.gns.tilesOut ∧
    (∀ x ∈ s.dev.gns.chans, x.c / 48 ≠ tile) :=
  ⟨mk [] fun d => { d with gns := { d.gns with chans := [{ c := 100 }] } }, (1000 * sec), 0, 1, by decide +kernel, by decide +kernel,
    by decide +kernel, by decide +kernel⟩

theorem wit_TrackingChannels_4 : ∃ (s : State) (t : Nat) (tile : Nat) (cause : Nat), s.dev.up ∧ tile < 28 ∧ tile ∉ s.dev.gns.tilesOut :=
  ⟨mk [] fun d => { d with gns := { d.gns with chans := [{ c := 5 }] } }, (1000 * sec), 0, 1, by decide +kernel, by decide +kernel, by decide +kernel⟩

theorem wit_AcquisitionAndSnapshot_0 : ∃ (s : State) (t : Nat) (sig : Nat) (ant : Nat) (sat : Nat) (ratio : Nat), s.dev.up ∧ sig < 24 ∧
    (nth signals sig).direct ∧ s.dev.cf P.GNS_RUN = 1 ∧ ratio < s.dev.cf P.GNS_ACQ_THRESH :=
  ⟨mk [(P.GNS_RUN, 0, 1)] id, (1000 * sec), 0, 0, 5, 0, by decide +kernel, by decide +kernel, by decide +kernel, by decide +kernel, by decide +kernel⟩

theorem wit_AcquisitionAndSnapshot_1 : ∃ (s : State) (t : Nat) (sig : Nat) (ant : Nat) (sat : Nat) (ratio : Nat), s.dev.up ∧ sig < 24 ∧
    (nth signals sig).direct ∧ s.dev.cf P.GNS_RUN = 1 ∧ s.dev.cf P.GNS_ACQ_THRESH ≤ ratio :=
  ⟨mk [(P.GNS_RUN, 0, 1)] id, (1000 * sec), 0, 0, 5, 60000, by decide +kernel, by decide +kernel, by decide +kernel, by decide +kernel, by decide +kernel⟩

theorem wit_AcquisitionAndSnapshot_2 : ∃ (s : State) (t : Nat) (data : List (Nat × Bytes)), s.dev.up ∧ s.dev.rd P.GNS_SNAP_STATE = 2 ∧
    s.dev.gns.snap.trig + (s.dev.cf P.GNS_SNAP_LEN - s.dev.cf P.GNS_SNAP_PRE) * ms ≤ max s.dev.now t :=
  ⟨mk [(P.GNS_SNAP_STATE, 0, 2)] id, (1000 * sec), [(0, [1#8]), (3, [2#8])], by decide +kernel, by decide +kernel, by decide +kernel⟩

theorem wit_AcquisitionAndSnapshot_3 : ∃ (s : State) (t : Nat), s.dev.up ∧ s.dev.rd P.GNS_SNAP_STATE = 4 :=
  ⟨mk [(P.GNS_SNAP_STATE, 0, 4)] id, (1000 * sec), by decide +kernel, by decide +kernel⟩

theorem wit_InterferenceAndSelfTest_0 : ∃ (s : State) (t : Nat) (c : Nat) (pk : Nat), s.dev.up ∧ c < 6 ∧ s.dev.jamActive ∧
    s.dev.cf P.GNS_ANT_EN (c / 3) = 1 ∧ s.dev.cf P.GNS_SNAP_JAM = 0 :=
  ⟨mk [(P.STA_STATE, 0, 1), (P.GNS_ANT_EN, 0, 1)] id, (1000 * sec), 0, 0, by decide +kernel, by decide +kernel, by decide +kernel, by decide +kernel,
    by decide +kernel⟩

theorem wit_InterferenceAndSelfTest_1 : ∃ (s : State) (t : Nat) (c : Nat) (db : List Nat), s.dev.up ∧ c < 6 ∧ s.dev.jamActive :=
  ⟨mk [(P.STA_STATE, 0, 1), (P.GNS_ANT_EN, 0, 1)] id, (1000 * sec), 0, [], by decide +kernel, by decide +kernel, by decide +kernel⟩

theorem wit_InterferenceAndSelfTest_2 : ∃ (s : State) (t : Nat) (c : Nat) (j : Nat) (at_ : Nat) (ok : Bool), s.dev.up ∧ s.dev.gns.testAt = some (c,
    at_) ∧ at_ + 200 * ms ≤ max s.dev.now t ∧ s.dev.testChain (c + 1) = none :=
  ⟨mk [(P.STA_STATE, 0, 5)] fun d => { d with gns := { d.gns with testAt := some (5, 0) } }, (1000 * sec), 5, 10, 0, true, by decide +kernel,
    by decide +kernel, by decide +kernel, by decide +kernel⟩

theorem wit_InterferenceAndSelfTest_3 : ∃ (s : State) (t : Nat) (c : Nat) (j : Nat) (at_ : Nat) (m : Nat) (ok : Bool), s.dev.up ∧
    s.dev.gns.testAt = some (c, at_) ∧ at_ + 200 * ms ≤ max s.dev.now t ∧ s.dev.testChain (c + 1) = some m :=
  ⟨mk [(P.STA_STATE, 0, 5), (P.GNS_ANT_EN, 0, 1)] fun d => { d with gns := { d.gns with testAt := some (0, 0) } }, (1000 * sec), 0, 10, 0, 1, true,
    by decide +kernel, by decide +kernel, by decide +kernel, by decide +kernel⟩

theorem wit_InterferenceAndSelfTest_4 : ∃ (s : State) (t : Nat) (l : List EpochChan), s.dev.up ∧ s.dev.cf P.GNS_RUN = 1 ∧
    t % (1000 / s.dev.cf P.GNS_EPOCH_RATE * ms) = 0 ∧ s.dev.chutes.length = 16 ∧ s.dev.cf P.GNS_ANT_EN 0 = 1 ∧ s.dev.cf P.GNS_ANT_EN 1 ≠ 1 :=
  ⟨mk [(P.GNS_RUN, 0, 1), (P.GNS_ANT_EN, 0, 1), (P.GNS_ANT_EN, 1, 0)] id, (1000 * sec), [], by decide +kernel, by decide +kernel, by decide +kernel,
    by decide +kernel, by decide +kernel, by decide +kernel⟩

theorem wit_LanesAndVoter_0 : ∃ (s : State) (t : Nat) (i : Nat) (l : Lane), s.dev.up ∧ i < 3 ∧ nth s.dev.stp.lanes i = l ∧ l.failed = false :=
  ⟨mk [] id, (1000 * sec), 0, {}, by decide +kernel, by decide +kernel, by decide +kernel, by decide +kernel⟩

theorem wit_LanesAndVoter_1 : ∃ (s : State) (t : Nat) (i : Nat), s.dev.up ∧ i < 3 ∧ (nth s.dev.stp.lanes i).failed = false :=
  ⟨mk [] id, (1000 * sec), 0, by decide +kernel, by decide +kernel, by decide +kernel⟩

theorem wit_LanesAndVoter_2 : ∃ (s : State) (t : Nat), s.dev.up ∧ s.dev.stp.outOn = false :=
  ⟨mk [] id, (1000 * sec), by decide +kernel, by decide +kernel⟩

theorem wit_LanesAndVoter_3 : ∃ (s : State) (t : Nat), s.dev.up ∧ s.dev.rd P.STP_MODE ≠ 2 :=
  ⟨mk [] id, (1000 * sec), by decide +kernel, by decide +kernel⟩

theorem wit_LanesAndVoter_4 : ∃ (s : State) (t : Nat), s.dev.up :=
  ⟨mk [] id, (1000 * sec), by decide +kernel⟩

theorem wit_LanesAndVoter_5 : ∃ (s : State) (t : Nat) (i : Nat) (k : Nat) (rel : Scope) (good : Bool), s.dev.up ∧ i < 3 ∧
    (nth s.dev.stp.lanes i).failed = false ∧ s.dev.stp.pendingFence = none ∧ s.dev.stp.lastRecord = some (k, rel) ∧
    s.dev.commitAt k + 12 * ms ≤ max s.dev.now t ∧ s.dev.liveCheck :=
  ⟨mk [] fun d => { d with stp := { d.stp with lastRecord := some (3, {}), level := [true, true, true, true] } }, (1000 * sec), 0, 3, {}, true,
    by decide +kernel, by decide +kernel, by decide +kernel, by decide +kernel, by decide +kernel, by decide +kernel, by decide +kernel⟩

theorem wit_LanesAndVoter_6 : ∃ (s : State) (t : Nat) (i : Nat) (k : Nat) (o : Nat), s.dev.up ∧ i < 3 ∧ s.dev.cyc.origin = some o ∧ o ≤ k ∧
    s.dev.commitAt k + 40 * ms ≤ max s.dev.now t ∧ (nth s.dev.stp.lanes i).fenceCycle = none ∧ (nth s.dev.stp.lanes i).lateFor = none :=
  ⟨mk [] fun d => { d with cyc := { d.cyc with origin := some 0 } }, (1000 * sec), 0, 5, 0, by decide +kernel, by decide +kernel, by decide +kernel,
    by decide +kernel, by decide +kernel, by decide +kernel, by decide +kernel⟩

theorem wit_EstopCircuits_0 : ∃ (s : State) (t : Nat) (i : Nat) (raw : Nat), s.dev.up ∧ i < 4 ∧ s.dev.cf P.STP_ESTOP_EN (i / 2) = 1 ∧
    raw + s.dev.cf P.STP_ESTOP_FILT * 100 * us ≤ max s.dev.now t ∧ nth s.dev.stp.level i = false :=
  ⟨mk [(P.STP_ESTOP_EN, 0, 1)] id, (1000 * sec), 0, 0, by decide +kernel, by decide +kernel, by decide +kernel, by decide +kernel, by decide +kernel⟩

theorem wit_EstopCircuits_1 : ∃ (s : State) (t : Nat) (i : Nat) (raw : Nat), s.dev.up ∧ i < 4 ∧ s.dev.cf P.STP_ESTOP_EN (i / 2) = 1 ∧
    raw + s.dev.cf P.STP_ESTOP_FILT * 100 * us ≤ max s.dev.now t ∧ nth s.dev.stp.level i = true :=
  ⟨mk [(P.STP_ESTOP_EN, 0, 1)] fun d => { d with stp := { d.stp with level := [true, true, true, true] } }, (1000 * sec), 0, 0, by decide +kernel,
    by decide +kernel, by decide +kernel, by decide +kernel, by decide +kernel⟩

theorem wit_EstopCircuits_2 : ∃ (s : State) (t : Nat) (i : Nat), s.dev.up ∧ i < 4 ∧ nth s.dev.stp.level i = true ∧ nth s.dev.stp.circuit (i / 2) = false :=
  ⟨mk [(P.STP_ESTOP_EN, 0, 1)] fun d => { d with stp := { d.stp with level := [true, true, true, true] } }, (1000 * sec), 0, by decide +kernel,
    by decide +kernel, by decide +kernel, by decide +kernel⟩

theorem wit_EstopCircuits_3 : ∃ (s : State) (t : Nat) (i : Nat), s.dev.up ∧ i < 4 ∧ nth s.dev.stp.level i = true ∧
    nth s.dev.stp.circuit (i / 2) = false ∧ s.dev.cf P.STP_ESTOP_EN (i / 2) = 1 ∧ s.dev.stp.circuit.length = 2 ∧ s.dev.stp.sawClosed.length = 2 :=
  ⟨mk [(P.STP_ESTOP_EN, 0, 1)] fun d => { d with stp := { d.stp with level := [true, true, true, true] } }, (1000 * sec), 0, by decide +kernel,
    by decide +kernel, by decide +kernel, by decide +kernel, by decide +kernel, by decide +kernel, by decide +kernel⟩

theorem wit_EstopCircuits_4 : ∃ (s : State) (t : Nat) (c : Nat) (since : Nat) (i : Nat), s.dev.up ∧ nth s.dev.stp.diffSince c = some (since, i) ∧
    since + s.dev.cf P.STP_DISC_MS * ms < max s.dev.now t ∧ i / 2 = c ∧ s.dev.cf P.STP_ESTOP_EN c = 1 ∧ nth s.dev.stp.circuit c = false :=
  ⟨mk [(P.STP_ESTOP_EN, 0, 1)] fun d => { d with stp := { d.stp with diffSince := [some (0, 1), none] } }, (1000 * sec), 0, 0, 1, by decide +kernel,
    by decide +kernel, by decide +kernel, by decide +kernel, by decide +kernel, by decide +kernel⟩

theorem wit_SilenceAndOutputs_0 : ∃ (s : State) (t : Nat) (i : Nat) (sc : Scope), s.dev.up ∧ s.dev.canScope i = some sc ∧
    s.dev.cf P.STP_CAN_HB_MS i ≠ 0 ∧ nth s.dev.stp.canLast i = none ∧ s.dev.cf P.STP_CAN_HB_MS i * ms ≤ max s.dev.now t ∧
    nth s.dev.stp.canSilent i = false :=
  ⟨mk [(P.STP_CAN_STOP, 0, 2 ^ 40), (P.STP_CAN_HB_MS, 0, 100)] id, (1000 * sec), 0, Scope.allScope, by decide +kernel, by decide +kernel,
    by decide +kernel, by decide +kernel, by decide +kernel, by decide +kernel⟩

theorem wit_SilenceAndOutputs_1 : ∃ (s : State) (t : Nat) (i : Nat), s.dev.up ∧ i < 16 ∧ s.dev.cf P.STP_REMOTE_MODE i = 2 ∧
    nth s.dev.stp.remoteLast i = none ∧ s.dev.cf P.STP_REMOTE_TMO * ms ≤ max s.dev.now t ∧ nth s.dev.stp.remoteSilent i = false :=
  ⟨mk [(P.STP_REMOTE_MODE, 3, 2)] id, (1000 * sec), 3, by decide +kernel, by decide +kernel, by decide +kernel, by decide +kernel, by decide +kernel,
    by decide +kernel⟩

theorem wit_SilenceAndOutputs_2 : ∃ (s : State) (t : Nat) (o : Nat), s.dev.up ∧ o < 2 ∧ s.dev.stp.outOn ∧ s.dev.stp.outFault = false :=
  ⟨mk [] fun d => { d with stp := { d.stp with outOn := true } }, (1000 * sec), 0, by decide +kernel, by decide +kernel, by decide +kernel,
    by decide +kernel⟩

theorem wit_SilenceAndOutputs_3 : ∃ (s : State) (t : Nat) (o : Nat) (since : Nat) (fb : Bool), s.dev.up ∧ o < 2 ∧ fb ≠ s.dev.stp.outOn ∧
    since + 2 * ms < max s.dev.now t ∧ s.dev.stp.outFault = false :=
  ⟨mk [] fun d => { d with stp := { d.stp with outOn := true } }, (1000 * sec), 0, 0, false, by decide +kernel, by decide +kernel, by decide +kernel,
    by decide +kernel, by decide +kernel⟩

theorem wit_SilenceAndOutputs_4 : ∃ (s : State) (t : Nat) (since : Nat), s.dev.up ∧ s.dev.stp.outFault ∧ since + sec ≤ max s.dev.now t :=
  ⟨mk [] fun d => { d with stp := { d.stp with outFault := true } }, (1000 * sec), 0, by decide +kernel, by decide +kernel, by decide +kernel⟩

theorem wit_SilenceAndOutputs_5 : ∃ (s : State) (t : Nat) (lanes : Nat) (chans : Nat) (slices : Nat), s.dev.up ∧ s.dev.cyc.origin = none ∧
    s.dev.stp.testsDone = false :=
  ⟨mk [] id, (1000 * sec), 0, 0, 0, by decide +kernel, by decide +kernel, by decide +kernel⟩

theorem wit_SilenceAndOutputs_6 : ∃ (s : State) (t : Nat) (i : Nat), s.dev.up ∧ i < 4 ∧ s.dev.rd P.STP_SLICE_STATE i = 1 ∧ nth s.dev.stp.unheard i < 2 :=
  ⟨mk [(P.STP_SLICE_STATE, 0, 1)] id, (1000 * sec), 0, by decide +kernel, by decide +kernel, by decide +kernel, by decide +kernel⟩

theorem wit_SilenceAndOutputs_7 : ∃ (s : State) (t : Nat) (i : Nat), s.dev.up ∧ i < 4 ∧ s.dev.rd P.STP_SLICE_STATE i = 1 ∧ 2 ≤ nth s.dev.stp.unheard i :=
  ⟨mk [(P.STP_SLICE_STATE, 0, 1)] fun d => { d with stp := { d.stp with unheard := [2, 0, 0, 0] } }, (1000 * sec), 0, by decide +kernel,
    by decide +kernel, by decide +kernel, by decide +kernel⟩

theorem wit_PeerLink_0 : ∃ (s : State) (t : Nat), s.dev.up ∧ s.dev.cf P.DPX_MODE = 1 :=
  ⟨mk [(P.DPX_MODE, 0, 1)] id, (1000 * sec), by decide +kernel, by decide +kernel⟩

theorem wit_PeerLink_1 : ∃ (s : State) (t : Nat) (m : Bytes) (offset : Int), s.dev.up ∧ m.length = 44 ∧ crcOk m ∧ s.dev.peer.hbLastSeq = none ∧
    (s.dev.pairFails m true = 0 ∨ s.dev.peer.refused = true) ∧ fld m 1 1 ≠ 1 ∧ s.dev.rd P.DPX_LINK = 0 :=
  ⟨mk [] fun d => { d with peer := { d.peer with refused := true } }, (1000 * sec), hbMsg, 0, by decide +kernel, by decide +kernel, by decide +kernel,
    by decide +kernel, by decide +kernel, by decide +kernel, by decide +kernel⟩

theorem wit_PeerLink_2 : ∃ (s : State) (t : Nat) (l : Nat), s.dev.up ∧ s.dev.rd P.DPX_LINK ≠ 0 ∧ s.dev.peer.hbLastAt = some l ∧
    l + 5 * ms ≤ max s.dev.now t :=
  ⟨mk [(P.DPX_LINK, 0, 2)] fun d => { d with peer := { d.peer with hbLastAt := some 0 } }, (1000 * sec), 0, by decide +kernel, by decide +kernel,
    by decide +kernel, by decide +kernel⟩

theorem wit_PeerLink_3 : ∃ (s : State) (t : Nat), s.dev.up ∧ s.dev.rd P.DPX_LINK = 1 ∧ 100 ≤ s.dev.peer.restored ∧ s.dev.rd P.DPX_STATE = 2 :=
  ⟨mk [(P.DPX_LINK, 0, 1), (P.DPX_STATE, 0, 2)] fun d => { d with peer := { d.peer with restored := 100 } }, (1000 * sec), by decide +kernel,
    by decide +kernel, by decide +kernel, by decide +kernel⟩

theorem wit_PeerLink_4 : ∃ (s : State) (t : Nat), s.dev.up ∧ s.dev.rd P.DPX_LINK = 1 ∧ 100 ≤ s.dev.peer.restored ∧ s.dev.rd P.DPX_STATE ≠ 2 :=
  ⟨mk [(P.DPX_LINK, 0, 1)] fun d => { d with peer := { d.peer with restored := 100 } }, (1000 * sec), by decide +kernel, by decide +kernel,
    by decide +kernel, by decide +kernel⟩

theorem wit_PeerLink_5 : ∃ (s : State) (t : Nat) (cycle : Nat) (x : Input), s.dev.up ∧ (s.dev.rd P.DPX_STATE = 2 ∨ s.dev.rd P.DPX_STATE = 3) :=
  ⟨mk [(P.DPX_STATE, 0, 2)] id, (1000 * sec), 5, {}, by decide +kernel, by decide +kernel⟩

theorem wit_PeerLink_6 : ∃ (s : State) (t : Nat), s.dev.up ∧ s.dev.active :=
  ⟨mk [(P.DPX_STATE, 0, 1)] id, (1000 * sec), by decide +kernel, by decide +kernel⟩

theorem wit_PeerLink_7 : ∃ (s : State) (t : Nat) (img : Image), s.dev.up ∧ s.dev.rd P.DPX_STATE = 3 ∧ s.dev.peer.waitCheckpoint :=
  ⟨mk [(P.DPX_STATE, 0, 3)] fun d => { d with peer := { d.peer with waitCheckpoint := true } }, (1000 * sec), { next := 6 }, by decide +kernel,
    by decide +kernel, by decide +kernel⟩

theorem wit_TakingControl_0 : ∃ (s : State) (t : Nat) (cause : Nat) (b : Nat) (j : Nat), s.dev.up ∧ s.dev.rd P.DPX_STATE = 2 ∧
    s.dev.peer.lastCopy = some j ∧ b ≤ j + 2 :=
  ⟨mk [(P.DPX_STATE, 0, 2)] fun d => { d with peer := { d.peer with lastCopy := some 8 } }, (1000 * sec), 1, 10, 8, by decide +kernel,
    by decide +kernel, by decide +kernel, by decide +kernel⟩

theorem wit_TakingControl_1 : ∃ (s : State) (t : Nat) (cause : Nat) (b : Nat), s.dev.up ∧ s.dev.rd P.DPX_STATE = 2 ∧ s.dev.peer.lastCopy = none :=
  ⟨mk [(P.DPX_STATE, 0, 2)] id, (1000 * sec), 1, 10, by decide +kernel, by decide +kernel, by decide +kernel⟩

theorem wit_TakingControl_2 : ∃ (s : State) (t : Nat) (b : Nat), s.dev.up ∧ s.dev.peer.boundary = some b ∧ s.dev.peer.yielding ∧
    b * cycleNs ≤ max s.dev.now t ∧ s.dev.rd P.DPX_STATE = 1 :=
  ⟨mk [(P.DPX_STATE, 0, 1)] fun d => { d with peer := { d.peer with boundary := some 5, yielding := true } }, (1000 * sec), 5, by decide +kernel,
    by decide +kernel, by decide +kernel, by decide +kernel, by decide +kernel⟩

theorem wit_TakingControl_3 : ∃ (s : State) (t : Nat) (b : Nat) (offset : Int) (unc : Nat), s.dev.up ∧ s.dev.rd P.DPX_STATE = 2 ∧
    s.dev.peer.giveB = some b ∧ s.dev.peer.takeSent ∧ b * cycleNs ≤ max s.dev.now t :=
  ⟨mk [(P.DPX_STATE, 0, 2)] fun d => { d with peer := { d.peer with giveB := some 5, takeSent := true } }, (1000 * sec), 5, 0, 0, by decide +kernel,
    by decide +kernel, by decide +kernel, by decide +kernel, by decide +kernel⟩

theorem wit_TakingControl_4 : ∃ (s : State) (t : Nat) (j : Nat) (offset : Int) (unc : Nat), s.dev.up ∧ s.dev.rd P.DPX_STATE = 2 ∧
    s.dev.rd P.DPX_LINK = 0 ∧ s.dev.cf P.DPX_MODE = 1 ∧ s.dev.peer.beaconCycles = [] ∧ s.dev.peer.lastCopy = some j :=
  ⟨mk [(P.DPX_STATE, 0, 2), (P.DPX_LINK, 0, 0), (P.DPX_MODE, 0, 1)] fun d => { d with peer := { d.peer with lastCopy := some 8 } }, (1000 * sec), 8,
    0, 0, by decide +kernel, by decide +kernel, by decide +kernel, by decide +kernel, by decide +kernel, by decide +kernel⟩

theorem wit_TakingControl_5 : ∃ (s : State) (t : Nat), s.dev.up ∧ s.dev.rd P.DPX_STATE = 0 ∧ s.dev.timeSet ∧
    (s.dev.tim.setAt + cycleNs - 1) / cycleNs ≤ cycleOf (max s.dev.now t) ∧ s.dev.cf P.DPX_MODE = 0 :=
  ⟨mk [(P.TIM_STATE, 0, 2), (P.DPX_MODE, 0, 0)] id, (1000 * sec), by decide +kernel, by decide +kernel, by decide +kernel, by decide +kernel,
    by decide +kernel⟩

theorem wit_TakingControl_6 : ∃ (s : State) (t : Nat) (b : Nat), s.dev.up ∧ s.dev.peer.claim = some b ∧ s.dev.side = 2 :=
  ⟨mk [(P.DPX_STATE, 0, 1), (P.DPX_SIDE, 0, 2)] fun d => { d with peer := { d.peer with claim := some 5 } }, (1000 * sec), 5, by decide +kernel,
    by decide +kernel, by decide +kernel⟩

theorem wit_TakingControl_7 : ∃ (s : State) (t : Nat), s.dev.up ∧ s.dev.active ∧ s.dev.side = 2 ∧ s.dev.peer.yielding = false :=
  ⟨mk [(P.DPX_STATE, 0, 1), (P.DPX_SIDE, 0, 2)] id, (1000 * sec), by decide +kernel, by decide +kernel, by decide +kernel, by decide +kernel⟩

theorem wit_TakingControl_8 : ∃ (s : State) (t : Nat) (w : Nat), s.dev.up ∧ s.dev.rd P.DPX_STATE = 3 ∧ s.dev.side = 1 ∧ s.dev.cf P.DPX_REVERT = 1 ∧
    s.dev.peer.holdMismatch = false ∧ s.dev.peer.waitCheckpoint = false ∧ s.dev.peer.holdFrom = some w ∧
    w + s.dev.cf P.DPX_RETURN_HOLD * sec ≤ max s.dev.now t ∧ s.dev.rd P.CHU_STATE 14 = 0 :=
  ⟨mk [(P.DPX_STATE, 0, 3), (P.DPX_REVERT, 0, 1), (P.DPX_SIDE, 0, 1)] fun d => { d with peer := { d.peer with holdFrom := some 0 } }, (1000 * sec), 0,
    by decide +kernel, by decide +kernel, by decide +kernel, by decide +kernel, by decide +kernel, by decide +kernel, by decide +kernel,
    by decide +kernel, by decide +kernel⟩

theorem wit_TakingControl_9 : ∃ (s : State) (t : Nat) (stamp : Nat) (idx : Nat) (payload : Bytes), s.dev.up ∧ s.dev.active :=
  ⟨mk [(P.DPX_STATE, 0, 1)] id, (1000 * sec), 5, 0, [], by decide +kernel, by decide +kernel⟩

theorem wit_TakingControl_10 : ∃ (s : State) (t : Nat) (x : Nat × Queued) (l : List (Nat × Queued)), s.dev.up ∧ s.dev.peer.fwd = x :: l :=
  ⟨mk [] fun d => { d with peer := { d.peer with fwd := [(5, {})] } }, (1000 * sec), (5, {}), [], by decide +kernel, by decide +kernel⟩

theorem wit_TakingControl_11 : ∃ (s : State) (t : Nat) (record : Bytes) (item : Bytes) (img : Image), s.dev.up ∧ s.dev.rd P.DPX_STATE = 2 ∧
    s.dev.peer.waitCheckpoint = false ∧ unwrap32 s.dev.cyc.next (fld record 0 4) = s.dev.cyc.next ∧
    (commitOrder ((s.dev.peer.foreign.filter fun e => e.1 == s.dev.cyc.next).map (·.2))).length = fld record 6 2 + fld record 8 4 :=
  ⟨mk [(P.DPX_STATE, 0, 2)] id, (1000 * sec), zeros 16, zeros 32, {}, by decide +kernel, by decide +kernel, by decide +kernel, by decide +kernel,
    by decide +kernel⟩

theorem wit_RingPortsAndBypass_0 : ∃ (s : State) (t : Nat) (p : Nat), s.dev.up ∧ p ≤ 1 ∧ s.dev.rd P.RNG_PORT_EN p ≠ 0 ∧ s.dev.ring.failed = [] ∧
    s.dev.rd P.RNG_PORT_STATE p < 2 ∧ s.dev.rd P.RNG_MRP_EN ≠ 1 :=
  ⟨mk [(P.RNG_PORT_EN, 0, 1)] id, (1000 * sec), 0, by decide +kernel, by decide +kernel, by decide +kernel, by decide +kernel, by decide +kernel,
    by decide +kernel⟩

theorem wit_RingPortsAndBypass_1 : ∃ (s : State) (t : Nat) (p : Nat) (mbit : Nat) (full : Bool), s.dev.up ∧ p ≤ 1 ∧ s.dev.rd P.RNG_PORT_EN p ≠ 0 ∧
    s.dev.ring.failed = [] ∧ 2 ≤ s.dev.rd P.RNG_PORT_STATE p ∧ s.dev.rd P.RNG_MRP_EN ≠ 1 :=
  ⟨mk [(P.RNG_PORT_EN, 0, 1), (P.RNG_PORT_STATE, 0, 3)] id, (1000 * sec), 0, 0, false, by decide +kernel, by decide +kernel, by decide +kernel,
    by decide +kernel, by decide +kernel, by decide +kernel⟩

theorem wit_RingPortsAndBypass_2 : ∃ (s : State) (t : Nat), s.dev.up ∧ s.dev.rd P.RNG_BYPASS_STATE = 0 ∧ s.dev.rd P.RNG_BYPASS_EN = 1 ∧
    s.dev.ring.lastFail = none ∧ s.dev.rcd.pfail = false ∧ s.dev.ring.failed = [] ∧ s.dev.rd P.RNG_PORT_STATE 0 < 2 :=
  ⟨mk [(P.RNG_BYPASS_EN, 0, 1), (P.RNG_BYPASS_STATE, 0, 0)] id, (1000 * sec), by decide +kernel, by decide +kernel, by decide +kernel,
    by decide +kernel, by decide +kernel, by decide +kernel, by decide +kernel⟩

theorem wit_RingPortsAndBypass_3 : ∃ (s : State) (t : Nat), s.dev.up ∧ s.dev.rd P.RNG_BYPASS_STATE = 1 ∧
    s.dev.ring.joinAt + s.dev.rd P.RNG_JOIN_MS * ms ≤ t :=
  ⟨mk [(P.RNG_BYPASS_STATE, 0, 1)] id, (1000 * sec), by decide +kernel, by decide +kernel, by decide +kernel⟩

theorem wit_RingPortsAndBypass_4 : ∃ (s : State) (t : Nat) (f : Nat), s.dev.up ∧ s.dev.rd P.RNG_BYPASS_STATE = 2 ∧ s.dev.ring.downSince = some f ∧
    f + sec ≤ t :=
  ⟨mk [(P.RNG_BYPASS_STATE, 0, 2)] fun d => { d with ring := { d.ring with downSince := some 0 } }, (1000 * sec), 0, by decide +kernel,
    by decide +kernel, by decide +kernel, by decide +kernel⟩

theorem wit_RingPortsAndBypass_5 : ∃ (s : State) (t : Nat) (cause : Nat), s.dev.up ∧ s.dev.ring.failed = [] ∧ s.dev.rd P.RNG_BYPASS_STATE ≠ 0 :=
  ⟨mk [(P.RNG_BYPASS_STATE, 0, 2)] id, (1000 * sec), 1, by decide +kernel, by decide +kernel, by decide +kernel⟩

theorem wit_RingPortsAndBypass_6 : ∃ (s : State) (t : Nat) (p : Nat) (interval : Nat), s.dev.up ∧ s.dev.rd P.RNG_MRP_EN = 1 ∧ p ≤ 1 ∧
    2 ≤ s.dev.rd P.RNG_PORT_STATE p ∧ s.dev.rd P.RNG_PORT_STATE 0 ≠ 2 ∧ s.dev.rd P.RNG_PORT_STATE 1 ≠ 2 :=
  ⟨mk [(P.RNG_MRP_EN, 0, 1), (P.RNG_PORT_STATE, 0, 3), (P.RNG_PORT_STATE, 1, 3)] id, (1000 * sec), 0, 10, by decide +kernel, by decide +kernel,
    by decide +kernel, by decide +kernel, by decide +kernel, by decide +kernel⟩

theorem wit_RingPortsAndBypass_7 : ∃ (s : State) (t : Nat) (f : EthFrame) (members : Nat) (x : Nat), s.dev.up ∧ f.port < 2 ∧ s.dev.ring.failed = [] ∧
    s.dev.rd P.RNG_PORT_STATE f.port = 3 ∧ f.ok ∧ 64 ≤ f.len ∧ f.len ≤ 1522 ∧ f.tag = none ∧ f.ptp = none ∧
    s.dev.vlan (s.dev.rd P.RNG_PVID f.port) = some (members, x) ∧ bitOf members f.port ∧ f.src / 2 ^ 40 % 2 = 0 ∧
    ({ s.dev.at t with ring := { s.dev.ring with table := ((s.dev.rd P.RNG_PVID f.port, f.src, f.port, t) :: (s.dev.ring.table.filter fun e => !(e.1 == s.dev.rd P.RNG_PVID f.port && e.2.1 == f.src) && decide (t < e.2.2.2 + 300 * sec))).take 1024 } } : Dev).egress f (s.dev.rd P.RNG_PVID f.port) members = [] :=
  ⟨mk [(P.RNG_PORT_STATE, 0, 3), (P.RNG_PVID, 0, 1), (P.RNG_VLAN, 0, 65537)] id, (1000 * sec), { dst := 2 ^ 40 }, 1, 0, by decide +kernel,
    by decide +kernel, by decide +kernel, by decide +kernel, by decide +kernel, by decide +kernel, by decide +kernel, by decide +kernel,
    by decide +kernel, by decide +kernel, by decide +kernel, by decide +kernel, by decide +kernel⟩

theorem wit_RingPortsAndBypass_8 : ∃ (s : State) (t : Nat) (f : EthFrame), s.dev.up ∧ f.port < 2 ∧ s.dev.ring.failed = [] ∧
    s.dev.rd P.RNG_PORT_STATE f.port = 3 ∧ f.ok = false :=
  ⟨mk [(P.RNG_PORT_STATE, 0, 3)] id, (1000 * sec), { ok := false }, by decide +kernel, by decide +kernel, by decide +kernel, by decide +kernel,
    by decide +kernel⟩

theorem wit_PrecisionTime_0 : ∃ (s : State) (t : Nat), s.dev.up ∧ (s.dev.at t).ptpJudge.rd P.RNG_PTP_STATE = 2 ∧ s.dev.rd P.RNG_PORT_STATE 0 < 2 ∧
    s.dev.rd P.RNG_PORT_STATE 1 < 2 :=
  ⟨mk [(P.DPX_MODE, 0, 0), (P.TIM_STATE, 0, 2), (P.RNG_PTP_ROLE, 0, 1)] id, (1000 * sec), by decide +kernel,
    ptp_master (by decide +kernel) (by decide +kernel), by decide +kernel, by decide +kernel⟩

theorem wit_PrecisionTime_1 : ∃ (s : State) (t : Nat), s.dev.up ∧ (s.dev.at t).ptpJudge.rd P.RNG_PTP_STATE = 2 ∧ 2 ≤ s.dev.rd P.RNG_PORT_STATE 0 ∧
    s.dev.rd P.RNG_PORT_STATE 1 < 2 :=
  ⟨mk [(P.DPX_MODE, 0, 0), (P.TIM_STATE, 0, 2), (P.RNG_PTP_ROLE, 0, 1), (P.RNG_PORT_STATE, 0, 3)] id, (1000 * sec), by decide +kernel,
    ptp_master (by decide +kernel) (by decide +kernel), by decide +kernel, by decide +kernel⟩

theorem wit_PrecisionTime_2 : ∃ (s : State) (t : Nat), s.dev.up ∧ (s.dev.at t).ptpJudge.rd P.RNG_PTP_STATE = 2 ∧ s.dev.rd P.RNG_PORT_STATE 0 < 2 ∧
    2 ≤ s.dev.rd P.RNG_PORT_STATE 1 :=
  ⟨mk [(P.DPX_MODE, 0, 0), (P.TIM_STATE, 0, 2), (P.RNG_PTP_ROLE, 0, 1), (P.RNG_PORT_STATE, 1, 3)] id, (1000 * sec), by decide +kernel,
    ptp_master (by decide +kernel) (by decide +kernel), by decide +kernel, by decide +kernel⟩

theorem wit_PrecisionTime_3 : ∃ (s : State) (t : Nat) (p : Nat) (mac : Nat), s.dev.up ∧ p ≤ 1 ∧ 2 ≤ s.dev.rd P.RNG_PORT_STATE p ∧
    s.dev.rd P.RNG_TC_EN = 1 :=
  ⟨mk [(P.RNG_PORT_STATE, 0, 3), (P.RNG_TC_EN, 0, 1)] id, (1000 * sec), 0, 5, by decide +kernel, by decide +kernel, by decide +kernel, by decide +kernel⟩

theorem wit_PrecisionTime_4 : ∃ (s : State) (t : Nat) (p : Nat) (sent : Nat) (m : PtpMsg), s.dev.up ∧ p ≤ 1 ∧ 2 ≤ s.dev.rd P.RNG_PORT_STATE p ∧
    m.type = 3 ∧ (s.dev.ring.pdReq.find? fun e => e.1 == p && e.2.1 == m.seq) = some (p, m.seq, sent) :=
  ⟨mk [(P.RNG_PORT_STATE, 0, 3)] fun d => { d with ring := { d.ring with pdReq := [(0, 9, 5)] } }, (1000 * sec), 0, 5,
    { type := 3, seq := 9, rx := 100 }, by decide +kernel, by decide +kernel, by decide +kernel, by decide +kernel, by decide +kernel⟩

theorem wit_PrecisionTime_5 : ∃ (s : State) (t : Nat) (p : Nat) (m : PtpMsg), s.dev.up ∧ p ≤ 1 ∧ 2 ≤ s.dev.rd P.RNG_PORT_STATE p ∧ m.type = 2 ∧
    s.dev.rd P.RNG_TC_EN = 1 :=
  ⟨mk [(P.RNG_PORT_STATE, 0, 3), (P.RNG_TC_EN, 0, 1)] id, (1000 * sec), 0, { type := 2 }, by decide +kernel, by decide +kernel, by decide +kernel,
    by decide +kernel, by decide +kernel⟩

theorem wit_FieldBusFrames_0 : ∃ (s : State) (t : Nat) (c : Nat) (b : Nat) (f : CanFrame), s.dev.up ∧ s.dev.active ∧ c ≤ 2 ∧
    s.dev.rd P.CAN_STATE c = 1 ∧ f.fdf = false ∧ f.rtr = false ∧ s.dev.rd P.CAN_REC c = 0 ∧ s.dev.rd P.CAN_TEC c < 128 ∧
    s.dev.rd P.CAN_REF_ROLE c ≠ 2 ∧ ((∀ i, i < 4 → s.dev.canScope i = none)) ∧
    ((List.range 64).find? fun b => cfgMatches (s.dev.bufCfg (64 * c + b)) f) = some b ∧ bitOf (fld (s.dev.bufCfg (64 * c + b)) 1 1) 3 = false :=
  ⟨mk [(P.DPX_STATE, 0, 1), (P.CAN_STATE, 0, 1)] fun d => { d with can := { d.can with cfg := [(0, 1)] } }, (1000 * sec), 0, 0,
    { id := 5, dlc := 1, data := [7#8] }, by decide +kernel, by decide +kernel, by decide +kernel, by decide +kernel, by decide +kernel,
    by decide +kernel, by decide +kernel, by decide +kernel, by decide +kernel, by decide +kernel, by decide +kernel, by decide +kernel⟩

theorem wit_FieldBusFrames_1 : ∃ (s : State) (t : Nat) (c : Nat) (b : Nat) (sof : Nat) (loop : Nat) (x : CanBuf), s.dev.up ∧ s.dev.active ∧ c ≤ 2 ∧
    s.dev.rd P.CAN_STATE c = 1 ∧ s.dev.canOffered c = some x ∧ x.i = 64 * c + b ∧ b ≠ 63 ∧ b < 64 ∧ s.dev.rd P.CAN_TEC c < 128 ∧
    s.dev.rd P.CAN_REC c < 128 ∧ x.f.brs = false :=
  ⟨mk [(P.DPX_STATE, 0, 1), (P.CAN_STATE, 0, 1)] fun d => { d with can := { d.can with bufs := [{ i := 3, txst := 2 }] } }, (1000 * sec), 0, 3, 5, 0,
    { i := 3, txst := 2 }, by decide +kernel, by decide +kernel, by decide +kernel, by decide +kernel, by decide +kernel, by decide +kernel,
    by decide +kernel, by decide +kernel, by decide +kernel, by decide +kernel, by decide +kernel⟩

theorem wit_FieldBusFrames_2 : ∃ (s : State) (t : Nat) (c : Nat) (b : Nat) (x : CanBuf), s.dev.up ∧ s.dev.active ∧ c ≤ 2 ∧
    s.dev.rd P.CAN_STATE c = 1 ∧ s.dev.canOffered c = some x ∧ x.i = 64 * c + b ∧ s.dev.rd P.CAN_TEC c + 8 < 128 ∧ s.dev.rd P.CAN_REC c < 128 ∧
    x.abort = false :=
  ⟨mk [(P.DPX_STATE, 0, 1), (P.CAN_STATE, 0, 1)] fun d => { d with can := { d.can with bufs := [{ i := 3, txst := 2 }] } }, (1000 * sec), 0, 3,
    { i := 3, txst := 2 }, by decide +kernel, by decide +kernel, by decide +kernel, by decide +kernel, by decide +kernel, by decide +kernel,
    by decide +kernel, by decide +kernel, by decide +kernel⟩

theorem wit_FieldBusFrames_3 : ∃ (s : State) (t : Nat) (c : Nat), s.dev.up ∧ s.dev.active ∧ c ≤ 2 ∧ s.dev.rd P.CAN_STATE c = 1 ∧
    s.dev.rd P.CAN_TEC c < 128 ∧ s.dev.rd P.CAN_REC c + 1 < 128 :=
  ⟨mk [(P.DPX_STATE, 0, 1), (P.CAN_STATE, 0, 1)] id, (1000 * sec), 0, by decide +kernel, by decide +kernel, by decide +kernel, by decide +kernel,
    by decide +kernel, by decide +kernel⟩

theorem wit_FieldBusFrames_4 : ∃ (s : State) (t : Nat) (c : Nat), s.dev.up ∧ s.dev.active ∧ c ≤ 2 ∧ s.dev.can.failed = [] ∧
    s.dev.rd P.CAN_MODE c = 0 ∧ s.dev.rd P.CAN_STATE c ≠ 0 :=
  ⟨mk [(P.DPX_STATE, 0, 1), (P.CAN_STATE, 0, 1)] id, (1000 * sec), 0, by decide +kernel, by decide +kernel, by decide +kernel, by decide +kernel,
    by decide +kernel, by decide +kernel⟩

theorem wit_FieldBusFrames_5 : ∃ (s : State) (t : Nat) (c : Nat), s.dev.up ∧ s.dev.active ∧ c ≤ 2 ∧ s.dev.can.failed = [] ∧
    s.dev.rd P.CAN_MODE c = 1 ∧ s.dev.rd P.CAN_STATE c = 0 ∧ ((∀ b ∈ s.dev.can.bufs, b.i / 64 = c → b.txst ≠ 1 ∧ b.txst ≠ 2)) :=
  ⟨mk [(P.DPX_STATE, 0, 1), (P.CAN_MODE, 0, 1)] id, (1000 * sec), 0, by decide +kernel, by decide +kernel, by decide +kernel, by decide +kernel,
    by decide +kernel, by decide +kernel, by decide +kernel⟩

theorem wit_FieldBusFrames_6 : ∃ (s : State) (t : Nat) (c : Nat), s.dev.up ∧ s.dev.active ∧ c ≤ 2 ∧ s.dev.rd P.CAN_REF_ROLE c = 1 ∧ s.dev.timeSet ∧
    s.dev.rd P.CAN_REF_PERIOD c ≠ 0 ∧ t % (s.dev.rd P.CAN_REF_PERIOD c * ms) = 0 ∧ (s.dev.canBuf (64 * c + 63)).txst = 0 :=
  ⟨mk [(P.DPX_STATE, 0, 1), (P.TIM_STATE, 0, 2), (P.CAN_REF_ROLE, 0, 1), (P.CAN_REF_PERIOD, 0, 100)] id, (1000 * sec), 0, by decide +kernel,
    by decide +kernel, by decide +kernel, by decide +kernel, by decide +kernel, by decide +kernel, by decide +kernel, by decide +kernel⟩

theorem wit_FieldBusControl_0 : ∃ (s : State) (t : Nat) (c : Nat) (l : Nat), s.dev.up ∧ c ≤ 2 ∧ s.dev.rd P.CAN_STATE c = 3 ∧
    s.dev.rd P.CAN_RECOVER c = 1 ∧ nth s.dev.can.offs c = [l] ∧ l + s.dev.rd P.CAN_RECOVER_MS c * ms ≤ t ∧ 1 ≤ s.dev.rd P.CAN_RECOVER_MAX c :=
  ⟨mk [(P.CAN_STATE, 0, 3), (P.CAN_RECOVER, 0, 1)] fun d => { d with can := { d.can with offs := [[0], [], []] } }, (1000 * sec), 0, 0,
    by decide +kernel, by decide +kernel, by decide +kernel, by decide +kernel, by decide +kernel, by decide +kernel, by decide +kernel⟩

theorem wit_FieldBusControl_1 : ∃ (s : State) (t : Nat) (c : Nat), s.dev.up ∧ c ≤ 2 ∧ s.dev.rd P.CAN_STATE c = 4 :=
  ⟨mk [(P.CAN_STATE, 0, 4)] id, (1000 * sec), 0, by decide +kernel, by decide +kernel, by decide +kernel⟩

theorem wit_FieldBusControl_2 : ∃ (s : State) (t : Nat) (c : Nat) (l : Nat), s.dev.up ∧ c ≤ 2 ∧ s.dev.rd P.CAN_REF_ROLE c = 2 ∧
    nth s.dev.can.refLast c = some l ∧ l + 3 * s.dev.rd P.CAN_REF_PERIOD c * ms ≤ t ∧ nth s.dev.can.refLost c = false :=
  ⟨mk [(P.CAN_REF_ROLE, 0, 2)] fun d => { d with can := { d.can with refLast := [some 0, none, none] } }, (1000 * sec), 0, 0, by decide +kernel,
    by decide +kernel, by decide +kernel, by decide +kernel, by decide +kernel, by decide +kernel⟩

theorem wit_FieldBusControl_3 : ∃ (s : State) (t : Nat) (addr : Nat) (name : Nat), s.dev.up ∧ s.dev.active ∧ s.dev.rd P.CAN_ISO_EN = 1 ∧
    s.dev.rd P.CAN_STATE 0 = 1 ∧ s.dev.rd P.CAN_ISO_STATE = 0 :=
  ⟨mk [(P.DPX_STATE, 0, 1), (P.CAN_STATE, 0, 1), (P.CAN_ISO_EN, 0, 1)] id, (1000 * sec), 5, 9, by decide +kernel, by decide +kernel,
    by decide +kernel, by decide +kernel, by decide +kernel⟩

theorem wit_FieldBusControl_4 : ∃ (s : State) (t : Nat) (addr : Nat) (name : Nat), s.dev.up ∧ s.dev.active ∧ s.dev.rd P.CAN_ISO_EN = 1 ∧
    s.dev.rd P.CAN_STATE 0 = 1 ∧ s.dev.rd P.CAN_ISO_STATE = 1 ∧ s.dev.can.claimAt + 250 * ms ≤ t :=
  ⟨mk [(P.DPX_STATE, 0, 1), (P.CAN_STATE, 0, 1), (P.CAN_ISO_EN, 0, 1), (P.CAN_ISO_STATE, 0, 1)] id, (1000 * sec), 5, 9, by decide +kernel,
    by decide +kernel, by decide +kernel, by decide +kernel, by decide +kernel, by decide +kernel⟩

theorem wit_FieldBusControl_5 : ∃ (s : State) (t : Nat) (c : Nat) (cause : Nat), s.dev.up ∧ c ≤ 2 ∧ s.dev.can.failed = [] :=
  ⟨mk [] id, (1000 * sec), 0, 1, by decide +kernel, by decide +kernel, by decide +kernel⟩

theorem wit_MeteringBlocks_0 : ∃ (s : State) (t : Nat) (c : Nat) (stamp : Nat) (last : Nat) (snum : Nat) (codes : List Int), s.dev.up ∧ c < 16 ∧
    codes.length = 40 ∧ s.dev.baysOf c ≠ [] ∧ s.dev.tooEarly stamp = false ∧
    ((nth s.dev.chutes 11).waiting.filter fun x => x.cls == 5 && x.idx == c).length < 64 :=
  ⟨mk [(P.MTR_BAY_CFG, 1, 1)] fun d => { d with cyc := { d.cyc with origin := some 0 } }, (1000 * sec), 0, (1000 * sec), (1000 * sec), 3,
    (List.replicate 40 5), by decide +kernel, by decide +kernel, by decide +kernel, by decide +kernel, by decide +kernel, by decide +kernel⟩

theorem wit_MeteringBlocks_1 : ∃ (s : State) (t : Nat) (c : Nat) (stamp : Nat) (last : Nat) (snum : Nat) (codes : List Int), s.dev.up ∧ c < 16 ∧
    codes.length = 40 ∧ s.dev.baysOf c ≠ [] ∧ s.dev.tooEarly stamp = false ∧
    64 ≤ ((nth s.dev.chutes 11).waiting.filter fun x => x.cls == 5 && x.idx == c).length :=
  ⟨mk [(P.MTR_BAY_CFG, 1, 1)] fun d => { d with cyc := { d.cyc with origin := some 0 }, chutes := List.replicate 11 {} ++ [{ waiting := List.replicate 64 { cls := 5 } }] ++ List.replicate 4 {} }, (1000 * sec), 0, (1000 * sec), (1000 * sec), 3, (List.replicate 40 5), by decide +kernel, by decide +kernel, by decide +kernel, by decide +kernel, by decide +kernel, by decide +kernel⟩

theorem wit_MeteringBlocks_2 : ∃ (s : State) (t : Nat) (c : Nat) (cause : Nat), s.dev.up ∧ c ≤ 16 ∧ s.dev.mtr.failed.contains c = false :=
  ⟨mk [] id, (1000 * sec), 3, 1, by decide +kernel, by decide +kernel, by decide +kernel⟩

theorem wit_AxesMoveAndStop_0 : ∃ (s : State) (t : Nat) (c : Nat) (gs : List GStep), s.dev.up ∧ s.dev.active ∧ s.dev.drk.failed = false ∧
    s.dev.drk.lines = [] ∧ s.dev.drk.inbox = [(c, gs)] ∧ c ≤ t ∧ s.dev.stp.outOn = false :=
  ⟨mk [(P.DPX_STATE, 0, 1)] fun d => { d with drk := { d.drk with inbox := [(5, [{ mask := 4 }])] } }, (1000 * sec), 5, [{ mask := 4 }],
    by decide +kernel, by decide +kernel, by decide +kernel, by decide +kernel, by decide +kernel, by decide +kernel, by decide +kernel⟩

theorem wit_AxesMoveAndStop_1 : ∃ (s : State) (t : Nat) (c : Nat) (l : Nat) (vc : Nat) (a : Nat) (dc : Nat) (g : GStep) (gs : List GStep), s.dev.up ∧
    s.dev.active ∧ s.dev.drk.failed = false ∧ s.dev.drk.lines = [] ∧ s.dev.drk.waiting = [] ∧ s.dev.drk.gantry = [] ∧ s.dev.drk.inbox = [(c,
    g :: gs)] ∧ c ≤ t ∧ s.dev.stp.outOn ∧ g.mask = 4 ∧ s.dev.rd P.DRK_STATE 2 = 3 ∧ s.dev.movePlan 4 [0, 0, nth g.target 2 - s.dev.rdS P.DRK_POS 2,
    0] = (l, vc, a, dc) ∧ 0 < l :=
  ⟨mk [(P.DPX_STATE, 0, 1), (P.DRK_STATE, 2, 3), (P.DRK_VMAX, 2, 100), (P.DRK_ACC, 2, 50), (P.DRK_DEC, 2,
    40)] fun d => { d with drk := { d.drk with inbox := [(5, [{ mask := 4, target := [0, 0, 500, 0] }])] }, stp := { d.stp with outOn := true } },
    (1000 * sec), 5, 500, 100, 50, 40, { mask := 4, target := [0, 0, 500, 0] }, [], by decide +kernel, by decide +kernel, by decide +kernel,
    by decide +kernel, by decide +kernel, by decide +kernel, by decide +kernel, by decide +kernel, by decide +kernel, by decide +kernel,
    by decide +kernel, by decide +kernel, by decide +kernel⟩

theorem wit_AxesMoveAndStop_2 : ∃ (s : State) (t : Nat) (ax : Nat) (x : Line), s.dev.up ∧ s.dev.drk.lines = [x] ∧ ax ≤ 3 ∧ x.mask = 2 ^ ax ∧
    x.stop = none ∧ x.done t ∧ s.dev.drk.waiting = [] ∧ s.dev.drk.gantry = [] ∧ s.dev.rd P.DRK_OWNER = 0 :=
  ⟨mk [(P.DRK_STATE, 0, 4)] fun d => { d with drk := { d.drk with lines := [{ mask := 1, target := [100, 0, 0, 0], len := 100, vc := 10, a := 5, dc := 5 }] } }, (1000 * sec), 0, { mask := 1, target := [100, 0, 0, 0], len := 100, vc := 10, a := 5, dc := 5 }, by decide +kernel, by decide +kernel, by decide +kernel, by decide +kernel, by decide +kernel, by decide +kernel, by decide +kernel, by decide +kernel, by decide +kernel⟩

theorem wit_AxesMoveAndStop_3 : ∃ (s : State) (t : Nat) (ax : Nat) (x : Line), s.dev.up ∧ s.dev.drk.lines = [x] ∧ ax ≤ 3 ∧ x.mask = 2 ^ ax ∧
    x.stop.isSome ∧ x.done t ∧ x.home = 0 ∧ x.faults = [] ∧ s.dev.drk.waiting = [] ∧ s.dev.drk.gantry = [] :=
  ⟨mk [(P.DRK_STATE, 0, 5)] fun d => { d with drk := { d.drk with lines := [{ mask := 1, target := [100, 0, 0, 0], len := 100, vc := 10, a := 5, dc := 5, stop := some (0, 50, 10, 5) }] } }, (1000 * sec), 0, { mask := 1, target := [100, 0, 0, 0], len := 100, vc := 10, a := 5, dc := 5, stop := some (0, 50, 10, 5) }, by decide +kernel, by decide +kernel, by decide +kernel, by decide +kernel, by decide +kernel, by decide +kernel, by decide +kernel, by decide +kernel, by decide +kernel, by decide +kernel⟩

theorem wit_AxesHomeAndFault_0 : ∃ (s : State) (t : Nat) (ax : Nat) (x : Line), s.dev.up ∧ s.dev.drk.lines = [x] ∧ ax ≤ 3 ∧ x.mask = 2 ^ ax ∧
    x.home = 1 ∧ x.stop = none :=
  ⟨mk [(P.DRK_STATE, 0, 2)] fun d => { d with drk := { d.drk with lines := [{ mask := 1, target := [100, 0, 0, 0], len := 100, vc := 10, a := 5, dc := 5, home := 1 }] } }, (1000 * sec), 0, { mask := 1, target := [100, 0, 0, 0], len := 100, vc := 10, a := 5, dc := 5, home := 1 }, by decide +kernel, by decide +kernel, by decide +kernel, by decide +kernel, by decide +kernel, by decide +kernel⟩

theorem wit_AxesHomeAndFault_1 : ∃ (s : State) (t : Nat) (ax : Nat) (x : Line), s.dev.up ∧ s.dev.drk.lines = [x] ∧ ax ≤ 3 ∧ x.mask = 2 ^ ax ∧
    x.home = 3 ∧ x.stop = none ∧ x.start.length = 4 ∧ x.target.length = 4 :=
  ⟨mk [(P.DRK_STATE, 0, 2), (P.DRK_HOME_OFS, 0,
    7)] fun d => { d with drk := { d.drk with lines := [{ mask := 1, target := [100, 0, 0, 0], len := 100, vc := 10, a := 5, dc := 5, home := 3 }] } }, (1000 * sec), 0, { mask := 1, target := [100, 0, 0, 0], len := 100, vc := 10, a := 5, dc := 5, home := 3 }, by decide +kernel, by decide +kernel, by decide +kernel, by decide +kernel, by decide +kernel, by decide +kernel, by decide +kernel, by decide +kernel⟩

theorem wit_AxesHomeAndFault_2 : ∃ (s : State) (t : Nat) (ax : Nat) (x : Line), s.dev.up ∧ s.dev.drk.lines = [x] ∧ ax ≤ 3 ∧ x.mask = 2 ^ ax ∧
    x.stop.isSome ∧ x.done t ∧ x.home = 4 ∧ x.faults = [] ∧ s.dev.drk.waiting = [] ∧ s.dev.drk.gantry = [] :=
  ⟨mk [(P.DRK_STATE, 0, 2)] fun d => { d with drk := { d.drk with lines := [{ mask := 1, target := [100, 0, 0, 0], len := 100, vc := 10, a := 5, dc := 5, home := 4, stop := some (0, 50, 10, 5) }] } }, (1000 * sec), 0, { mask := 1, target := [100, 0, 0, 0], len := 100, vc := 10, a := 5, dc := 5, home := 4, stop := some (0, 50, 10, 5) }, by decide +kernel, by decide +kernel, by decide +kernel, by decide +kernel, by decide +kernel, by decide +kernel, by decide +kernel, by decide +kernel, by decide +kernel, by decide +kernel⟩

theorem wit_AxesHomeAndFault_3 : ∃ (s : State) (t : Nat) (ax : Nat) (positive : Bool) (x : Line), s.dev.up ∧ s.dev.drk.lines = [x] ∧ ax ≤ 3 ∧
    x.mask = 2 ^ ax ∧ x.home = 0 ∧ x.stop = none ∧ x.faults = [] ∧ s.dev.drk.waiting = [] ∧ s.dev.rd P.DRK_STATE ax = 4 :=
  ⟨mk [(P.DRK_STATE, 0, 4), (P.DRK_EDEC, 0,
    77)] fun d => { d with drk := { d.drk with lines := [{ mask := 1, target := [100, 0, 0, 0], len := 100, vc := 10, a := 5, dc := 5 }] } },
    (1000 * sec), 0, true, { mask := 1, target := [100, 0, 0, 0], len := 100, vc := 10, a := 5, dc := 5 }, by decide +kernel, by decide +kernel,
    by decide +kernel, by decide +kernel, by decide +kernel, by decide +kernel, by decide +kernel, by decide +kernel, by decide +kernel⟩

theorem wit_AxesHomeAndFault_4 : ∃ (s : State) (t : Nat) (ax : Nat) (input : Nat) (edges : Nat), s.dev.up ∧ ax ≤ 3 ∧
    s.dev.rd P.DRK_CHATTER_N ax < edges ∧ s.dev.drk.lines = [] ∧ s.dev.rd P.DRK_STATE ax = 3 ∧ s.dev.rd P.DRK_FAULT ax = 0 :=
  ⟨mk [(P.DRK_STATE, 0, 3)] id, (1000 * sec), 0, 1, 1000, by decide +kernel, by decide +kernel, by decide +kernel, by decide +kernel,
    by decide +kernel, by decide +kernel⟩

theorem wit_AxesHomeAndFault_5 : ∃ (s : State) (t : Nat) (ax : Nat) (count : Int), s.dev.up ∧ ax ≤ 3 ∧ s.dev.rd P.DRK_ENC_RATIO ax ≠ 0 ∧
    s.dev.drk.lines = [] ∧ (s.dev.rdS P.DRK_POS ax - count * s.dev.rd P.DRK_ENC_RATIO ax / 65536).natAbs ≤ s.dev.rd P.DRK_FERR_MAX ax :=
  ⟨mk [(P.DRK_ENC_RATIO, 0, 65536), (P.DRK_FERR_MAX, 0, 10)] id, (1000 * sec), 0, 5, by decide +kernel, by decide +kernel, by decide +kernel,
    by decide +kernel, by decide +kernel⟩

theorem wit_AxesHomeAndFault_6 : ∃ (s : State) (t : Nat) (ax : Nat) (count : Int), s.dev.up ∧ ax ≤ 3 ∧ s.dev.rd P.DRK_ENC_RATIO ax ≠ 0 ∧
    s.dev.drk.lines = [] ∧ s.dev.rd P.DRK_FERR_MAX ax < (s.dev.rdS P.DRK_POS ax - count * s.dev.rd P.DRK_ENC_RATIO ax / 65536).natAbs ∧
    nth s.dev.drk.ferr ax = 1 ∧ s.dev.rd P.DRK_STATE ax = 3 ∧ s.dev.rd P.DRK_FAULT ax = 0 :=
  ⟨mk [(P.DRK_ENC_RATIO, 0, 65536), (P.DRK_FERR_MAX, 0, 10), (P.DRK_STATE, 0, 3)] fun d => { d with drk := { d.drk with ferr := [1, 0, 0, 0] } },
    (1000 * sec), 0, 50, by decide +kernel, by decide +kernel, by decide +kernel, by decide +kernel, by decide +kernel, by decide +kernel,
    by decide +kernel, by decide +kernel⟩

theorem wit_AxesHomeAndFault_7 : ∃ (s : State) (t : Nat), s.dev.up :=
  ⟨mk [(P.DRK_STATE, 1, 3)] id, (1000 * sec), by decide +kernel⟩

theorem wit_FramesOnAir_0 : ∃ (s : State) (t : Nat) (i : Nat) (f : TxFrame), s.dev.up ∧ s.dev.active ∧ s.dev.replay = false ∧ i < 4 ∧ ((∀ j, j < 4 →
    s.dev.rd P.STP_SLICE_STATE j = 1)) ∧ nth s.dev.air.onAir i = none ∧ s.dev.air.onAir.length = 4 ∧ s.dev.air.queues.length = 4 ∧
    nth s.dev.air.stay i ≤ (max s.dev.now t) ∧ headFrame (nth s.dev.air.queues i) = some f ∧ f.psdu = none ∧ f.flood = false ∧ f.retries = 0 ∧
    (s.dev.airKey f.key).cur.isSome ∧ s.dev.rd P.AIR_FCNT f.key + 1 < 0xF0000000 ∧ s.dev.cf P.STP_BCN_OFS = 0 ∧
    (cycleOf (max s.dev.now t)) * cycleNs + 10 * ms ≤ (max s.dev.now t) ∧
    (max s.dev.now t) + (airTime (s.dev.cf P.AIR_RATE i) (32 + f.part.length) + 256 + airTime (s.dev.cf P.AIR_RATE i) 10 + 100) * us ≤ ((cycleOf (max s.dev.now t)) + 1) * cycleNs ∧ s.dev.air.silent = [] ∧ s.dev.used i (s.dev.channel i (cycleOf (max s.dev.now t))) (cycleOf (max s.dev.now t)) + airTime (s.dev.cf P.AIR_RATE i) (32 + f.part.length) ≤ (s.dev.profileOf i).budget - s.dev.cf P.AIR_SAFE_RESERVE * 1000 :=
  ⟨mk [(P.DPX_STATE, 0, 1), (P.STP_SLICE_STATE, 0, 1), (P.STP_SLICE_STATE, 1, 1), (P.STP_SLICE_STATE, 2, 1), (P.STP_SLICE_STATE, 3, 1),
    (P.STP_BCN_OFS, 0, 0)] fun d => { d with air := { d.air with keys := [{ inst := 0, cur := some (zeros 16) }, { inst := 3, cur := some (zeros 16) }], queues := [[{ key := 3, machine := 3, type := 0x33, part := [0x33#8] }], [], [], []] } }, (1000 * sec + 20 * ms), 0, { key := 3, machine := 3, type := 0x33, part := [0x33#8] }, by decide +kernel, by decide +kernel, by decide +kernel, by decide +kernel, by decide +kernel, by decide +kernel, by decide +kernel, by decide +kernel, by decide +kernel, by decide +kernel, by decide +kernel, by decide +kernel, by decide +kernel, by decide +kernel, by decide +kernel, by decide +kernel, by decide +kernel, by decide +kernel, by decide +kernel, by decide +kernel⟩

theorem wit_FramesOnAir_1 : ∃ (s : State) (t : Nat) (i : Nat) (psdu : Bytes) (sent : Bytes) (o : OnAir), s.dev.up ∧ nth s.dev.air.onAir i = some o ∧
    o.frame.psdu = some sent ∧ o.frame.flood = false ∧ o.fin ≤ (max s.dev.now t) ∧ (max s.dev.now t) ≤ o.wait ∧ psdu.length = 10 ∧
    crc32 (psdu.take 6) = fld psdu 6 4 ∧ fld psdu 0 1 / 64 = 1 ∧ bitOf (fld psdu 0 1) 4 = false ∧ fld psdu 1 1 = fld sent 1 1 ∧
    fld psdu 2 2 = fld sent 4 2 ∧ fld psdu 4 2 = fld sent 2 2 :=
  ⟨mk [] fun d => { d with air := { d.air with onAir := [some { frame := { psdu := some (zeros 20) }, wait := 2000 * sec }, none, none, none] } },
    (1000 * sec), 0, ackBytes, (zeros 20), { frame := { psdu := some (zeros 20) }, wait := 2000 * sec }, by decide +kernel, by decide +kernel,
    by decide +kernel, by decide +kernel, by decide +kernel, by decide +kernel, by decide +kernel, by decide +kernel, by decide +kernel,
    by decide +kernel, by decide +kernel, by decide +kernel, by decide +kernel⟩

theorem wit_FramesOnAir_2 : ∃ (s : State) (t : Nat) (i : Nat) (o : OnAir), s.dev.up ∧ nth s.dev.air.onAir i = some o ∧ o.wait ≤ (max s.dev.now t) ∧
    o.frame.flood = false ∧ o.frame.retries + 1 ≤ s.dev.cf P.AIR_RETRIES :=
  ⟨mk [] fun d => { d with air := { d.air with onAir := [some { wait := 5 }, none, none, none] } }, (1000 * sec), 0, { wait := 5 }, by decide +kernel,
    by decide +kernel, by decide +kernel, by decide +kernel, by decide +kernel⟩

theorem wit_FramesOnAir_3 : ∃ (s : State) (t : Nat) (i : Nat) (f : TxFrame), s.dev.up ∧ nth s.dev.air.queues i = [f] ∧
    f.since + 500 * ms ≤ (max s.dev.now t) ∧ i < s.dev.air.queues.length :=
  ⟨mk [] fun d => { d with air := { d.air with queues := [[{ key := 3, machine := 3, type := 0x33, part := [0x33#8] }], [], [], []] } }, (1000 * sec),
    0, { key := 3, machine := 3, type := 0x33, part := [0x33#8] }, by decide +kernel, by decide +kernel, by decide +kernel, by decide +kernel⟩

theorem wit_FramesOnAir_4 : ∃ (s : State) (t : Nat) (i : Nat), s.dev.up ∧ i < 4 ∧ s.dev.rd P.STP_SLICE_STATE i ≠ 2 ∧ ((∀ j, j < 4 →
    nth s.dev.air.queues j = [])) :=
  ⟨mk [(P.STP_SLICE_STATE, 0, 1)] id, (1000 * sec), 0, by decide +kernel, by decide +kernel, by decide +kernel, by decide +kernel⟩

theorem wit_BeaconsAndStopFrames_0 : ∃ (s : State) (t : Nat) (i : Nat), s.dev.up ∧ s.dev.active ∧ s.dev.replay = false ∧ i < 4 ∧
    s.dev.rd P.STP_SLICE_STATE i = 1 ∧ s.dev.cf P.STP_HUB_ID ≠ 0 ∧ (s.dev.airKey 0).cur.isSome ∧ s.dev.rd P.AIR_FCNT 0 + 1 < 0xF0000000 ∧
    s.dev.tokenOk ((cycleOf (max s.dev.now t)) * cycleNs + (s.dev.cf P.STP_BCN_OFS + 3 * i) * ms) ∧ s.dev.tim.untrusted = false ∧
    (cycleOf (max s.dev.now t)) * cycleNs + (s.dev.cf P.STP_BCN_OFS + 3 * i) * ms ≤ (max s.dev.now t) ∧
    (max s.dev.now t) < (cycleOf (max s.dev.now t)) * cycleNs + (s.dev.cf P.STP_BCN_OFS + 3 * i) * ms + ms ∧
    nth s.dev.air.bcnDone i ≠ some (cycleOf (max s.dev.now t)) ∧ s.dev.air.bcnDone.length = 4 ∧ s.dev.air.silent = [] ∧
    s.dev.used i (s.dev.channel i (cycleOf (max s.dev.now t))) (cycleOf (max s.dev.now t)) + airTime (s.dev.cf P.AIR_RATE i) 72 ≤ (s.dev.profileOf i).budget :=
  ⟨mk [(P.DPX_STATE, 0, 1), (P.STP_SLICE_STATE, 0, 1), (P.STP_HUB_ID, 0, 9), (P.STP_BCN_OFS, 0,
    0)] fun d => { d with air := { d.air with keys := [{ inst := 0, cur := some (zeros 16) }, { inst := 3, cur := some (zeros 16) }], lseq := 5 }, stp := { d.stp with permits := [(1000 * sec - 500000, true), (1000 * sec - 1500000, true)] } }, (1000 * sec), 0, by decide +kernel, by decide +kernel, by decide +kernel, by decide +kernel, by decide +kernel, by decide +kernel, by decide +kernel, by decide +kernel, by decide +kernel, by decide +kernel, by decide +kernel, by decide +kernel, by decide +kernel, by decide +kernel, by decide +kernel, by decide +kernel⟩

theorem wit_BeaconsAndStopFrames_1 : ∃ (s : State) (t : Nat) (se : Series), s.dev.up ∧ s.dev.active ∧ s.dev.replay = false ∧
    s.dev.stp.series = some se ∧ se.due ≤ (max s.dev.now t) ∧ s.dev.stp.out.scope ≠ {} ∧ se.next + 1 < 50 ∧ s.dev.slicesIn = [] :=
  ⟨mk [(P.DPX_STATE, 0, 1)] fun d => { d with stp := { d.stp with series := some {} } }, (1000 * sec), {}, by decide +kernel, by decide +kernel,
    by decide +kernel, by decide +kernel, by decide +kernel, by decide +kernel, by decide +kernel, by decide +kernel⟩

theorem wit_BeaconsAndStopFrames_2 : ∃ (s : State) (t : Nat) (i : Nat) (se : Series), s.dev.up ∧ s.dev.active ∧ s.dev.replay = false ∧
    s.dev.stp.series = some se ∧ se.due ≤ (max s.dev.now t) ∧ s.dev.stp.out.scope ≠ {} ∧ se.next = 49 ∧ s.dev.slicesIn = [i] ∧
    (s.dev.airKey 0).cur.isSome ∧ s.dev.rd P.AIR_FCNT 0 + 1 < 0xF0000000 ∧ nth s.dev.air.onAir i = none ∧ s.dev.air.silent = [] ∧
    s.dev.used i (s.dev.channel i (cycleOf (max s.dev.now t))) (cycleOf (max s.dev.now t)) + airTime (s.dev.cf P.AIR_RATE i) 76 ≤ (s.dev.profileOf i).budget :=
  ⟨mk [(P.DPX_STATE, 0, 1), (P.STP_SLICE_STATE, 0,
    1)] fun d => { d with air := { d.air with keys := [{ inst := 0, cur := some (zeros 16) }, { inst := 3, cur := some (zeros 16) }], lseq := 5 }, stp := { d.stp with series := some { next := 49 } } }, (1000 * sec + 20 * ms), 0, { next := 49 }, by decide +kernel, by decide +kernel, by decide +kernel, by decide +kernel, by decide +kernel, by decide +kernel, by decide +kernel, by decide +kernel, by decide +kernel, by decide +kernel, by decide +kernel, by decide +kernel, by decide +kernel⟩

theorem wit_FramesReceived_0 : ∃ (s : State) (t : Nat) (i : Nat) (sfd : Nat) (f : Bytes), s.dev.up ∧ s.dev.active ∧ s.dev.replay = false ∧ i < 4 ∧
    s.dev.rd P.STP_SLICE_STATE i = 1 ∧ cycleOf sfd = (cycleOf (max s.dev.now t)) ∧ 100 * us ≤ sfd % cycleNs ∧ 10 ≤ f.length ∧
    crc32 (f.take (f.length - 4)) ≠ fld f (f.length - 4) 4 :=
  ⟨mk [(P.DPX_STATE, 0, 1), (P.STP_SLICE_STATE, 0, 1)] id, (1000 * sec + 20 * ms), 0, (1000 * sec + 10 * ms), zeros 20, by decide +kernel,
    by decide +kernel, by decide +kernel, by decide +kernel, by decide +kernel, by decide +kernel, by decide +kernel, by decide +kernel, by decide +kernel⟩

theorem wit_FramesReceived_1 : ∃ (s : State) (t : Nat) (i : Nat) (sfd : Nat) (n : Nat) (f : Bytes) (key : Bytes) (plain : Bytes), s.dev.up ∧
    s.dev.active ∧ s.dev.replay = false ∧ i < 4 ∧ s.dev.rd P.STP_SLICE_STATE i = 1 ∧ cycleOf sfd = (cycleOf (max s.dev.now t)) ∧
    100 * us ≤ sfd % cycleNs ∧ crc32 (f.take (f.length - 4)) = fld f (f.length - 4) 4 ∧ fld f 0 1 = 0 ∧ fld f 2 2 = s.dev.side ∧
    fld f 4 2 = 0x0100 + n ∧ fld f 6 2 = 0x0100 + n ∧ fld f 8 2 = s.dev.side ∧ 1 ≤ n ∧ n ≤ 96 ∧ s.dev.com.jobMachines.contains n ∧
    s.dev.air.links = [] ∧ s.dev.air.heard = [] ∧ frameFieldsOk f ∧ fld f 11 1 = 64 ∧ fld f 18 1 = 0 ∧ s.dev.headerKey f = some (n, key) ∧
    plain = xorB (cut f 20 (f.length - 32)) (ccmStream key (airNonce (0x0100 + n) (s.dev.cf P.STP_HUB_ID) 1 (fld f 10 1) (fld f 12 4)) 1 (f.length - 32)) ∧ ccmTag key (airNonce (0x0100 + n) (s.dev.cf P.STP_HUB_ID) 1 (fld f 10 1) (fld f 12 4)) (cut f 6 14) plain 8 = cut f (20 + (f.length - 32)) 8 ∧ (s.dev.window (0x0100 + n) n (fld f 10 1) (fld f 12 4)).1 ∧ fld plain 0 1 = 0x34 ∧ plain ≠ [] ∧ s.dev.rd P.MSH_ROUTE n = 0 :=
  ⟨rxW, (1000 * sec + 20 * ms), 0, (1000 * sec + 10 * ms), 3, rxF, zeros 16, [0x34#8], by decide +kernel, by decide +kernel, by decide +kernel,
    by decide +kernel, by decide +kernel, by decide +kernel, by decide +kernel, by decide +kernel, by decide +kernel, by decide +kernel,
    by decide +kernel, by decide +kernel, by decide +kernel, by decide +kernel, by decide +kernel, by decide +kernel, by decide +kernel,
    by decide +kernel, by decide +kernel, by decide +kernel, by decide +kernel, by decide +kernel, by decide +kernel, by decide +kernel,
    by decide +kernel, by decide +kernel, by decide +kernel, by decide +kernel⟩

theorem wit_FramesReceived_2 : ∃ (s : State) (t : Nat) (r : Reasm), s.dev.up ∧ s.dev.air.reasm = [r] ∧
    r.opened + s.dev.cf P.AIR_REASM_MS * ms ≤ (max s.dev.now t) ∧ s.dev.air.orphans = [] :=
  ⟨mk [] fun d => { d with air := { d.air with reasm := [{ origin := 3, mid := 4 }] } }, (1000 * sec), { origin := 3, mid := 4 }, by decide +kernel,
    by decide +kernel, by decide +kernel, by decide +kernel⟩

theorem wit_KeysAndLinkConfiguration_0 : ∃ (s : State) (t : Nat) (n : Nat) (a : Nat) (key : Bytes), s.dev.up ∧ 1 ≤ n ∧ n ≤ 96 ∧
    (s.dev.airKey n).roll = some a ∧ (s.dev.airKey n).next = some key ∧ (s.dev.airKey n).inst = n ∧ notLater a (u32 (cycleOf (max s.dev.now t))) ∧
    s.dev.air.deliveries = [] :=
  ⟨mk [] fun d => { d with air := { d.air with keys := [{ inst := 3, cur := some (zeros 16), next := some (zeros 16), roll := some 5 }] } },
    (1000 * sec), 3, 5, zeros 16, by decide +kernel, by decide +kernel, by decide +kernel, by decide +kernel, by decide +kernel, by decide +kernel,
    by decide +kernel, by decide +kernel⟩

theorem wit_KeysAndLinkConfiguration_1 : ∃ (s : State) (t : Nat) (n : Nat) (i : Nat) (kclass : Nat) (x : Delivery), s.dev.up ∧ s.dev.active ∧
    s.dev.replay = false ∧ s.dev.air.deliveries = [x] ∧ x.machine = n ∧ x.kind = 1 ∧ x.kclass = kclass ∧ x.done = false ∧ x.sent = none ∧
    fragments x.msg = [(0, 0, x.msg)] ∧ (s.dev.airKey n).cur.isSome ∧ s.dev.rd P.AIR_FCNT n < fcntStick ∧ s.dev.sliceFor n = some i ∧
    (nth s.dev.air.queues i).length < 256 ∧ i < s.dev.air.queues.length ∧ s.dev.rd P.MSH_ROUTE n ≠ 1 :=
  ⟨mk [(P.DPX_STATE, 0, 1), (P.STP_SLICE_STATE, 0,
    1)] fun d => { d with air := { d.air with keys := [{ inst := 0, cur := some (zeros 16) }, { inst := 3, cur := some (zeros 16) }], deliveries := [{ machine := 3, kind := 1, msg := zeros 24 }] } }, (1000 * sec), 3, 0, 0, { machine := 3, kind := 1, msg := zeros 24 }, by decide +kernel, by decide +kernel, by decide +kernel, by decide +kernel, by decide +kernel, by decide +kernel, by decide +kernel, by decide +kernel, by decide +kernel, by decide +kernel, by decide +kernel, by decide +kernel, by decide +kernel, by decide +kernel, by decide +kernel, by decide +kernel⟩

theorem wit_KeysAndLinkConfiguration_2 : ∃ (s : State) (t : Nat) (n : Nat) (i : Nat), s.dev.up ∧ s.dev.active ∧ s.dev.replay = false ∧
    s.dev.air.deliveries = [] ∧ 1 ≤ n ∧ n ≤ 96 ∧ (s.dev.airKey n).cur.isSome ∧ s.dev.rd P.AIR_FCNT n < fcntStick ∧ s.dev.sliceFor n = some i ∧
    (nth s.dev.air.queues i).length < 256 ∧ i < s.dev.air.queues.length ∧ s.dev.rd P.MSH_ROUTE n ≠ 1 :=
  ⟨mk [(P.DPX_STATE, 0, 1), (P.STP_SLICE_STATE, 0,
    1)] fun d => { d with air := { d.air with keys := [{ inst := 0, cur := some (zeros 16) }, { inst := 3, cur := some (zeros 16) }], lseq := 5 } },
    (1000 * sec), 3, 0, by decide +kernel, by decide +kernel, by decide +kernel, by decide +kernel, by decide +kernel, by decide +kernel,
    by decide +kernel, by decide +kernel, by decide +kernel, by decide +kernel, by decide +kernel, by decide +kernel⟩

theorem wit_CyclesAndCommits_0 : ∃ (s : State) (t : Nat) (o : Nat), s.dev.up ∧ s.dev.active ∧ s.dev.replay = false ∧ s.dev.cyc.origin = some o ∧
    o < (cycleOf (max s.dev.now t)) ∧ s.dev.stp.bcnCycle ≠ some ((cycleOf (max s.dev.now t)) - 1) ∧ s.dev.rd P.STP_SLICE_STATE 0 ≠ 2 :=
  ⟨mk [(P.DPX_STATE, 0, 1), (P.TIM_STATE, 0, 2)] fun d => { d with cyc := { d.cyc with origin := some 0, next := 20000 } }, (1000 * sec), 0,
    by decide +kernel, by decide +kernel, by decide +kernel, by decide +kernel, by decide +kernel, by decide +kernel, by decide +kernel⟩

theorem wit_CyclesAndCommits_1 : ∃ (s : State) (t : Nat) (us : Nat) (copyUs : Nat), s.dev.up ∧ s.dev.commits ∧ s.dev.dsp.failed = false ∧
    s.dev.commitAt s.dev.cyc.next ≤ (max s.dev.now t) ∧ s.dev.host.queue = [] ∧ us ≤ 12000 :=
  ⟨mk [(P.DPX_STATE, 0, 1), (P.TIM_STATE, 0, 2)] fun d => { d with cyc := { d.cyc with origin := some 0, next := 19998 } }, (1000 * sec), 100, 0,
    by decide +kernel, by decide +kernel, by decide +kernel, by decide +kernel, by decide +kernel, by decide +kernel⟩

theorem wit_CyclesAndCommits_2 : ∃ (s : State) (t : Nat), s.dev.up ∧ s.dev.commits ∧ s.dev.cyc.overrun = false ∧
    s.dev.commitAt s.dev.cyc.next + 12 * ms ≤ (max s.dev.now t) :=
  ⟨mk [(P.DPX_STATE, 0, 1), (P.TIM_STATE, 0, 2)] fun d => { d with cyc := { d.cyc with origin := some 0, next := 19990 } }, (1000 * sec),
    by decide +kernel, by decide +kernel, by decide +kernel, by decide +kernel⟩

theorem wit_CyclesAndCommits_3 : ∃ (s : State) (t : Nat), s.dev.up ∧ s.dev.commits ∧ s.dev.cyc.missed = false ∧
    s.dev.commitAt (s.dev.cyc.next + 1) ≤ (max s.dev.now t) :=
  ⟨mk [(P.DPX_STATE, 0, 1), (P.TIM_STATE, 0, 2)] fun d => { d with cyc := { d.cyc with origin := some 0, next := 19990 } }, (1000 * sec),
    by decide +kernel, by decide +kernel, by decide +kernel, by decide +kernel⟩

theorem wit_CyclesAndCommits_4 : ∃ (s : State) (t : Nat) (at_ : Nat) (frac : Nat) (us : Nat) (n : Nat), s.dev.up ∧ s.dev.commits ∧
    s.dev.tim.stepAt = some at_ ∧ at_ ≤ (max s.dev.now t) ∧ s.dev.cyc.next = (cycleOf (max s.dev.now t)) ∧ ((∀ o, o < 4 → nth s.dev.tim.tpMode o = 0)) :=
  ⟨mk [(P.DPX_STATE, 0, 1), (P.TIM_STATE, 0,
    2)] fun d => { d with cyc := { d.cyc with origin := some 0, next := 20000 }, tim := { d.tim with stepAt := some 5 } }, (1000 * sec), 5, 3, 0,
    7000000, by decide +kernel, by decide +kernel, by decide +kernel, by decide +kernel, by decide +kernel, by decide +kernel⟩

theorem wit_ComputingTiles_0 : ∃ (s : State) (t : Nat) (i : Nat), s.dev.up ∧ i < 4 ∧ s.dev.chiselOut.contains i = false :=
  ⟨mk [] id, (1000 * sec), 2, by decide +kernel, by decide +kernel, by decide +kernel⟩

theorem wit_ComputingTiles_1 : ∃ (s : State) (t : Nat), s.dev.up :=
  ⟨mk [(P.DPX_STATE, 0, 1)] id, (1000 * sec), by decide +kernel⟩

theorem wit_ComputingTiles_2 : ∃ (s : State) (t : Nat), s.dev.up :=
  ⟨mk [(P.DPX_STATE, 0, 1)] id, (1000 * sec), by decide +kernel⟩

theorem wit_ComputingTiles_3 : ∃ (s : State) (t : Nat) (digest : Nat) (pieces : List Piece) (l : JobLoad), s.dev.up ∧ s.dev.com.job.load = some l ∧
    l.gen = none :=
  ⟨mk [] fun d => { d with com := { d.com with job := { d.com.job with load := some {} } } }, (1000 * sec), 9, [], {}, by decide +kernel,
    by decide +kernel, by decide +kernel⟩

theorem wit_ComputingTiles_4 : ∃ (s : State) (t : Nat) (slot : Nat) (n : Nat) (i : Nat) (r : Res), s.dev.up ∧ s.dev.active ∧ s.dev.replay = false ∧
    s.dev.com.slt.res = [r] ∧ r.slot = slot ∧ r.state = 1 ∧ r.machine = n ∧ n ≠ 0 ∧ fragments ([0x35#8] ++ r.bytes) = [(0, 0, [0x35#8] ++ r.bytes)] ∧
    (s.dev.airKey n).cur.isSome ∧ s.dev.rd P.AIR_FCNT n < fcntStick ∧ s.dev.sliceFor n = some i ∧ (nth s.dev.air.queues i).length < 256 ∧
    i < s.dev.air.queues.length ∧ s.dev.rd P.MSH_ROUTE n ≠ 1 :=
  ⟨mk [(P.DPX_STATE, 0, 1), (P.STP_SLICE_STATE, 0,
    1)] fun d => { d with air := { d.air with keys := [{ inst := 0, cur := some (zeros 16) }, { inst := 3, cur := some (zeros 16) }], lseq := 5 }, com := { d.com with slt := { d.com.slt with res := [{ slot := 2, machine := 3, state := 1 }] } } }, (1000 * sec), 2, 3, 0, { slot := 2, machine := 3, state := 1 }, by decide +kernel, by decide +kernel, by decide +kernel, by decide +kernel, by decide +kernel, by decide +kernel, by decide +kernel, by decide +kernel, by decide +kernel, by decide +kernel, by decide +kernel, by decide +kernel, by decide +kernel, by decide +kernel, by decide +kernel⟩

theorem wit_HostPortTimers_0 : ∃ (s : State) (t : Nat) (i : Nat) (x : Session), s.dev.up ∧ s.dev.slotAt i = some x ∧ x.pending ∧
    x.begun + 10 * sec ≤ (max s.dev.now t) :=
  ⟨mk [] fun d => { d with host := { d.host with slots := [some {}, none, none, none] } }, (1000 * sec), 0, {}, by decide +kernel, by decide +kernel,
    by decide +kernel, by decide +kernel⟩

theorem wit_HostPortTimers_1 : ∃ (s : State) (t : Nat) (l : Nat) (ep : Ep) (f : AuthFail), s.dev.up ∧ s.dev.host.fails = [f] ∧ f.ep = ep ∧
    f.lockedFrom = some l ∧ l + 60 * sec ≤ (max s.dev.now t) :=
  ⟨mk [] fun d => { d with host := { d.host with fails := [{ lockedFrom := some 5 }] } }, (1000 * sec), 5, {}, { lockedFrom := some 5 },
    by decide +kernel, by decide +kernel, by decide +kernel, by decide +kernel, by decide +kernel⟩

theorem wit_HostPortTimers_2 : ∃ (s : State) (t : Nat) (last : Nat) (n : Nat), s.dev.up ∧ s.dev.rd P.HST_SERIAL_EN ≠ 0 ∧ n ≠ 0 ∧
    last + 10 * ms < (max s.dev.now t) :=
  ⟨mk [(P.HST_SERIAL_EN, 0, 1)] fun d => { d with host := { d.host with rxFill := 100 } }, (1000 * sec), 0, 40, by decide +kernel, by decide +kernel,
    by decide +kernel, by decide +kernel⟩

theorem wit_HostPortTimers_3 : ∃ (s : State) (t : Nat) (fill : Nat), s.dev.up :=
  ⟨mk [] id, (1000 * sec), 10, by decide +kernel⟩

theorem wit_HostPortTimers_4 : ∃ (s : State) (t : Nat) (fill : Nat), s.dev.up :=
  ⟨mk [] fun d => { d with host := { d.host with ctsStop := true, txHeld := [.pin "X" true] } }, (1000 * sec), 10, by decide +kernel⟩

theorem wit_HostPortTimers_5 : ∃ (s : State) (t : Nat) (why : Nat) (flags : Nat) (fill : Nat) (h : HostCtx) (p : Bytes), s.dev.up ∧ h.ep.tr = 0 ∧
    1 ≤ why ∧ why ≤ 4 :=
  ⟨mk [] id, (1000 * sec), 1, 0, 0, {}, [], by decide +kernel, by decide +kernel, by decide +kernel, by decide +kernel⟩

theorem wit_HostPortTimers_6 : ∃ (s : State) (t : Nat) (why : Nat) (flags : Nat) (fill : Nat) (h : HostCtx) (p : Bytes), s.dev.up ∧ h.ep.tr = 1 ∧
    s.dev.rd P.HST_SERIAL_EN ≠ 0 ∧ why = 6 :=
  ⟨mk [(P.HST_SERIAL_EN, 0, 1)] id, (1000 * sec), 6, 0, 0, { ep := { tr := 1 } }, [], by decide +kernel, by decide +kernel, by decide +kernel,
    by decide +kernel⟩

theorem wit_HostPortTimers_7 : ∃ (s : State) (t : Nat) (x : Sub), s.dev.up ∧ s.dev.host.subs = [x] ∧ x.mask ≠ 0 ∧
    x.last + s.dev.cf P.HST_SUB_LAPSE * sec ≤ (max s.dev.now t) :=
  ⟨mk [] fun d => { d with host := { d.host with subs := [{ mask := 1 }] } }, (1000 * sec), { mask := 1 }, by decide +kernel, by decide +kernel,
    by decide +kernel, by decide +kernel⟩

theorem wit_HostPortTimers_8 : ∃ (s : State) (t : Nat) (l : Load), s.dev.up ∧ s.dev.host.loads = [l] ∧ l.target = 0x22 ∧ l.done = false ∧
    l.last + s.dev.cf P.HST_LOAD_IDLE * sec ≤ (max s.dev.now t) :=
  ⟨mk [] fun d => { d with host := { d.host with loads := [{ target := 0x22 }] } }, (1000 * sec), { target := 0x22 }, by decide +kernel,
    by decide +kernel, by decide +kernel, by decide +kernel, by decide +kernel⟩

theorem wit_ItemsReadAndWritten_0 : ∃ (s : State) (t : Nat) (h : HostCtx) (lv : Nat) (sl : Option Nat) (v : Nat),
    Accepted true s.dev t h (le 1 2 ++ le 1 0 ++ le 2 1 ++ entryBytes P.AIR_RETRIES 0 (le 1 v)) lv sl ∧ 2 ≤ lv ∧ v ≤ 7 :=
  ⟨mk [(P.DPX_STATE, 0, 1), (P.TIM_STATE, 0,
    2)] fun d => { d with cyc := { d.cyc with origin := some 0, next := 20000 }, host := { d.host with slots := [some ses, none, none, none] } },
    (1000 * sec), sealedAt 1 (le 1 2 ++ le 1 0 ++ le 2 1 ++ entryBytes P.AIR_RETRIES 0 (le 1 5)), 3, some 0, 5,
    by first | exact accepted_sealed (by decide +kernel) | exact accepted_plain (by decide +kernel), by decide +kernel, by decide +kernel⟩

theorem wit_ItemsReadAndWritten_1 : ∃ (s : State) (t : Nat) (h : HostCtx) (lv : Nat) (sl : Option Nat) (b : Bytes),
    Accepted true s.dev t h (le 1 4 ++ le 1 0 ++ le 2 P.DRK_PARK_POS ++ le 2 0 ++ b) lv sl ∧ 2 ≤ lv ∧ b.length = 16 :=
  ⟨mk [(P.DPX_STATE, 0, 1), (P.TIM_STATE, 0,
    2)] fun d => { d with cyc := { d.cyc with origin := some 0, next := 20000 }, host := { d.host with slots := [some ses, none, none, none] } },
    (1000 * sec), sealedAt 1 (le 1 4 ++ le 1 0 ++ le 2 P.DRK_PARK_POS ++ le 2 0 ++ le 16 77), 3, some 0, (le 16 77),
    by first | exact accepted_sealed (by decide +kernel) | exact accepted_plain (by decide +kernel), by decide +kernel, by decide +kernel⟩

theorem wit_ItemsReadAndWritten_2 : ∃ (s : State) (t : Nat) (h : HostCtx) (lv : Nat) (sl : Option Nat),
    Accepted true s.dev t h (le 1 1 ++ le 1 0 ++ le 2 1 ++ (le 2 P.JOB_STATE ++ le 2 0)) lv sl ∧ s.dev.committedOnce :=
  ⟨mk [(P.DPX_STATE, 0, 1), (P.TIM_STATE, 0,
    2)] fun d => { d with cyc := { d.cyc with origin := some 0, next := 20000 }, host := { d.host with slots := [some ses, none, none, none] }, committedOnce := true, snap := [(regKey P.JOB_STATE 0, 2)] }, (1000 * sec), sealedAt 1 (le 1 1 ++ le 1 0 ++ le 2 1 ++ (le 2 P.JOB_STATE ++ le 2 0)), 3, some 0, by first | exact accepted_sealed (by decide +kernel) | exact accepted_plain (by decide +kernel), by decide +kernel⟩

theorem wit_ItemsReadAndWritten_3 : ∃ (s : State) (t : Nat) (h : HostCtx) (lv : Nat) (sl : Option Nat),
    Accepted true s.dev t h (getBlockBytes P.JOB_STATE 0 0 0) lv sl ∧ s.dev.committedOnce :=
  ⟨mk [(P.DPX_STATE, 0, 1), (P.TIM_STATE, 0,
    2)] fun d => { d with cyc := { d.cyc with origin := some 0, next := 20000 }, host := { d.host with slots := [some ses, none, none, none] }, committedOnce := true, snap := [(regKey P.JOB_STATE 0, 2)] }, (1000 * sec), sealedAt 1 (getBlockBytes P.JOB_STATE 0 0 0), 3, some 0, by first | exact accepted_sealed (by decide +kernel) | exact accepted_plain (by decide +kernel), by decide +kernel⟩

theorem wit_ItemsReadAndWritten_4 : ∃ (s : State) (t : Nat) (h : HostCtx) (lv : Nat) (sl : Option Nat),
    Accepted true s.dev t h (setValue P.CYC_JOURNAL_HOLD 0 1) lv sl ∧ 2 ≤ lv :=
  ⟨mk [(P.DPX_STATE, 0, 1), (P.TIM_STATE, 0,
    2)] fun d => { d with cyc := { d.cyc with origin := some 0, next := 20000 }, host := { d.host with slots := [some ses, none, none, none] } },
    (1000 * sec), sealedAt 1 (setValue P.CYC_JOURNAL_HOLD 0 1), 3, some 0,
    by first | exact accepted_sealed (by decide +kernel) | exact accepted_plain (by decide +kernel), by decide +kernel⟩

theorem wit_ItemsReadAndWritten_5 : ∃ (s : State) (t : Nat) (h : HostCtx) (lv : Nat) (sl : Option Nat),
    Accepted true s.dev t h (setValue P.CYC_JOURNAL_HOLD 0 0) lv sl ∧ 2 ≤ lv :=
  ⟨mk [(P.DPX_STATE, 0, 1), (P.TIM_STATE, 0,
    2)] fun d => { d with cyc := { d.cyc with origin := some 0, next := 20000 }, host := { d.host with slots := [some ses, none, none, none] } },
    (1000 * sec), sealedAt 1 (setValue P.CYC_JOURNAL_HOLD 0 0), 3, some 0,
    by first | exact accepted_sealed (by decide +kernel) | exact accepted_plain (by decide +kernel), by decide +kernel⟩

theorem wit_SessionsAndSubscriptions_0 : ∃ (s : State) (t : Nat) (h : HostCtx) (lv : Nat) (sl : Option Nat) (i : Nat) (x : Session),
    Accepted true s.dev t h (le 1 5 ++ le 1 1 ++ le 2 0) lv sl ∧ sl = some i ∧ s.dev.slotAt i = some x ∧ x.pending = false ∧ x.closing = false ∧
    i < s.dev.host.slots.length :=
  ⟨mk [(P.DPX_STATE, 0, 1), (P.TIM_STATE, 0,
    2)] fun d => { d with cyc := { d.cyc with origin := some 0, next := 20000 }, host := { d.host with slots := [some ses, none, none, none] } },
    (1000 * sec), sealedAt 1 (le 1 5 ++ le 1 1 ++ le 2 0), 3, some 0, 0, ses,
    by first | exact accepted_sealed (by decide +kernel) | exact accepted_plain (by decide +kernel), by decide +kernel, by decide +kernel,
    by decide +kernel, by decide +kernel, by decide +kernel⟩

theorem wit_SessionsAndSubscriptions_1 : ∃ (s : State) (t : Nat) (h : HostCtx) (lv : Nat) (sl : Option Nat) (arg : Bytes),
    Accepted true s.dev t h (le 1 5 ++ le 1 2 ++ le 2 0 ++ arg) lv sl :=
  ⟨mk [(P.DPX_STATE, 0, 1), (P.TIM_STATE, 0,
    2)] fun d => { d with cyc := { d.cyc with origin := some 0, next := 20000 }, host := { d.host with slots := [some ses, none, none, none] } },
    (1000 * sec), sealedAt 1 (le 1 5 ++ le 1 2 ++ le 2 0 ++ [9#8]), 3, some 0, [9#8],
    by first | exact accepted_sealed (by decide +kernel) | exact accepted_plain (by decide +kernel)⟩

theorem wit_SessionsAndSubscriptions_2 : ∃ (s : State) (t : Nat) (h : HostCtx) (lv : Nat) (sl : Option Nat),
    Accepted true s.dev t h (le 1 5 ++ le 1 3 ++ le 2 0) lv sl ∧ lv = 3 :=
  ⟨mk [(P.DPX_STATE, 0, 1), (P.TIM_STATE, 0,
    2)] fun d => { d with cyc := { d.cyc with origin := some 0, next := 20000 }, host := { d.host with slots := [some ses, none, none, none] } },
    (1000 * sec), sealedAt 1 (le 1 5 ++ le 1 3 ++ le 2 0), 3, some 0,
    by first | exact accepted_sealed (by decide +kernel) | exact accepted_plain (by decide +kernel), by decide +kernel⟩

theorem wit_SessionsAndSubscriptions_3 : ∃ (s : State) (t : Nat) (h : HostCtx) (lv : Nat) (sl : Option Nat) (target : Nat),
    Accepted true s.dev t h (le 1 6 ++ le 1 target ++ le 1 1 ++ le 1 0) lv sl ∧ target ≤ 8 ∧ s.dev.host.subs = [] :=
  ⟨mk [(P.DPX_STATE, 0, 1), (P.TIM_STATE, 0,
    2)] fun d => { d with cyc := { d.cyc with origin := some 0, next := 20000 }, host := { d.host with slots := [some ses, none, none, none] } },
    (1000 * sec), sealedAt 1 (le 1 6 ++ le 1 4 ++ le 1 1 ++ le 1 0), 3, some 0, 4,
    by first | exact accepted_sealed (by decide +kernel) | exact accepted_plain (by decide +kernel), by decide +kernel, by decide +kernel⟩

theorem wit_SessionsAndSubscriptions_4 : ∃ (s : State) (t : Nat) (h : HostCtx) (lv : Nat) (sl : Option Nat) (level : Nat) (nonce : Bytes),
    Accepted true s.dev t h (le 1 7 ++ le 1 level ++ le 2 0 ++ nonce) lv sl ∧ nonce.length = 16 ∧ 1 ≤ level ∧ level ≤ 3 ∧ h.trailer = none ∧
    s.dev.host.slots = [none, none, none, none] ∧ s.dev.host.fails = [] :=
  ⟨mk [(P.DPX_STATE, 0, 1), (P.TIM_STATE, 0,
    2)] fun d => { d with cyc := { d.cyc with origin := some 0, next := 20000 }, host := { d.host with slots := [none, none, none, none] } },
    (1000 * sec), {}, 0, none, 2, (zeros 16), by first | exact accepted_sealed (by decide +kernel) | exact accepted_plain (by decide +kernel),
    by decide +kernel, by decide +kernel, by decide +kernel, by decide +kernel, by decide +kernel, by decide +kernel⟩

theorem wit_SessionsAndSubscriptions_5 : ∃ (s : State) (t : Nat) (h : HostCtx) (lv : Nat) (sl : Option Nat) (proof : Bytes) (x : Session),
    Accepted true s.dev t h (le 1 8 ++ le 1 0 ++ le 2 0 ++ proof) lv sl ∧ h.trailer = none ∧ s.dev.host.slots = [some x, none, none, none] ∧
    x.ep = h.ep ∧ x.pending ∧ (max s.dev.now t) ≤ x.begun + 10 * sec ∧
    proof = hmac (s.dev.levelKey x.level) (ascii "HOST" ++ x.ch ++ x.hn ++ (le 1 x.level ++ le 1 0)) :=
  ⟨mk [(P.DPX_STATE, 0, 1), (P.TIM_STATE, 0,
    2)] fun d => { d with cyc := { d.cyc with origin := some 0, next := 20000 }, host := { d.host with slots := [some { level := 2, begun := 1000 * sec }, none, none, none] } }, (1000 * sec), {}, 0, none, (hmac (State.reset.dev.levelKey 2) (ascii "HOST" ++ [] ++ [] ++ (le 1 2 ++ le 1 0))), { level := 2, begun := 1000 * sec }, accepted_plain ⟨rfl, by decide +kernel, prove_short (sha_length _), prove_frame (sha_length _), by decide +kernel, by decide +kernel, rfl, rfl⟩, by decide +kernel, by decide +kernel, by decide +kernel, by decide +kernel, by decide +kernel, rfl⟩

theorem wit_ImagesAndLogOverMail_0 : ∃ (s : State) (t : Nat) (h : HostCtx) (lv : Nat) (sl : Option Nat) (total : Nat) (data : Bytes),
    Accepted true s.dev t h (loadBytes 0x20 total 0 data) lv sl ∧ 2 ≤ lv ∧ 1 ≤ data.length ∧ data.length < total ∧ total < 2 ^ 32 ∧
    s.dev.host.loads = [] ∧ s.dev.rd P.JOB_STATE = 0 ∧ s.dev.ctrls = [] ∧ s.dev.com.job.load = none :=
  ⟨mk [(P.DPX_STATE, 0, 1), (P.TIM_STATE, 0,
    2)] fun d => { d with cyc := { d.cyc with origin := some 0, next := 20000 }, host := { d.host with slots := [some ses, none, none, none] } },
    (1000 * sec), sealedAt 3 (loadBytes 0x20 9 0 [1#8]), 3, some 0, 9, [1#8],
    by first | exact accepted_sealed (by decide +kernel) | exact accepted_plain (by decide +kernel), by decide +kernel, by decide +kernel,
    by decide +kernel, by decide +kernel, by decide +kernel, by decide +kernel, by decide +kernel, by decide +kernel⟩

theorem wit_ImagesAndLogOverMail_1 : ∃ (s : State) (t : Nat) (h : HostCtx) (lv : Nat) (sl : Option Nat) (total : Nat) (data : Bytes),
    Accepted true s.dev t h (loadBytes 0x22 total 0 data) lv sl ∧ 2 ≤ lv ∧ 1 ≤ data.length ∧ data.length < total ∧ total < 2 ^ 32 ∧
    s.dev.host.loads = [] ∧ s.dev.rd P.JOB_STATE = 2 ∧ s.dev.ctrls = [] ∧ s.dev.com.job.load = none :=
  ⟨mk [(P.DPX_STATE, 0, 1), (P.TIM_STATE, 0, 2), (P.JOB_STATE, 0,
    2)] fun d => { d with cyc := { d.cyc with origin := some 0, next := 20000 }, host := { d.host with slots := [some ses, none, none, none] } },
    (1000 * sec), sealedAt 3 (loadBytes 0x22 9 0 [1#8]), 3, some 0, 9, [1#8],
    by first | exact accepted_sealed (by decide +kernel) | exact accepted_plain (by decide +kernel), by decide +kernel, by decide +kernel,
    by decide +kernel, by decide +kernel, by decide +kernel, by decide +kernel, by decide +kernel, by decide +kernel⟩

theorem wit_ImagesAndLogOverMail_2 : ∃ (s : State) (t : Nat) (h : HostCtx) (lv : Nat) (sl : Option Nat) (total : Nat) (data : Bytes),
    Accepted true s.dev t h (loadBytes 0x7C total 0 data) lv sl ∧ 3 ≤ lv ∧ 1 ≤ data.length ∧ data.length < total ∧ total < 2 ^ 32 ∧
    s.dev.host.loads = [] ∧ s.dev.pwr.trial = false ∧ s.dev.pwr.slots.length = 2 ∧ s.dev.pwr.active ≤ 1 :=
  ⟨mk [(P.DPX_STATE, 0, 1), (P.TIM_STATE, 0,
    2)] fun d => { d with cyc := { d.cyc with origin := some 0, next := 20000 }, host := { d.host with slots := [some ses, none, none, none] } },
    (1000 * sec), sealedAt 3 (loadBytes 0x7C 9 0 [1#8]), 3, some 0, 9, [1#8],
    by first | exact accepted_sealed (by decide +kernel) | exact accepted_plain (by decide +kernel), by decide +kernel, by decide +kernel,
    by decide +kernel, by decide +kernel, by decide +kernel, by decide +kernel, by decide +kernel, by decide +kernel⟩

theorem wit_ImagesAndLogOverMail_3 : ∃ (s : State) (t : Nat) (h : HostCtx) (lv : Nat) (sl : Option Nat),
    Accepted true s.dev t h (le 1 0x0A ++ le 1 0 ++ le 2 0 ++ le 4 0xFFFFFFFF ++ le 4 0 ++ le 2 0 ++ le 2 0) lv sl ∧
    (nth s.dev.rcd.regions 0).recs = [] ∧ (nth s.dev.rcd.regions 0).unreadable = false ∧ s.dev.rd P.LOG_NEXT 0 = 0 :=
  ⟨mk [(P.DPX_STATE, 0, 1), (P.TIM_STATE, 0,
    2)] fun d => { d with cyc := { d.cyc with origin := some 0, next := 20000 }, host := { d.host with slots := [some ses, none, none, none] } },
    (1000 * sec), sealedAt 4 (le 1 0x0A ++ le 1 0 ++ le 2 0 ++ le 4 0xFFFFFFFF ++ le 4 0 ++ le 2 0 ++ le 2 0), 3, some 0,
    by first | exact accepted_sealed (by decide +kernel) | exact accepted_plain (by decide +kernel), by decide +kernel, by decide +kernel,
    by decide +kernel⟩

theorem wit_ImagesAndLogOverMail_4 : ∃ (s : State) (t : Nat) (h : HostCtx) (lv : Nat) (sl : Option Nat) (i : Nat) (x : Session),
    Accepted true s.dev t h (le 1 0x0B ++ le 1 1 ++ le 1 0 ++ le 1 0) lv sl ∧ 2 ≤ lv ∧ sl = some i ∧ s.dev.slotAt i = some x ∧ s.dev.rcd.clears = [] :=
  ⟨mk [(P.DPX_STATE, 0, 1), (P.TIM_STATE, 0,
    2)] fun d => { d with cyc := { d.cyc with origin := some 0, next := 20000 }, host := { d.host with slots := [some ses, none, none, none] } },
    (1000 * sec), sealedAt 4 (le 1 0x0B ++ le 1 1 ++ le 1 0 ++ le 1 0), 3, some 0, 0, ses,
    by first | exact accepted_sealed (by decide +kernel) | exact accepted_plain (by decide +kernel), by decide +kernel, by decide +kernel,
    by decide +kernel, by decide +kernel⟩

theorem wit_ImagesAndLogOverMail_5 : ∃ (s : State) (t : Nat) (h : HostCtx) (lv : Nat) (sl : Option Nat) (i : Nat) (x : Session) (c : ClearReq) (proof : Bytes), Accepted true s.dev t h (le 1 0x0B ++ le 1 2 ++ le 1 2 ++ le 1 0 ++ proof) lv sl ∧ 3 ≤ lv ∧ sl = some i ∧ s.dev.slotAt i = some x ∧ s.dev.rcd.clears = [c] ∧ c.region = 2 ∧ c.sid = i ∧ (max s.dev.now t) ≤ c.stamp + 10 * sec ∧ proof = (hmac x.ks (ascii "LCLR" ++ c.cn ++ le 1 2 ++ le 4 c.gen)).take 16 :=
  ⟨mk [(P.DPX_STATE, 0, 1), (P.TIM_STATE, 0, 2), (P.LOG_STATUS, 0,
    5)] fun d => { d with cyc := { d.cyc with origin := some 0, next := 20000 }, host := { d.host with slots := [some ses, none, none, none] }, rcd := { d.rcd with clears := [{ region := 2, stamp := 1000 * sec }] } }, (1000 * sec), sealedAt 4 (le 1 0x0B ++ le 1 2 ++ le 1 2 ++ le 1 0 ++ (hmac ses.ks (ascii "LCLR" ++ [] ++ le 1 2 ++ le 4 0)).take 16), 3, some 0, 0, ses, { region := 2, stamp := 1000 * sec }, (hmac ses.ks (ascii "LCLR" ++ [] ++ le 1 2 ++ le 4 0)).take 16, by first | exact accepted_sealed (by decide +kernel) | exact accepted_plain (by decide +kernel), by decide +kernel, by decide +kernel, by decide +kernel, by decide +kernel, by decide +kernel, by decide +kernel, by decide +kernel, by decide +kernel⟩

theorem wit_ActsOfTheHost_0 : ∃ (s : State) (t : Nat) (h : HostCtx) (lv : Nat) (sl : Option Nat),
    Accepted true s.dev t h (setValue P.JOB_CTRL 0 1) lv sl ∧ 1 ≤ lv ∧ s.dev.rd P.JOB_STATE = 2 ∧ s.dev.ctrls = [] ∧ s.dev.com.job.load = none :=
  ⟨mk [(P.DPX_STATE, 0, 1), (P.TIM_STATE, 0, 2), (P.JOB_STATE, 0,
    2)] fun d => { d with cyc := { d.cyc with origin := some 0, next := 20000 }, host := { d.host with slots := [some ses, none, none, none] } },
    (1000 * sec), sealedAt 1 (setValue P.JOB_CTRL 0 1), 3, some 0,
    by first | exact accepted_sealed (by decide +kernel) | exact accepted_plain (by decide +kernel), by decide +kernel, by decide +kernel,
    by decide +kernel, by decide +kernel⟩

theorem wit_ActsOfTheHost_1 : ∃ (s : State) (t : Nat) (h : HostCtx) (lv : Nat) (sl : Option Nat),
    Accepted true s.dev t h (setValue P.JOB_CTRL 0 2) lv sl ∧ 1 ≤ lv ∧ s.dev.rd P.JOB_STATE = 3 ∧ s.dev.ctrls = [] ∧ s.dev.com.job.load = none :=
  ⟨mk [(P.DPX_STATE, 0, 1), (P.TIM_STATE, 0, 2), (P.JOB_STATE, 0,
    3)] fun d => { d with cyc := { d.cyc with origin := some 0, next := 20000 }, host := { d.host with slots := [some ses, none, none, none] } },
    (1000 * sec), sealedAt 1 (setValue P.JOB_CTRL 0 2), 3, some 0,
    by first | exact accepted_sealed (by decide +kernel) | exact accepted_plain (by decide +kernel), by decide +kernel, by decide +kernel,
    by decide +kernel, by decide +kernel⟩

theorem wit_ActsOfTheHost_2 : ∃ (s : State) (t : Nat) (h : HostCtx) (lv : Nat) (sl : Option Nat),
    Accepted true s.dev t h (setValue P.JOB_CTRL 0 3) lv sl ∧ 1 ≤ lv ∧ s.dev.rd P.JOB_STATE = 4 ∧ s.dev.ctrls = [] ∧ s.dev.com.job.load = none ∧
    s.dev.resInUse = false :=
  ⟨mk [(P.DPX_STATE, 0, 1), (P.TIM_STATE, 0, 2), (P.JOB_STATE, 0,
    4)] fun d => { d with cyc := { d.cyc with origin := some 0, next := 20000 }, host := { d.host with slots := [some ses, none, none, none] } },
    (1000 * sec), sealedAt 1 (setValue P.JOB_CTRL 0 3), 3, some 0,
    by first | exact accepted_sealed (by decide +kernel) | exact accepted_plain (by decide +kernel), by decide +kernel, by decide +kernel,
    by decide +kernel, by decide +kernel, by decide +kernel⟩

theorem wit_ActsOfTheHost_3 : ∃ (s : State) (t : Nat) (h : HostCtx) (lv : Nat) (sl : Option Nat) (n : Nat),
    Accepted true s.dev t h (setValue P.SLT_RESEAT n 1) lv sl ∧ 1 ≤ lv ∧ 1 ≤ n ∧ n ≤ 96 ∧ s.dev.reseatOk n :=
  ⟨mk [(P.DPX_STATE, 0, 1), (P.TIM_STATE, 0, 2), (P.SLT_THAW_N, 0,
    5)] fun d => { d with cyc := { d.cyc with origin := some 0, next := 20000 }, host := { d.host with slots := [some ses, none, none, none] }, com := { d.com with slt := { d.com.slt with machs := [{ n := 3, state := 4, recent := List.replicate 20 { usable := true } }] } } }, (1000 * sec), sealedAt 1 (setValue P.SLT_RESEAT 3 1), 3, some 0, 3, by first | exact accepted_sealed (by decide +kernel) | exact accepted_plain (by decide +kernel), by decide +kernel, by decide +kernel, by decide +kernel, by decide +kernel⟩

theorem wit_ActsOfTheHost_4 : ∃ (s : State) (t : Nat) (h : HostCtx) (lv : Nat) (sl : Option Nat) (i : Nat) (b : Bytes),
    Accepted true s.dev t h (setOne P.SLT_HOST_RES i b) lv sl ∧ 1 ≤ lv ∧ i ≤ 255 ∧ b.length = 28 + 28 * fld b 6 1 ∧ fld b 4 1 = 0 ∧ fld b 6 1 ≤ 16 :=
  ⟨mk [(P.DPX_STATE, 0, 1), (P.TIM_STATE, 0,
    2)] fun d => { d with cyc := { d.cyc with origin := some 0, next := 20000 }, host := { d.host with slots := [some ses, none, none, none] } },
    (1000 * sec), sealedAt 1 (setOne P.SLT_HOST_RES 4 (zeros 28)), 3, some 0, 4, (zeros 28),
    by first | exact accepted_sealed (by decide +kernel) | exact accepted_plain (by decide +kernel), by decide +kernel, by decide +kernel,
    by decide +kernel, by decide +kernel, by decide +kernel⟩

theorem wit_ActsOfTheHost_5 : ∃ (s : State) (t : Nat) (h : HostCtx) (lv : Nat) (sl : Option Nat),
    Accepted true s.dev t h (setValue P.MTR_SNAP 0 1) lv sl ∧ 1 ≤ lv :=
  ⟨mk [(P.DPX_STATE, 0, 1), (P.TIM_STATE, 0,
    2)] fun d => { d with cyc := { d.cyc with origin := some 0, next := 20000 }, host := { d.host with slots := [some ses, none, none, none] } },
    (1000 * sec), sealedAt 1 (setValue P.MTR_SNAP 0 1), 3, some 0,
    by first | exact accepted_sealed (by decide +kernel) | exact accepted_plain (by decide +kernel), by decide +kernel⟩

theorem wit_ActsOfTheHost_6 : ∃ (s : State) (t : Nat) (h : HostCtx) (lv : Nat) (sl : Option Nat),
    Accepted true s.dev t h (setValue P.STA_SELFTEST 0 1) lv sl ∧ 2 ≤ lv ∧ s.dev.rd P.JOB_STATE = 2 ∧ s.dev.ctrls = [] ∧ s.dev.com.job.load = none :=
  ⟨mk [(P.DPX_STATE, 0, 1), (P.TIM_STATE, 0, 2), (P.JOB_STATE, 0,
    2)] fun d => { d with cyc := { d.cyc with origin := some 0, next := 20000 }, host := { d.host with slots := [some ses, none, none, none] } },
    (1000 * sec), sealedAt 1 (setValue P.STA_SELFTEST 0 1), 3, some 0,
    by first | exact accepted_sealed (by decide +kernel) | exact accepted_plain (by decide +kernel), by decide +kernel, by decide +kernel,
    by decide +kernel, by decide +kernel⟩

theorem wit_ActsOfTheHost_7 : ∃ (s : State) (t : Nat) (h : HostCtx) (lv : Nat) (sl : Option Nat) (a : Nat),
    Accepted true s.dev t h (setValue P.STA_REF_ANT 0 a) lv sl ∧ 2 ≤ lv ∧ a ≤ 1 :=
  ⟨mk [(P.DPX_STATE, 0, 1), (P.TIM_STATE, 0,
    2)] fun d => { d with cyc := { d.cyc with origin := some 0, next := 20000 }, host := { d.host with slots := [some ses, none, none, none] } },
    (1000 * sec), sealedAt 1 (setValue P.STA_REF_ANT 0 1), 3, some 0, 1,
    by first | exact accepted_sealed (by decide +kernel) | exact accepted_plain (by decide +kernel), by decide +kernel, by decide +kernel⟩

theorem wit_ActsOfTheHost_8 : ∃ (s : State) (t : Nat) (h : HostCtx) (lv : Nat) (sl : Option Nat) (l : Nat),
    Accepted true s.dev t h (setValue P.TIM_STEP 0 1) lv sl ∧ 2 ≤ lv ∧ s.dev.cyc.adm = [] ∧ s.dev.com.stop.latched.all ∧ s.dev.rd P.TIM_STATE = 4 ∧
    s.dev.rd P.TIM_SOURCE ≠ 0 ∧ s.dev.tim.lastMeas = some l ∧ s.dev.tim.stepAt = none ∧
    s.dev.commitAt (s.dev.admitCycle (max s.dev.now t) (max h.admitAt (max s.dev.now t))).1 ≤ l + sec :=
  ⟨mk [(P.DPX_STATE, 0, 1), (P.TIM_STATE, 0, 2), (P.TIM_STATE, 0, 4), (P.TIM_SOURCE, 0,
    1)] fun d => { d with cyc := { d.cyc with origin := some 0, next := 20000 }, host := { d.host with slots := [some ses, none, none, none] }, tim := { d.tim with lastMeas := some (1000 * sec) } }, (1000 * sec), sealedAt 1 (setValue P.TIM_STEP 0 1), 3, some 0, (1000 * sec), by first | exact accepted_sealed (by decide +kernel) | exact accepted_plain (by decide +kernel), by decide +kernel, by decide +kernel, by decide +kernel, by decide +kernel, by decide +kernel, by decide +kernel, by decide +kernel, by decide +kernel⟩

theorem wit_ActsOfTheHost_9 : ∃ (s : State) (t : Nat) (h : HostCtx) (lv : Nat) (sl : Option Nat) (o : Nat),
    Accepted true s.dev t h (setValue P.TIM_TP_MODE o 1) lv sl ∧ 2 ≤ lv ∧ o ≤ 1 ∧ 1000 ≤ s.dev.rd P.TIM_TP_WIDTH o ∧
    s.dev.rd P.TIM_TP_WIDTH o ≤ 900000000 ∧ nth s.dev.tim.tpMode o = 0 :=
  ⟨mk [(P.DPX_STATE, 0, 1), (P.TIM_STATE, 0, 2), (P.TIM_TP_WIDTH, 1,
    5000)] fun d => { d with cyc := { d.cyc with origin := some 0, next := 20000 }, host := { d.host with slots := [some ses, none, none, none] } },
    (1000 * sec), sealedAt 1 (setValue P.TIM_TP_MODE 1 1), 3, some 0, 1,
    by first | exact accepted_sealed (by decide +kernel) | exact accepted_plain (by decide +kernel), by decide +kernel, by decide +kernel,
    by decide +kernel, by decide +kernel, by decide +kernel⟩

theorem wit_ActsOfTheHost_10 : ∃ (s : State) (t : Nat) (h : HostCtx) (lv : Nat) (sl : Option Nat),
    Accepted true s.dev t h (setValue P.GNS_RUN 0 1) lv sl ∧ 2 ≤ lv ∧ s.dev.rd P.GNS_RUN = 0 :=
  ⟨mk [(P.DPX_STATE, 0, 1), (P.TIM_STATE, 0, 2), (P.GNS_RUN, 0,
    0)] fun d => { d with cyc := { d.cyc with origin := some 0, next := 20000 }, host := { d.host with slots := [some ses, none, none, none] } },
    (1000 * sec), sealedAt 1 (setValue P.GNS_RUN 0 1), 3, some 0,
    by first | exact accepted_sealed (by decide +kernel) | exact accepted_plain (by decide +kernel), by decide +kernel, by decide +kernel⟩

theorem wit_ActsOfTheHost_11 : ∃ (s : State) (t : Nat) (h : HostCtx) (lv : Nat) (sl : Option Nat),
    Accepted true s.dev t h (setValue P.GNS_FORCE_COLD 0 1) lv sl ∧ 2 ≤ lv ∧ s.dev.rd P.GNS_RUN = 0 :=
  ⟨mk [(P.DPX_STATE, 0, 1), (P.TIM_STATE, 0, 2), (P.GNS_RUN, 0,
    0)] fun d => { d with cyc := { d.cyc with origin := some 0, next := 20000 }, host := { d.host with slots := [some ses, none, none, none] }, gns := { d.gns with eph := [(1, 2)] } }, (1000 * sec), sealedAt 1 (setValue P.GNS_FORCE_COLD 0 1), 3, some 0, by first | exact accepted_sealed (by decide +kernel) | exact accepted_plain (by decide +kernel), by decide +kernel, by decide +kernel⟩

theorem wit_SnapshotsAndReplay_0 : ∃ (s : State) (t : Nat) (h : HostCtx) (lv : Nat) (sl : Option Nat) (cmd : Bool),
    Accepted true s.dev t h (snapBytes cmd 1) lv sl ∧ 1 ≤ lv ∧ s.dev.rd P.GNS_SNAP_STATE = 0 :=
  ⟨mk [(P.DPX_STATE, 0, 1), (P.TIM_STATE, 0, 2), (P.GNS_SNAP_STATE, 0,
    0)] fun d => { d with cyc := { d.cyc with origin := some 0, next := 20000 }, host := { d.host with slots := [some ses, none, none, none] } },
    (1000 * sec), sealedAt 1 (snapBytes true 1), 3, some 0, true,
    by first | exact accepted_sealed (by decide +kernel) | exact accepted_plain (by decide +kernel), by decide +kernel, by decide +kernel⟩

theorem wit_SnapshotsAndReplay_1 : ∃ (s : State) (t : Nat) (h : HostCtx) (lv : Nat) (sl : Option Nat) (cmd : Bool),
    Accepted true s.dev t h (snapBytes cmd 2) lv sl ∧ 1 ≤ lv ∧ s.dev.rd P.GNS_SNAP_STATE = 1 :=
  ⟨mk [(P.DPX_STATE, 0, 1), (P.TIM_STATE, 0, 2), (P.GNS_SNAP_STATE, 0,
    1)] fun d => { d with cyc := { d.cyc with origin := some 0, next := 20000 }, host := { d.host with slots := [some ses, none, none, none] } },
    (1000 * sec), sealedAt 1 (snapBytes true 2), 3, some 0, true,
    by first | exact accepted_sealed (by decide +kernel) | exact accepted_plain (by decide +kernel), by decide +kernel, by decide +kernel⟩

theorem wit_SnapshotsAndReplay_2 : ∃ (s : State) (t : Nat) (h : HostCtx) (lv : Nat) (sl : Option Nat) (cmd : Bool),
    Accepted true s.dev t h (snapBytes cmd 3) lv sl ∧ 1 ≤ lv ∧ s.dev.rd P.GNS_SNAP_STATE = 3 ∧
    (s.dev.host.subs.any fun x => x.ep == h.ep && bitOf x.mask 5) :=
  ⟨mk [(P.DPX_STATE, 0, 1), (P.TIM_STATE, 0, 2), (P.GNS_SNAP_STATE, 0,
    3)] fun d => { d with cyc := { d.cyc with origin := some 0, next := 20000 }, host := { d.host with slots := [some ses, none, none, none], subs := [{ mask := 63 }] } }, (1000 * sec), sealedAt 1 (snapBytes false 3), 3, some 0, false, by first | exact accepted_sealed (by decide +kernel) | exact accepted_plain (by decide +kernel), by decide +kernel, by decide +kernel, by decide +kernel⟩

theorem wit_SnapshotsAndReplay_3 : ∃ (s : State) (t : Nat) (h : HostCtx) (lv : Nat) (sl : Option Nat) (cmd : Bool),
    Accepted true s.dev t h (snapBytes cmd 4) lv sl ∧ 1 ≤ lv ∧ s.dev.rd P.GNS_SNAP_STATE = 3 :=
  ⟨mk [(P.DPX_STATE, 0, 1), (P.TIM_STATE, 0, 2), (P.GNS_SNAP_STATE, 0,
    3)] fun d => { d with cyc := { d.cyc with origin := some 0, next := 20000 }, host := { d.host with slots := [some ses, none, none, none] } },
    (1000 * sec), sealedAt 1 (snapBytes false 4), 3, some 0, false,
    by first | exact accepted_sealed (by decide +kernel) | exact accepted_plain (by decide +kernel), by decide +kernel, by decide +kernel⟩

theorem wit_SnapshotsAndReplay_4 : ∃ (s : State) (t : Nat) (h : HostCtx) (lv : Nat) (sl : Option Nat) (cmd : Bool),
    Accepted true s.dev t h (snapBytes cmd 5) lv sl ∧ 1 ≤ lv ∧ s.dev.rd P.GNS_SNAP_STATE = 2 :=
  ⟨mk [(P.DPX_STATE, 0, 1), (P.TIM_STATE, 0, 2), (P.GNS_SNAP_STATE, 0,
    2)] fun d => { d with cyc := { d.cyc with origin := some 0, next := 20000 }, host := { d.host with slots := [some ses, none, none, none] } },
    (1000 * sec), sealedAt 1 (snapBytes false 5), 3, some 0, false,
    by first | exact accepted_sealed (by decide +kernel) | exact accepted_plain (by decide +kernel), by decide +kernel, by decide +kernel⟩

theorem wit_SnapshotsAndReplay_5 : ∃ (s : State) (t : Nat) (h : HostCtx) (lv : Nat) (sl : Option Nat),
    Accepted true s.dev t h (setValue P.CYC_REPLAY 0 1) lv sl ∧ 3 ≤ lv ∧ s.dev.rd P.JOB_STATE = 2 ∧ s.dev.ctrls = [] ∧ s.dev.com.job.load = none ∧
    s.dev.rd P.DPX_STATE = 1 :=
  ⟨mk [(P.DPX_STATE, 0, 1), (P.TIM_STATE, 0, 2), (P.JOB_STATE, 0,
    2)] fun d => { d with cyc := { d.cyc with origin := some 0, next := 20000 }, host := { d.host with slots := [some ses, none, none, none] } },
    (1000 * sec), sealedAt 1 (setValue P.CYC_REPLAY 0 1), 3, some 0,
    by first | exact accepted_sealed (by decide +kernel) | exact accepted_plain (by decide +kernel), by decide +kernel, by decide +kernel,
    by decide +kernel, by decide +kernel, by decide +kernel⟩

theorem wit_SnapshotsAndReplay_6 : ∃ (s : State) (t : Nat) (h : HostCtx) (lv : Nat) (sl : Option Nat),
    Accepted false s.dev t h (setValue P.CYC_REPLAY 0 0) lv sl ∧ 3 ≤ lv ∧ s.dev.replay ∧ s.dev.pwr.mode = 0 ∧ s.dev.active :=
  ⟨mk [(P.DPX_STATE, 0, 1), (P.TIM_STATE, 0, 2), (P.CYC_REPLAY_STATE, 0, 1), (P.CYC_REPLAY, 0,
    1)] fun d => { d with cyc := { d.cyc with origin := some 0, next := 20000 }, host := { d.host with slots := [some ses, none, none, none] } },
    (1000 * sec), sealedAt 1 (setValue P.CYC_REPLAY 0 0), 3, some 0,
    by first | exact accepted_sealed (by decide +kernel) | exact accepted_plain (by decide +kernel), by decide +kernel, by decide +kernel,
    by decide +kernel, by decide +kernel⟩

theorem wit_SnapshotsAndReplay_7 : ∃ (s : State) (t : Nat) (h : HostCtx) (lv : Nat) (sl : Option Nat) (data : Bytes),
    Accepted false s.dev t h (le 1 0x0F ++ le 1 1 ++ le 2 0 ++ le 4 0 ++ data) lv sl ∧ 3 ≤ lv ∧ s.dev.replay ∧ s.dev.cyc.feed = {} ∧ 1 ≤ data.length ∧
    data.length < 8 ∧ s.dev.active :=
  ⟨mk [(P.DPX_STATE, 0, 1), (P.TIM_STATE, 0, 2), (P.CYC_REPLAY_STATE, 0, 1), (P.CYC_REPLAY, 0,
    1)] fun d => { d with cyc := { d.cyc with origin := some 0, next := 20000 }, host := { d.host with slots := [some ses, none, none, none] } },
    (1000 * sec), sealedAt 3 (le 1 0x0F ++ le 1 1 ++ le 2 0 ++ le 4 0 ++ [1#8]), 3, some 0, [1#8],
    by first | exact accepted_sealed (by decide +kernel) | exact accepted_plain (by decide +kernel), by decide +kernel, by decide +kernel,
    by decide +kernel, by decide +kernel, by decide +kernel, by decide +kernel⟩

theorem wit_StopArmAndRelease_0 : ∃ (s : State) (t : Nat) (scope : Nat) (groups : Nat) (mask : Nat) (h : HostCtx),
    Heard s.dev h (safetyBytes 0x0C scope groups mask) ∧ h.mbx = 0 ∧ s.dev.active ∧ s.dev.replay = false ∧ s.dev.tooEarly (max s.dev.now t) = false :=
  ⟨mk [(P.DPX_STATE, 0, 1), (P.TIM_STATE, 0,
    2)] fun d => { d with cyc := { d.cyc with origin := some 0, next := 20000 }, host := { d.host with slots := [some ses, none, none, none] } },
    (1000 * sec), 1, 0, 0, { mbx := 0 }, by unfold Heard; decide +kernel, by decide +kernel, by decide +kernel, by decide +kernel, by decide +kernel⟩

theorem wit_StopArmAndRelease_1 : ∃ (s : State) (t : Nat) (scope : Nat) (groups : Nat) (mask : Nat) (lv : Nat) (sl : Option Nat) (h : HostCtx),
    Heard s.dev h (safetyBytes 0x0D scope groups mask) ∧ h.mbx = 0 ∧ s.dev.commits ∧ s.dev.tooEarly (max s.dev.now t) = false ∧
    frameOk 0 (bit h.trailer.isSome) (safetyBytes 0x0D scope groups mask) ∧ Signed s.dev t h (safetyBytes 0x0D scope groups mask) lv sl :=
  ⟨mk [(P.DPX_STATE, 0, 1), (P.TIM_STATE, 0,
    2)] fun d => { d with cyc := { d.cyc with origin := some 0, next := 20000 }, host := { d.host with slots := [some ses, none, none, none] } },
    (1000 * sec), 1, 0, 0, 3, some 0, sealed0 (safetyBytes 0x0D 1 0 0), by unfold Heard; decide +kernel, by decide +kernel, by decide +kernel,
    by decide +kernel, by decide +kernel, Or.inr ⟨5, 0, ses, rfl, by decide +kernel, by decide +kernel, rfl, rfl⟩⟩

theorem wit_StopArmAndRelease_2 : ∃ (s : State) (t : Nat) (scope : Nat) (groups : Nat) (mask : Nat) (lv : Nat) (sl : Option Nat) (h : HostCtx),
    Heard s.dev h (safetyBytes 0x0E scope groups mask) ∧ h.mbx = 0 ∧ s.dev.commits ∧ s.dev.tooEarly (max s.dev.now t) = false ∧
    frameOk 0 (bit h.trailer.isSome) (safetyBytes 0x0E scope groups mask) ∧ Signed s.dev t h (safetyBytes 0x0E scope groups mask) lv sl :=
  ⟨mk [(P.DPX_STATE, 0, 1), (P.TIM_STATE, 0,
    2)] fun d => { d with cyc := { d.cyc with origin := some 0, next := 20000 }, host := { d.host with slots := [some ses, none, none, none] } },
    (1000 * sec), 1, 0, 0, 3, some 0, sealed0 (safetyBytes 0x0E 1 0 0), by unfold Heard; decide +kernel, by decide +kernel, by decide +kernel,
    by decide +kernel, by decide +kernel, Or.inr ⟨5, 0, ses, rfl, by decide +kernel, by decide +kernel, rfl, rfl⟩⟩

theorem wit_AxesAndBuffersOverMail_0 : ∃ (s : State) (t : Nat) (h : HostCtx) (lv : Nat) (sl : Option Nat) (l : Nat) (vc : Nat) (a : Nat) (dc : Nat),
    Accepted true s.dev t h (setValue P.DRK_CTRL 0 (1 + 256 * 1)) lv sl ∧ 1 ≤ lv ∧ s.dev.drk.lines = [] ∧ s.dev.rd P.DRK_OWNER = 0 ∧ s.dev.stp.outOn ∧
    s.dev.rd P.DRK_STATE 0 = 3 ∧ nth s.dev.drk.homed 0 = true ∧ s.dev.drk.limits = [] ∧
    s.dev.movePlan 1 [s.dev.rdS P.DRK_TARGET 0 - s.dev.rdS P.DRK_POS 0, 0, 0, 0] = (l, vc, a, dc) ∧ 0 < l :=
  ⟨mk [(P.DPX_STATE, 0, 1), (P.TIM_STATE, 0, 2), (P.DRK_STATE, 0, 3), (P.DRK_TARGET, 0, 500), (P.DRK_VMAX, 0, 100), (P.DRK_ACC, 0, 50), (P.DRK_DEC, 0,
    40)] fun d => { d with cyc := { d.cyc with origin := some 0, next := 20000 }, host := { d.host with slots := [some ses, none, none, none] }, stp := { d.stp with outOn := true }, drk := { d.drk with homed := [true, false, false, false] } }, (1000 * sec), sealedAt 1 (setValue P.DRK_CTRL 0 (1 + 256 * 1)), 3, some 0, 500, 100, 50, 40, by first | exact accepted_sealed (by decide +kernel) | exact accepted_plain (by decide +kernel), by decide +kernel, by decide +kernel, by decide +kernel, by decide +kernel, by decide +kernel, by decide +kernel, by decide +kernel, by decide +kernel, by decide +kernel⟩

theorem wit_AxesAndBuffersOverMail_1 : ∃ (s : State) (t : Nat) (h : HostCtx) (lv : Nat) (sl : Option Nat) (x : Line),
    Accepted true s.dev t h (setValue P.DRK_CTRL 0 (2 + 256 * 1)) lv sl ∧ 1 ≤ lv ∧ s.dev.drk.lines = [x] ∧ x.mask = 1 ∧ s.dev.rd P.DRK_STATE 0 = 4 ∧
    s.dev.drk.waiting = [] :=
  ⟨mk [(P.DPX_STATE, 0, 1), (P.TIM_STATE, 0, 2), (P.DRK_STATE, 0,
    4)] fun d => { d with cyc := { d.cyc with origin := some 0, next := 20000 }, host := { d.host with slots := [some ses, none, none, none] }, drk := { d.drk with lines := [{ mask := 1, target := [100, 0, 0, 0], len := 100, vc := 10, a := 5, dc := 5 }] } }, (1000 * sec), sealedAt 1 (setValue P.DRK_CTRL 0 (2 + 256 * 1)), 3, some 0, { mask := 1, target := [100, 0, 0, 0], len := 100, vc := 10, a := 5, dc := 5 }, by first | exact accepted_sealed (by decide +kernel) | exact accepted_plain (by decide +kernel), by decide +kernel, by decide +kernel, by decide +kernel, by decide +kernel, by decide +kernel⟩

theorem wit_AxesAndBuffersOverMail_2 : ∃ (s : State) (t : Nat) (h : HostCtx) (lv : Nat) (sl : Option Nat) (l : Nat) (vc : Nat) (a : Nat) (dc : Nat),
    Accepted true s.dev t h (setValue P.DRK_CTRL 0 (3 + 256 * 1)) lv sl ∧ 1 ≤ lv ∧ s.dev.drk.lines = [] ∧ s.dev.stp.outOn ∧
    s.dev.rd P.DRK_STATE 0 = 6 ∧ nth s.dev.drk.homed 0 = true ∧ s.dev.movePlan 1 [s.dev.rdS P.DRK_REMAIN 0, s.dev.rdS P.DRK_REMAIN 1,
    s.dev.rdS P.DRK_REMAIN 2, s.dev.rdS P.DRK_REMAIN 3] = (l, vc, a, dc) ∧ 0 < l :=
  ⟨mk [(P.DPX_STATE, 0, 1), (P.TIM_STATE, 0, 2), (P.DRK_STATE, 0, 6), (P.DRK_REMAIN, 0, 500), (P.DRK_VMAX, 0, 100), (P.DRK_ACC, 0, 50), (P.DRK_DEC, 0,
    40)] fun d => { d with cyc := { d.cyc with origin := some 0, next := 20000 }, host := { d.host with slots := [some ses, none, none, none] }, stp := { d.stp with outOn := true }, drk := { d.drk with homed := [true, false, false, false] } }, (1000 * sec), sealedAt 1 (setValue P.DRK_CTRL 0 (3 + 256 * 1)), 3, some 0, 500, 100, 50, 40, by first | exact accepted_sealed (by decide +kernel) | exact accepted_plain (by decide +kernel), by decide +kernel, by decide +kernel, by decide +kernel, by decide +kernel, by decide +kernel, by decide +kernel, by decide +kernel⟩

theorem wit_AxesAndBuffersOverMail_3 : ∃ (s : State) (t : Nat) (h : HostCtx) (lv : Nat) (sl : Option Nat),
    Accepted true s.dev t h (setValue P.DRK_CTRL 0 (4 + 256 * 1)) lv sl ∧ 1 ≤ lv ∧ s.dev.drk.lines = [] ∧ s.dev.rd P.DRK_OWNER = 0 ∧ s.dev.stp.outOn ∧
    s.dev.rd P.DRK_STATE 0 = 1 :=
  ⟨mk [(P.DPX_STATE, 0, 1), (P.TIM_STATE, 0, 2), (P.DRK_STATE, 0,
    1)] fun d => { d with cyc := { d.cyc with origin := some 0, next := 20000 }, host := { d.host with slots := [some ses, none, none, none] }, stp := { d.stp with outOn := true } }, (1000 * sec), sealedAt 1 (setValue P.DRK_CTRL 0 (4 + 256 * 1)), 3, some 0, by first | exact accepted_sealed (by decide +kernel) | exact accepted_plain (by decide +kernel), by decide +kernel, by decide +kernel, by decide +kernel, by decide +kernel, by decide +kernel⟩

theorem wit_AxesAndBuffersOverMail_4 : ∃ (s : State) (t : Nat) (h : HostCtx) (lv : Nat) (sl : Option Nat),
    Accepted true s.dev t h (setValue P.DRK_CTRL 0 (5 + 256 * 1)) lv sl ∧ 1 ≤ lv ∧ s.dev.drk.lines = [] ∧ s.dev.drk.gantry = [] ∧
    s.dev.drk.failed = false ∧ s.dev.drk.chatter = [] ∧ s.dev.rd P.DRK_STATE 0 = 7 ∧ nth s.dev.drk.homed 0 = false :=
  ⟨mk [(P.DPX_STATE, 0, 1), (P.TIM_STATE, 0, 2), (P.DRK_STATE, 0, 7), (P.DRK_FAULT, 0,
    3)] fun d => { d with cyc := { d.cyc with origin := some 0, next := 20000 }, host := { d.host with slots := [some ses, none, none, none] } },
    (1000 * sec), sealedAt 1 (setValue P.DRK_CTRL 0 (5 + 256 * 1)), 3, some 0,
    by first | exact accepted_sealed (by decide +kernel) | exact accepted_plain (by decide +kernel), by decide +kernel, by decide +kernel,
    by decide +kernel, by decide +kernel, by decide +kernel, by decide +kernel, by decide +kernel⟩

theorem wit_AxesAndBuffersOverMail_5 : ∃ (s : State) (t : Nat) (h : HostCtx) (lv : Nat) (sl : Option Nat) (c : Nat),
    Accepted true s.dev t h (setValue P.CAN_CTRL c 1) lv sl ∧ 1 ≤ lv ∧ c ≤ 2 ∧ s.dev.rd P.CAN_STATE c = 3 :=
  ⟨mk [(P.DPX_STATE, 0, 1), (P.TIM_STATE, 0, 2), (P.CAN_STATE, 1,
    3)] fun d => { d with cyc := { d.cyc with origin := some 0, next := 20000 }, host := { d.host with slots := [some ses, none, none, none] } },
    (1000 * sec), sealedAt 1 (setValue P.CAN_CTRL 1 1), 3, some 0, 1,
    by first | exact accepted_sealed (by decide +kernel) | exact accepted_plain (by decide +kernel), by decide +kernel, by decide +kernel,
    by decide +kernel⟩

theorem wit_AxesAndBuffersOverMail_6 : ∃ (s : State) (t : Nat) (h : HostCtx) (lv : Nat) (sl : Option Nat) (c : Nat),
    Accepted true s.dev t h (setValue P.CAN_CTRL c 2) lv sl ∧ 1 ≤ lv ∧ c ≤ 2 :=
  ⟨mk [(P.DPX_STATE, 0, 1), (P.TIM_STATE, 0,
    2)] fun d => { d with cyc := { d.cyc with origin := some 0, next := 20000 }, host := { d.host with slots := [some ses, none, none, none] }, can := { d.can with bufs := [{ i := 3, txst := 1 }] } }, (1000 * sec), sealedAt 1 (setValue P.CAN_CTRL 0 2), 3, some 0, 0, by first | exact accepted_sealed (by decide +kernel) | exact accepted_plain (by decide +kernel), by decide +kernel, by decide +kernel⟩

theorem wit_AxesAndBuffersOverMail_7 : ∃ (s : State) (t : Nat) (h : HostCtx) (lv : Nat) (sl : Option Nat) (b : Nat) (x : CanBuf),
    Accepted true s.dev t h (setValue P.CAN_TX_ABORT b 1) lv sl ∧ 1 ≤ lv ∧ b ≤ 191 ∧ s.dev.bufFirmware b = false ∧ s.dev.canBuf b = x ∧ x.txst = 1 :=
  ⟨mk [(P.DPX_STATE, 0, 1), (P.TIM_STATE, 0,
    2)] fun d => { d with cyc := { d.cyc with origin := some 0, next := 20000 }, host := { d.host with slots := [some ses, none, none, none] }, can := { d.can with bufs := [{ i := 3, txst := 1 }] } }, (1000 * sec), sealedAt 1 (setValue P.CAN_TX_ABORT 3 1), 3, some 0, 3, { i := 3, txst := 1 }, by first | exact accepted_sealed (by decide +kernel) | exact accepted_plain (by decide +kernel), by decide +kernel, by decide +kernel, by decide +kernel, by decide +kernel, by decide +kernel⟩

theorem wit_AxesAndBuffersOverMail_8 : ∃ (s : State) (t : Nat) (h : HostCtx) (lv : Nat) (sl : Option Nat) (b : Nat) (r : Bytes),
    Accepted true s.dev t h (setOne P.CAN_BUF b r) lv sl ∧ 1 ≤ lv ∧ b ≤ 191 ∧ r.length = 88 ∧ s.dev.bufFirmware b = false ∧
    fld (s.dev.bufCfg b) 0 1 = 2 ∧ bitOf (fld (s.dev.bufCfg b) 1 1) 1 = false ∧ fld r 1 1 ≤ 8 ∧ fld r 2 1 = fld r 1 1 ∧ (s.dev.canBuf b).txst ≠ 2 :=
  ⟨mk [(P.DPX_STATE, 0, 1), (P.TIM_STATE, 0,
    2)] fun d => { d with cyc := { d.cyc with origin := some 0, next := 20000 }, host := { d.host with slots := [some ses, none, none, none] }, can := { d.can with cfg := [(3, 2)] } }, (1000 * sec), sealedAt 1 (setOne P.CAN_BUF 3 (le 1 0 ++ le 1 2 ++ le 1 2 ++ le 1 0 ++ le 4 0x123 ++ zeros 16 ++ le 2 0x0102 ++ zeros 62)), 3, some 0, 3, (le 1 0 ++ le 1 2 ++ le 1 2 ++ le 1 0 ++ le 4 0x123 ++ zeros 16 ++ le 2 0x0102 ++ zeros 62), by first | exact accepted_sealed (by decide +kernel) | exact accepted_plain (by decide +kernel), by decide +kernel, by decide +kernel, by decide +kernel, by decide +kernel, by decide +kernel, by decide +kernel, by decide +kernel, by decide +kernel, by decide +kernel⟩

theorem wit_AxesAndBuffersOverMail_9 : ∃ (s : State) (t : Nat) (h : HostCtx) (lv : Nat) (sl : Option Nat) (b : Nat),
    Accepted true s.dev t h (getBlockBytes P.CAN_BUF b 0 0) lv sl ∧ b ≤ 191 :=
  ⟨mk [(P.DPX_STATE, 0, 1), (P.TIM_STATE, 0,
    2)] fun d => { d with cyc := { d.cyc with origin := some 0, next := 20000 }, host := { d.host with slots := [some ses, none, none, none] }, can := { d.can with bufs := [{ i := 3, newdat := true }] } }, (1000 * sec), sealedAt 1 (getBlockBytes P.CAN_BUF 3 0 0), 3, some 0, 3, by first | exact accepted_sealed (by decide +kernel) | exact accepted_plain (by decide +kernel), by decide +kernel⟩

theorem wit_KeysControlAndPower_0 : ∃ (s : State) (t : Nat) (h : HostCtx) (lv : Nat) (sl : Option Nat) (n : Nat) (key : Bytes),
    Accepted true s.dev t h (setOne P.AIR_KEY n key) lv sl ∧ 3 ≤ lv ∧ key.length = 16 ∧ keyInstOk n ∧ n ≤ 127 ∧ (s.dev.airKey n).cur = none ∧
    (s.dev.airKey n).roll = none ∧ (s.dev.airKey n).inst = n :=
  ⟨mk [(P.DPX_STATE, 0, 1), (P.TIM_STATE, 0,
    2)] fun d => { d with cyc := { d.cyc with origin := some 0, next := 20000 }, host := { d.host with slots := [some ses, none, none, none] } },
    (1000 * sec), sealedAt 1 (setOne P.AIR_KEY 3 (zeros 16)), 3, some 0, 3, (zeros 16),
    by first | exact accepted_sealed (by decide +kernel) | exact accepted_plain (by decide +kernel), by decide +kernel, by decide +kernel,
    by decide +kernel, by decide +kernel, by decide +kernel, by decide +kernel, by decide +kernel⟩

theorem wit_KeysControlAndPower_1 : ∃ (s : State) (t : Nat) (h : HostCtx) (lv : Nat) (sl : Option Nat) (n : Nat) (c : Nat) (key : Bytes),
    Accepted true s.dev t h (setValue P.AIR_ROLL n c) lv sl ∧ 3 ≤ lv ∧ 1 ≤ n ∧ n ≤ 96 ∧ (s.dev.airKey n).next = some key ∧ (s.dev.airKey n).inst = n ∧
    later c (u32 (cycleOf (s.dev.commitAt (s.dev.admitCycle (max s.dev.now t) (max h.admitAt (max s.dev.now t))).1) + 200)) ∧ c < 2 ^ 32 :=
  ⟨mk [(P.DPX_STATE, 0, 1), (P.TIM_STATE, 0,
    2)] fun d => { d with cyc := { d.cyc with origin := some 0, next := 20000 }, host := { d.host with slots := [some ses, none, none, none] }, air := { d.air with keys := [{ inst := 3, cur := some (zeros 16), next := some (zeros 16) }] } }, (1000 * sec), sealedAt 1 (setValue P.AIR_ROLL 3 30000), 3, some 0, 3, 30000, (zeros 16), by first | exact accepted_sealed (by decide +kernel) | exact accepted_plain (by decide +kernel), by decide +kernel, by decide +kernel, by decide +kernel, by decide +kernel, by decide +kernel, by decide +kernel, by decide +kernel⟩

theorem wit_KeysControlAndPower_2 : ∃ (s : State) (t : Nat) (h : HostCtx) (lv : Nat) (sl : Option Nat) (key : Bytes),
    Accepted false s.dev t h (setOne P.DPX_PAIR_KEY 0 key) lv sl ∧ 3 ≤ lv ∧ key.length = 16 ∧ s.dev.rd P.DPX_STATE = 0 ∧ s.dev.cyc.origin = none :=
  ⟨mk [(P.DPX_STATE, 0, 0)] fun d => { d with host := { d.host with slots := [some ses, none, none, none] } }, (1000 * sec),
    sealedAt 1 (setOne P.DPX_PAIR_KEY 0 (zeros 16)), 3, some 0, (zeros 16),
    by first | exact accepted_sealed (by decide +kernel) | exact accepted_plain (by decide +kernel), by decide +kernel, by decide +kernel,
    by decide +kernel, by decide +kernel⟩

theorem wit_KeysControlAndPower_3 : ∃ (s : State) (t : Nat) (h : HostCtx) (lv : Nat) (sl : Option Nat),
    Accepted true s.dev t h (setValue P.DPX_CTRL 0 1) lv sl ∧ 3 ≤ lv ∧ s.dev.rd P.DPX_PEER_STATE = 2 ∧ s.dev.peer.yielding = false :=
  ⟨mk [(P.DPX_STATE, 0, 1), (P.TIM_STATE, 0, 2), (P.DPX_PEER_STATE, 0,
    2)] fun d => { d with cyc := { d.cyc with origin := some 0, next := 20000 }, host := { d.host with slots := [some ses, none, none, none] } },
    (1000 * sec), sealedAt 1 (setValue P.DPX_CTRL 0 1), 3, some 0,
    by first | exact accepted_sealed (by decide +kernel) | exact accepted_plain (by decide +kernel), by decide +kernel, by decide +kernel,
    by decide +kernel⟩

theorem wit_KeysControlAndPower_4 : ∃ (s : State) (t : Nat) (h : HostCtx) (lv : Nat) (sl : Option Nat),
    Accepted true s.dev t h (setValue P.DPX_CTRL 0 2) lv sl ∧ 3 ≤ lv ∧ s.dev.peer.yielding = false :=
  ⟨mk [(P.DPX_STATE, 0, 1), (P.TIM_STATE, 0,
    2)] fun d => { d with cyc := { d.cyc with origin := some 0, next := 20000 }, host := { d.host with slots := [some ses, none, none, none] } },
    (1000 * sec), sealedAt 1 (setValue P.DPX_CTRL 0 2), 3, some 0,
    by first | exact accepted_sealed (by decide +kernel) | exact accepted_plain (by decide +kernel), by decide +kernel, by decide +kernel⟩

theorem wit_KeysControlAndPower_5 : ∃ (s : State) (t : Nat) (h : HostCtx) (lv : Nat) (sl : Option Nat),
    Accepted false s.dev t h (setValue P.DPX_CTRL 0 3) lv sl ∧ 3 ≤ lv ∧ s.dev.rd P.DPX_STATE = 4 ∧ s.dev.pwr.mode = 0 :=
  ⟨mk [(P.DPX_STATE, 0, 4)] fun d => { d with cyc := { d.cyc with origin := some 0, next := 20000 }, host := { d.host with slots := [some ses, none, none, none] } }, (1000 * sec), sealedAt 1 (setValue P.DPX_CTRL 0 3), 3, some 0, by first | exact accepted_sealed (by decide +kernel) | exact accepted_plain (by decide +kernel), by decide +kernel, by decide +kernel, by decide +kernel⟩

theorem wit_KeysControlAndPower_6 : ∃ (s : State) (t : Nat) (h : HostCtx) (lv : Nat) (sl : Option Nat) (n : Nat),
    Accepted true s.dev t h (setValue P.TLG_CLEAR 0 n) lv sl ∧ 3 ≤ lv ∧ n < 0xFFFF :=
  ⟨mk [(P.DPX_STATE, 0, 1), (P.TIM_STATE, 0,
    2)] fun d => { d with cyc := { d.cyc with origin := some 0, next := 20000 }, host := { d.host with slots := [some ses, none, none, none] }, tlg := { d.tlg with ctrs := [(4, 9), (5, 6)] } }, (1000 * sec), sealedAt 1 (setValue P.TLG_CLEAR 0 4), 3, some 0, 4, by first | exact accepted_sealed (by decide +kernel) | exact accepted_plain (by decide +kernel), by decide +kernel, by decide +kernel⟩

theorem wit_KeysControlAndPower_7 : ∃ (s : State) (t : Nat) (h : HostCtx) (lv : Nat) (sl : Option Nat),
    Accepted true s.dev t h (setValue P.PWR_DORMANT 0 1) lv sl ∧ 3 ≤ lv ∧ s.dev.cyc.adm = [] ∧ s.dev.com.stop.latched.all ∧ s.dev.rd P.JOB_STATE = 2 ∧
    s.dev.ctrls = [] ∧ s.dev.com.job.load = none ∧ s.dev.rd P.DPX_PEER_STATE ≠ 2 ∧ 2000 ≤ s.dev.rd P.PWR_VBAT_MV ∧ s.dev.rd P.PWR_WAKE_EN ≠ 0 :=
  ⟨mk [(P.DPX_STATE, 0, 1), (P.TIM_STATE, 0, 2), (P.JOB_STATE, 0, 2), (P.PWR_VBAT_MV, 0, 3000), (P.PWR_WAKE_EN, 0,
    1)] fun d => { d with cyc := { d.cyc with origin := some 0, next := 20000 }, host := { d.host with slots := [some ses, none, none, none] } },
    (1000 * sec), sealedAt 1 (setValue P.PWR_DORMANT 0 1), 3, some 0,
    by first | exact accepted_sealed (by decide +kernel) | exact accepted_plain (by decide +kernel), by decide +kernel, by decide +kernel,
    by decide +kernel, by decide +kernel, by decide +kernel, by decide +kernel, by decide +kernel, by decide +kernel, by decide +kernel⟩

theorem wit_KeysControlAndPower_8 : ∃ (s : State) (t : Nat) (h : HostCtx) (lv : Nat) (sl : Option Nat),
    Accepted true s.dev t h (setValue P.SEC_PROV_LOCK 0 1) lv sl ∧ lv = 3 ∧ s.dev.rd P.SEC_PROV_STATE = 0 :=
  ⟨mk [(P.DPX_STATE, 0, 1), (P.TIM_STATE, 0, 2), (P.SEC_PROV_STATE, 0,
    0)] fun d => { d with cyc := { d.cyc with origin := some 0, next := 20000 }, host := { d.host with slots := [some ses, none, none, none] } },
    (1000 * sec), sealedAt 1 (setValue P.SEC_PROV_LOCK 0 1), 3, some 0,
    by first | exact accepted_sealed (by decide +kernel) | exact accepted_plain (by decide +kernel), by decide +kernel, by decide +kernel⟩

theorem wit_KeysControlAndPower_9 : ∃ (s : State) (t : Nat) (h : HostCtx) (lv : Nat) (sl : Option Nat) (level : Nat) (i : Nat) (salt : Bytes),
    Accepted true s.dev t h (setOne P.SEC_REKEY 0 (le 1 level ++ salt)) lv sl ∧ 3 ≤ lv ∧ salt.length = 16 ∧ level ≤ 3 ∧
    s.dev.rd P.SEC_PROV_STATE = 1 ∧ sl = some i :=
  ⟨mk [(P.DPX_STATE, 0, 1), (P.TIM_STATE, 0, 2), (P.SEC_PROV_STATE, 0,
    1)] fun d => { d with cyc := { d.cyc with origin := some 0, next := 20000 }, host := { d.host with slots := [some ses, none, none, none] } },
    (1000 * sec), sealedAt 1 (setOne P.SEC_REKEY 0 (le 1 2 ++ zeros 16)), 3, some 0, 2, 0, (zeros 16),
    by first | exact accepted_sealed (by decide +kernel) | exact accepted_plain (by decide +kernel), by decide +kernel, by decide +kernel,
    by decide +kernel, by decide +kernel, by decide +kernel⟩

theorem wit_KeysControlAndPower_10 : ∃ (s : State) (t : Nat) (h : HostCtx) (lv : Nat) (sl : Option Nat),
    Accepted true s.dev t h (getBlockBytes P.SEC_KEY_EXPORT 0 0 0) lv sl ∧ s.dev.rd P.SEC_PROV_STATE = 1 ∧ s.dev.pwr.wrap = none :=
  ⟨mk [(P.DPX_STATE, 0, 1), (P.TIM_STATE, 0, 2), (P.SEC_PROV_STATE, 0,
    1)] fun d => { d with cyc := { d.cyc with origin := some 0, next := 20000 }, host := { d.host with slots := [some ses, none, none, none] } },
    (1000 * sec), sealedAt 1 (getBlockBytes P.SEC_KEY_EXPORT 0 0 0), 3, some 0,
    by first | exact accepted_sealed (by decide +kernel) | exact accepted_plain (by decide +kernel), by decide +kernel, by decide +kernel⟩

theorem wit_KeysControlAndPower_11 : ∃ (s : State) (t : Nat) (h : HostCtx) (lv : Nat) (sl : Option Nat),
    Accepted true s.dev t h (setValue P.SEC_ACTIVATE 0 1) lv sl ∧ 3 ≤ lv ∧ s.dev.cyc.adm = [] ∧ s.dev.com.stop.latched.all ∧
    s.dev.slotValid (1 - s.dev.pwr.active) :=
  ⟨mk [(P.DPX_STATE, 0, 1), (P.TIM_STATE, 0,
    2)] fun d => { d with cyc := { d.cyc with origin := some 0, next := 20000 }, host := { d.host with slots := [some ses, none, none, none] }, pwr := { d.pwr with slots := [{ state := 1 }, { state := 1 }] } }, (1000 * sec), sealedAt 1 (setValue P.SEC_ACTIVATE 0 1), 3, some 0, by first | exact accepted_sealed (by decide +kernel) | exact accepted_plain (by decide +kernel), by decide +kernel, by decide +kernel, by decide +kernel, by decide +kernel⟩

theorem wit_KeysControlAndPower_12 : ∃ (s : State) (t : Nat) (h : HostCtx) (lv : Nat) (sl : Option Nat),
    Accepted true s.dev t h (setValue P.SEC_CONFIRM 0 1) lv sl ∧ 3 ≤ lv ∧ s.dev.pwr.trial :=
  ⟨mk [(P.DPX_STATE, 0, 1), (P.TIM_STATE, 0, 2), (P.SEC_TRIAL, 0,
    3)] fun d => { d with cyc := { d.cyc with origin := some 0, next := 20000 }, host := { d.host with slots := [some ses, none, none, none] }, pwr := { d.pwr with trial := true, slot := 1 } }, (1000 * sec), sealedAt 1 (setValue P.SEC_CONFIRM 0 1), 3, some 0, by first | exact accepted_sealed (by decide +kernel) | exact accepted_plain (by decide +kernel), by decide +kernel, by decide +kernel⟩

theorem wit_FramesTurnedAway_0 : ∃ (s : State) (t : Nat) (h : HostCtx) (p : Bytes) (c : Instr), mailOf c = some (t, h, p) ∧
    (s.dev.hostDown = true ∨ 1 < h.ep.tr ∨ (h.ep.tr = 1 ∧ s.dev.up = true ∧ s.dev.rd P.HST_SERIAL_EN = 0)) :=
  ⟨mk [(P.DPX_STATE, 0, 1), (P.TIM_STATE, 0, 2), (P.CHU_STATE, 1,
    1)] fun d => { d with cyc := { d.cyc with origin := some 0, next := 20000 }, host := { d.host with slots := [some ses, none, none, none] } },
    (1000 * sec), sealedAt 1 (setOne P.JOB_CTRL 0 (le 1 1)), (setOne P.JOB_CTRL 0 (le 1 1)),
    .jobStart (1000 * sec) (sealedAt 1 (setOne P.JOB_CTRL 0 (le 1 1))), by decide +kernel, by decide +kernel⟩

theorem wit_FramesTurnedAway_1 : ∃ (s : State) (t : Nat) (h : HostCtx) (p : Bytes) (c : Instr), mailOf c = some (t, h, p) ∧ s.dev.up = false ∧
    s.dev.pwr.mode ≠ 3 ∧ mailLength h p ≤ transportLimit h.ep.tr :=
  ⟨mk [] fun d => { d with pwr := { d.pwr with mode := 1 } }, (1000 * sec), sealedAt 1 (setOne P.JOB_CTRL 0 (le 1 1)), (setOne P.JOB_CTRL 0 (le 1 1)),
    .jobStart (1000 * sec) (sealedAt 1 (setOne P.JOB_CTRL 0 (le 1 1))), by decide +kernel, by decide +kernel, by decide +kernel, by decide +kernel⟩

theorem wit_FramesTurnedAway_2 : ∃ (s : State) (t : Nat) (h : HostCtx) (p : Bytes) (c : Instr), mailOf c = some (t, h, p) ∧ s.dev.hostDown = false ∧
    h.ep.tr ≤ 1 ∧ ((h.ep.tr = 1 → s.dev.rd P.HST_SERIAL_EN ≠ 0)) ∧ transportLimit h.ep.tr < mailLength h p :=
  ⟨mk [(P.DPX_STATE, 0, 1), (P.TIM_STATE, 0,
    2)] fun d => { d with cyc := { d.cyc with origin := some 0, next := 20000 }, host := { d.host with slots := [some ses, none, none, none] } },
    (1000 * sec), sealedAt 1 (le 1 5 ++ le 1 2 ++ le 2 0 ++ zeros 2000), (le 1 5 ++ le 1 2 ++ le 2 0 ++ zeros 2000),
    .echo (1000 * sec) (sealedAt 1 (le 1 5 ++ le 1 2 ++ le 2 0 ++ zeros 2000)) (zeros 2000), by decide +kernel, by decide +kernel, by decide +kernel,
    by decide +kernel, by decide +kernel⟩

theorem wit_FramesTurnedAway_3 : ∃ (s : State) (t : Nat) (h : HostCtx) (p : Bytes) (c : Instr), mailOf c = some (t, h, p) ∧ Heard s.dev h p ∧
    isStop h.mbx p = false ∧ s.dev.commits = true ∧ s.dev.tooEarly (max s.dev.now t) = true :=
  ⟨mk [(P.DPX_STATE, 0, 1), (P.TIM_STATE, 0,
    2)] fun d => { d with cyc := { d.cyc with origin := some 0, next := 20000, floor := 2000 * sec }, host := { d.host with slots := [some ses, none, none, none] } }, (1000 * sec), sealedAt 1 (setOne P.JOB_CTRL 0 (le 1 1)), (setOne P.JOB_CTRL 0 (le 1 1)), .jobStart (1000 * sec) (sealedAt 1 (setOne P.JOB_CTRL 0 (le 1 1))), by decide +kernel, by unfold Heard; decide +kernel, by decide +kernel, by decide +kernel, by decide +kernel⟩

theorem wit_FramesTurnedAway_4 : ∃ (s : State) (t : Nat) (h : HostCtx) (p : Bytes) (c : Instr), mailOf c = some (t, h, p) ∧ Heard s.dev h p ∧
    isStop h.mbx p = false ∧ ((s.dev.commits = true → s.dev.tooEarly (max s.dev.now t) = false)) ∧ 1 ≤ h.mbx ∧ h.mbx ≤ 7 ∧
    (s.dev.at t).repeatOf h (crc32c p) = none ∧ 16 ≤ (s.dev.host.queue.filter fun q => q.mbx == h.mbx).length :=
  ⟨mk [(P.DPX_STATE, 0, 1), (P.TIM_STATE, 0,
    2)] fun d => { d with cyc := { d.cyc with origin := some 0, next := 20000 }, host := { d.host with slots := [some ses, none, none, none], queue := List.replicate 16 { mbx := 1 } } }, (1000 * sec), sealedAt 1 (setOne P.JOB_CTRL 0 (le 1 1)), (setOne P.JOB_CTRL 0 (le 1 1)), .jobStart (1000 * sec) (sealedAt 1 (setOne P.JOB_CTRL 0 (le 1 1))), by decide +kernel, by unfold Heard; decide +kernel, by decide +kernel, by decide +kernel, by decide +kernel, by decide +kernel, by decide +kernel, by decide +kernel⟩

theorem wit_FramesTurnedAway_5 : ∃ (s : State) (t : Nat) (h : HostCtx) (p : Bytes) (c : Instr) (x : DupRec), mailOf c = some (t, h, p) ∧
    Heard s.dev h p ∧ isStop h.mbx p = false ∧ ((s.dev.commits = true → s.dev.tooEarly (max s.dev.now t) = false)) ∧ 1 ≤ h.mbx ∧ h.mbx ≤ 7 ∧
    (s.dev.at t).repeatOf h (crc32c p) = some x :=
  ⟨mk [(P.DPX_STATE, 0, 1), (P.TIM_STATE, 0,
    2)] fun d => { d with cyc := { d.cyc with origin := some 0, next := 20000 }, host := { d.host with slots := [some ses, none, none, none], dup := [{ mbx := 1, crc := crc32c (setOne P.JOB_CTRL 0 (le 1 1)), stamp := 1000 * sec, reply := some {} }] } }, (1000 * sec), sealedAt 1 (setOne P.JOB_CTRL 0 (le 1 1)), (setOne P.JOB_CTRL 0 (le 1 1)), .jobStart (1000 * sec) (sealedAt 1 (setOne P.JOB_CTRL 0 (le 1 1))), { mbx := 1, crc := crc32c (setOne P.JOB_CTRL 0 (le 1 1)), stamp := 1000 * sec, reply := some {} }, by decide +kernel, by unfold Heard; decide +kernel, by decide +kernel, by decide +kernel, by decide +kernel, by decide +kernel, by decide +kernel⟩

theorem wit_FramesTurnedAway_6 : ∃ (s : State) (t : Nat) (h : HostCtx) (p : Bytes) (c : Instr), mailOf c = some (t, h, p) ∧ Heard s.dev h p ∧
    isStop h.mbx p = false ∧ ((s.dev.commits = true → s.dev.tooEarly (max s.dev.now t) = false)) ∧ 1 ≤ h.mbx ∧ h.mbx ≤ 7 ∧ s.dev.host.queue = [] ∧
    (s.dev.at t).repeatOf h (crc32c p) = none ∧ s.dev.commits = true ∧
    s.dev.cyc.next ≤ (s.dev.admitCycle (max s.dev.now t) (max h.admitAt (max s.dev.now t))).1 ∧ frameOk h.mbx (bit h.trailer.isSome) p = false ∧
    isRead (fld p 0 1) = false :=
  ⟨mk [(P.DPX_STATE, 0, 1), (P.TIM_STATE, 0,
    2)] fun d => { d with cyc := { d.cyc with origin := some 0, next := 20000 }, host := { d.host with slots := [some ses, none, none, none] } },
    (1000 * sec), sealedAt 4 (setOne P.JOB_CTRL 0 (le 1 1)), (setOne P.JOB_CTRL 0 (le 1 1)),
    .jobStart (1000 * sec) (sealedAt 4 (setOne P.JOB_CTRL 0 (le 1 1))), by decide +kernel, by unfold Heard; decide +kernel, by decide +kernel,
    by decide +kernel, by decide +kernel, by decide +kernel, by decide +kernel, by decide +kernel, by decide +kernel, by decide +kernel,
    by decide +kernel, by decide +kernel⟩

theorem wit_FramesTurnedAway_7 : ∃ (s : State) (t : Nat) (h : HostCtx) (p : Bytes) (c : Instr), mailOf c = some (t, h, p) ∧ Heard s.dev h p ∧
    isStop h.mbx p = false ∧ ((s.dev.commits = true → s.dev.tooEarly (max s.dev.now t) = false)) ∧ 1 ≤ h.mbx ∧ h.mbx ≤ 7 ∧ s.dev.host.queue = [] ∧
    (s.dev.at t).repeatOf h (crc32c p) = none ∧ s.dev.commits = true ∧
    s.dev.cyc.next ≤ (s.dev.admitCycle (max s.dev.now t) (max h.admitAt (max s.dev.now t))).1 ∧ frameOk h.mbx (bit h.trailer.isSome) p = true ∧
    isRead (fld p 0 1) = false ∧ h.trailer.isSome = true ∧ s.dev.sessionOf h.ep (max s.dev.now t) = none :=
  ⟨mk [(P.DPX_STATE, 0, 1), (P.TIM_STATE, 0,
    2)] fun d => { d with cyc := { d.cyc with origin := some 0, next := 20000 }, host := { d.host with slots := [none, none, none, none] } },
    (1000 * sec), sealedAt 1 (setOne P.JOB_CTRL 0 (le 1 1)), (setOne P.JOB_CTRL 0 (le 1 1)),
    .jobStart (1000 * sec) (sealedAt 1 (setOne P.JOB_CTRL 0 (le 1 1))), by decide +kernel, by unfold Heard; decide +kernel, by decide +kernel,
    by decide +kernel, by decide +kernel, by decide +kernel, by decide +kernel, by decide +kernel, by decide +kernel, by decide +kernel,
    by decide +kernel, by decide +kernel, by decide +kernel, by decide +kernel⟩

theorem wit_WritesRefused_0 : ∃ (s : State) (t : Nat) (h : HostCtx) (lv : Nat) (sl : Option Nat) (c : Instr) (id : Nat) (i : Nat) (b : Bytes),
    mailOf c = some (t, h, setOne id i b) ∧ Accepted true s.dev t h (setOne id i b) lv sl ∧ itemRow id i = none ∧ id < 65536 ∧ i < 65536 ∧
    b.length < 65536 :=
  ⟨mk [(P.DPX_STATE, 0, 1), (P.TIM_STATE, 0,
    2)] fun d => { d with cyc := { d.cyc with origin := some 0, next := 20000 }, host := { d.host with slots := [some ses, none, none, none] } },
    (1000 * sec), sealedAt 1 (setOne 0x01FF 0 [1#8]), 3, some 0, .set (1000 * sec) (sealedAt 1 (setOne 0x01FF 0 [1#8])) [(0x01FF, 0, [1#8])], 0x01FF,
    0, [1#8], by decide +kernel, by first | exact accepted_sealed (by decide +kernel) | exact accepted_plain (by decide +kernel), by decide +kernel,
    by decide +kernel, by decide +kernel, by decide +kernel⟩

theorem wit_WritesRefused_1 : ∃ (s : State) (t : Nat) (h : HostCtx) (lv : Nat) (sl : Option Nat) (c : Instr) (id : Nat) (i : Nat) (b : Bytes) (r : Param), mailOf c = some (t, h, setOne id i b) ∧ Accepted true s.dev t h (setOne id i b) lv sl ∧ itemRow id i = some r ∧ r.id ≠ P.SEC_PROV_LOCK ∧ (r.acc = .ro ∨ lv < r.level) ∧ id < 65536 ∧ i < 65536 ∧ b.length < 65536 :=
  ⟨mk [(P.DPX_STATE, 0, 1), (P.TIM_STATE, 0,
    2)] fun d => { d with cyc := { d.cyc with origin := some 0, next := 20000 }, host := { d.host with slots := [some ses, none, none, none] } },
    (1000 * sec), sealedAt 1 (setOne P.TIM_STATE 0 [1#8]), 3, some 0, .set (1000 * sec) (sealedAt 1 (setOne P.TIM_STATE 0 [1#8])) [(P.TIM_STATE, 0,
    [1#8])], P.TIM_STATE, 0, [1#8], ((itemRow P.TIM_STATE 0).getD default), by decide +kernel,
    by first | exact accepted_sealed (by decide +kernel) | exact accepted_plain (by decide +kernel), by decide +kernel, by decide +kernel,
    by decide +kernel, by decide +kernel, by decide +kernel, by decide +kernel⟩

theorem wit_WritesRefused_2 : ∃ (s : State) (t : Nat) (h : HostCtx) (lv : Nat) (sl : Option Nat) (c : Instr) (id : Nat) (i : Nat) (b : Bytes) (r : Param), mailOf c = some (t, h, setOne id i b) ∧ Accepted true s.dev t h (setOne id i b) lv sl ∧ itemRow id i = some r ∧ r.id ≠ P.SEC_PROV_LOCK ∧ r.acc ≠ .ro ∧ r.level ≤ lv ∧ lenOk r b = false ∧ id < 65536 ∧ i < 65536 ∧ b.length < 65536 :=
  ⟨mk [(P.DPX_STATE, 0, 1), (P.TIM_STATE, 0,
    2)] fun d => { d with cyc := { d.cyc with origin := some 0, next := 20000 }, host := { d.host with slots := [some ses, none, none, none] } },
    (1000 * sec), sealedAt 1 (setOne P.AIR_RETRIES 0 [1#8, 1#8]), 3, some 0, .set (1000 * sec) (sealedAt 1 (setOne P.AIR_RETRIES 0 [1#8,
    1#8])) [(P.AIR_RETRIES, 0, [1#8, 1#8])], P.AIR_RETRIES, 0, [1#8, 1#8], ((itemRow P.AIR_RETRIES 0).getD default), by decide +kernel,
    by first | exact accepted_sealed (by decide +kernel) | exact accepted_plain (by decide +kernel), by decide +kernel, by decide +kernel,
    by decide +kernel, by decide +kernel, by decide +kernel, by decide +kernel, by decide +kernel, by decide +kernel⟩

theorem wit_WritesRefused_3 : ∃ (s : State) (t : Nat) (h : HostCtx) (lv : Nat) (sl : Option Nat) (c : Instr) (id : Nat) (i : Nat) (b : Bytes) (r : Param), mailOf c = some (t, h, setOne id i b) ∧ Accepted true s.dev t h (setOne id i b) lv sl ∧ itemRow id i = some r ∧ r.id ≠ P.SEC_PROV_LOCK ∧ r.acc = .rwi ∧ r.level ≤ lv ∧ lenOk r b = true ∧ id / 256 = 0x10 ∧ s.dev.rd P.GNS_RUN ≠ 0 ∧ id < 65536 ∧ i < 65536 ∧ b.length < 65536 :=
  ⟨mk [(P.DPX_STATE, 0, 1), (P.TIM_STATE, 0, 2), (P.GNS_RUN, 0,
    1)] fun d => { d with cyc := { d.cyc with origin := some 0, next := 20000 }, host := { d.host with slots := [some ses, none, none, none] } },
    (1000 * sec), sealedAt 1 (setOne P.GNS_EPOCH_RATE 0 [5#8]), 3, some 0,
    .set (1000 * sec) (sealedAt 1 (setOne P.GNS_EPOCH_RATE 0 [5#8])) [(P.GNS_EPOCH_RATE, 0, [5#8])], P.GNS_EPOCH_RATE, 0, [5#8],
    ((itemRow P.GNS_EPOCH_RATE 0).getD default), by decide +kernel,
    by first | exact accepted_sealed (by decide +kernel) | exact accepted_plain (by decide +kernel), by decide +kernel, by decide +kernel,
    by decide +kernel, by decide +kernel, by decide +kernel, by decide +kernel, by decide +kernel, by decide +kernel, by decide +kernel, by decide +kernel⟩

end Sys2Proof.Tests
end

namespace Sys2Proof
open Sys2Proof.Machine

/-! ### Stamps and cycle numbers -/

theorem sec_eq : sec = 1000000000 := rfl

/-- Settles O7: the nanoseconds stay below the seconds' unit, 2^30, so that the two fields never meet. -/
theorem stampsOnTheWire : Obligations.StampsOnTheWire := by
  unfold Obligations.StampsOnTheWire
  refine ⟨fun t => ?_, fun v hv => ?_, fun t ht => ?_⟩
  · simp only [stamp64, sec_eq]; omega
  · exact if_neg (by rw [sec_eq]; omega)
  · have hs : stamp64 t % 2 ^ 30 < sec := by simp only [stamp64, sec_eq]; omega
    simp only [ofStamp64, if_pos hs, Option.some.injEq]
    simp only [stamp64, sec_eq]; omega

/-- `later` as the difference modulo 2^32 (R9). -/
theorem later_iff (a b : Nat) : later a b = true ↔ 1 ≤ (a + 2 ^ 32 - b % 2 ^ 32) % 2 ^ 32 ∧ (a + 2 ^ 32 - b % 2 ^ 32) % 2 ^ 32 ≤ 2 ^ 31 - 1 := by
  simp only [later, Bool.and_eq_true, decide_eq_true_eq]

/-- Settles O8: the difference that `later` forms without signs is the signed one modulo 2^32. -/
theorem cycleNumbersCompare : Obligations.CycleNumbersCompare := by
  unfold Obligations.CycleNumbersCompare
  refine ⟨fun t k => ?_, fun n => rfl, fun a b ha hb => ?_, fun b => ?_⟩
  · simp only [cycleOf, cycleNs, ms]; omega
  · rw [later_iff]
    constructor
    · intro h
      exact ⟨(a + 2 ^ 32 - b % 2 ^ 32) % 2 ^ 32, by omega, by omega, by omega⟩
    · rintro ⟨d, h1, h2, hd⟩
      omega
  · rw [Bool.eq_false_iff, Ne, later_iff]; omega

/-! ### Counters -/

/-- Counting moves no sticky flag but at the largest value of an item with the mark S. -/
theorem isSticky_inc {d : Dev} {id : Nat} {p : Param} (hp : paramOf id = some p) (i : Nat) :
    (d.inc id i).isSticky id i =
      if p.cnt = .stick ∧ 256 ^ p.ty.width ≤ d.rd id i + 1 then true else d.isSticky id i := by
  simp only [Dev.inc, hp, Dev.incAt]
  cases p.cnt with
  | stick =>
    by_cases hv : d.rd id i + 1 < 256 ^ p.ty.width
    · simp only [if_pos hv, Nat.not_le.2 hv, and_false, if_false, Dev.isSticky, wr_sticky]
    · simp only [if_neg hv, Nat.not_lt.1 hv, and_self, if_true]
      by_cases hs : d.isSticky id i = true
      · rw [if_pos hs, hs]
      · rw [if_neg hs]
        exact List.elem_cons_self
  | none => rfl
  | wrap => rfl
  | event => rfl

/-- Settles O11: the value is `bumped`, the flag that of `isSticky_inc`, and `inc_spec` says what stays. -/
theorem countersCount : Obligations.CountersCount := by
  unfold Obligations.CountersCount
  intro d id i p hp
  rw [rd_inc_self, isSticky_inc hp, bumped, hp]
  refine ⟨fun hc hlt => ?_, fun hc hge => ?_, fun hc => ?_, fun id' i' hk => (inc_spec d id i).2 id' i' hk.symm⟩
  · simp only [hc, if_pos hlt, Nat.not_le.2 hlt, and_false, if_false, and_self]
  · simp only [hc, if_neg (Nat.not_lt.2 hge), hge, and_self, if_true]
  · cases hcnt : p.cnt with
    | stick => exact absurd hcnt hc
    | none | wrap | event => exact ⟨by simp only [hcnt], if_neg fun h => nomatch h.1⟩

/-! ### Every command completes -/

/-- Each arm of `exec` is an effect on the device alone: it answers a next state with the queue as it stands. -/
theorem exec_completes (c : Instr) (s : State) : Completes c s fun _ => True := by
  cases c <;> exact ⟨_, rfl, rfl, trivial⟩

/-- Settles O3: the queue's rest is what `step` hands to `exec`, which leaves it. -/
theorem everyStepAnswersNext : Obligations.EveryStepAnswersNext := by
  unfold Obligations.EveryStepAnswersNext
  intro s
  unfold step
  split
  next h => exact ⟨_, rfl, by simp only [h, List.tail_nil]⟩
  next c rest h =>
    obtain ⟨u, hu, hp, -⟩ := exec_completes c { s with pending := rest }
    exact ⟨u, hu, by rw [hp, h, List.tail_cons]⟩

end Sys2Proof

namespace Sys2Proof.Machine
open Sys2Proof

/-! ## The canonical form is kept (O6)

Every change of a register file goes through `Dev.wr`, which keeps the form, but for the four operations that take over a whole file
(`Dev.publish`, `Dev.takeImage`, `Dev.emptied`, `Dev.becomeActive`). So each function of the model that hands on a device keeps the form, by the
lemmas of the functions that it calls: the lemma `Dev.Canon.f` is about `Dev.f`, and `execF_canon` about a command's effect. They stand in the order
of the model's files. -/

/-- The canonical form of both register files of a device (R374), as it is carried through the model's operations. -/
structure Dev.Canon (d : Dev) : Prop where
  regs : Regs.wf d.regs = true
  snap : Regs.wf d.snap = true

theorem Dev.canon_iff {d : Dev} : d.Canon ↔ d.canonical = true := by
  rw [Dev.canonical, Bool.and_eq_true]
  exact ⟨fun h => ⟨h.regs, h.snap⟩, fun h => ⟨h.1, h.2⟩⟩

section

variable {d : Dev} {s : State}

/-! ### How the form passes through the shape of a definition -/

/-- A change of other fields. -/
theorem Dev.Canon.keep {now : Nat} {committedOnce : Bool} {sticky : List Nat} {staged : List Staged} {ctrls : List (Nat × Nat × Nat × Bytes)} {out
    : List Output} {freeIx : Nat} {tim : Tim} {cyc : Cyc} {host : HostSt} {chutes : List Chute} {rcd : Recorder} {stp : Stop} {air : Air} {gns : Gns}
    {chiselOut : List Nat} {ring : RingSt} {can : CanSt} {mtr : MtrSt} {drk : DrkSt} {dsp : DspSt} {tlg : TlgSt} {pwr : Pwr} {peer : Peer} {com : Com}
    (h : d.Canon) : Dev.Canon { now, regs := d.regs, snap := d.snap, committedOnce, sticky, staged, ctrls, out, freeIx, tim, cyc, host, chutes, rcd,
                                stp, air, gns, chiselOut, ring, can, mtr, drk, dsp, tlg, pwr, peer, com } :=
  ⟨h.regs, h.snap⟩

/-- Either branch of a choice. -/
theorem Dev.Canon.either {e : Dev} {c : Prop} [Decidable c] (h : d.Canon) (k : e.Canon) : (if c then d else e).Canon := by
  split
  · exact h
  · exact k

theorem Dev.Canon.eitherFst {β : Type} {p q : Dev × β} {c : Prop} [Decidable c] (h : p.1.Canon) (k : q.1.Canon) :
    (if c then p else q).1.Canon := by
  split
  · exact h
  · exact k

theorem Dev.Canon.eitherSnd {α : Type} {p q : α × Dev} {c : Prop} [Decidable c] (h : p.2.Canon) (k : q.2.Canon) :
    (if c then p else q).2.Canon := by
  split
  · exact h
  · exact k

theorem Dev.Canon.when {c : Bool} {f : Dev → Dev} (h : d.Canon) (hf : ∀ {d : Dev}, d.Canon → (f d).Canon) : (d.when c f).Canon :=
  (hf h).either h

theorem Dev.Canon.foldl {α : Type} {f : Dev → α → Dev} {l : List α} (h : d.Canon) (hf : ∀ {d : Dev} (x : α), d.Canon → (f d x).Canon) :
    (l.foldl f d).Canon := by
  induction l generalizing d with
  | nil => exact h
  | cons x l ih => exact ih (hf x h)

/-- A fold that carries a result beside the device. -/
theorem Dev.Canon.foldlFst {α β : Type} {f : Dev × β → α → Dev × β} {l : List α} {b : β} (h : d.Canon)
    (hf : ∀ {a : Dev × β} (x : α), a.1.Canon → (f a x).1.Canon) : (l.foldl f (d, b)).1.Canon := by
  induction l generalizing d b with
  | nil => exact h
  | cons x l ih => exact ih (b := (f (d, b) x).2) (hf x h)

theorem Dev.Canon.fst {β : Type} {b : β} (h : d.Canon) : (d, b).1.Canon := h

theorem Dev.Canon.snd {α : Type} {a : α} (h : d.Canon) : (a, d).2.Canon := h

theorem Dev.Canon.of_fst {β : Type} {p : Dev × β} {b : β} (h : p.1.Canon) (e : p = (d, b)) : d.Canon := by
  rwa [e] at h

theorem Dev.Canon.of_snd {α : Type} {p : α × Dev} {a : α} (h : p.2.Canon) (e : p = (a, d)) : d.Canon := by
  rwa [e] at h

/-! ### Register files taken over from elsewhere -/

theorem Regs.wf_imageRegs {own img : RegFile} (h : Regs.wf own = true) : Regs.wf (imageRegs own img) = true :=
  Regs.wf_foldl_put _ _ _ (Regs.wf_filter _ h)

theorem Regs.wf_keepRegs {r : RegFile} (h : Regs.wf r = true) : Regs.wf (keepRegs r) = true := Regs.wf_filter _ h

theorem Dev.Canon.regsAfter {k : Nat} (h : d.Canon) : Regs.wf (d.regsAfter k) = true := Regs.wf_foldl_put _ _ _ h.regs

/-! ### Outcomes -/

/-- The device of a next state is of the canonical form. -/
def LeavesCanon (o : Host.Outcome State Fault Refusal) : Prop := ∀ u, o = .next u → u.dev.Canon

theorem runAlways_canon {f : Dev → Dev} (h : s.dev.Canon) (hf : ∀ {d : Dev}, d.Canon → (f d).Canon) : LeavesCanon (runAlways s f) := by
  rintro _ ⟨⟩
  exact hf h

theorem run_canon {f : Dev → Dev} (h : s.dev.Canon) (hf : ∀ {d : Dev}, d.Canon → (f d).Canon) : LeavesCanon (run s f) :=
  runAlways_canon h fun h => (hf h).either h

/-! ### Ops -/

/-- A register write keeps the keys rising and drops an entry at its reset value. -/
theorem Dev.Canon.wr (h : d.Canon) {id i v : Nat} : (d.wr id i v).Canon := ⟨Regs.wf_put _ _ h.regs, h.snap⟩

theorem Dev.Canon.wrS (h : d.Canon) {id i : Nat} {z : Int} : (d.wrS id i z).Canon := by
  unfold Dev.wrS
  split
  · exact h.wr
  · exact h

theorem Dev.Canon.incAt (h : d.Canon) {id i w : Nat} {c : Cnt} : (d.incAt id i w c).Canon := by
  unfold Dev.incAt
  extract_lets
  split
  · exact h.wr.either (h.either h.keep)
  · exact h.wr

theorem Dev.Canon.inc (h : d.Canon) {id i : Nat} : (d.inc id i).Canon := by
  unfold Dev.inc
  split
  · exact h.incAt
  · exact h

theorem Dev.Canon.incBy {id i n : Nat} (h : d.Canon) : (d.incBy id i n).Canon := by
  induction n generalizing d with
  | zero => exact h
  | succ n ih => exact ih h.inc

theorem Dev.Canon.addW (h : d.Canon) {id i n : Nat} : (d.addW id i n).Canon := by
  unfold Dev.addW
  split
  · exact h.wr
  · exact h

theorem Dev.Canon.maxTo (h : d.Canon) {id i v : Nat} : (d.maxTo id i v).Canon := by
  unfold Dev.maxTo
  split
  · exact h.wr
  · exact h

theorem Dev.Canon.free (h : d.Canon) : d.free.2.Canon := h.keep.snd

theorem Dev.Canon.at (h : d.Canon) {t : Nat} : (d.at t).Canon := h.keep

theorem Dev.Canon.emit (h : d.Canon) {o : Output} : (d.emit o).Canon := by
  unfold Dev.emit
  split
  · exact h.either h.keep
  · exact h.keep

theorem Dev.Canon.putMail (h : d.Canon) {ep : Ep} {o : Output} : (d.putMail ep o).Canon := h.keep.either h.emit

theorem Dev.Canon.sendFrame (h : d.Canon) {kind : Nat} {ep : Ep} {tag mbx flags : Nat} {payload : Bytes} {trailer : Bool} :
    (d.sendFrame kind ep tag mbx flags payload trailer).Canon := by
  unfold Dev.sendFrame
  extract_lets d1
  have h1 : d1.Canon := h.inc
  refine .either h ?_
  split
  · extract_lets
    exact h1.keep.putMail.either h1.putMail
  · exact h1.putMail

theorem Dev.Canon.sendParts {ep : Ep} {tag mbx : Nat} {head : Bytes} {trailer : Bool} {ps : List Bytes} (h : d.Canon) :
    (d.sendParts ep tag mbx head trailer ps).Canon := by
  induction ps generalizing d with
  | nil => exact h
  | cons p ps ih =>
    cases ps with
    | nil => exact h.sendFrame
    | cons q ps => exact ih h.sendFrame

theorem Dev.Canon.sendReply (h : d.Canon) {ep : Ep} {tag mbx op : Nat} {r : Reply} {trailer : Bool} : (d.sendReply ep tag mbx op r trailer).Canon :=
  h.sendParts

theorem Dev.Canon.stream (h : d.Canon) {kind : Nat} {item : Bytes} : (d.stream kind item).Canon :=
  h.keep.emit.foldl fun _ h => (h.keep.sendFrame.either h.keep.inc).either h

theorem Dev.Canon.record (h : d.Canon) {r : Rec} : (d.record r).Canon := h.either (h.keep.inc.either (h.inc.either h.inc.keep))

theorem Dev.Canon.log (h : d.Canon) {code tile : Nat} {body : Bytes} : (d.log code tile body).Canon := by
  unfold Dev.log
  extract_lets
  split
  · extract_lets
    exact h.keep.record
  · exact h.record

theorem Dev.Canon.noticeOut (h : d.Canon) {code : Nat} {body : Bytes} : (d.noticeOut code body).Canon :=
  h.inc.keep.foldl fun _ h => h.keep.sendFrame.either h

theorem Dev.Canon.noticeNow (h : d.Canon) {code tile : Nat} {body : Bytes} {at_ : Option Nat} : (d.noticeNow code tile body at_).Canon := by
  unfold Dev.noticeNow
  extract_lets d1
  have h1 : d1.Canon := h.log
  split <;> exact h1.noticeOut

theorem Dev.Canon.noticeAt (h : d.Canon) {code tile : Nat} {body : Bytes} {at_ : Option Nat} : (d.noticeAt code tile body at_).Canon := by
  unfold Dev.noticeAt
  extract_lets
  split
  · exact h.keep
  · exact h.noticeNow

theorem Dev.Canon.deferring {k : Nat} {f : Dev → Dev} (h : d.Canon) (hf : ∀ {d : Dev}, d.Canon → (f d).Canon) : (d.deferring k f).Canon :=
  (hf h.keep).keep

theorem Dev.Canon.notice (h : d.Canon) {code : Nat} {body : Bytes} : (d.notice code body).Canon := h.noticeAt

theorem Dev.Canon.noticeT (h : d.Canon) {code : Nat} {body : Bytes} : (d.noticeT code body).Canon := h.noticeAt

theorem Dev.Canon.faultLast (h : d.Canon) {code loc : Nat} : (d.faultLast code loc).Canon := h.wr

theorem Dev.Canon.fault (h : d.Canon) {code loc : Nat} {body : Bytes} : (d.fault code loc body).Canon := h.faultLast.noticeAt

theorem Dev.Canon.faultLog (h : d.Canon) {eng loc : Nat} {body : Bytes} : (d.faultLog eng loc body).Canon := h.faultLast.record

theorem Dev.Canon.traceOut (h : d.Canon) {src kind : Nat} {body : Bytes} : (d.traceOut src kind body).Canon := h.keep.addW.emit.stream

theorem Dev.Canon.traceSync (h : d.Canon) : d.traceSync.Canon := h.keep.traceOut

theorem Dev.Canon.traceLost (h : d.Canon) : d.traceLost.Canon := h.either (h.keep.traceOut.either h.keep.traceOut.keep.noticeT)

theorem Dev.Canon.trace (h : d.Canon) {src kind : Nat} {body : Bytes} : (d.trace src kind body).Canon :=
  h.either (h.keep.inc.either (h.when (·.traceSync)).traceLost.traceOut)

theorem Dev.Canon.takeSeq (h : d.Canon) {cls idx : Nat} : (d.takeSeq cls idx).2.Canon := h.keep.snd

theorem Dev.Canon.countIn (h : d.Canon) {late spilled : Bool} : (d.countIn late spilled).Canon := (h.inc.when (·.inc)).when (·.inc)

theorem Dev.Canon.hold (h : d.Canon) {m : Nat} {x : Input} {full : List Nat} : (d.hold m x full).Canon := h.keep

theorem Dev.Canon.admitInput (h : d.Canon) {x : Input} {a : Nat} : (d.admitInput x a).Canon := by
  unfold Dev.admitInput
  refine .either h (.either (h.inc.either h) (.either h.inc.trace ?_))
  split
  exact (h.countIn.hold.when (·.emit)).trace

theorem Dev.Canon.input (h : d.Canon) {stamp cls idx : Nat} {payload : Bytes} : (d.input stamp cls idx payload).Canon := h.takeSeq.admitInput

theorem Dev.Canon.offer (h : d.Canon) {chute stamp cls idx : Nat} {payload : Bytes} : (d.offer chute stamp cls idx payload).Canon := h.takeSeq.keep

theorem Dev.Canon.stopNotice (h : d.Canon) {src : Nat} {s : Scope} {stamp : Nat} : (d.stopNotice src s stamp).Canon := h.keep.notice

theorem Dev.Canon.stopEvent (h : d.Canon) {src : Nat} {s : Scope} {k : EvKey} {entered : Bool} : (d.stopEvent src s k entered).Canon :=
  h.keep.stopNotice

theorem Dev.Canon.laneInputs (h : d.Canon) {src action : Nat} {s : Scope} {loc : Nat} : (d.laneInputs src action s loc).Canon :=
  h.foldl fun _ h => h.input.either h

theorem Dev.Canon.laneStop (h : d.Canon) {src action : Nat} {s : Scope} {loc : Nat} : (d.laneStop src action s loc).Canon :=
  (h.foldl fun _ h => h.keep).stopNotice.laneInputs

theorem Dev.Canon.giveUp (h : d.Canon) {cause : Nat} : (d.giveUp cause).Canon := h.either (h.keep.wr.emit.when (·.emit))

theorem Dev.Canon.packageVerdict (h : d.Canon) : d.packageVerdict.Canon := h.keep.stopEvent.input.giveUp

/-! ### Dispatcher -/

theorem Dev.Canon.ctr (h : d.Canon) {i n : Nat} : (d.ctr i n).Canon := h.keep

theorem Dev.Canon.tlgLatch (h : d.Canon) {k : Nat} : (d.tlgLatch k).Canon := h.keep

theorem Dev.Canon.tlgClear (h : d.Canon) {v : Nat} : (d.tlgClear v).Canon := h.keep.either h.keep

theorem Dev.Canon.setTask (h : d.Canon) {x : DTask} : (d.setTask x).Canon := h.keep

theorem Dev.Canon.setCore (h : d.Canon) {c : Nat} {x : DCore} : (d.setCore c x).Canon := h.keep

theorem Dev.Canon.dspTrace (h : d.Canon) {kind : Nat} {x : DTask} {core arg : Nat} : (d.dspTrace kind x core arg).Canon := h.trace

theorem Dev.Canon.coreCount (h : d.Canon) {c : Nat} : (d.coreCount c).Canon := h.setCore.ctr.either h

theorem Dev.Canon.dspCycle (h : d.Canon) : d.dspCycle.Canon := h.foldl fun _ h => h.coreCount.setCore

theorem Dev.Canon.dspRun (h : d.Canon) {c : Nat} {x : DTask} : (d.dspRun c x).Canon := (h.setTask.setCore.inc.maxTo.ctr.when (·.ctr)).dspTrace

theorem Dev.Canon.dspLeave (h : d.Canon) {c : Nat} {x : DTask} : (d.dspLeave c x).2.Canon := h.coreCount.setCore.snd

theorem Dev.Canon.dspHold (h : d.Canon) {x : DTask} : (d.dspHold x).Canon := by
  unfold Dev.dspHold
  extract_lets _ idle d1 free
  have h1 : d1.Canon := (h.when (·.ctr)).dspTrace
  clear_value d1
  have hfree : free.Canon := by
    unfold free
    clear_value idle
    split
    · exact h1.dspRun
    · exact h1.setTask
  clear_value free
  split
  · exact h1.dspRun.either (hfree.either h1.setTask)
  · exact hfree

theorem Dev.Canon.dspReady (h : d.Canon) {x : DTask} : (d.dspReady x).Canon := by
  unfold Dev.dspReady
  refine .either ?_ h.dspHold
  split
  · extract_lets x1
    split
    rename_i d1 hv
    have h1 : d1.Canon := .of_snd h.dspLeave hv
    exact .dspHold h1.inc.ctr.ctr.dspTrace.dspTrace.dspRun
  · exact h.dspHold

theorem Dev.Canon.dspWake (h : d.Canon) {x : DTask} {cause : Nat} : (d.dspWake x cause).Canon := h.dspTrace.dspReady

theorem Dev.Canon.wakeAll (h : d.Canon) {kind obj cause : Nat} : (d.wakeAll kind obj cause).Canon := h.either (h.foldl fun _ h => h.dspWake)

theorem execTaskReady_canon (h : s.dev.Canon) {t n base : Nat} : LeavesCanon (execTaskReady t n base s) :=
  run_canon h fun h => h.at.either h.at.dspReady

theorem execCorePick_canon (h : s.dev.Canon) {t c : Nat} : LeavesCanon (execCorePick t c s) := by
  refine run_canon h fun h => ?_
  extract_lets dd
  have hdd : dd.Canon := h.at
  refine .either hdd ?_
  split
  · exact hdd.dspRun
  · exact hdd

theorem execHoldExpire_canon (h : s.dev.Canon) {t n : Nat} : LeavesCanon (execHoldExpire t n s) := by
  refine run_canon h fun h => ?_
  extract_lets dd
  have hdd : dd.Canon := h.at
  split
  · extract_lets _ d1
    have h1 : d1.Canon := hdd.setTask.ctr.dspTrace
    refine .either hdd ?_
    split
    · exact h1.dspRun
    · exact h1
  · exact hdd

theorem execTaskAge_canon (h : s.dev.Canon) {t n : Nat} : LeavesCanon (execTaskAge t n s) := by
  refine run_canon h fun h => ?_
  extract_lets dd
  have hdd : dd.Canon := h.at
  split
  · extract_lets
    exact hdd.either hdd.setTask.inc.ctr.dspTrace
  · exact hdd

theorem execTaskWait_canon (h : s.dev.Canon) {t n kind obj timeout : Nat} : LeavesCanon (execTaskWait t n kind obj timeout s) := by
  refine run_canon h fun h => ?_
  extract_lets dd
  have hdd : dd.Canon := h.at
  split
  · split
    · refine .either hdd ?_
      split
      rename_i d1 hv
      have h1 : d1.Canon := .of_snd hdd.dspLeave hv
      extract_lets _ d2
      have h2 : d2.Canon := h1.setTask.dspTrace
      exact h2.keep.dspWake.either h2
    · exact hdd
  · exact hdd

theorem execEventPost_canon (h : s.dev.Canon) {t ev : Nat} : LeavesCanon (execEventPost t ev s) :=
  run_canon h fun h => h.at.either (h.at.wakeAll.either (h.at.either h.at.keep))

theorem execTaskWaitTimeout_canon (h : s.dev.Canon) {t n : Nat} : LeavesCanon (execTaskWaitTimeout t n s) := by
  refine run_canon h fun h => ?_
  extract_lets dd
  have hdd : dd.Canon := h.at
  split
  · split
    · exact hdd.either hdd.inc.ctr.dspWake
    · exact hdd
  · exact hdd

theorem execCoreFault_canon (h : s.dev.Canon) {t tile cause : Nat} : LeavesCanon (execCoreFault t tile cause s) := by
  refine run_canon h fun h => ?_
  extract_lets dd _ _ d1 _ d2
  have hdd : dd.Canon := h.at
  have h1 : d1.Canon := hdd.foldl fun _ h => h.coreCount.setCore
  have h2 : d2.Canon := h1.fault
  exact hdd.either (h2.foldl fun _ h => h.setTask.either h.dspReady)

theorem execDispatcherFault_canon (h : s.dev.Canon) {t : Nat} : LeavesCanon (execDispatcherFault t s) :=
  run_canon h fun h => h.at.either h.at.keep.faultLog.giveUp

theorem execTraceSync_canon (h : s.dev.Canon) {t : Nat} : LeavesCanon (execTraceSync t s) :=
  run_canon h fun h => h.at.either (h.at.traceSync.either h.at)

theorem Dev.Canon.dspCold (h : d.Canon) : d.dspCold.Canon := h.keep

/-! ### Vermilion -/

theorem execLaneTick_canon (h : s.dev.Canon) {t i : Nat} {ok : Bool} : LeavesCanon (execLaneTick t i ok s) :=
  run_canon h fun h => (h.at.either (h.at.keep.either h.at.keep)).either h.at

theorem Dev.Canon.voterFail (h : d.Canon) : d.voterFail.Canon := h.either h.wr.fault.stopEvent.input.giveUp

theorem Dev.Canon.isolate (h : d.Canon) {i : Nat} : (d.isolate i).Canon := h.wr.wr.inc.fault

theorem Dev.Canon.compareLanes (h : d.Canon) : d.compareLanes.Canon := by
  unfold Dev.compareLanes
  extract_lets _ _ _ _ _ _ _ _ d1
  have h1 : d1.Canon := h.keep
  split
  · refine .either h1.voterFail ?_
    split
    · extract_lets
      exact h1.isolate.keep
    · exact h1
  · split
    · extract_lets _ d1
      have h1 : d1.Canon := h.keep
      exact h1.voterFail.either h1
    · exact h.voterFail
  · exact h

theorem Dev.Canon.showStop (h : d.Canon) : d.showStop.Canon := h.wr.wr.wr.wr

theorem Dev.Canon.outputs (h : d.Canon) : d.outputs.Canon := h.either h.keep.wr.emit.emit

theorem Dev.Canon.permitNotice (h : d.Canon) : d.permitNotice.Canon := h.keep.either h.keep.noticeT

theorem Dev.Canon.startSeries (h : d.Canon) {oldSeq : Nat} : (d.startSeries oldSeq).Canon := h.keep.either h

theorem Dev.Canon.voterTick (h : d.Canon) : d.voterTick.Canon := h.compareLanes.keep.trace.showStop.permitNotice.startSeries.outputs

theorem execVoterTest_canon (h : s.dev.Canon) {t : Nat} {ok : Bool} : LeavesCanon (execVoterTest t ok s) :=
  run_canon h fun h => h.at.either h.at.voterFail

theorem Dev.Canon.showLevel (h : d.Canon) {i : Nat} : (d.showLevel i).Canon := h.wr

theorem Dev.Canon.circuitFault (h : d.Canon) {i cause : Nat} : (d.circuitFault i cause).Canon :=
  h.keep.either h.keep.keep.inc.faultLast.notice.laneStop

theorem Dev.Canon.circuitClear (h : d.Canon) {c : Nat} : (d.circuitClear c).Canon := h.keep.notice.laneInputs.either h

theorem execEstopEdge_canon (h : s.dev.Canon) {t i raw : Nat} {closed : Bool} : LeavesCanon (execEstopEdge t i raw closed s) :=
  run_canon h fun h => (h.at.keep.showLevel.input.either h.at.keep.showLevel.input.stopEvent).either h.at

theorem execEstopTestPulse_canon (h : s.dev.Canon) {t i : Nat} {low back : Bool} {other : Option Nat} :
    LeavesCanon (execEstopTestPulse t i low back other s) := by
  refine run_canon h fun h => ?_
  extract_lets dd _ _ d1 d2
  have hdd : dd.Canon := h.at
  have h1 : d1.Canon := hdd.keep.showLevel.either hdd.circuitFault.showLevel
  have h2 : d2.Canon := by
    unfold d2
    split
    · exact h1.circuitFault.either h1
    · exact h1
  exact h2.circuitClear.either hdd

theorem execEstopDiscrepancy_canon (h : s.dev.Canon) {t c : Nat} : LeavesCanon (execEstopDiscrepancy t c s) := by
  refine run_canon h fun h => ?_
  extract_lets dd
  have hdd : dd.Canon := h.at
  split
  · exact hdd.keep.circuitFault.either hdd
  · exact hdd

theorem execCanSilence_canon (h : s.dev.Canon) {t i : Nat} : LeavesCanon (execCanSilence t i s) := by
  refine run_canon h fun h => ?_
  extract_lets dd
  have hdd : dd.Canon := h.at
  split
  · exact hdd.keep.laneStop.either hdd
  · exact hdd

theorem execRemoteSilence_canon (h : s.dev.Canon) {t i : Nat} : LeavesCanon (execRemoteSilence t i s) :=
  run_canon h fun h => h.at.keep.laneStop.either h.at

theorem Dev.Canon.remoteFrame (h : d.Canon) {i kind stamp slice : Nat} : (d.remoteFrame i kind stamp slice).Canon :=
  h.either (h.keep.stopEvent.either h.keep)

theorem Dev.Canon.canStopFrame (h : d.Canon) {ctrl id first stamp : Nat} : (d.canStopFrame ctrl id first stamp).Canon := by
  refine h.foldl fun _ h => .either ?_ h
  split
  · exact h.keep.stopEvent.either h.keep
  · exact h

theorem Dev.Canon.laneFence (h : d.Canon) {i k : Nat} {fence list_ : Bytes} : (d.laneFence i k fence list_).Canon := by
  unfold Dev.laneFence
  extract_lets _ _ d1
  have h1 : d1.Canon := h.keep
  refine .either ?_ h.inc
  exact h1.foldl fun _ h => h.either
    (((h.keep.when (·.stopNotice)).either h).either (((h.keep.when (·.stopNotice)).either h).keep.when (·.stopNotice)).input)

theorem execLaneRecordApply_canon (h : s.dev.Canon) {t i : Nat} {good : Bool} : LeavesCanon (execLaneRecordApply t i good s) := by
  refine run_canon h fun h => ?_
  extract_lets dd d1
  have hdd : dd.Canon := h.at
  have h1 : d1.Canon := by
    unfold d1
    split
    · exact hdd.laneFence.either hdd.inc
    · exact hdd
  refine .either ?_ hdd
  split
  · exact h1.keep.either h1
  · exact h1

theorem execFenceDeadline_canon (h : s.dev.Canon) {t i k : Nat} : LeavesCanon (execFenceDeadline t i k s) :=
  run_canon h fun h => h.at.keep.inc.either h.at

theorem Dev.Canon.outFaultRaise (h : d.Canon) {o cause : Nat} : (d.outFaultRaise o cause).Canon := h.either h.keep.inc.faultLast.noticeT.laneStop

theorem execSafeOutTest_canon (h : s.dev.Canon) {t o : Nat} {ok : Bool} : LeavesCanon (execSafeOutTest t o ok s) :=
  run_canon h fun h => h.at.outFaultRaise.either h.at

theorem execSafeFbMismatch_canon (h : s.dev.Canon) {t o since : Nat} {fb : Bool} : LeavesCanon (execSafeFbMismatch t o since fb s) :=
  run_canon h fun h => h.at.wr.outFaultRaise.either h.at

theorem execSafeFaultClear_canon (h : s.dev.Canon) {t since : Nat} : LeavesCanon (execSafeFaultClear t since s) :=
  run_canon h fun h => h.at.keep.wr.laneInputs.either h.at

theorem Dev.Canon.sliceFault (h : d.Canon) {i : Nat} : (d.sliceFault i).Canon := h.either h.wr.faultLast.noticeT

theorem execStartupTests_canon (h : s.dev.Canon) {t mask lanes chans slices : Nat} : LeavesCanon (execStartupTests t mask lanes chans slices s) := by
  refine run_canon h fun h => ?_
  extract_lets dd _ d1 _ d2 d3 d4 d5 d6
  have hdd : dd.Canon := h.at
  have h1 : d1.Canon := hdd.keep.log
  have h2 : d2.Canon := h1.when fun h => h.voterFail.either (h.foldl fun _ h => h.isolate)
  have h3 : d3.Canon := h2.when (·.voterFail)
  have h4 : d4.Canon := h3.when (·.packageVerdict)
  have h5 : d5.Canon := h4.when (·.outFaultRaise)
  have h6 : d6.Canon := h5.when fun h => h.foldl fun _ h => h.circuitFault
  exact (h6.when fun h => h.foldl fun _ h => h.sliceFault).either hdd

theorem execBeaconSelfListen_canon (h : s.dev.Canon) {t i : Nat} {heard : Option Bytes} : LeavesCanon (execBeaconSelfListen t i heard s) := by
  refine run_canon h fun h => ?_
  extract_lets dd _ _ d1 d1'
  have hdd : dd.Canon := h.at
  have h1 : d1.Canon := hdd.keep.inc
  have h1' : d1'.Canon := hdd.keep
  refine .either ?_ hdd
  split
  · exact h1.sliceFault.either h1
  · extract_lets
    exact h1'.packageVerdict.either h1'

/-! ### FieldBus -/

theorem Dev.Canon.canSt (h : d.Canon) {f : CanSt → CanSt} : (d.canSt f).Canon := h.keep

theorem Dev.Canon.putBuf (h : d.Canon) {b : CanBuf} : (d.putBuf b).Canon := h.canSt

theorem Dev.Canon.bufRead (h : d.Canon) {i : Nat} : (d.bufRead i).2.Canon := h.putBuf.snd

theorem Dev.Canon.canState (h : d.Canon) {c new : Nat} : (d.canState c new).Canon := h.either (h.wr.noticeT.when (·.log))

theorem Dev.Canon.canErrors (h : d.Canon) {c tec rec_ : Nat} : (d.canErrors c tec rec_).Canon :=
  h.wr.wr.either (h.wr.wr.canSt.keep.inc.canState.either (h.wr.wr.canState.either h.wr.wr.canState))

theorem Dev.Canon.canSync (h : d.Canon) {c : Nat} : (d.canSync c).Canon := h.wr.wr.canState.either h

theorem Dev.Canon.canAbort (h : d.Canon) {c : Nat} {f : Nat → Bool} : (d.canAbort c f).Canon := h.canSt

theorem Dev.Canon.isoSend (h : d.Canon) {sa : Nat} : (d.isoSend sa).Canon := h.emit

theorem execCanModeApply_canon (h : s.dev.Canon) {t c : Nat} : LeavesCanon (execCanModeApply t c s) := by
  refine run_canon h fun h => ?_
  extract_lets dd _ _ d1 _ d2
  have hdd : dd.Canon := h.at.canSync
  have h1 : d1.Canon := hdd.canSt
  have h2 : d2.Canon := h1.canState.either ((h1.canState.when (·.isoSend)).either h1)
  refine .either hdd (.either h1.canAbort.wr.wr.canState (.either ?_ h2))
  split
  · exact h2.putBuf
  · exact h2

theorem Dev.Canon.refTake (h : d.Canon) {c : Nat} {f : CanFrame} : (d.refTake c f).Canon := (h.wrS.wr.when (·.inc)).canSt.either h

theorem execCanFrameReceive_canon (h : s.dev.Canon) {t c : Nat} {f : CanFrame} : LeavesCanon (execCanFrameReceive t c f s) := by
  refine run_canon h fun h => ?_
  extract_lets dd
  have hdd : dd.Canon := h.at.canSync
  refine .either hdd ?_
  split
  rename_i d1 hv
  have h1 : d1.Canon := .of_snd (.eitherSnd hdd.free.snd hdd.snd) hv
  extract_lets d2 d3
  have h2 : d2.Canon := h1.inc.canErrors
  have h3 : d3.Canon := h2.canStopFrame.refTake
  refine .either h2.inc ?_
  split
  · exact h3
  · extract_lets
    split
    rename_i d1 hv
    have h1 : d1.Canon := .of_snd (.eitherSnd h3.takeSeq h3.snd) hv
    extract_lets _ d5
    have h5 : d5.Canon := h1.putBuf
    exact h5.either (h5.inc.either h5.keep)

theorem execCanReceiveError_canon (h : s.dev.Canon) {t c : Nat} {dominant : Bool} : LeavesCanon (execCanReceiveError t c dominant s) :=
  run_canon h fun h => h.at.canSync.either (h.at.canSync.inc.either h.at.canSync.inc.canErrors)

theorem execCanFrameSent_canon (h : s.dev.Canon) {t c b sof loop : Nat} : LeavesCanon (execCanFrameSent t c b sof loop s) := by
  refine run_canon h fun h => ?_
  extract_lets dd
  have hdd : dd.Canon := h.at.canSync
  split
  · extract_lets _ _ d1 d2
    have h1 : d1.Canon := hdd.putBuf
    have h2 : d2.Canon := (h1.inc.when (·.wr)).emit
    exact hdd.either h2.canErrors
  · exact hdd

theorem execCanTxError_canon (h : s.dev.Canon) {t c b kind : Nat} : LeavesCanon (execCanTxError t c b kind s) := by
  refine run_canon h fun h => ?_
  extract_lets dd
  have hdd : dd.Canon := h.at.canSync
  split
  · extract_lets _ _ _ _ d1 d2
    have h1 : d1.Canon := hdd.putBuf.inc
    have h2 : d2.Canon := h1.inc.wr.noticeT.either h1
    exact hdd.either h2.canErrors
  · exact hdd

theorem execCanRecoveryStart_canon (h : s.dev.Canon) {t c : Nat} : LeavesCanon (execCanRecoveryStart t c s) :=
  run_canon h fun h => h.at.canState.either h.at

theorem execCanRecoveryDone_canon (h : s.dev.Canon) {t c : Nat} : LeavesCanon (execCanRecoveryDone t c s) :=
  run_canon h fun h => h.at.wr.wr.canState.either h.at

theorem execCanControllerFault_canon (h : s.dev.Canon) {t c cause : Nat} : LeavesCanon (execCanControllerFault t c cause s) :=
  run_canon h fun h => h.at.either h.at.canSt.canState.fault

theorem Dev.Canon.canCtrl (h : d.Canon) {c v : Nat} : (d.canCtrl c v).Canon := (h.when (·.canState)).either (h.canAbort.either h)

theorem Dev.Canon.txAbort (h : d.Canon) {i : Nat} : (d.txAbort i).Canon := h.putBuf.either (h.putBuf.either h)

theorem Dev.Canon.bufWrite (h : d.Canon) {i : Nat} {r : Bytes} : (d.bufWrite i r).Canon := h.putBuf

theorem execCanRefSchedule_canon (h : s.dev.Canon) {t c : Nat} : LeavesCanon (execCanRefSchedule t c s) :=
  run_canon h fun h => h.at.either (h.at.when (·.inc)).wr.putBuf

theorem execCanRefLost_canon (h : s.dev.Canon) {t c : Nat} : LeavesCanon (execCanRefLost t c s) := by
  refine run_canon h fun h => ?_
  extract_lets dd
  have hdd : dd.Canon := h.at
  split
  · exact hdd.canSt.noticeT.either hdd
  · exact hdd

theorem Dev.Canon.isoState (h : d.Canon) {new addr : Nat} : (d.isoState new addr).Canon := h.wr.wr.either h.wr.wr.noticeT

theorem Dev.Canon.isoClaim (h : d.Canon) {addr : Nat} : (d.isoClaim addr).Canon := h.canSt.isoState.isoSend

theorem Dev.Canon.isoLose (h : d.Canon) : d.isoLose.Canon := by
  unfold Dev.isoLose
  extract_lets next
  clear_value next
  split
  · exact h.isoClaim
  · exact h.isoState.isoSend

theorem execIsoAddressClaim_canon (h : s.dev.Canon) {t ev addr name : Nat} : LeavesCanon (execIsoAddressClaim t ev addr name s) := by
  refine run_canon h fun h => ?_
  extract_lets dd _ _ _ d1
  have hdd : dd.Canon := h.at.canSync
  have h1 : d1.Canon := hdd.canSt
  refine .either hdd ?_
  split
  · exact hdd.isoClaim.either hdd
  · exact (h1.isoSend.either h1.isoLose).either h1
  · exact hdd.isoSend.either hdd
  · exact hdd.isoState.either hdd
  · exact hdd

theorem Dev.Canon.canCold (h : d.Canon) : d.canCold.Canon := (h.keep.foldl fun _ h => h.wr.wr.wr).wr.wr

/-! ### RtkBase -/

theorem Dev.Canon.rtkBad (h : d.Canon) {n rule len stamp : Nat} : (d.rtkBad n rule len stamp).Canon := h.inc.either h.inc.keep.notice

/-! ### Air -/

theorem Dev.Canon.spend (h : d.Canon) {i c k t : Nat} : (d.spend i c k t).Canon := h.keep.wr

theorem Dev.Canon.dwell (h : d.Canon) {i c k cls t : Nat} : (d.dwell i c k cls t).2.Canon :=
  .eitherSnd h.snd (.eitherSnd h.snd (h.keep.inc.either h.keep.inc.noticeT).snd)

theorem Dev.Canon.setAirKey (h : d.Canon) {k : AirKey} : (d.setAirKey k).Canon := h.keep

theorem Dev.Canon.refuseStuck (h : d.Canon) {inst : Nat} : (d.refuseStuck inst).Canon := h.keep.incBy

theorem Dev.Canon.takeFcnt (h : d.Canon) {inst : Nat} : (d.takeFcnt inst).2.Canon :=
  ((h.setAirKey.wr.when (·.notice)).when fun h => h.keep.notice.refuseStuck).snd

theorem Dev.Canon.formFrame (h : d.Canon) {key machine : Nat} {flood : Bool} {ttl mid part : Nat} {msg : Bytes} :
    (d.formFrame key machine flood ttl mid part msg).2.Canon :=
  h.takeFcnt.keep.snd

theorem Dev.Canon.airTrace (h : d.Canon) {kind i type lseq origin dst : Nat} : (d.airTrace kind i type lseq origin dst).Canon := h.trace

theorem Dev.Canon.frameTrace (h : d.Canon) {kind i : Nat} {f : TxFrame} {psdu : Bytes} : (d.frameTrace kind i f psdu).Canon := h.airTrace

theorem Dev.Canon.pushFrame (h : d.Canon) {i : Nat} {f : TxFrame} : (d.pushFrame i f).Canon := h.inc.frameTrace.either h.keep

theorem Dev.Canon.queueMsg (h : d.Canon) {i type machine key mid : Nat} {msg : Bytes} {flood : Bool} :
    (d.queueMsg i type machine key mid msg flood).Canon :=
  h.foldl fun _ h => h.pushFrame

theorem Dev.Canon.takeMid (h : d.Canon) : d.takeMid.2.Canon := h.keep.snd

theorem Dev.Canon.toMachine (h : d.Canon) {n type : Nat} {msg : Bytes} : (d.toMachine n type msg).Canon := by
  unfold Dev.toMachine
  extract_lets _ _ d1
  have h1 : d1.Canon := h.keep
  refine .either h (.either h.inc ?_)
  split
  rename_i d1 hv
  have h1 : d1.Canon := .of_snd h1.takeMid hv
  split
  · exact h1.queueMsg
  · exact h1.inc

theorem Dev.Canon.toAll (h : d.Canon) {type : Nat} {msg : Bytes} : (d.toAll type msg).Canon :=
  h.either (h.inc.either (h.takeMid.inc.either (h.takeMid.foldl fun _ h => h.queueMsg)))

theorem Dev.Canon.settleQueues (h : d.Canon) : d.settleQueues.Canon := by
  unfold Dev.settleQueues
  refine h.foldl fun _ h => h.either (h.keep.foldl fun _ h => h.inc.either ?_)
  split
  · exact h.pushFrame
  · exact h.inc

theorem Dev.Canon.requeue (h : d.Canon) {i : Nat} {f : TxFrame} : (d.requeue i f).Canon := h.keep

theorem Dev.Canon.frameFailed (h : d.Canon) {i : Nat} {f : TxFrame} : (d.frameFailed i f).Canon :=
  h.inc.keep.queueMsg.either h.inc.keep.queueMsg.wr.noticeT

theorem Dev.Canon.attemptFailed (h : d.Canon) {i : Nat} {f : TxFrame} : (d.attemptFailed i f).Canon :=
  h.requeue.frameTrace.either (h.inc.either h.frameFailed)

theorem execAirFrameTransmit_canon (h : s.dev.Canon) {t i : Nat} {clear : Bool} : LeavesCanon (execAirFrameTransmit t i clear s) := by
  refine run_canon h fun h => ?_
  extract_lets dd
  have hdd : dd.Canon := h.at.settleQueues
  refine .either hdd ?_
  split
  · exact hdd
  · extract_lets _ _ _ _ dq
    have hdq : dq.Canon := hdd.keep
    refine .either hdq.inc (.either hdq.attemptFailed (.either hdd ?_))
    split
    rename_i d1 hv
    have h1 : d1.Canon := .of_snd hdd.dwell hv
    extract_lets _ dq
    have hdq : dq.Canon := h1.keep
    refine .either h1.frameTrace ?_
    split
    rename_i d2 hv
    have h2 : d2.Canon := by
      refine .of_snd ?_ hv
      split
      · exact hdq.snd
      · exact hdq.formFrame
    extract_lets d3
    have h3 : d3.Canon := h2.spend.inc.when (·.inc)
    exact h3.keep.emit.frameTrace

theorem execAckReceive_canon (h : s.dev.Canon) {t i : Nat} {psdu : Bytes} : LeavesCanon (execAckReceive t i psdu s) := by
  refine run_canon h fun h => ?_
  extract_lets dd
  have hdd : dd.Canon := h.at
  split
  · exact hdd
  · extract_lets
    exact hdd.keep.either hdd

theorem execAckTimeout_canon (h : s.dev.Canon) {t i : Nat} : LeavesCanon (execAckTimeout t i s) := by
  refine run_canon h fun h => ?_
  extract_lets dd _ d1
  have hdd : dd.Canon := h.at
  have h1 : d1.Canon := hdd.keep
  split
  · exact hdd
  · exact (h1.either h1.attemptFailed).either hdd

theorem execTxQueueExpire_canon (h : s.dev.Canon) {t i : Nat} : LeavesCanon (execTxQueueExpire t i s) :=
  run_canon h fun h => h.at.keep.foldl fun _ h => h.inc.frameTrace

theorem execSynthUnlock_canon (h : s.dev.Canon) {t i : Nat} : LeavesCanon (execSynthUnlock t i s) :=
  run_canon h fun h => h.at.sliceFault.keep.settleQueues.either h.at

theorem Dev.Canon.sendSafe (h : d.Canon) {i copy : Nat} {body : Bytes} : (d.sendSafe i copy body).2.Canon := by
  unfold Dev.sendSafe
  extract_lets
  split
  rename_i d1 hv
  have h1 : d1.Canon := h.dwell.of_snd hv
  refine .eitherSnd h1.airTrace.snd ?_
  split
  rename_i d2 hv
  have h2 : d2.Canon := h1.takeMid.of_snd hv
  split
  rename_i d3 hv
  have h3 : d3.Canon := h2.formFrame.of_snd hv
  exact h3.spend.inc.emit.airTrace.snd

theorem execBeaconForm_canon (h : s.dev.Canon) {t i : Nat} : LeavesCanon (execBeaconForm t i s) :=
  run_canon h fun h => (h.at.keep.sendSafe.keep.inc.either h.at.keep.sendSafe.inc).either h.at

theorem Dev.Canon.abortFrame (h : d.Canon) {i : Nat} : (d.abortFrame i).Canon := by
  unfold Dev.abortFrame
  extract_lets
  split
  · extract_lets _ d1
    have h1 : d1.Canon := h.keep
    exact h1.requeue.either h
  · exact h

theorem execStopCopy_canon (h : s.dev.Canon) {t : Nat} : LeavesCanon (execStopCopy t s) := by
  refine run_canon h fun h => ?_
  extract_lets dd
  have hdd : dd.Canon := h.at
  split
  · extract_lets _ d1
    have h1 : d1.Canon := (hdd.foldl fun _ h => h.abortFrame.sendSafe).either hdd
    exact hdd.either (hdd.keep.either h1.keep)
  · exact hdd

theorem Dev.Canon.reject (h : d.Canon) {origin reason slice sfd : Nat} : (d.reject origin reason slice sfd).Canon :=
  (h.inc.either h.inc).either (h.inc.either h.inc).keep.notice

theorem Dev.Canon.deliveryAck (h : d.Canon) {n : Nat} {m : Bytes} : (d.deliveryAck n m).Canon := h.keep.wr.either h.keep

theorem Dev.Canon.deliver (h : d.Canon) {origin target mid kclass slice sfd : Nat} {msg : Bytes} :
    (d.deliver origin target mid kclass slice sfd msg).Canon := by
  unfold Dev.deliver
  extract_lets _ _ keep _ d1
  have h1 : d1.Canon := h.keep
  refine .either h (.either h.inc (.either h.inc (.either h1.keep ?_)))
  exact .either h1 (h1.deliveryAck.either (h1.offer.remoteFrame.either (h1.rtkBad.either (h1.offer.either h1))))

theorem Dev.Canon.fragment (h : d.Canon) {origin target mid kclass slice sfd idx last : Nat} {part : Bytes} :
    (d.fragment origin target mid kclass slice sfd idx last part).Canon := by
  unfold Dev.fragment
  extract_lets
  refine .either h.inc ?_
  split
  · exact h.keep.inc.either (h.either (h.keep.deliver.either h.keep))
  · exact h.keep.inc.either (h.keep.deliver.either h.keep)

theorem Dev.Canon.heardFrom (h : d.Canon) {origin i hops : Nat} : (d.heardFrom origin i hops).Canon :=
  ((h.when (·.inc)).keep.wr.either (h.when (·.inc)).keep.wr.wr.noticeT).either (h.when (·.inc))

theorem Dev.Canon.acknowledge (h : d.Canon) {i : Nat} {f : Bytes} : (d.acknowledge i f).Canon :=
  h.either (h.dwell.either h.dwell.spend.inc.emit.airTrace)

theorem Dev.Canon.pruneSeen (h : d.Canon) : d.pruneSeen.Canon := h.keep.wr

theorem Dev.Canon.noteSeen (h : d.Canon) {origin fcnt : Nat} : (d.noteSeen origin fcnt).Canon := (h.keep.when (·.inc)).wr

theorem Dev.Canon.macReceive (h : d.Canon) {i sfd : Nat} {f : Bytes} : (d.macReceive i sfd f).Canon := by
  unfold Dev.macReceive
  extract_lets _ _ _ _ _ _ _ dd
  have hdd : dd.Canon := h.pruneSeen
  refine .either hdd.inc (.either hdd.inc ?_)
  split
  · exact hdd.reject
  · extract_lets
    refine .either hdd.inc (.either hdd.reject ?_)
    split
    extract_lets _ d1 d2
    have h1 : d1.Canon := hdd.keep
    have h2 : d2.Canon := (h1.airTrace.when (·.noteSeen)).heardFrom
    exact hdd.reject.either (h2.deliver.either h2.fragment)

theorem execAirFrameReceive_canon (h : s.dev.Canon) {t i sfd : Nat} {f : Bytes} : LeavesCanon (execAirFrameReceive t i sfd f s) := by
  refine run_canon h fun h => ?_
  extract_lets dd _ _ _ _ _ d1
  have hdd : dd.Canon := h.at
  have h1 : d1.Canon := hdd.inc.keep
  exact hdd.either (hdd.inc.either (hdd.inc.either (hdd.inc.either (h1.when (·.acknowledge)).macReceive)))

theorem execReasmExpire_canon (h : s.dev.Canon) {t : Nat} : LeavesCanon (execReasmExpire t s) :=
  run_canon h fun h => h.at.keep.incBy

theorem Dev.Canon.openDeliveries (h : d.Canon) {inst : Nat} : (d.openDeliveries inst).Canon := by
  unfold Dev.openDeliveries
  extract_lets
  split
  · exact h
  · extract_lets _ d1
    have h1 : d1.Canon := h.keep
    exact h1.wr.either h1

theorem Dev.Canon.airKeyWrite (h : d.Canon) {inst : Nat} {key : Bytes} : (d.airKeyWrite inst key).Canon :=
  h.setAirKey.either h.setAirKey.openDeliveries

theorem Dev.Canon.airRollWrite (h : d.Canon) {inst a : Nat} : (d.airRollWrite inst a).Canon := h.setAirKey.wr.openDeliveries

theorem execKeyRollover_canon (h : s.dev.Canon) {t inst : Nat} : LeavesCanon (execKeyRollover t inst s) := by
  refine run_canon h fun h => ?_
  extract_lets dd
  have hdd : dd.Canon := h.at
  split
  · extract_lets d1 d2
    have h1 : d1.Canon := hdd.setAirKey
    have h2 : d2.Canon := h1.wr.when fun h => h.keep.wr
    exact h2.keep.notice.either hdd
  · exact hdd

theorem Dev.Canon.markSent (h : d.Canon) {x : Delivery} : (d.markSent x).Canon := h.keep

theorem execKeyDeliverySend_canon (h : s.dev.Canon) {t n kclass : Nat} : LeavesCanon (execKeyDeliverySend t n kclass s) := by
  refine run_canon h fun h => ?_
  extract_lets dd
  have hdd : dd.Canon := h.at
  split
  · extract_lets
    exact hdd.markSent.toMachine.either hdd
  · exact hdd

theorem execLinkConfigSend_canon (h : s.dev.Canon) {t n : Nat} : LeavesCanon (execLinkConfigSend t n s) := by
  refine run_canon h fun h => ?_
  extract_lets dd _ _ _ _ d1
  have hdd : dd.Canon := h.at
  have h1 : d1.Canon := hdd.keep
  refine .either hdd ?_
  split
  · extract_lets
    exact h1.toMachine.either (hdd.markSent.toMachine.either hdd)
  · exact hdd.keep.toMachine

theorem Dev.Canon.airBoundary (h : d.Canon) {k : Nat} : (d.airBoundary k).Canon := by
  unfold Dev.airBoundary
  extract_lets d1 d2 d3
  have h1 : d1.Canon := h.keep
  have h2 : d2.Canon := by
    refine h1.foldl fun _ h => ?_
    split
    · exact h.setAirKey.when (·.wr)
    · exact h
  have h3 : d3.Canon := h2.foldl fun _ h => (h.either h.wr).wr.wr
  exact h3.keep.settleQueues

theorem Dev.Canon.airCold (h : d.Canon) : d.airCold.Canon := h.keep.foldl fun _ h => h.wr.either h

theorem Dev.Canon.airCommit (h : d.Canon) : d.airCommit.Canon := h.keep

/-! ### Job -/

theorem Dev.Canon.job (h : d.Canon) {f : JobCom → JobCom} : (d.job f).Canon := h.keep

theorem Dev.Canon.jobState (h : d.Canon) {s k : Nat} : (d.jobState s k).Canon := h.either h.wr.notice

theorem Dev.Canon.jobLoading (h : d.Canon) {k : Nat} : (d.jobLoading k).Canon := h.either h.job.jobState

theorem Dev.Canon.jobBack (h : d.Canon) {k : Nat} : (d.jobBack k).Canon := h.job.jobState.either h

theorem Dev.Canon.jobTake (h : d.Canon) {a : Nat} {img : Bytes} : (d.jobTake a img).Canon := h.job

theorem execTrackGenerationDone_canon (h : s.dev.Canon) {t : Nat} {pieces : List Piece} {digest : Nat} :
    LeavesCanon (execTrackGenerationDone t pieces digest s) := by
  refine run_canon h fun h => ?_
  extract_lets dd
  have hdd : dd.Canon := h.at
  split
  · extract_lets
    exact hdd.either hdd.job
  · exact hdd

theorem Dev.Canon.putTask (h : d.Canon) {t : Task} : (d.putTask t).Canon := by
  unfold Dev.putTask
  exact h.job

theorem Dev.Canon.newTask (h : d.Canon) {type machine bay : Nat} {path : List Pt} : (d.newTask type machine bay path).2.Canon := h.job.putTask.snd

theorem Dev.Canon.workDone (h : d.Canon) {t : Task} {k : Nat} : (d.workDone t k).Canon := h.job.putTask.wr.notice

theorem Dev.Canon.abandon (h : d.Canon) {t : Task} : (d.abandon t).Canon := h.putTask.when (·.job)

theorem Dev.Canon.cov (h : d.Canon) {f : CovCom → CovCom} : (d.cov f).Canon := h.keep

theorem Dev.Canon.covClear (h : d.Canon) : d.covClear.Canon := h.keep.cov.wr.wr.wrS.wrS.wr.wr.foldl fun _ h => h.wr.wr

theorem Dev.Canon.covRebuild (h : d.Canon) : d.covRebuild.Canon := by
  unfold Dev.covRebuild
  extract_lets
  split
  · exact h.covClear
  · extract_lets
    exact h.covClear.cov.keep.wr.wr.wrS.wrS.wr.wr

theorem Dev.Canon.showJob (h : d.Canon) {img : Bytes} {j : Job} {ps : List Piece} {digest : Nat} : (d.showJob img j ps digest).Canon :=
  ((h.wr.wr.wr.wr.wr.wr.foldl fun _ h => h.wrS).foldl fun _ h => h.wrS).keep

theorem Dev.Canon.jobGone (h : d.Canon) : d.jobGone.Canon := by
  unfold Dev.jobGone
  exact ((h.wr.wr.wr.wr.wr.wr.foldl fun _ h => h.wr).foldl fun _ h => h.wr).keep.covClear

theorem Dev.Canon.jobDue (h : d.Canon) {k : Nat} : (d.jobDue k).1.Canon := by
  unfold Dev.jobDue
  extract_lets d1
  have h1 : d1.Canon := h.job
  split
  · split
    · split
      · exact h1.fst
      · split
        · extract_lets d2
          have h2 : d2.Canon := h1.wr.notice
          exact h2.jobState.fst
        · exact h1.showJob.covRebuild.jobState.fst
    · exact h.fst
  · exact h.fst

/-! ### Slate -/

theorem Dev.Canon.slt (h : d.Canon) {f : SltCom → SltCom} : (d.slt f).Canon := h.keep

theorem Dev.Canon.updM (h : d.Canon) {n : Nat} {f : MachSt → MachSt} : (d.updM n f).Canon := h.slt

theorem Dev.Canon.seeM (h : d.Canon) {n : Nat} {f : MachSt → MachSt} : (d.seeM n f).Canon := h.either (h.updM.either h.slt)

theorem Dev.Canon.timeCheck (h : d.Canon) {p : Res} : (d.timeCheck p).Canon := by
  unfold Dev.timeCheck
  exact h.maxTo

theorem Dev.Canon.showUsed (h : d.Canon) : d.showUsed.Canon := h.wr

theorem Dev.Canon.updRes (h : d.Canon) {slot : Nat} {f : Res → Res} : (d.updRes slot f).Canon := h.slt

theorem Dev.Canon.placeRes (h : d.Canon) {k : Nat} {p : Res} : (d.placeRes k p).2.Canon := by
  unfold Dev.placeRes
  split
  · exact h.slt.showUsed.snd
  · exact h.inc.notice.snd

theorem Dev.Canon.releaseRes (h : d.Canon) {r : Res} {flag : Option Nat} : (d.releaseRes r flag).Canon := h.updRes

theorem Dev.Canon.sendAllotment (h : d.Canon) {r : Res} : (d.sendAllotment r).Canon := h.toMachine

theorem execAllotmentRepeat_canon (h : s.dev.Canon) {t slot : Nat} : LeavesCanon (execAllotmentRepeat t slot s) := by
  refine run_canon h fun h => ?_
  extract_lets dd
  have hdd : dd.Canon := h.at
  split
  · exact hdd.sendAllotment.either hdd
  · exact hdd

theorem execSlateFault_canon (h : s.dev.Canon) {t : Nat} : LeavesCanon (execSlateFault t s) :=
  run_canon h fun h => h.at.faultLog.giveUp

theorem Dev.Canon.takeStatus (h : d.Canon) {x : Input} : (d.takeStatus x).Canon := h.seeM.either h

theorem Dev.Canon.takePosition (h : d.Canon) {e : Nat × Bytes} : (d.takePosition e).Canon := h.seeM

theorem Dev.Canon.lose (h : d.Canon) {n k : Nat} {own : Bool} : (d.lose n k own).Canon := by
  unfold Dev.lose
  extract_lets
  split
  · exact h
  · extract_lets _ d1 d2 d3
    have h1 : d1.Canon := h.foldl fun _ h => h.updRes
    have h2 : d2.Canon := h1.foldl fun _ h => (h.putTask.either h.putTask).either h.abandon
    have h3 : d3.Canon := h2.updM
    exact h3.inc.notice.either h3

theorem Dev.Canon.standing (h : d.Canon) {n k : Nat} : (d.standing n k).Canon := by
  unfold Dev.standing
  split
  · split
    · exact h
    · extract_lets
      split
      · next hv => exact h.placeRes.of_snd hv
      · next d1 hv =>
        have h1 : d1.Canon := h.placeRes.of_snd hv
        extract_lets g d2 d3
        have h2 : d2.Canon := h1.timeCheck.inc
        split
        · exact h2.sendAllotment
        · exact h2.updRes.notice.sendAllotment
  · exact h

theorem Dev.Canon.thawM (h : d.Canon) {n k kind : Nat} : (d.thawM n k kind).Canon :=
  ((h.foldl fun _ h => h.releaseRes).foldl fun _ h => h.putTask).updM.standing.notice

theorem Dev.Canon.lostTest (h : d.Canon) {n k : Nat} : (d.lostTest n k).Canon := by
  unfold Dev.lostTest
  extract_lets
  split
  · exact h
  · extract_lets
    exact h.either (h.lose.either (h.lose.either h))

theorem Dev.Canon.thawTest (h : d.Canon) {n k : Nat} : (d.thawTest n k).Canon := by
  unfold Dev.thawTest
  split
  · exact h
  · extract_lets
    exact h.either (h.thawM.either (h.thawM.either h.updM))

theorem Dev.Canon.conform (h : d.Canon) {n : Nat} : (d.conform n).Canon := by
  unfold Dev.conform
  split
  · exact h
  · split
    · exact h
    · extract_lets _ _ _ _ _ d1
      have h1 : d1.Canon := h.updM
      exact h1.either (h1.inc.when (·.notice))

theorem Dev.Canon.leave (h : d.Canon) {n : Nat} : (d.leave n).Canon := by
  unfold Dev.leave
  extract_lets
  split
  · exact h
  · split
    · exact h
    · extract_lets
      exact h.either (h.foldl fun _ h => h.releaseRes.either h)

theorem Dev.Canon.dropTask (h : d.Canon) {t : Task} : (d.dropTask t).Canon := h.putTask.either h.abandon

theorem Dev.Canon.acks (h : d.Canon) {n k : Nat} : (d.acks n k).Canon := by
  unfold Dev.acks
  split
  · exact h
  · refine h.foldl fun _ h => .either ?_ (.either ?_ h)
    · extract_lets d1
      have h1 : d1.Canon := h.updRes
      split
      · exact h1.putTask.either h1
      · exact h1
    · extract_lets d1
      have h1 : d1.Canon := h.releaseRes
      split
      · exact h1.dropTask.updM.either h1
      · exact h1

theorem Dev.Canon.taskProgress (h : d.Canon) {n k : Nat} : (d.taskProgress n k).Canon := by
  unfold Dev.taskProgress
  split
  · exact h
  · extract_lets
    split
    · exact h
    · exact h.either (h.foldl fun _ h => (h.workDone.either (h.putTask.either h.putTask)).either h.putTask)

theorem Dev.Canon.machineStep (h : d.Canon) {k n : Nat} : (d.machineStep k n).Canon := (h.lostTest.thawTest.conform.when (·.leave)).acks.taskProgress

theorem Dev.Canon.grow (h : d.Canon) {k : Nat} : (d.grow k).Canon := h.slt

theorem Dev.Canon.hostWrite (h : d.Canon) {k i : Nat} {b : Bytes} : (d.hostWrite k i b).Canon := by
  unfold Dev.hostWrite
  extract_lets d1
  have h1 : d1.Canon := by
    unfold d1
    split
    · exact h.updRes.slt
    · exact h
  refine .either h1 ?_
  split
  · next hv => exact (h1.placeRes.of_snd hv).slt
  · next hv => exact h1.placeRes.of_snd hv

theorem Dev.Canon.recheck (h : d.Canon) {k : Nat} : (d.recheck k).Canon := by
  refine h.foldl fun _ h => ?_
  extract_lets cs _ d1
  have h1 : d1.Canon := h.timeCheck.updRes
  clear_value cs
  split
  · exact h1.when (·.notice)
  · exact h1

/-! ### Propose -/

theorem Dev.Canon.trimQueue {n : Nat} {origin : Pt} {q : List (Nat × Bool)} (h : d.Canon) : (d.trimQueue n origin q).Canon := by
  induction q generalizing d with
  | nil => exact h.updM
  | cons e q ih =>
    unfold Dev.trimQueue
    split
    · exact (ih h).either (h.updM.either (ih h.dropTask))
    · exact ih h

theorem Dev.Canon.want (h : d.Canon) {n k : Nat} : (d.want n k).1.Canon := by
  unfold Dev.want
  extract_lets
  split
  · exact h.fst
  · extract_lets _ d1
    have h1 : d1.Canon := h.trimQueue
    split
    · exact h1.fst
    · extract_lets
      exact h1.fst

theorem Dev.Canon.preempt (h : d.Canon) {q : Res} {n k : Nat} : (d.preempt q n k).Canon := by
  unfold Dev.preempt
  extract_lets d1 d2
  have h1 : d1.Canon := h.releaseRes.inc.notice
  have h2 : d2.Canon := h1.updM
  split
  · exact h2.putTask.updM.either h2
  · exact h2

theorem Dev.Canon.serve (h : d.Canon) {n : Nat} {c : Cand} : (d.serve n c).2.Canon := by
  unfold Dev.serve
  split
  · split
    · extract_lets
      exact .eitherSnd h.putTask.updM.snd h.snd
    · exact h.snd
  · split
    rename_i d1 hv
    have h1 : d1.Canon := .of_snd h.newTask hv
    extract_lets d2
    have h2 : d2.Canon := by
      unfold d2
      split
      · exact h1.putTask
      · exact h1
    split
    · split
      · exact h2.putTask.updM.snd
      · exact h2.snd
    · exact h2.snd

theorem Dev.Canon.endPark (h : d.Canon) {n : Nat} : (d.endPark n).Canon := by
  unfold Dev.endPark
  split
  · exact h.putTask.either h
  · exact h

theorem Dev.Canon.tryCand (h : d.Canon) {w : Want} {k : Nat} {c : Cand} : ∀ r ∈ d.tryCand w k c, r.2.Canon := by
  unfold Dev.tryCand
  split
  · exact fun _ h => nomatch h
  · extract_lets p d1
    split
    · exact fun _ h => nomatch h
    · have h1 : d1.Canon := h.timeCheck
      split
      · next d2 hv =>
        have h2 : d2.Canon := .of_snd h1.placeRes hv
        rintro _ ⟨⟩
        exact h2
      · next d2 hv =>
        have h2 : d2.Canon := .of_snd h1.placeRes hv
        extract_lets d3
        have h3 : d3.Canon := h2.endPark
        split
        rename_i d4 hv
        have h4 : d4.Canon := .of_snd h3.serve hv
        extract_lets d5 d6 d7
        have h6 : d6.Canon := h4.updRes.inc.foldl fun _ h => h.preempt
        have h7 : d7.Canon := h6.updM
        split
        · rintro _ ⟨⟩
          exact h7.sendAllotment
        · rintro _ ⟨⟩
          exact h7

theorem Dev.Canon.tryAll {w : Want} {k : Nat} {cs : List Cand} (h : d.Canon) : (d.tryAll w k cs).2.Canon := by
  induction cs generalizing d with
  | nil => exact h
  | cons c cs ih =>
    unfold Dev.tryAll
    split
    · next hr => exact h.tryCand _ hr
    · refine ih ?_
      split
      · exact h.timeCheck
      · exact h

theorem Dev.Canon.parkM (h : d.Canon) {w : Want} : (d.parkM w).Canon := by
  unfold Dev.parkM
  extract_lets
  split
  rename_i d1 hv
  have h1 : d1.Canon := .of_snd (.eitherSnd h.snd h.newTask) hv
  exact h1.updM

theorem Dev.Canon.decide_ (h : d.Canon) {k : Nat} {w : Want} : (d.decide_ k w).Canon := h.parkM.either (h.tryAll.either h.tryAll.inc.updM)

theorem Dev.Canon.propose (h : d.Canon) {k : Nat} : (d.propose k).Canon := (h.foldlFst fun _ h => h.want.fst).foldl fun _ h => h.decide_

theorem Dev.Canon.jobAct (h : d.Canon) {k ctrl : Nat} : (d.jobAct k ctrl).Canon := by
  unfold Dev.jobAct
  extract_lets
  split
  · exact h
  · refine .either (.either ?_ h.jobState) (.either h.jobState.slt (.either h h.slt.jobGone.jobState))
    refine h.jobState.foldl fun _ h => ?_
    split
    · exact h.lose.either h.updM.standing
    · exact h

theorem Dev.Canon.slateActs (h : d.Canon) {k : Nat} : (d.slateActs k).Canon := by
  unfold Dev.slateActs
  exact (h.foldl fun _ h => h.jobAct.either h).slt

theorem Dev.Canon.slateRecords (h : d.Canon) {before : List Res} : (d.slateRecords before).1.Canon := h.slt.fst

theorem Dev.Canon.clearMarks (h : d.Canon) : d.clearMarks.Canon := h.slt

theorem Dev.Canon.slateStage (h : d.Canon) {k : Nat} {xs : List Input} : (d.slateStage k xs).1.Canon := by
  unfold Dev.slateStage
  extract_lets _ d1
  have h1 : d1.Canon := h.slt.showUsed
  split
  rename_i d2 _ hv
  have h2 : d2.Canon := .of_fst h1.jobDue hv
  extract_lets d3 d4 d5 d6 d7 _ d8 d9 _ d10
  have h3 : d3.Canon := h2.slateActs.clearMarks
  have h4 : d4.Canon := h3.foldl fun _ h => h.takeStatus
  have h5 : d5.Canon := h4.foldl fun _ h => h.takePosition
  have h6 : d6.Canon := (h5.foldl fun _ h => h.machineStep).either h5
  have h7 : d7.Canon := h6.grow
  have h8 : d8.Canon := (h7.foldl fun _ h => h.hostWrite).recheck
  have h9 : d9.Canon := h8.propose
  have h10 : d10.Canon := h9.wr.showUsed
  split
  rename_i d11 _ hv
  have h11 : d11.Canon := .of_fst h10.slateRecords hv
  exact h11.fst

theorem Dev.Canon.slateCold (h : d.Canon) : d.slateCold.Canon := h.keep.wr.showUsed

/-! ### Coverage -/

theorem Dev.Canon.putCm (h : d.Canon) {m : CovMach} : (d.putCm m).Canon := h.cov

theorem Dev.Canon.oneSchedule {k : Nat} {a : Dev × List Bytes} {n : Nat} (h : a.1.Canon) : (Dev.oneSchedule k a n).1.Canon := by
  unfold Dev.oneSchedule
  extract_lets dd
  have hdd : dd.Canon := h
  split
  · exact h
  · extract_lets _ d1 _ _ d2 d3
    have h1 : d1.Canon := hdd.putCm.when (·.notice)
    have h2 : d2.Canon := h1.putCm.inc
    have h3 : d3.Canon := (h2.when (·.inc)).when (·.inc)
    exact .eitherFst h (.eitherFst h1.fst h3.toMachine.stream.fst)

theorem Dev.Canon.crossCell {l : Nat} {a : Dev × Nat × List Nat} {c : Int × Int} (h : a.1.Canon) : (Dev.crossCell l a c).1.Canon := by
  unfold Dev.crossCell
  extract_lets dd
  have hdd : dd.Canon := h
  split
  · exact hdd.inc.fst
  · extract_lets
    split
    · exact hdd.cov.wr.fst
    · exact hdd.cov.wr.wr.fst
    · exact hdd.fst
    · exact hdd.inc.fst

theorem Dev.Canon.writeBack (hd : d.Canon) {rep : AsApplied} {secs : List Sec} {lo hi : Nat} : (d.writeBack rep secs lo hi).1.Canon := by
  unfold Dev.writeBack
  extract_lets
  refine hd.foldlFst fun _ h => ?_
  split
  · exact h.addW.fst
  · exact h.foldlFst fun _ h => .eitherFst (h.foldlFst fun _ h => (h.foldlFst fun _ h => h.crossCell).fst) h

theorem Dev.Canon.placeReport {k : Nat} {a : Dev × OffTarget × List Nat} {rep : AsApplied} (h : a.1.Canon) : (Dev.placeReport k a rep).1.Canon := by
  unfold Dev.placeReport
  extract_lets dd
  have hdd : dd.Canon := h
  split
  · exact h
  · extract_lets r _ d1
    have hr : r.1.Canon := hdd.writeBack
    have h1 : d1.Canon := hr.putCm
    exact .eitherFst h (.eitherFst h1.fst (.eitherFst h1.addW.putCm.fst h1.cov.fst))

theorem Dev.Canon.takeApplied {k : Nat} {a : Dev × List AsApplied} {x : Input} (h : a.1.Canon) : (Dev.takeApplied k a x).1.Canon := by
  unfold Dev.takeApplied
  extract_lets dd _ _ _ _ _ _ _ _ _ d1
  have hdd : dd.Canon := h
  have h1 : d1.Canon := hdd.inc
  split
  · exact h
  · split
    · exact hdd.addW.inc.putCm.fst
    · exact (h1.either h1.putCm.notice).fst

theorem Dev.Canon.covHistory (hd : d.Canon) {k n : Nat} : (Dev.covHistory k d n).Canon := by
  unfold Dev.covHistory
  extract_lets
  split
  · exact hd
  · exact hd.putCm

theorem Dev.Canon.noteChanged (h : d.Canon) {l : List Nat} : (d.noteChanged l).Canon := h.keep

theorem Dev.Canon.noteBlocks (h : d.Canon) {k : Nat} {l : List Nat} : (d.noteBlocks k l).Canon := by
  unfold Dev.noteBlocks
  exact h.noteChanged.cov.addW

theorem Dev.Canon.covCount (h : d.Canon) : d.covCount.Canon := h.foldl fun _ h => h.wr.wr

theorem Dev.Canon.covTake (h : d.Canon) {a : Nat} {img : Bytes} : (d.covTake a img).Canon := h.cov

theorem Dev.Canon.covDue (h : d.Canon) {k : Nat} : (d.covDue k).Canon := by
  unfold Dev.covDue
  extract_lets d1
  have h1 : d1.Canon := h.cov
  split
  · extract_lets _ _ d2
    have h2 : d2.Canon := (h1.foldl fun _ h => h.cov).covCount.noteChanged.either h1
    exact h2.notice.either h
  · exact h

theorem Dev.Canon.coverageStage (h : d.Canon) {k : Nat} {xs : List Input} : (d.coverageStage k xs).1.Canon := by
  unfold Dev.coverageStage
  extract_lets d0 d1
  have h0 : d0.Canon := h.covDue
  have h1 : d1.Canon := h0.foldl fun _ h => h.covHistory
  split
  rename_i d2 _ hv
  have h2 : d2.Canon := .of_fst (h1.cov.foldlFst fun _ h => h.takeApplied) hv
  split
  rename_i d3 _ _ hv
  have h3 : d3.Canon := .of_fst (h2.foldlFst fun _ h => h.placeReport) hv
  extract_lets d4 d5
  have h4 : d4.Canon := h3.foldl fun _ h => h.notice
  have h5 : d5.Canon := h4.noteBlocks
  exact h5.foldlFst fun _ h => h.oneSchedule

theorem execCoverageFault_canon (h : s.dev.Canon) {t : Nat} : LeavesCanon (execCoverageFault t s) :=
  run_canon h fun h => h.at.faultLog.giveUp

/-! ### Gnss -/

theorem Dev.Canon.putChan (h : d.Canon) {x : Chan} : (d.putChan x).Canon := h.keep.wr.wr

theorem Dev.Canon.showTile (h : d.Canon) {tile : Nat} : (d.showTile tile).Canon := h.wr.wr

theorem Dev.Canon.freeChan (h : d.Canon) {c : Nat} : (d.freeChan c).Canon := h.keep.wr.wr.wr.showTile

theorem Dev.Canon.freeWhere (h : d.Canon) {p : Chan → Bool} : (d.freeWhere p).Canon := h.foldl fun _ h => h.freeChan

theorem Dev.Canon.enableChan (h : d.Canon) {c ant sig sat : Nat} : (d.enableChan c ant sig sat).Canon := h.inc.either h.putChan.showTile

theorem Dev.Canon.place (h : d.Canon) {ant sig sat : Nat} : (d.place ant sig sat).Canon := by
  unfold Dev.place
  refine .either h ?_
  split
  · exact h.enableChan
  · exact h

theorem Dev.Canon.placeAll (h : d.Canon) {l : List (Nat × Nat × Nat)} : (d.placeAll l).Canon := h.foldl fun _ h => h.place

theorem Dev.Canon.antState (h : d.Canon) {i s ma : Nat} : (d.antState i s ma).Canon := h.either (h.keep.either h).wr.noticeT

theorem Dev.Canon.judgeBias (h : d.Canon) {i ma : Nat} : (d.judgeBias i ma).Canon := h.wr.keep.inc.antState.either h.wr.antState

theorem execAntBiasSample_canon (h : s.dev.Canon) {t i ma peak : Nat} : LeavesCanon (execAntBiasSample t i ma peak s) :=
  run_canon h fun h => h.at.either (h.at.antState.either (h.at.antState.either (h.at.either h.at.judgeBias)))

theorem execAntBiasRetry_canon (h : s.dev.Canon) {t i ma : Nat} : LeavesCanon (execAntBiasRetry t i ma s) :=
  run_canon h fun h => h.at.judgeBias.either h.at

theorem Dev.Canon.chainState (h : d.Canon) {c s cause : Nat} : (d.chainState c s cause).Canon := h.either h.keep.wr.noticeT

theorem Dev.Canon.chainsEnable (h : d.Canon) : d.chainsEnable.Canon :=
  h.foldl fun _ h => (h.chainState.either h).either h.chainState.freeWhere.antState

theorem execChainSettleEnd_canon (h : s.dev.Canon) {t c : Nat} : LeavesCanon (execChainSettleEnd t c s) :=
  run_canon h fun h => h.at.chainState.either h.at

theorem execChainFault_canon (h : s.dev.Canon) {t c cause : Nat} : LeavesCanon (execChainFault t c cause s) :=
  run_canon h fun h => h.at.chainState.freeWhere.either h.at

theorem execChainReenable_canon (h : s.dev.Canon) {t c : Nat} : LeavesCanon (execChainReenable t c s) :=
  run_canon h fun h => h.at.chainState.either h.at

theorem Dev.Canon.noteGain (h : d.Canon) {c g : Nat} : (d.noteGain c g).Canon := by
  unfold Dev.noteGain
  extract_lets
  split
  · exact h.keep
  · exact h.keep.either h
  · exact h

theorem execAgcUpdate_canon (h : s.dev.Canon) {t c big clip : Nat} : LeavesCanon (execAgcUpdate t c big clip s) :=
  run_canon h fun h => ((h.at.wr.when (·.inc)).keep.either (h.at.wr.when (·.inc))).noteGain.either h.at

theorem execDumpBoundary_canon (h : s.dev.Canon) {t c n : Nat} {sums : List Int} {cn0 : Nat} {fll : Bool} {early late : Option (Int × Nat)}
    {sigs : Nat} {eph : Bool} :
    LeavesCanon (execDumpBoundary t c n sums cn0 fll early late sigs eph s) := by
  refine run_canon h fun h => ?_
  extract_lets dd
  have hdd : dd.Canon := h.at
  split
  · exact hdd
  · extract_lets
    split
    extract_lets _ _ _ d1 _ d2
    have h1 : d1.Canon := (hdd.putChan.wr.when (·.inc)).when (·.inc)
    have h2 : d2.Canon := h1.keep.wr.either h1
    exact h2.placeAll.either h2

theorem execPullinTimeout_canon (h : s.dev.Canon) {t c : Nat} : LeavesCanon (execPullinTimeout t c s) := by
  refine run_canon h fun h => ?_
  extract_lets dd
  have hdd : dd.Canon := h.at
  split
  · exact hdd.freeChan.either hdd
  · exact hdd

theorem execCoastExpiry_canon (h : s.dev.Canon) {t c : Nat} : LeavesCanon (execCoastExpiry t c s) := by
  refine run_canon h fun h => ?_
  extract_lets dd
  have hdd : dd.Canon := h.at
  split
  · exact hdd.freeChan.inc.either hdd
  · exact hdd

theorem execTileFault_canon (h : s.dev.Canon) {t tile cause : Nat} : LeavesCanon (execTileFault t tile cause s) :=
  run_canon h fun h => h.at.freeWhere.keep.fault.placeAll.either h.at

theorem Dev.Canon.startTracking (h : d.Canon) {forced : Bool} : (d.startTracking forced).Canon := h.keep.wr.wr.wr.chainsEnable.noticeT

theorem Dev.Canon.stopTracking (h : d.Canon) : d.stopTracking.Canon := h.freeWhere.keep.wr

theorem Dev.Canon.forceCold (h : d.Canon) : d.forceCold.Canon := h.stopTracking.keep.startTracking.either h.stopTracking.keep.wr

theorem execAcqSearchDone_canon (h : s.dev.Canon) {t sig ant sat ratio : Nat} : LeavesCanon (execAcqSearchDone t sig ant sat ratio s) :=
  run_canon h fun h => (h.at.keep.wr.inc.place.either h.at.keep.wr.inc).either h.at

theorem Dev.Canon.snapTrigger (h : d.Canon) {cause : Nat} : (d.snapTrigger cause).Canon := h.keep.wr.either h.inc

theorem Dev.Canon.snapAct (h : d.Canon) {action : Nat} : (d.snapAct action).Canon := by
  unfold Dev.snapAct
  extract_lets _ _ _ d1
  have h1 : d1.Canon := h.wr.foldl fun _ h => h.stream
  split
  · exact h.keep.wr
  · exact h.snapTrigger
  · exact h1.keep
  · exact h.keep.wr
  · exact h.keep.wr
  · exact h

theorem execSnapCaptureEnd_canon (h : s.dev.Canon) {t : Nat} {data : List (Nat × Bytes)} : LeavesCanon (execSnapCaptureEnd t data s) :=
  run_canon h fun h => h.at.keep.wr.notice.either h.at

theorem execSnapExportEnd_canon (h : s.dev.Canon) {t : Nat} : LeavesCanon (execSnapExportEnd t s) :=
  run_canon h fun h => h.at.wr.notice.either h.at

/-! ### Station -/

theorem execJamIndexUpdate_canon (h : s.dev.Canon) {t c pk : Nat} : LeavesCanon (execJamIndexUpdate t c pk s) :=
  run_canon h fun h => (h.at.wr.wr.keep.snapTrigger.either h.at.wr.wr.keep).either h.at

theorem execNotchUpdate_canon (h : s.dev.Canon) {t c : Nat} {db : List Nat} : LeavesCanon (execNotchUpdate t c db s) :=
  run_canon h fun h => (h.at.keep.either h.at.keep.keep.wr.noticeT).either h.at

theorem Dev.Canon.notchesOff (h : d.Canon) : d.notchesOff.Canon := h.foldl fun _ h => h.keep.keep.wr.noticeT.either h.keep.wr

theorem Dev.Canon.testBegin (h : d.Canon) : d.testBegin.Canon := h.keep.snapTrigger

theorem execSelftestTone_canon (h : s.dev.Canon) {t c : Nat} {ok : Bool} {j : Nat} : LeavesCanon (execSelftestTone t c ok j s) := by
  refine run_canon h fun h => ?_
  extract_lets dd _ _ d1
  have hdd : dd.Canon := h.at
  have h1 : d1.Canon := hdd.keep
  split
  · refine .either ?_ hdd
    split
    · exact h1.keep
    · exact h1.keep.wr.notice
  · exact hdd

theorem execEpochLatch_canon (h : s.dev.Canon) {t : Nat} {l : List EpochChan} : LeavesCanon (execEpochLatch t l s) :=
  run_canon h fun h => (h.at.foldl fun _ h => h.offer.either h).keep.either h.at

theorem Dev.Canon.staState (h : d.Canon) {s : Nat} : (d.staState s).Canon := by
  unfold Dev.staState
  extract_lets _ d1 _ _ d2
  have h1 : d1.Canon := h.wr.wr.noticeT
  have h2 : d2.Canon := h1.keep
  exact h.either (h2.notchesOff.either (h2.testBegin.either h2))

theorem Dev.Canon.sta (h : d.Canon) {f : StaCom → StaCom} : (d.sta f).Canon := h.keep

theorem Dev.Canon.refMove (h : d.Canon) : d.refMove.Canon := by
  unfold Dev.refMove
  split
  · exact h
  · extract_lets d1
    have h1 : d1.Canon := h.sta
    exact h.sta.either h1.noticeT

theorem Dev.Canon.refWatch (h : d.Canon) : d.refWatch.1.Canon := .eitherFst (.eitherFst h.sta.wr.fst h.fst) h.fst

theorem Dev.Canon.rtcmFrames (h : d.Canon) {stamp : Nat} {corr : List Obs} : (d.rtcmFrames stamp corr).2.Canon := (h.sta.either h).snd

theorem Dev.Canon.sendRtcm (h : d.Canon) {stamp : Nat} {corr : List Obs} : (d.sendRtcm stamp corr).Canon :=
  (h.rtcmFrames.foldl fun _ h => h.stream).toAll.either (h.rtcmFrames.foldl fun _ h => h.stream)

theorem Dev.Canon.streamObs (h : d.Canon) {k stamp ant : Nat} {l : List Obs} : (d.streamObs k stamp ant l).Canon := h.foldl fun _ h => h.stream

theorem Dev.Canon.showIsto (h : d.Canon) {k stamp ant : Nat} {key : Bytes} {l : List Obs} : (d.showIsto k stamp ant key l).Canon :=
  (h.foldl fun _ h => h.wrS).stream

theorem Dev.Canon.applyTrips (h : d.Canon) {stamp : Nat} {whole : Bool} {trips : List (Nat × Nat × Nat × Nat)} :
    (d.applyTrips stamp whole trips).Canon := by
  unfold Dev.applyTrips
  extract_lets _ d1
  have h1 : d1.Canon := h.sta
  split
  · exact h1
  · split
    · exact h1.staState.inc.inc.noticeT
    · exact h1.sta
    · exact h1

theorem Dev.Canon.surveyStep (h : d.Canon) {stamp : Nat} {key : Bytes} : (d.surveyStep stamp key).Canon :=
  (h.foldl fun _ h => h.wrS).wr.wr.notice.sta.staState.either h.sta

theorem Dev.Canon.clearStep (h : d.Canon) {jams : List Nat} {trip : Bool} {obs : List Obs} : (d.clearStep jams trip obs).Canon :=
  (h.staState.either h.sta).either h

theorem Dev.Canon.refEpoch (h : d.Canon) {k : Nat} {x : Input} {other : Option Input} {refBad : Bool} : (d.refEpoch k x other refBad).Canon := by
  unfold Dev.refEpoch
  extract_lets
  split
  extract_lets
  split
  extract_lets _ _ _ _ _ _ d1 _ d2 d3 d4 _ _ d5 _ d6 d7
  have h1 : d1.Canon := h.sta
  have h2 : d2.Canon := h1.showIsto.sta
  have h3 : d3.Canon := h2.applyTrips.either h2
  have h4 : d4.Canon := by
    unfold d4
    split
    · exact h3.staState.either h3
    · exact (h3.staState.sta.either h3.staState).either h3
    · exact h3.surveyStep
    · exact h3.clearStep
  have h5 : d5.Canon := h4.sta
  have h6 : d6.Canon := h5.streamObs
  have h7 : d7.Canon := by
    unfold d7
    clear_value d6
    split
    · exact h6.streamObs
    · exact h6
  exact h7.sendRtcm

theorem Dev.Canon.lateCheck (h : d.Canon) {k : Nat} {x : Input} : (d.lateCheck k x).Canon := by
  unfold Dev.lateCheck
  split
  extract_lets _ d0
  have h0 : d0.Canon := h.sta.streamObs
  split
  · exact h0.inc
  · extract_lets
    exact h0.either h0.applyTrips

theorem Dev.Canon.stationEpoch (h : d.Canon) {k : Nat} {xs : List Input} : (d.stationEpoch k xs).Canon := by
  unfold Dev.stationEpoch
  extract_lets _ _ live d1
  have h1 : d1.Canon := (h.staState.either h).incBy
  clear_value live d1
  refine h1.foldl fun _ h => ?_
  extract_lets _ mine
  split
  rename_i d2 refBad hv
  have h2 : d2.Canon := .of_fst h.refMove.refWatch hv
  extract_lets ref other
  clear_value ref other
  split
  · exact h2.refEpoch
  · exact h2.lateCheck.applyTrips.either h2.lateCheck
  · exact h2

/-! ### Rtk -/

theorem Dev.Canon.showLoad (h : d.Canon) : d.showLoad.Canon := h.wr.wr

theorem Dev.Canon.rtk (h : d.Canon) {f : RtkCom → RtkCom} : (d.rtk f).Canon := h.keep

theorem Dev.Canon.putFilter (h : d.Canon) {x : Filter} : (d.putFilter x).Canon := h.rtk

theorem Dev.Canon.resetFilter (h : d.Canon) {n cause k : Nat} : (d.resetFilter n cause k).Canon := h.rtk.inc.wr.notice

theorem Dev.Canon.rtkConfig (h : d.Canon) {k : Nat} : (d.rtkConfig k).Canon := by
  unfold Dev.rtkConfig
  extract_lets _ d0 d1
  have h0 : d0.Canon := (h.foldl fun _ h => h.resetFilter.putFilter).rtk
  have h1 : d1.Canon := by
    refine h0.foldl fun _ h => ?_
    split
    · exact h.either (h.resetFilter.either h.resetFilter.putFilter)
    · exact h.either h.resetFilter.putFilter
  exact h1.showLoad

theorem execChiselUnitFault_canon (h : s.dev.Canon) {t u : Nat} : LeavesCanon (execChiselUnitFault t u s) :=
  run_canon h fun h => h.at.keep.faultLog.either h.at

theorem Dev.Canon.processObs (h : d.Canon) {x : Filter} {p : Bytes} {e : Nat} {ref : List Obs} : (d.processObs x p e ref).1.Canon := by
  unfold Dev.processObs
  extract_lets _ _ _ _ _ _ asked r _ d1 tried d2
  have h1 : d1.Canon := by
    unfold d1
    clear_value r
    refine .either ?_ h
    split
    · exact h.inc.inc
    · exact h.inc.inc
    · exact h.inc
  have h2 : d2.Canon := h1.wr.either h1
  exact h2.fst

theorem Dev.Canon.oneReport (h : d.Canon) {j n : Nat} {acc : RtkRun} {x : Input} : (d.oneReport j n acc x).1.Canon := by
  unfold Dev.oneReport
  extract_lets
  split
  · exact h.fst
  · extract_lets d1 _ d2
    have h1 : d1.Canon := h.resetFilter.putFilter.either h
    have h2 : d2.Canon := h1.inc.when (·.inc)
    split
    · exact h.inc.fst
    · split
      · exact h.inc.fst
      · split
        · exact .eitherFst h.inc.fst h.putFilter.fst
        · split
          rename_i d3 _ _ hv
          have h3 : d3.Canon := .of_fst (.eitherFst h2.fst h2.processObs) hv
          extract_lets d4 d5 d6 d7
          have h4 : d4.Canon := h3.inc.notice.either h3
          have h5 : d5.Canon := h4.notice.either h4
          have h6 : d6.Canon := h5.wr.wr.wr
          have h7 : d7.Canon := h6.wr.either h6
          exact h7.putFilter.fst

theorem Dev.Canon.commitSolution (h : d.Canon) {j n : Nat} {r : RtkRun} : (d.commitSolution j n r).Canon := by
  unfold Dev.commitSolution
  extract_lets
  split
  · extract_lets
    exact h.putFilter.rtk.stream.toMachine
  · exact h

theorem Dev.Canon.takeReport (h : d.Canon) {x : Input} : (d.takeReport x).Canon := by
  unfold Dev.takeReport
  extract_lets
  split
  · exact h.rtkBad.either h
  · extract_lets rule
    clear_value rule
    split
    · exact h.putFilter
    · exact h.rtkBad
    · exact h.rtkBad

theorem Dev.Canon.rtkStage (h : d.Canon) {k : Nat} {xs : List Input} : (d.rtkStage k xs).Canon := by
  unfold Dev.rtkStage
  extract_lets d1 d2
  have h2 : d2.Canon := h.rtkConfig.rtk.foldl fun _ h => h.takeReport
  refine h2.foldl fun _ h => ?_
  split
  · exact h
  · refine .either h ?_
    extract_lets
    split
    rename_i d1 _ hv
    have h1 : d1.Canon := .of_fst (h.putFilter.foldlFst fun _ h => h.oneReport) hv
    exact h1.commitSolution

/-! ### Metering -/

theorem Dev.Canon.mtrCom (h : d.Canon) {f : MtrCom → MtrCom} : (d.mtrCom f).Canon := h.keep

theorem Dev.Canon.preOrigin (h : d.Canon) {p : Bytes} : (d.preOrigin p).Canon := by
  unfold Dev.preOrigin
  extract_lets _ x _ d1
  have h1 : d1.Canon := h.keep
  refine h1.foldl fun _ h => h.foldl fun _ h => ?_
  split
  extract_lets
  split
  · exact h.keep.wr
  · exact h

theorem execMtrBlock_canon (h : s.dev.Canon) {t c stamp last snum : Nat} {codes : List Int} :
    LeavesCanon (execMtrBlock t c stamp last snum codes s) := by
  refine run_canon h fun h => ?_
  extract_lets dd _ _ d1 d1' d2
  have hdd : dd.Canon := h.at
  have h1 : d1.Canon := hdd.when (·.stream)
  have h1' : d1'.Canon := h1.foldl fun _ h => h.trace
  have h2 : d2.Canon := h1'.preOrigin.either h1'
  exact hdd.either (h2.keep.inc.noticeT.either h2.offer)

theorem execMeteringFault_canon (h : s.dev.Canon) {t c cause : Nat} : LeavesCanon (execMeteringFault t c cause s) :=
  run_canon h fun h => h.at.either h.at.keep.fault

theorem Dev.Canon.takeBlock (h : d.Canon) {k : Nat} {x : Input} : (Dev.takeBlock k d x).Canon := by
  unfold Dev.takeBlock
  exact h.mtrCom

theorem Dev.Canon.showBay (h : d.Canon) {b k : Nat} : (d.showBay b k).Canon := h.wr.wr.wr

theorem Dev.Canon.meterBay (h : d.Canon) {k b : Nat} {snap : Bool} : (d.meterBay k b snap).1.Canon :=
  .eitherFst h.fst (h.mtrCom.when (·.notice)).wr.showBay.fst

theorem Dev.Canon.ageBlocks (h : d.Canon) {k : Nat} : (d.ageBlocks k).Canon := by
  unfold Dev.ageBlocks
  exact h.mtrCom

theorem Dev.Canon.mtrFlush (h : d.Canon) {last : Nat} : (d.mtrFlush last).Canon := h.either h.keep

theorem Dev.Canon.mtrRestore (h : d.Canon) {k : Nat} : (d.mtrRestore k).Canon := by
  unfold Dev.mtrRestore
  extract_lets d1 _ flushNewer
  have h1 : d1.Canon := h.mtrCom
  clear_value flushNewer
  split
  · extract_lets _ d2 d3
    have h2 : d2.Canon := h1.mtrCom
    have h3 : d3.Canon := h2.foldl fun _ h => h.wr.showBay
    exact h3.log.noticeOut
  · extract_lets d2 d3
    have h2 : d2.Canon := h1.mtrCom
    have h3 : d3.Canon := h2.foldl fun _ h => h.wr.showBay
    exact h3.log.noticeOut
  · exact h1

theorem Dev.Canon.mtrSave (h : d.Canon) {k : Nat} : (d.mtrSave k).Canon := h.mtrCom.keep.inc.either h

theorem Dev.Canon.mtrSnap (h : d.Canon) {k : Nat} : (d.mtrSnap k).Canon := (h.foldl fun _ h => h.wr).inc

theorem Dev.Canon.meteringStage (h : d.Canon) {k : Nat} {xs : List Input} : (d.meteringStage k xs).1.Canon := by
  unfold Dev.meteringStage
  extract_lets d0 _ d1
  have h0 : d0.Canon := h.mtrRestore.either h
  have h1 : d1.Canon := h0.foldl fun _ h => h.takeBlock
  split
  rename_i d11 _ hv
  have h11 : d11.Canon := .of_fst (h1.foldlFst fun _ h => h.meterBay.fst) hv
  extract_lets d3
  have h3 : d3.Canon := h11.ageBlocks.when (·.mtrSnap)
  exact h3.keep.mtrSave.fst

theorem Dev.Canon.mtrCold (h : d.Canon) : d.mtrCold.Canon := h.keep.foldl fun _ h => h.wr

/-! ### Session -/

theorem Dev.Canon.sessionNote (h : d.Canon) {sid tr level event : Nat} : (d.sessionNote sid tr level event).Canon := h.noticeT

theorem Dev.Canon.setSlot (h : d.Canon) {i : Nat} {x : Option Session} : (d.setSlot i x).Canon := h.keep

theorem Dev.Canon.endSession (h : d.Canon) {i event : Nat} : (d.endSession i event).Canon := by
  unfold Dev.endSession
  extract_lets _ _ d1
  have h1 : d1.Canon := h.setSlot.keep
  split
  · exact h1.either h1.sessionNote
  · exact h

theorem Dev.Canon.closeSession (h : d.Canon) {i : Nat} : (d.closeSession i).Canon := by
  unfold Dev.closeSession
  extract_lets
  split
  · exact h.keep.setSlot.sessionNote
  · exact h

theorem Dev.Canon.expireChallenges (h : d.Canon) {stamp : Nat} : (d.expireChallenges stamp).Canon := h.keep

theorem Dev.Canon.judgeTrailer (hd : d.Canon) {h : HostCtx} {stamp : Nat} {payload : Bytes} : (d.judgeTrailer h stamp payload).2.Canon := by
  unfold Dev.judgeTrailer
  extract_lets
  split
  · exact hd.snd
  · split
    · exact hd.snd
    · exact .eitherSnd hd.setSlot.snd hd.inc.snd

theorem Dev.Canon.authBegin (h : d.Canon) {ep : Ep} {stamp : Nat} {p : Bytes} : (d.authBegin ep stamp p).2.Canon := by
  unfold Dev.authBegin
  extract_lets dd _ d1
  have hdd : dd.Canon := h.expireChallenges
  have h1 : d1.Canon := by
    unfold d1
    split
    · exact hdd.endSession
    · exact hdd
  split
  · exact hdd.snd
  · split
    · exact hdd.snd
    · split
      · exact hdd.snd
      · split
        · exact hdd.snd
        · exact h1.inc.setSlot.snd

theorem Dev.Canon.wrongProof (h : d.Canon) {ep : Ep} {stamp sid level : Nat} : (d.wrongProof ep stamp sid level).Canon :=
  h.keep.inc.sessionNote.either h.keep.inc

theorem Dev.Canon.authProve (h : d.Canon) {ep : Ep} {stamp : Nat} {p : Bytes} : (d.authProve ep stamp p).2.Canon := by
  unfold Dev.authProve
  extract_lets
  split
  · exact h.snd
  · split
    · extract_lets d1
      have h1 : d1.Canon := h.setSlot
      exact .eitherSnd h.snd (.eitherSnd h1.snd (.eitherSnd h1.wrongProof.snd h1.setSlot.sessionNote.snd))
    · exact h.snd

theorem Dev.Canon.idleSessions (h : d.Canon) {k : Nat} : (d.idleSessions k).Canon := by
  refine h.foldl fun _ h => ?_
  split
  · exact h.endSession.either h
  · exact h

theorem execAuthChallengeExpire_canon (h : s.dev.Canon) {t sid : Nat} : LeavesCanon (execAuthChallengeExpire t sid s) := by
  refine run_canon h fun h => ?_
  extract_lets dd
  have hdd : dd.Canon := h.at
  split
  · exact hdd.setSlot.either hdd
  · exact hdd

theorem execAuthLockoutEnd_canon (h : s.dev.Canon) {t : Nat} {ep : Ep} : LeavesCanon (execAuthLockoutEnd t ep s) :=
  run_canon h fun h => h.at.keep

/-! ### Derrick -/

theorem Dev.Canon.drkSt (h : d.Canon) {f : DrkSt → DrkSt} : (d.drkSt f).Canon := h.keep

theorem Dev.Canon.drkSync (h : d.Canon) : d.drkSync.Canon := by
  refine h.foldl fun _ h => ?_
  split
  · exact h.either h.wrS.emit
  · exact h

theorem Dev.Canon.axisState (h : d.Canon) {ax new : Nat} : (d.axisState ax new).Canon := h.either h.wr.noticeT

theorem Dev.Canon.addLine (h : d.Canon) {x : Line} : (d.addLine x).Canon := h.drkSt

theorem Dev.Canon.startMove (h : d.Canon) {mask : Nat} {target : List Int} : (d.startMove mask target).Canon :=
  (h.inc.foldl fun _ h => h.axisState.wr).either (h.inc.foldl fun _ h => h.axisState.wr).addLine

theorem Dev.Canon.haltLines (h : d.Canon) {mask : Nat} {rate : Line → Nat} : (d.haltLines mask rate).Canon := h.drkSt

theorem Dev.Canon.showStopping (h : d.Canon) {mask : Nat} : (d.showStopping mask).Canon := h.foldl fun _ h => h.when (·.axisState)

theorem Dev.Canon.move (h : d.Canon) {mask : Nat} {target : List Int} : (d.move mask target).Canon := by
  unfold Dev.move
  extract_lets busy
  clear_value busy
  split
  · exact h.startMove
  · extract_lets
    exact h.inc.drkSt.addLine.either h.haltLines.drkSt
  · exact h.haltLines.drkSt

theorem Dev.Canon.homeAxis (h : d.Canon) {ax : Nat} : (d.homeAxis ax).Canon := h.drkSt.axisState.addLine

theorem execHomeInputAccept_canon (h : s.dev.Canon) {t ax : Nat} : LeavesCanon (execHomeInputAccept t ax s) := by
  refine run_canon h fun h => ?_
  extract_lets dd
  have hdd : dd.Canon := h.at.drkSync
  split
  · exact hdd.drkSt.either hdd
  · exact hdd

theorem execHomeReleaseLatch_canon (h : s.dev.Canon) {t ax : Nat} : LeavesCanon (execHomeReleaseLatch t ax s) := by
  refine run_canon h fun h => ?_
  extract_lets dd
  have hdd : dd.Canon := h.at.drkSync
  split
  · extract_lets
    exact hdd.drkSt.drkSync.either hdd
  · exact hdd

theorem Dev.Canon.gantryNext (h : d.Canon) : d.gantryNext.Canon := by
  unfold Dev.gantryNext
  split
  · extract_lets _ d1
    have h1 : d1.Canon := h.drkSt.startMove
    exact h.either (h.either ((h.foldl fun _ h => h.homeAxis).either (h1.when (·.wr))))
  · exact h

theorem execGantryCommand_canon (h : s.dev.Canon) {t : Nat} : LeavesCanon (execGantryCommand t s) :=
  run_canon h fun h => h.at.drkSync.either h.at.drkSync.drkSt.wr.gantryNext

theorem Dev.Canon.gantryEnd (h : d.Canon) {parked : Bool} : (d.gantryEnd parked).Canon := (h.when (·.wr)).gantryNext

theorem Dev.Canon.startWaiting (h : d.Canon) : d.startWaiting.Canon := h.drkSt.foldl fun _ h => h.startMove

theorem execAxisMoveDone_canon (h : s.dev.Canon) {t ax : Nat} : LeavesCanon (execAxisMoveDone t ax s) := by
  refine run_canon h fun h => ?_
  extract_lets dd
  have hdd : dd.Canon := h.at.drkSync
  split
  · extract_lets d1
    have h1 : d1.Canon := hdd.drkSt.foldl fun _ h => h.wrS.emit.axisState
    exact hdd.either h1.startWaiting.gantryEnd
  · exact hdd

theorem Dev.Canon.restAxis (h : d.Canon) {x : Line} {a : Nat} : (d.restAxis x a).Canon := by
  unfold Dev.restAxis
  extract_lets _ d1
  have h1 : d1.Canon := h.wrS.emit
  split
  · exact h1.drkSt.axisState
  · exact h1.drkSt.axisState.noticeT.either (h1.either h1.wrS.axisState)

theorem execAxisStopDone_canon (h : s.dev.Canon) {t ax : Nat} : LeavesCanon (execAxisStopDone t ax s) := by
  refine run_canon h fun h => ?_
  extract_lets dd
  have hdd : dd.Canon := h.at.drkSync
  split
  · extract_lets d1
    have h1 : d1.Canon := hdd.drkSt
    exact hdd.either (h1.wrS.addLine.either (h1.foldl fun _ h => h.restAxis).startWaiting.gantryEnd)
  · exact hdd

theorem Dev.Canon.axisFault (h : d.Canon) {ax cause input : Nat} {unhome : Bool} : (d.axisFault ax cause input unhome).Canon := by
  unfold Dev.axisFault
  extract_lets d1 _ d2
  have h1 : d1.Canon := h.wr.inc.noticeT
  have h2 : d2.Canon := h1.haltLines.showStopping
  split
  · exact h2.drkSt
  · exact h1.drkSt.axisState

theorem execLimitTrip_canon (h : s.dev.Canon) {t ax : Nat} {positive active : Bool} : LeavesCanon (execLimitTrip t ax positive active s) := by
  refine run_canon h fun h => ?_
  extract_lets dd _ d1
  have hdd : dd.Canon := h.at.drkSync
  have h1 : d1.Canon := hdd.drkSt
  refine .either hdd (.either h1 ?_)
  split
  · exact h1.either h1.axisFault
  · exact h1

theorem execChatter_canon (h : s.dev.Canon) {t ax input edges : Nat} : LeavesCanon (execChatter t ax input edges s) :=
  run_canon h fun h => h.at.drkSync.either (h.at.drkSync.drkSt.either h.at.drkSync.drkSt.axisFault)

theorem execFollowingErrorCheck_canon (h : s.dev.Canon) {t ax : Nat} {count : Int} : LeavesCanon (execFollowingErrorCheck t ax count s) :=
  run_canon h fun h => h.at.drkSync.either (h.at.drkSync.wrS.maxTo.drkSt.axisFault.either h.at.drkSync.wrS.maxTo.drkSt)

theorem execDerrickFault_canon (h : s.dev.Canon) {t : Nat} : LeavesCanon (execDerrickFault t s) :=
  run_canon h fun h => h.at.drkSync.drkSt.faultLog.foldl fun _ h => h.axisState

theorem Dev.Canon.drkStopAll (h : d.Canon) : d.drkStopAll.Canon := by
  unfold Dev.drkStopAll
  exact h.drkSync.haltLines.showStopping.drkSt

theorem Dev.Canon.drkCold (h : d.Canon) : d.drkCold.Canon := h.keep.wr.foldl fun _ h => h.wr.wrS.wr.wr

theorem Dev.Canon.drkCtrl (h : d.Canon) {v : Nat} : (d.drkCtrl v).Canon := by
  unfold Dev.drkCtrl
  extract_lets dd
  have hdd : dd.Canon := h.drkSync
  split
  · exact hdd.move
  · exact hdd.either hdd.haltLines.showStopping.drkSt
  · exact hdd.either hdd.startMove
  · exact hdd.foldl fun _ h => h.homeAxis
  · exact (hdd.foldl fun _ h => h.wr.axisState).gantryNext

theorem Dev.Canon.drkWritten (h : d.Canon) : d.drkWritten.Canon := h.foldl fun _ h => h.drkSt.axisState.either (h.axisState.either h)

/-! ### Tasks -/

theorem Dev.Canon.gantryCommand (h : d.Canon) {k task : Nat} {bay : Option Nat} : (d.gantryCommand k task bay).Canon := by
  unfold Dev.gantryCommand
  exact (h.foldl fun _ h => h.notice).drkSt

theorem Dev.Canon.chargeTask (h : d.Canon) {t : Task} : (d.chargeTask t).Canon := h.putTask.updM.either (h.putTask.either h)

theorem Dev.Canon.refillTask (h : d.Canon) {k : Nat} {t : Task} : (d.refillTask k t).Canon := by
  unfold Dev.refillTask
  extract_lets
  split
  extract_lets d1
  have h1 : d1.Canon := h.putTask.gantryCommand.either h
  refine .either ?_ h1
  split
  · exact h1.putTask.gantryCommand
  · exact h1

theorem Dev.Canon.tasksStage (h : d.Canon) {k : Nat} : (d.tasksStage k).1.Canon :=
  ((h.foldl fun _ h => h.chargeTask.either h.refillTask).foldl fun _ h => h.gantryCommand).job.fst

/-! ### Journal -/

/-- The image's entries are put into what stays of the unit's own file. -/
theorem Dev.Canon.takeImage (h : d.Canon) {x : Image} {all : Bool} : (d.takeImage x all).Canon := by
  unfold Dev.takeImage
  extract_lets _ _ d1
  have h1 : d1.Canon := ⟨Regs.wf_imageRegs h.regs, h.snap⟩
  exact h1.keep.wr.wr.either h1

theorem Dev.Canon.journalCycle (h : d.Canon) {k : Nat} {record : Bytes} {xs : List Input} {item : Bytes} {origin : Bool} :
    (d.journalCycle k record xs item origin).Canon :=
  h.keep.when (·.inc)

/-! ### Chutes -/

theorem Dev.Canon.chuteTrace (h : d.Canon) {kind i words : Nat} {desc : Bool} : (d.chuteTrace kind i words desc).Canon := h.trace

theorem Dev.Canon.chute (h : d.Canon) {i : Nat} {f : Chute → Chute} : (d.chute i f).Canon := h.keep

theorem Dev.Canon.rewind (h : d.Canon) {i words : Nat} : (d.rewind i words).Canon := h.inc.chuteTrace

theorem Dev.Canon.parityFail (h : d.Canon) {i : Nat} : (d.parityFail i).Canon := h.chute

theorem Dev.Canon.packetIn (h : d.Canon) {i : Nat} {p : Packet} : (d.packetIn i p).Canon := by
  unfold Dev.packetIn
  extract_lets d1 _ _ d2
  have h1 : d1.Canon := h.inc.maxTo.chuteTrace
  have h2 : d2.Canon := h1.wakeAll.chute
  refine .either h1.inc.parityFail.chute (.either h1.inc.chute ?_)
  split
  · exact h2.chute.admitInput
  · exact h2

theorem execChutePacketCommit_canon (h : s.dev.Canon) {t i : Nat} {p : Packet} : LeavesCanon (execChutePacketCommit t i p s) := by
  refine run_canon h fun h => ?_
  extract_lets dd d1 d2 d3
  have hdd : dd.Canon := h.at
  have h1 : d1.Canon := hdd.foldl fun _ h => h.inc.chuteTrace
  have h2 : d2.Canon := h1.foldl fun _ h => h.rewind.chute
  have h3 : d3.Canon := h2.chute
  exact hdd.either (h3.rewind.chute.either (h3.rewind.parityFail.chute.either h3.packetIn))

theorem execChuteStall_canon (h : s.dev.Canon) {t i last : Nat} : LeavesCanon (execChuteStall t i last s) :=
  run_canon h fun h => h.at.either h.at.inc.chuteTrace.chute

theorem execChuteReadIdleWake_canon (h : s.dev.Canon) {t i : Nat} : LeavesCanon (execChuteReadIdleWake t i s) := by
  refine run_canon h fun h => ?_
  extract_lets dd
  have hdd : dd.Canon := h.at
  split
  · exact hdd.either hdd.inc.chute.wakeAll
  · exact hdd

theorem execChuteFault_canon (h : s.dev.Canon) {t i : Nat} : LeavesCanon (execChuteFault t i s) := by
  refine run_canon h fun h => ?_
  extract_lets dd _ d1
  have hdd : dd.Canon := h.at
  have h1 : d1.Canon := hdd.wr.chute
  exact hdd.either (h1.fault.giveUp.either (h1.faultLast.log.either h1.fault))

/-! ### EventLog -/

theorem Dev.Canon.recorder (h : d.Canon) {f : Recorder → Recorder} : (d.recorder f).Canon := h.keep

theorem Dev.Canon.region (h : d.Canon) {r : Nat} {f : Region → Region} : (d.region r f).Canon := h.recorder

theorem Dev.Canon.showRegion (h : d.Canon) {r : Nat} : (d.showRegion r).Canon := h.wr.wr

theorem Dev.Canon.lastWords (h : d.Canon) {r : Nat} {x : Rec} : (d.lastWords r x).Canon :=
  (h.either h.wr.noticeT).inc.wr.either (h.either h.wr.noticeT).recorder.wr

theorem Dev.Canon.placeRec (h : d.Canon) {x : Rec} : (d.placeRec x).Canon := by
  unfold Dev.placeRec
  extract_lets _ _ _ _ d1
  have h1 : d1.Canon := h.inc
  refine .either h.lastWords (.either ((h1.either h1.wr.recorder.notice).either h.region.showRegion) (.either h.inc ?_))
  split
  · exact h.region.showRegion
  · exact h.inc

theorem Dev.Canon.flush (h : d.Canon) : d.flush.Canon := h.either (h.inc.recorder.foldl fun _ h => h.placeRec).recorder

theorem execLogRecordEnter_canon (h : s.dev.Canon) {t code tile : Nat} {body : Bytes} : LeavesCanon (execLogRecordEnter t code tile body s) :=
  run_canon h fun h => h.at.either h.at.log

theorem execLogFlush_canon (h : s.dev.Canon) {t dur : Nat} : LeavesCanon (execLogFlush t dur s) :=
  run_canon h fun h => h.at.either h.at.flush.maxTo

theorem Dev.Canon.regionLost (h : d.Canon) {r why : Nat} : (d.regionLost r why).Canon := h.either h.region

theorem execLogBlockFail_canon (h : s.dev.Canon) {t r block cause : Nat} {lost : List Nat} :
    LeavesCanon (execLogBlockFail t r block cause lost s) := by
  refine run_canon h fun h => ?_
  extract_lets dd _ _ d1 d2 d3
  have hdd : dd.Canon := h.at
  have h1 : d1.Canon := hdd.inc.region
  have h2 : d2.Canon := h1.wr.either h1.wr
  have h3 : d3.Canon := h2.showRegion.fault
  exact hdd.either (h3.regionLost.either (h3.regionLost.either h3))

theorem execLogRegionRetry_canon (h : s.dev.Canon) {t r : Nat} {ok : Bool} : LeavesCanon (execLogRegionRetry t r ok s) :=
  run_canon h fun h => h.at.either (h.at.region.recorder.either h.at.region)

theorem Dev.Canon.logClear (h : d.Canon) {region sid level tr : Nat} : (d.logClear region sid level tr).Canon := by
  unfold Dev.logClear
  extract_lets _ _ _ _ d0 _ _ _ _ _ d1 d2 _ d3
  have h0 : d0.Canon := h.flush
  have h1 : d1.Canon := h0.region.wr
  have h2 : d2.Canon := h1.wr.recorder.either h1
  have h3 : d3.Canon := h2.inc.showRegion.placeRec
  exact h.recorder.wr.wr.notice.either h3.noticeOut

theorem Dev.Canon.imageCopy (h : d.Canon) : d.imageCopy.Canon := h.recorder

theorem Dev.Canon.imageKeep (h : d.Canon) : d.imageKeep.Canon := h.recorder

theorem Dev.Canon.logCold (h : d.Canon) {torn : Bool} : (d.logCold torn).Canon :=
  (((h.keep.foldl fun _ h => h.wr.showRegion).when (·.inc)).wr.wr.foldl fun _ h => h.placeRec).notice

/-! ### TimeUnit -/

theorem Dev.Canon.advance (h : d.Canon) : d.advance.Canon := h.keep

theorem Dev.Canon.idleTick (h : d.Canon) : d.idleTick.Canon := h.advance.either h

theorem Dev.Canon.setIncr (h : d.Canon) : d.setIncr.Canon := h.wr

theorem Dev.Canon.judgeDegraded (h : d.Canon) : d.judgeDegraded.Canon := (h.keep.wr.noticeT.either h.keep).either (h.wr.noticeT.either h)

theorem Dev.Canon.timeState (h : d.Canon) {s : Nat} : (d.timeState s).Canon := h.judgeDegraded.either h.wr.noticeT.judgeDegraded

theorem Dev.Canon.measure (h : d.Canon) {offset : Int} {unc freq : Nat} : (d.measure offset unc freq).Canon := h.keep.wrS.wr.setIncr.judgeDegraded

theorem Dev.Canon.abandonStep (h : d.Canon) {cause : Nat} : (d.abandonStep cause).Canon := by
  unfold Dev.abandonStep
  extract_lets
  split
  · exact h.keep.wr.noticeT
  · exact h

theorem Dev.Canon.changeSource (h : d.Canon) {src : Nat} {offset : Int} {unc : Nat} : (d.changeSource src offset unc).Canon := by
  unfold Dev.changeSource
  exact (h.abandonStep.wr.keep.keep.wr.timeState.either h.abandonStep.wr.keep).measure

theorem Dev.Canon.enterHoldover (h : d.Canon) : d.enterHoldover.Canon := h.keep.setIncr.wr.wr.wr.timeState.either h

theorem execTimeLoad_canon (h : s.dev.Canon) {t src time unc : Nat} : LeavesCanon (execTimeLoad t src time unc s) :=
  run_canon h fun h => h.at.keep.wr.wr.wr.timeState.either h.at

theorem execSourceLoss_canon (h : s.dev.Canon) {t src last : Nat} : LeavesCanon (execSourceLoss t src last s) := by
  refine run_canon h fun h => ?_
  extract_lets dd _ d1 d2
  have hdd : dd.Canon := h.at
  have h1 : d1.Canon := hdd.keep
  have h2 : d2.Canon := h1.abandonStep
  refine .either ?_ hdd
  refine .either ?_ h1
  split
  · exact h2.changeSource
  · exact h2.enterHoldover

theorem execSourceQualified_canon (h : s.dev.Canon) {t src since : Nat} {offset : Int} {unc : Nat} :
    LeavesCanon (execSourceQualified t src since offset unc s) :=
  run_canon h fun h => (h.at.keep.changeSource.either h.at.keep).either h.at

theorem execTimeLocked_canon (h : s.dev.Canon) {t since : Nat} {offset : Int} {unc : Nat} : LeavesCanon (execTimeLocked t since offset unc s) :=
  run_canon h fun h => h.at.keep.wr.timeState.measure.either h.at

theorem execSlewRemeasure_canon (h : s.dev.Canon) {t : Nat} {offset : Int} {unc freq : Nat} : LeavesCanon (execSlewRemeasure t offset unc freq s) :=
  run_canon h fun h => h.at.measure.either h.at

theorem execHoldoverSecond_canon (h : s.dev.Canon) {t : Nat} : LeavesCanon (execHoldoverSecond t s) :=
  run_canon h fun h => h.at.wr.wr.judgeDegraded.either h.at

theorem Dev.Canon.selfSet (h : d.Canon) {id i v : Nat} : (d.selfSet id i v).Canon := h.keep.wr

theorem execLeapApply_canon (h : s.dev.Canon) {t : Nat} {utc : Option (Int × Int × Nat)} : LeavesCanon (execLeapApply t utc s) := by
  refine run_canon h fun h => ?_
  extract_lets d1 dd
  have h1 : d1.Canon := h.at
  have hdd : dd.Canon := by
    unfold dd
    split
    · extract_lets d2
      have h2 : d2.Canon := h1.either h1.selfSet
      exact (h2.wr.wr.either h2).either h1
    · exact h1
  exact hdd.selfSet.wr.either hdd

theorem execOscillatorFault_canon (h : s.dev.Canon) {t : Nat} {ppb : Int} {src : Nat} : LeavesCanon (execOscillatorFault t ppb src s) := by
  refine run_canon h fun h => ?_
  extract_lets dd _ d1 d2
  have hdd : dd.Canon := h.at
  have h1 : d1.Canon := hdd.keep.faultLast.notice
  have h2 : d2.Canon := h1.abandonStep
  refine .either ?_ hdd
  refine .either ?_ h1
  split
  · exact h2.changeSource
  · exact h2.enterHoldover

theorem execClockMonitorFault_canon (h : s.dev.Canon) {t cause count prev : Nat} : LeavesCanon (execClockMonitorFault t cause count prev s) :=
  run_canon h fun h => h.at.wr.keep.inc.faultLast.notice.packageVerdict.either h.at

theorem Dev.Canon.oneshotEnd (h : d.Canon) {o status sched : Nat} : (d.oneshotEnd o status sched).Canon := h.keep.wr.noticeAt

theorem execTpEdge_canon (h : s.dev.Canon) {t o n : Nat} : LeavesCanon (execTpEdge t o n s) := by
  refine run_canon h fun h => ?_
  extract_lets dd
  have hdd : dd.Canon := h.at
  split
  · exact hdd
  · extract_lets _ _ d1
    have h1 : d1.Canon := hdd.keep.inc.emit
    refine .either hdd (.either (hdd.inc.oneshotEnd.either hdd) (.either ?_ (hdd.keep.inc.either (h1.oneshotEnd.either h1))))
    split
    · exact hdd.keep.either hdd
    · exact hdd

theorem execTpModeTakeEffect_canon (h : s.dev.Canon) {t o : Nat} : LeavesCanon (execTpModeTakeEffect t o s) := by
  refine run_canon h fun h => ?_
  extract_lets dd
  have hdd : dd.Canon := h.at
  split
  · exact hdd.keep.either hdd
  · exact hdd

theorem Dev.Canon.tpModeSet (h : d.Canon) {o mode c : Nat} : (d.tpModeSet o mode c).Canon := h.keep

theorem execEventCapture_canon (h : s.dev.Canon) {t i edge half : Nat} : LeavesCanon (execEventCapture t i edge half s) :=
  run_canon h fun h => (h.at.keep.inc.keep.either h.at.keep.offer).either h.at

theorem Dev.Canon.reportCapture (h : d.Canon) {x : Input} : (d.reportCapture x).Canon := h.keep.notice

/-! ### Peer -/

theorem Dev.Canon.unitState (h : d.Canon) {s cause : Nat} : (d.unitState s cause).Canon := h.either h.wr.notice

theorem Dev.Canon.sendResync (h : d.Canon) : d.sendResync.Canon := h.keep.inc.emit

theorem Dev.Canon.toShadow (h : d.Canon) : d.toShadow.Canon := h.keep.unitState.sendResync

theorem execHeartbeatSend_canon (h : s.dev.Canon) {t : Nat} : LeavesCanon (execHeartbeatSend t s) :=
  run_canon h fun h => h.at.keep.emit.either h.at

theorem Dev.Canon.splitResolve (h : d.Canon) {peerSide peerTenure : Nat} : (d.splitResolve peerSide peerTenure).Canon :=
  (h.inc.giveUp.either h.inc).either h

theorem execHeartbeatReceive_canon (h : s.dev.Canon) {t : Nat} {hb : Bytes} {sameKey : Bool} {offset : Int} :
    LeavesCanon (execHeartbeatReceive t hb sameKey offset s) := by
  refine run_canon h fun h => ?_
  extract_lets dd _ _ _ _ _ d1 d2 d3
  have hdd : dd.Canon := h.at
  have h1 : d1.Canon := hdd.keep
  have h2 : d2.Canon := h1.wr.wr
  have h3 : d3.Canon := h2.wr.either h2
  exact .either ((h3.either h3.keep.notice).either ((h3.splitResolve.either (h3.measure.either h3)).either h3)) hdd

theorem execLinkFail_canon (h : s.dev.Canon) {t : Nat} : LeavesCanon (execLinkFail t s) :=
  run_canon h fun h => h.at.keep.wr.inc.addW.noticeT.either h.at

theorem execLinkRestore_canon (h : s.dev.Canon) {t : Nat} : LeavesCanon (execLinkRestore t s) :=
  run_canon h fun h => (h.at.wr.noticeT.toShadow.either h.at.wr.noticeT).either h.at

theorem execPeerInput_canon (h : s.dev.Canon) {t cycle : Nat} {x : Input} : LeavesCanon (execPeerInput t cycle x s) :=
  run_canon h fun h => h.at.keep.either h.at

theorem execResync_canon (h : s.dev.Canon) {t : Nat} : LeavesCanon (execResync t s) :=
  run_canon h fun h => h.at.keep.emit.either h.at

theorem execGiveUpReceive_canon (h : s.dev.Canon) {t cause b : Nat} : LeavesCanon (execGiveUpReceive t cause b s) := by
  refine run_canon h fun h => ?_
  extract_lets dd _ _ d1
  have hdd : dd.Canon := h.at
  have h1 : d1.Canon := hdd.keep
  refine .either ?_ hdd
  split
  · exact h1.keep.emit.either h1
  · exact h1

theorem execSilentAtBoundary_canon (h : s.dev.Canon) {t : Nat} : LeavesCanon (execSilentAtBoundary t s) := by
  refine run_canon h fun h => ?_
  extract_lets dd _ _ _ _ d1
  have hdd : dd.Canon := h.at
  have h1 : d1.Canon := hdd.keep
  split
  · exact h1.unitState.outputs.either hdd
  · exact hdd

theorem execClaimReceive_canon (h : s.dev.Canon) {t b : Nat} : LeavesCanon (execClaimReceive t b s) := by
  refine run_canon h fun h => ?_
  extract_lets dd
  have hdd : dd.Canon := h.at
  split
  · exact hdd.keep.emit.toShadow.outputs.either hdd
  · exact hdd

theorem execReturnRequest_canon (h : s.dev.Canon) {t : Nat} : LeavesCanon (execReturnRequest t s) := by
  refine run_canon h fun h => ?_
  extract_lets dd
  have hdd : dd.Canon := h.at
  refine .either (hdd.giveUp.either hdd) (.either ?_ hdd)
  split
  · exact hdd.emit.either hdd
  · exact hdd

theorem execPeerStopFwd_canon (h : s.dev.Canon) {t stamp idx : Nat} {payload : Bytes} : LeavesCanon (execPeerStopFwd t stamp idx payload s) :=
  run_canon h fun h => h.at.stopEvent.input.emit.either h.at

theorem execStopFwdConfirm_canon (h : s.dev.Canon) {t : Nat} : LeavesCanon (execStopFwdConfirm t s) := by
  refine run_canon h fun h => ?_
  extract_lets dd
  have hdd : dd.Canon := h.at
  split
  · exact hdd.keep.sendReply
  · exact hdd

/-! ### Ring -/

theorem Dev.Canon.rng (h : d.Canon) {f : RingSt → RingSt} : (d.rng f).Canon := h.keep

theorem Dev.Canon.portState (h : d.Canon) {p new speed : Nat} : (d.portState p new speed).Canon := h.wr.wr.noticeT

theorem Dev.Canon.bypass (h : d.Canon) {new cause : Nat} : (d.bypass new cause).Canon := h.either h.wr.emit.noticeT

theorem Dev.Canon.bypassHw (h : d.Canon) : d.bypassHw.Canon := h.bypass

theorem Dev.Canon.bypassPorts (h : d.Canon) : d.bypassPorts.Canon := h.rng.when (·.bypass)

theorem execPortLinkChange_canon (h : s.dev.Canon) {t p : Nat} {up : Bool} {mbit : Nat} {full : Bool} :
    LeavesCanon (execPortLinkChange t p up mbit full s) := by
  refine run_canon h fun h => ?_
  extract_lets dd _ _ _ d1 d1'
  have hdd : dd.Canon := h.at
  have h1 : d1.Canon := hdd.inc.portState
  have h1' : d1'.Canon := hdd.inc.portState
  refine .either hdd ?_
  exact .either (hdd.either (hdd.portState.either (h1.when (·.emit)).bypassPorts))
    (hdd.either (h1'.when fun h => h.emit.when (·.portState)).bypassPorts)

theorem execBypassJoin_canon (h : s.dev.Canon) {t : Nat} : LeavesCanon (execBypassJoin t s) :=
  run_canon h fun h => h.at.free.rng.bypass.bypassPorts.either h.at

theorem execBypassJoinTimeout_canon (h : s.dev.Canon) {t : Nat} : LeavesCanon (execBypassJoinTimeout t s) :=
  run_canon h fun h => h.at.rng.inc.bypass.either h.at

theorem execBypassDownRelease_canon (h : s.dev.Canon) {t : Nat} : LeavesCanon (execBypassDownRelease t s) := by
  refine run_canon h fun h => ?_
  extract_lets dd
  have hdd : dd.Canon := h.at
  split
  · exact hdd.rng.bypass.either hdd
  · exact hdd

theorem execRingFault_canon (h : s.dev.Canon) {t tile cause : Nat} : LeavesCanon (execRingFault t tile cause s) := by
  refine run_canon h fun h => ?_
  extract_lets dd d1 d2
  have hdd : dd.Canon := h.at
  have h1 : d1.Canon := hdd.rng
  have h2 : d2.Canon := (h1.when fun h => h.inc.portState).bypassPorts
  exact hdd.either (h1.bypassHw.fault.either h2.fault)

theorem Dev.Canon.police (h : d.Canon) {len : Nat} : (d.police len).2.Canon := h.rng.snd

theorem Dev.Canon.sendCopy (h : d.Canon) {f : EthFrame} {p : Nat} : (d.sendCopy f p).Canon := by
  unfold Dev.sendCopy
  extract_lets d1
  have h1 : d1.Canon := h.inc
  refine .either h.inc ?_
  split
  · extract_lets
    exact h1.maxTo.emit.either h1.emit
  · exact h1.emit

theorem execEthFrameForward_canon (h : s.dev.Canon) {t : Nat} {f : EthFrame} : LeavesCanon (execEthFrameForward t f s) := by
  refine run_canon h fun h => ?_
  extract_lets dd d1 _ _ d2
  have hdd : dd.Canon := h.at
  have h1 : d1.Canon := hdd.inc
  have h2 : d2.Canon := h1.rng
  refine .either hdd (.either (hdd.when (·.inc)) ?_)
  split
  · exact h1.inc
  · refine .either h1.inc (.either h2 ?_)
    exact h2.foldl fun _ h => ((h.police.inc.either h.police.inc).either (h.inc.either h.inc)).either h.sendCopy

theorem execMrpTopologyChange_canon (h : s.dev.Canon) {t p interval : Nat} : LeavesCanon (execMrpTopologyChange t p interval s) :=
  run_canon h fun h => h.at.either (h.at.rng.inc.noticeT.foldl fun _ h => h.when (·.portState))

theorem Dev.Canon.ptpJudge (h : d.Canon) : d.ptpJudge.Canon := h.wr.wr.when (·.noticeT)

theorem Dev.Canon.ptpSend (h : d.Canon) {type : Nat} {body : Bytes} : (d.ptpSend type body).Canon := h.foldl fun _ h => h.inc.emit.either h

theorem execPtpSyncSend_canon (h : s.dev.Canon) {t : Nat} : LeavesCanon (execPtpSyncSend t s) :=
  run_canon h fun h => h.at.ptpJudge.either h.at.ptpJudge.ptpSend.rng

theorem execPtpAnnounceSend_canon (h : s.dev.Canon) {t : Nat} : LeavesCanon (execPtpAnnounceSend t s) :=
  run_canon h fun h => h.at.ptpJudge.either h.at.ptpJudge.ptpSend.rng

theorem execPdelayReqSend_canon (h : s.dev.Canon) {t p mac : Nat} : LeavesCanon (execPdelayReqSend t p mac s) :=
  run_canon h fun h => h.at.either h.at.inc.emit.rng

theorem execPtpMessageReceive_canon (h : s.dev.Canon) {t p : Nat} {m : PtpMsg} : LeavesCanon (execPtpMessageReceive t p m s) := by
  refine run_canon h fun h => ?_
  extract_lets dd _ d1
  have hdd : dd.Canon := h.at
  have h1 : d1.Canon := hdd.ptpJudge
  refine .either hdd ?_
  split
  · exact hdd.either hdd.inc.emit
  · split
    · exact hdd.wr.rng
    · exact hdd
  · refine .either hdd ?_
    split
    · exact hdd.ptpJudge.either hdd.rng.ptpJudge
    · exact h1.keep.either h1
    · exact h1.inc.emit.either h1
    · exact hdd.ptpJudge

theorem Dev.Canon.ringCold (h : d.Canon) : d.ringCold.Canon := h.bypassHw.keep.foldl fun _ h => h.wr.wr

theorem Dev.Canon.ringWritten (h : d.Canon) : d.ringWritten.Canon := by
  unfold Dev.ringWritten
  extract_lets d1
  have h1 : d1.Canon := h.foldl fun _ h => h.portState.either (h.portState.either h)
  exact (h1.when (·.bypass)).bypassPorts.ptpJudge

/-! ### Power -/

theorem Dev.Canon.power (h : d.Canon) {f : Pwr → Pwr} : (d.power f).Canon := h.keep

theorem Dev.Canon.setBootSlot (h : d.Canon) {i : Nat} {s : Slot} : (d.setBootSlot i s).Canon := h.power

theorem Dev.Canon.beginReset (h : d.Canon) {cause : Nat} : (d.beginReset cause).Canon :=
  h.either ((h.power.keep.bypassHw.emit.when fun h => h.emit.emit).when (·.emit))

theorem Dev.Canon.resetBy (h : d.Canon) {cause : Nat} : (d.resetBy cause).Canon := h.either h.beginReset

theorem execBoot_canon (h : s.dev.Canon) {t : Nat} {lost : Bool} : LeavesCanon (execBoot t lost s) := by
  refine runAlways_canon h fun h => ?_
  extract_lets d1 dd
  have h1 : d1.Canon := h.at
  have hdd : dd.Canon := by
    unfold dd
    split
    · exact h1.beginReset.either h1
    · exact h1
  refine .either hdd ?_
  split
  extract_lets _ d2
  have h2 : d2.Canon := hdd.keep.when (·.inc)
  split
  · exact h2.power.emit
  · exact h2.power.keep.foldl fun _ h => h.wr

/-- The entries that outlast the emptying are a part of the file. -/
theorem Dev.Canon.emptied (h : d.Canon) : d.emptied.Canon := ⟨Regs.wf_keepRegs h.regs, Regs.wf_keepRegs h.regs⟩

theorem Dev.Canon.recordCause (h : d.Canon) : d.recordCause.Canon := (h.power.wr.wr.wr.wr.either h).power.wr.inc.wr

theorem Dev.Canon.coldStart (h : d.Canon) {torn : Bool} : (d.coldStart torn).Canon := by
  unfold Dev.coldStart
  extract_lets _ dd d1 d2 d3 _ d4 _ d5 d6
  have hdd : dd.Canon := h.emptied
  have h1 : d1.Canon := hdd.slateCold.mtrCold.drkCold.canCold.ringCold.airCold.dspCold
  have h2 : d2.Canon := h1.power
  have h3 : d3.Canon := h2.recordCause.wr.wr
  have h4 : d4.Canon := h3.wr.wr
  have h5 : d5.Canon := h4.logCold.notice
  have h6 : d6.Canon := h5.notice
  exact h6.startTracking.either h6

theorem execColdStart_canon (h : s.dev.Canon) {t : Nat} {torn : Bool} : LeavesCanon (execColdStart t torn s) :=
  runAlways_canon h fun h => h.at.coldStart.either h.at

theorem execResetPin_canon (h : s.dev.Canon) {t : Nat} {low : Bool} {width : Nat} {taken : Bool} : LeavesCanon (execResetPin t low width taken s) :=
  runAlways_canon h fun h => h.at.either (h.at.power.either (h.at.either h.at.resetBy.power))

theorem execWatchdogReset_canon (h : s.dev.Canon) {t : Nat} : LeavesCanon (execWatchdogReset t s) := by
  refine runAlways_canon h fun h => ?_
  extract_lets dd
  have hdd : dd.Canon := h.at
  refine .either hdd.resetBy (.either ?_ hdd)
  split
  · exact hdd.resetBy.either hdd
  · exact hdd

theorem execTrialExpire_canon (h : s.dev.Canon) {t : Nat} : LeavesCanon (execTrialExpire t s) :=
  run_canon h fun h => h.at.power.resetBy.either h.at

theorem execSilentRestart_canon (h : s.dev.Canon) {t : Nat} : LeavesCanon (execSilentRestart t s) := by
  refine run_canon h fun h => ?_
  extract_lets dd
  have hdd : dd.Canon := h.at
  split
  · exact hdd.keep.resetBy.either hdd
  · exact hdd

theorem Dev.Canon.railRead (h : d.Canon) {r mv : Nat} : (d.railRead r mv).Canon := h.wr.either h.wr

theorem execRailMonitorFault_canon (h : s.dev.Canon) {t r mv : Nat} : LeavesCanon (execRailMonitorFault t r mv s) :=
  run_canon h fun h => h.at.either h.at.railRead.inc.faultLast.noticeT.packageVerdict

theorem execBrownout_canon (h : s.dev.Canon) {t r mv since : Nat} : LeavesCanon (execBrownout t r mv since s) :=
  runAlways_canon h fun h => h.at.either (h.at.railRead.resetBy.either h.at)

theorem Dev.Canon.tempRead (h : d.Canon) {die : Nat} {z : Int} : (d.tempRead die z).Canon := h.wrS

theorem execThermalWarning_canon (h : s.dev.Canon) {t die : Nat} {temp : Int} : LeavesCanon (execThermalWarning t die temp s) :=
  run_canon h fun h => h.at.either h.at.tempRead.wr.faultLast.notice

theorem execThermalVerdict_canon (h : s.dev.Canon) {t die since : Nat} {temp : Int} : LeavesCanon (execThermalVerdict t die since temp s) :=
  run_canon h fun h => h.at.either h.at.tempRead.wr.faultLast.notice.packageVerdict

theorem execThermalReset_canon (h : s.dev.Canon) {t die : Nat} {temp : Int} : LeavesCanon (execThermalReset t die temp s) :=
  runAlways_canon h fun h => h.at.either h.at.tempRead.resetBy.power

theorem execThermalCleared_canon (h : s.dev.Canon) {t die : Nat} {temps : List Int} : LeavesCanon (execThermalCleared t die temps s) := by
  refine runAlways_canon h fun h => ?_
  extract_lets dd d1 d2
  have hdd : dd.Canon := h.at
  have h1 : d1.Canon := hdd.foldl fun _ h => h.tempRead
  have h2 : d2.Canon := h1.when (·.power)
  exact hdd.either (h2.wr.notice.either h2)

theorem execPfailAssert_canon (h : s.dev.Canon) {t : Nat} : LeavesCanon (execPfailAssert t s) :=
  runAlways_canon h fun h => h.at.power.either h.at.power.inc.noticeT.bypassHw.giveUp.mtrFlush.imageCopy

theorem execPfailRelease_canon (h : s.dev.Canon) {t : Nat} : LeavesCanon (execPfailRelease t s) :=
  runAlways_canon h fun h => h.at.power.noticeT.imageKeep.either h.at.power

theorem execRtcSet_canon (h : s.dev.Canon) {t : Nat} : LeavesCanon (execRtcSet t s) :=
  run_canon h fun h => h.at.power.wr.either h.at

theorem Dev.Canon.enterDormant (h : d.Canon) : d.enterDormant.Canon := by
  unfold Dev.enterDormant
  exact h.mtrFlush.flush.airCommit.bypassHw.keep.power.emit.emit

theorem execWake_canon (h : s.dev.Canon) {t source : Nat} {rising : Bool} : LeavesCanon (execWake t source rising s) :=
  runAlways_canon h fun h => h.at.power.wr.emit.either h.at

theorem execDramScrub_canon (h : s.dev.Canon) {t n : Nat} : LeavesCanon (execDramScrub t n s) :=
  run_canon h fun h => h.at.addW

theorem execMemoryFault_canon (h : s.dev.Canon) {t mem addr : Nat} {hard : Bool} : LeavesCanon (execMemoryFault t mem addr hard s) := by
  refine run_canon h fun h => ?_
  extract_lets dd
  have hdd : dd.Canon := h.at
  split
  · exact hdd.inc.fault.giveUp.either hdd.inc
  · exact hdd.inc.fault.regionLost.regionLost.either hdd
  · exact hdd.inc.fault.giveUp.either hdd
  · exact hdd

theorem execRekeySessionEnd_canon (h : s.dev.Canon) {t : Nat} : LeavesCanon (execRekeySessionEnd t s) := by
  refine run_canon h fun h => ?_
  extract_lets dd
  have hdd : dd.Canon := h.at
  split
  · exact hdd.power.endSession.either hdd
  · exact hdd

theorem Dev.Canon.rekey (h : d.Canon) {i level : Nat} {salt : Bytes} : (d.rekey i level salt).Canon := by
  refine .notice (h.power.foldl fun _ h => ?_)
  split
  · exact h.endSession.either h
  · exact h

/-! ### StopRecord -/

theorem Dev.Canon.enterKeys (h : d.Canon) {evs : List StopEntry} : (d.enterKeys evs).Canon := h.keep

theorem Dev.Canon.releaseNotices (h : d.Canon) {k : Nat} {l : List (Input × Nat)} : (d.releaseNotices k l).Canon :=
  h.foldl fun _ h => (h.when (·.inc)).notice.either h

theorem Dev.Canon.stopPermit (h : d.Canon) {k : Nat} {xs : List Input} {fence list_ : Bytes} : (d.stopPermit k xs fence list_).1.Canon :=
  (h.keep.enterKeys.releaseNotices.abandonStep.either h.keep.enterKeys.releaseNotices).fst

/-! ### Acts -/

theorem Dev.Canon.putCtrl (h : d.Canon) {k id i : Nat} {b : Bytes} : (d.putCtrl k id i b).Canon := h.keep

theorem Dev.Canon.setItem (h : d.Canon) {w : Who} {id i v : Nat} : (d.setItem w id i v).Canon := (h.keep.either h).wr

theorem Dev.Canon.replayEnter (h : d.Canon) : d.replayEnter.Canon := h.either h.keep.wr.wr.wr.wr.outputs

theorem Dev.Canon.confirmTrial (h : d.Canon) : d.confirmTrial.Canon := h.power.wr.wr.notice

theorem Dev.Canon.applyEntry (h : d.Canon) {w : Who} {id i : Nat} {b : Bytes} : (d.applyEntry w id i b).Canon := by
  unfold Dev.applyEntry
  extract_lets v _ _ _ _ _ d1
  have h1 : d1.Canon := h.setItem
  split
  · exact h
  · refine .either h ?_
    split
    · exact h.keep.wr
    · exact h.setItem.tpModeSet
    · exact h.keep.wr
    · exact h.replayEnter.either h
    · exact h.setItem.either (h.setItem.startTracking.either h.setItem.stopTracking)
    · exact h.forceCold
    · exact h.snapAct
    · exact h.setItem.putCtrl
    · exact h.putCtrl
    · exact h.putCtrl
    · exact h.putCtrl
    · exact h.putCtrl
    · exact h.airKeyWrite
    · exact h.airRollWrite
    · clear_value v
      split
      · exact h.giveUp
      · exact h.giveUp
      · exact h
    · exact h.keep
    · exact h.setItem.ringWritten
    · exact h.setItem.ringWritten
    · exact h.setItem.ringWritten
    · exact h.canCtrl
    · exact h.bufWrite
    · exact h.txAbort
    · exact h.putCtrl
    · exact h.setItem.drkWritten
    · exact h.drkCtrl
    · exact h.tlgClear
    · exact h
    · exact h.wr.noticeT
    · exact h.putCtrl.either h.rekey
    · exact h.power.wr
    · exact h.confirmTrial
    · exact h.setItem

theorem Dev.Canon.setAll {w : Who} {es : List (Nat × Nat × Bytes)} (h : d.Canon) : (d.setAll w es).2.Canon := by
  induction es generalizing d with
  | nil => exact h
  | cons e es ih => exact ih (h.applyEntry.either h)

/-! ### Decide -/

theorem Dev.Canon.blockNow (h : d.Canon) {q : Queued} {id blk : Nat} : (d.blockNow q id blk).2.Canon :=
  .eitherSnd h.bufRead (.eitherSnd h.snd (.eitherSnd h.snd h.snd))

theorem Dev.Canon.getBlock (h : d.Canon) {q : Queued} {p : Bytes} : (d.getBlock q p).2.Canon := by
  unfold Dev.getBlock
  extract_lets _ _ _ _ _ _ _ _ keep _ d1
  have h1 : d1.Canon := h.either h.keep
  split
  · exact h.snd
  · split
    · exact h.snd
    · split
      · exact h.snd
      · split
        · exact h.blockNow.keep.snd
        · split
          · extract_lets
            exact h1.snd
          · exact h1.snd

theorem Dev.Canon.readReply (h : d.Canon) {q : Queued} {p : Bytes} : (d.readReply q p).2.Canon := by
  unfold Dev.readReply
  split
  · exact h.snd
  · exact h.getBlock
  · exact h.snd
  · exact h.snd

theorem Dev.Canon.setCmd (h : d.Canon) {w : Who} {es : List (Nat × Nat × Bytes)} : (d.setCmd w es).2.Canon := by
  unfold Dev.setCmd
  split
  rename_i d1 hv
  have h1 : d1.Canon := .of_snd h.setAll hv
  extract_lets
  split
  · exact h.snd
  · exact h1.snd

theorem Dev.Canon.action (h : d.Canon) {w : Who} {p : Bytes} : (d.action w p).2.Canon := by
  unfold Dev.action
  split
  · split
    · exact h.closeSession.snd
    · exact h.snd
  · exact h.snd
  · exact .eitherSnd h.snd h.snd
  · exact h.snd

theorem Dev.Canon.subscribe (h : d.Canon) {w : Who} {p : Bytes} : (d.subscribe w p).2.Canon := by
  unfold Dev.subscribe
  extract_lets
  split
  · exact h.snd
  · split
    · extract_lets
      exact h.keep.snd
    · split
      · exact h.snd
      · split
        · exact h.keep.snd
        · exact .eitherSnd h.snd h.keep.snd

theorem Dev.Canon.setLoads (h : d.Canon) {l : List Load} : (d.setLoads l).Canon := h.keep

theorem Dev.Canon.putLoad (h : d.Canon) {target : Nat} {l : Option Load} : (d.putLoad target l).Canon := h.setLoads

theorem Dev.Canon.abandonLoad (h : d.Canon) {k : Nat} {l : Load} {cause : Nat} : (d.abandonLoad k l cause).Canon := by
  unfold Dev.abandonLoad
  extract_lets d1
  have h1 : d1.Canon := h.putLoad.when (·.notice)
  exact h1.either (h1.putCtrl.either (h1.setBootSlot.either h1))

theorem Dev.Canon.lastChunk (h : d.Canon) {w : Who} {l : Load} : (d.lastChunk w l).2.Canon := by
  unfold Dev.lastChunk
  extract_lets d1
  have h1 : d1.Canon := h.putLoad
  split
  · exact h.putLoad.snd
  · split
    · exact h1.jobTake.snd
    · exact h1.covTake.snd
    · exact h1.setBootSlot.snd

theorem Dev.Canon.lapseLoad (h : d.Canon) {w : Who} {target : Nat} : (d.lapseLoad w target).Canon := by
  unfold Dev.lapseLoad
  split
  · exact h.abandonLoad.either h
  · exact h

theorem Dev.Canon.load (h : d.Canon) {w : Who} {tag : Nat} {p : Bytes} : (d.load w tag p).2.Canon := by
  unfold Dev.load
  extract_lets target total offset data dd take cur d1 was ok d2 l
  refine .eitherSnd h.snd (.eitherSnd h.snd ?_)
  have hdd : dd.Canon := h.lapseLoad
  have htake {d : Dev} {l : Load} (h : d.Canon) : (take d l).2.Canon :=
    .eitherSnd h.abandonLoad.snd (.eitherSnd h.lastChunk h.putLoad.snd)
  have h1 : d1.Canon := by
    unfold d1
    clear_value cur
    split
    · exact hdd.abandonLoad
    · exact hdd
  have h2 : d2.Canon := h1.either (h1.putCtrl.either (h1.setBootSlot.either h1))
  refine .eitherSnd hdd.snd (.eitherSnd (htake h2.putLoad) ?_)
  clear_value cur
  split
  · exact .eitherSnd (htake hdd) hdd.abandonLoad.snd
  · exact hdd.snd

theorem Dev.Canon.dropClear (h : d.Canon) {region : Nat} : (d.dropClear region).Canon := h.recorder

theorem Dev.Canon.clearRequest (h : d.Canon) {w : Who} {region : Nat} : (d.clearRequest w region).2.Canon := by
  unfold Dev.clearRequest
  extract_lets _ d1
  have h1 : d1.Canon := h.inc.dropClear
  split
  · exact h.snd
  · extract_lets
    exact .eitherSnd h.snd (.eitherSnd h.snd h1.recorder.snd)

theorem Dev.Canon.clearConfirm (h : d.Canon) {w : Who} {region : Nat} {proof : Bytes} : (d.clearConfirm w region proof).2.Canon := by
  unfold Dev.clearConfirm
  extract_lets d1
  have h1 : d1.Canon := h.dropClear
  split
  · exact h1.snd
  · split
    · split
      · exact h1.snd
      · split
        · exact h1.snd
        · exact .eitherSnd h1.snd (.eitherSnd h1.snd (.eitherSnd h1.snd h1.logClear.snd))
    · split
      · exact h1.snd
      · split
        · exact h1.snd
        · exact .eitherSnd h1.snd (.eitherSnd h1.snd (.eitherSnd h1.snd h1.logClear.snd))

theorem Dev.Canon.clearCmd (h : d.Canon) {w : Who} {p : Bytes} : (d.clearCmd w p).2.Canon :=
  .eitherSnd h.snd (.eitherSnd h.clearRequest h.clearConfirm)

theorem Dev.Canon.decideMail (h : d.Canon) {w : Who} {tag : Nat} {p : Bytes} : (d.decideMail w tag p).2.Canon := by
  unfold Dev.decideMail
  extract_lets
  split
  · split
    · exact h.setCmd
    · exact h.snd
  · exact h.setCmd
  · exact h.action
  · exact h.subscribe.snd
  · exact h.authBegin.snd
  · exact h.authProve.snd
  · exact h.load
  · exact h.clearCmd.snd
  · exact .eitherSnd h.applyEntry.snd h.snd
  · exact h.snd

/-! ### Commit -/

theorem Dev.Canon.commitAct (h : d.Canon) {k : Nat} {c : Nat × Nat × Nat × Bytes} : (Dev.commitAct k d c).Canon := by
  unfold Dev.commitAct
  extract_lets
  split
  · exact h.jobLoading.either h.jobBack
  · exact h.keep
  · exact h.either h.staState
  · exact h

theorem Dev.Canon.commitRekey (h : d.Canon) {c : Nat × Nat × Nat × Bytes} : (d.commitRekey c).Canon := h.rekey.either h

theorem Dev.Canon.enterSaid (h : d.Canon) {k : Nat} : (d.enterSaid k).Canon := h.keep.foldl fun _ h => h.noticeNow

theorem Dev.Canon.commitCore (h : d.Canon) {k : Nat} {xs : List Input} : (d.commitCore k xs).2.Canon := by
  unfold Dev.commitCore
  extract_lets _ _ _ d1 d2 d3 d4
  have h1 : d1.Canon := h.keep.enterSaid
  have h2 : d2.Canon := h1.foldl fun _ h => h.commitRekey
  have h3 : d3.Canon := (h2.foldl fun _ h => h.commitAct).foldl fun _ h => h.reportCapture
  have h4 : d4.Canon := h3.stationEpoch.rtkStage
  split
  rename_i d5 _ _ _ _ hv
  have h5 : d5.Canon := .of_fst h4.slateStage hv
  extract_lets
  split
  rename_i d6 _ hv
  have h6 : d6.Canon := .of_fst h5.coverageStage hv
  split
  rename_i d7 _ hv
  have h7 : d7.Canon := .of_fst h6.meteringStage hv
  exact h7.tasksStage.stopPermit.keep.snd

theorem Dev.Canon.decideFed (h : d.Canon) {k : Nat} {x : Input} : (Dev.decideFed k d x).Canon := h.decideMail.either h

theorem Dev.Canon.idleLoads (h : d.Canon) {k : Nat} : (d.idleLoads k).Canon := h.foldl fun _ h => h.abandonLoad

theorem Dev.Canon.commitFed (h : d.Canon) {k : Nat} {xs : List Input} {said : Option (List Said)} : (d.commitFed k xs said).2.Canon := by
  unfold Dev.commitFed
  exact (h.deferring fun h => h.idleLoads.keep.foldl fun _ h => h.decideFed).keep.commitCore

theorem Dev.Canon.afterReply (h : d.Canon) {q : Queued} : (d.afterReply q).Canon := by
  unfold Dev.afterReply
  split
  · split
    · exact h.endSession
    · exact h
  · exact h.power
  · exact h.power
  · exact h.enterDormant
  · exact h.resetBy
  · exact h.resetBy
  · exact h

theorem Dev.Canon.noteReply (h : d.Canon) {q : Queued} {r : Reply} : (d.noteReply q r).Canon := h.keep

theorem Dev.Canon.answer (h : d.Canon) {q : Queued} {r : Reply} : (d.answer q r).Canon := h.noteReply.sendReply.afterReply

theorem Dev.Canon.serveOne {upto : Option Nat} {a : Dev × List Queued × List Nat} {q : Queued} (h : a.1.Canon) : (Dev.serveOne upto a q).1.Canon := by
  unfold Dev.serveOne
  extract_lets hold
  have hhold : hold.1.Canon := h.fst
  split
  · exact hhold
  · split
    · exact .eitherFst h.answer.fst hhold
    · exact h.readReply.answer.fst
    · exact hhold

theorem Dev.Canon.serveQueue (h : d.Canon) {upto : Option Nat} : (d.serveQueue upto).Canon := (h.keep.foldlFst fun _ h => h.serveOne).keep

theorem Dev.Canon.safetyReplies (h : d.Canon) {l : List (Input × Nat)} : (d.safetyReplies l).Canon := by
  refine h.foldl fun _ h => ?_
  split
  split
  · exact h.keep.sendReply
  · exact h

theorem Dev.Canon.loadDecided (h : d.Canon) {target status : Nat} : (d.loadDecided target status).Canon := by
  unfold Dev.loadDecided
  extract_lets
  split
  · extract_lets
    exact h.keep
  · exact h

theorem Dev.Canon.loadsDecided (h : d.Canon) {o : CommitOut} : (d.loadsDecided o).Canon := by
  unfold Dev.loadsDecided
  extract_lets one
  have hone {d : Dev} {target : Nat} {r : Option Bool} (h : d.Canon) : (one d target r).Canon := by
    unfold one
    split
    · exact h.loadDecided
    · exact h
  exact hone (hone h)

/-- The published file is built from the register file by puts. -/
theorem Dev.Canon.publish (h : d.Canon) {k : Nat} {record item : Bytes} {cfg us : Nat} {xs : List Input} {origin : Bool} :
    (d.publish k record item cfg us xs origin).Canon := by
  unfold Dev.publish
  extract_lets d1 d2 d3
  have h3 : d3.Canon := h.stream.journalCycle.wr.wr.maxTo.flush
  exact ⟨h3.regs, h3.regsAfter⟩

theorem Dev.Canon.benchFault (h : d.Canon) : d.benchFault.Canon := h.faultLog.giveUp

theorem Dev.Canon.sendCopy2 (h : d.Canon) {record item : Bytes} {copyUs : Nat} : (d.sendCopy2 record item copyUs).Canon := h.emit.maxTo.maxTo.either h

theorem Dev.Canon.activeCommit (h : d.Canon) {k us copyUs : Nat} : (d.activeCommit k us copyUs).Canon := by
  unfold Dev.activeCommit
  extract_lets dd
  have hdd : dd.Canon := h.tlgLatch.deferring (·.idleSessions)
  clear_value dd
  split
  rename_i d1 hv
  have h1 : d1.Canon := .of_snd hdd.commitCore hv
  extract_lets _ _ _ d2 d3 d4
  have h2 : d2.Canon := h1.keep.when (·.inc)
  have h3 : d3.Canon := h2.publish.airCommit.sendCopy2
  have h4 : d4.Canon := h3.loadsDecided.serveQueue.safetyReplies
  exact h4.either h4.benchFault

theorem execCycleCommit_canon (h : s.dev.Canon) {t us copyUs : Nat} : LeavesCanon (execCycleCommit t us copyUs s) :=
  run_canon h fun h => h.at.either h.at.activeCommit

theorem execCommitOverrun_canon (h : s.dev.Canon) {t : Nat} : LeavesCanon (execCommitOverrun t s) :=
  run_canon h fun h => h.at.either h.at.keep.inc

theorem execCommitMissed_canon (h : s.dev.Canon) {t : Nat} : LeavesCanon (execCommitMissed t s) :=
  run_canon h fun h => h.at.either h.at.keep.benchFault

theorem execCycleBoundary_canon (h : s.dev.Canon) {t : Nat} : LeavesCanon (execCycleBoundary t s) :=
  run_canon h fun h => ((h.at.wr.either h.at).inc.either (h.at.wr.either h.at)).dspCycle.airBoundary

theorem execVoterTick_canon (h : s.dev.Canon) {t : Nat} : LeavesCanon (execVoterTick t s) :=
  run_canon h fun h => h.at.voterTick.drkStopAll.either h.at.voterTick

theorem Dev.Canon.originInputs (h : d.Canon) {at_ : Nat} : (d.originInputs at_).Canon := by
  unfold Dev.originInputs
  extract_lets d1
  have h1 : d1.Canon := h.foldl fun _ h => h.input.either h
  exact h1.foldl fun _ h => h.either ((h.foldl fun _ h => h.input.either h).input.either (h.foldl fun _ h => h.input.either h))

theorem Dev.Canon.startPath (h : d.Canon) {o : Nat} : (d.startPath o).Canon := by
  unfold Dev.startPath
  exact (h.keep.wr.wr.covRebuild.either h.keep.wr.wr).originInputs

/-- Reads are served from the register file itself from now on. -/
theorem Dev.Canon.becomeActive (h : d.Canon) {kind first : Nat} {offset : Int} {unc : Nat} : (d.becomeActive kind first offset unc).Canon := by
  unfold Dev.becomeActive
  extract_lets _ _ _ d1 d2 _ _ _ _ d3 _ d4 d5 d6 d7
  have h1 : d1.Canon := h.wr.inc
  have h2 : d2.Canon := h1.keep.either h1
  have h3 : d3.Canon := h2.keep
  have h4 : d4.Canon :=
    .unitState (.emit (d := { d3 with peer := { d3.peer with foreign := [] }, snap := d3.regs }) ⟨h3.regs, h3.regs⟩)
  have h6 : d6.Canon := h4.notice.either h4.notice.drkCold
  have h7 : d7.Canon := by
    unfold d7
    split
    · split
      · exact h6.changeSource
      · exact h6.enterHoldover
    · exact h6
  exact h7.ptpJudge

theorem execTakeover_canon (h : s.dev.Canon) {t : Nat} {offset : Int} {unc : Nat} : LeavesCanon (execTakeover t offset unc s) := by
  refine run_canon h fun h => ?_
  extract_lets dd
  have hdd : dd.Canon := h.at
  split
  · exact hdd.becomeActive.either hdd
  · exact hdd

theorem execHeartbeatLossTakeover_canon (h : s.dev.Canon) {t : Nat} {seat : Bool} {offset : Int} {unc : Nat} :
    LeavesCanon (execHeartbeatLossTakeover t seat offset unc s) :=
  run_canon h fun h => h.at.keep.either (h.at.keep.becomeActive.stopEvent.takeSeq.keep.inc.either h.at.keep.noticeT)

theorem execStartClaim_canon (h : s.dev.Canon) {t : Nat} {seat : Bool} : LeavesCanon (execStartClaim t seat s) := by
  refine run_canon h fun h => ?_
  extract_lets d1 _ dd _ _ _ d2 _ _ d2'
  have h1 : d1.Canon := h.at
  have hdd : dd.Canon := h1.keep
  have h2 : d2.Canon := hdd.keep.wr
  have h2' : d2'.Canon := hdd.becomeActive.startPath
  exact .either hdd (hdd.becomeActive.startPath.either (hdd.either (h2.toShadow.either (h2'.keep.emit.either hdd))))

theorem Dev.Canon.commitUpTo {us n last : Nat} (h : d.Canon) : (Dev.commitUpTo us n last d).Canon := by
  induction n generalizing d with
  | zero => exact h
  | succ n ih => exact h.either (ih h.activeCommit)

theorem Dev.Canon.emptyPath (h : d.Canon) : d.emptyPath.Canon := by
  unfold Dev.emptyPath
  exact ((h.foldl fun _ h => h.loadDecided).keep.slateCold.foldl fun _ h => h.wr).staState

theorem Dev.Canon.missOneshots (h : d.Canon) {t1 : Nat} : (d.missOneshots t1).Canon := by
  refine h.foldl fun _ h => ?_
  split
  · exact h.inc.oneshotEnd.either h
  · exact h

theorem execStepApply_canon (h : s.dev.Canon) {t : Nat} {offset : Int} {frac us : Nat} : LeavesCanon (execStepApply t offset frac us s) := by
  refine run_canon h fun h => ?_
  extract_lets dd _ _ d1 _ _ _ _ _ _ _ d2 d3 _ _ _ _ d4 d5 d6 d7 d8
  have hdd : dd.Canon := h.at
  have h1 : d1.Canon := hdd.keep.commitUpTo.wr
  have h2 : d2.Canon := h1.incBy.keep
  have h3 : d3.Canon := h2.either h2.missOneshots
  have h4 : d4.Canon := h3.keep
  have h5 : d5.Canon := h4.setIncr.wrS.inc.wr
  have h6 : d6.Canon := h5.noticeT
  have h7 : d7.Canon := h6.timeState
  have h8 : d8.Canon := h7.emptyPath.startPath
  split
  · exact hdd
  · exact hdd.either (h8.keep.either h7.keep)

theorem Dev.Canon.compareDigest (h : d.Canon) {k own peer : Nat} : (d.compareDigest k own peer).Canon :=
  h.keep.either (h.keep.inc.notice.toShadow.either h.keep.inc.notice)

theorem Dev.Canon.afterCopy (h : d.Canon) : d.afterCopy.Canon := by
  unfold Dev.afterCopy
  extract_lets _ _ d1
  have h1 : d1.Canon := ((h.unitState.either h).either (h.keep.either h)).either h
  split
  · exact h1.keep.emit.either h1
  · exact h1

theorem execPeerCopy_canon (h : s.dev.Canon) {t : Nat} {record item : Bytes} {img : Image} {ok : Bool} :
    LeavesCanon (execPeerCopy t record item img ok s) := by
  refine run_canon h fun h => ?_
  extract_lets dd
  have hdd : dd.Canon := h.at
  refine .either hdd (.either (hdd.toShadow.either hdd.sendResync) ?_)
  split
  rename_i d1 hv
  have h1 : d1.Canon := .of_snd hdd.tlgLatch.commitFed hv
  extract_lets d2 d3 _ _ d4
  have h2 : d2.Canon := h1.journalCycle.flush
  have h3 : d3.Canon := h2.takeImage.compareDigest
  have h4 : d4.Canon := h3.keep
  exact h4.wr.afterCopy

theorem execPeerCheckpoint_canon (h : s.dev.Canon) {t : Nat} {img : Image} : LeavesCanon (execPeerCheckpoint t img s) :=
  run_canon h fun h => h.at.takeImage.keep.either h.at

theorem Dev.Canon.feed (h : d.Canon) {f : Feed → Feed} : (d.feed f).Canon := h.keep

theorem Dev.Canon.mismatch (h : d.Canon) {k own recorded : Nat} : (d.mismatch k own recorded).Canon := (h.inc.wr.either h.inc).notice

theorem Dev.Canon.feedAbandon (h : d.Canon) : d.feedAbandon.Canon := h.feed.wr

theorem Dev.Canon.replayCommit (h : d.Canon) {record : Bytes} {xs0 : List Input} : (d.replayCommit record xs0).Canon := by
  unfold Dev.replayCommit
  extract_lets _ _ _ e d0
  have h0 : d0.Canon := (h.emptyPath.covRebuild.either h.emptyPath).either h
  split
  rename_i d1 hv
  have h1 : d1.Canon := h0.tlgLatch.commitFed.of_snd hv
  split
  rename_i d2 hv
  have h2 : d2.Canon := h1.free.of_snd hv
  exact h2.publish.feed

theorem Dev.Canon.feedReady (h : d.Canon) : d.feedReady.Canon := by
  unfold Dev.feedReady
  split
  · exact h.replayCommit.either h
  · exact h

theorem Dev.Canon.feedHead (h : d.Canon) {b : Bytes} : (d.feedHead b).2.Canon := .eitherSnd h.takeImage.keep.keep.feed.snd h.takeImage.keep.snd

theorem Dev.Canon.feedEntry (h : d.Canon) {kind flags : Nat} {b : Bytes} : (d.feedEntry kind flags b).2.Canon := by
  unfold Dev.feedEntry
  extract_lets
  split
  · exact h.feed.snd
  · exact .eitherSnd h.feedHead (h.either h.mismatch).snd
  · exact (h.feed.feedReady.either h).snd
  · exact (h.feed.feedReady.either h).snd
  · split
    · exact (h.mismatch.either h).snd
    · exact h.snd
  · exact h.snd

theorem Dev.Canon.feedRun {n : Nat} (h : d.Canon) : (Dev.feedRun n d).2.Canon := by
  induction n generalizing d with
  | zero => exact h
  | succ n ih =>
    unfold Dev.feedRun
    extract_lets
    refine .eitherSnd h.snd ?_
    split
    rename_i d1 hv
    have h1 : d1.Canon := h.feed.feedEntry.of_snd hv
    exact .eitherSnd h1.feedAbandon.snd (ih h1)

theorem Dev.Canon.replayFeed (h : d.Canon) {w : Who} {p : Bytes} : (d.replayFeed w p).2.Canon := by
  unfold Dev.replayFeed
  extract_lets _ _ _ _ _ _ _ d1
  have h1 : d1.Canon := h.keep.wr
  split
  · exact h.snd
  · split
    · exact h.snd
    · exact .eitherSnd h.feedAbandon.snd (.eitherSnd h1.feedRun.snd (h1.feedRun.wr.either h1.feedRun).snd)

/-! ### Mailbox -/

theorem Dev.Canon.touchSub (h : d.Canon) {ep : Ep} : (d.touchSub ep).Canon := h.keep

theorem Dev.Canon.admitMail (hd : d.Canon) {h : HostCtx} {p : Bytes} {level : Nat} {sid : Option Nat} : (d.admitMail h p level sid).2.Canon :=
  hd.takeSeq.admitInput.snd

theorem Dev.Canon.admitRefused (hd : d.Canon) {h : HostCtx} {p : Bytes} : (d.admitRefused h p).Canon := hd.admitMail.either hd

theorem Dev.Canon.mailStop (hd : d.Canon) {h : HostCtx} {p : Bytes} : (d.mailStop h p).Canon :=
  hd.stopEvent.admitMail.answer.either (hd.stopEvent.keep.emit.either hd.stopEvent.answer)

theorem Dev.Canon.mailSafety (hd : d.Canon) {flags : Nat} {h : HostCtx} {p : Bytes} : (d.mailSafety flags h p).Canon := by
  unfold Dev.mailSafety
  extract_lets
  refine .either hd.admitRefused.answer ?_
  split
  rename_i d1 hv
  have h1 : d1.Canon := .of_snd hd.judgeTrailer hv
  split
  · exact h1.admitRefused.answer
  · exact h1.answer.either h1.admitMail.keep

theorem Dev.Canon.decideQueued (hd : d.Canon) {q : Queued} {flags : Nat} {h : HostCtx} {p : Bytes} : (d.decideQueued q flags h p).2.Canon := by
  unfold Dev.decideQueued
  extract_lets
  split
  · exact hd.snd
  · split
    rename_i d1 hv
    have h1 : d1.Canon := .of_snd hd.judgeTrailer hv
    extract_lets _ dq
    have hdq : dq.Canon := h1.keep.either h1
    split
    · exact h1.snd
    · extract_lets
      exact .eitherSnd h1.snd (.eitherSnd h1.snd (.eitherSnd h1.replayFeed.snd hdq.decideMail.keep.snd))

theorem Dev.Canon.mailQueued (hd : d.Canon) {flags : Nat} {h : HostCtx} {p : Bytes} : (d.mailQueued flags h p).Canon := by
  unfold Dev.mailQueued
  extract_lets -underBinder
  split
  · extract_lets -underBinder d1 d2
    have h2 : d2.Canon := hd.inc.inc.touchSub.admitRefused
    split
    · exact h2.sendReply
    · exact h2.sendFrame
  · refine .either hd.inc.admitRefused.sendReply ?_
    extract_lets -underBinder d1
    have h1 : d1.Canon := hd.inc.touchSub
    split
    extract_lets -underBinder _ _ _ _ d2 d3
    have h3 : d3.Canon := h1.keep.sendFrame
    split
    extract_lets -underBinder d4
    have h4 : d4.Canon := h3.admitMail.either h3
    split
    rename_i d5 hv
    have h5 : d5.Canon := .of_snd h4.decideQueued hv
    exact h5.keep.serveQueue

theorem Dev.Canon.mailRecovery (hd : d.Canon) {h : HostCtx} {p : Bytes} : (d.mailRecovery h p).Canon := by
  unfold Dev.mailRecovery
  extract_lets
  exact .either hd (hd.sendReply.either ((hd.decideMail.keep.either hd.decideMail.sendReply).either hd.sendReply))

theorem Dev.Canon.mail (hd : d.Canon) {t flags : Nat} {h : HostCtx} {p : Bytes} : (d.mail t flags h p).Canon := by
  unfold Dev.mail
  extract_lets dd
  have hdd : dd.Canon := hd.at
  refine .either hdd (.either hdd.inc (.either (hdd.mailRecovery.either hdd) (.either hdd.inc.touchSub.mailStop ?_)))
  exact .either hdd.inc (.either hdd.inc.touchSub.mailSafety (.either hdd.inc.touchSub.admitRefused.sendReply hdd.mailQueued))

theorem Dev.Canon.rtsFill (h : d.Canon) {fill : Nat} : (d.rtsFill fill).Canon := h.keep.either h.keep.emit

theorem execSerialGapTimeout_canon (h : s.dev.Canon) {t last n : Nat} : LeavesCanon (execSerialGapTimeout t last n s) :=
  run_canon h fun h => h.at.either h.at.keep.inc.rtsFill

theorem execHuCtsChange_canon (h : s.dev.Canon) {t : Nat} {high : Bool} {fill : Nat} : LeavesCanon (execHuCtsChange t high fill s) :=
  run_canon h fun h => h.at.rtsFill.keep.either (h.at.rtsFill.keep.foldl fun _ h => h.emit)

theorem execBadMailFrame_canon (hs : s.dev.Canon) {t why flags fill : Nat} {h : HostCtx} {p : Bytes} :
    LeavesCanon (execBadMailFrame t why flags fill h p s) := by
  refine runAlways_canon hs fun h => ?_
  extract_lets dd d1 _ d2
  have hdd : dd.Canon := h.at
  have h1 : d1.Canon := hdd.rtsFill.either hdd
  have h2 : d2.Canon := h1.keep
  exact h.mail.either (hdd.either ((h2.inc.either h2).either (h2.either h2.inc)))

theorem execSubscriptionLapse_canon (h : s.dev.Canon) {t : Nat} {ep : Ep} : LeavesCanon (execSubscriptionLapse t ep s) :=
  run_canon h fun h => h.at.keep

theorem execLoadIdleAbandon_canon (h : s.dev.Canon) {t target : Nat} : LeavesCanon (execLoadIdleAbandon t target s) := by
  refine run_canon h fun h => ?_
  extract_lets dd
  have hdd : dd.Canon := h.at
  split
  · extract_lets
    exact ((hdd.deferring (·.abandonLoad)).either hdd.abandonLoad).either hdd
  · exact hdd

theorem Dev.Canon.imageNotice (h : d.Canon) {slot result : Nat} {img : Bytes} : (d.imageNotice slot result img).Canon := h.notice

theorem execImageCheckDone_canon (h : s.dev.Canon) {t other : Nat} : LeavesCanon (execImageCheckDone t other s) := by
  refine run_canon h fun h => ?_
  extract_lets dd
  have hdd : dd.Canon := h.at
  split
  · extract_lets _ d1
    have h1 : d1.Canon := (hdd.setBootSlot.when (·.inc)).imageNotice
    exact h1.loadDecided.serveQueue
  · exact hdd

theorem execRecoveryImageWrite_canon (h : s.dev.Canon) {t : Nat} : LeavesCanon (execRecoveryImageWrite t s) := by
  refine runAlways_canon h fun h => ?_
  extract_lets dd
  have hdd : dd.Canon := h.at
  split
  · extract_lets _ d1
    have h1 : d1.Canon := hdd.loadDecided.serveQueue
    exact hdd.either (h1.setBootSlot.power.resetBy.either h1.setBootSlot)
  · exact hdd

/-! ### The step -/

theorem mailCmd_canon (hs : s.dev.Canon) {t : Nat} {h : HostCtx} {p : Bytes} : LeavesCanon (mailCmd t h p s) :=
  runAlways_canon hs fun h => h.mail

/-- Every command's effect keeps the form: a mail command goes through `Dev.mail`, and each other one has its lemma above. -/
theorem exec_canon (h : s.dev.Canon) (i : Instr) : LeavesCanon (exec i s) := by
  unfold exec
  cases i with
  | get | set | getBlock | setBlock | close | echo | restart | subscribe | authBegin | authProve | loadJobImage | loadCoverageImage
  | loadFirmwareImage | logRead | logClearRequest | logClearConfirm | stop | armRelease | release | replayFeed | snapArm | snapTrigger
  | snapExport | snapDiscard | snapDisarm | journalHold | journalRelease | replayEnter | replayLeave | timStep | tpModeWrite | gnsRunWrite
  | forceCold | staSelftest | refAntWrite | jobStart | jobPause | jobUnload | reseat | hostResWrite | mtrSnap | move | axisStop | resume
  | home | axisClear | canStartRecovery | canAbortHostBuffers | txAbort | canBufWrite | canBufRead | airKeyWrite | airRollWrite
  | pairKeyWrite | plannedHandover | dpxGiveUp | dpxRestart | tlgClear | dormantRequest | provLock | rekey | keyExportRead | activate
  | confirm => exact mailCmd_canon h
  | serialGapTimeout => exact execSerialGapTimeout_canon h
  | huCtsChange => exact execHuCtsChange_canon h
  | authChallengeExpire => exact execAuthChallengeExpire_canon h
  | authLockoutEnd => exact execAuthLockoutEnd_canon h
  | subscriptionLapse => exact execSubscriptionLapse_canon h
  | loadIdleAbandon => exact execLoadIdleAbandon_canon h
  | chutePacketCommit => exact execChutePacketCommit_canon h
  | chuteStall => exact execChuteStall_canon h
  | chuteReadIdleWake => exact execChuteReadIdleWake_canon h
  | chuteFault => exact execChuteFault_canon h
  | cycleBoundary => exact execCycleBoundary_canon h
  | cycleCommit => exact execCycleCommit_canon h
  | trackGenerationDone => exact execTrackGenerationDone_canon h
  | commitOverrun => exact execCommitOverrun_canon h
  | commitMissed => exact execCommitMissed_canon h
  | timeLoad => exact execTimeLoad_canon h
  | sourceLoss => exact execSourceLoss_canon h
  | sourceQualified => exact execSourceQualified_canon h
  | timeLocked => exact execTimeLocked_canon h
  | slewRemeasure => exact execSlewRemeasure_canon h
  | holdoverSecond => exact execHoldoverSecond_canon h
  | stepApply => exact execStepApply_canon h
  | leapApply => exact execLeapApply_canon h
  | oscillatorFault => exact execOscillatorFault_canon h
  | clockMonitorFault => exact execClockMonitorFault_canon h
  | tpModeTakeEffect => exact execTpModeTakeEffect_canon h
  | tpEdge => exact execTpEdge_canon h
  | eventCapture => exact execEventCapture_canon h
  | rtcSet => exact execRtcSet_canon h
  | antBiasSample => exact execAntBiasSample_canon h
  | antBiasRetry => exact execAntBiasRetry_canon h
  | chainSettleEnd => exact execChainSettleEnd_canon h
  | chainFault => exact execChainFault_canon h
  | chainReenable => exact execChainReenable_canon h
  | dumpBoundary => exact execDumpBoundary_canon h
  | epochLatch => exact execEpochLatch_canon h
  | acqSearchDone => exact execAcqSearchDone_canon h
  | pullinTimeout => exact execPullinTimeout_canon h
  | coastExpiry => exact execCoastExpiry_canon h
  | tileFault => exact execTileFault_canon h
  | snapCaptureEnd => exact execSnapCaptureEnd_canon h
  | snapExportEnd => exact execSnapExportEnd_canon h
  | jamIndexUpdate => exact execJamIndexUpdate_canon h
  | notchUpdate => exact execNotchUpdate_canon h
  | selftestTone => exact execSelftestTone_canon h
  | laneTick => exact execLaneTick_canon h
  | voterTick => exact execVoterTick_canon h
  | voterTest => exact execVoterTest_canon h
  | beaconForm => exact execBeaconForm_canon h
  | beaconSelfListen => exact execBeaconSelfListen_canon h
  | stopCopy => exact execStopCopy_canon h
  | estopEdge => exact execEstopEdge_canon h
  | estopTestPulse => exact execEstopTestPulse_canon h
  | estopDiscrepancy => exact execEstopDiscrepancy_canon h
  | canSilence => exact execCanSilence_canon h
  | remoteSilence => exact execRemoteSilence_canon h
  | fenceDeadline => exact execFenceDeadline_canon h
  | laneRecordApply => exact execLaneRecordApply_canon h
  | safeOutTest => exact execSafeOutTest_canon h
  | safeFbMismatch => exact execSafeFbMismatch_canon h
  | safeFaultClear => exact execSafeFaultClear_canon h
  | startupTests => exact execStartupTests_canon h
  | airFrameReceive => exact execAirFrameReceive_canon h
  | reasmExpire => exact execReasmExpire_canon h
  | airFrameTransmit => exact execAirFrameTransmit_canon h
  | ackReceive => exact execAckReceive_canon h
  | ackTimeout => exact execAckTimeout_canon h
  | txQueueExpire => exact execTxQueueExpire_canon h
  | synthUnlock => exact execSynthUnlock_canon h
  | keyRollover => exact execKeyRollover_canon h
  | keyDeliverySend => exact execKeyDeliverySend_canon h
  | linkConfigSend => exact execLinkConfigSend_canon h
  | allotmentRepeat => exact execAllotmentRepeat_canon h
  | heartbeatSend => exact execHeartbeatSend_canon h
  | heartbeatReceive => exact execHeartbeatReceive_canon h
  | linkFail => exact execLinkFail_canon h
  | linkRestore => exact execLinkRestore_canon h
  | peerInput => exact execPeerInput_canon h
  | peerCopy => exact execPeerCopy_canon h
  | peerCheckpoint => exact execPeerCheckpoint_canon h
  | resync => exact execResync_canon h
  | peerStopFwd => exact execPeerStopFwd_canon h
  | giveUpReceive => exact execGiveUpReceive_canon h
  | silentAtBoundary => exact execSilentAtBoundary_canon h
  | takeover => exact execTakeover_canon h
  | heartbeatLossTakeover => exact execHeartbeatLossTakeover_canon h
  | startClaim => exact execStartClaim_canon h
  | claimReceive => exact execClaimReceive_canon h
  | silentRestart => exact execSilentRestart_canon h
  | returnRequest => exact execReturnRequest_canon h
  | portLinkChange => exact execPortLinkChange_canon h
  | bypassJoin => exact execBypassJoin_canon h
  | bypassJoinTimeout => exact execBypassJoinTimeout_canon h
  | bypassDownRelease => exact execBypassDownRelease_canon h
  | ethFrameForward => exact execEthFrameForward_canon h
  | mrpTopologyChange => exact execMrpTopologyChange_canon h
  | ptpSyncSend => exact execPtpSyncSend_canon h
  | ptpAnnounceSend => exact execPtpAnnounceSend_canon h
  | pdelayReqSend => exact execPdelayReqSend_canon h
  | ptpMessageReceive => exact execPtpMessageReceive_canon h
  | ringFault => exact execRingFault_canon h
  | canFrameReceive => exact execCanFrameReceive_canon h
  | canFrameSent => exact execCanFrameSent_canon h
  | canTxError => exact execCanTxError_canon h
  | canRecoveryStart => exact execCanRecoveryStart_canon h
  | canRecoveryDone => exact execCanRecoveryDone_canon h
  | canModeApply => exact execCanModeApply_canon h
  | canRefSchedule => exact execCanRefSchedule_canon h
  | canRefLost => exact execCanRefLost_canon h
  | isoAddressClaim => exact execIsoAddressClaim_canon h
  | canControllerFault => exact execCanControllerFault_canon h
  | mtrBlock => exact execMtrBlock_canon h
  | meteringFault => exact execMeteringFault_canon h
  | gantryCommand => exact execGantryCommand_canon h
  | axisMoveDone => exact execAxisMoveDone_canon h
  | axisStopDone => exact execAxisStopDone_canon h
  | homeInputAccept => exact execHomeInputAccept_canon h
  | homeReleaseLatch => exact execHomeReleaseLatch_canon h
  | limitTrip => exact execLimitTrip_canon h
  | chatter => exact execChatter_canon h
  | followingErrorCheck => exact execFollowingErrorCheck_canon h
  | derrickFault => exact execDerrickFault_canon h
  | taskReady => exact execTaskReady_canon h
  | corePick => exact execCorePick_canon h
  | holdExpire => exact execHoldExpire_canon h
  | taskAge => exact execTaskAge_canon h
  | taskWait => exact execTaskWait_canon h
  | eventPost => exact execEventPost_canon h
  | taskWaitTimeout => exact execTaskWaitTimeout_canon h
  | coreFault => exact execCoreFault_canon h
  | dispatcherFault => exact execDispatcherFault_canon h
  | traceSync => exact execTraceSync_canon h
  | logRecordEnter => exact execLogRecordEnter_canon h
  | logFlush => exact execLogFlush_canon h
  | logBlockFail => exact execLogBlockFail_canon h
  | logRegionRetry => exact execLogRegionRetry_canon h
  | pfailAssert => exact execPfailAssert_canon h
  | pfailRelease => exact execPfailRelease_canon h
  | railMonitorFault => exact execRailMonitorFault_canon h
  | brownout => exact execBrownout_canon h
  | thermalWarning => exact execThermalWarning_canon h
  | thermalVerdict => exact execThermalVerdict_canon h
  | thermalReset => exact execThermalReset_canon h
  | resetPin => exact execResetPin_canon h
  | watchdogReset => exact execWatchdogReset_canon h
  | coldStart => exact execColdStart_canon h
  | boot => exact execBoot_canon h
  | recoveryImageWrite => exact execRecoveryImageWrite_canon h
  | imageCheckDone => exact execImageCheckDone_canon h
  | trialExpire => exact execTrialExpire_canon h
  | wake => exact execWake_canon h
  | dramScrub => exact execDramScrub_canon h
  | memoryFault => exact execMemoryFault_canon h
  | agcUpdate => exact execAgcUpdate_canon h
  | canReceiveError => exact execCanReceiveError_canon h
  | thermalCleared => exact execThermalCleared_canon h
  | chiselUnitFault => exact execChiselUnitFault_canon h
  | slateFault => exact execSlateFault_canon h
  | coverageFault => exact execCoverageFault_canon h
  | rekeySessionEnd => exact execRekeySessionEnd_canon h
  | stopFwdConfirm => exact execStopFwdConfirm_canon h
  | badMailFrame => exact execBadMailFrame_canon h

theorem step_canon (h : s.dev.Canon) : LeavesCanon (step s) := by
  unfold step
  split
  next =>
    rintro _ ⟨⟩
    exact h.idleTick
  next c rest _ => exact exec_canon (s := { s with pending := rest }) h c

end

end Sys2Proof.Machine

namespace Sys2Proof
open Sys2Proof.Machine

/-- The rest of a well-formed queue is well formed. -/
theorem queueWf_tail {s u : State} (h : s.queueWf = true) (hp : u.pending = s.pending.tail) : u.queueWf = true := by
  simp only [State.queueWf, List.all_eq_true] at h ⊢
  exact fun c hc => h c (List.mem_of_mem_tail (hp ▸ hc))

/-- Settles O6: the form is kept by `step_canon`, and the queue is by O3 the rest of the one before. -/
theorem canonicalFormKept : Obligations.CanonicalFormKept := by
  unfold Obligations.CanonicalFormKept
  intro s u hd hq hu
  refine ⟨Dev.canon_iff.1 (step_canon (Dev.canon_iff.2 hd) u hu), queueWf_tail hq ?_⟩
  obtain ⟨v, hv, hp⟩ := everyStepAnswersNext s
  rw [hu] at hv
  cases hv
  exact hp

end Sys2Proof

namespace Sys2Proof
open Sys2Proof.Machine

/-! ### The queue, the reset state and the commit instant -/

/-- Settles O1: the queue is not empty, so `step` is `exec` of its front on the rest. -/
theorem stepRunsTheFrontCommand : Obligations.StepRunsTheFrontCommand := by
  unfold Obligations.StepRunsTheFrontCommand
  intro c s
  rfl

/-- Settles O4: every engine is at its empty state, and each item named reads its reset value. -/
theorem stateAfterReset : Obligations.StateAfterReset := by
  unfold Obligations.StateAfterReset
  refine ⟨rfl, ?tim, rfl, rfl, ?job, ?lanes, rfl, rfl, rfl, rfl, ?chutes, ?prov, ?arb, rfl⟩
  case lanes => decide
  case chutes => exact fun c hc => (List.eq_of_mem_replicate hc) ▸ rfl
  all_goals rfl

/-- An unsigned item with a range takes exactly the values of the range. -/
theorem domOk_rng {p : Param} {n lo hi : Nat} (ht : p.ty = .u n) (hd : p.dom = .rng lo hi) (v : Nat) : domOk p v = true ↔ lo ≤ v ∧ v ≤ hi := by
  simp only [domOk, hd, ht, Bool.and_eq_true, decide_eq_true_eq, Int.ofNat_le]

/-- Settles O9: `commitAt` is the formula of R21, and the row of `CYC.HORIZON` in the table gives reset value and range. -/
theorem commitInstantOfACycle : Obligations.CommitInstantOfACycle := by
  unfold Obligations.CommitInstantOfACycle
  exact ⟨fun _ _ => rfl, rfl, _, rfl, rfl, domOk_rng (n := 1) (lo := 2) (hi := 40) rfl rfl⟩

/-! ### A cycle boundary while a core runs -/

/-- A unit that commits from cycle 0 on, alone, with task 1 running on core 0 since hub time 0. -/
def runningCore : State where
  dev := { (State.reset.dev.wr P.DPX_STATE 0 1).wr P.TIM_STATE 0 1 with
    cyc := { origin := some 0 }
    dsp := { cores := { state := 1, task := 1 } :: List.replicate 11 {} } }

/-- The boundary of cycle 1 adds the 50,000 µs that core 0 was busy to its observation counter (R413, Table 15.3). -/
theorem cycleBoundary_counts_runningCore :
    ∃ u : State, exec (.cycleBoundary cycleNs) runningCore = .next u ∧ u.dev.tlg.ctrs = [(0, 50000)] :=
  ⟨_, rfl, by decide +kernel⟩

/-- Refutes O42: its first clause leaves the observation counters as they were, but a boundary adds the busy time of a running core to one. -/
theorem not_cyclesAndCommits : ¬ Obligations.CyclesAndCommits := by
  unfold Obligations.CyclesAndCommits
  rintro ⟨boundary, -⟩
  obtain ⟨u, hu, -, -, -, -, -, -, hrest, -⟩ :=
    boundary runningCore cycleNs 0 rfl rfl rfl rfl (by decide) (by decide) (by decide)
  obtain ⟨v, hv, hctrs⟩ := cycleBoundary_counts_runningCore
  obtain rfl : u = v := Host.Outcome.next.inj (hu.symm.trans hv)
  have hkept : u.dev.tlg.ctrs = [] := congrArg (·.tlg.ctrs) hrest
  rw [hctrs] at hkept
  cases hkept

/-! ### A command of cycle 0 -/

/-- A session of level OPERATE. -/
def operatorSession : Session := { pending := false, level := 1, ks := zeros 32 }

/-- A unit that commits from cycle 0 on and has committed none yet, with a session open. -/
def firstCycle : State where
  dev := { (State.reset.dev.wr P.DPX_STATE 0 1).wr P.TIM_STATE 0 1 with
    cyc := { origin := some 0, next := 0 }
    host := { slots := [some operatorSession, none, none, none] } }

/-- A frame of mailbox 1 with the `SNAPSHOT` command ARM, under the trailer of that session. -/
def armFrame : HostCtx where
  mbx := 1
  trailer := some (1, smac operatorSession.ks (mailHead 1 ((snapBytes true 1).length + 12) 0 1 1) (snapBytes true 1) 1)

/-- The frame passes every check of R371 to R377, so that the hypotheses of O49 hold of it. -/
theorem armFrame_accepted : Accepted true firstCycle.dev 0 armFrame (snapBytes true 1) 1 (some 0) := by
  have heard : Heard firstCycle.dev armFrame (snapBytes true 1) := ⟨rfl, rfl, by decide, by decide, by decide⟩
  have signed : Signed firstCycle.dev 0 armFrame (snapBytes true 1) 1 (some 0) :=
    .inr ⟨1, 0, operatorSession, rfl, by decide, by decide +kernel, rfl, rfl⟩
  exact ⟨heard, by decide, by decide, by decide, rfl, fun _ => ⟨rfl, Nat.zero_le _⟩, rfl, rfl, signed⟩

/-- The command belongs to cycle 0 and is served up to the cycle before `next`, which the subtraction of natural numbers makes cycle 0 as well: it is
answered on receipt. -/
theorem snapArm_firstCycle_answered :
    ∃ u : State, exec (.snapArm 0 armFrame true) firstCycle = .next u ∧ u.dev.host.queue = [] :=
  ⟨_, rfl, by decide +kernel⟩

/-- Refutes O49: a command that is admitted to cycle 0 while that cycle is the next to be committed does not wait for its commit (R374, R376). -/
theorem not_snapshotsAndReplay : ¬ Obligations.SnapshotsAndReplay := by
  unfold Obligations.SnapshotsAndReplay
  rintro ⟨arm, -⟩
  obtain ⟨u, hu, -, ⟨q, -, -, hq, -⟩, -⟩ := arm firstCycle 0 armFrame 1 (some 0) true armFrame_accepted (by decide) rfl
  obtain ⟨v, hv, hempty⟩ := snapArm_firstCycle_answered
  obtain rfl : u = v := Host.Outcome.next.inj (hu.symm.trans hv)
  rw [hempty] at hq
  cases hq

end Sys2Proof

namespace Sys2Proof
open Sys2Proof.Machine

/-! ### The tick of hub time -/

/-- Hub time with its fraction, in steps of 2^-32 ns: a tick of R50 adds the increment, modulo 2^48 s. -/
theorem advance_time (d : Dev) : d.advance.now * 2 ^ 32 + d.advance.tim.frac =
    (d.now * 2 ^ 32 + d.tim.frac + d.rd P.TIM_INCR) % (2 ^ 48 * 1000000000 * 2 ^ 32) := by
  simp only [Dev.advance, sec_eq]
  omega

/-- Settles O2: a running unit's idle step is `Dev.advance`, and a unit without clocks is left as it is. -/
theorem idleStepIsOneTick : Obligations.IdleStepIsOneTick := by
  unfold Obligations.IdleStepIsOneTick
  have idle (s : State) (hp : s.pending = []) : step s = .next { s with dev := s.dev.idleTick } := by rw [step, hp]
  refine ⟨fun s hp hup => ⟨_, idle s hp, hp, ?_⟩, fun s hp hup => ?_⟩
  · rw [Dev.idleTick, if_pos hup]
    exact ⟨advance_time s.dev, rfl⟩
  · rw [idle s hp, Dev.idleTick, hup]
    rfl

/-! ### The time unit's operations -/

/-- A command whose meaning is `run` acts on the device of a running unit and leaves the queue. -/
theorem completes_run {c : Instr} {s : State} (e : State → Host.Outcome State Fault Refusal) {f : Dev → Dev} {d : Dev} {Q : Dev → Prop}
    (hc : exec c s = e s) (he : e s = run s f) (hup : s.dev.up = true) (hd : f s.dev = d) (hQ : Q d) : Completes c s Q :=
  ⟨{ s with dev := d }, by rw [hc, he, run, runAlways, if_pos hup, hd], rfl, hQ⟩

@[simp] theorem rd_timeState_self (d : Dev) (n : Nat) : (d.timeState n).rd P.TIM_STATE 0 = n := by
  unfold Dev.timeState
  by_cases h : d.rd P.TIM_STATE = n
  · simp (disch := decide) [h, judge_reads]
  · simp (disch := decide) [h, judge_reads, noticeT_reads]

/-! ### Measurements of hub time -/

/-- R51: the increment stays between 3.999 6 ns and 4.000 4 ns. -/
theorem setIncr_bounds (d : Dev) :
    39996 * 2 ^ 32 ≤ 10000 * d.setIncr.rd P.TIM_INCR ∧ 10000 * d.setIncr.rd P.TIM_INCR ≤ 40004 * 2 ^ 32 := by
  simp only [Dev.setIncr, rd_wr]
  omega

@[simp] theorem setIncr_fields (d : Dev) : d.setIncr.rest = d.rest ∧ d.setIncr.tim = d.tim ∧ d.setIncr.now = d.now := ⟨rfl, rfl, rfl⟩

theorem rd_setIncr_ne (d : Dev) {id : Nat} (h : P.TIM_INCR ≠ id) (i : Nat) : d.setIncr.rd id i = d.rd id i := rd_wr_ne d h _ _ _

theorem itemsBut_setIncr {ids : List Nat} {ks : List (Nat × Nat)} (h : P.TIM_INCR ∈ ids ∨ (P.TIM_INCR, 0) ∈ ks) (d e : Dev) :
    ItemsBut ids ks d.setIncr e ↔ ItemsBut ids ks d e := itemsBut_wr h d e _

/-- `TIM.OFFSET` is a signed item of four bytes. -/
theorem wrS_offset (d : Dev) (z : Int) : d.wrS P.TIM_OFFSET 0 z = d.wr P.TIM_OFFSET 0 (ofS 32 z) := rfl

/-- A measurement writes offset, uncertainty and increment, and judges the degraded flag. -/
theorem measure_items (d : Dev) (offset : Int) (unc freq : Nat) :
    ItemsBut [] [(P.TIM_UNC, 0), (P.TIM_OFFSET, 0), (P.TIM_INCR, 0), (P.TIM_DEGRADED, 0)] (d.measure offset unc freq) d := by
  simp [Dev.measure, wrS_offset, itemsBut_judge, itemsBut_setIncr, itemsBut_wr]

@[simp] theorem measure_rest (d : Dev) (offset : Int) (unc freq : Nat) :
    (d.measure offset unc freq).rest = { d.rest with tim := (d.measure offset unc freq).tim } := judge_rest _

@[simp] theorem measure_tim (d : Dev) (offset : Int) (unc freq : Nat) :
    (d.measure offset unc freq).tim.lastMeas = some d.now ∧ (d.measure offset unc freq).tim.remain = offset ∧
    (d.measure offset unc freq).tim.slew = (if d.rd P.TIM_STATE = 2 then 0 else d.slewFor offset) ∧
    (d.measure offset unc freq).tim.freq = freq ∧ (d.measure offset unc freq).tim.countFrom = d.tim.countFrom := by
  simp [Dev.measure, wrS_offset]

theorem rd_measure_offset (d : Dev) (offset : Int) (unc freq : Nat) :
    (d.measure offset unc freq).rd P.TIM_OFFSET = ofS 32 (satS 32 offset) := by
  simp (disch := decide) [Dev.measure, wrS_offset, judge_reads, rd_setIncr_ne, rd_wr_ne]

theorem rd_measure_unc (d : Dev) (offset : Int) (unc freq : Nat) : (d.measure offset unc freq).rd P.TIM_UNC = min unc 0xFFFFFFFF := by
  simp (disch := decide) [Dev.measure, judge_reads, rd_setIncr_ne]

/-- R51: the increment that a measurement sets keeps the bounds. -/
theorem measure_incr_bounds (d : Dev) (offset : Int) (unc freq : Nat) :
    39996 * 2 ^ 32 ≤ 10000 * (d.measure offset unc freq).rd P.TIM_INCR ∧ 10000 * (d.measure offset unc freq).rd P.TIM_INCR ≤ 40004 * 2 ^ 32 := by
  rw [Dev.measure, (judge_reads _ P.TIM_INCR 0 (by decide) (by decide)).1]
  exact setIncr_bounds _

/-- A measurement leaves every other item of the time unit. -/
theorem measure_rd_ne (d : Dev) (offset : Int) (unc freq : Nat) {id : Nat} (hr : reportItem id = false) (hunc : P.TIM_UNC ≠ id)
    (hofs : P.TIM_OFFSET ≠ id) (hincr : P.TIM_INCR ≠ id) (hdeg : P.TIM_DEGRADED ≠ id) (i : Nat) :
    (d.measure offset unc freq).rd id i = d.rd id i :=
  (measure_items d offset unc freq id i hr (List.not_mem_nil) (by simp [regKey_ne, *])).1

/-! ### Sources and HOLDOVER -/

/-- The device with its list of qualified sources replaced (R53). -/
abbrev Machine.Dev.withQualified (d : Dev) (l : List Nat) : Dev := { d with tim := { d.tim with qualified := l } }

theorem abandonStep_none {d : Dev} (h : d.tim.stepAt = none) (cause : Nat) : d.abandonStep cause = d := by
  rw [Dev.abandonStep, h]

/-- Without a qualified source none is preferred (R53). -/
theorem preferred_none {d : Dev} (h : d.tim.qualified = []) : d.preferred = none := by
  simp [Dev.preferred, h]

/-- GNSS goes before every other source (R53). -/
theorem preferred_gnss {d : Dev} (hq : 1 ∈ d.tim.qualified) (hok : d.sourceOk 1 = true) : d.preferred = some 1 := by
  simp [Dev.preferred, hq, hok]

/-- R53: in COARSE, with no STEP armed, another source is measured and the time counted toward LOCKED starts again. -/
theorem changeSource_eq_measure {d : Dev} (hstep : d.tim.stepAt = none) (hst : d.rd P.TIM_STATE = 1) (src : Nat) (offset : Int) (unc : Nat) :
    d.changeSource src offset unc =
      { d.wr P.TIM_SOURCE 0 src with tim := { d.tim with countFrom := d.now, lastMeas := some d.now } }.measure offset unc d.tim.freq := by
  have h1 : (d.wr P.TIM_SOURCE 0 src).rd P.TIM_STATE = 1 := (rd_wr_ne d (by decide) _ _ _).trans hst
  unfold Dev.changeSource
  simp [abandonStep_none hstep, h1]

/-- R53: what a change of source in COARSE does where no STEP is armed. -/
theorem changeSource_coarse_spec {d : Dev} (hstep : d.tim.stepAt = none) (hst : d.rd P.TIM_STATE = 1) (src : Nat) (offset : Int) (unc : Nat) :
    (d.changeSource src offset unc).rd P.TIM_SOURCE = src ∧ (d.changeSource src offset unc).rd P.TIM_STATE = 1 ∧
    (d.changeSource src offset unc).rd P.TIM_UNC = min unc 0xFFFFFFFF ∧ (d.changeSource src offset unc).tim.countFrom = d.now ∧
    (d.changeSource src offset unc).tim.remain = offset ∧
    (d.changeSource src offset unc).rest = { d.rest with tim := (d.changeSource src offset unc).tim } ∧
    ItemsBut [] [(P.TIM_SOURCE, 0), (P.TIM_UNC, 0), (P.TIM_OFFSET, 0), (P.TIM_INCR, 0), (P.TIM_DEGRADED, 0)] (d.changeSource src offset unc) d := by
  rw [changeSource_eq_measure hstep hst]
  refine ⟨?source, ?state, rd_measure_unc .., by simp, by simp, measure_rest .., ?items⟩
  case source => simp (disch := decide) [measure_rd_ne]
  case state => simp (disch := decide) [measure_rd_ne, rd_wr_ne, hst]
  case items =>
    refine ((measure_items _ _ _ _).mono (by simp) (by simp)).trans ?_
    simp [itemsBut_wr]

section
variable {d : Dev} (hst : d.rd P.TIM_STATE = 1 ∨ d.rd P.TIM_STATE = 2 ∨ d.rd P.TIM_STATE = 4)
include hst

/-- R55: what HOLDOVER shows when it is entered from COARSE, LOCKED or RECOVERING. -/
theorem enterHoldover_reads : d.enterHoldover.rd P.TIM_STATE = 3 ∧ d.enterHoldover.rd P.TIM_SOURCE = 0 ∧
    d.enterHoldover.rd P.TIM_HOLD_ELAPSED = 0 ∧
    d.enterHoldover.rd P.TIM_UNC = (if d.rd P.TIM_STATE = 1 then d.cf P.TIM_UNC_LIMIT else d.rd P.TIM_UNC) := by
  unfold Dev.enterHoldover
  rcases hst with hst | hst | hst <;> simp (disch := decide) [hst, timeState_reads, rd_wr_ne]

/-- R55: the slew is abandoned and its remainder recorded. -/
theorem enterHoldover_tim : d.enterHoldover.tim.slew = 0 ∧ d.enterHoldover.tim.holdRemain = d.tim.remain ∧
    d.enterHoldover.tim.qualified = d.tim.qualified := by
  unfold Dev.enterHoldover
  rcases hst with hst | hst | hst <;> simp [hst]

end

theorem enterHoldover_rest (d : Dev) : d.enterHoldover.rest = { d.rest with tim := d.enterHoldover.tim } := by
  unfold Dev.enterHoldover
  dsimp only
  split
  · rw [timeState_rest]
    rfl
  · rfl

theorem enterHoldover_items (d : Dev) : ItemsBut [] [(P.TIM_STATE, 0), (P.TIM_SOURCE, 0), (P.TIM_HOLD_ELAPSED, 0), (P.TIM_UNC, 0), (P.TIM_INCR, 0),
    (P.TIM_DEGRADED, 0)] d.enterHoldover d := by
  unfold Dev.enterHoldover
  dsimp only
  split
  · simp [itemsBut_timeState, itemsBut_wr, itemsBut_setIncr]
  · exact itemsBut_self _ _ _

/-- Settles O12: each clause's hypotheses are the guard of its command, and the effect is that of the time unit's operations. -/
theorem hubTimeSources : Obligations.HubTimeSources := by
  unfold Obligations.HubTimeSources
  refine ⟨?load, ?loss, ?qualified, ?taken, ?second⟩
  case load =>
    intro s t src time unc hup hst hok
    refine completes_run (execTimeLoad t src time unc) rfl rfl hup (if_pos (by simp [hst, hok])) ?_
    simp (disch := decide) [timeState_reads, rd_wr_ne, itemsBut_timeState, itemsBut_wr]
  case loss =>
    intro s t src last hup hlast hsrc hst hq hstep
    have hnone : s.dev.tim.qualified.filter (· != src) = [] := by simpa using hq
    have hst0 : s.dev.rd P.TIM_STATE ≠ 0 ∧ s.dev.rd P.TIM_STATE ≠ 3 := by omega
    refine completes_run (d := ((s.dev.at t).withQualified []).enterHoldover)
      (execSourceLoss t src last) rfl rfl hup ?_ ?_
    · refine (if_pos hlast).trans ?_
      extract_lets _ d1 d2
      have hd1 : d1 = (s.dev.at t).withQualified [] := congrArg (s.dev.at t).withQualified hnone
      have hd2 : d2 = (s.dev.at t).withQualified [] := (abandonStep_none (d := d1) hstep 1).trans hd1
      rw [if_pos, hd2, preferred_none rfl]
      simp only [Bool.and_eq_true, bne_iff_ne, decide_eq_true_eq]
      exact ⟨⟨hsrc, hst0.1⟩, hst0.2⟩
    · obtain ⟨h3, hsrc0, helapsed, hunc⟩ := enterHoldover_reads (d := (s.dev.at t).withQualified []) hst
      obtain ⟨hslew, hremain, hqual⟩ := enterHoldover_tim (d := (s.dev.at t).withQualified []) hst
      exact ⟨h3, hsrc0, helapsed, hunc, hslew, hremain, hqual, enterHoldover_rest _, enterHoldover_items _⟩
  case qualified =>
    intro s t src since offset unc hup hsince hok hst
    refine completes_run (execSourceQualified t src since offset unc) rfl rfl hup (if_pos (by simp [hsince, hok])) ?_
    rcases hst with hst | hst <;> simp [hst]
  case taken =>
    intro s t since offset unc hup hsince hok hst hsrc hstep
    have hpref : ((s.dev.at t).withQualified (1 :: s.dev.tim.qualified.filter (· != 1))).preferred = some 1 :=
      preferred_gnss List.mem_cons_self hok
    refine completes_run (d := ((s.dev.at t).withQualified (1 :: s.dev.tim.qualified.filter (· != 1))).changeSource 1 offset unc)
      (execSourceQualified t 1 since offset unc) rfl rfl hup ((if_pos (by simp [hsince, hok])).trans (if_pos ?_)) ?_
    · simp only [Bool.and_eq_true, bne_iff_ne, beq_iff_eq]
      exact ⟨⟨fun h => absurd (hst.symm.trans h) (by decide), hpref⟩, hsrc⟩
    · obtain ⟨hsrc, hst, hunc, hcount, hremain, hrest, hitems⟩ :=
        changeSource_coarse_spec (d := (s.dev.at t).withQualified (1 :: s.dev.tim.qualified.filter (· != 1))) hstep hst 1 offset unc
      exact ⟨hsrc, hst, hunc, hcount, hremain, hrest, hitems⟩
  case second =>
    intro s t hup hst
    refine completes_run (execHoldoverSecond t) rfl rfl hup (if_pos hst) ?_
    simp (disch := decide) [hst, judge_reads, rd_wr_ne, itemsBut_judge, itemsBut_wr]

/-! ### Discipline -/

/-- Settles O13: LOCKED and the measurement go by `Dev.measure`, the leap by a value the device sets itself, a source not in use is only barred, and a
clock fault ends in the verdict. -/
theorem hubTimeDiscipline : Obligations.HubTimeDiscipline := by
  unfold Obligations.HubTimeDiscipline
  refine ⟨?locked, ?measured, ?leap, ?barred, ?untrusted⟩
  case locked =>
    intro s t since offset unc hup hst hofs hfrom hsince
    obtain ⟨d1, hd1⟩ : ∃ d1, d1 = (({ s.dev.at t with tim := { s.dev.tim with slew := 0 } } : Dev).wr P.TIM_UNC 0 (min unc 0xFFFFFFFF)).timeState 2 :=
      ⟨_, rfl⟩
    have hstate : d1.rd P.TIM_STATE = 2 := hd1 ▸ rd_timeState_self ..
    have hrest : d1.rest = { s.dev.rest with now := max s.dev.now t, tim := d1.tim } := hd1 ▸ timeState_rest ..
    have hitems : ItemsBut [] [(P.TIM_STATE, 0), (P.TIM_UNC, 0), (P.TIM_DEGRADED, 0)] d1 s.dev := by
      simp [hd1, itemsBut_timeState, itemsBut_wr]
    refine completes_run (d := d1.measure offset unc d1.tim.freq) (execTimeLocked t since offset unc) rfl rfl hup ?_ ?_
    · rw [hd1]
      refine if_pos ?_
      simp only [Bool.and_eq_true, Bool.or_eq_true, decide_eq_true_eq]
      exact ⟨⟨⟨hst, hofs⟩, hfrom⟩, hsince⟩
    · refine ⟨?_, rd_measure_unc .., by simp [hstate], by simp, ?_, ?_⟩
      · simp (disch := decide) [measure_rd_ne, hstate]
      · rw [measure_rest, hrest]
      · exact ((measure_items _ _ _ _).mono (by simp) (by simp)).trans (hitems.mono (by simp) (by simp))
  case measured =>
    intro s t offset unc freq hup hst
    refine completes_run (execSlewRemeasure t offset unc freq) rfl rfl hup (if_pos ?_) ?_
    · simp only [Bool.or_eq_true, decide_eq_true_eq, or_assoc]
      exact hst
    · obtain ⟨hlast, hremain, hslew, hfreq, -⟩ := measure_tim (s.dev.at t) offset unc freq
      obtain ⟨hlo, hhi⟩ := measure_incr_bounds (s.dev.at t) offset unc freq
      exact ⟨rd_measure_offset .., rd_measure_unc .., hfreq, hremain, hlast, fun h => hslew.trans (if_pos h), hlo, hhi, measure_rest ..,
        measure_items _ _ _ _⟩
  case leap =>
    intro s t hup hleap hat
    refine completes_run (execLeapApply t none) rfl rfl hup (if_pos ?_) ?_
    · simp only [Bool.and_eq_true, bne_iff_ne, decide_eq_true_eq]
      exact ⟨hleap, hat⟩
    · simp (disch := decide) [Dev.selfSet, rd_wr_ne, itemsBut_wr]
  case barred =>
    intro s t ppb src hup hppb hsrc
    refine completes_run (execOscillatorFault t ppb src) rfl rfl hup ((if_pos hppb).trans (if_neg ?_)) ?_
    · simp (disch := decide) [notice_reads, faultLast_reads, hsrc]
    · simp
  case untrusted =>
    intro s t cause count prev hup hcause
    refine completes_run (execClockMonitorFault t cause count prev) rfl rfl hup (if_pos (by rcases hcause with h | h <;> simp [h])) ?_
    simp (disch := decide) [verdict_reads, notice_reads, faultLast_reads, rd_inc_ne]

/-! ### Pulses and captures -/

/-- An edge of a time pulse leaves its output, is noted and counted (R62, R64). -/
def Machine.Dev.edgeOut (d : Dev) (o n sched width fine : Nat) : Dev :=
  ({ d with tim := { d.tim with tpDone := upd d.tim.tpDone o (noteEdge n) } }.inc P.TIM_TP_EMITTED o).emit (.pulse o n sched width fine)

section
variable (d : Dev) (o n sched width fine : Nat)

theorem edgeOut_out : (d.edgeOut o n sched width fine).out = d.out ++ [.pulse o n sched width fine] := by
  simp [Dev.edgeOut, Dev.emit, Output.chute]

theorem edgeOut_tim : (d.edgeOut o n sched width fine).tim = { d.tim with tpDone := upd d.tim.tpDone o (noteEdge n) } := by
  simp [Dev.edgeOut]

theorem edgeOut_rest : (d.edgeOut o n sched width fine).rest = { d.rest with tim := (d.edgeOut o n sched width fine).tim } := by
  simp [Dev.edgeOut]

theorem edgeOut_items : ItemsBut [] [(P.TIM_TP_EMITTED, o)] (d.edgeOut o n sched width fine) d := by
  simp [Dev.edgeOut, itemsBut_inc]

end

/-- R62, R64: a PPS edge is emitted when it is due, was not emitted before and is not suppressed. -/
theorem tpEdge_pps {s : State} {t o n : Nat} (hup : s.dev.up = true) (hmode : nth s.dev.tim.tpMode o = 1) (hset : s.dev.timeSet = true)
    (hdue : n * sec ≤ max s.dev.now t) (hdelay : s.dev.cfS P.TIM_TP_DELAY o = 0) (hnew : emitted n (nth s.dev.tim.tpDone o) = false)
    (hsup : nth s.dev.tim.tpSuppress o = none) :
    ∃ width fine, exec (.tpEdge t o n) s = .next { s with dev := (s.dev.at t).edgeOut o n (n * sec) width fine } := by
  generalize hd : s.dev.at t = d
  have hedge : d.edgeAt o n = some (n * sec) := by simp [← hd, Dev.edgeAt, hmode]
  have hdue : ¬ (d.now : Int) * 16 + 64 < ((n * sec * 16 : Nat) : Int) - (if o < 2 then d.cfS P.TIM_TP_DELAY o else 0) := by
    have hdelay : d.cfS P.TIM_TP_DELAY o = 0 := hd ▸ hdelay
    rw [hdelay, ite_self, ← hd, now_at]
    omega
  have hmode : nth d.tim.tpMode o = 1 := hd ▸ hmode
  have hset : d.timeSet = true := hd ▸ hset
  have hnew : emitted n (nth d.tim.tpDone o) = false := hd ▸ hnew
  have hsup : nth d.tim.tpSuppress o = none := hd ▸ hsup
  refine ⟨?width, ?fine, ?emits⟩
  case emits =>
    change execTpEdge t o n s = _
    simp only [execTpEdge, run, runAlways, hup, if_true, hd, hedge, hmode, hset, hnew, hsup]
    rw [if_neg hdue, if_neg (by decide), if_neg (by decide), if_neg (by decide), if_neg (by decide)]
    rfl

/-- Settles O14: a mode that waits is taken over, a PPS edge that is due goes by `tpEdge_pps`, and an accepted edge is offered to Chute 11. -/
theorem pulsesAndCaptures : Obligations.PulsesAndCaptures := by
  unfold Obligations.PulsesAndCaptures
  refine ⟨?mode, ?edge, ?capture⟩
  case mode =>
    intro s t o mode at_ hup hpend hat
    refine completes_run (execTpModeTakeEffect t o) rfl rfl hup (by simp only [at_fields, hpend]; exact if_pos hat) ?_
    simp
  case edge =>
    intro s t o n hup hmode hset hdue hdelay hnew hsup
    obtain ⟨width, fine, hd⟩ := tpEdge_pps hup hmode hset hdue hdelay hnew hsup
    exact ⟨_, hd, rfl, ⟨width, fine, edgeOut_out ..⟩, edgeOut_tim .., edgeOut_rest .., edgeOut_items _ _ _ _ _ _⟩
  case capture =>
    intro s t i edge half hup hi hedge hsel hlast hwait
    refine completes_run (execEventCapture t i edge half) rfl rfl hup ((if_pos ?_).trans (if_neg ?_)) ?_
    · simp [hi, hedge, hsel, hlast]
    · simp [hwait]
    · refine ⟨rfl, ⟨_, _, rfl, rfl⟩, rfl, ?_⟩
      simp [itemsBut_offer]

end Sys2Proof

namespace Sys2Proof
open Sys2Proof.Machine

/-! ### Lists with one element changed -/

/-- The element set, read at its place. -/
theorem nth_set_self {α : Type} [Inhabited α] {l : List α} {i : Nat} (h : i < l.length) (a : α) : nth (l.set i a) i = a := by
  simp [nth, h]

/-- The element changed, read at its place. -/
theorem nth_upd_self {α : Type} [Inhabited α] {l : List α} {i : Nat} (h : i < l.length) (f : α → α) : nth (upd l i f) i = f (nth l i) := by
  simp [nth, upd, h]

/-! ### A counter advanced under a condition -/

section
variable (d : Dev) (b : Bool) (id i : Nat)

/-- The counter's own value. -/
theorem rd_when_inc_self : (d.when b (·.inc id i)).rd id i = if b then bumped id (d.rd id i) else d.rd id i := by
  cases b
  · rfl
  · exact rd_inc_self d id i

@[simp] theorem when_inc_kept : Kept (d.when b (·.inc id i)) d := by
  cases b
  · exact kept_of_rest rfl
  · exact inc_kept d id i

variable {id}

theorem rd_when_inc_ne {a : Nat} (h : id ≠ a) (j : Nat) : (d.when b (·.inc id i)).rd a j = d.rd a j := by
  cases b
  · rfl
  · exact rd_inc_ne d h i j

theorem itemsBut_when_inc {ids : List Nat} {ks : List (Nat × Nat)} {i : Nat} (h : id ∈ ids ∨ (id, i) ∈ ks) (e : Dev) :
    ItemsBut ids ks (d.when b (·.inc id i)) e ↔ ItemsBut ids ks d e := by
  cases b
  · exact Iff.rfl
  · exact itemsBut_inc h d e

end

/-! ### Antenna bias -/

section
variable (d : Dev) (i s ma : Nat)

@[simp] theorem rd_antState_self : (d.antState i s ma).rd P.GNS_ANT_STATE i = s := by
  unfold Dev.antState
  by_cases h : d.rd P.GNS_ANT_STATE i = s
  · simp [h]
  · simp (disch := decide) [h, noticeT_reads]

/-- R71: a change of an antenna's state leaves the instants at which a short switched a bias off. -/
@[simp] theorem antState_biasOff : (d.antState i s ma).gns.biasOff = d.gns.biasOff := by
  unfold Dev.antState
  dsimp only
  repeat' split
  all_goals simp

end

/-- R71: a reading up to 120 mA is shown, and the state it stands for. -/
theorem judgeBias_sound {ma : Nat} (h : ma ≤ 1200) (d : Dev) (i : Nat) :
    (d.judgeBias i ma).rd P.GNS_ANT_MA i = ma ∧ (d.judgeBias i ma).rd P.GNS_ANT_STATE i = biasState ma ∧
    ItemsBut [] [(P.GNS_ANT_MA, i), (P.GNS_ANT_STATE, i)] (d.judgeBias i ma) d := by
  rw [Dev.judgeBias, if_neg (Nat.not_lt.2 h)]
  refine ⟨?shown, rd_antState_self .., ?items⟩
  case shown => simp (disch := decide) [antState_reads]
  case items => simp [itemsBut_antState, itemsBut_wr]

/-- R71: a reading beyond 120 mA is a short, which switches the bias off and counts. -/
theorem judgeBias_short {ma : Nat} (h : 1200 < ma) (d : Dev) {i : Nat} (hi : i < d.gns.biasOff.length) :
    (d.judgeBias i ma).rd P.GNS_ANT_MA i = ma ∧ (d.judgeBias i ma).rd P.GNS_ANT_STATE i = 3 ∧
    (d.judgeBias i ma).rd P.GNS_ANT_SHORTS i = bumped P.GNS_ANT_SHORTS (d.rd P.GNS_ANT_SHORTS i) ∧
    nth (d.judgeBias i ma).gns.biasOff i = d.now ∧
    ItemsBut [] [(P.GNS_ANT_MA, i), (P.GNS_ANT_STATE, i), (P.GNS_ANT_SHORTS, i)] (d.judgeBias i ma) d := by
  rw [Dev.judgeBias, if_pos h]
  refine ⟨?shown, rd_antState_self .., ?count, ?off, ?items⟩
  case shown => simp (disch := decide) [antState_reads, rd_inc_ne]
  case count => simp (disch := decide) [antState_reads, rd_inc_self, rd_wr_ne]
  case off => simp [nth_set_self hi]
  case items => simp [itemsBut_antState, itemsBut_inc, itemsBut_wr]

/-- R71: a reading of an antenna with bias that is not SHORT is judged, where its peak stays below 150 mA. -/
theorem antBiasSample_judges {s : State} {t i ma peak : Nat} (hup : s.dev.up = true) (hi : i < 2) (hen : s.dev.cf P.GNS_ANT_EN i = 1)
    (hbias : s.dev.cf P.GNS_ANT_BIAS i = 1) (hst : s.dev.rd P.GNS_ANT_STATE i ≠ 3) (hpeak : peak ≤ 1500) :
    exec (.antBiasSample t i ma peak) s = .next { s with dev := (s.dev.at t).judgeBias i ma } := by
  change execAntBiasSample t i ma peak s = _
  simp [execAntBiasSample, run, runAlways, hup, Nat.not_le.2 hi, hen, hbias, hst, Nat.not_lt.2 hpeak]

/-! ### Band chains -/

@[simp] theorem rd_chainState_self (d : Dev) (c s cause : Nat) : (d.chainState c s cause).rd P.GNS_CHAIN_STATE c = s := by
  unfold Dev.chainState
  by_cases h : d.rd P.GNS_CHAIN_STATE c = s
  · simp [h]
  · simp (disch := decide) [h, noticeT_reads]

/-- R73: the instant of a change of state is noted. -/
theorem chainState_gns {d : Dev} {c s : Nat} (h : d.rd P.GNS_CHAIN_STATE c ≠ s) (cause : Nat) :
    (d.chainState c s cause).gns = { d.gns with chainSince := d.gns.chainSince.set c d.now } := by
  simp [Dev.chainState, h]

/-- R73: what a chain's change of state does, to the chain and to everything else. -/
theorem chainState_changes {d : Dev} {c s : Nat} (h : d.rd P.GNS_CHAIN_STATE c ≠ s) (cause : Nat) :
    (d.chainState c s cause).rd P.GNS_CHAIN_STATE c = s ∧
    (d.chainState c s cause).gns = { d.gns with chainSince := d.gns.chainSince.set c d.now } ∧
    (d.chainState c s cause).rest = { d.rest with gns := (d.chainState c s cause).gns } ∧
    ItemsBut [] [(P.GNS_CHAIN_STATE, c)] (d.chainState c s cause) d :=
  ⟨rd_chainState_self .., chainState_gns h cause, chainState_rest .., (chainState_spec ..).2⟩

/-- The channels of a chain that changes its state are those of before. -/
theorem chainState_chans (d : Dev) (c s cause : Nat) : (d.chainState c s cause).gns.chans = d.gns.chans := by
  by_cases h : d.rd P.GNS_CHAIN_STATE c = s
  · simp [Dev.chainState, h]
  · rw [chainState_gns h]

/-- A change of the signal path alone under a condition is one change. -/
theorem ite_withGns (p : Prop) [Decidable p] (d : Dev) (x : Gns) :
    (if p then { d with gns := x } else d) = { d with gns := if p then x else d.gns } := by
  split
  · rfl
  · rfl

/-- R73: the gain of a chain is set, and a millisecond with too many samples at the ends of the range counts. -/
def Machine.Dev.gainSet (d : Dev) (c g clip : Nat) : Dev := (d.wr P.GNS_AGC_DB c g).when (1000 < clip) (·.inc P.GNS_ADC_CLIP c)

/-- R73: whatever the capture and the station note of it, gain and count stand as they were set. -/
theorem gainSet_noted (d : Dev) (c g clip : Nat) (x : Gns) {u : Dev} (hu : u = { d.gainSet c g clip with gns := x }.noteGain c g) :
    u.rd P.GNS_AGC_DB c = g ∧
    u.rd P.GNS_ADC_CLIP c = (if 1000 < clip then bumped P.GNS_ADC_CLIP (d.rd P.GNS_ADC_CLIP c) else d.rd P.GNS_ADC_CLIP c) ∧
    u.rest = { d.rest with gns := u.gns } ∧ ItemsBut [] [(P.GNS_AGC_DB, c), (P.GNS_ADC_CLIP, c)] u d := by
  subst hu
  refine ⟨?gain, ?count, ?rest, ?items⟩
  case gain => simp (disch := decide) [noteGain_reads, Dev.gainSet, rd_when_inc_ne]
  case count => simp (disch := decide) [noteGain_reads, Dev.gainSet, rd_when_inc_self, rd_wr_ne]
  case rest => simp [Dev.gainSet]
  case items => simp [itemsBut_noteGain, Dev.gainSet, itemsBut_when_inc, itemsBut_wr]

/-- Settles O22: a bias reading goes by `judgeBias_sound` and `judgeBias_short`, a chain by `chainState_changes`, and its gain is written before it is
noted. -/
theorem antennasAndChains : Obligations.AntennasAndChains := by
  unfold Obligations.AntennasAndChains
  refine ⟨?sound, ?short, ?retry, ?settled, ?faulty, ?again, ?gain⟩
  case sound =>
    intro s t i ma peak hup hi hen hbias hst hma hpeak
    obtain ⟨hshown, hstate, hitems⟩ := judgeBias_sound hma (s.dev.at t) i
    exact ⟨_, antBiasSample_judges hup hi hen hbias hst hpeak, rfl, hshown, hstate, judgeBias_rest .., hitems⟩
  case short =>
    intro s t i ma peak hup hi hlen hen hbias hst hma hpeak
    obtain ⟨hshown, hstate, hcount, hoff, hitems⟩ := judgeBias_short hma (s.dev.at t) (hlen.symm ▸ hi)
    exact ⟨_, antBiasSample_judges hup hi hen hbias hst hpeak, rfl, hshown, hstate, hcount, hoff, judgeBias_rest .., hitems⟩
  case retry =>
    intro s t i ma hup hi hen hbias hst hoff hma
    refine completes_run (execAntBiasRetry t i ma) rfl rfl hup (if_pos (by simp [hi, hen, hbias, hst, hoff])) ?_
    obtain ⟨hshown, hstate, hitems⟩ := judgeBias_sound hma (s.dev.at t) i
    exact ⟨hshown, hstate, judgeBias_rest .., hitems⟩
  case settled =>
    intro s t c hup hc hst hsince
    refine completes_run (execChainSettleEnd t c) rfl rfl hup (if_pos (by simp [hc, hst, hsince])) ?_
    exact chainState_changes (d := s.dev.at t) (by simp [hst]) 3
  case faulty =>
    intro s t c cause hup hc hst
    refine completes_run (execChainFault t c cause) rfl rfl hup (if_pos ?_) ?_
    · simp only [hc, decide_true, Bool.true_and, Bool.or_eq_true, decide_eq_true_eq]
      exact hst
    refine ⟨?state, ?gone, by simp, ?items⟩
    case state => simp (disch := decide) [freeWhere_reads]
    case gone =>
      intro x hx
      obtain ⟨hmem, hchain⟩ := freeWhere_gone _ _ x hx
      exact ⟨chainState_chans (s.dev.at t) c 3 cause ▸ hmem, beq_eq_false_iff_ne.1 hchain⟩
    case items => simp [itemsBut_freeWhere, itemsBut_chainState]
  case again =>
    intro s t c hup hc hst hsince
    refine completes_run (execChainReenable t c) rfl rfl hup (if_pos (by simp [hc, hst, hsince])) ?_
    exact chainState_changes (d := s.dev.at t) (by simp [hst]) 3
  case gain =>
    intro s t c big clip hup hc hst
    refine completes_run (execAgcUpdate t c big clip) rfl rfl hup
      ((if_pos (by simp [hc, hst])).trans (congrArg (Dev.noteGain · c _) (ite_withGns ..))) ?_
    exact gainSet_noted (s.dev.at t) c _ clip _ rfl

/-! ### Tracking channels -/

/-- The element inserted is the one found, where it alone passes the test. -/
theorem find?_insertBy {α : Type} {p : α → Bool} {x : α} (hx : p x = true) (lt : α → α → Bool) {l : List α} (hl : ∀ y ∈ l, p y = false) :
    (insertBy lt x l).find? p = some x := by
  induction l with
  | nil => exact List.find?_cons_of_pos hx
  | cons y ys ih =>
    obtain ⟨hy, hys⟩ := List.forall_mem_cons.1 hl
    unfold insertBy
    split
    · exact List.find?_cons_of_pos hx
    · rw [List.find?_cons_of_neg (by simp [hy])]
      exact ih hys

/-- Table 3.4: the channel's record is the one put. -/
theorem chan?_putChan (d : Dev) (x : Chan) : (d.putChan x).chan? x.c = some x :=
  find?_insertBy (p := fun y : Chan => y.c == x.c) (beq_self_eq_true _) _ fun y hy => by simpa using (List.mem_filter.1 hy).2

@[simp] theorem rd_putChan_state (d : Dev) (x : Chan) : (d.putChan x).rd P.TRK_CHAN_STATE x.c = x.state := by
  simp (disch := decide) [Dev.putChan, rd_wr_ne]

/-- Table 3.4: the lock test judges the state; signal, phases and rate words stay. -/
theorem lockTest_keeps (d : Dev) (x : Chan) (cn0 : Nat) (fll : Bool) :
    (d.lockTest x cn0 fll).c = x.c ∧ (d.lockTest x cn0 fll).car = x.car ∧ (d.lockTest x cn0 fll).code = x.code ∧
    (d.lockTest x cn0 fll).dumps = x.dumps ∧ (d.lockTest x cn0 fll).sig = x.sig ∧ (d.lockTest x cn0 fll).sat = x.sat ∧
    (d.lockTest x cn0 fll).ant = x.ant ∧ (d.lockTest x cn0 fll).pend = x.pend ∧ (d.lockTest x cn0 fll).lateWrite = x.lateWrite := by
  unfold Dev.lockTest
  dsimp only
  repeat' split
  all_goals exact ⟨rfl, rfl, rfl, rfl, rfl, rfl, rfl, rfl, rfl⟩

/-- R81, R85: a dump shown: the channel's record, its C/N0, and the counts of a sum cut and of rate words that came late. -/
def Machine.Dev.dumped (d : Dev) (c : Nat) (y : Chan) (cn0 : Nat) (cut late : Bool) : Dev :=
  (((d.putChan y).wr P.TRK_CHAN_CN0 c cn0).when cut (·.inc P.TRK_DUMP_OVF)).when late (·.inc P.TRK_LOOP_LATE)

section
variable (d : Dev) {c : Nat} {y : Chan} (hc : y.c = c) (cn0 : Nat) (cut late : Bool)

theorem dumped_rest : (d.dumped c y cn0 cut late).rest = { d.rest with gns := (d.dumped c y cn0 cut late).gns } := by
  simp [Dev.dumped]

include hc

theorem dumped_reads : (d.dumped c y cn0 cut late).chan? c = some y ∧ (d.dumped c y cn0 cut late).rd P.TRK_CHAN_STATE c = y.state ∧
    (d.dumped c y cn0 cut late).rd P.TRK_CHAN_CN0 c = cn0 := by
  subst hc
  refine ⟨?found, ?state, ?cn0⟩
  case found => simpa [Dev.dumped, Dev.chan?] using chan?_putChan d y
  case state => simp (disch := decide) [Dev.dumped, rd_when_inc_ne, rd_wr_ne]
  case cn0 => simp (disch := decide) [Dev.dumped, rd_when_inc_ne]

theorem dumped_items : ItemsBut [] [(P.TRK_CHAN_STATE, c), (P.TRK_CHAN_SIG, c), (P.TRK_CHAN_CN0, c), (P.TRK_DUMP_OVF, 0), (P.TRK_LOOP_LATE, 0)]
    (d.dumped c y cn0 cut late) d := by
  subst hc
  simp [Dev.dumped, itemsBut_when_inc, itemsBut_wr, itemsBut_putChan]

end

/-- R81, R85: a dump of a channel beyond PULLIN advances its phases by the rates in force and hands it the words completed in its own clock. -/
theorem dumpBoundary_dumps {s : State} {t c n cn0 sigs : Nat} {sums : List Int} {fll : Bool} {early late : Option (Int × Nat)} {x : Chan}
    (hup : s.dev.up = true) (hx : s.dev.chan? c = some x) (hst : x.state ≠ 1) :
    ∃ y cut, exec (.dumpBoundary t c n sums cn0 fll early late sigs false) s = .next { s with dev := (s.dev.at t).dumped c y cn0 cut late.isSome } ∧
      y.c = c ∧ y.car = stepPhase x.car x.carRate n ∧ y.code = stepPhase x.code x.codeRate n ∧ y.dumps = (x.dumps + 1) % 2 ^ 32 ∧
      y.sig = x.sig ∧ y.sat = x.sat ∧ y.ant = x.ant ∧ y.pend = late ∧ y.lateWrite = late.isSome := by
  have hc : x.c = c := by simpa using List.find?_some hx
  have hx : (s.dev.at t).chan? c = some x := hx
  change ∃ y cut, execDumpBoundary t c n sums cn0 fll early late sigs false s = _ ∧ _
  simp only [execDumpBoundary, run, runAlways, hup, if_true, hx, hst, decide_false, Bool.false_and]
  refine ⟨_, _, rfl, ?_⟩
  simpa only [hc] using lockTest_keeps ..

/-! ### Channels that become FREE -/

section
variable (d : Dev) (c : Nat)

theorem freeChan_gns : (d.freeChan c).gns = { d.gns with chans := d.gns.chans.filter (·.c != c) } := rfl

/-- Table 3.4: a FREE channel has no record. -/
theorem chan?_freeChan : (d.freeChan c).chan? c = none := by
  simp [Dev.chan?, freeChan_gns]

/-- Table 3.4: what a FREE channel shows. -/
theorem rd_freeChan_self : (d.freeChan c).rd P.TRK_CHAN_STATE c = 0 ∧ (d.freeChan c).rd P.TRK_CHAN_SIG c = 0xFFFF ∧
    (d.freeChan c).rd P.TRK_CHAN_CN0 c = 0 := by
  simp (disch := decide) [Dev.freeChan, showTile_reads, rd_wr_ne]

end

theorem freeWhere_none {d : Dev} {p : Chan → Bool} (h : ∀ x ∈ d.gns.chans, p x = false) : d.freeWhere p = d := by
  have hnil : d.gns.chans.filter p = [] := List.filter_eq_nil_iff.2 fun x hx => by simp [h x hx]
  rw [Dev.freeWhere, hnil, List.foldl_nil]

/-- Settles O23: a dump is `dumpBoundary_dumps`, a channel whose time has run out is freed, and a faulty tile frees and places its channels. -/
theorem trackingChannels : Obligations.TrackingChannels := by
  unfold Obligations.TrackingChannels
  refine ⟨?dump, ?pullin, ?coast, ?emptyTile, ?tile⟩
  case dump =>
    intro s t c n sums cn0 fll early late sigs x hup hx _ hst
    obtain ⟨y, cut, hd, hc, hfields⟩ := dumpBoundary_dumps (t := t) (n := n) (cn0 := cn0) (sigs := sigs) (sums := sums) (fll := fll) (early := early)
      (late := late) hup hx hst
    obtain ⟨hcar, hcode, hdumps, hsig, hsat, hant, hpend, hlate⟩ := hfields
    obtain ⟨hfound, hstate, hcn0⟩ := dumped_reads (s.dev.at t) hc cn0 cut late.isSome
    exact ⟨_, hd, rfl, ⟨y, hfound, hcar, hcode, hdumps, hsig, hsat, hant, hpend, hlate, hstate⟩, hcn0, dumped_rest .., dumped_items _ hc _ _ _⟩
  case pullin =>
    intro s t c x hup hx hst hsince
    have hx : (s.dev.at t).chan? c = some x := hx
    refine completes_run (d := (s.dev.at t).freeChan c) (execPullinTimeout t c) rfl rfl hup (by simp [hx, hst, hsince]) ?_
    obtain ⟨hstate, hsig, hcn0⟩ := rd_freeChan_self (s.dev.at t) c
    exact ⟨chan?_freeChan .., hstate, hsig, hcn0, freeChan_gns .., freeChan_rest .., (freeChan_spec ..).2⟩
  case coast =>
    intro s t c x hup hx hst hsince
    have hx : (s.dev.at t).chan? c = some x := hx
    refine completes_run (d := ((s.dev.at t).freeChan c).inc P.TRK_LOSSES x.sig) (execCoastExpiry t c) rfl rfl hup (by simp [hx, hst, hsince]) ?_
    obtain ⟨hstate, -, -⟩ := rd_freeChan_self (s.dev.at t) c
    refine ⟨?gone, ?state, ?count, by simp [freeChan_gns], by simp, ?items⟩
    case gone => simpa [Dev.chan?] using chan?_freeChan (s.dev.at t) c
    case state => rwa [rd_inc_ne _ (by decide)]
    case count => simp (disch := decide) [rd_inc_self, freeChan_reads]
    case items => simp [itemsBut_inc, itemsBut_freeChan]
  case emptyTile =>
    intro s t tile cause hup htile hin hnone
    have hfree : (s.dev.at t).freeWhere (fun x => x.c / 48 == tile) = s.dev.at t := freeWhere_none fun x hx => by simpa using hnone x hx
    have hlost : s.dev.gns.chans.filter (fun x => x.c / 48 == tile) = [] := List.filter_eq_nil_iff.2 fun x hx => by simpa using hnone x hx
    refine completes_run (execTileFault t tile cause) rfl rfl hup (if_pos (by simp [htile, hin])) ?_
    simp [hfree, hlost, Dev.placeAll, sortBy]
  case tile =>
    intro s t tile cause hup htile hin
    refine completes_run (execTileFault t tile cause) rfl rfl hup (if_pos (by simp [htile, hin])) ?_
    simp [itemsBut_placeAll, itemsBut_freeWhere]

/-! ### Acquisition -/

/-- R90: a search leaves the plan, the queue shows what is left, and it counts as done. -/
def Machine.Dev.searchDone (d : Dev) (x : Nat × Nat × Nat) : Dev :=
  ({ d with gns := { d.gns with plan := d.gns.plan.filter (· != x) } }.wr P.GNS_ACQ_QUEUE 0 (min 64 (d.gns.plan.filter (· != x)).length)).inc P.GNS_ACQ_DONE

section
variable (d : Dev) (x : Nat × Nat × Nat)

theorem searchDone_gns : (d.searchDone x).gns = { d.gns with plan := d.gns.plan.filter (· != x) } := by
  simp [Dev.searchDone]

theorem searchDone_reads : (d.searchDone x).rd P.GNS_ACQ_QUEUE = min 64 (d.searchDone x).gns.plan.length ∧
    (d.searchDone x).rd P.GNS_ACQ_DONE = bumped P.GNS_ACQ_DONE (d.rd P.GNS_ACQ_DONE) := by
  rw [searchDone_gns]
  simp (disch := decide) [Dev.searchDone, rd_inc_ne, rd_inc_self, rd_wr_ne]

/-- R90: a search's end leaves the threshold in force. -/
theorem cf_searchDone_thresh : (d.searchDone x).cf P.GNS_ACQ_THRESH = d.cf P.GNS_ACQ_THRESH := by
  simp (disch := decide) [Dev.searchDone, cf_inc_ne, cf_wr_ne]

theorem searchDone_rest : (d.searchDone x).rest = { d.rest with gns := (d.searchDone x).gns } := by
  simp [Dev.searchDone]

theorem itemsBut_searchDone {ids : List Nat} {ks : List (Nat × Nat)} (hq : P.GNS_ACQ_QUEUE ∈ ids ∨ (P.GNS_ACQ_QUEUE, 0) ∈ ks)
    (hd : P.GNS_ACQ_DONE ∈ ids ∨ (P.GNS_ACQ_DONE, 0) ∈ ks) (e : Dev) : ItemsBut ids ks (d.searchDone x) e ↔ ItemsBut ids ks d e := by
  simp [Dev.searchDone, itemsBut_inc hd, itemsBut_wr hq]

end

/-- R90: a direct signal's search that ends while tracking runs; one that reaches the threshold places its signal. -/
theorem acqSearchDone_ends {s : State} {t sig ant sat ratio : Nat} (hup : s.dev.up = true) (hsig : sig < 24) (hdirect : (nth signals sig).direct = true)
    (hrun : s.dev.cf P.GNS_RUN = 1) : exec (.acqSearchDone t sig ant sat ratio) s = .next { s with dev :=
      (if s.dev.cf P.GNS_ACQ_THRESH ≤ ratio then ((s.dev.at t).searchDone (sig, ant, sat)).place ant sig sat
      else (s.dev.at t).searchDone (sig, ant, sat)) } := by
  rw [← cf_at s.dev t, ← cf_searchDone_thresh _ (sig, ant, sat)]
  change execAcqSearchDone t sig ant sat ratio s = _
  rw [execAcqSearchDone, run, runAlways, if_pos hup, if_pos (by simp [hsig, hdirect, hrun])]
  rfl

/-- Settles O24: a search's end goes by `acqSearchDone_ends`, and a capture that has recorded its length, or was read out, is HELD. -/
theorem acquisitionAndSnapshot : Obligations.AcquisitionAndSnapshot := by
  unfold Obligations.AcquisitionAndSnapshot
  refine ⟨?missed, ?found, ?captured, ?exported⟩
  case missed =>
    intro s t sig ant sat ratio hup hsig hdirect hrun hratio
    obtain ⟨hqueue, hdone⟩ := searchDone_reads (s.dev.at t) (sig, ant, sat)
    have hexec := acqSearchDone_ends (t := t) (ant := ant) (sat := sat) (ratio := ratio) hup hsig hdirect hrun
    rw [if_neg (Nat.not_le.2 hratio)] at hexec
    refine ⟨_, hexec, rfl, searchDone_gns .., hqueue, hdone, searchDone_rest .., ?_⟩
    simp [itemsBut_searchDone]
  case found =>
    intro s t sig ant sat ratio hup hsig hdirect hrun hratio
    obtain ⟨-, hdone⟩ := searchDone_reads (s.dev.at t) (sig, ant, sat)
    have hexec := acqSearchDone_ends (t := t) (ant := ant) (sat := sat) (ratio := ratio) hup hsig hdirect hrun
    rw [if_pos hratio] at hexec
    refine ⟨_, hexec, rfl, ?done, ?rest, ?items⟩
    case done => simpa (disch := decide) [place_reads] using hdone
    case rest => simp [searchDone_rest]
    case items => simp [itemsBut_place, itemsBut_searchDone]
  case captured =>
    intro s t data hup hst htrig
    refine completes_run (execSnapCaptureEnd t data) rfl rfl hup (if_pos (by simp [hst, htrig])) ?_
    simp (disch := decide) [notice_reads, itemsBut_wr]
  case exported =>
    intro s t hup hst
    refine completes_run (execSnapExportEnd t) rfl rfl hup (if_pos hst) ?_
    simp (disch := decide) [notice_reads, itemsBut_wr]

/-! ### What an instant leaves -/

@[simp] theorem agcRef_at (d : Dev) (t c : Nat) : (d.at t).agcRef c = d.agcRef c := rfl

@[simp] theorem jamActive_at (d : Dev) (t : Nat) : (d.at t).jamActive = d.jamActive := rfl

/-! ### Self-test -/

/-- R117: the tone has left a chain: its result, its indicator and the mark for the next epoch are noted. -/
def Machine.Dev.toneOff (d : Dev) (c : Nat) (ok : Bool) (j : Nat) : Dev :=
  { d with gns := { d.gns with testFail := setBit d.gns.testFail c (!ok), testJ := d.gns.testJ.set c j, toneSeen := d.gns.toneSeen.set c true } }

section
variable {s : State} {t c at_ : Nat} (hup : s.dev.up = true) (htest : s.dev.gns.testAt = some (c, at_)) (hat : at_ + 200 * ms ≤ max s.dev.now t)
include hup htest hat

/-- R117: after 200 ms the tone goes on to the next chain of an enabled antenna. -/
theorem selftestTone_next (ok : Bool) (j : Nat) {m : Nat} (hnext : s.dev.testChain (c + 1) = some m) :
    exec (.selftestTone t c ok j) s = .next { s with dev := { (s.dev.at t).toneOff c ok j with
      gns := { ((s.dev.at t).toneOff c ok j).gns with testAt := some (m, max s.dev.now t) } } } := by
  change execSelftestTone t c ok j s = _
  rw [execSelftestTone, run, runAlways, if_pos hup]
  simp only [at_fields, htest, now_at, hat, decide_true, Bool.and_self, if_true]
  split
  next n hn =>
    obtain rfl : n = m := Option.some.inj (hn.symm.trans hnext)
    rfl
  next hn => exact absurd (hn.symm.trans hnext) nofun

/-- R117: after the last chain the result is shown. -/
theorem selftestTone_last (ok : Bool) (j : Nat) (hnext : s.dev.testChain (c + 1) = none) :
    ∃ body, exec (.selftestTone t c ok j) s = .next { s with dev := (Dev.wr { (s.dev.at t).toneOff c ok j with
      gns := { ((s.dev.at t).toneOff c ok j).gns with testAt := none, testDone := true } }
        P.STA_SELFTEST_RESULT 0 (setBit s.dev.gns.testFail c (!ok))).notice 0x1285 body } := by
  change ∃ body, execSelftestTone t c ok j s = _
  rw [execSelftestTone, run, runAlways, if_pos hup]
  simp only [at_fields, htest, now_at, hat, decide_true, Bool.and_self, if_true]
  split
  next hn => exact absurd (hn.symm.trans hnext) nofun
  next hn => exact ⟨_, rfl⟩

end

/-! ### Epochs -/

/-- R391: an input offered waits at the end of its Chute's packets. -/
theorem offer_waiting (d : Dev) {chute : Nat} (h : chute < d.chutes.length) (stamp cls idx : Nat) (p : Bytes) :
    ∃ x, (nth (d.offer chute stamp cls idx p).chutes chute).waiting = (nth d.chutes chute).waiting ++ [x] ∧
      x.cls = cls ∧ x.idx = idx ∧ x.stamp = stamp :=
  ⟨_, congrArg Chute.waiting (nth_upd_self h _), rfl, rfl, rfl⟩

/-- R104: an epoch clears what its inputs have reported, and the next one begins. -/
def Machine.Dev.epochEnd (d : Dev) : Dev :=
  { d with gns := { d.gns with jamMax := [0, 0, 0, 0, 0, 0], changed := List.replicate 6 false, toneSeen := List.replicate 6 false } }

/-- R87, R104: at an epoch on hub time with antenna 0 alone enabled, its input is offered to Chute 11. -/
theorem epochLatch_offers {s : State} {t : Nat} (l : List EpochChan) (hup : s.dev.up = true) (hrun : s.dev.cf P.GNS_RUN = 1)
    (hinst : t % (1000 / s.dev.cf P.GNS_EPOCH_RATE * ms) = 0) (hen : s.dev.cf P.GNS_ANT_EN 0 = 1) (hoff : s.dev.cf P.GNS_ANT_EN 1 ≠ 1) :
    ∃ p, exec (.epochLatch t l) s = .next { s with dev := ((s.dev.at t).offer 11 t 1 0 p).epochEnd } := by
  change ∃ p, execEpochLatch t l s = _
  rw [execEpochLatch, run, runAlways, if_pos hup, if_pos (by simp [hrun, hinst])]
  simp only [List.foldl_cons, List.foldl_nil, cf_at, hen, if_true, (offer_reads _ _ _ _ _ _ P.GNS_ANT_EN 1 (by decide)).2.2, hoff, if_false]
  exact ⟨_, rfl⟩

/-- Settles O25: indicator and notches follow their procedures, the self-test goes by `selftestTone_next` and `selftestTone_last`, an epoch by
`epochLatch_offers`. -/
theorem interferenceAndSelfTest : Obligations.InterferenceAndSelfTest := by
  unfold Obligations.InterferenceAndSelfTest
  refine ⟨?indicator, ?notches, ?lastChain, ?nextChain, ?epoch⟩
  case indicator =>
    intro s t c pk hup hc hjam hen hsnap
    refine completes_run (execJamIndexUpdate t c pk) rfl rfl hup ((if_pos ?_).trans (if_neg ?_)) ?_
    · simp [hc, hjam, hen]
    · simp (disch := decide) [hsnap, cfIn_wr_ne]
    · refine ⟨?_, by simp, by simp, by simp, ?_⟩
      · simp (disch := decide) [rd_wr_ne]
      · simp [itemsBut_wr]
  case notches =>
    intro s t c db hup hc hjam
    have hrun : (c < 6 && (s.dev.at t).jamActive) = true := by simp [hc, hjam]
    by_cases hbins : ((s.dev.at t).notchStep (nth s.dev.gns.notches c) db).map (·.bin) = (nth s.dev.gns.notches c).map (·.bin)
    · refine completes_run (execNotchUpdate t c db) rfl rfl hup ((if_pos hrun).trans (if_pos (beq_iff_eq.2 hbins))) ?_
      simp [hbins]
    · refine completes_run (execNotchUpdate t c db) rfl rfl hup ((if_pos hrun).trans (if_neg fun h => hbins (beq_iff_eq.1 h))) ?_
      refine ⟨by simp, fun _ => ⟨?_, by simp⟩, by simp, by simp [itemsBut_wr]⟩
      simp (disch := decide) [noticeT_reads]
  case lastChain =>
    intro s t c j at_ ok hup htest hat hnext
    obtain ⟨body, hd⟩ := selftestTone_last hup htest hat ok j hnext
    refine ⟨_, hd, rfl, ?_, by simp, by simp, by simp [Dev.toneOff], by simp [Dev.toneOff], ?_⟩
    · simp (disch := decide) [notice_reads]
    · simp [itemsBut_wr, Dev.toneOff]
  case nextChain =>
    intro s t c j at_ m ok hup htest hat hnext
    exact ⟨_, selftestTone_next hup htest hat ok j hnext, rfl, rfl, rfl, itemsBut_self _ _ _⟩
  case epoch =>
    intro s t l hup hrun hinst hlen hen hoff
    obtain ⟨p, hd⟩ := epochLatch_offers l hup hrun hinst hen hoff
    have hitems : ItemsBut [] [] (((s.dev.at t).offer 11 t 1 0 p).epochEnd) s.dev := by simp [Dev.epochEnd, itemsBut_offer]
    exact ⟨_, hd, rfl, offer_waiting (s.dev.at t) (hlen.symm ▸ by decide) t 1 0 p, rfl, by simp [Dev.epochEnd], hitems⟩

end Sys2Proof

namespace Sys2Proof
open Sys2Proof.Machine

/-! ### Computing tiles -/

/-- R166, R207, R281: a tile's fault that ends control as a commit fault leaves its record and gives control up with cause 1. -/
theorem commitFault_spec (d : Dev) (eng loc : Nat) (body : Bytes) :
    (d.active = true → d.peer.yielding = false → ((d.faultLog eng loc body).giveUp 1).rd P.DPX_GIVEUP_CAUSE = 1 ∧
      ((d.faultLog eng loc body).giveUp 1).peer.yielding = true ∧ ((d.faultLog eng loc body).giveUp 1).peer.seatDriven = false) ∧
    ((d.faultLog eng loc body).giveUp 1).rest = { d.rest with peer := ((d.faultLog eng loc body).giveUp 1).peer } ∧
    ItemsBut [] [(P.DPX_GIVEUP_CAUSE, 0)] ((d.faultLog eng loc body).giveUp 1) d := by
  have hsame : Same (d.faultLog eng loc body) d := faultLog_same d eng loc body
  refine ⟨fun hactive hyield => giveUp_gives _ 1 ?active ?yielding, ?rest, ?items⟩
  case active => rwa [Dev.active, (hsame.reads P.DPX_STATE 0 (by decide)).1]
  case yielding => simpa using hyield
  case rest => rw [giveUp_rest, hsame.1]
  case items => exact (giveUp_spec _ 1).2.trans ((hsame.itemsBut _ _ d).2 (itemsBut_self _ _ d))

/-- R153: what the check and generation of an image that waits give. -/
def Machine.Dev.generated (d : Dev) (image : Bytes) (pieces : List Piece) (digest : Nat) : JobGen :=
  match checkImage (d.cf P.COV_CELL) image with
  | .error e => { bad := some e }
  | .ok j =>
    if 8192 < (pieces.filter fun p => d.cf P.JOB_MIN_TRACK ≤ pathLen p.points).length then { bad := some { reason := 8, kind := 5 } }
    else { job := j, pieces := pieces.filter (fun p => d.cf P.JOB_MIN_TRACK ≤ pathLen p.points), digest := digest % 2 ^ 64 }

/-- The device with that result kept beside the image, for the commit of its cycle (R153). -/
def Machine.Dev.withGenerated (d : Dev) (l : JobLoad) (g : JobGen) : Dev :=
  d.job fun c => { c with load := some { l with gen := some g } }

/-- R153: an image that waits ungenerated keeps what its check and generation give. -/
theorem trackGenerationDone_generates {s : State} {t digest : Nat} {pieces : List Piece} {l : JobLoad} (hup : s.dev.up = true)
    (hload : s.dev.com.job.load = some l) (hgen : l.gen = none) :
    exec (.trackGenerationDone t pieces digest) s =
      .next { s with dev := (s.dev.at t).withGenerated l (s.dev.generated l.image pieces digest) } := by
  change execTrackGenerationDone t pieces digest s = _
  rw [execTrackGenerationDone, run, runAlways, if_pos hup]
  simp only [at_fields, hload, hgen, Option.isSome_none, Bool.false_eq_true, if_false]
  rfl

/-- The frame that carries a whole message to a machine, under the next message identity (R257, R259). -/
def Machine.Dev.wholeFrame (d : Dev) (n type : Nat) (msg : Bytes) : TxFrame :=
  { row := rowOf type, since := d.now, type := type, machine := n, key := n, mid := d.air.mid, part := msg, msg := msg,
    flood := d.rd P.MSH_ROUTE n == 1 }

/-- The device with that frame at the end of a slice's queue and its message identity used up (R255). -/
def Machine.Dev.withMessage (d : Dev) (i n type : Nat) (msg : Bytes) : Dev :=
  { d with air := { d.air with mid := (d.air.mid + 1) % 65536, queues := upd d.air.queues i (· ++ [d.wholeFrame n type msg]) } }

section
variable {d : Dev} {n i type : Nat} {msg : Bytes}

/-- R255: a frame goes to the end of a queue that is not full. -/
theorem pushFrame_appends {f : TxFrame} (hroom : (nth d.air.queues i).length < 256) :
    d.pushFrame i f = { d with air := { d.air with queues := upd d.air.queues i (· ++ [f]) } } :=
  if_neg (Nat.not_le.2 hroom)

/-- R255, R257: a message of one fragment that replaces none is queued for its machine on the slice that carries its frames. -/
theorem toMachine_queues (hactive : d.active = true) (hreplay : d.replay = false) (hkey : (d.airKey n).cur.isSome = true)
    (hcount : d.rd P.AIR_FCNT n < fcntStick) (hslice : d.sliceFor n = some i) (hroom : (nth d.air.queues i).length < 256)
    (htype : type ≠ 0x33) (hwhole : fragments msg = [(0, 0, msg)]) :
    d.toMachine n type msg = d.withMessage i n type msg := by
  obtain ⟨k, hk⟩ := Option.isSome_iff_exists.1 hkey
  have htype : (type == 0x33) = false := beq_eq_false_iff_ne.2 htype
  have hkeep : d.air.queues.map (fun q : List TxFrame => q.filter fun _ => true) = d.air.queues :=
    List.map_id'' (fun _ => List.filter_eq_self.2 fun _ _ => rfl) _
  have hslice (mid : Nat) : Dev.sliceFor { d with air := { d.air with mid := mid } } n = some i := hslice
  unfold Dev.toMachine
  rw [if_neg (by simp [hactive, hreplay, hk]), if_neg (Nat.not_le.2 hcount)]
  simp only [htype, Bool.false_and, Bool.not_false, hkeep, Dev.takeMid, hslice, Dev.queueMsg, hwhole, List.foldl_cons, List.foldl_nil]
  exact pushFrame_appends hroom

end

/-- Settles O43: both tile faults go by `commitFault_spec`, an image by `trackGenerationDone_generates`, and an allotment is queued again by
`toMachine_queues`. -/
theorem computingTiles : Obligations.ComputingTiles := by
  unfold Obligations.ComputingTiles
  refine ⟨?unit, ?slate, ?coverage, ?image, ?allotment⟩
  case unit =>
    intro s t i hup hi hin
    refine completes_run (execChiselUnitFault t i) rfl rfl hup (if_pos ?_) ?_
    · simp only [hi, at_fields, hin, decide_true, Bool.not_false, Bool.and_self]
    · simp
  case slate =>
    exact fun s t hup => completes_run (execSlateFault t) rfl rfl hup rfl (commitFault_spec (s.dev.at t) ..)
  case coverage =>
    exact fun s t hup => completes_run (execCoverageFault t) rfl rfl hup rfl (commitFault_spec (s.dev.at t) ..)
  case image =>
    intro s t digest pieces l hup hload hgen
    refine ⟨_, trackGenerationDone_generates hup hload hgen, rfl, fun e he => ?bad, fun j hj hle => ?good, fun j hj hlt => ?many, rfl, ?items⟩
    case bad => simp [Dev.withGenerated, Dev.job, Dev.generated, he]
    case good => simp [Dev.withGenerated, Dev.job, Dev.generated, hj, Nat.not_lt.2 hle]
    case many => simp [Dev.withGenerated, Dev.job, Dev.generated, hj, hlt]
    case items => simp [Dev.withGenerated, Dev.job]
  case allotment =>
    intro s t slot n i r hup hactive hreplay hres hslot hstate hmachine hn hwhole hkey hcount hslice hroom hi hroute
    subst hslot hmachine
    have hsent : (s.dev.at t).sendAllotment r = (s.dev.at t).withMessage i r.machine 0x35 ([0x35#8] ++ r.bytes) :=
      toMachine_queues hactive hreplay hkey hcount hslice hroom (by decide) hwhole
    refine completes_run (d := (s.dev.at t).withMessage i r.machine 0x35 ([0x35#8] ++ r.bytes)) (execAllotmentRepeat t r.slot) rfl rfl hup ?repeats
      ⟨?queued, rfl, rfl, itemsBut_self _ _ _⟩
    case repeats =>
      simp only [at_fields, hres, List.find?_cons, beq_self_eq_true]
      exact (if_pos ⟨hstate, hn⟩).trans hsent
    case queued =>
      have hdirect : (s.dev.rd P.MSH_ROUTE r.machine == 1) = false := beq_eq_false_iff_ne.2 hroute
      refine (nth_upd_self hi _).trans ?_
      simp [Dev.wholeFrame, hdirect, rowOf]

end Sys2Proof

namespace Sys2Proof
open Sys2Proof.Machine

/-! ### The voter -/

/-- R510: a voter that works becomes FAILED. -/
theorem rd_voterFail_mode {d : Dev} (h : d.rd P.STP_MODE ≠ 2) : d.voterFail.rd P.STP_MODE = 2 := by
  simp (disch := decide) [Dev.voterFail, h, giveUp_reads, input_reads, stopEvent_reads, fault_reads]

section
variable (d : Dev)

/-- The items show the voter's output. -/
theorem showStop_shows : d.showStop.rd P.STP_STOP_SEQ = d.stp.out.seq ∧ d.showStop.rd P.STP_LATCH_GROUPS = d.stp.out.scope.groups ∧
    d.showStop.rd P.STP_LATCH_MASK = d.stp.out.scope.mask := by
  simp (disch := decide) [Dev.showStop, rd_wr_ne]

/-- R210, R211: a voter tick takes over what the lanes give after their comparison. -/
theorem voterTick_out : d.voterTick.stp.out = d.compareLanes.voterOutput := by
  simp [Dev.voterTick]

/-- R211: the items show the output of the tick, which the notice, the series and the safety outputs leave. -/
theorem voterTick_shows : d.voterTick.rd P.STP_STOP_SEQ = d.voterTick.stp.out.seq ∧
    d.voterTick.rd P.STP_LATCH_GROUPS = d.voterTick.stp.out.scope.groups ∧ d.voterTick.rd P.STP_LATCH_MASK = d.voterTick.stp.out.scope.mask := by
  simp (disch := decide) [Dev.voterTick, outputs_reads, startSeries_reads, permitNotice_reads, showStop_shows]

end

/-- R210, R211, R230: where the safety outputs are off a voter tick is no more than `Dev.voterTick`. -/
theorem voterTick_outputs_off {s : State} {t : Nat} (hup : s.dev.up = true) (hoff : s.dev.stp.outOn = false) :
    exec (.voterTick t) s = .next { s with dev := (s.dev.at t).voterTick } := by
  change execVoterTick t s = _
  simp [execVoterTick, run, runAlways, hup, hoff]

/-! ### What lanes take from a record -/

@[simp] theorem commitAt_at (d : Dev) (t k : Nat) : (d.at t).commitAt k = d.commitAt k := rfl

@[simp] theorem liveCheck_at (d : Dev) (t : Nat) : (d.at t).liveCheck = d.liveCheck := rfl

/-- R233: lane `i` clears what a record releases. -/
def Machine.Dev.released (d : Dev) (i : Nat) (rel : Scope) : Dev :=
  { d with stp := { d.stp with lanes := upd d.stp.lanes i fun l => l.release rel d.stp.unentered } }

/-- R219: lane `i` holds no table and list of cycle `k` in time, which clears its permit. -/
def Machine.Dev.markLate (d : Dev) (i k : Nat) : Dev :=
  { d with stp := { d.stp with lanes := d.stp.lanes.set i { nth d.stp.lanes i with lateFor := some k } } }

section
variable {s : State} {t i k : Nat} (hup : s.dev.up = true) (hi : i < 3)
include hup hi

/-- R233: a lane that runs releases at 12 ms after the commit of the record, where its live check passes. -/
theorem laneRecordApply_releases {rel : Scope} (good : Bool) (hruns : (nth s.dev.stp.lanes i).failed = false) (hfence : s.dev.stp.pendingFence = none)
    (hrecord : s.dev.stp.lastRecord = some (k, rel)) (hat : s.dev.commitAt k + 12 * ms ≤ max s.dev.now t) (hlive : s.dev.liveCheck = true) :
    exec (.laneRecordApply t i good) s = .next { s with dev := (s.dev.at t).released i rel } := by
  change execLaneRecordApply t i good s = _
  rw [execLaneRecordApply, run, runAlways, if_pos hup]
  simp only [at_fields, now_at, commitAt_at, liveCheck_at, hi, hruns, hfence, hrecord, hat, hlive, decide_true, Bool.not_false, Bool.and_self,
    if_true]
  simp only [Dev.released, at_fields, now_at, hfence, hrecord]

/-- R219: a lane without a table and a list by the deadline of a cycle that has begun is late for it, and counts. -/
theorem fenceDeadline_late {o : Nat} (horigin : s.dev.cyc.origin = some o) (hbegun : o ≤ k) (hat : s.dev.commitAt k + 40 * ms ≤ max s.dev.now t)
    (hfence : (nth s.dev.stp.lanes i).fenceCycle = none) (hlate : (nth s.dev.stp.lanes i).lateFor = none) :
    exec (.fenceDeadline t i k) s = .next { s with dev := ((s.dev.at t).markLate i k).inc P.STP_FENCE_LATE } := by
  change execFenceDeadline t i k s = _
  rw [execFenceDeadline, run, runAlways, if_pos hup]
  simp only [at_fields, now_at, commitAt_at, hi, horigin, hbegun, hat, hfence, hlate, decide_true, Bool.not_false, Bool.and_self, if_true]
  simp only [Dev.markLate, at_fields, now_at, hfence]

end

/-- Settles O26: a voter tick shows its output by `voterTick_shows`, a failed test makes the voter FAILED by `rd_voterFail_mode`, and a lane's own commands
change that lane alone. -/
theorem lanesAndVoter : Obligations.LanesAndVoter := by
  unfold Obligations.LanesAndVoter
  refine ⟨?votes, ?fails, ?tick, ?failed, ?passed, ?release, ?deadline⟩
  case votes =>
    rintro s t i _ hup hi rfl hruns
    exact completes_run (execLaneTick t i true) rfl rfl hup ((if_pos hi).trans ((if_neg (by simp [hruns])).trans (if_neg (by decide))))
      ⟨rfl, rfl, itemsBut_self _ _ _⟩
  case fails =>
    intro s t i hup hi hruns
    exact completes_run (execLaneTick t i false) rfl rfl hup ((if_pos hi).trans ((if_neg (by simp [hruns])).trans (if_pos rfl)))
      ⟨rfl, rfl, itemsBut_self _ _ _⟩
  case tick =>
    intro s t hup hoff
    obtain ⟨hseq, hgroups, hmask⟩ := voterTick_shows (s.dev.at t)
    exact ⟨_, voterTick_outputs_off hup hoff, rfl, voterTick_out _, hseq, hgroups, hmask, voterTick_rest _, by simp [itemsBut_voterTick]⟩
  case failed =>
    intro s t hup hmode
    exact completes_run (execVoterTest t false) rfl rfl hup rfl ⟨rd_voterFail_mode hmode, voterFail_rest _, by simp [itemsBut_voterFail]⟩
  case passed =>
    exact fun s t hup => completes_run (execVoterTest t true) rfl rfl hup rfl ⟨rfl, itemsBut_self _ _ _⟩
  case release =>
    intro s t i k rel good hup hi hruns hfence hrecord hat hlive
    exact ⟨_, laneRecordApply_releases hup hi good hruns hfence hrecord hat hlive, rfl, rfl, rfl, itemsBut_self _ _ _⟩
  case deadline =>
    intro s t i k o hup hi horigin hbegun hat hfence hlate
    refine ⟨_, fenceDeadline_late hup hi horigin hbegun hat hfence hlate, rfl, ?lane, rd_inc_self .., ?rest, ?items⟩
    case lane => simp [Dev.markLate]
    case rest => simp [Dev.markLate]
    case items => simp [itemsBut_inc, Dev.markLate]

/-! ### A stop copy while Chute 6 has failed -/

/-- A unit with the permit key and slice 0 in service, whose stop frame series has its last copy to send, while Chute 6, which the frames of the safety path
pass (Table 14.10), is in FAULT. Such a unit gives up control (R395) and is ACTIVE until the boundary at which it does (R281). -/
def failedSafetyChute : State where
  dev := { ((State.reset.dev.wr P.DPX_STATE 0 1).wr P.STP_SLICE_STATE 0 1).wr P.CHU_STATE 6 1 with
    air := { keys := [{ inst := 0, cur := some (zeros 16) }] }
    stp := { series := some { next := 49 } } }

/-- The copy is formed under the next frame counter and does not leave the device (R395). -/
theorem stopCopy_failedSafetyChute_silent :
    ∃ u : State, exec (.stopCopy 0) failedSafetyChute = .next u ∧ u.dev.rd P.AIR_FCNT 0 = 1 ∧ u.dev.out = [] :=
  ⟨_, rfl, by decide +kernel, by decide +kernel⟩

/-- Refutes O39: its third clause has the last stop copy leave the device whatever the state of Chute 6, but a Chute in FAULT carries nothing (R395). -/
theorem not_beaconsAndStopFrames : ¬ Obligations.BeaconsAndStopFrames := by
  unfold Obligations.BeaconsAndStopFrames
  rintro ⟨-, -, lastCopy⟩
  obtain ⟨u, hu, -, -, ⟨psdu, hsent⟩, -⟩ := lastCopy failedSafetyChute 0 0 { next := 49 } rfl rfl rfl rfl (by decide) (by decide) rfl
    (by decide +kernel) rfl (by decide +kernel) rfl rfl (by decide +kernel)
  obtain ⟨v, hv, -, hout⟩ := stopCopy_failedSafetyChute_silent
  obtain rfl : u = v := Host.Outcome.next.inj (hu.symm.trans hv)
  rw [hout] at hsent
  cases hsent

end Sys2Proof

namespace Sys2Proof
open Sys2Proof.Machine

/-! ### A frame that ends after its key's grace -/

/-- A unit at hub time 0 that serves machine 3, whose key has rolled over to epoch 1: the key before it stays valid for the first 10 ms. -/
def graceEnding : State where
  dev := { ((State.reset.dev.wr P.DPX_STATE 0 1).wr P.STP_SLICE_STATE 0 1).wr P.AIR_EPOCH 3 1 with
    air := { keys := [{ inst := 3, cur := some (zeros 16), prev := some (zeros 16), grace := 10 * ms }] }
    com := { State.reset.dev.com with jobMachines := [3] } }

/-- A frame of machine 3 under epoch 0 with a message of type 0x34, secured with a key of zeros. -/
def oldEpochFrame : Bytes :=
  [0x00#8, 0x00#8, 0x01#8, 0x00#8, 0x03#8, 0x01#8, 0x03#8, 0x01#8, 0x01#8, 0x00#8, 0x00#8, 0x40#8, 0x01#8, 0x00#8, 0x00#8, 0x00#8, 0x00#8,
   0x00#8, 0x00#8, 0x00#8, 0x72#8, 0x55#8, 0x72#8, 0x5e#8, 0x5c#8, 0xd4#8, 0x6b#8, 0x12#8, 0x8a#8, 0x0f#8, 0xe4#8, 0x02#8, 0xf9#8]

/-- The unit listens to machine 3, and the key of epoch 0 is valid while its hub time is 0. -/
theorem graceEnding_listens : graceEnding.dev.active = true ∧ graceEnding.dev.rd P.STP_SLICE_STATE 0 = 1 ∧
    graceEnding.dev.headerKey oldEpochFrame = some (3, zeros 16) ∧
    (graceEnding.dev.window (0x0100 + 3) 3 (fld oldEpochFrame 10 1) (fld oldEpochFrame 12 4)).1 = true ∧
    graceEnding.dev.rd P.MSH_ROUTE 3 = 0 := by
  decide +kernel

/-- The frame stands in its form of Table 9.3, with a right FCS and with addresses that the unit takes. -/
theorem oldEpochFrame_fields : crc32 (oldEpochFrame.take (oldEpochFrame.length - 4)) = fld oldEpochFrame (oldEpochFrame.length - 4) 4 ∧
    fld oldEpochFrame 0 1 = 0 ∧ fld oldEpochFrame 2 2 = graceEnding.dev.side ∧ fld oldEpochFrame 4 2 = 0x0100 + 3 ∧
    fld oldEpochFrame 6 2 = 0x0100 + 3 ∧ fld oldEpochFrame 8 2 = graceEnding.dev.side ∧ frameFieldsOk oldEpochFrame = true ∧
    fld oldEpochFrame 11 1 = 64 ∧ fld oldEpochFrame 18 1 = 0 := by
  decide +kernel

/-- The nonce of the frame (R263). -/
def oldEpochNonce : Bytes :=
  airNonce (0x0100 + 3) (graceEnding.dev.cf P.STP_HUB_ID) 1 (fld oldEpochFrame 10 1) (fld oldEpochFrame 12 4)

/-- Under the key of epoch 0 the frame carries the message (R263). -/
theorem oldEpochFrame_plain :
    [0x34#8] = xorB (cut oldEpochFrame 20 (oldEpochFrame.length - 32)) (ccmStream (zeros 16) oldEpochNonce 1 (oldEpochFrame.length - 32)) := by
  decide +kernel

/-- Under the key of epoch 0 the frame verifies (R263). -/
theorem oldEpochFrame_tag :
    ccmTag (zeros 16) oldEpochNonce (cut oldEpochFrame 6 14) [0x34#8] 8 = cut oldEpochFrame (20 + (oldEpochFrame.length - 32)) 8 := by
  decide +kernel

/-- The frame ends at 20 ms, when epoch 0 is no longer accepted: it fails the header checks and nothing reaches Chute 4 (R253). -/
theorem airFrameReceive_oldEpochFrame_rejected :
    ∃ u : State, exec (.airFrameReceive (20 * ms) 0 (10 * ms) oldEpochFrame) graceEnding = .next u ∧ u.dev.rd P.AIR_SEC_FAIL = 1 ∧
      (nth u.dev.chutes 4).waiting = [] :=
  ⟨_, rfl, by decide +kernel, by decide +kernel⟩

/-- Refutes O40: its second clause selects the key at the hub time before the frame, but the grace of a previous key may end before the frame does,
and such a frame is rejected. -/
theorem not_framesReceived : ¬ Obligations.FramesReceived := by
  unfold Obligations.FramesReceived
  rintro ⟨-, delivered, -⟩
  obtain ⟨hactive, hslice, hkey, hwindow, hroute⟩ := graceEnding_listens
  obtain ⟨hfcs, hcontrol, hdst, hsrc, horigin, htarget, hfields, hclass, hpart⟩ := oldEpochFrame_fields
  obtain ⟨u, hu, -, ⟨q, hchutes⟩, -⟩ := delivered graceEnding (20 * ms) 0 (10 * ms) 3 oldEpochFrame (zeros 16) [0x34#8] rfl hactive rfl (by decide)
    hslice (by decide) (by decide) hfcs hcontrol hdst hsrc horigin htarget (by decide) (by decide) rfl rfl rfl hfields hclass hpart hkey
    oldEpochFrame_plain oldEpochFrame_tag hwindow rfl (List.cons_ne_nil _ _) hroute
  obtain ⟨v, hv, -, hempty⟩ := airFrameReceive_oldEpochFrame_rejected
  obtain rfl : u = v := Host.Outcome.next.inj (hu.symm.trans hv)
  have hlen : 4 < graceEnding.dev.chutes.length := by decide +kernel
  rw [hchutes, nth_upd_self hlen] at hempty
  exact List.append_ne_nil_of_right_ne_nil _ (List.cons_ne_nil _ _) hempty

/-! ### The rollover of a key -/

/-- The device with its deliveries replaced. -/
def Machine.Dev.withDeliveries (d : Dev) (l : List Delivery) : Dev := { d with air := { d.air with deliveries := l } }

/-- The deliveries that stay open when a key rolls over: its own have served their purpose (R268). -/
def Machine.Dev.deliveriesLeft (d : Dev) (n : Nat) : List Delivery :=
  d.air.deliveries.filter fun x => !(x.kind == 1 && x.kclass == (if n = 0 then 0 else 1) && (n == 0 || x.machine == n))

/-- R267: a key record with the next key current and the key before it in its grace. -/
def Machine.Dev.rolledKey (d : Dev) (n : Nat) (key : Bytes) : AirKey :=
  { d.airKey n with
    cur := some key, next := none, prev := (d.airKey n).cur, roll := none, mark := 65536, grace := d.now + d.cf P.AIR_EPOCH_GRACE * sec }

/-- R267: the device with that record, the next epoch and a frame counter of 0, its sticky flag clear. -/
def Machine.Dev.newEpoch (d : Dev) (n : Nat) (key : Bytes) : Dev :=
  { ((d.withDeliveries (d.deliveriesLeft n)).setAirKey (d.rolledKey n key)).wr P.AIR_EPOCH n ((d.rd P.AIR_EPOCH n + 1) % 256) with
    sticky := d.sticky.filter (· != regKey P.AIR_FCNT n) }.wr P.AIR_FCNT n 0

/-- A key's record is found again under its own number. -/
theorem airKey_setAirKey_self (d : Dev) (k : AirKey) : (d.setAirKey k).airKey k.inst = k := by
  simp [Dev.setAirKey, Dev.airKey]

section
variable (d : Dev) (n : Nat) (key : Bytes)

theorem newEpoch_reads : (d.newEpoch n key).rd P.AIR_EPOCH n = (d.rd P.AIR_EPOCH n + 1) % 256 ∧ (d.newEpoch n key).rd P.AIR_FCNT n = 0 ∧
    (d.newEpoch n key).isSticky P.AIR_FCNT n = false := by
  refine ⟨(rd_wr_ne _ (by decide) ..).trans (rd_wr ..), rd_wr .., ?_⟩
  simp [Dev.newEpoch, stickyIn]

theorem newEpoch_rest : (d.newEpoch n key).rest = { d.rest with air := (d.newEpoch n key).air } := rfl

theorem newEpoch_airKey (hinst : (d.airKey n).inst = n) : (d.newEpoch n key).airKey n = d.rolledKey n key := by
  have h := airKey_setAirKey_self (d.withDeliveries (d.deliveriesLeft n)) (d.rolledKey n key)
  rwa [show (d.rolledKey n key).inst = n from hinst] at h

/-- Beside the two items only the sticky flag of the counter goes. -/
theorem newEpoch_items : ItemsBut [] [(P.AIR_EPOCH, n), (P.AIR_FCNT, n)] (d.newEpoch n key) d := by
  refine (itemsBut_wr (by simp) _ d 0).2 fun id i _ _ hk => ⟨?value, ?flag⟩
  case value => exact (rd_wr_eq ..).trans (if_neg (hk (P.AIR_EPOCH, n) (by simp)))
  case flag =>
    have hne : regKey id i ≠ regKey P.AIR_FCNT n := (hk (P.AIR_FCNT, n) (by simp)).symm
    simp [Dev.isSticky, hne]

end

/-- R267: a next key whose cycle has come begins a new epoch, with notice 0x3082. -/
theorem keyRollover_rolls {s : State} {t n a : Nat} {key : Bytes} (hup : s.dev.up = true) (hn : n ≤ 96) (hroll : (s.dev.airKey n).roll = some a)
    (hnext : (s.dev.airKey n).next = some key) (hdue : notLater a (u32 (cycleOf (max s.dev.now t))) = true) :
    exec (.keyRollover t n) s = .next { s with
      dev := ((s.dev.at t).newEpoch n key).notice 0x3082 (le 2 n ++ le 1 ((s.dev.rd P.AIR_EPOCH n + 1) % 256) ++ le 4 a) } := by
  change execKeyRollover t n s = _
  have hroll : ((s.dev.at t).airKey n).roll = some a := hroll
  have hnext : ((s.dev.at t).airKey n).next = some key := hnext
  rw [execKeyRollover, run, runAlways, if_pos hup]
  simp only [hroll, hnext, now_at, hdue, hn, if_true, Dev.when, decide_true]
  rfl

/-! ### Messages to a machine -/

/-- R259: a message that fits one frame is its own fragment. -/
theorem fragments_whole {msg : Bytes} (hne : 0 < msg.length) (hfit : msg.length ≤ 991) : fragments msg = [(0, 0, msg)] := by
  have hone : (msg.length + 990) / 991 = 1 := by omega
  simp [fragments, blocksOf, hone, mapFrom, cut, List.take_of_length_le hfit]

/-- R255, R257: a command that sends what a delivery carries to a machine whose route is direct puts it, unflooded, at the end of the queue of the
machine's slice. -/
theorem completes_delivery {c : Instr} {s : State} {t n i type : Nat} {msg : Bytes} {l : List Delivery}
    (hexec : exec c s = .next { s with dev := ((s.dev.at t).withDeliveries l).toMachine n type msg }) (hactive : s.dev.active = true)
    (hreplay : s.dev.replay = false) (hkey : (s.dev.airKey n).cur.isSome = true) (hcount : s.dev.rd P.AIR_FCNT n < fcntStick)
    (hslice : s.dev.sliceFor n = some i) (hroom : (nth s.dev.air.queues i).length < 256) (hi : i < s.dev.air.queues.length)
    (hroute : s.dev.rd P.MSH_ROUTE n ≠ 1) (htype : type ≠ 0x33) (hwhole : fragments msg = [(0, 0, msg)]) :
    Completes c s fun u =>
      nth u.air.queues i = nth s.dev.air.queues i ++
        [{ row := rowOf type, since := max s.dev.now t, type := type, machine := n, key := n, mid := s.dev.air.mid, part := msg, msg := msg }] ∧
      u.air.mid = (s.dev.air.mid + 1) % 65536 ∧ u.air.deliveries = l ∧ u.rest = { s.dev.rest with now := max s.dev.now t, air := u.air } ∧
      ItemsBut [] [] u s.dev := by
  have hqueued := toMachine_queues (d := (s.dev.at t).withDeliveries l) hactive hreplay hkey hcount hslice hroom htype hwhole
  have hdirect : (s.dev.rd P.MSH_ROUTE n == 1) = false := beq_eq_false_iff_ne.2 hroute
  rw [hqueued] at hexec
  refine ⟨_, hexec, rfl, ?queue, rfl, rfl, rfl, itemsBut_self _ _ s.dev⟩
  refine (nth_upd_self hi _).trans ?_
  simp [Dev.wholeFrame, Dev.withDeliveries, hdirect]

/-- R268: a key delivery that has not been sent goes to its machine at once. -/
theorem keyDeliverySend_sends {s : State} {t : Nat} {x : Delivery} (hup : s.dev.up = true) (hone : s.dev.air.deliveries = [x]) (hkind : x.kind = 1)
    (hdone : x.done = false) (hsent : x.sent = none) :
    exec (.keyDeliverySend t x.machine x.kclass) s = .next { s with
      dev := ((s.dev.at t).withDeliveries [{ x with sent := some (max s.dev.now t) }]).toMachine x.machine 0x3A x.msg } := by
  change execKeyDeliverySend t x.machine x.kclass s = _
  rw [execKeyDeliverySend, run, runAlways, if_pos hup]
  simp [hone, hkind, hdone, hsent, Dev.markSent, Dev.withDeliveries]

/-! ### The link configuration -/

/-- R266: the enrolled machines are those that hold a current key. -/
theorem mem_enrolled {d : Dev} {n : Nat} : n ∈ d.enrolled ↔ (1 ≤ n ∧ n ≤ 96) ∧ (d.airKey n).cur.isSome = true := by
  have hrange : n ∈ (List.range 96).map (· + 1) ↔ 1 ≤ n ∧ n ≤ 96 := by
    rw [List.mem_map]
    exact ⟨fun ⟨j, hj, hn⟩ => by rw [List.mem_range] at hj; omega, fun h => ⟨n - 1, List.mem_range.2 (by omega), by omega⟩⟩
  rw [Dev.enrolled, List.mem_filter, hrange]

/-- Table 9.9: the link configuration of a machine, valid from the next cycle on (R269). -/
def Machine.Dev.linkConfig (d : Dev) (n : Nat) : Bytes :=
  le 1 0x39 ++ le 1 n ++ d.linkValues n ++ le 2 0 ++ le 4 (u32 (cycleOf d.now + 1))

/-- R269: the delivery that a link configuration sent now opens. -/
def Machine.Dev.linkDelivery (d : Dev) (n : Nat) : Delivery :=
  { machine := n, kind := 2, at_ := u32 (cycleOf d.now + 1), msg := d.linkConfig n, sent := some d.now }

theorem fragments_linkConfig (d : Dev) (n : Nat) : fragments (d.linkConfig n) = [(0, 0, d.linkConfig n)] :=
  have hlen : (d.linkConfig n).length = 16 := rfl
  fragments_whole (by omega) (by omega)

/-- R269: an enrolled machine without a link configuration is sent one. -/
theorem linkConfigSend_sends {s : State} {t n : Nat} (hup : s.dev.up = true) (henrolled : n ∈ s.dev.enrolled) (hnone : s.dev.air.deliveries = []) :
    exec (.linkConfigSend t n) s = .next { s with
      dev := ((s.dev.at t).withDeliveries [(s.dev.at t).linkDelivery n]).toMachine n 0x39 ((s.dev.at t).linkConfig n) } := by
  change execLinkConfigSend t n s = _
  have henrolled : (s.dev.at t).enrolled.contains n = true := List.contains_iff_mem.2 henrolled
  rw [execLinkConfigSend, run, runAlways, if_pos hup]
  simp only [henrolled, at_fields, hnone, List.find?_nil, Bool.not_true, Bool.false_eq_true, if_false]
  rfl

/-- Settles O41: a rollover is `Dev.newEpoch` and its notice, and both deliveries are queued by `toMachine_queues`. -/
theorem keysAndLinkConfiguration : Obligations.KeysAndLinkConfiguration := by
  unfold Obligations.KeysAndLinkConfiguration
  refine ⟨?rollover, ?key, ?config⟩
  case rollover =>
    intro s t n a key hup _ hn hroll hnext hinst hdue _
    obtain ⟨hepoch, hcount, hsticky⟩ := newEpoch_reads (s.dev.at t) n key
    refine ⟨_, keyRollover_rolls hup hn hroll hnext hdue, rfl, ?record, ?epoch, ?count, ?sticky, ?rest, ?items⟩
    case record =>
      have hair (code : Nat) (body : Bytes) : (((s.dev.at t).newEpoch n key).notice code body).air = ((s.dev.at t).newEpoch n key).air := by simp
      rw [Dev.airKey, hair]
      exact newEpoch_airKey (s.dev.at t) n key hinst
    case epoch => simpa (disch := decide) [notice_reads] using hepoch
    case count => simpa (disch := decide) [notice_reads] using hcount
    case sticky => simpa (disch := decide) [notice_reads] using hsticky
    case rest => simp [newEpoch_rest]
    case items => exact (itemsBut_notice ..).2 (newEpoch_items (s.dev.at t) n key)
  case key =>
    rintro s t _ i _ x hup hactive hreplay hone rfl hkind rfl hdone hsent hwhole hkey hcount hslice hroom hi hroute
    exact completes_delivery (keyDeliverySend_sends hup hone hkind hdone hsent) hactive hreplay hkey hcount hslice hroom hi hroute (by decide) hwhole
  case config =>
    intro s t n i hup hactive hreplay hnone h1 h96 hkey hcount hslice hroom hi hroute
    have hexec := linkConfigSend_sends (t := t) hup (mem_enrolled.2 ⟨⟨h1, h96⟩, hkey⟩) hnone
    obtain ⟨u, hu, hpending, hqueue, hmid, hopen, hkept⟩ :=
      completes_delivery hexec hactive hreplay hkey hcount hslice hroom hi hroute (by decide) (fragments_linkConfig _ n)
    exact ⟨u, hu, hpending, hqueue, hmid, congrArg (List.map _) hopen, hkept⟩

end Sys2Proof

namespace Sys2Proof
open Sys2Proof.Machine

/-! ### Controllers and the claim of an address -/

@[simp] theorem rd_canState_self (d : Dev) (c new : Nat) : (d.canState c new).rd P.CAN_STATE c = new := by
  unfold Dev.canState
  by_cases h : d.rd P.CAN_STATE c = new
  · simp [h]
  · rw [if_neg h, Dev.when]
    split
    · simp (disch := decide) [log_reads, noticeT_reads]
    · simp (disch := decide) [noticeT_reads]

/-- R331: the management of the address stands in the new state and shows the address, whether or not its state has changed. -/
theorem isoState_shows (d : Dev) (new addr : Nat) :
    (d.isoState new addr).rd P.CAN_ISO_STATE = new ∧ (d.isoState new addr).rd P.CAN_ISO_ADDR_NOW = addr := by
  unfold Dev.isoState
  dsimp only
  split
  · simp (disch := decide) [rd_wr_ne]
  · simp (disch := decide) [noticeT_reads, rd_wr_ne]

/-- R331: a claim shows its address, and its wait runs from now. -/
theorem isoClaim_claims (d : Dev) (addr : Nat) :
    (d.isoClaim addr).rd P.CAN_ISO_STATE = 1 ∧ (d.isoClaim addr).rd P.CAN_ISO_ADDR_NOW = addr ∧
    (d.isoClaim addr).can = { d.can with claimAt := d.now } := by
  obtain ⟨hstate, hnow⟩ := isoState_shows (d.canSt fun x => { x with claimAt := d.now }) 1 addr
  refine ⟨?_, ?_, by simp [Dev.isoClaim, Dev.canSt]⟩
  · simpa (disch := decide) [Dev.isoClaim, isoSend_reads] using hstate
  · simpa (disch := decide) [Dev.isoClaim, isoSend_reads] using hnow

/-- R312: an ACTIVE unit does not become a listener. -/
theorem canSync_active {d : Dev} (h : d.active = true) (c : Nat) : d.canSync c = d := by
  simp [Dev.canSync, h]

/-- Settles O34: controllers change their state by `Dev.canState`, and the address is claimed by `isoClaim_claims` and held by `isoState_shows`. -/
theorem fieldBusControl : Obligations.FieldBusControl := by
  unfold Obligations.FieldBusControl
  refine ⟨?start, ?done, ?lost, ?claim, ?held, ?faulty⟩
  case start =>
    intro s t c l hup hc hst hrec hoffs hwait hmax
    have hcount : ([l].filter fun x => decide (t < x + 60 * sec)).length ≤ s.dev.rd P.CAN_RECOVER_MAX c :=
      Nat.le_trans (List.length_filter_le _ _) hmax
    have hguard : c ≤ 2 ∧ (s.dev.at t).rd P.CAN_STATE c = 3 ∧ (s.dev.at t).rd P.CAN_RECOVER c = 1 ∧
        (nth s.dev.can.offs c).getLastD 0 + (s.dev.at t).rd P.CAN_RECOVER_MS c * ms ≤ t ∧
        ((nth s.dev.can.offs c).filter fun x => t < x + 60 * sec).length ≤ (s.dev.at t).rd P.CAN_RECOVER_MAX c := by
      rw [hoffs]
      exact ⟨hc, hst, hrec, hwait, hcount⟩
    refine completes_run (execCanRecoveryStart t c) rfl rfl hup (if_pos hguard) ⟨rd_canState_self .., by simp, ?items⟩
    case items => simp [itemsBut_canState]
  case done =>
    intro s t c hup hc hst
    refine completes_run (execCanRecoveryDone t c) rfl rfl hup (if_pos ⟨hc, hst⟩) ⟨rd_canState_self .., ?tec, ?rec, by simp, ?items⟩
    case tec => simp (disch := decide) [canState_reads, rd_wr_ne]
    case rec => simp (disch := decide) [canState_reads]
    case items => simp [itemsBut_canState, itemsBut_wr]
  case lost =>
    intro s t c l hup hc hrole hlast hwait hlost
    have hguard : c ≤ 2 ∧ (s.dev.at t).rd P.CAN_REF_ROLE c = 2 ∧ l + 3 * (s.dev.at t).rd P.CAN_REF_PERIOD c * ms ≤ t ∧
        (!nth (s.dev.at t).can.refLost c) = true := ⟨hc, hrole, hwait, by simp [hlost]⟩
    refine completes_run (execCanRefLost t c) rfl rfl hup (by simp only [at_fields, hlast]; exact if_pos hguard) ⟨?can, by simp, ?items⟩
    case can => simp [Dev.canSt]
    case items => simp [itemsBut_canSt]
  case claim =>
    intro s t addr name hup hactive hen hcan hst
    have hsync : (s.dev.at t).canSync 0 = s.dev.at t := canSync_active (d := s.dev.at t) hactive 0
    obtain ⟨hstate, hnow, hclaim⟩ := isoClaim_claims (s.dev.at t) (s.dev.rd P.CAN_ISO_ADDR)
    refine completes_run (execIsoAddressClaim t 0 addr name) rfl rfl hup ?guard ⟨hstate, hnow, hclaim, by simp, ?items⟩
    case guard => simp [hsync, hen, hcan, hst]
    case items => simp [itemsBut_isoClaim]
  case held =>
    intro s t addr name hup hactive hen hcan hst hwait
    have hsync : (s.dev.at t).canSync 0 = s.dev.at t := canSync_active (d := s.dev.at t) hactive 0
    obtain ⟨hstate, hnow⟩ := isoState_shows (s.dev.at t) 2 (s.dev.rd P.CAN_ISO_ADDR_NOW)
    refine completes_run (execIsoAddressClaim t 3 addr name) rfl rfl hup ?guard ⟨hstate, hnow, by simp, ?items⟩
    case guard => simp [hsync, hen, hcan, hst, hwait]
    case items => simp [itemsBut_isoState]
  case faulty =>
    intro s t c cause hup hc hfailed
    refine completes_run (execCanControllerFault t c cause) rfl rfl hup (if_neg (by simp [hfailed, hc])) ⟨?state, ?can, by simp, ?items⟩
    case state => simp (disch := decide) [fault_reads]
    case can => simp [Dev.canSt, hfailed]
    case items => simp [itemsBut_canState, itemsBut_canSt]

end Sys2Proof

namespace Sys2Proof
open Sys2Proof.Machine

/-! ### An abort of a field bus in cycle 0 -/

/-- A frame of mailbox 1 with a payload, the first under the trailer of the operator's session. -/
def operatorFrame (p : Bytes) : HostCtx where
  mbx := 1
  trailer := some (1, smac operatorSession.ks (mailHead 1 (p.length + 12) 0 1 1) p 1)

/-- A unit that has committed no cycle yet accepts every such frame that its transport carries and whose form is right (R369, R371, R384). -/
theorem operatorFrame_accepted {p : Bytes} (hlen : mailLength (operatorFrame p) p ≤ transportLimit 0) (hform : frameOk 1 1 p = true) :
    Accepted true firstCycle.dev 0 (operatorFrame p) p 1 (some 0) := by
  have session : firstCycle.dev.sessionOf {} (max firstCycle.dev.now 0) = some (0, operatorSession) := by decide +kernel
  have heard : Heard firstCycle.dev (operatorFrame p) p := ⟨rfl, rfl, Nat.zero_le 1, (absurd · Nat.zero_ne_one), hlen⟩
  have signed : Signed firstCycle.dev 0 (operatorFrame p) p 1 (some 0) := .inr ⟨1, 0, operatorSession, rfl, by decide, session, rfl, rfl⟩
  exact ⟨heard, Nat.le_refl 1, Nat.le_add_left 1 6, hform, rfl, fun _ => ⟨rfl, Nat.zero_le _⟩, rfl, rfl, signed⟩

/-- The write of 2 to `CAN.CTRL` of controller 0 belongs to cycle 0 and is served up to the cycle before `next`, which the subtraction of natural numbers
makes cycle 0 as well: it is answered on receipt. -/
theorem canAbortHostBuffers_firstCycle_answered :
    ∃ u : State, exec (.canAbortHostBuffers 0 (operatorFrame (setValue P.CAN_CTRL 0 2)) 0) firstCycle = .next u ∧ u.dev.host.queue = [] :=
  ⟨_, rfl, by decide +kernel⟩

/-- Refutes O51: its seventh clause has an abort of host buffers wait for the commit of its cycle, but one that is admitted to cycle 0 while that cycle is
the next to be committed is answered at once (R374, R376). -/
theorem not_axesAndBuffersOverMail : ¬ Obligations.AxesAndBuffersOverMail := by
  unfold Obligations.AxesAndBuffersOverMail
  rintro ⟨-, -, -, -, -, -, abort, -⟩
  have accepted : Accepted true firstCycle.dev 0 _ (setValue P.CAN_CTRL 0 2) 1 (some 0) := operatorFrame_accepted (by decide) (by decide)
  obtain ⟨u, hu, -, ⟨q, -, -, hq, -⟩, -⟩ := abort firstCycle 0 _ 1 (some 0) 0 accepted (by decide) (by decide)
  obtain ⟨v, hv, hempty⟩ := canAbortHostBuffers_firstCycle_answered
  obtain rfl : u = v := Host.Outcome.next.inj (hu.symm.trans hv)
  rw [hempty] at hq
  cases hq

end Sys2Proof

namespace Sys2Proof
open Sys2Proof.Machine

/-! ### Metering blocks -/

/-- Table 13.1: the bytes of a block, with the faults of its channel as they stand. -/
def Machine.Dev.blockBytes (d : Dev) (c last snum : Nat) (codes : List Int) : Bytes :=
  mtrBlock c (bit (codes.any fun z => decide (2 ^ 23 - 1 ≤ z) || decide (z ≤ -2 ^ 23)) + 2 * bit (d.mtr.failed.contains c || d.mtr.failed.contains 16))
    snum last codes

/-- A block on its way: the wave stream of a channel selected for it, and a trace record of each code. -/
def Machine.Dev.showBlock (d : Dev) (c : Nat) (codes : List Int) (p : Bytes) : Dev :=
  codes.foldl (fun (d : Dev) z => d.trace 6 1 (le 1 c ++ le 3 0 ++ le 4 (ofS 32 z))) (d.when (bitOf (d.cf P.MTR_WAVE_MASK) c) (·.stream 7 p))

theorem showBlock_same (d : Dev) (c : Nat) (codes : List Int) (p : Bytes) : Same (d.showBlock c codes p) d :=
  (Same.foldl _ (fun d _ => trace_same d _ _ _) codes _).trans (Same.ite (stream_same d 7 p) (Same.refl d))

theorem showBlock_chutes (d : Dev) (c : Nat) (codes : List Int) (p : Bytes) : (d.showBlock c codes p).chutes = d.chutes := by
  simp only [(showBlock_same d c codes p).kept]

/-- R391: the blocks of a channel that wait for Chute 11. -/
def Machine.Dev.blocksHeld (d : Dev) (c : Nat) : Nat := ((nth d.chutes 11).waiting.filter fun x => x.cls == 5 && x.idx == c).length

/-- R391: a block waits for Chute 11, or is lost where 64 of its channel wait. -/
def Machine.Dev.queueBlock (d : Dev) (c stamp snum : Nat) (p : Bytes) : Dev :=
  if 64 ≤ d.blocksHeld c then
    (({ d with mtr := { d.mtr with lost := d.mtr.lost ++ [c] } }).inc P.MTR_BLOCK_LOST c).noticeT 0x5081 (le 1 c ++ le 4 (u32 snum))
  else d.offer 11 stamp 5 c p

/-- R337: a block of 40 codes of a channel in use that is stamped after the origin is shown and queued. -/
theorem mtrBlock_queued {s : State} {c stamp : Nat} {codes : List Int} (hup : s.dev.up = true) (hc : c < 16) (hlen : codes.length = 40)
    (hbays : s.dev.baysOf c ≠ []) (hearly : s.dev.tooEarly stamp = false) (t last snum : Nat) :
    exec (.mtrBlock t c stamp last snum codes) s = .next { s with dev :=
      ((s.dev.at t).showBlock c codes (s.dev.blockBytes c last snum codes)).queueBlock c stamp snum (s.dev.blockBytes c last snum codes) } := by
  have hin : ¬ (16 ≤ c ∨ codes.length ≠ 40 ∨ (s.dev.baysOf c).isEmpty = true) := by simp [hc, hlen, hbays]
  change execMtrBlock t c stamp last snum codes s = _
  rw [execMtrBlock, run, runAlways, if_pos hup]
  refine congrArg (fun d => Host.Outcome.next { s with dev := d }) ((if_neg hin).trans ?_)
  exact congrArg (Dev.queueBlock · c stamp snum _) (if_neg (Bool.eq_false_iff.1 hearly))

/-- Settles O35: a block is queued by `mtrBlock_queued` as its channel's count allows, and a fault of a modulator or of the tile is noted. -/
theorem meteringBlocks : Obligations.MeteringBlocks := by
  unfold Obligations.MeteringBlocks
  refine ⟨?waits, ?lost, ?fault⟩
  case waits =>
    intro s t c stamp last snum codes hup hc hlen hbays hearly hroom
    have hshown := showBlock_same (s.dev.at t) c codes (s.dev.blockBytes c last snum codes)
    have hexec := mtrBlock_queued hup hc hlen hbays hearly t last snum
    rw [Dev.queueBlock, if_neg (by rw [Dev.blocksHeld, showBlock_chutes]; exact Nat.not_le.2 hroom)] at hexec
    refine ⟨_, hexec, rfl, ⟨_, congrArg (upd · 11 _) (showBlock_chutes ..)⟩, ?rest, ?items⟩
    case rest =>
      rw [offer_rest', hshown.1]
      simp [hshown.kept]
    case items => exact (itemsBut_offer ..).2 ((hshown.itemsBut ..).2 (itemsBut_self _ _ s.dev))
  case lost =>
    intro s t c stamp last snum codes hup hc hlen hbays hearly hfull
    have hshown := showBlock_same (s.dev.at t) c codes (s.dev.blockBytes c last snum codes)
    have hexec := mtrBlock_queued hup hc hlen hbays hearly t last snum
    rw [Dev.queueBlock, if_pos (by rw [Dev.blocksHeld, showBlock_chutes]; exact hfull)] at hexec
    refine ⟨_, hexec, rfl, ?lost, ?count, ?rest, ?items⟩
    case lost => simp [hshown.kept]
    case count => simp (disch := decide) [noticeT_reads, rd_inc_self, hshown.reads]
    case rest => simp [hshown.kept]
    case items => simp [itemsBut_inc, hshown.itemsBut]
  case fault =>
    intro s t c cause hup hc hnew
    have hguard : ¬ (16 < c ∨ s.dev.mtr.failed.contains c = true) := by rw [hnew]; simp [hc]
    exact completes_run (execMeteringFault t c cause) rfl rfl hup (if_neg hguard) ⟨by simp, by simp, by simp⟩

end Sys2Proof

namespace Sys2Proof
open Sys2Proof.Machine

/-! ### Axes and their lines -/

theorem bitOf_two_pow (n i : Nat) : bitOf (2 ^ n) i = decide (n = i) := by
  rw [← Nat.testBit_two_pow, Nat.testBit_eq_decide_div_mod_eq]
  rfl

theorem maskAxes_two_pow {ax : Nat} (h : ax ≤ 3) : maskAxes (2 ^ ax) = [ax] :=
  (by decide : ∀ ax < 4, maskAxes (2 ^ ax) = [ax]) ax (Nat.lt_succ_of_le h)

/-- `DRK.POS` is a signed item of four bytes. -/
theorem wrS_pos (d : Dev) (i : Nat) (z : Int) : d.wrS P.DRK_POS i z = d.wr P.DRK_POS i (ofS 32 z) := rfl

/-- `DRK.REMAIN` is a signed item of four bytes. -/
theorem wrS_remain (d : Dev) (i : Nat) (z : Int) : d.wrS P.DRK_REMAIN i z = d.wr P.DRK_REMAIN i (ofS 32 z) := rfl

@[simp] theorem rd_axisState_self (d : Dev) (ax new : Nat) : (d.axisState ax new).rd P.DRK_STATE ax = new := by
  unfold Dev.axisState
  by_cases h : d.rd P.DRK_STATE ax = new
  · simp [h]
  · simp (disch := decide) [h, noticeT_reads]

@[simp] theorem drkSt_drk (d : Dev) (f : DrkSt → DrkSt) : (d.drkSt f).drk = f d.drk := rfl

@[simp] theorem rd_drkSt (d : Dev) (f : DrkSt → DrkSt) (id i : Nat) : (d.drkSt f).rd id i = d.rd id i := rfl

@[simp] theorem rd_addLine (d : Dev) (x : Line) (id i : Nat) : (d.addLine x).rd id i = d.rd id i := rfl

/-- `DRK.POS` of one axis brought up to now. -/
def Machine.Dev.syncAxis (d : Dev) (ax : Nat) : Dev :=
  match d.lineOf ax with
  | some x => if x.posAt ax d.now = d.rdS P.DRK_POS ax then d else (d.wrS P.DRK_POS ax (x.posAt ax d.now)).emit (.axis ax (x.posAt ax d.now))
  | none => d

theorem drkSync_eq (d : Dev) : d.drkSync = axes.foldl Dev.syncAxis d := rfl

theorem syncAxis_none {d : Dev} {ax : Nat} (h : d.lineOf ax = none) : d.syncAxis ax = d := by
  rw [Dev.syncAxis, h]

theorem syncAxis_spec (d : Dev) (ax : Nat) : (d.syncAxis ax).drk = d.drk ∧ ItemsBut [] [(P.DRK_POS, ax)] (d.syncAxis ax) d := by
  unfold Dev.syncAxis
  repeat' split
  all_goals simp [itemsBut_wrS]

/-- With every axis at rest `DRK.POS` is up to date. -/
theorem drkSync_rest_axes {d : Dev} (h : d.drk.lines = []) : d.drkSync = d := by
  have hnone (ax : Nat) : d.syncAxis ax = d := syncAxis_none (by simp [Dev.lineOf, h])
  simp [drkSync_eq, axes, hnone]

section
variable {d : Dev} {x : Line} {ax : Nat} (hlines : d.drk.lines = [x]) (hmask : x.mask = 2 ^ ax)
include hlines hmask

theorem lineOf_single (a : Nat) : d.lineOf a = if ax = a then some x else none := by
  by_cases h : ax = a <;> simp [Dev.lineOf, hlines, hmask, bitOf_two_pow, h]

theorem lineOf_single_self : d.lineOf ax = some x := by
  rw [lineOf_single hlines hmask, if_pos rfl]

theorem syncAxis_single (a : Nat) : ItemsBut [] [(P.DRK_POS, ax)] (d.syncAxis a) d := by
  by_cases h : ax = a
  · exact h ▸ (syncAxis_spec d ax).2
  · rw [syncAxis_none (by rw [lineOf_single hlines hmask, if_neg h])]
    exact itemsBut_self _ _ _

omit hlines in
theorem foldl_syncAxis_single (l : List Nat) : ∀ {d : Dev}, d.drk.lines = [x] → ItemsBut [] [(P.DRK_POS, ax)] (l.foldl Dev.syncAxis d) d := by
  induction l with
  | nil => exact fun _ => itemsBut_self _ _ _
  | cons a l ih =>
    intro d hlines
    exact (ih ((syncAxis_spec d a).1 ▸ hlines)).trans (syncAxis_single hlines hmask a)

/-- The pulses of a line that moves one axis show in that axis' `DRK.POS` alone. -/
theorem itemsBut_drkSync_single {ids : List Nat} {ks : List (Nat × Nat)} (hpos : (P.DRK_POS, ax) ∈ ks) (e : Dev) :
    ItemsBut ids ks d.drkSync e ↔ ItemsBut ids ks d e :=
  itemsBut_congr ((foldl_syncAxis_single hmask axes hlines).mono (by simp) (by simp [hpos])) e

end

/-! ### What follows the end of a motion -/

theorem startWaiting_none {d : Dev} (h : d.drk.waiting = []) : d.startWaiting = d := by
  rw [Dev.startWaiting, h]
  change { d with drk := { d.drk with waiting := d.drk.waiting.filter _ } } = d
  rw [h, List.filter_nil, ← h]

theorem gantryNext_none {d : Dev} (h : d.drk.gantry = []) : d.gantryNext = d := by
  rw [Dev.gantryNext, h]

/-- Where no move waits and no gantry motion is under way, nothing follows. -/
theorem nothing_follows {d : Dev} (hwaiting : d.drk.waiting = []) (hgantry : d.drk.gantry = []) : d.startWaiting.gantryEnd false = d := by
  rw [startWaiting_none hwaiting]
  exact gantryNext_none hgantry

/-- R354: a command that does not own the gantry parks nothing. -/
theorem atPark_host {d : Dev} (h : d.rd P.DRK_OWNER = 0) (x : Line) : d.atPark x = false := by
  simp [Dev.atPark, h]

/-! ### Gantry commands -/

/-- R354: the safety outputs are off: no gantry motion begins. -/
theorem gantryNext_off {d : Dev} (h : d.stp.outOn = false) : d.gantryNext = d := by
  unfold Dev.gantryNext
  split
  · simp [h]
  · rfl

/-- R352, R354: the motions of a gantry command reach the Derrick, which takes ownership. -/
def Machine.Dev.takeGantry (d : Dev) (gs : List GStep) : Dev :=
  (d.drkSt fun z => { z with inbox := [], gantry := z.gantry ++ gs }).wr P.DRK_OWNER 0 1

section
variable (d : Dev) (gs : List GStep)

theorem takeGantry_drk : (d.takeGantry gs).drk = { d.drk with inbox := [], gantry := d.drk.gantry ++ gs } := rfl

theorem rd_takeGantry_owner : (d.takeGantry gs).rd P.DRK_OWNER = 1 := rd_wr ..

theorem rd_takeGantry_ne {id : Nat} (h : P.DRK_OWNER ≠ id) (i : Nat) : (d.takeGantry gs).rd id i = d.rd id i := rd_wr_ne (d.drkSt _) h 0 i 1

theorem itemsBut_takeGantry {ids : List Nat} {ks : List (Nat × Nat)} (h : P.DRK_OWNER ∈ ids ∨ (P.DRK_OWNER, 0) ∈ ks) (e : Dev) :
    ItemsBut ids ks (d.takeGantry gs) e ↔ ItemsBut ids ks d e := itemsBut_wr h (d.drkSt _) e 1

end

/-- R352: the one gantry command due reaches the Derrick, and its first motion begins where it can. -/
theorem gantryCommand_due {s : State} {t c : Nat} {gs : List GStep} (hup : s.dev.up = true) (hactive : s.dev.active = true)
    (hfailed : s.dev.drk.failed = false) (hlines : s.dev.drk.lines = []) (hinbox : s.dev.drk.inbox = [(c, gs)]) (hdue : c ≤ t) :
    exec (.gantryCommand t) s = .next { s with dev := ((s.dev.at t).takeGantry gs).gantryNext } := by
  have hactive : (s.dev.at t).active = true := hactive
  have hsync : (s.dev.at t).drkSync = s.dev.at t := drkSync_rest_axes hlines
  change execGantryCommand t s = _
  rw [execGantryCommand, run, runAlways, if_pos hup]
  simp [hsync, hinbox, hdue, hactive, hfailed, Dev.takeGantry, Dev.drkSt, Nat.not_lt.2 hdue]

/-- R355: the plan of a move rests on the distances of its own axes and on their limits. -/
theorem movePlan_congr {d e : Dev} {mask : Nat} {delta delta' : List Int} (hdelta : ∀ ax ∈ maskAxes mask, nth delta ax = nth delta' ax)
    (hrd : ∀ id ∈ [P.DRK_VMAX, P.DRK_ACC, P.DRK_DEC], ∀ i, d.rd id i = e.rd id i) : d.movePlan mask delta = e.movePlan mask delta' := by
  have hds : ((maskAxes mask).map fun ax => (ax, (nth delta ax).natAbs)) = (maskAxes mask).map fun ax => (ax, (nth delta' ax).natAbs) :=
    List.map_congr_left fun ax h => by rw [hdelta ax h]
  simp only [List.mem_cons, List.not_mem_nil, or_false, forall_eq_or_imp, forall_eq] at hrd
  simp only [Dev.movePlan, hds, hrd]

/-- The line of a move from rest (R355). -/
def Machine.Dev.moveLine (d : Dev) (mask : Nat) (target : List Int) (l vc a dc : Nat) : Line :=
  { mask := mask, start := axes.map d.axisPos
    target := axes.map fun ax => if bitOf mask ax then nth target ax else nth (axes.map d.axisPos) ax
    t0 := d.now, len := l, vc := vc, a := a, dc := dc }

/-- R355: a move with a way to go counts, shows its axes MOVING and adds its line. -/
theorem startMove_moves {d : Dev} {mask l vc a dc : Nat} {target : List Int}
    (hplan : d.movePlan mask (axes.map fun ax => nth target ax - nth (axes.map d.axisPos) ax) = (l, vc, a, dc)) (hl : 0 < l) :
    d.startMove mask target = ((maskAxes mask).foldl (fun d ax => (d.axisState ax 4).wr P.DRK_REMAIN ax 0) (d.inc P.DRK_MOVES)).addLine
      (d.moveLine mask target l vc a dc) := by
  rw [Dev.startMove]
  simp only [hplan, (Nat.ne_of_gt hl), if_false]
  rfl

@[simp] theorem addLine_lines (d : Dev) (x : Line) : (d.addLine x).drk.lines = d.drk.lines ++ [x] := rfl

/-- R354: the next gantry motion begins where nothing moves, every axis that it names is IDLE and the outputs are on. -/
theorem gantryNext_moves {d : Dev} {g : GStep} {gs : List GStep} {l vc a dc : Nat} (hgantry : d.drk.gantry = g :: gs) (hlines : d.drk.lines = [])
    (hwaiting : d.drk.waiting = []) (hon : d.stp.outOn = true) (hactive : d.active = true) (hidle : ∀ ax ∈ maskAxes g.mask, d.rd P.DRK_STATE ax = 3)
    (hplan : d.movePlan g.mask (axes.map fun ax => nth g.target ax - nth (axes.map d.axisPos) ax) = (l, vc, a, dc)) (hl : 0 < l) :
    d.gantryNext = ((maskAxes g.mask).foldl (fun d ax => (d.axisState ax 4).wr P.DRK_REMAIN ax 0)
      ((d.drkSt fun z => { z with gantry := gs }).inc P.DRK_MOVES)).addLine (d.moveLine g.mask g.target l vc a dc) := by
  have hready : ((maskAxes g.mask).any fun ax => d.rd P.DRK_STATE ax == 0 || d.rd P.DRK_STATE ax == 6 || d.rd P.DRK_STATE ax == 7) = false := by
    rw [List.any_eq_false]
    intro ax h
    simp [hidle ax h]
  have hhomed : ((maskAxes g.mask).filter fun ax => d.rd P.DRK_STATE ax == 1) = [] := by
    rw [List.filter_eq_nil_iff]
    intro ax h
    simp [hidle ax h]
  have hmove := startMove_moves (d := d.drkSt fun z => { z with gantry := gs }) hplan hl
  rw [Dev.gantryNext]
  simp only [hgantry, hlines, hwaiting, hon, hactive, hready, hhomed, hmove]
  simp [Dev.when]
  rfl

/-- With every axis at rest an axis stands where `DRK.POS` shows it. -/
theorem axisPos_rest {d : Dev} (h : d.drk.lines = []) (ax : Nat) : d.axisPos ax = d.rdS P.DRK_POS ax := by
  simp [Dev.axisPos, Dev.lineOf, h]

/-- R352, R354: a gantry command whose first motion is of the Z axis alone, taken with every axis at rest, begins that motion. -/
theorem gantryNext_takeGantry {d : Dev} {g : GStep} {gs : List GStep} {l vc a dc : Nat} (hlines : d.drk.lines = []) (hwaiting : d.drk.waiting = [])
    (hgantry : d.drk.gantry = []) (hon : d.stp.outOn = true) (hactive : d.active = true) (hmask : g.mask = 4) (hidle : d.rd P.DRK_STATE 2 = 3)
    (hplan : d.movePlan 4 [0, 0, nth g.target 2 - d.rdS P.DRK_POS 2, 0] = (l, vc, a, dc)) (hl : 0 < l) :
    (d.takeGantry (g :: gs)).gantryNext = (((((d.takeGantry (g :: gs)).drkSt fun z => { z with gantry := gs }).inc P.DRK_MOVES).axisState 2 4).wr
      P.DRK_REMAIN 2 0).addLine ((d.takeGantry (g :: gs)).moveLine 4 g.target l vc a dc) := by
  have haxis : maskAxes 4 = [2] := maskAxes_two_pow (ax := 2) (by decide)
  have hrd {id : Nat} (h : P.DRK_OWNER ≠ id) (i : Nat) : (d.takeGantry (g :: gs)).rd id i = d.rd id i := rd_takeGantry_ne _ _ h i
  have hqueue : (d.takeGantry (g :: gs)).drk.gantry = g :: gs := congrArg (· ++ g :: gs) hgantry
  have hactive : (d.takeGantry (g :: gs)).active = true := (congrArg (· == 1) (hrd (by decide) 0)).trans hactive
  have hidle : ∀ ax ∈ maskAxes g.mask, (d.takeGantry (g :: gs)).rd P.DRK_STATE ax = 3 := by
    simpa (disch := decide) [hmask, haxis, hrd] using hidle
  have hpos : (d.takeGantry (g :: gs)).axisPos 2 = d.rdS P.DRK_POS 2 := by
    rw [axisPos_rest (d := d.takeGantry (g :: gs)) hlines]
    simp (disch := decide) [Dev.rdS, hrd]
  have hplan : (d.takeGantry (g :: gs)).movePlan g.mask
      (axes.map fun ax => nth g.target ax - nth (axes.map (d.takeGantry (g :: gs)).axisPos) ax) = (l, vc, a, dc) := by
    rw [hmask, ← hplan]
    refine movePlan_congr ?delta ?limits
    case delta => simp [haxis, axes, nth, ← hpos]
    case limits => simp (disch := decide) [hrd]
  rw [gantryNext_moves (d := d.takeGantry (g :: gs)) hqueue hlines hwaiting hon hactive hidle hplan hl, hmask, haxis]
  rfl

/-! ### Ends of motion -/

/-- R356: the axis of a line that has come to rest leaves moves that wait and gantry motions alone. -/
@[simp] theorem restAxis_drk (d : Dev) (x : Line) (a : Nat) :
    (d.restAxis x a).drk.waiting = d.drk.waiting ∧ (d.restAxis x a).drk.gantry = d.drk.gantry := by
  unfold Dev.restAxis
  dsimp only
  repeat' split
  all_goals simp

/-- The only line ends. -/
theorem drkSt_drop {d : Dev} {x : Line} (hlines : d.drk.lines = [x]) {m : Nat} (hmask : x.mask = m) :
    (d.drkSt fun z => { z with lines := z.lines.filter fun y => y.mask != m }) = d.drkSt fun z => { z with lines := [] } := by
  simp [Dev.drkSt, hlines, hmask]

section
variable {s : State} {t ax : Nat} {x : Line} (hup : s.dev.up = true) (hlines : s.dev.drk.lines = [x]) (hax : ax ≤ 3) (hmask : x.mask = 2 ^ ax)
  (hdone : x.done t = true) (hwaiting : s.dev.drk.waiting = []) (hgantry : s.dev.drk.gantry = [])
include hup hlines hax hmask hdone hwaiting hgantry

/-- R355: a move of one axis that has reached its target leaves the axis IDLE there. -/
theorem axisMoveDone_idle (hstop : x.stop = none) (howner : s.dev.rd P.DRK_OWNER = 0) :
    exec (.axisMoveDone t ax) s = .next { s with dev := ((((s.dev.at t).drkSync.drkSt fun z => { z with lines := [] }).wrS P.DRK_POS ax
      (nth x.target ax)).emit (.axis ax (nth x.target ax))).axisState ax 3 } := by
  have hlines : (s.dev.at t).drkSync.drk.lines = [x] := by simpa using hlines
  have howner : (s.dev.at t).drkSync.rd P.DRK_OWNER = 0 := by simpa (disch := decide) [drkSync_reads] using howner
  change execAxisMoveDone t ax s = _
  rw [execAxisMoveDone, run, runAlways, if_pos hup]
  simp only [lineOf_single_self hlines hmask, hstop, hdone, hmask, maskAxes_two_pow hax, atPark_host howner, List.foldl_cons, List.foldl_nil,
    drkSt_drop hlines hmask]
  rw [nothing_follows (by simp [hwaiting]) (by simp [hgantry])]
  rfl

/-- R356: a line of one axis that stops, and does not home, comes to rest. -/
theorem axisStopDone_rests (hstop : x.stop.isSome = true) (hhome : x.home ≠ 2) :
    exec (.axisStopDone t ax) s = .next { s with dev := ((s.dev.at t).drkSync.drkSt fun z => { z with lines := [] }).restAxis x ax } := by
  have hlines : (s.dev.at t).drkSync.drk.lines = [x] := by simpa using hlines
  have hmoving : ¬ (x.stop.isNone = true ∨ (!x.done t) = true) := by simp [hdone, Option.isSome_iff_ne_none.1 hstop]
  change execAxisStopDone t ax s = _
  rw [execAxisStopDone, run, runAlways, if_pos hup]
  simp only [lineOf_single_self hlines hmask, hmoving, hhome, hmask, maskAxes_two_pow hax, List.foldl_cons, List.foldl_nil, drkSt_drop hlines hmask]
  rw [nothing_follows (by simp [hwaiting]) (by simp [hgantry])]
  rfl

end

/-- R356: a stopped move shows what is left of it. -/
theorem restAxis_stopped {d : Dev} {x : Line} (hhome : x.home = 0) (hfaults : x.faults = []) (hwaiting : d.drk.waiting = []) (a : Nat) :
    d.restAxis x a = (((d.wrS P.DRK_POS a (x.posAt a d.now)).emit (.axis a (x.posAt a d.now))).wrS P.DRK_REMAIN a
      (nth x.target a - x.posAt a d.now)).axisState a 6 := by
  simp [Dev.restAxis, hhome, hfaults, hwaiting, Line.posAt]

/-- Settles O36: a gantry command is taken by `gantryCommand_due` and its first motion begun by `gantryNext_moves`; a move ends by `axisMoveDone_idle`, a
stopped one by `axisStopDone_rests`. -/
theorem axesMoveAndStop : Obligations.AxesMoveAndStop := by
  unfold Obligations.AxesMoveAndStop
  refine ⟨?taken, ?begun, ?moved, ?stopped⟩
  case taken =>
    intro s t c gs hup hactive hfailed hlines hinbox hdue hoff
    have hexec := gantryCommand_due hup hactive hfailed hlines hinbox hdue
    rw [gantryNext_off (d := (s.dev.at t).takeGantry gs) hoff] at hexec
    exact ⟨_, hexec, rfl, rfl, rd_takeGantry_owner .., rfl, by simp [itemsBut_takeGantry]⟩
  case begun =>
    intro s t c l vc a dc g gs hup hactive hfailed hlines hwaiting hgantry hinbox hdue hon hmask hidle hplan hl
    have hexec := gantryCommand_due hup hactive hfailed hlines hinbox hdue
    rw [gantryNext_takeGantry (d := s.dev.at t) hlines hwaiting hgantry hon hactive hmask hidle hplan hl] at hexec
    refine ⟨_, hexec, rfl, ?owner, ?state, rd_wr _ P.DRK_REMAIN 2 0, ?steps, ?inbox, ?moves,
      ⟨((s.dev.at t).takeGantry (g :: gs)).moveLine 4 g.target l vc a dc, ?line, rfl, rfl, rfl, rfl, rfl, rfl, rfl, rfl⟩, ?rest, ?items⟩
    case line => simp [takeGantry_drk, hlines]
    case steps => simp
    case inbox => simp [takeGantry_drk]
    case owner => simp (disch := decide) [rd_wr_ne, axisState_reads, rd_inc_ne, rd_takeGantry_owner]
    case state => simp (disch := decide) [rd_wr_ne]
    case moves => simp (disch := decide) [rd_wr_ne, axisState_reads, rd_inc_self, rd_takeGantry_ne]
    case rest => simp [Dev.takeGantry]
    case items => simp [itemsBut_addLine, itemsBut_wr, itemsBut_axisState, itemsBut_inc, itemsBut_drkSt, itemsBut_takeGantry]
  case moved =>
    intro s t ax x hup hlines hax hmask hstop hdone hwaiting hgantry howner
    refine ⟨_, axisMoveDone_idle hup hlines hax hmask hdone hwaiting hgantry hstop howner, rfl, ?drk, ?pos, rd_axisState_self .., ?rest, ?items⟩
    case drk => simp
    case pos => simp (disch := decide) [axisState_reads, emit_reads, wrS_pos]
    case rest => simp
    case items => simp [itemsBut_axisState, itemsBut_wrS, itemsBut_drkSt, itemsBut_drkSync_single (d := s.dev.at t) hlines hmask]
  case stopped =>
    intro s t ax x hup hlines hax hmask hstop hdone hhome hfaults hwaiting hgantry
    have hexec := axisStopDone_rests hup hlines hax hmask hdone hwaiting hgantry hstop (by simp [hhome])
    rw [restAxis_stopped hhome hfaults (by simpa using hwaiting)] at hexec
    refine ⟨_, hexec, rfl, ?drk, ?pos, rd_axisState_self .., ?remain, ?rest, ?items⟩
    case drk => simp
    case pos => simp (disch := decide) [axisState_reads, emit_reads, wrS_pos, wrS_remain, rd_wr_ne]
    case remain => simp (disch := decide) [axisState_reads, wrS_remain]
    case rest => simp
    case items => simp [itemsBut_axisState, itemsBut_wrS, itemsBut_drkSt, itemsBut_drkSync_single (d := s.dev.at t) hlines hmask]

end Sys2Proof

namespace Sys2Proof
open Sys2Proof.Machine

/-! ### Chatter of an axis beside the first -/

/-- A running unit with axis 1 IDLE whose `DRK.CHATTER_N`, one item for all axes, has been raised from 8 to 20. -/
def raisedChatter : State where
  dev := (State.reset.dev.wr P.DRK_STATE 1 3).wr P.DRK_CHATTER_N 0 20

/-- R361: 10 edges stay below the 20 in force, and nothing is noted. -/
theorem chatter_raisedChatter_ignored : ∃ u : State, exec (.chatter 0 1 0 10) raisedChatter = .next u ∧ u.dev.drk.chatter = [] :=
  ⟨_, rfl, by decide +kernel⟩

/-- Refutes O37: its fifth clause reads `DRK.CHATTER_N` under the axis' number, but the item is one for all axes (Table 13.12) and stands under number 0.
What is read under number 1 stays at the reset value of 8 whatever is written to the item, and 10 edges are no chatter where the item is 20. -/
theorem not_axesHomeAndFault : ¬ Obligations.AxesHomeAndFault := by
  unfold Obligations.AxesHomeAndFault
  rintro ⟨-, -, -, -, chatter, -⟩
  obtain ⟨u, hu, -, hdrk, -⟩ := chatter raisedChatter 0 1 0 10 rfl (by decide) (by decide +kernel) rfl (by decide +kernel) (by decide +kernel)
  obtain ⟨v, hv, hnone⟩ := chatter_raisedChatter_ignored
  obtain rfl : u = v := Host.Outcome.next.inj (hu.symm.trans hv)
  rw [hdrk] at hnone
  cases hnone

end Sys2Proof

namespace Sys2Proof
open Sys2Proof.Machine

/-! ### Packets of a Chute -/

@[simp] theorem chute_length (d : Dev) (i : Nat) (f : Chute → Chute) : (d.chute i f).chutes.length = d.chutes.length := List.length_modify ..

/-- A Chute changed, read at its place. -/
theorem nth_chute_self {d : Dev} {i : Nat} (hi : i < d.chutes.length) (f : Chute → Chute) : nth (d.chute i f).chutes i = f (nth d.chutes i) :=
  nth_upd_self hi f

theorem chuteDown_of_up {d : Dev} {i : Nat} (h : d.rd P.CHU_STATE i = 0) : d.chuteDown i = false := by
  rw [Dev.chuteDown, h]
  rfl

/-- R389: the counters and the trace record of a packet committed. -/
def Machine.Dev.countPacket (d : Dev) (i : Nat) (p : Packet) : Dev :=
  ((d.inc P.CHU_PACKETS i).maxTo P.CHU_FILL_MAX i p.words).chuteTrace 1 i p.words p.desc

/-- R394: the tasks that wait on the Chute are woken, and it is noted since when a packet stands unread. -/
def Machine.Dev.wakeReader (d : Dev) (i : Nat) (since : Option Nat) : Dev := (d.wakeAll 2 i 2).chute i fun c => { c with stood := since }

/-- R391: the input that waited longest is admitted. -/
def Machine.Dev.handOver (d : Dev) (i : Nat) : Dev :=
  match (nth d.chutes i).waiting with
  | x :: rest => (d.chute i fun c => { c with waiting := rest }).admitInput x d.now
  | [] => d

@[simp] theorem countPacket_chutes (d : Dev) (i : Nat) (p : Packet) : (d.countPacket i p).chutes = d.chutes := by simp [Dev.countPacket]

theorem rd_countPacket (d : Dev) (i : Nat) (p : Packet) : (d.countPacket i p).rd P.CHU_PACKETS i = bumped P.CHU_PACKETS (d.rd P.CHU_PACKETS i) := by
  simp (disch := decide) only [Dev.countPacket, chuteTrace_reads, rd_maxTo_ne, rd_inc_self]

theorem wakeReader_waiting {d : Dev} {i : Nat} (hi : i < d.chutes.length) (since : Option Nat) :
    (nth (d.wakeReader i since).chutes i).waiting = (nth d.chutes i).waiting := by
  simp [Dev.wakeReader, nth_chute_self, hi]

theorem rd_wakeReader (d : Dev) (i : Nat) (since : Option Nat) : (d.wakeReader i since).rd P.CHU_PACKETS i = d.rd P.CHU_PACKETS i := by
  simp (disch := decide) only [Dev.wakeReader, chute_reads, wakeAll_reads]

theorem handOver_waiting {d : Dev} {i : Nat} (hi : i < d.chutes.length) :
    (nth (d.handOver i).chutes i).waiting = (nth d.chutes i).waiting.drop 1 := by
  unfold Dev.handOver
  split
  next x rest hw => simp [nth_chute_self, hi, hw]
  next hw =>
    rw [hw]
    rfl

theorem rd_handOver (d : Dev) (i : Nat) : (d.handOver i).rd P.CHU_PACKETS i = d.rd P.CHU_PACKETS i := by
  unfold Dev.handOver
  split
  next x rest hw => simp (disch := decide) only [admit_reads, chute_reads]
  next hw => rfl

section
variable {d : Dev} {i : Nat} {p : Packet} (hparity : p.parityOut = true) (hdesc : p.descOk = true)
include hparity hdesc

/-- A packet that goes out with right parity, its buffer intact, is counted, wakes its reader and is handed over. -/
theorem packetIn_eq_handOver : ∃ since, d.packetIn i p = ((d.countPacket i p).wakeReader i since).handOver i := by
  simp only [Dev.packetIn, hparity, hdesc, Bool.not_true, Bool.false_eq_true, if_false]
  exact ⟨_, rfl⟩

/-- R391: the consumer is handed the input that waited longest. -/
theorem packetIn_waiting (hi : i < d.chutes.length) : (nth (d.packetIn i p).chutes i).waiting = (nth d.chutes i).waiting.drop 1 := by
  obtain ⟨since, h⟩ := packetIn_eq_handOver (d := d) (i := i) hparity hdesc
  rw [h, handOver_waiting (by simpa [Dev.wakeReader]), wakeReader_waiting (by simpa), countPacket_chutes]

/-- R389: the packet is counted. -/
theorem rd_packetIn : (d.packetIn i p).rd P.CHU_PACKETS i = bumped P.CHU_PACKETS (d.rd P.CHU_PACKETS i) := by
  obtain ⟨since, h⟩ := packetIn_eq_handOver (d := d) (i := i) hparity hdesc
  rw [h, rd_handOver, rd_wakeReader, rd_countPacket]

end

/-! ### Commands of a Chute -/

/-- R392, R395: a packet that ends in `EOP` is rewound after `ABORT` or wrong parity and committed otherwise. -/
def Machine.Dev.packetEnd (d : Dev) (i : Nat) (p : Packet) : Dev :=
  if p.abort then (d.rewind i p.words).chute i Chute.lose
  else if !p.parityIn then ((d.rewind i p.words).parityFail i).chute i Chute.lose
  else d.packetIn i p

/-- R393: the words of a Chute are discarded no more. -/
abbrev Machine.Dev.takesWords (d : Dev) (i : Nat) : Dev := d.chute i fun c => { c with discarding := false }

/-- R393: the open packet of Chute `i` is rewound, and words are discarded. -/
abbrev Machine.Dev.stallRewind (d : Dev) (i : Nat) : Dev :=
  ((d.inc P.CHU_STALL_REWIND i).chuteTrace 3 i 0 false).chute i fun c => { c.lose with discarding := true }

/-- R394: the reader of a packet that stands unread is woken. -/
abbrev Machine.Dev.idleWake (d : Dev) (i : Nat) : Dev := ((d.inc P.CHU_IDLE_WAKE i).chute i fun c => { c with stood := none }).wakeAll 2 i 3

/-- R395: Chute `i` in FAULT carries nothing. -/
def Machine.Dev.chuteFails (d : Dev) (i : Nat) : Dev := (d.wr P.CHU_STATE i 1).chute i fun c => { c with waiting := [], stood := none }

/-- R395: the report of a FAULT of Chute `i`, with the end of control where the Chute serves the committed path. -/
def Machine.Dev.reportChute (d : Dev) (i : Nat) : Dev :=
  let raised := [4, 6, 11, 12, 13].contains i
  let loc := location 13 0 i (if raised then .engine else .slice)
  if raised then (d.fault 0x6180 loc (le 1 2)).giveUp 5
  else if i ≤ 3 then (d.faultLast 0x6180 loc).log 0x6180 0 (le 4 loc ++ le 1 (if raised then 2 else 1))
  else d.fault 0x6180 loc (le 1 1)

theorem reportChute_spec (d : Dev) (i : Nat) : (d.reportChute i).rest = { d.rest with peer := (d.reportChute i).peer } ∧
    ItemsBut [] [(P.DPX_GIVEUP_CAUSE, 0)] (d.reportChute i) d := by
  have of_same {a : Dev} (h : Same a d) : a.rest = { d.rest with peer := a.peer } ∧ ItemsBut [] [(P.DPX_GIVEUP_CAUSE, 0)] a d := by
    have hpeer : a.peer = d.peer := congrArg (·.peer) h.1
    exact ⟨hpeer ▸ h.1, (h.itemsBut ..).2 (itemsBut_self _ _ d)⟩
  unfold Dev.reportChute
  simp only []
  split
  next => simp [itemsBut_giveUp]
  next =>
    split
    next => exact of_same ((log_same ..).trans (faultLast_same ..))
    next => exact of_same (fault_same ..)

section
variable {s : State} {t i : Nat} (hup : s.dev.up = true) (hi : i < 16)
include hup hi

/-- R394: a packet that has stood unread for `CHU.READ_IDLE` wakes its reader. -/
theorem chuteReadIdleWake_wakes {since : Nat} (hstood : (nth s.dev.chutes i).stood = some since)
    (hdue : since + s.dev.rd P.CHU_READ_IDLE i * us ≤ max s.dev.now t) :
    exec (.chuteReadIdleWake t i) s = .next { s with dev := (s.dev.at t).idleWake i } := by
  have hguard : ¬ ((16 ≤ i || max s.dev.now t < since + s.dev.rd P.CHU_READ_IDLE i * us) = true) := by
    rw [decide_eq_false (Nat.not_le.2 hi), decide_eq_false (Nat.not_lt.2 hdue)]
    decide
  change execChuteReadIdleWake t i s = _
  rw [execChuteReadIdleWake, run, runAlways, if_pos hup]
  simp only [at_fields, rd_at, now_at, hstood]
  exact congrArg (fun d => Host.Outcome.next { s with dev := d }) (if_neg hguard)

variable (hst : s.dev.rd P.CHU_STATE i = 0)
include hst

/-- R390, R392: a packet that no other words precede enters a Chute that is up. -/
theorem chutePacketCommit_enters {p : Packet} (hlo : 1 ≤ p.words) (hhi : p.words ≤ 32) (horphans : p.orphans = 0) (hcut : p.cutOff = 0) :
    exec (.chutePacketCommit t i p) s = .next { s with dev := ((s.dev.at t).takesWords i).packetEnd i p } := by
  have hguard : ¬ ((16 ≤ i || (s.dev.at t).chuteDown i || p.words = 0 || 32 < p.words) = true) := by
    simp [chuteDown_of_up, hi, hst, hhi, Nat.ne_of_gt hlo]
  change execChutePacketCommit t i p s = _
  rw [execChutePacketCommit, run, runAlways, if_pos hup]
  simp only [if_neg hguard, horphans, hcut, List.range_zero, List.foldl_nil]
  rfl

/-- R393: an open packet whose last word came `CHU.STALL` ago is rewound. -/
theorem chuteStall_rewinds {last : Nat} (hopen : (nth s.dev.chutes i).discarding = false)
    (hdue : last + s.dev.rd P.CHU_STALL i * us ≤ max s.dev.now t) :
    exec (.chuteStall t i last) s = .next { s with dev := (s.dev.at t).stallRewind i } := by
  have hguard : ¬ ((16 ≤ i || s.dev.chuteDown i || (nth s.dev.chutes i).discarding ||
      max s.dev.now t < last + s.dev.rd P.CHU_STALL i * us) = true) := by
    rw [chuteDown_of_up hst, hopen, decide_eq_false (Nat.not_le.2 hi), decide_eq_false (Nat.not_lt.2 hdue)]
    decide
  change execChuteStall t i last s = _
  rw [execChuteStall, run, runAlways, if_pos hup]
  exact congrArg (fun d => Host.Outcome.next { s with dev := d }) (if_neg hguard)

/-- R395: a Chute that is up fails at its third parity failure within 1 s. -/
theorem chuteFault_fails (hthree : 3 ≤ ((nth s.dev.chutes i).parity.filter fun p => max s.dev.now t < p + sec).length) :
    exec (.chuteFault t i) s = .next { s with dev := ((s.dev.at t).chuteFails i).reportChute i } := by
  have hguard : ¬ ((16 ≤ i || s.dev.chuteDown i ||
      ((nth s.dev.chutes i).parity.filter fun p => max s.dev.now t < p + sec).length < 3) = true) := by
    rw [chuteDown_of_up hst, decide_eq_false (Nat.not_le.2 hi), decide_eq_false (Nat.not_lt.2 hthree)]
    decide
  change execChuteFault t i s = _
  rw [execChuteFault, run, runAlways, if_pos hup]
  exact congrArg (fun d => Host.Outcome.next { s with dev := d }) (if_neg hguard)

end

/-- Settles O19: each command goes by its equation above, what a packet hands over by `packetIn_waiting`, and what the report of a FAULT leaves by
`reportChute_spec`. -/
theorem chutesCarryPackets : Obligations.ChutesCarryPackets := by
  unfold Obligations.ChutesCarryPackets
  refine ⟨?committed, ?aborted, ?stalled, ?unread, ?failed⟩
  case committed =>
    intro s t i p hup hi hlen hst hlo hhi horphans hcut habort hin hout hdesc
    have hexec := chutePacketCommit_enters (t := t) hup hi hst hlo hhi horphans hcut
    rw [Dev.packetEnd, if_neg (by simp [habort]), if_neg (by simp [hin])] at hexec
    refine ⟨_, hexec, rfl, ?waiting, ?count, ?rest, ?items⟩
    case waiting =>
      rw [packetIn_waiting hout hdesc (by simp [hlen, hi])]
      simp [nth_chute_self, hlen, hi]
    case count => exact rd_packetIn hout hdesc
    case rest => simp
    case items => simp [itemsBut_packetIn, itemsBut_chute]
  case aborted =>
    intro s t i p hup hi hlen hst hlo hhi horphans hcut habort
    have hexec := chutePacketCommit_enters (t := t) hup hi hst hlo hhi horphans hcut
    rw [Dev.packetEnd, if_pos habort] at hexec
    refine ⟨_, hexec, rfl, ?count, ?waiting, ?rest, ?items⟩
    case count => simp (disch := decide) only [Dev.rewind, chute_reads, chuteTrace_reads, rd_inc_self, rd_at]
    case waiting => simp [nth_chute_self, Chute.lose, hlen, hi]
    case rest => simp
    case items => simp [itemsBut_rewind, itemsBut_chute]
  case stalled =>
    intro s t i last hup hi hlen hst hopen hdue
    refine ⟨_, chuteStall_rewinds hup hi hst hopen hdue, rfl, ?count, ?discards, ?waiting, ?rest, ?items⟩
    case count => simp (disch := decide) only [chute_reads, chuteTrace_reads, rd_inc_self, rd_at]
    case discards => simp [nth_chute_self, hlen, hi]
    case waiting => simp [nth_chute_self, Chute.lose, hlen, hi]
    case rest => simp
    case items => simp [itemsBut_chute, itemsBut_chuteTrace, itemsBut_inc]
  case unread =>
    intro s t i since hup hi hlen hstood hdue
    refine ⟨_, chuteReadIdleWake_wakes hup hi hstood hdue, rfl, ?count, ?stood, ?rest, ?items⟩
    case count => simp (disch := decide) only [wakeAll_reads, chute_reads, rd_inc_self, rd_at]
    case stood => simp [nth_chute_self, hlen, hi]
    case rest => simp
    case items => simp [itemsBut_wakeAll, itemsBut_chute, itemsBut_inc]
  case failed =>
    intro s t i hup hi hst hthree
    obtain ⟨hrest, hitems⟩ := reportChute_spec ((s.dev.at t).chuteFails i) i
    have hchutes : (((s.dev.at t).chuteFails i).reportChute i).chutes = ((s.dev.at t).chuteFails i).chutes := congrArg (·.chutes) hrest
    refine ⟨_, chuteFault_fails hup hi hst hthree, rfl, ?state, hchutes, ?rest, ?items⟩
    case state =>
      have hkeys : ∀ k ∈ [(P.DPX_GIVEUP_CAUSE, 0)], regKey k.1 k.2 ≠ regKey P.CHU_STATE i :=
        List.forall_mem_singleton.2 (regKey_ne (by decide) 0 i)
      have hreport := (hitems P.CHU_STATE i (by decide) List.not_mem_nil hkeys).1
      rw [hreport, Dev.chuteFails, (chute_reads _ _ _ _ _ (by decide)).1, rd_wr]
    case rest =>
      rw [hchutes]
      exact hrest
    case items => exact (hitems.mono (by simp) (by simp)).trans (by simp [Dev.chuteFails, itemsBut_chute, itemsBut_wr])

end Sys2Proof

namespace Sys2Proof
open Sys2Proof.Machine

/-! ### Mail of cycle 0 -/

/-- A command that waits for its commit stands in its mailbox's queue. -/
theorem queue_ne_nil_of_waits {d u : Dev} {h : HostCtx} {p : Bytes} {a : Decided} {after : Nat} (hw : Waits d u h p a after) : u.host.queue ≠ [] := by
  obtain ⟨q, -, -, hq, -⟩ := hw
  exact hq ▸ List.cons_ne_nil q []

/-- What a completed command is said to leave holds of the state that the model answers. -/
theorem Completes.of_exec {c : Instr} {s v : State} {Q : Dev → Prop} (hc : Completes c s Q) (hv : exec c s = .next v) : Q v.dev := by
  obtain ⟨u, hu, -, hQ⟩ := hc
  exact Host.Outcome.next.inj (hu.symm.trans hv) ▸ hQ

/-- A unit that has committed no cycle yet accepts every frame of mailbox 1 without a trailer that its transport carries and whose form is right, as nobody's
(R369, R371, R384). -/
theorem plainFrame_accepted {p : Bytes} (hlen : p.length ≤ transportLimit 0) (hform : frameOk 1 0 p = true) :
    Accepted true firstCycle.dev 0 {} p 0 none := by
  have heard : Heard firstCycle.dev {} p := ⟨rfl, rfl, Nat.zero_le 1, (absurd · Nat.zero_ne_one), hlen⟩
  exact ⟨heard, Nat.le_refl 1, Nat.le_add_left 1 6, hform, rfl, fun _ => ⟨rfl, Nat.zero_le _⟩, rfl, rfl, .inl ⟨rfl, rfl, rfl⟩⟩

/-- `ECHO` of one byte. -/
def echoBytes : Bytes := le 1 5 ++ le 1 2 ++ le 2 0 ++ [0x2A#8]

/-- The command belongs to cycle 0 and is served up to the cycle before `next`, which the subtraction of natural numbers makes cycle 0 as well: it is
answered on receipt. -/
theorem echo_firstCycle_answered :
    ∃ u : State, exec (.echo 0 {} [0x2A#8]) firstCycle = .next u ∧ u.dev.host.queue = [] :=
  ⟨_, rfl, rfl⟩

/-- Refutes O46: its second clause has `ECHO` wait for the commit of its cycle, but one that is admitted to cycle 0 while that cycle is the next to be
committed is answered at once (R374, R376). -/
theorem not_sessionsAndSubscriptions : ¬ Obligations.SessionsAndSubscriptions := by
  unfold Obligations.SessionsAndSubscriptions
  rintro ⟨-, echo, -⟩
  have accepted : Accepted true firstCycle.dev 0 _ echoBytes 0 none := plainFrame_accepted (by decide) (by decide)
  obtain ⟨v, hv, hempty⟩ := echo_firstCycle_answered
  obtain ⟨hwaits, -⟩ := (echo firstCycle 0 _ 0 none [0x2A#8] accepted).of_exec hv
  exact queue_ne_nil_of_waits hwaits hempty

/-- A write to item 0xFFFF, which no table has, in cycle 0: refused, and answered on receipt. -/
theorem unknownWrite_firstCycle_answered :
    ∃ u : State, exec (.set 0 {} [(0xFFFF, 0, [])]) firstCycle = .next u ∧ u.dev.host.queue = [] :=
  ⟨_, rfl, rfl⟩

/-- Refutes O54: its first clause has the refusal wait for the commit of the write's cycle, but a write that is admitted to cycle 0 while that cycle is the
next to be committed is answered at once (R374, R376). -/
theorem not_writesRefused : ¬ Obligations.WritesRefused := by
  unfold Obligations.WritesRefused
  rintro ⟨unknown, -⟩
  have accepted : Accepted true firstCycle.dev 0 _ (setOne 0xFFFF 0 []) 0 none := plainFrame_accepted (by decide) (by decide)
  obtain ⟨v, hv, hempty⟩ := unknownWrite_firstCycle_answered
  obtain ⟨hwaits, -⟩ :=
    (unknown firstCycle 0 _ 0 none _ 0xFFFF 0 [] rfl accepted rfl (by decide) (by decide) (by decide)).of_exec hv
  exact queue_ne_nil_of_waits hwaits hempty

end Sys2Proof

namespace Sys2Proof
open Sys2Proof.Machine

/-! ### A load left idle while a command is being decided -/

/-- A unit that commits, with an open coverage image, in which the mark of a command being decided stands. -/
def idleLoadInDecision : State where
  dev := { firstCycle.dev with
    cyc := { firstCycle.dev.cyc with defer := some 0 }
    host := { loads := [{ target := 0x22 }] } }

/-- The notice of the load left idle is held by a mark of its own, which is taken away afterwards (R35, R374). -/
theorem loadIdleAbandon_clears_mark :
    ∃ u : State, exec (.loadIdleAbandon (3600 * sec) 0x22) idleLoadInDecision = .next u ∧ u.dev.cyc.defer = none :=
  ⟨_, rfl, rfl⟩

/-- Refutes O44: its last clause, which is said of every state, leaves the mark of the cycle whose command is being decided as it was, but abandoning a load
in a unit that commits sets the mark and takes it away. It differs only where the mark stands, which the model sets within a decision alone. -/
theorem not_hostPortTimers : ¬ Obligations.HostPortTimers := by
  unfold Obligations.HostPortTimers
  rintro ⟨-, -, -, -, -, -, -, -, load⟩
  obtain ⟨v, hv, hnone⟩ := loadIdleAbandon_clears_mark
  obtain ⟨-, hrest, -⟩ := (load idleLoadInDecision (3600 * sec) _ rfl rfl rfl rfl (by decide)).of_exec hv
  have hkept : v.dev.cyc.defer = some 0 := congrArg (·.cyc.defer) hrest
  rw [hnone] at hkept
  cases hkept

end Sys2Proof

namespace Sys2Proof
open Sys2Proof.Machine

/-! ### Contexts and idle cores of the dispatcher -/

@[simp] theorem task_at (d : Dev) (t n : Nat) : (d.at t).task n = d.task n := rfl

@[simp] theorem idleCores_at (d : Dev) (t : Nat) : (d.at t).idleCores = d.idleCores := rfl

/-- R405: firmware's task as it is created, READY for the first time. -/
def Machine.DTask.fresh (n base : Nat) : DTask := { n := n, base := base, level := base }

/-- R401: a context as it enters the ready list at `now`. -/
def Machine.DTask.readied (x : DTask) (now : Nat) : DTask :=
  { x with state := 1, ready := now, age := now, kind := 0, obj := 0, ends := none, hold := now, held := false }

/-- R401: a READY task that is held for its last core no more. -/
def Machine.DTask.unheld (x : DTask) : DTask := { x with held := false }

/-- R403: a READY task one level up, its next step counted from `now`. -/
def Machine.DTask.aged (x : DTask) (now : Nat) : DTask := { x with level := x.level - 1, age := now }

/-- R401: the end of a hold is stored, counted and traced. -/
def Machine.Dev.endHold (d : Dev) (x : DTask) : Dev := ((d.setTask x.unheld).ctr 49 1).dspTrace 7 x.unheld (x.core.getD 0xFF) 0

/-- R403: a step of procedure `age` is stored, counted and traced. -/
def Machine.Dev.ageTask (d : Dev) (x : DTask) : Dev :=
  (((d.setTask (x.aged d.now)).inc P.DSP_AGED).ctr 48 1).dspTrace 6 (x.aged d.now) (x.core.getD 0xFF) 0

@[simp] theorem endHold_keeps (d : Dev) (x : DTask) : (d.endHold x).now = d.now ∧ (d.endHold x).dsp.cores = d.dsp.cores := by simp [Dev.endHold]

@[simp] theorem idleCores_endHold (d : Dev) (x : DTask) : (d.endHold x).idleCores = d.idleCores := by simp [Dev.idleCores]

theorem itemsBut_endHold {ids : List Nat} {ks : List (Nat × Nat)} (d e : Dev) (x : DTask) : ItemsBut ids ks (d.endHold x) e ↔ ItemsBut ids ks d e := by
  rw [Dev.endHold, itemsBut_dspTrace, itemsBut_ctr, itemsBut_setTask]

theorem task_ageTask (d : Dev) (x : DTask) : (d.ageTask x).task x.n = some (x.aged d.now) := by
  have hstored : (d.setTask (x.aged d.now)).task x.n = some (x.aged d.now) := task_setTask d (x.aged d.now)
  have hdsp : (d.ageTask x).dsp = (d.setTask (x.aged d.now)).dsp := by simp [Dev.ageTask]
  rwa [Dev.task, hdsp]

theorem rd_ageTask (d : Dev) (x : DTask) : (d.ageTask x).rd P.DSP_AGED = bumped P.DSP_AGED (d.rd P.DSP_AGED) := by
  simp (disch := decide) only [Dev.ageTask, dspTrace_reads, ctr_reads, rd_inc_self, setTask_reads]

/-! ### A task that becomes READY -/

section
variable {d : Dev} {c : Nat} {cs : List Nat} {x : DTask} (hidle : d.idleCores = c :: cs) (hcore : x.core = none)
include hidle hcore

/-- R401: a task with no last core that becomes READY goes to the lowest idle core, its READY record before the dispatch. -/
theorem dspReady_idle : d.dspReady x = (d.dspTrace 3 (x.readied d.now) 0xFF 0).dspRun c (x.readied d.now) := by
  have hnoPreempt : d.dspReady x = d.dspHold x := by
    unfold Dev.dspReady
    exact if_neg (by simp [hidle])
  rw [hnoPreempt, Dev.dspHold, hidle]
  simp [hcore, Dev.when, DTask.readied]

/-- R401, R403: it runs there at its base level. -/
theorem dspReady_idle_runs (hc : c < d.dsp.cores.length) :
    (∃ y, (d.dspReady x).task x.n = some y ∧ y.state = 2 ∧ y.base = x.base ∧ y.level = x.base ∧ y.core = some c) ∧
    (nth (d.dspReady x).dsp.cores c).state = 1 ∧ (nth (d.dspReady x).dsp.cores c).task = x.n := by
  rw [dspReady_idle hidle hcore]
  obtain ⟨⟨m, htask⟩, hcoreRuns⟩ := dspRun_runs (d.dspTrace 3 (x.readied d.now) 0xFF 0) c (x.readied d.now) (by simpa)
  exact ⟨⟨_, htask, rfl, rfl, rfl, rfl⟩, hcoreRuns⟩

/-- No other task is preempted. -/
theorem dspReady_idle_items : ItemsBut [] [(P.DSP_DISPATCHES, 0), (P.DSP_READY_MAX, 0)] (d.dspReady x) d := by
  rw [dspReady_idle hidle hcore]
  simp [itemsBut_dspRun, itemsBut_dspTrace]

end

/-! ### Commands that schedule -/

section
variable {s : State} {t : Nat} (hup : s.dev.up = true) (hworks : s.dev.dsp.failed = false)
include hup hworks

/-- R405: a task is created under a number that is FREE. -/
theorem taskReady_creates {n base : Nat} (hn : n < 256) (hbase : base < 32) (hfree : s.dev.task n = none) :
    exec (.taskReady t n base) s = .next { s with dev := (s.dev.at t).dspReady (.fresh n base) } := by
  have hguard : ¬ ((s.dev.dsp.failed || 256 ≤ n || 32 ≤ base || (s.dev.task n).isSome) = true) := by
    rw [hworks, decide_eq_false (Nat.not_le.2 hn), decide_eq_false (Nat.not_le.2 hbase), hfree]
    decide
  change execTaskReady t n base s = _
  rw [execTaskReady, run, runAlways, if_pos hup]
  exact congrArg (fun d => Host.Outcome.next { s with dev := d }) (if_neg hguard)

/-- R401: an idle core runs what `pick` gives. -/
theorem corePick_dispatches {c : Nat} {x : DTask} (hc : c < 12) (hidle : (nth s.dev.dsp.cores c).state = 0) (hpick : (s.dev.at t).pick c = some x) :
    exec (.corePick t c) s = .next { s with dev := (s.dev.at t).dspRun c x } := by
  have hguard : ¬ ((s.dev.dsp.failed || 12 ≤ c || (nth s.dev.dsp.cores c).state != 0) = true) := by
    rw [hworks, decide_eq_false (Nat.not_le.2 hc), hidle]
    decide
  change execCorePick t c s = _
  rw [execCorePick, run, runAlways, if_pos hup]
  refine congrArg (fun d => Host.Outcome.next { s with dev := d }) ((if_neg hguard).trans ?_)
  rw [hpick]

/-- R401: a task whose hold has passed runs on the lowest idle core. -/
theorem holdExpire_dispatches {n c : Nat} {cs : List Nat} {x : DTask} (htask : s.dev.task n = some x) (hready : x.state = 1) (hheld : x.held = true)
    (hdue : x.hold ≤ max s.dev.now t) (hidle : s.dev.idleCores = c :: cs) :
    exec (.holdExpire t n) s = .next { s with dev := ((s.dev.at t).endHold x).dspRun c x.unheld } := by
  have hguard : ¬ ((s.dev.dsp.failed || x.state != 1 || !x.held || max s.dev.now t < x.hold) = true) := by
    rw [hworks, hready, hheld, decide_eq_false (Nat.not_lt.2 hdue)]
    decide
  have hcores : ((s.dev.at t).endHold x).idleCores = c :: cs := by simp [hidle]
  change execHoldExpire t n s = _
  rw [execHoldExpire, run, runAlways, if_pos hup]
  simp only [task_at, htask]
  refine congrArg (fun d => Host.Outcome.next { s with dev := d }) ((if_neg hguard).trans ?_)
  split
  next _ _ h =>
    obtain ⟨rfl, -⟩ := List.cons.inj (h.symm.trans hcores)
    rfl
  next h => cases h.symm.trans hcores

/-- R403: a READY task above level 4 that has waited `DSP.AGE` moves one level up. -/
theorem taskAge_ages {n : Nat} {x : DTask} (htask : s.dev.task n = some x) (hready : x.state = 1) (hlevel : 4 < x.level)
    (hdue : x.age + s.dev.rd P.DSP_AGE * us ≤ max s.dev.now t) :
    exec (.taskAge t n) s = .next { s with dev := (s.dev.at t).ageTask x } := by
  have hguard : ¬ ((s.dev.dsp.failed || x.state != 1 || x.level ≤ 4 || max s.dev.now t < x.age + s.dev.rd P.DSP_AGE * us) = true) := by
    rw [hworks, hready, decide_eq_false (Nat.not_le.2 hlevel), decide_eq_false (Nat.not_lt.2 hdue)]
    decide
  change execTaskAge t n s = _
  rw [execTaskAge, run, runAlways, if_pos hup]
  simp only [task_at, htask]
  exact congrArg (fun d => Host.Outcome.next { s with dev := d }) (if_neg hguard)

end

/-- Settles O20: each command goes by its equation above, and what a dispatch leaves by `dspRun_runs`. -/
theorem dispatcherSchedules : Obligations.DispatcherSchedules := by
  unfold Obligations.DispatcherSchedules
  refine ⟨?ready, ?pick, ?hold, ?age⟩
  case ready =>
    intro s t n base c cs hup hworks hn hbase hfree hidle hc
    obtain ⟨htask, hstate, hcore⟩ := dspReady_idle_runs (d := s.dev.at t) (x := .fresh n base) hidle rfl hc
    exact ⟨_, taskReady_creates hup hworks hn hbase hfree, rfl, htask, hstate, hcore, dspReady_rest .., dspReady_idle_items (d := s.dev.at t) hidle rfl⟩
  case pick =>
    intro s t c x hup hworks hc hlen hidle hpick
    obtain ⟨htask, hstate, hcore⟩ := dspRun_runs (s.dev.at t) c x (hlen ▸ hc)
    refine ⟨_, corePick_dispatches hup hworks hc hidle hpick, rfl, htask, hstate, hcore, dspRun_rest .., ?items⟩
    case items => simp [itemsBut_dspRun]
  case hold =>
    rintro s t _ c cs x hup hworks hx rfl hready hheld hdue hidle hc
    obtain ⟨htask, hstate, hcore⟩ := dspRun_runs ((s.dev.at t).endHold x) c x.unheld (by simpa)
    rw [(endHold_keeps ..).1] at htask
    refine ⟨_, holdExpire_dispatches hup hworks hx hready hheld hdue hidle, rfl, htask, hstate, hcore, ?rest, ?items⟩
    case rest => simp [Dev.endHold]
    case items => simp [itemsBut_dspRun, itemsBut_endHold]
  case age =>
    rintro s t _ x hup hworks hx rfl hready hlevel hdue
    refine ⟨_, taskAge_ages hup hworks hx hready hlevel hdue, rfl, task_ageTask .., rd_ageTask .., ?rest, ?items⟩
    case rest => simp [Dev.ageTask]
    case items => simp [Dev.ageTask, itemsBut_dspTrace, itemsBut_ctr, itemsBut_inc, itemsBut_setTask]

end Sys2Proof

namespace Sys2Proof
open Sys2Proof.Machine

/-! ### A task that waits -/

/-- R404: a task that left its core waits on an object, until `ends` where a timeout was given. -/
def Machine.DTask.waiting (x : DTask) (kind obj : Nat) (ends : Option Nat) : DTask := { x with state := 3, kind := kind, obj := obj, ends := ends }

/-- R404: the task that runs on core `c` leaves it and waits, with its record. -/
def Machine.Dev.beginWait (d : Dev) (c : Nat) (x : DTask) (kind obj : Nat) (ends : Option Nat) : Dev :=
  let w := (d.dspLeave c x).1.waiting kind obj ends
  ((d.dspLeave c x).2.setTask w).dspTrace 4 w c obj

@[simp] theorem coreCount_cores_length (d : Dev) (c : Nat) : (d.coreCount c).dsp.cores.length = d.dsp.cores.length := by
  unfold Dev.coreCount
  dsimp only
  split
  next => simp [Dev.setCore]
  next => rfl

/-- A core that does not run has no busy time to count. -/
theorem coreCount_idle {d : Dev} {c : Nat} (h : (nth d.dsp.cores c).state = 0) : d.coreCount c = d := by
  rw [Dev.coreCount, h]
  exact if_neg (by decide)

/-- A task that leaves its core leaves it idle. -/
theorem dspLeave_core_idle {d : Dev} {c : Nat} (hc : c < d.dsp.cores.length) (x : DTask) : (nth (d.dspLeave c x).2.dsp.cores c).state = 0 := by
  have hset := nth_set_self (l := (d.coreCount c).dsp.cores) (by simpa) { nth (d.coreCount c).dsp.cores c with state := 0, task := 0xFF }
  exact congrArg DCore.state hset

section
variable (d : Dev) (c : Nat) (x : DTask) (kind obj : Nat) (ends : Option Nat)

@[simp] theorem beginWait_cores : (d.beginWait c x kind obj ends).dsp.cores = (d.dspLeave c x).2.dsp.cores := by simp [Dev.beginWait]

theorem task_beginWait : (d.beginWait c x kind obj ends).task x.n = some ((d.dspLeave c x).1.waiting kind obj ends) := by
  have hstored : ((d.dspLeave c x).2.setTask ((d.dspLeave c x).1.waiting kind obj ends)).task x.n = some ((d.dspLeave c x).1.waiting kind obj ends) :=
    task_setTask _ _
  have hdsp : (d.beginWait c x kind obj ends).dsp = ((d.dspLeave c x).2.setTask ((d.dspLeave c x).1.waiting kind obj ends)).dsp := by
    simp [Dev.beginWait]
  rwa [Dev.task, hdsp]

@[simp] theorem beginWait_rest : (d.beginWait c x kind obj ends).rest =
    { d.rest with dsp := (d.beginWait c x kind obj ends).dsp, tlg := quietTlg (d.beginWait c x kind obj ends).tlg } := by
  simp [Dev.beginWait]

theorem itemsBut_beginWait {ids : List Nat} {ks : List (Nat × Nat)} (e : Dev) :
    ItemsBut ids ks (d.beginWait c x kind obj ends) e ↔ ItemsBut ids ks d e := by
  rw [Dev.beginWait, itemsBut_dspTrace, itemsBut_setTask, itemsBut_dspLeave]

end

/-! ### Faults of cores and of the dispatcher -/

/-- R406: both cores of a Tile are out of service. -/
def Machine.Dev.loseTile (d : Dev) (tile : Nat) : Dev := (d.setCore (2 * tile) { state := 2 }).setCore (2 * tile + 1) { state := 2 }

/-- R406: the dispatcher has failed. -/
def Machine.Dev.failDispatcher (d : Dev) : Dev := { d with dsp := { d.dsp with failed := true } }

@[simp] theorem itemsBut_loseTile (ids : List Nat) (ks : List (Nat × Nat)) (d e : Dev) (tile : Nat) :
    ItemsBut ids ks (d.loseTile tile) e ↔ ItemsBut ids ks d e := Iff.rfl

@[simp] theorem itemsBut_failDispatcher (ids : List Nat) (ks : List (Nat × Nat)) (d e : Dev) :
    ItemsBut ids ks d.failDispatcher e ↔ ItemsBut ids ks d e := Iff.rfl

/-- R281: a fault recorded before does not keep an ACTIVE unit from giving up control. -/
theorem faultLog_giveUp {d : Dev} (hactive : d.active = true) (hyielding : d.peer.yielding = false) (eng loc : Nat) (body : Bytes) (cause : Nat) :
    ((d.faultLog eng loc body).giveUp cause).rd P.DPX_GIVEUP_CAUSE = cause ∧ ((d.faultLog eng loc body).giveUp cause).peer.yielding = true := by
  have hactive' : (d.faultLog eng loc body).active = true := by rwa [Dev.active, (faultLog_reads d eng loc body P.DPX_STATE 0 (by decide)).1]
  have hyielding' : (d.faultLog eng loc body).peer.yielding = false := by simpa using hyielding
  obtain ⟨hcause, hgiven, -⟩ := giveUp_gives _ cause hactive' hyielding'
  exact ⟨hcause, hgiven⟩

/-- R408: a SYNC record carries the whole second and takes the next sequence number. -/
theorem traceSync_tlg (d : Dev) : d.traceSync.tlg.syncSec = some (d.now / sec) ∧ d.traceSync.tlg.seq = (d.tlg.seq + 1) % 65536 := by
  simp [Dev.traceSync]

/-! ### Commands of waits, events and faults -/

section
variable {s : State} {t : Nat} (hup : s.dev.up = true)
include hup

/-- R406: nothing ran on the Tile, so that no task loses its core. -/
theorem coreFault_idle {tile : Nat} (cause : Nat) (htile : tile < 6) (heven : (nth s.dev.dsp.cores (2 * tile)).state = 0)
    (hodd : (nth s.dev.dsp.cores (2 * tile + 1)).state = 0) :
    exec (.coreFault t tile cause) s = .next { s with
      dev := ((s.dev.at t).loseTile tile).fault 0x6880 (location 1 tile 0 .tile) (le 1 cause ++ le 1 0xFF) } := by
  have hcountEven : (s.dev.at t).coreCount (2 * tile) = s.dev.at t := coreCount_idle heven
  have hcountOdd : ((s.dev.at t).setCore (2 * tile) { state := 2 }).coreCount (2 * tile + 1) = (s.dev.at t).setCore (2 * tile) { state := 2 } :=
    coreCount_idle (by simpa [Dev.setCore, nth] using hodd)
  change execCoreFault t tile cause s = _
  rw [execCoreFault, run, runAlways, if_pos hup]
  simp [Nat.not_le.2 htile, heven, hodd, hcountEven, hcountOdd, Dev.loseTile]

variable (hworks : s.dev.dsp.failed = false)
include hworks

/-- R404: a task that runs waits on the Chute `obj`. -/
theorem taskWait_begins {n obj timeout c : Nat} {x : DTask} (htask : s.dev.task n = some x) (hruns : x.state = 2) (hcore : x.core = some c)
    (hobj : obj < 16) (htimeout : timeout < 2 ^ 32) :
    exec (.taskWait t n 2 obj timeout) s = .next { s with
      dev := (s.dev.at t).beginWait c x 2 obj (if timeout = 0 then none else some (max s.dev.now t + timeout * us)) } := by
  have hguard : ¬ ((s.dev.dsp.failed || x.state != 2 || !((2 == 1 && obj < 65536 || 2 == 2 && obj < 16) && timeout < 2 ^ 32)) = true) := by
    rw [hworks, hruns, decide_eq_true hobj, decide_eq_true htimeout, Bool.and_true, Bool.and_true]
    simp
  change execTaskWait t n 2 obj timeout s = _
  rw [execTaskWait, run, runAlways, if_pos hup]
  simp only [task_at, htask, hcore]
  exact congrArg (fun d => Host.Outcome.next { s with dev := d }) ((if_neg hguard).trans (if_neg Bool.false_ne_true))

/-- R404: an event that no task waits on is held. -/
theorem eventPost_held {ev : Nat} (hev : ev < 65536) (hnone : ∀ x ∈ s.dev.dsp.tasks, ¬ (x.state = 3 ∧ x.kind = 1 ∧ x.obj = ev))
    (hnew : ev ∉ s.dev.dsp.events) :
    exec (.eventPost t ev) s = .next { s with dev := { s.dev.at t with dsp := { s.dev.dsp with events := ev :: s.dev.dsp.events } } } := by
  have hguard : ¬ ((s.dev.dsp.failed || 65536 ≤ ev) = true) := by
    rw [hworks, decide_eq_false (Nat.not_le.2 hev)]
    decide
  have hany : ¬ ((s.dev.dsp.tasks.any fun x => x.state == 3 && x.kind == 1 && x.obj == ev) = true) := by
    simpa [and_assoc] using hnone
  have hheld : ¬ (s.dev.dsp.events.contains ev = true) := by simpa using hnew
  change execEventPost t ev s = _
  rw [execEventPost, run, runAlways, if_pos hup]
  exact congrArg (fun d => Host.Outcome.next { s with dev := d }) ((if_neg hguard).trans ((if_neg hany).trans (if_neg hheld)))

/-- R404: a wait whose timeout has passed is counted and ends with cause 4. -/
theorem taskWaitTimeout_wakes {n e : Nat} {x : DTask} (htask : s.dev.task n = some x) (hwaits : x.state = 3) (hends : x.ends = some e)
    (hdue : e ≤ max s.dev.now t) :
    exec (.taskWaitTimeout t n) s = .next { s with dev := (((s.dev.at t).inc P.DSP_TIMEOUTS).ctr 50 1).dspWake x 4 } := by
  have hguard : ¬ ((s.dev.dsp.failed || x.state != 3 || max s.dev.now t < e) = true) := by
    rw [hworks, hwaits, decide_eq_false (Nat.not_lt.2 hdue)]
    decide
  change execTaskWaitTimeout t n s = _
  rw [execTaskWaitTimeout, run, runAlways, if_pos hup]
  simp only [task_at, htask, hends]
  exact congrArg (fun d => Host.Outcome.next { s with dev := d }) (if_neg hguard)

/-- R406, R26: a fault of a dispatcher that works ends control with cause 1. -/
theorem dispatcherFault_ends :
    exec (.dispatcherFault t) s = .next { s with dev := ((s.dev.at t).failDispatcher.faultLog 1 (location 1 0 0 .engine) []).giveUp 1 } := by
  have hguard : ¬ (s.dev.dsp.failed = true) := hworks ▸ Bool.false_ne_true
  change execDispatcherFault t s = _
  rw [execDispatcherFault, run, runAlways, if_pos hup]
  exact congrArg (fun d => Host.Outcome.next { s with dev := d }) (if_neg hguard)

end

/-- R408: a SYNC record is due where none of this second has been sent. -/
theorem traceSync_due {s : State} {t : Nat} (hup : s.dev.up = true) (hon : s.dev.rd P.TLG_SOURCES ≠ 0)
    (hsec : s.dev.tlg.syncSec ≠ some (max s.dev.now t / sec)) : exec (.traceSync t) s = .next { s with dev := (s.dev.at t).traceSync } := by
  have hdue : (s.dev.tlg.syncSec != some (max s.dev.now t / sec) || s.dev.tlg.busy ≤ max s.dev.now t) = true := by simp [hsec]
  change execTraceSync t s = _
  rw [execTraceSync, run, runAlways, if_pos hup]
  exact congrArg (fun d => Host.Outcome.next { s with dev := d }) ((if_neg hon).trans (if_pos hdue))

/-- Settles O21: each command goes by its equation above, and what a fault report leaves by `fault_same` and `faultLog_same`. -/
theorem dispatcherWaitsAndFaults : Obligations.DispatcherWaitsAndFaults := by
  unfold Obligations.DispatcherWaitsAndFaults
  refine ⟨?waits, ?held, ?timeout, ?core, ?dispatcher, ?sync⟩
  case waits =>
    rintro s t _ _ obj timeout c x hup hworks hx rfl hruns hcore rfl hobj htimeout hc
    refine ⟨_, taskWait_begins hup hworks hx hruns hcore hobj htimeout, rfl, ⟨_, task_beginWait ..⟩, ?idle, ?rest, ?items⟩
    case idle => exact (congrArg (fun l => (nth l c).state) (beginWait_cores ..)).trans (dspLeave_core_idle (d := s.dev.at t) hc x)
    case rest => simp
    case items => simp [itemsBut_beginWait]
  case held =>
    intro s t ev hup hworks hev hnone hnew
    exact ⟨_, eventPost_held hup hworks hev hnone hnew, rfl, rfl, rfl, itemsBut_self _ _ _⟩
  case timeout =>
    intro s t n e x hup hworks hx hwaits hends hdue
    refine ⟨_, taskWaitTimeout_wakes hup hworks hx hwaits hends hdue, rfl, ?count, ?rest, ?items⟩
    case count => simp (disch := decide) only [dspWake_reads, ctr_reads, rd_inc_self, rd_at]
    case rest => simp
    case items => simp [itemsBut_dspWake, itemsBut_ctr, itemsBut_inc]
  case core =>
    intro s t tile cause hup _ htile _ heven hodd
    have hreport := fault_same ((s.dev.at t).loseTile tile) 0x6880 (location 1 tile 0 .tile) (le 1 cause ++ le 1 0xFF)
    have hcores := congrArg (·.dsp.cores) hreport.1
    have htasks := congrArg (·.dsp.tasks) hreport.1
    refine ⟨_, coreFault_idle hup cause htile heven hodd, rfl, hcores, htasks, ?rest, ?items⟩
    case rest => simp [Dev.loseTile]
    case items => simp
  case dispatcher =>
    intro s t hup hworks
    refine ⟨_, dispatcherFault_ends hup hworks, rfl, ?failed, ?control, ?rest, ?items⟩
    case failed => simp [Dev.failDispatcher]
    case control =>
      dsimp only
      exact fun hactive hyielding => faultLog_giveUp (d := (s.dev.at t).failDispatcher) hactive hyielding 1 (location 1 0 0 .engine) [] 1
    case rest => simp [Dev.failDispatcher]
    case items => simp [itemsBut_giveUp]
  case sync =>
    intro s t hup hon hsec
    have hreport := traceSync_same (s.dev.at t)
    obtain ⟨hsync, hseq⟩ := traceSync_tlg (s.dev.at t)
    exact ⟨_, traceSync_due hup hon hsec, rfl, hsync, hseq, hreport.1, (hreport.itemsBut ..).2 (itemsBut_self _ _ _)⟩

end Sys2Proof

namespace Sys2Proof
open Sys2Proof.Machine

/-! ### The register file of the reset state, and single items -/

/-- Settles O5: at reset the register files list nothing, and no command waits. -/
theorem resetIsCanonical : Obligations.ResetIsCanonical := by
  unfold Obligations.ResetIsCanonical
  exact ⟨rfl, rfl⟩

/-- Settles O10: a read after a write goes by `rd_wr_eq`, and a write replaces the register file alone. -/
theorem itemsReadBack : Obligations.ItemsReadBack := by
  unfold Obligations.ItemsReadBack
  intro d id i v
  exact ⟨rd_wr d id i v, fun id' i' hk => (rd_wr_eq d id id' i i' v).trans (if_neg hk.symm), sticky_wr d id i v, rfl⟩

end Sys2Proof

namespace Sys2Proof
open Sys2Proof.Machine

/-! ### Resets -/

/-- A unit runs in power mode 0 alone. -/
theorem mode_of_up {d : Dev} (h : d.up = true) : d.pwr.mode = 0 := eq_of_beq h

/-- R464, R466: a reset of a unit that runs, whose firmware starts or that waits in recovery records its cause and releases what the unit drives. -/
theorem resetBy_spec {d : Dev} (h : d.pwr.mode = 0 ∨ d.pwr.mode = 2 ∨ d.pwr.mode = 3) (cause : Nat) :
    (d.resetBy cause).pwr.mode = 1 ∧ (d.resetBy cause).pwr.cause = cause ∧ (d.resetBy cause).stp.outOn = false ∧
    (d.resetBy cause).peer.seatDriven = false ∧
    (d.resetBy cause).rest = { d.rest with pwr := (d.resetBy cause).pwr, stp := (d.resetBy cause).stp, peer := (d.resetBy cause).peer } ∧
    ItemsBut [] [(P.RNG_BYPASS_STATE, 0)] (d.resetBy cause) d := by
  have hstart : d.resetBy cause = d.beginReset cause := if_neg (by omega)
  obtain ⟨hmode, hcause, -, hout, hseat⟩ := beginReset_reset d cause (by omega)
  rw [hstart]
  exact ⟨hmode, hcause, hout, hseat, beginReset_rest d cause, (beginReset_spec d cause).2⟩

/-- A reset leaves the slots and the choice among them. -/
theorem resetBy_boot (d : Dev) (cause : Nat) : (d.resetBy cause).pwr.slots = d.pwr.slots ∧ (d.resetBy cause).pwr.active = d.pwr.active ∧
    (d.resetBy cause).pwr.pending = d.pwr.pending ∧ (d.resetBy cause).pwr.tries = d.pwr.tries := by
  unfold Dev.resetBy
  split <;> simp

/-- The supplies and the boot core changed leave the rest. -/
theorem rest_power (d : Dev) (f : Pwr → Pwr) : (d.power f).rest = { d.rest with pwr := f d.pwr } := rfl

/-- A rail's reading shown changes the item that shows it. -/
theorem railRead_spec (d : Dev) (r mv : Nat) :
    (d.railRead r mv).rest = d.rest ∧ ItemsBut [] [(P.PWR_VBAT_MV, 0), (P.PWR_RAIL_MV, 0)] (d.railRead r mv) d := by
  unfold Dev.railRead
  split
  · exact ⟨rfl, (itemsBut_wr (by simp) d d mv).2 (itemsBut_self _ _ d)⟩
  · exact ⟨rfl, (itemsBut_wr (by simp) d d _).2 (itemsBut_self _ _ d)⟩

/-- A junction temperature shown changes the item that shows it. -/
theorem tempRead_spec (d : Dev) (die : Nat) (temp : Int) :
    (d.tempRead die temp).rest = d.rest ∧ ItemsBut [] [(P.SYS_TEMP, die)] (d.tempRead die temp) d :=
  ⟨by simp [Dev.tempRead], (itemsBut_wrS (by simp) d d temp).2 (itemsBut_self _ _ d)⟩

section
variable {s : State} {t : Nat}

/-- R464: `RESET_N` held low for 1 µs is accepted whatever the reset filter does. -/
theorem resetPin_held {width : Nat} (taken : Bool) (hup : s.dev.up = true) (hwidth : 1000 ≤ width) :
    exec (.resetPin t true width taken) s =
      .next { s with dev := ((s.dev.at t).resetBy 4).power fun p => { p with pinLow := true } } := by
  have hshort : ¬ ((decide (width < 100) || decide (width < 1000) && !taken) = true) := by
    rw [decide_eq_false (by omega), decide_eq_false (by omega)]
    exact Bool.false_ne_true
  have hdormant : (s.dev.at t).pwr.mode ≠ 4 := by
    rw [show (s.dev.at t).pwr.mode = 0 from mode_of_up hup]
    decide
  change execResetPin t true width taken s = _
  rw [execResetPin, runAlways]
  simp only [if_neg hdormant, if_neg hshort, Bool.not_true, Bool.false_eq_true, if_false]

/-- R462: a rail that has been low for 500 µs resets the unit. -/
theorem brownout_resets {r mv since : Nat} (hr : r < 11) (hlow : mv < (nth rails r).1) (hdue : since + 500 * us ≤ max s.dev.now t) :
    exec (.brownout t r mv since) s = .next { s with dev := ((s.dev.at t).railRead r mv).resetBy 3 } := by
  change execBrownout t r mv since s = _
  rw [execBrownout, runAlways]
  simp only [now_at, if_neg (Nat.not_le.2 hr), hlow, hdue, decide_true, Bool.and_true, Bool.true_or, if_true]

/-- Table 18.2: a die at 125 °C resets the unit and holds its boot. -/
theorem thermalReset_resets {die : Nat} {temp : Int} (hup : s.dev.up = true) (hdie : die < 4) (htemp : 1250 ≤ temp) :
    exec (.thermalReset t die temp) s =
      .next { s with dev := (((s.dev.at t).tempRead die temp).resetBy 6).power fun p => { p with hot := true } } := by
  have hguard : ¬ ((decide (4 ≤ die) || decide (temp < 1250) || decide (s.dev.pwr.mode = 4)) = true) := by
    rw [decide_eq_false (Nat.not_le.2 hdie), decide_eq_false (Int.not_lt.2 htemp), mode_of_up hup]
    decide
  change execThermalReset t die temp s = _
  rw [execThermalReset, runAlways]
  exact congrArg (fun d => Host.Outcome.next { s with dev := d }) (if_neg hguard)

/-- R477: a trial that nobody confirmed ends. -/
theorem trialExpire_resets (hup : s.dev.up = true) (htrial : s.dev.pwr.trial = true)
    (hdue : s.dev.pwr.readyAt + s.dev.cf P.SEC_TRIAL_S * sec ≤ max s.dev.now t) :
    exec (.trialExpire t) s = .next { s with dev := ((s.dev.at t).power fun p => { p with tries := 0 }).resetBy 11 } := by
  change execTrialExpire t s = _
  rw [execTrialExpire, run, runAlways, if_pos hup]
  simp only [at_fields, cf_at, now_at, htrial, hdue, decide_true, Bool.and_true, if_true]

/-- R283: the restart of a SILENT unit is noted among those of the last 24 h. -/
def Machine.Dev.noteRestart (d : Dev) : Dev := { d with peer := { d.peer with restarts := d.now :: d.recentRestarts } }

/-- R283: a SILENT unit restarts itself, as often as it may in 24 h. -/
theorem silentRestart_resets {a : Nat} (hup : s.dev.up = true) (hsilent : s.dev.peer.silentAt = some a) (hstate : s.dev.rd P.DPX_STATE = 4)
    (hon : s.dev.cf P.DPX_RESTART_S ≠ 0) (hdue : a + s.dev.cf P.DPX_RESTART_S * sec ≤ max s.dev.now t)
    (hfew : (s.dev.at t).recentRestarts.length < s.dev.cf P.DPX_RESTART_MAX) :
    exec (.silentRestart t) s = .next { s with dev := (s.dev.at t).noteRestart.resetBy 8 } := by
  have hguard : (decide (s.dev.rd P.DPX_STATE = 4) && decide (s.dev.cf P.DPX_RESTART_S ≠ 0) &&
      decide (a + s.dev.cf P.DPX_RESTART_S * sec ≤ max s.dev.now t) &&
      decide ((s.dev.at t).recentRestarts.length < s.dev.cf P.DPX_RESTART_MAX)) = true := by
    rw [decide_eq_true hstate, decide_eq_true hon, decide_eq_true hdue, decide_eq_true hfew]
    rfl
  change execSilentRestart t s = _
  rw [execSilentRestart, run, runAlways, if_pos hup]
  dsimp only
  split
  next b hb =>
    obtain rfl : a = b := Option.some.inj (hsilent.symm.trans hb)
    exact congrArg (fun d => Host.Outcome.next { s with dev := d }) (if_pos hguard)
  next hb => exact nomatch hsilent.symm.trans hb

/-- Table 18.4: a unit whose firmware has not made the host link ready 5 s after the release is reset. -/
theorem watchdogReset_starting (hmode : s.dev.pwr.mode = 2) (hdue : s.dev.pwr.readyAt + 5 * sec ≤ max s.dev.now t) :
    exec (.watchdogReset t) s = .next { s with dev := (s.dev.at t).resetBy 5 } := by
  change execWatchdogReset t s = _
  rw [execWatchdogReset, runAlways]
  simp only [at_fields, now_at, hmode, hdue, decide_true, Bool.and_true, if_true]

end

/-- Settles O15: each command goes by its equation above, and what a reset leaves by `resetBy_spec`. -/
theorem resetCauses : Obligations.ResetCauses := by
  unfold Obligations.ResetCauses
  refine ⟨?pin, ?rail, ?hot, ?trial, ?silent, ?watchdog⟩
  case pin =>
    intro s t width taken hup hwidth
    obtain ⟨hmode, hcause, hout, hseat, hrest, hitems⟩ := resetBy_spec (d := s.dev.at t) (.inl (mode_of_up hup)) 4
    exact ⟨_, resetPin_held taken hup hwidth, rfl, hmode, hcause, rfl, hout, hseat, by rw [rest_power, hrest]; rfl, hitems⟩
  case rail =>
    intro s t r mv since hup hr hlow hdue
    obtain ⟨hkept, hshown⟩ := railRead_spec (s.dev.at t) r mv
    have hpwr : ((s.dev.at t).railRead r mv).pwr.mode = 0 := (congrArg (·.pwr.mode) hkept).trans (mode_of_up hup)
    obtain ⟨hmode, hcause, hout, hseat, hrest, hitems⟩ := resetBy_spec (.inl hpwr) 3
    refine ⟨_, brownout_resets hr hlow hdue, rfl, hmode, hcause, hout, hseat, by rw [hrest, hkept]; rfl, ?items⟩
    case items => exact (hitems.mono (by simp) (by simp)).trans (hshown.mono (by simp) (by simp))
  case hot =>
    intro s t die temp hup hdie htemp
    obtain ⟨hkept, hshown⟩ := tempRead_spec (s.dev.at t) die temp
    have hpwr : ((s.dev.at t).tempRead die temp).pwr.mode = 0 := (congrArg (·.pwr.mode) hkept).trans (mode_of_up hup)
    obtain ⟨hmode, hcause, hout, hseat, hrest, hitems⟩ := resetBy_spec (.inl hpwr) 6
    refine ⟨_, thermalReset_resets hup hdie htemp, rfl, hmode, hcause, rfl, hout, hseat, by rw [rest_power, hrest, hkept]; rfl, ?items⟩
    case items => exact (hitems.mono (by simp) (by simp)).trans (hshown.mono (by simp) (by simp))
  case trial =>
    intro s t hup htrial hdue
    obtain ⟨hmode, hcause, hout, hseat, hrest, hitems⟩ :=
      resetBy_spec (d := (s.dev.at t).power fun p => { p with tries := 0 }) (.inl (mode_of_up hup)) 11
    obtain ⟨-, -, -, htries⟩ := resetBy_boot ((s.dev.at t).power fun p => { p with tries := 0 }) 11
    exact ⟨_, trialExpire_resets hup htrial hdue, rfl, hmode, hcause, htries, hout, hseat, hrest, hitems⟩
  case silent =>
    intro s t a hup hsilent hstate hon hdue hfew
    obtain ⟨hmode, hcause, hout, hseat, hrest, hitems⟩ := resetBy_spec (d := (s.dev.at t).noteRestart) (.inl (mode_of_up hup)) 8
    refine ⟨_, silentRestart_resets hup hsilent hstate hon hdue hfew, rfl, hmode, hcause, hout, hseat, ?restarts, hrest, hitems⟩
    case restarts => simp [Dev.resetBy, Dev.noteRestart, mode_of_up hup]
  case watchdog =>
    intro s t hmode2 hdue
    obtain ⟨hmode, hcause, hout, hseat, hrest, hitems⟩ := resetBy_spec (d := s.dev.at t) (.inr (.inl hmode2)) 5
    exact ⟨_, watchdogReset_starting hmode2 hdue, rfl, hmode, hcause, hout, hseat, hrest, hitems⟩

end Sys2Proof

namespace Sys2Proof
open Sys2Proof.Machine

/-! ### Boot -/

section
variable {d : Dev} (hpending : d.pwr.pending = 0xFF)
include hpending

/-- R473: with no slot pending the active slot boots where it is valid. -/
theorem bootSelect_active (hvalid : d.slotValid d.pwr.active = true) :
    d.bootSelect = (some d.pwr.active, { d.pwr with pending := 0xFF, trial := false, fallback := false }) := by
  simp [Dev.bootSelect, hpending, hvalid]

/-- R473, R474: with no slot pending and none valid nothing boots. -/
theorem bootSelect_none (hactive : d.slotValid d.pwr.active = false) (hother : d.slotValid (1 - d.pwr.active) = false) :
    d.bootSelect = (none, { d.pwr with pending := 0xFF, trial := false, fallback := false }) := by
  simp [Dev.bootSelect, hpending, hactive, hother]

end

/-- R465, R466: what a boot without a slot pending writes to the boot state. -/
def Machine.Dev.noteBoot (d : Dev) (lost : Bool) : Dev :=
  d.power fun p => { p with pending := 0xFF, trial := false, fallback := false, readyAt := d.now, cause := if lost then 2 else p.cause }

/-- R471: the firmware of the active slot starts. -/
def Machine.Dev.bootActive (d : Dev) (lost : Bool) : Dev :=
  ((d.noteBoot lost).power fun p => { p with mode := 2, slot := p.active }).emit (.pin "RESET_OUT_N" true)

/-- R474: the boot core waits for an image, the host link alone working. -/
def Machine.Dev.enterRecovery (d : Dev) (lost : Bool) : Dev :=
  [0, 1, 2, 3].foldl (fun d i => d.wr P.CHU_STATE i 0) { (d.noteBoot lost).power fun p => { p with mode := 3 } with host := {} }

/-- R465: nothing holds the boot of a unit in reset whose supplies are good and whose dies are cool. -/
theorem boot_not_held {d : Dev} (hmode : d.pwr.mode = 1) (hhot : d.pwr.hot = false) (hpin : d.pwr.pinLow = false) (hpfail : d.pwr.pfail = false) :
    ¬ ((decide (d.pwr.mode ≠ 1) || d.pwr.hot || d.pwr.pinLow || d.pwr.pfail) = true) := by
  simp [hmode, hhot, hpin, hpfail]

section
variable {s : State} {t : Nat} (lost : Bool) (hmode : s.dev.pwr.mode = 1) (hhot : s.dev.pwr.hot = false) (hpin : s.dev.pwr.pinLow = false)
  (hpfail : s.dev.pwr.pfail = false) (hdue : s.dev.pwr.due = none) (hpending : s.dev.pwr.pending = 0xFF)
include hmode hhot hpin hpfail hdue hpending

/-- R465, R473: a released unit boots its active slot. -/
theorem boot_active (hvalid : s.dev.slotValid s.dev.pwr.active = true) :
    exec (.boot t lost) s = .next { s with dev := (s.dev.at t).bootActive lost } := by
  have hselect := bootSelect_active (d := s.dev.at t) hpending hvalid
  change execBoot t lost s = _
  rw [execBoot, runAlways]
  simp only [show (s.dev.at t).pwr.due = none from hdue]
  simp only [if_neg (boot_not_held (d := s.dev.at t) hmode hhot hpin hpfail), hselect]
  rfl

/-- R474: a released unit without a valid slot waits in recovery. -/
theorem boot_recovery (hactive : s.dev.slotValid s.dev.pwr.active = false) (hother : s.dev.slotValid (1 - s.dev.pwr.active) = false) :
    exec (.boot t lost) s = .next { s with dev := (s.dev.at t).enterRecovery lost } := by
  have hselect := bootSelect_none (d := s.dev.at t) hpending hactive hother
  change execBoot t lost s = _
  rw [execBoot, runAlways]
  simp only [show (s.dev.at t).pwr.due = none from hdue]
  simp only [if_neg (boot_not_held (d := s.dev.at t) hmode hhot hpin hpfail), hselect]
  rfl

end

/-! ### Cold start -/

/-- R466, R467: the firmware of a booted unit starts. -/
theorem coldStart_starts {s : State} {t : Nat} (torn : Bool) (hmode : s.dev.pwr.mode = 2) :
    exec (.coldStart t torn) s = .next { s with dev := (s.dev.at t).coldStart torn } := by
  change execColdStart t torn s = _
  rw [execColdStart, runAlways]
  simp only [at_fields, hmode, decide_true, Bool.true_or, if_true]

/-- R43, R466, R467: the engines are emptied, the start is noted with its cause at the head of the history, and what follows reports it. -/
theorem coldStart_spec (d : Dev) (torn : Bool) : (d.coldStart torn).pwr.mode = 0 ∧ (d.coldStart torn).pwr.started = true ∧
    (d.coldStart torn).cyc.origin = none ∧ (d.coldStart torn).pwr.hist.head? = some (d.pwr.cause, d.pwr.slot, d.pwr.rtcReset) := by
  unfold Dev.coldStart
  extract_lets wake emptied engines starting noted trial shown kind logged reported
  have hengines : engines.pwr = emptied.pwr ∧ engines.cyc.origin = none := by
    have horigin : emptied.cyc.origin = none := rfl
    simp [engines, horigin]
  have hcause : emptied.pwr.cause = d.pwr.cause ∧ emptied.pwr.slot = d.pwr.slot ∧ emptied.pwr.rtcReset = d.pwr.rtcReset := ⟨rfl, rfl, rfl⟩
  clear_value engines emptied
  have hshown : shown.pwr.mode = 0 ∧ shown.pwr.started = true ∧ shown.cyc.origin = none ∧
      shown.pwr.hist.head? = some (d.pwr.cause, d.pwr.slot, d.pwr.rtcReset) := by
    simp [shown, noted, starting, Dev.power, hengines, hcause]
  have hreported : reported.pwr = shown.pwr ∧ reported.cyc.origin = shown.cyc.origin := by simp [reported, logged]
  clear_value shown reported
  rw [← hreported.1, ← hreported.2] at hshown
  split
  · simpa using hshown
  · exact hshown

/-! ### Firmware images -/

/-- Nothing follows the commands that wait, and none of them reads. -/
abbrev QuietQueue (l : List Queued) : Prop := ∀ q ∈ l, q.after = 0 ∧ ∀ p, q.decided ≠ .read p

/-- An answer after which nothing follows leaves the images being loaded. -/
theorem answer_loads (d : Dev) {q : Queued} (r : Reply) (h : q.after = 0) : (d.answer q r).host.loads = d.host.loads := by
  simp [Dev.answer, Dev.afterReply, h, Dev.noteReply]

theorem serveOne_loads (upto : Option Nat) (a : Dev × List Queued × List Nat) {q : Queued} (h : q.after = 0 ∧ ∀ p, q.decided ≠ .read p) :
    (Dev.serveOne upto a q).1.host.loads = a.1.host.loads := by
  unfold Dev.serveOne
  dsimp only
  split
  · rfl
  · split
    next r hdone =>
      cases upto with
      | none => exact answer_loads a.1 r h.1
      | some k => by_cases hk : q.cycle ≤ k <;> simp [hk, answer_loads a.1 r h.1]
    next p hread => exact absurd hread (h.2 p)
    next hheld => rfl

/-- Serving commands after which nothing follows, none of which reads, leaves the images being loaded. -/
theorem serveQueue_loads (d : Dev) (upto : Option Nat) (h : QuietQueue d.host.queue) : (d.serveQueue upto).host.loads = d.host.loads :=
  List.foldlRecOn d.host.queue (Dev.serveOne upto) (b := ({ d with host := { d.host with queue := [] } }, [], []))
    (motive := fun a => a.1.host.loads = d.host.loads) rfl fun a ha q hq => (serveOne_loads upto a (h q hq)).trans ha

/-- R381: the held reply of a load as its decision leaves it. -/
def Machine.Load.fixReply (l : Load) (status : Nat) (q : Queued) : Queued :=
  if q.op == 9 && q.ep == l.ep && q.tag == l.tag && q.decided == .held then { q with decided := .done { status := status } } else q

/-- R381: the image `l` is loaded no more, and its reply is decided. -/
def Machine.Dev.closeFirmware (d : Dev) (l : Load) (status : Nat) : Dev :=
  { d with host := { d.host with loads := d.host.loads.filter fun x => !(x.target == 0x7C && x.done), queue := d.host.queue.map (l.fixReply status) } }

theorem loadDecided_firmware {d : Dev} {l : Load} (h : d.host.loads.find? (fun x => x.target == 0x7C && x.done) = some l) (status : Nat) :
    d.loadDecided 0x7C status = d.closeFirmware l status := by
  simp only [Dev.loadDecided, h]
  rfl

/-- A decided load is no read. -/
theorem fixReply_quiet (l : Load) (status : Nat) {q : Queued} (h : q.after = 0 ∧ ∀ p, q.decided ≠ .read p) :
    (l.fixReply status q).after = 0 ∧ ∀ p, (l.fixReply status q).decided ≠ .read p := by
  unfold Load.fixReply
  split
  · exact ⟨h.1, nofun⟩
  · exact h

/-- R381: a firmware image decided, its reply given where it may be. -/
def Machine.Dev.endFirmware (d : Dev) (status : Nat) (upto : Option Nat) : Dev := (d.loadDecided 0x7C status).serveQueue upto

/-- R381: what the end of a firmware image leaves where the commands that wait are quiet. -/
theorem endFirmware_spec {d : Dev} {l : Load} (hload : d.host.loads.find? (fun x => x.target == 0x7C && x.done) = some l)
    (hquiet : QuietQueue d.host.queue) (status : Nat) (upto : Option Nat) :
    (d.endFirmware status upto).rest = { d.rest with host := quietHost (d.endFirmware status upto).host } ∧
    (d.endFirmware status upto).host.loads = d.host.loads.filter (fun x => !(x.target == 0x7C && x.done)) ∧
    ItemsBut [] [] (d.endFirmware status upto) d := by
  have hclosed : QuietQueue (d.closeFirmware l status).host.queue :=
    List.forall_mem_map.2 fun q hq => fixReply_quiet l status (hquiet q hq)
  rw [Dev.endFirmware, loadDecided_firmware hload]
  obtain ⟨hrest, hitems⟩ := serve_quiet (d.closeFirmware l status) upto hclosed
  exact ⟨hrest, serveQueue_loads _ upto hclosed, hitems⟩

/-- The slot that an image checked with the result `r` leaves (R472). -/
def checkedSlot (img : Bytes) (r : Nat) : Slot := { state := if r = 0 then 1 else 2, image := some img }

/-- R476: the slot of an image checked is set, a refusal is counted, and the result is reported. -/
def Machine.Dev.noteChecked (d : Dev) (i r : Nat) (img : Bytes) : Dev :=
  ((d.setBootSlot i (checkedSlot img r)).when (r != 0) (·.inc P.SEC_IMG_REFUSED)).imageNotice i r img

/-- R476: what the end of an image's check does; the reply waits for the commit of its cycle where the unit commits. -/
def Machine.Dev.checkFirmware (d : Dev) (i r : Nat) (img : Bytes) : Dev :=
  let d1 := d.noteChecked i r img
  d1.endFirmware (if r = 0 then 0 else 4) (if d1.commits then some (d1.cyc.next - 1) else none)

/-- R474: a valid image goes to slot A, which becomes active, and the unit starts cold. -/
def Machine.Dev.takeRecovery (d : Dev) (img : Bytes) : Dev :=
  (((d.endFirmware 0 none).setBootSlot 0 (checkedSlot img 0)).power fun p => { p with active := 0, pending := 0xFF, tries := 0 }).resetBy 13

/-- R474: an image that fails its check leaves slot A invalid. -/
def Machine.Dev.refuseRecovery (d : Dev) (img : Bytes) : Dev := (d.endFirmware 4 none).setBootSlot 0 { state := 2, image := some img }

/-- The count of a refusal and the report of a result leave the Host Port's queue and loads. -/
theorem countChecked_spec (d : Dev) (i r : Nat) (img : Bytes) :
    ((d.when (r != 0) (·.inc P.SEC_IMG_REFUSED)).imageNotice i r img).rest = d.rest ∧
    ((d.when (r != 0) (·.inc P.SEC_IMG_REFUSED)).imageNotice i r img).host.queue = d.host.queue ∧
    ((d.when (r != 0) (·.inc P.SEC_IMG_REFUSED)).imageNotice i r img).host.loads = d.host.loads ∧
    ((d.when (r != 0) (·.inc P.SEC_IMG_REFUSED)).imageNotice i r img).rd P.SEC_IMG_REFUSED =
      if r = 0 then d.rd P.SEC_IMG_REFUSED else bumped P.SEC_IMG_REFUSED (d.rd P.SEC_IMG_REFUSED) := by
  unfold Dev.imageNotice Dev.when
  by_cases hr : r = 0
  · simp (disch := decide) [hr, notice_reads]
  · simp (disch := decide) [hr, notice_reads, rd_inc_self]

theorem noteChecked_spec (d : Dev) (i r : Nat) (img : Bytes) :
    (d.noteChecked i r img).rest = { d.rest with pwr := { d.pwr with slots := d.pwr.slots.set i (checkedSlot img r) } } ∧
    (d.noteChecked i r img).host.queue = d.host.queue ∧ (d.noteChecked i r img).host.loads = d.host.loads ∧
    (d.noteChecked i r img).rd P.SEC_IMG_REFUSED =
      if r = 0 then d.rd P.SEC_IMG_REFUSED else bumped P.SEC_IMG_REFUSED (d.rd P.SEC_IMG_REFUSED) :=
  countChecked_spec (d.setBootSlot i (checkedSlot img r)) i r img

section
variable {d : Dev} {l : Load} (hload : d.host.loads.find? (fun x => x.target == 0x7C && x.done) = some l) (hquiet : QuietQueue d.host.queue)
include hload hquiet

theorem checkFirmware_spec (i r : Nat) (img : Bytes) :
    (d.checkFirmware i r img).pwr = { d.pwr with slots := d.pwr.slots.set i (checkedSlot img r) } ∧
    (d.checkFirmware i r img).host.loads = d.host.loads.filter (fun x => !(x.target == 0x7C && x.done)) ∧
    (d.checkFirmware i r img).rd P.SEC_IMG_REFUSED =
      (if r = 0 then d.rd P.SEC_IMG_REFUSED else bumped P.SEC_IMG_REFUSED (d.rd P.SEC_IMG_REFUSED)) ∧
    (d.checkFirmware i r img).com = d.com := by
  obtain ⟨hchecked, hqueue, hloads, hcount⟩ := noteChecked_spec d i r img
  obtain ⟨hrest, hended, hitems⟩ := endFirmware_spec (d := d.noteChecked i r img) (hloads ▸ hload) (hqueue ▸ hquiet) (if r = 0 then 0 else 4)
    (if (d.noteChecked i r img).commits then some ((d.noteChecked i r img).cyc.next - 1) else none)
  refine ⟨?pwr, ?loads, ?count, ?com⟩
  case pwr => exact (congrArg (·.pwr) hrest).trans (congrArg (·.pwr) hchecked)
  case loads => exact hended.trans (by rw [hloads])
  case count => exact (hitems P.SEC_IMG_REFUSED 0 rfl List.not_mem_nil nofun).1.trans hcount
  case com => exact (congrArg (·.com) hrest).trans (congrArg (·.com) hchecked)

theorem takeRecovery_spec (hmode : d.pwr.mode = 3) (img : Bytes) :
    (d.takeRecovery img).pwr.slots = d.pwr.slots.set 0 (checkedSlot img 0) ∧ (d.takeRecovery img).pwr.mode = 1 ∧
    (d.takeRecovery img).pwr.cause = 13 ∧ (d.takeRecovery img).pwr.active = 0 ∧ (d.takeRecovery img).pwr.pending = 0xFF := by
  have hended : (d.endFirmware 0 none).pwr = d.pwr := congrArg (·.pwr) (endFirmware_spec hload hquiet 0 none).1
  unfold Dev.takeRecovery
  generalize d.endFirmware 0 none = e at hended ⊢
  have hwritten : ((e.setBootSlot 0 (checkedSlot img 0)).power fun p => { p with active := 0, pending := 0xFF, tries := 0 }).pwr =
      { d.pwr with slots := d.pwr.slots.set 0 (checkedSlot img 0), active := 0, pending := 0xFF, tries := 0 } := by rw [← hended]; rfl
  generalize (e.setBootSlot 0 (checkedSlot img 0)).power (fun p => { p with active := 0, pending := 0xFF, tries := 0 }) = w at hwritten ⊢
  obtain ⟨hreset, hcause, -⟩ := resetBy_spec (d := w) (.inr (.inr ((congrArg (·.mode) hwritten).trans hmode))) 13
  obtain ⟨hslots, hactive, hpending, -⟩ := resetBy_boot w 13
  exact ⟨hslots.trans (congrArg (·.slots) hwritten), hreset, hcause, hactive.trans (congrArg (·.active) hwritten),
    hpending.trans (congrArg (·.pending) hwritten)⟩

theorem refuseRecovery_pwr (img : Bytes) {r : Nat} (hr : r ≠ 0) :
    (d.refuseRecovery img).pwr = { d.pwr with slots := d.pwr.slots.set 0 (checkedSlot img r) } := by
  have hended : (d.endFirmware 4 none).pwr = d.pwr := congrArg (·.pwr) (endFirmware_spec hload hquiet 4 none).1
  simp [Dev.refuseRecovery, Dev.setBootSlot, Dev.power, hended, checkedSlot, hr]

end

section
variable {s : State} {t : Nat} {l : Load} (hload : s.dev.host.loads.find? (fun x => x.target == 0x7C && x.done) = some l)
include hload

/-- R476: the check of an image loaded decides the slot that is not active. -/
theorem imageCheckDone_decides (hup : s.dev.up = true) (other : Nat) {r : Nat}
    (hr : imageResult l.data (s.dev.rd P.SEC_ARB) (max 1 other) = r) :
    exec (.imageCheckDone t other) s = .next { s with dev := (s.dev.at t).checkFirmware (1 - s.dev.pwr.active) r l.data } := by
  have hslot : (s.dev.at t).loadSlot = 1 - s.dev.pwr.active := if_neg (by simp [mode_of_up hup])
  change execImageCheckDone t other s = _
  rw [execImageCheckDone, run, runAlways, if_pos hup]
  simp only [show (s.dev.at t).host.loads.find? (fun x => x.target == 0x7C && x.done) = some l from hload, hslot, rd_at, hr]
  rfl

section
variable (hmode : s.dev.pwr.mode = 3)
include hmode

/-- R474: recovery takes a valid image. -/
theorem recoveryImageWrite_takes (hok : imageResult l.data (s.dev.rd P.SEC_ARB) 1 = 0) :
    exec (.recoveryImageWrite t) s = .next { s with dev := (s.dev.at t).takeRecovery l.data } := by
  change execRecoveryImageWrite t s = _
  rw [execRecoveryImageWrite, runAlways]
  simp only [show (s.dev.at t).host.loads.find? (fun x => x.target == 0x7C && x.done) = some l from hload, rd_at, hok,
    show (s.dev.at t).pwr.mode = 3 from hmode]
  rfl

/-- R474: recovery refuses any other image. -/
theorem recoveryImageWrite_refuses (hbad : imageResult l.data (s.dev.rd P.SEC_ARB) 1 ≠ 0) :
    exec (.recoveryImageWrite t) s = .next { s with dev := (s.dev.at t).refuseRecovery l.data } := by
  change execRecoveryImageWrite t s = _
  rw [execRecoveryImageWrite, runAlways]
  simp only [show (s.dev.at t).host.loads.find? (fun x => x.target == 0x7C && x.done) = some l from hload, rd_at, beq_false_of_ne hbad,
    show (s.dev.at t).pwr.mode = 3 from hmode]
  rfl

end

end

/-- Settles O16: each command goes by its equation above, what a cold start leaves by `coldStart_spec`, and what the end of an image leaves by
`endFirmware_spec`. -/
theorem bootAndStart : Obligations.BootAndStart := by
  unfold Obligations.BootAndStart
  refine ⟨?boots, ?waits, ?starts, ?recovers, ?checks⟩
  case boots =>
    intro s t lost hmode hhot hpin hpfail hdue hpending hvalid
    exact ⟨_, boot_active lost hmode hhot hpin hpfail hdue hpending hvalid, rfl, rfl, rfl, rfl, rfl, rfl, itemsBut_self _ _ s.dev⟩
  case waits =>
    intro s t lost hmode hhot hpin hpfail hdue hpending hactive hother
    exact ⟨_, boot_recovery lost hmode hhot hpin hpfail hdue hpending hactive hother, rfl, rfl, rfl, rfl, rfl⟩
  case starts =>
    intro s t torn hmode
    exact ⟨_, coldStart_starts torn hmode, rfl, coldStart_spec (s.dev.at t) torn⟩
  case recovers =>
    intro s t l hmode hload hquiet
    by_cases hok : imageResult l.data (s.dev.rd P.SEC_ARB) 1 = 0
    · obtain ⟨hslots, hcold⟩ := takeRecovery_spec (d := s.dev.at t) hload hquiet hmode l.data
      exact ⟨_, recoveryImageWrite_takes hload hmode hok, rfl, by rw [hok]; exact hslots, fun _ => hcold, fun hbad => absurd hok hbad⟩
    · have hpwr := refuseRecovery_pwr (d := s.dev.at t) hload hquiet l.data hok
      refine ⟨_, recoveryImageWrite_refuses hload hmode hok, rfl, congrArg (·.slots) hpwr, fun hzero => absurd hzero hok, fun _ => ?_⟩
      rw [hpwr]
      rfl
  case checks =>
    intro s t l other hup hload hquiet
    exact ⟨_, imageCheckDone_decides hload hup other rfl, rfl, checkFirmware_spec (d := s.dev.at t) hload hquiet ..⟩

end Sys2Proof

namespace Sys2Proof
open Sys2Proof.Machine

/-! ### The Recorder -/

/-- A record as the Recorder enters it (R425, R429): under the next sequence of its region, open, without repeats. -/
def Machine.Rec.entered (r : Rec) (seq : Nat) : Rec :=
  { r with seq := seq, rep := 0, last := r.stamp, repF := 0, lastF := r.stamp, isOpen := true }

/-- R421: outside a commit a record carries the instant at which it is formed. -/
theorem log_outside_commit {d : Dev} (h : d.cyc.inCommit = none) (code tile : Nat) (body : Bytes) :
    d.log code tile body = d.record
      { code := code, safety := safetyCode code, sev := sevOf code, source := engineOf code * 256 + tile, stamp := d.now, body := body } := by
  simp only [Dev.log, h]

/-- R423, R425: a record that repeats none and finds room takes the next sequence of its region. -/
theorem record_enters {d : Dev} {r : Rec} (hchute : d.rd P.CHU_STATE 15 = 0) (hnew : d.rcd.isRepeat r = false) (hroom : d.rcd.full r.body = false) :
    d.record r = { d.inc P.LOG_NEXT (bit r.safety) with rcd := d.rcd.enter (r.entered (d.rd P.LOG_NEXT (bit r.safety))) } := by
  simp only [Dev.record, chuteDown_of_up hchute, hnew, hroom, Bool.false_eq_true, if_false]
  rfl

/-- R421, R423, R425: outside a commit a code's record with a body that no open record has enters under the next sequence. -/
theorem log_enters {d : Dev} {code tile : Nat} {body : Bytes} (hcommit : d.cyc.inCommit = none) (hchute : d.rd P.CHU_STATE 15 = 0)
    (hnew : ∀ r : Rec, r.body = body → d.rcd.isRepeat r = false) (hroom : d.rcd.full body = false) :
    d.log code tile body = { d.inc P.LOG_NEXT (bit (safetyCode code)) with
      rcd := d.rcd.enter
        { code := code, safety := safetyCode code, sev := sevOf code, source := engineOf code * 256 + tile, stamp := d.now, body := body,
          seq := d.rd P.LOG_NEXT (bit (safetyCode code)), last := d.now, lastF := d.now } } :=
  (log_outside_commit hcommit code tile body).trans (record_enters hchute (hnew _ rfl) hroom)

/-- R424, R437: the Recorder after a flush of an empty buffer: the sequences noted, the image discarded. -/
def Machine.Recorder.noteFlush (g : Recorder) (next : List Nat) : Recorder :=
  { g with buf := [], nvNext := next, image := none, imageTail := 0
           regions := g.regions.map fun h => { h with recs := h.recs.map Rec.flushed } }

/-- R424: a flush of an empty buffer. -/
def Machine.Dev.noteFlush (d : Dev) : Dev :=
  (d.inc P.LOG_FLUSHES).recorder fun g => g.noteFlush [d.rd P.LOG_NEXT 0, d.rd P.LOG_NEXT 1]

theorem flush_empty {d : Dev} (hpfail : d.rcd.pfail = false) (hchute : d.rd P.CHU_STATE 15 = 0) (hbuf : d.rcd.buf = []) :
    d.flush = d.noteFlush := by
  simp only [Dev.flush, hpfail, chuteDown_of_up hchute, hbuf, Bool.or_self, Bool.false_eq_true, if_false, List.foldl_nil]
  rfl

/-- R439, R440: a failed block of region `r` is retired with the records `lost`, a spare takes its place, and the failure is reported. -/
def Machine.Dev.retireBlock (d : Dev) (r block cause : Nat) (lost : List Nat) : Dev :=
  let gone := (nth d.rcd.regions r).recs.filter fun x => lost.contains x.seq
  let d1 := ((d.inc P.LOG_RETIRED r).region r fun g =>
    { g with recs := g.recs.filter fun x => !lost.contains x.seq, failRun := g.failRun + 1,
             unreadable := g.unreadable || (cause == 4 && !gone.isEmpty) }).wr P.LOG_SPARES r (d.rd P.LOG_SPARES r - 1)
  (d1.showRegion r).fault 0x7082 (location 20 1 0 .cell) (le 2 block ++ le 1 cause ++ le 2 gone.length ++ le 2 (d1.rd P.LOG_SPARES r))

/-- R441: a region with three failures in a row, or without capacity, is lost. -/
def Machine.Dev.judgeRegion (d : Dev) (r : Nat) : Dev :=
  if 3 ≤ (nth d.rcd.regions r).failRun then d.regionLost r 1
  else if d.rd P.LOG_CAPACITY r = 0 then d.regionLost r 2 else d

theorem judgeRegion_spec (d : Dev) (r : Nat) :
    (d.judgeRegion r).rest = { d.rest with rcd := quietRcd (d.judgeRegion r).rcd } ∧ ItemsBut [] [] (d.judgeRegion r) d := by
  unfold Dev.judgeRegion
  split
  · exact ⟨regionLost_rest d r 1, (regionLost_spec d r 1).2⟩
  · split
    · exact ⟨regionLost_rest d r 2, (regionLost_spec d r 2).2⟩
    · exact ⟨rfl, itemsBut_self _ _ d⟩

theorem retireBlock_rest (d : Dev) (r block cause : Nat) (lost : List Nat) :
    (d.retireBlock r block cause lost).rest = { d.rest with rcd := quietRcd (d.retireBlock r block cause lost).rcd } := by
  simp [Dev.retireBlock]

theorem retireBlock_items (d : Dev) (r block cause : Nat) (lost : List Nat) :
    ItemsBut [] [(P.LOG_RETIRED, r), (P.LOG_SPARES, r), (P.LOG_FIRST, r), (P.LOG_USED, r)] (d.retireBlock r block cause lost) d := by
  simp [Dev.retireBlock, itemsBut_showRegion, itemsBut_wr, itemsBut_region, itemsBut_inc]

theorem rd_retireBlock_retired (d : Dev) (r block cause : Nat) (lost : List Nat) :
    (d.retireBlock r block cause lost).rd P.LOG_RETIRED r = bumped P.LOG_RETIRED (d.rd P.LOG_RETIRED r) := by
  simp (disch := decide) only [Dev.retireBlock, fault_reads, showRegion_reads, rd_wr_ne, region_reads, rd_inc_self]

theorem rd_retireBlock_spares (d : Dev) (r block cause : Nat) (lost : List Nat) :
    (d.retireBlock r block cause lost).rd P.LOG_SPARES r = d.rd P.LOG_SPARES r - 1 := by
  simp (disch := decide) only [Dev.retireBlock, fault_reads, showRegion_reads, rd_wr]

section
variable {s : State} {t : Nat} (hup : s.dev.up = true)
include hup

/-- R419: a code of a group's range forms a record. -/
theorem logRecordEnter_forms {code : Nat} {body : Bytes} (tile : Nat) (hbody : body.length ≤ 236) (hlo : code % 256 ≠ 0) (hhi : code % 256 < 255)
    (hcode : code < 65536) :
    exec (.logRecordEnter t code tile body) s = .next { s with dev := (s.dev.at t).log code (tile % 256) body } := by
  have hguard : ¬ ((decide (236 < body.length) || decide (code % 256 = 0) || decide (255 ≤ code % 256) || decide (65536 ≤ code)) = true) := by
    rw [decide_eq_false (Nat.not_lt.2 hbody), decide_eq_false hlo, decide_eq_false (Nat.not_le.2 hhi), decide_eq_false (Nat.not_le.2 hcode)]
    decide
  change execLogRecordEnter t code tile body s = _
  rw [execLogRecordEnter, run, runAlways, if_pos hup]
  exact congrArg (fun d => Host.Outcome.next { s with dev := d }) (if_neg hguard)

/-- R424: a trigger flushes the buffer, unless the supplies fail. -/
theorem logFlush_flushes (dur : Nat) (hpfail : s.dev.rcd.pfail = false) :
    exec (.logFlush t dur) s = .next { s with dev := (s.dev.at t).flush.maxTo P.LOG_FLUSH_MAX 0 dur } := by
  change execLogFlush t dur s = _
  rw [execLogFlush, run, runAlways, if_pos hup]
  exact congrArg (fun d => Host.Outcome.next { s with dev := d }) (if_neg (Bool.eq_false_iff.1 hpfail))

/-- R441: a region that is due for a retry and takes the write leaves the last-words area. -/
theorem logRegionRetry_leaves {r : Nat} (hr : r < 2) (hlw : (nth s.dev.rcd.regions r).lastWords = true)
    (hdue : (nth s.dev.rcd.regions r).retryAt ≤ max s.dev.now t) :
    exec (.logRegionRetry t r true) s = .next { s with dev :=
      ((s.dev.at t).region r fun g => { g with lastWords := false, failRun := 0 }).recorder fun g => { g with lwWrote := true } } := by
  have hguard : ¬ ((decide (2 ≤ r) || !(nth s.dev.rcd.regions r).lastWords ||
      decide (max s.dev.now t < (nth s.dev.rcd.regions r).retryAt)) = true) := by
    rw [decide_eq_false (Nat.not_le.2 hr), hlw, decide_eq_false (Nat.not_lt.2 hdue)]
    decide
  change execLogRegionRetry t r true s = _
  rw [execLogRegionRetry, run, runAlways, if_pos hup]
  exact congrArg (fun d => Host.Outcome.next { s with dev := d }) ((if_neg hguard).trans (if_pos rfl))

/-- R439, R440: a block that fails in a region with spares is retired, and the region is judged. -/
theorem logBlockFail_retires {r cause : Nat} (block : Nat) (lost : List Nat) (hr : r < 2) (hlo : 1 ≤ cause) (hhi : cause ≤ 4)
    (hspares : s.dev.rd P.LOG_SPARES r ≠ 0) :
    exec (.logBlockFail t r block cause lost) s =
      .next { s with dev := ((s.dev.at t).retireBlock r block cause lost).judgeRegion r } := by
  have hguard : ¬ ((decide (2 ≤ r) || decide (cause = 0) || decide (4 < cause)) = true) := by
    rw [decide_eq_false (Nat.not_le.2 hr), decide_eq_false (Nat.ne_of_gt hlo), decide_eq_false (Nat.not_lt.2 hhi)]
    decide
  change execLogBlockFail t r block cause lost s = _
  rw [execLogBlockFail, run, runAlways, if_pos hup]
  simp only [if_neg hguard, if_neg (show (s.dev.at t).rd P.LOG_SPARES r ≠ 0 from hspares)]
  rfl

end

/-- Settles O18: each command goes by its equation above, what a flush leaves by `flush_spec`, and what a lost region leaves by `judgeRegion_spec`. -/
theorem recorderEntersAndFlushes : Obligations.RecorderEntersAndFlushes := by
  unfold Obligations.RecorderEntersAndFlushes
  refine ⟨?record, ?empty, ?flush, ?block, ?retry⟩
  case record =>
    intro s t code tile body hup hbody hlo hhi hcode hcommit hchute hnew hroom
    have hexec := logRecordEnter_forms (t := t) hup tile hbody hlo hhi hcode
    rw [log_enters (d := s.dev.at t) hcommit hchute hnew hroom] at hexec
    refine ⟨_, hexec, rfl, rfl, rd_inc_self _ P.LOG_NEXT _, ?rest, ?items⟩
    case rest => simp
    case items => exact (itemsBut_incR (id := P.LOG_NEXT) rfl (s.dev.at t) s.dev _).2 (itemsBut_self _ _ s.dev)
  case empty =>
    intro s t dur hup hpfail hchute hbuf
    have hexec := logFlush_flushes (t := t) hup dur hpfail
    rw [flush_empty (d := s.dev.at t) hpfail hchute hbuf] at hexec
    have hrcd : ((s.dev.at t).noteFlush.maxTo P.LOG_FLUSH_MAX 0 dur).rcd = s.dev.rcd.noteFlush [s.dev.rd P.LOG_NEXT 0, s.dev.rd P.LOG_NEXT 1] := by
      simp [Dev.noteFlush, Dev.recorder]
    refine ⟨_, hexec, rfl, congrArg (·.buf) hrcd, congrArg (·.image) hrcd, congrArg (·.nvNext) hrcd, congrArg (·.regions) hrcd, ?count, ?rest, ?items⟩
    case count => simp (disch := decide) only [Dev.noteFlush, rd_maxTo_ne, recorder_reads, rd_inc_self, rd_at]
    case rest => simp [Dev.noteFlush]
    case items => simp [Dev.noteFlush, itemsBut_maxTo, itemsBut_recorder, itemsBut_inc]
  case flush =>
    intro s t dur hup hpfail
    refine ⟨_, logFlush_flushes hup dur hpfail, rfl, ?rest, ?items⟩
    case rest => simp
    case items => simp [itemsBut_maxTo, itemsBut_flush]
  case block =>
    intro s t r block cause lost hup hr hlo hhi hspares
    obtain ⟨hrest, hitems⟩ := judgeRegion_spec ((s.dev.at t).retireBlock r block cause lost) r
    refine ⟨_, logBlockFail_retires hup block lost hr hlo hhi hspares, rfl, ?retired, ?spares, ?rest, ?items⟩
    case retired => exact (hitems P.LOG_RETIRED r rfl List.not_mem_nil nofun).1.trans (rd_retireBlock_retired ..)
    case spares => exact (hitems P.LOG_SPARES r rfl List.not_mem_nil nofun).1.trans (rd_retireBlock_spares ..)
    case rest =>
      rw [hrest, retireBlock_rest]
      rfl
    case items => exact (hitems.mono (by simp) (by simp)).trans (retireBlock_items (s.dev.at t) r block cause lost)
  case retry =>
    intro s t r hup hr hlw hdue
    exact ⟨_, logRegionRetry_leaves hup hr hlw hdue, rfl, rfl, rfl, itemsBut_self _ _ s.dev⟩

end Sys2Proof
